-- ==== Sys2Proof/Word.lean ====
section
/-! DEFINITION. The word types of the device (spec/00_scope.md R2-R4): bits are numbered from 0 at the least significant end and
multi-byte values are little-endian. -/

namespace Sys2Proof

/-- One 32-bit register value. -/
abbrev Word := BitVec 32
/-- One 64-bit value: an instruction word, a pointer, a register pair. -/
abbrev DWord := BitVec 64
/-- One byte of memory. -/
abbrev Byte := BitVec 8

end Sys2Proof
end

