-- ==== Sys2Proof/Config.lean ====
section
/-! DEFINITION. What the spec leaves free. Each `opaque` constant is a free value: it has no body, so no proof can know what it is
(notes/assumptions/3.md lists them). -/

namespace Sys2Proof.Config

/-- A value the spec calls unspecified (spec/02_execution.md R30 and the other places that notes/assumptions/3.md names): the n-th
free 64-bit value of the run. -/
opaque freeValue : Nat → BitVec 64
/-- FSF .exp2, .log2, .sin and .cos: a fixed function of the function number, the stepping and the operand
(spec/06_core_float.md R202). -/
opaque fsf : Nat → Nat → BitVec 32 → BitVec 32
/-- What a read of an unmapped register returns when the context's strict-register bit is clear (spec/02_execution.md R30): by
step, thread and register. -/
opaque unmapped : Nat → Nat → Nat → BitVec 32
/-- Whether a read of a guarded register returns the landed value rather than the previous one (spec/04_encoding.md R118): by step,
thread and register. -/
opaque readsLanded : Nat → Nat → Nat → Bool
/-- A value of one thread's part of an instruction that the spec does not state: by step and thread. -/
opaque freeLane : Nat → Nat → BitVec 32
/-- What the boot sequence finds (spec/22_host.md R520, spec/01_package.md R14, R22-R24): the part, and by die index and word the
presence bits, the capacity and the fused and measured voltages. -/
opaque bootPart : Nat
opaque bootWord : Nat → Nat → BitVec 64
/-- Bytes that another package exports (spec/19_fabric.md R470): no register of this package says (notes/assumptions/60.md). -/
opaque exportSize : Nat → Nat
/-- Whether a package takes part in a pod barrier group (spec/19_fabric.md R483): no register lists the participants. -/
opaque podMember : Nat → Nat → Bool
/-- How many elements the two computations of an MCHK differ in: 0 unless an array erred (spec/12_matrix.md R341). -/
opaque matrixDiffer : Nat → Nat
/-- Nanoseconds that pass in one step; timing is outside the declared scope (notes/assumptions/4.md). -/
opaque elapsedNs : Nat → Nat
/-- Quad-clock cycles that pass in one step on a quad that runs the elastic clock (notes/assumptions/4.md). -/
opaque elapsedCycles : Nat → Nat → Nat
/-- Quad-clock cycles that pass in one step on every quad that runs the pinned clock (spec/10_distributor.md R294: all
advance by equal amounts). -/
opaque elapsedPinned : Nat → Nat

end Sys2Proof.Config
end

