-- ==== Sys2Proof/Syntax.lean ====
section
/-! DEFINITION. The instructions and device events of spec/opcode_table.json: ONE inductive with one constructor per row. An
instruction carries the fields of its format (spec/04_encoding.md R109-R113, spec/10_distributor.md R289) under the spec's own
field names; a device event (rows without an encoding) carries the operands that say which instance of the event it is. -/

namespace Sys2Proof

/-- Format A, register (spec/04_encoding.md R109). -/
structure FA where
  pred : BitVec 3
  pneg : Bool
  d : BitVec 8
  a : BitVec 8
  b : BitVec 8
  c : BitVec 8
  la : Bool
  lb : Bool
  lc : Bool
  bk : Bool
  sbs : BitVec 3
  sbv : Bool
  md : BitVec 12
  deriving DecidableEq, Repr

/-- Format I, immediate (spec/04_encoding.md R110). -/
structure FI where
  pred : BitVec 3
  pneg : Bool
  d : BitVec 8
  a : BitVec 8
  la : Bool
  md : BitVec 3
  imm : BitVec 32
  deriving DecidableEq, Repr

/-- Format M, memory (spec/04_encoding.md R111). -/
structure FM where
  pred : BitVec 3
  pneg : Bool
  d : BitVec 8
  a : BitVec 8
  la : Bool
  ld : Bool
  scope : BitVec 3
  sbs : BitVec 3
  sbv : Bool
  width : BitVec 3
  md : BitVec 4
  off : BitVec 20
  deriving DecidableEq, Repr

/-- Format B, branch (spec/04_encoding.md R112). -/
structure FB where
  pred : BitVec 3
  pneg : Bool
  hint : BitVec 2
  j : BitVec 4
  md : BitVec 6
  a : BitVec 8
  off : BitVec 32
  deriving DecidableEq, Repr

/-- Format X, engine command (spec/04_encoding.md R113). -/
structure FX where
  pred : BitVec 3
  pneg : Bool
  a : BitVec 8
  b : BitVec 8
  la : Bool
  lb : Bool
  row : BitVec 8
  col : BitVec 8
  die : BitVec 4
  md : BitVec 14
  deriving DecidableEq, Repr

/-- Format S, sequencer (spec/10_distributor.md R289). -/
structure FS where
  ar : BitVec 3
  br : BitVec 3
  doff : BitVec 18
  boff : BitVec 16
  smod : BitVec 16
  deriving DecidableEq, Repr

/-- A stacked core: die index and core number within the die (spec/01_package.md R13, R16). -/
structure CoreRef where
  die : Nat
  num : Nat
  deriving DecidableEq, Repr

/-- The two sequencers of a core (spec/10_distributor.md R287). -/
inductive SeqKind where
  | copy
  | matrix
  deriving DecidableEq, Repr

/-- Who waits in a wait that the wait-timeout bounds (spec/08_core_sync.md R248). -/
inductive Waiter where
  | thread (blk tl : Nat)
  | sequencer (core : CoreRef) (kind : SeqKind)
  deriving DecidableEq, Repr

/-- A visibility packet (spec/13_geometry.md R369): the header's fields and the payload bytes (R370). -/
structure Packet where
  rgx : Nat
  rgy : Nat
  gdie : Nat
  draw : BitVec 16
  task : BitVec 16
  midx : BitVec 16
  part : Nat
  lastp : Bool
  nvert : Nat
  nprim : Nat
  aw : Nat
  payload : List (BitVec 8)
  deriving DecidableEq, Repr

/-- Where an error strikes (spec/20_reliability.md R488, R493; spec/18_cache.md R467). -/
inductive ErrSite where
  /-- state of a block, found while thread tl runs -/
  | blockState (blk tl : Nat)
  /-- the paired lanes of a protected launch disagree (R491) -/
  | lanePair (blk tl : Nat)
  /-- a dirty L1 line of a core, found by an access of thread tl of blk -/
  | dirtyLine (core : CoreRef) (granule blk tl : Nat)
  /-- an entry of the coherence tag array -/
  | tagEntry (granule : Nat)
  /-- a granule of GDDR-7 -/
  | memory (granule : Nat)
  /-- a bank share: `l2` says which level; `die` and `bank` name the bank; the dirty granules that the failing line held -/
  | share (l2 : Bool) (die bank way : Nat) (dirty : List Nat)
  /-- an element that an engine operation reads or writes; `detail` is its byte offset -/
  | engineOp (op detail : Nat)
  /-- any other protected word: die, core, unit and unit index as in an error record (R500) -/
  | other (die core unit uidx : Nat)
  deriving DecidableEq, Repr

/-- The kinds of remote request (spec/19_fabric.md R479). -/
inductive RemoteKind where
  | load
  | writeBack
  /-- with its acquire and release parts at quad scope or wider -/
  | atomic (op : BitVec 4) (acq rel : Bool)
  | acquire
  | release
  deriving DecidableEq, Repr

/-- A request that another package sends (spec/19_fabric.md R470, R484). -/
structure RemoteReq where
  src : BitVec 14
  ctx : BitVec 10
  srcDie : BitVec 4
  srcCore : BitVec 7
  gen : BitVec 4
  kind : RemoteKind
  off : Nat
  width : Nat
  data : List (BitVec 8)
  /-- issuing priority of an acquiring access (spec/08_core_sync.md R250) -/
  prio : BitVec 7 := 0
  /-- the page is tracked at the requesting package, which keeps a copy (spec/18_cache.md R460) -/
  tracked : Bool := false
  deriving DecidableEq, Repr

/-- What the power controller measures at an evaluation of one die (spec/21_power.md R509, R510), in mW. -/
structure PowerReading where
  packageMw : Nat
  dieMw : Nat
  quadMw : List Nat
  below90For1ms : Bool
  over105For1ms : Bool
  overCurrent : List Nat
  deriving DecidableEq, Repr

/-- The instructions and device events of the opcode table. -/
inductive Instr where
  /-- NOP (R164) -/
  | nop (f : FA)
  /-- MOV (R164) -/
  | mov (f : FA)
  /-- MOVI (R164) -/
  | movi (f : FI)
  /-- MOVK (R164) -/
  | movk (f : FA)
  /-- IADD (R154) -/
  | iadd (f : FA)
  /-- IADD_I (R154) -/
  | iaddI (f : FI)
  /-- ISUB (R154) -/
  | isub (f : FA)
  /-- ISUB_I (R154) -/
  | isubI (f : FI)
  /-- IMUL (R154) -/
  | imul (f : FA)
  /-- IMUL_I (R154) -/
  | imulI (f : FI)
  /-- IMULHI (R154) -/
  | imulhi (f : FA)
  /-- IMAD (R154) -/
  | imad (f : FA)
  /-- IMADW (R154) -/
  | imadw (f : FA)
  /-- IADD64 (R154) -/
  | iadd64 (f : FA)
  /-- ISUB64 (R154) -/
  | isub64 (f : FA)
  /-- IMIN (R154) -/
  | imin (f : FA)
  /-- IMIN_I (R154) -/
  | iminI (f : FI)
  /-- IMAX (R154) -/
  | imax (f : FA)
  /-- IMAX_I (R154) -/
  | imaxI (f : FI)
  /-- IABS (R155) -/
  | iabs (f : FA)
  /-- INEG (R155) -/
  | ineg (f : FA)
  /-- LOGT (R156) -/
  | logt (f : FA)
  /-- AND (R156) -/
  | and (f : FA)
  /-- AND_I (R156) -/
  | andI (f : FI)
  /-- OR (R156) -/
  | or (f : FA)
  /-- OR_I (R156) -/
  | orI (f : FI)
  /-- XOR (R156) -/
  | xor (f : FA)
  /-- XOR_I (R156) -/
  | xorI (f : FI)
  /-- NOT (R156) -/
  | not (f : FA)
  /-- SHL (R157) -/
  | shl (f : FA)
  /-- SHL_I (R157) -/
  | shlI (f : FI)
  /-- SHR (R157) -/
  | shr (f : FA)
  /-- SHR_I (R157) -/
  | shrI (f : FI)
  /-- SAR (R157) -/
  | sar (f : FA)
  /-- SAR_I (R157) -/
  | sarI (f : FI)
  /-- SHF (R158) -/
  | shf (f : FA)
  /-- BFX (R159) -/
  | bfx (f : FA)
  /-- BFI (R159) -/
  | bfi (f : FA)
  /-- POPC (R160) -/
  | popc (f : FA)
  /-- CLZ (R160) -/
  | clz (f : FA)
  /-- CTZ (R160) -/
  | ctz (f : FA)
  /-- BREV (R160) -/
  | brev (f : FA)
  /-- PRMB (R160) -/
  | prmb (f : FA)
  /-- ISET (R161) -/
  | iset (f : FA)
  /-- ISET_I (R161) -/
  | isetI (f : FI)
  /-- ISET64 (R161) -/
  | iset64 (f : FA)
  /-- SEL (R162) -/
  | sel (f : FA)
  /-- LEA (R165) -/
  | lea (f : FA)
  /-- LEA_I (R165) -/
  | leaI (f : FI)
  /-- I2I (R166) -/
  | i2i (f : FA)
  /-- PLOP (R162) -/
  | plop (f : FA)
  /-- PSET (R163) -/
  | pset (f : FA)
  /-- SRD (R145) -/
  | srd (f : FA)
  /-- CYC (R148) -/
  | cyc (f : FA)
  /-- GPOLL (R174) -/
  | gpoll (f : FA)
  /-- GXCH (R175) -/
  | gxch (f : FA)
  /-- GPEER (R176) -/
  | gpeer (f : FA)
  /-- BRA (R168) -/
  | bra (f : FB)
  /-- BRX (R168) -/
  | brx (f : FB)
  /-- CALL (R169) -/
  | call (f : FB)
  /-- RET (R169) -/
  | ret (f : FB)
  /-- EXIT (R170) -/
  | exit (f : FB)
  /-- JSET (R46) -/
  | jset (f : FB)
  /-- JWAIT (R47) -/
  | jwait (f : FB)
  /-- YIELD (R171) -/
  | yield (f : FB)
  /-- FADD (R193) -/
  | fadd (f : FA)
  /-- FADD_I (R193) -/
  | faddI (f : FI)
  /-- FMUL (R193) -/
  | fmul (f : FA)
  /-- FMUL_I (R193) -/
  | fmulI (f : FI)
  /-- FFMA (R193) -/
  | ffma (f : FA)
  /-- FMULZ (R193) -/
  | fmulz (f : FA)
  /-- FMIN (R195) -/
  | fmin (f : FA)
  /-- FMAX (R195) -/
  | fmax (f : FA)
  /-- FSET (R196) -/
  | fset (f : FA)
  /-- FSET_I (R196) -/
  | fsetI (f : FI)
  /-- FCLASS (R197) -/
  | fclass (f : FA)
  /-- FRND (R198) -/
  | frnd (f : FA)
  /-- F2I (R199) -/
  | f2i (f : FA)
  /-- I2F (R200) -/
  | i2f (f : FA)
  /-- F2F (R201) -/
  | f2f (f : FA)
  /-- FSF (R202) -/
  | fsf (f : FA)
  /-- PKADD (R203) -/
  | pkadd (f : FA)
  /-- PKMUL (R203) -/
  | pkmul (f : FA)
  /-- PKFMA (R203) -/
  | pkfma (f : FA)
  /-- PKDOT (R204) -/
  | pkdot (f : FA)
  /-- DADD (R205) -/
  | dadd (f : FA)
  /-- DMUL (R205) -/
  | dmul (f : FA)
  /-- DFMA (R205) -/
  | dfma (f : FA)
  /-- LD (R210) -/
  | ld (f : FM)
  /-- ST (R211) -/
  | st (f : FM)
  /-- LDL (R210) -/
  | ldl (f : FM)
  /-- STL (R211) -/
  | stl (f : FM)
  /-- LDP (R210) -/
  | ldp (f : FM)
  /-- STP (R211) -/
  | stp (f : FM)
  /-- LDK (R210) -/
  | ldk (f : FM)
  /-- ATOM (R222) -/
  | atom (f : FM)
  /-- RED (R222) -/
  | red (f : FM)
  /-- ATOML (R222) -/
  | atoml (f : FM)
  /-- ACQ (R224) -/
  | acq (f : FM)
  /-- REL (R224) -/
  | rel (f : FM)
  /-- PHASE (R90) -/
  | phase (f : FM)
  /-- PREF (R228) -/
  | pref (f : FM)
  /-- CLINE (R229) -/
  | cline (f : FM)
  /-- DRAINST (R230) -/
  | drainst (f : FM)
  /-- VCQRY (R463) -/
  | vcqry (f : FM)
  /-- BAR (R235) -/
  | bar (f : FM)
  /-- BARARV (R235) -/
  | bararv (f : FM)
  /-- BARWAIT (R235) -/
  | barwait (f : FM)
  /-- BOINIT (R240) -/
  | boinit (f : FM)
  /-- BOEXP (R240) -/
  | boexp (f : FM)
  /-- BOARV (R240) -/
  | boarv (f : FM)
  /-- BOWAIT (R241) -/
  | bowait (f : FM)
  /-- BOTEST (R241) -/
  | botest (f : FM)
  /-- QDEF (R244) -/
  | qdef (f : FM)
  /-- QPUSH (R245) -/
  | qpush (f : FM)
  /-- QPOP (R245) -/
  | qpop (f : FM)
  /-- QTRY (R245) -/
  | qtry (f : FM)
  /-- CPY (R310) -/
  | cpy (f : FX)
  /-- CPYG (R311) -/
  | cpyg (f : FX)
  /-- CPYS (R311) -/
  | cpys (f : FX)
  /-- CPYFILL (R312) -/
  | cpyfill (f : FX)
  /-- CTLOAD (R315) -/
  | ctload (f : FX)
  /-- DECENT (R316) -/
  | decent (f : FX)
  /-- DECBR (R318) -/
  | decbr (f : FX)
  /-- MRESV (R334) -/
  | mresv (f : FX)
  /-- MRELS (R335) -/
  | mrels (f : FX)
  /-- MLOAD (R336) -/
  | mload (f : FX)
  /-- MCBL (R337) -/
  | mcbl (f : FX)
  /-- MMA (R339) -/
  | mma (f : FX)
  /-- MMAI (R340) -/
  | mmai (f : FX)
  /-- MZERO (R338) -/
  | mzero (f : FX)
  /-- MSTORE (R342) -/
  | mstore (f : FX)
  /-- MSTAT (R343) -/
  | mstat (f : FX)
  /-- MCHK (R341) -/
  | mchk (f : FX)
  /-- RAYQ (R414) -/
  | rayq (f : FX)
  /-- SQNOP (R290) -/
  | sqnop (f : FS)
  /-- SQLOOP (R290) -/
  | sqloop (f : FS)
  /-- SQEND (R292) -/
  | sqend (f : FS)
  /-- SQWAITC (R290) -/
  | sqwaitc (f : FS)
  /-- SQBOARV (R290) -/
  | sqboarv (f : FS)
  /-- SQBOWAIT (R290) -/
  | sqbowait (f : FS)
  /-- SEQ_CPY (R289) -/
  | seqCpy (f : FS)
  /-- SEQ_CPYG (R289) -/
  | seqCpyg (f : FS)
  /-- SEQ_CPYS (R289) -/
  | seqCpys (f : FS)
  /-- SEQ_CPYFILL (R289) -/
  | seqCpyfill (f : FS)
  /-- SEQ_CTLOAD (R289) -/
  | seqCtload (f : FS)
  /-- SEQ_DECENT (R289) -/
  | seqDecent (f : FS)
  /-- SEQ_DECBR (R289) -/
  | seqDecbr (f : FS)
  /-- SEQ_MRESV (R289) -/
  | seqMresv (f : FS)
  /-- SEQ_MRELS (R289) -/
  | seqMrels (f : FS)
  /-- SEQ_MLOAD (R289) -/
  | seqMload (f : FS)
  /-- SEQ_MCBL (R289) -/
  | seqMcbl (f : FS)
  /-- SEQ_MMA (R289) -/
  | seqMma (f : FS)
  /-- SEQ_MMAI (R289) -/
  | seqMmai (f : FS)
  /-- SEQ_MZERO (R289) -/
  | seqMzero (f : FS)
  /-- SEQ_MSTORE (R289) -/
  | seqMstore (f : FS)
  /-- SEQ_MSTAT (R289) -/
  | seqMstat (f : FS)
  /-- SEQ_MCHK (R289) -/
  | seqMchk (f : FS)
  /-- PAYPUSH (R358) -/
  | paypush (f : FA)
  /-- PAYPOP (R359) -/
  | paypop (f : FA)
  /-- MCOUNT (R362) -/
  | mcount (f : FA)
  /-- MVERT (R363) -/
  | mvert (f : FA)
  /-- MPRIM (R363) -/
  | mprim (f : FA)
  /-- MDONE (R364) -/
  | mdone (f : FA)
  /-- VISPOP (R387) -/
  | vispop (f : FA)
  /-- VISGET (R388) -/
  | visget (f : FA)
  /-- RGNACQ (R385) -/
  | rgnacq (f : FA)
  /-- RGNREL (R386) -/
  | rgnrel (f : FA)
  /-- RTBLEND (R389) -/
  | rtblend (f : FA)
  /-- TEX (R403) -/
  | tex (f : FA)
  /-- TLD (R403) -/
  | tld (f : FA)
  /-- TQRY (R403) -/
  | tqry (f : FA)
  /-- TRAP (R265) -/
  | trap (f : FI)
  /-- TRET (R267) -/
  | tret (f : FA)
  /-- FRGINFO (R266) -/
  | frginfo (f : FA)
  /-- SFQPOP (R268) -/
  | sfqpop (f : FA)
  /-- KILLF (R269) -/
  | killf (f : FA)
  /-- BPT (R265) -/
  | bpt (f : FI)
  /-- LAUNCH (R282) -/
  | launch (f : FA)
  /-- FORK (R291) -/
  | fork (f : FX)
  /-- RDV (R293) -/
  | rdv (f : FX)
  /-- SETPRIO (R283) -/
  | setprio (f : FI)
  /-- TMODE (R284) -/
  | tmode (f : FI)
  /-- XLDEC (R433) -/
  | xldec (f : FA)
  /-- XLMAP (R435) -/
  | xlmap (f : FA)
  /-- XLMAP_RAISE (R436) -/
  | xlmapRaise (f : FA)
  /-- VCDEF (R451) -/
  | vcdef (f : FA)
  /-- VCSIZE (R452) -/
  | vcsize (f : FA)
  /-- VCMOVE (R452) -/
  | vcmove (f : FA)
  /-- VCFLUSH (R453) -/
  | vcflush (f : FA)
  /-- BIASFLIP (R462) -/
  | biasflip (f : FA)
  /-- QFEAT (R524) -/
  | qfeat (f : FI)
  /-- CLAUSE_ISSUE (R32): At a clause boundary, ready threads are packed into groups and a clause header is fetched and checked. -/
  | clauseIssue (blk tl : Nat)
  /-- DESCHEDULE_EXPIRY (R252): After 65,536 quad cycles a descheduled thread becomes ready. -/
  | descheduleExpiry (blk tl : Nat)
  /-- YIELD_EXPIRY (R171): 256 issue cycles after a YIELD the thread becomes ready. -/
  | yieldExpiry (blk tl : Nat)
  /-- STALL_EXPIRY (R103): A thread's header STALL count elapses and it may be grouped. -/
  | stallExpiry (blk tl : Nat)
  /-- SLOT_LANDING (R118): An outstanding operation's result lands in its registers or poisons them. -/
  | slotLanding (blk tl op : Nat)
  /-- HOME_RELEASE (R85): A releasing access reaches the home, demands the previous releaser and updates the sync record. -/
  | homeRelease (req : Nat)
  /-- HOME_ACQUIRE (R86): An acquiring access reaches the home and demands the recorded write-back. -/
  | homeAcquire (req : Nat)
  /-- HOME_ATOMIC (R91): An atomic or reduction is performed at the home with invalidations. -/
  | homeAtomic (req : Nat)
  /-- HOME_FILL (R461): A fill request reaches the home, updating alias bits. -/
  | homeFill (req : Nat)
  /-- DEMAND_WRITE_BACK (R85): A core receives a demand and writes back its lines of the named generations. -/
  | demandWriteBack (core : CoreRef) (gen : BitVec 4)
  /-- WRITE_BACK_ARRIVAL (R76): Dirty bytes reach the home, merge, and invalidate other copies. -/
  | writeBackArrival (core : CoreRef) (granule : Nat)
  /-- WRITE_BACK_ACK (R86): The home's acknowledgement completes a waiting acquire, PHASE or flush. -/
  | writeBackAck (req : Nat)
  /-- BOOST_NOTICE (R251): A core raises the issue priority of the thread holding the named granule. -/
  | boostNotice (core : CoreRef) (granule : Nat) (prio : BitVec 7)
  /-- PAGE_MOVE_SWEEP_STEP (R455): The sweep marks one page moving, moves its lines and clears the mark. -/
  | pageMoveSweepStep (ctx idx frame : Nat)
  /-- VC_COMMAND_LANDING (R451): The engine finishes a VC command and lands its status. -/
  | vcCommandLanding (cmd : Nat)
  /-- BIASFLIP_COMPLETE (R462): The flip's write-backs and invalidations finish and BIASFLIP lands. -/
  | biasflipComplete (cmd : Nat)
  /-- ENGINE_DELIVERY (R239): An engine operation delivers bytes or an arrival, and at its final part updates the status word. -/
  | engineDelivery (op : Nat)
  /-- MATRIX_OP_START (R345): A queued matrix operation starts and decides its arrays. -/
  | matrixOpStart (op : Nat)
  /-- SQWAITC_EXPIRY (R290): The sequencer's cycle count reaches the target and it issues on. -/
  | sqwaitcExpiry (core : CoreRef) (kind : SeqKind)
  /-- FRONT_END_REQUEST (R366): The geometry front end clips, culls, bins and emits packets for one MDONE request. -/
  | frontEndRequest (die : Nat)
  /-- PAYPUSH_LANDING (R358): The payload is copied and the entry is published with the slot index. -/
  | paypushLanding (blk : Nat)
  /-- PACKET_ARRIVAL (R380): A visibility packet reaches its owner die and is held, spilled or discarded. -/
  | packetArrival (ctx : Nat) (p : Packet)
  /-- WATERMARK_FLIT (R380): An owner die receives a new watermark for a geometry die. -/
  | watermarkFlit (ctx gdie owner : Nat) (wm : BitVec 48)
  /-- LAUNCH_HEAD (R280): The distributor checks a launch at the head of its queue and binds its VCs and leases. -/
  | launchHead (ctx queue : Nat)
  /-- BLOCK_PLACE (R55): The distributor places and starts blocks once cores can hold them. -/
  | blockPlace (launch : Nat)
  /-- COMPLETION_RECORD (R277): The outcome is written and DONE incremented as a pod-scope release. -/
  | completionRecord (launch : Nat)
  /-- PREEMPT (R296): The distributor starts draining a victim core for higher-priority work. -/
  | preempt (core : CoreRef)
  /-- GRACE_EXPIRY (R296): The grace period ends and remaining blocks are to be saved. -/
  | graceExpiry (core : CoreRef)
  /-- ENGINE_DRAIN_EXPIRY (R296): After T_drain, in-flight operations are captured and the blocks are saved and flushed. -/
  | engineDrainExpiry (core : CoreRef)
  /-- BLOCK_RESTORE (R298): A saved block is restored, reissuing continuations and resuming sequencers. -/
  | blockRestore (blk : Nat) (core : CoreRef)
  /-- FIXED_CLOCK_CHANGE (R295): Once issuing clauses end, a quad changes between elastic and pinned clocks. -/
  | fixedClockChange (die quad : Nat)
  /-- BLOCK_RELAUNCH (R494): A rolled-back block restarts from its first clause on another quad. -/
  | blockRelaunch (blk : Nat) (core : CoreRef)
  /-- BILLING_SEND (R484): The serving package sends a billing flit every 1 ms or at 2^20 pJ. -/
  | billingSend (pkg : BitVec 14) (ctx : BitVec 10)
  /-- BOOT_STEP (R520): A boot step completes and BOOTSTS advances, or boot fails. -/
  | bootStep (ok : Bool)
  /-- CREATE (R521): Host command creating a context from its record and floor. -/
  | create (slot : BitVec 10) (arg : BitVec 46) (ptr : BitVec 64)
  /-- DESTROY (R521): Host command cancelling a context's launches and freeing its slot. -/
  | destroy (slot : BitVec 10) (arg : BitVec 46) (ptr : BitVec 64)
  /-- INVAL (R521): Host command invalidating TLB entries of a range. -/
  | inval (slot : BitVec 10) (arg : BitVec 46) (ptr : BitVec 64)
  /-- FRMOPEN (R376): Host command opening a frame after checking its record. -/
  | frmopen (slot : BitVec 10) (arg : BitVec 46) (ptr : BitVec 64)
  /-- FRMCLOSE (R377): Host command closing a frame by raising every watermark. -/
  | frmclose (slot : BitVec 10) (arg : BitVec 46) (ptr : BitVec 64)
  /-- FRMREL (R461): Host command clearing the alias bits of a frame. -/
  | frmrel (slot : BitVec 10) (arg : BitVec 46) (ptr : BitVec 64)
  /-- RESANS (R522): Host command answering a residency request. -/
  | resans (slot : BitVec 10) (arg : BitVec 46) (ptr : BitVec 64)
  /-- QBIND (R523): Host command binding or unbinding a host ring to a queue. -/
  | qbind (slot : BitVec 10) (arg : BitVec 46) (ptr : BitVec 64)
  /-- MIGOUT (R521): Host command saving every block into a migration image. -/
  | migout (slot : BitVec 10) (arg : BitVec 46) (ptr : BitVec 64)
  /-- MIGIN (R525): Host command restoring a migration image on a device that meets the floor. -/
  | migin (slot : BitVec 10) (arg : BitVec 46) (ptr : BitVec 64)
  /-- HOST_COMMAND_COMPLETE (R519): A host command finishes, BUSY clears and VCMD is signalled. -/
  | hostCommandComplete
  /-- WAIT_TIMEOUT (R248): A blocked wait passes the wait-timeout and traps or ends the program with ORPHAN_WAIT. -/
  | waitTimeout (w : Waiter)
  /-- EVICTION (R77): The device evicts a line at any time, writing back dirty bytes. -/
  | eviction (core : CoreRef) (granule : Nat)
  /-- DIRECTORY_RECALL (R459): The home evicts a directory entry after demanding write-backs and invalidating copies. -/
  | directoryRecall (granule : Nat)
  /-- DIRTY_NOTICE (R480): A remote home records the first dirty writer of its granule. -/
  | dirtyNotice (granule : Nat) (pkg : BitVec 14)
  /-- HOST_SNOOP (R99): A host coherence snoop or back-invalidation acts on device copies of host-bias lines. An invalidation carries what
  the host then writes to its line, if anything. -/
  | hostSnoop (pa : Nat) (inval : Option (List (BitVec 8)))
  /-- HOST_MEM_ACCESS (R516): The host reads or writes device memory over CXL.mem. -/
  | hostMemAccess (pa : Nat) (data : List (BitVec 8))
  /-- BANK_SLEEP (R465): A bank idle for 100 µs writes back, drops lines and sleeps. -/
  | bankSleep (die bank : Nat)
  /-- L2_DECTED_SWITCH (R466): A die's L2 switches to DEC-TED by writing back way 7, before the rail is lowered. -/
  | l2DectedSwitch (die : Nat)
  /-- MRESV_PARTNER_TIMEOUT (R334): A keyed MRESV whose partner has not started fails with MATRIX_PARTNER. -/
  | mresvPartnerTimeout (op : Nat)
  /-- TOKEN_TIMEOUT (R381): A held packet waits FTO and its regions are poisoned. -/
  | tokenTimeout (ctx region : Nat)
  /-- FRAME_TIMEOUT (R381): The frame stays open FTO; regions are poisoned and the frame closes. -/
  | frameTimeout (ctx : Nat)
  /-- PIPELINE_EVALUATION (R285): Every 10 µs the distributor may move one core between stages. -/
  | pipelineEvaluation (launch : Nat)
  /-- QUAD_GATE (R300): A quad idle for its window is gated unless a dispatch claims it. -/
  | quadGate (die quad : Nat)
  /-- UNCORRECTABLE_ERROR (R493): An uncorrectable error is detected; the block is rolled back or its launch failed. -/
  | uncorrectableError (site : ErrSite)
  /-- CORRECTED (R488): A corrected error is counted in an error record. -/
  | corrected (site : ErrSite)
  /-- SCRUB (R488): A periodic patrol read checks every protected word. -/
  | scrub (found : List ErrSite)
  /-- DIE_LOST (R496): A stacked die's bond links fail without spare and its blocks are rolled back or failed. -/
  | dieLost (die : Nat)
  /-- HEARTBEAT_SEND (R481): The package sends a heartbeat flit on every up link each microsecond. -/
  | heartbeatSend
  /-- SILENCE_NOTICE (R481): A plane reports a silent package; all 36 planes make it lost. -/
  | silenceNotice (pkg : BitVec 14) (plane : Nat)
  /-- LINK_LANE_LOSS (R478): A link loses a lane and begins retraining. -/
  | linkLaneLoss (link lane : Nat)
  /-- LINK_RETRAIN_DONE (R478): A link resumes at two or four lanes or goes down, and plane tables are recomputed. -/
  | linkRetrainDone (link : Nat) (lanes : BitVec 4)
  /-- REMOTE_REQUEST (R470): A remote access arrives and is translated through the export window. -/
  | remoteRequest (q : RemoteReq)
  /-- POD_ARRIVAL_FLIT (R483): The root package counts a pod barrier arrival and sends release flits. -/
  | podArrivalFlit (gid : BitVec 32) (src : BitVec 14)
  /-- POD_RELEASE_FLIT (R483): A release flit completes the pod barrier phase at a package. -/
  | podReleaseFlit (gid : BitVec 32)
  /-- BILLING_FLIT (R484): The originating package adds billed energy to the context's EREM. -/
  | billingFlit (src : BitVec 14) (ctx : BitVec 10) (pj : BitVec 64)
  /-- FABRIC_ENABLE (R472): Writing EN runs the coherence-group checks and enables Causeway traffic. -/
  | fabricEnable (digestsMatch : Bool)
  /-- LOST_MARK_CLEAR (R482): Writing CLR clears the lost mark of CLRPKG. -/
  | lostMarkClear (pkg : BitVec 14)
  /-- POWER_EVALUATION (R510): Every 10 µs the controller raises or lowers pass-counts against die budgets. -/
  | powerEvaluation (die : Nat) (m : PowerReading)
  /-- ENERGY_ACCOUNTING (R514): Every 10 µs quad energy is divided among contexts and EIDLE. -/
  | energyAccounting (die quad : Nat) (nj : Nat) (shares : List (Nat × Nat))
  /-- THERMAL_READING (R512): Every 100 µs sensors set thermal floors, migrations and trips. -/
  | thermalReading (die quad : Nat) (temp base : Int)
  /-- DROOP_DETECT (R507): VLOG falls 30 mV below set point; a stretch request is raised and the boost engaged. -/
  | droopDetect (die quad : Nat)
  /-- DROOP_LIMIT (R507): A droop outlasts the boost stage and raises the pass-count floor. -/
  | droopLimit (die quad : Nat)
  /-- DROOP_RECOVER (R507): VLOG rises back and an unserved stretch request is withdrawn. -/
  | droopRecover (die quad : Nat)
  /-- DROOP_FLOOR_EXPIRY (R509): One millisecond after a DROOP_LIMIT the floor of 2 lapses. -/
  | droopFloorExpiry (die quad : Nat)
  /-- REG_FAILED (R511): A failed regulator raises its quad's floor or darkens a region. -/
  | regFailed (die reg : Nat)
  /-- PWRLIM_WRITE (R504): A write to PWRLIM clamps limits and ignores an invalid stretch pattern. -/
  | pwrlimWrite (v : BitVec 64)
  /-- PACKAGE_RESET (R520): Power-on or a CXL reset ends every context and starts boot. -/
  | packageReset
  /-- PKGCTL_RST (R520): Writing RST performs package reset. -/
  | pkgctlRst (v : BitVec 64)
  /-- TAIL_REREAD (R523): A host write to the TAIL granule makes the device read TAIL again. -/
  | tailReread (ctx queue : Nat)
  /-- REGISTER_WRITE (R6): A write to a register with no row of its own updates its writable fields. -/
  | registerWrite (off : BitVec 20) (v : BitVec 64)
  /-- STRETCHED_CYCLE (R507): A cycle that begins in a permitted slot while a stretch request is pending is stretched, and at its end a new request is raised if the rail is still low. -/
  | stretchedCycle (die quad : Nat) (stillLow : Bool)
  /-- SHUNT_CLAMP (R507): When VLOG at a quad rises 30 mV above its set point, the shunt clamps it within 1 ns. -/
  | shuntClamp (die quad : Nat)
  /-- WAY7_RETURN_TO_VC1 (R503): After VLOG has stood above V_DT for 1 ms, way 7 of the die's L2 banks leaves DEC-TED check-bit duty and returns to VC 1. -/
  | way7ReturnToVc1 (die : Nat)
  deriving DecidableEq, Repr

end Sys2Proof
end

