-- ==== Sys2Proof/WellFormed.lean ====
section
/-! DEFINITION. Well-formed instructions: the register fields an instruction names and the field limits of its entry
(spec/04_encoding.md R115-R120 and the encoding tables R150, R152, R167, R191, R192, R206, R232, R264, R282-R284, R290, R303,
R331, R356, R383, R402, R412, R432, R449, R463, R524). -/

namespace Sys2Proof

/-- What a register field may hold (spec/04_encoding.md R115, R116; spec/05_core_integer.md R151). -/
inductive Fld where
  /-- not used: must be 0 -/
  | zero
  /-- a 32-bit register -/
  | reg
  /-- the even register of a pair, or gz -/
  | pair
  /-- the first register of an aligned group of 4, or gz -/
  | quad
  /-- the even register of two operands, and the first register of two pairs: gz is neither (spec/07_core_memory.md R221) -/
  | two
  | four
  /-- the first register of an aligned group of 8 -/
  | octet
  /-- a uniform register k0 to k63 -/
  | kreg
  /-- a predicate source: number in [2:0], inversion in [3] -/
  | pf
  /-- a predicate destination -/
  | q
  /-- a predicate destination with a comparison of at most `top` in [7:4] -/
  | cmpq (top : Nat)
  deriving DecidableEq, Repr

/-- How a field is used. -/
inductive Use where
  | none
  | src
  | dst
  | both
  deriving DecidableEq, Repr

/-- One register field of an instruction with its last-use bit. -/
structure Operand where
  kind : Fld
  use : Use
  num : BitVec 8
  last : Bool
  deriving DecidableEq, Repr

/-- The field holds a legal value and its last-use bit is legal (spec/04_encoding.md R115-R117). -/
def Operand.ok (o : Operand) : Bool :=
  match o.kind with
  | .zero => o.num == 0 && !o.last
  | .reg => !o.last || o.use != .dst
  | .pair => (o.num == 255 || (o.num.toNat % 2 == 0 && o.num.toNat <= 252)) && (!o.last || o.use != .dst)
  | .quad => (o.num == 255 || (o.num.toNat % 4 == 0 && o.num.toNat <= 248)) && (!o.last || o.use != .dst)
  | .two => o.num.toNat % 2 == 0 && o.num.toNat <= 252 && (!o.last || o.use != .dst)
  | .four => o.num.toNat % 4 == 0 && o.num.toNat <= 248 && (!o.last || o.use != .dst)
  | .octet => o.num.toNat % 8 == 0
  | .kreg => o.num.toNat < 64 && !o.last
  | .pf => o.num.toNat < 16 && !o.last
  | .q => o.num.toNat < 8 && !o.last
  | .cmpq top => !o.num.getLsbD 3 && o.num.toNat / 16 <= top && !o.last

/-- The registers a field names, gz left out. -/
def Operand.regs (o : Operand) : List Nat :=
  let n := o.num.toNat
  let l := match o.kind with
    | .reg => [n]
    | .pair => if n == 255 then [] else [n, n + 1]
    | .quad => if n == 255 then [] else [n, n + 1, n + 2, n + 3]
    | .two => [n, n + 1]
    | .four => [n, n + 1, n + 2, n + 3]
    | .octet => [n, n + 1, n + 2, n + 3, n + 4, n + 5, n + 6, n + 7]
    | _ => []
  l.filter (fun r => r < 255)

def Operand.isSrc (o : Operand) : Bool := o.use == .src || o.use == .both
def Operand.isDst (o : Operand) : Bool := o.use == .dst || o.use == .both

/-- Whether BK may, or must, be 1 (spec/05_core_integer.md R153). -/
inductive KUse where
  | no
  | opt
  | only
  deriving DecidableEq, Repr

/-- Bit n of MOD. -/
def FA.mb (f : FA) (n : Nat) : Bool := f.md.getLsbD n
/-- The w-bit field of MOD at bit n, as a number. -/
def FA.mf (f : FA) (n w : Nat) : Nat := f.md.toNat / 2 ^ n % 2 ^ w
def FA.wide (f : FA) (n : Nat) : Fld := if f.mb n then .pair else .reg
/-- A pair when the 4-bit integer type code at bit n is 3 or 7, the 64-bit types (spec/05_core_integer.md R166). -/
def FA.wideT (f : FA) (n : Nat) : Fld := if f.mf n 4 == 3 || f.mf n 4 == 7 then .pair else .reg
def FI.mb (f : FI) (n : Nat) : Bool := f.md.getLsbD n
def FI.wide (f : FI) : Fld := if f.mb 0 then .pair else .reg
def FM.mb (f : FM) (n : Nat) : Bool := f.md.getLsbD n
def FM.mf (f : FM) (n w : Nat) : Nat := f.md.toNat / 2 ^ n % 2 ^ w
def FM.scopeIn (f : FM) (lo hi : Nat) : Bool := lo <= f.scope.toNat && f.scope.toNat <= hi
def FM.widthIn (f : FM) (lo hi : Nat) : Bool := lo <= f.width.toNat && f.width.toNat <= hi
/-- SBV is as the entry requires, and SBS is 0 where no slot is set (spec/04_encoding.md R119, R120). -/
def FM.sbOk (f : FM) (sb : Bool) : Bool := f.sbv == sb && (sb || f.sbs == 0)
/-- The register field of a memory datum by WIDTH (spec/07_core_memory.md R206). -/
def FM.byWidth (f : FM) : Fld := if f.width == 3 then .pair else if f.width == 4 then .quad else .reg
/-- ORD of an atomic: OFF20[19:18] (spec/07_core_memory.md R206). -/
def FM.ord (f : FM) : BitVec 2 := f.off.extractLsb' 18 2
/-- D of an atomic; CAS names two operands (spec/07_core_memory.md R221). -/
def FM.atomD (f : FM) : Fld :=
  if f.md == 9 then (if f.width == 3 then .four else .two) else f.byWidth
/-- OP and WIDTH of an atomic agree (spec/07_core_memory.md R220). -/
def FM.atomOpOk (f : FM) : Bool := f.md.toNat < 13 || (f.md.toNat < 15 && f.width == 2)
/-- BID of a scoped barrier (spec/08_core_sync.md R234). -/
def FM.bidOk (f : FM) : Bool :=
  match f.scope.toNat with
  | 0 => f.md == 0
  | 1 => true
  | 2 => f.md.toNat <= 3
  | 3 => f.md.toNat <= 3
  | 4 => f.md.toNat <= 3
  | 5 => f.md == 0
  | _ => false
/-- ROW and COL hold a coordinate or self (spec/04_encoding.md R114). -/
def FX.coordOk (f : FX) : Bool :=
  (f.row.toNat <= 0x0F || f.row == 0xFF) && (f.col.toNat <= 0x0F || f.col == 0xFF)
def FS.mf (f : FS) (n w : Nat) : Nat := f.smod.toNat / 2 ^ n % 2 ^ w
/-- MOD14 of CPY and CPYFILL: [3:1] SCOPE, [0] ST or GL (spec/11_copy.md R303). -/
def cpyMod (m : BitVec 14) : Bool :=
  m.toNat < 16 && (if m.getLsbD 0 then 1 <= m.toNat / 2 && m.toNat / 2 <= 5 else m == 0)
/-- MOD14 of CPYS: [3:1] SCOPE (spec/11_copy.md R303). -/
def cpysMod (m : BitVec 14) : Bool :=
  m.toNat % 2 == 0 && 1 <= m.toNat / 2 && m.toNat / 2 <= 5
/-- Bits of a float type code (spec/06_core_float.md R191). -/
def floatBits (t : Nat) : Nat :=
  match t with
  | 0 => 32
  | 1 => 64
  | 2 => 16
  | 3 => 16
  | 4 => 8
  | 5 => 8
  | _ => 4
/-- How many LANE values F2F accepts (spec/06_core_float.md R201). -/
def f2fLanes (dt st : Nat) : Nat :=
  if 2 <= dt then 32 / floatBits dt else if 2 <= st then 32 / floatBits st else 1

def opsA (f : FA) (dk ak bk ck : Fld) : List Operand :=
  [⟨dk, .dst, f.d, false⟩, ⟨ak, .src, f.a, f.la⟩, ⟨if f.bk then .kreg else bk, .src, f.b, f.lb⟩, ⟨ck, .src, f.c, f.lc⟩]
def opsI (f : FI) (dk ak : Fld) : List Operand := [⟨dk, .dst, f.d, false⟩, ⟨ak, .src, f.a, f.la⟩]
def opsM (f : FM) (dk : Fld) (du : Use) (ak : Fld) : List Operand :=
  [⟨dk, du, f.d, f.ld⟩, ⟨ak, .src, f.a, f.la⟩]
def opsB (f : FB) (ak : Fld) : List Operand := [⟨ak, .src, f.a, false⟩]
def opsX (f : FX) (ak bk : Fld) : List Operand := [⟨ak, .src, f.a, f.la⟩, ⟨bk, .src, f.b, f.lb⟩]

/-- BK, MOD and SBV of a format A instruction (spec/04_encoding.md R116, R119, R120). -/
def okA (f : FA) (k : KUse) (mask : BitVec 12) (sb : Bool) : Bool :=
  (match k with
    | .no => !f.bk
    | .opt => true
    | .only => f.bk) && (f.md &&& ~~~mask) == 0 && f.sbv == sb && (sb || f.sbs == 0)
/-- MOD3 of a format I instruction (spec/04_encoding.md R120). -/
def okI (f : FI) (mask : BitVec 3) : Bool := (f.md &&& ~~~mask) == 0

/-- The register fields of an instruction. -/
def Instr.operands : Instr → List Operand
  | .nop f => opsA f .zero .zero .zero .zero
  | .mov f => opsA f (f.wide 0) (f.wide 0) .zero .zero
  | .movi f => opsI f .reg .zero
  | .movk f => opsA f .reg .zero .zero .zero
  | .iadd f => opsA f .reg .reg .reg .zero
  | .iaddI f => opsI f .reg .reg
  | .isub f => opsA f .reg .reg .reg .zero
  | .isubI f => opsI f .reg .reg
  | .imul f => opsA f .reg .reg .reg .zero
  | .imulI f => opsI f .reg .reg
  | .imulhi f => opsA f .reg .reg .reg .zero
  | .imad f => opsA f .reg .reg .reg .reg
  | .imadw f => opsA f .pair .reg .reg .pair
  | .iadd64 f => opsA f .pair .pair .pair .zero
  | .isub64 f => opsA f .pair .pair .pair .zero
  | .imin f => opsA f .reg .reg .reg .zero
  | .iminI f => opsI f .reg .reg
  | .imax f => opsA f .reg .reg .reg .zero
  | .imaxI f => opsI f .reg .reg
  | .iabs f => opsA f .reg .reg .zero .zero
  | .ineg f => opsA f .reg .reg .zero .zero
  | .logt f => opsA f .reg .reg .reg .reg
  | .and f => opsA f .reg .reg .reg .zero
  | .andI f => opsI f .reg .reg
  | .or f => opsA f .reg .reg .reg .zero
  | .orI f => opsI f .reg .reg
  | .xor f => opsA f .reg .reg .reg .zero
  | .xorI f => opsI f .reg .reg
  | .not f => opsA f .reg .reg .zero .zero
  | .shl f => opsA f .reg .reg .reg .zero
  | .shlI f => opsI f .reg .reg
  | .shr f => opsA f .reg .reg .reg .zero
  | .shrI f => opsI f .reg .reg
  | .sar f => opsA f .reg .reg .reg .zero
  | .sarI f => opsI f .reg .reg
  | .shf f => opsA f .reg .reg .reg .reg
  | .bfx f => opsA f .reg .reg .reg .zero
  | .bfi f => opsA f .reg .reg .reg .reg
  | .popc f => opsA f .reg .reg .zero .zero
  | .clz f => opsA f .reg .reg .zero .zero
  | .ctz f => opsA f .reg .reg .zero .zero
  | .brev f => opsA f .reg .reg .zero .zero
  | .prmb f => opsA f .reg .reg .reg .reg
  | .iset f => opsA f (.cmpq 9) .reg .reg .zero
  | .isetI f => opsI f (.cmpq 9) .reg
  | .iset64 f => opsA f (.cmpq 9) .pair .pair .zero
  | .sel f => opsA f .reg .reg .reg .pf
  | .lea f => opsA f (f.wide 4) (f.wide 4) .reg .zero
  | .leaI f => opsI f f.wide f.wide
  | .i2i f => opsA f (f.wideT 4) (f.wideT 0) .zero .zero
  | .plop f => opsA f .q .pf .pf .pf
  | .pset f => opsA f (if f.mb 0 then .zero else .reg) (if f.mb 0 then .reg else .zero) .zero .zero
  | .srd f => opsA f .reg .zero .zero .zero
  | .cyc f => opsA f .pair .zero .zero .zero
  | .gpoll f => opsA f (if f.mf 0 2 == 0 then .reg else .q) .pf .zero .zero
  | .gxch f => opsA f .reg .reg .reg .zero
  | .gpeer f => opsA f .reg (f.wide 1) .zero .zero
  | .bra f => opsB f .zero
  | .brx f => opsB f .pair
  | .call f => [⟨.pair, if f.md.getLsbD 0 then .both else .dst, f.a, false⟩]
  | .ret f => opsB f .pair
  | .exit f => opsB f .zero
  | .jset f => opsB f .zero
  | .jwait f => opsB f .zero
  | .yield f => opsB f .zero
  | .fadd f => opsA f .reg .reg .reg .zero
  | .faddI f => opsI f .reg .reg
  | .fmul f => opsA f .reg .reg .reg .zero
  | .fmulI f => opsI f .reg .reg
  | .ffma f => opsA f .reg .reg .reg .reg
  | .fmulz f => opsA f .reg .reg .reg .zero
  | .fmin f => opsA f .reg .reg .reg .zero
  | .fmax f => opsA f .reg .reg .reg .zero
  | .fset f => opsA f (.cmpq 13) .reg .reg .zero
  | .fsetI f => opsI f (.cmpq 13) .reg
  | .fclass f => opsA f .reg (if f.mf 0 2 == 1 then .pair else .reg) .zero .zero
  | .frnd f => opsA f (f.wide 2) (f.wide 2) .zero .zero
  | .f2i f => opsA f (f.wideT 5) (if f.mf 2 3 == 1 then .pair else .reg) .zero .zero
  | .i2f f => opsA f (if f.mf 6 3 == 1 then .pair else .reg) (f.wideT 2) .zero .zero
  | .f2f f => opsA f (if f.mf 6 3 == 1 then .pair else .reg) (if f.mf 3 3 == 1 then .pair else .reg) (if f.mf 0 3 == 4 then .reg else .zero) (if 2 <= f.mf 6 3 then .reg else .zero)
  | .fsf f => opsA f .reg .reg .zero .zero
  | .pkadd f => opsA f .reg .reg .reg .zero
  | .pkmul f => opsA f .reg .reg .reg .zero
  | .pkfma f => opsA f .reg .reg .reg .reg
  | .pkdot f => opsA f .reg .reg .reg .reg
  | .dadd f => opsA f .pair .pair .pair .zero
  | .dmul f => opsA f .pair .pair .pair .zero
  | .dfma f => opsA f .pair .pair .pair .pair
  | .ld f => opsM f f.byWidth .dst .pair
  | .st f => opsM f f.byWidth .src .pair
  | .ldl f => opsM f f.byWidth .dst .reg
  | .stl f => opsM f f.byWidth .src .reg
  | .ldp f => opsM f f.byWidth .dst .reg
  | .stp f => opsM f f.byWidth .src .reg
  | .ldk f => opsM f f.byWidth .dst .reg
  | .atom f => opsM f f.atomD .both .pair
  | .red f => opsM f f.byWidth .src .pair
  | .atoml f => opsM f f.atomD .both .reg
  | .acq f => opsM f f.byWidth .dst .pair
  | .rel f => opsM f f.byWidth .src .pair
  | .phase f => opsM f .zero .none .zero
  | .pref f => opsM f .zero .none .pair
  | .cline f => opsM f .zero .none .pair
  | .drainst f => opsM f .zero .none .zero
  | .vcqry f => opsM f (if f.md == 0 then .quad else .pair) .dst (if f.md == 0 then .reg else .pair)
  | .bar f => opsM f .zero .none .zero
  | .bararv f => opsM f .zero .none .zero
  | .barwait f => opsM f .zero .none .zero
  | .boinit f => opsM f .reg .src .reg
  | .boexp f => opsM f .reg .src .reg
  | .boarv f => opsM f .zero .none .reg
  | .bowait f => opsM f .reg .src .reg
  | .botest f => opsM f .reg .src .reg
  | .qdef f => opsM f .reg .src .reg
  | .qpush f => opsM f .reg .src .zero
  | .qpop f => opsM f .reg .dst .zero
  | .qtry f => opsM f .reg (if f.off.getLsbD 3 then .dst else .src) .zero
  | .cpy f => opsX f .octet .reg
  | .cpyg f => opsX f .octet .reg
  | .cpys f => opsX f .octet .reg
  | .cpyfill f => opsX f .octet .reg
  | .ctload f => opsX f .octet .reg
  | .decent f => opsX f .octet .reg
  | .decbr f => opsX f .octet .reg
  | .mresv f => opsX f .octet .reg
  | .mrels f => opsX f .octet .reg
  | .mload f => opsX f .octet .reg
  | .mcbl f => opsX f .octet .reg
  | .mma f => opsX f .octet .reg
  | .mmai f => opsX f .octet .reg
  | .mzero f => opsX f .octet .reg
  | .mstore f => opsX f .octet .reg
  | .mstat f => opsX f .octet .reg
  | .mchk f => opsX f .octet .reg
  | .rayq f => opsX f .octet .reg
  | .sqnop _ => []
  | .sqloop _ => []
  | .sqend _ => []
  | .sqwaitc _ => []
  | .sqboarv _ => []
  | .sqbowait _ => []
  | .seqCpy _ => []
  | .seqCpyg _ => []
  | .seqCpys _ => []
  | .seqCpyfill _ => []
  | .seqCtload _ => []
  | .seqDecent _ => []
  | .seqDecbr _ => []
  | .seqMresv _ => []
  | .seqMrels _ => []
  | .seqMload _ => []
  | .seqMcbl _ => []
  | .seqMma _ => []
  | .seqMmai _ => []
  | .seqMzero _ => []
  | .seqMstore _ => []
  | .seqMstat _ => []
  | .seqMchk _ => []
  | .paypush f => opsA f .reg .reg .reg .zero
  | .paypop f => opsA f .reg .reg .zero .zero
  | .mcount f => opsA f .zero .reg .reg .reg
  | .mvert f => opsA f .zero .reg .quad .zero
  | .mprim f => opsA f .zero .reg .reg .zero
  | .mdone f => opsA f .reg .zero .zero .zero
  | .vispop f => opsA f .quad .zero .zero .zero
  | .visget f => opsA f .reg .reg .reg .zero
  | .rgnacq f => opsA f .reg .reg .zero .zero
  | .rgnrel f => opsA f .zero .zero .zero .zero
  | .rtblend f => opsA f .zero .reg .quad .zero
  | .tex f => opsA f .quad .quad .reg .zero
  | .tld f => opsA f .quad .quad .reg .zero
  | .tqry f => opsA f .quad (if f.mb 0 then .quad else .reg) .reg .zero
  | .trap f => opsI f .zero .zero
  | .tret f => opsA f .zero (if f.mb 0 then .pair else .zero) .zero .zero
  | .frginfo f => opsA f .pair .zero .zero .zero
  | .sfqpop f => opsA f .quad .zero .zero .zero
  | .killf f => opsA f .zero (if f.mb 0 then .zero else .reg) .zero .zero
  | .bpt f => opsI f .zero .zero
  | .launch f => opsA f .reg .pair .reg (if f.mb 0 then .pair else .zero)
  | .fork f => opsX f .octet .reg
  | .rdv f => opsX f .zero .zero
  | .setprio f => opsI f .zero (if f.md.toNat == 1 then .reg else .zero)
  | .tmode f => opsI f .reg .zero
  | .xldec f => opsA f .quad .pair .reg .zero
  | .xlmap f => opsA f .pair .pair .zero .zero
  | .xlmapRaise f => opsA f .zero .zero .zero .zero
  | .vcdef f => opsA f .reg .pair .reg .zero
  | .vcsize f => opsA f .reg .reg .reg .reg
  | .vcmove f => opsA f .reg .pair .reg .zero
  | .vcflush f => opsA f .reg .zero .reg .zero
  | .biasflip f => opsA f .reg .pair .reg .zero
  | .qfeat f => opsI f .pair .zero
  | .clauseIssue _ _ => []
  | .descheduleExpiry _ _ => []
  | .yieldExpiry _ _ => []
  | .stallExpiry _ _ => []
  | .slotLanding _ _ _ => []
  | .homeRelease _ => []
  | .homeAcquire _ => []
  | .homeAtomic _ => []
  | .homeFill _ => []
  | .demandWriteBack _ _ => []
  | .writeBackArrival _ _ => []
  | .writeBackAck _ => []
  | .boostNotice _ _ _ => []
  | .pageMoveSweepStep _ _ _ => []
  | .vcCommandLanding _ => []
  | .biasflipComplete _ => []
  | .engineDelivery _ => []
  | .matrixOpStart _ => []
  | .sqwaitcExpiry _ _ => []
  | .frontEndRequest _ => []
  | .paypushLanding _ => []
  | .packetArrival _ _ => []
  | .watermarkFlit _ _ _ _ => []
  | .launchHead _ _ => []
  | .blockPlace _ => []
  | .completionRecord _ => []
  | .preempt _ => []
  | .graceExpiry _ => []
  | .engineDrainExpiry _ => []
  | .blockRestore _ _ => []
  | .fixedClockChange _ _ => []
  | .blockRelaunch _ _ => []
  | .billingSend _ _ => []
  | .bootStep _ => []
  | .create _ _ _ => []
  | .destroy _ _ _ => []
  | .inval _ _ _ => []
  | .frmopen _ _ _ => []
  | .frmclose _ _ _ => []
  | .frmrel _ _ _ => []
  | .resans _ _ _ => []
  | .qbind _ _ _ => []
  | .migout _ _ _ => []
  | .migin _ _ _ => []
  | .hostCommandComplete => []
  | .waitTimeout _ => []
  | .eviction _ _ => []
  | .directoryRecall _ => []
  | .dirtyNotice _ _ => []
  | .hostSnoop _ _ => []
  | .hostMemAccess _ _ => []
  | .bankSleep _ _ => []
  | .l2DectedSwitch _ => []
  | .mresvPartnerTimeout _ => []
  | .tokenTimeout _ _ => []
  | .frameTimeout _ => []
  | .pipelineEvaluation _ => []
  | .quadGate _ _ => []
  | .uncorrectableError _ => []
  | .corrected _ => []
  | .scrub _ => []
  | .dieLost _ => []
  | .heartbeatSend => []
  | .silenceNotice _ _ => []
  | .linkLaneLoss _ _ => []
  | .linkRetrainDone _ _ => []
  | .remoteRequest _ => []
  | .podArrivalFlit _ _ => []
  | .podReleaseFlit _ => []
  | .billingFlit _ _ _ => []
  | .fabricEnable _ => []
  | .lostMarkClear _ => []
  | .powerEvaluation _ _ => []
  | .energyAccounting _ _ _ _ => []
  | .thermalReading _ _ _ _ => []
  | .droopDetect _ _ => []
  | .droopLimit _ _ => []
  | .droopRecover _ _ => []
  | .droopFloorExpiry _ _ => []
  | .regFailed _ _ => []
  | .pwrlimWrite _ => []
  | .packageReset => []
  | .pkgctlRst _ => []
  | .tailReread _ _ => []
  | .registerWrite _ _ => []
  | .stretchedCycle _ _ _ => []
  | .shuntClamp _ _ => []
  | .way7ReturnToVc1 _ => []

/-- The modifier and reserved fields of an instruction hold legal values. -/
def Instr.fieldsOk : Instr → Bool
  | .nop f => okA f .no 0x000 false
  | .mov f => okA f .no 0x001 false
  | .movi f => okI f 0
  | .movk f => okA f .only 0x000 false
  | .iadd f => okA f .opt 0x003 false
  | .iaddI f => okI f 3
  | .isub f => okA f .opt 0x003 false
  | .isubI f => okI f 3
  | .imul f => okA f .opt 0x003 false
  | .imulI f => okI f 3
  | .imulhi f => okA f .opt 0x001 false
  | .imad f => okA f .opt 0x003 false
  | .imadw f => okA f .opt 0x003 false
  | .iadd64 f => okA f .no 0x003 false
  | .isub64 f => okA f .no 0x003 false
  | .imin f => okA f .opt 0x001 false
  | .iminI f => okI f 1
  | .imax f => okA f .opt 0x001 false
  | .imaxI f => okI f 1
  | .iabs f => okA f .no 0x002 false
  | .ineg f => okA f .no 0x002 false
  | .logt f => okA f .opt 0x0FF false
  | .and f => okA f .opt 0x000 false
  | .andI f => okI f 0
  | .or f => okA f .opt 0x000 false
  | .orI f => okI f 0
  | .xor f => okA f .opt 0x000 false
  | .xorI f => okI f 0
  | .not f => okA f .no 0x000 false
  | .shl f => okA f .opt 0x001 false
  | .shlI f => okI f 1
  | .shr f => okA f .opt 0x001 false
  | .shrI f => okI f 1
  | .sar f => okA f .opt 0x001 false
  | .sarI f => okI f 1
  | .shf f => okA f .opt 0x003 false
  | .bfx f => okA f .opt 0x001 false
  | .bfi f => okA f .opt 0x000 false
  | .popc f => okA f .no 0x000 false
  | .clz f => okA f .no 0x000 false
  | .ctz f => okA f .no 0x000 false
  | .brev f => okA f .no 0x000 false
  | .prmb f => okA f .opt 0x000 false
  | .iset f => okA f .opt 0x03F false
  | .isetI f => okI f 7
  | .iset64 f => okA f .no 0x03F false
  | .sel f => okA f .opt 0x000 false
  | .lea f => okA f .opt 0x01F false && (!(f.mb 3) || f.mb 4)
  | .leaI f => okI f 1
  | .i2i f => okA f .no 0x1FF false && f.mf 4 4 < 8 && f.mf 0 4 < 8
  | .plop f => okA f .no 0x0FF false
  | .pset f => okA f .no 0x7F1 false && (f.mb 0 || f.mf 4 7 == 0)
  | .srd f => okA f .no 0x0FF false && f.mf 0 8 <= 0x12
  | .cyc f => okA f .no 0x001 false
  | .gpoll f => okA f .no 0x003 false
  | .gxch f => okA f .opt 0x01F false && f.mf 2 3 <= 5
  | .gpeer f => okA f .no 0x003 false
  | .bra f => f.j == 0 && f.md == 0
  | .brx f => f.j == 0 && f.md == 0
  | .call f => f.j == 0 && f.md.toNat < 2
  | .ret f => f.hint == 0 && f.j == 0 && f.md == 0
  | .exit f => f.hint == 0 && f.j == 0 && f.md == 0 && f.off == 0
  | .jset f => f.hint == 0 && f.md == 0 && f.off == 0
  | .jwait f => f.hint == 0 && f.md == 0 && f.off == 0
  | .yield f => f.hint == 0 && f.j == 0 && f.md == 0 && f.off == 0
  | .fadd f => okA f .opt 0x0DF false
  | .faddI f => okI f 7
  | .fmul f => okA f .opt 0x0DF false
  | .fmulI f => okI f 7
  | .ffma f => okA f .opt 0x1FF false
  | .fmulz f => okA f .opt 0x0DF false
  | .fmin f => okA f .opt 0x0D9 false
  | .fmax f => okA f .opt 0x0D9 false
  | .fset f => okA f .opt 0x3FF false
  | .fsetI f => okI f 7
  | .fclass f => okA f .no 0x007 false && (!(f.mb 2) || 2 <= f.mf 0 2)
  | .frnd f => okA f .no 0x007 false
  | .f2i f => okA f .no 0x3FF false && f.mf 5 4 < 8 && f.mf 2 3 < 4 && (!(f.mb 9) || 2 <= f.mf 2 3)
  | .i2f f => okA f .no 0x1FF false && f.mf 6 3 < 4 && f.mf 2 4 < 8
  | .f2f f => okA f .no 0xFFF false && f.mf 0 3 <= 4 && f.mf 6 3 < 7 && f.mf 3 3 < 7 && f.mf 9 3 < f2fLanes (f.mf 6 3) (f.mf 3 3)
  | .fsf f => okA f .no 0x01F false && f.mf 0 3 < 7
  | .pkadd f => okA f .opt 0x05F false
  | .pkmul f => okA f .opt 0x05F false
  | .pkfma f => okA f .opt 0x07F false
  | .pkdot f => okA f .opt 0x07F false
  | .dadd f => okA f .no 0x0DB false
  | .dmul f => okA f .no 0x0DB false
  | .dfma f => okA f .no 0x1FB false
  | .ld f => f.scope == 0 && f.sbOk true && f.widthIn 0 4 && f.mf 2 2 < 3 && !(f.mb 1) && (!(f.mb 0) || f.widthIn 0 1)
  | .st f => f.scope == 0 && f.sbOk false && f.widthIn 0 4 && f.mf 2 2 < 3 && f.mf 0 2 == 0
  | .ldl f => f.scope == 0 && f.sbOk true && f.widthIn 0 4 && f.mf 1 3 == 0 && (!(f.mb 0) || f.widthIn 0 1)
  | .stl f => f.scope == 0 && f.sbOk false && f.widthIn 0 4 && f.md == 0
  | .ldp f => f.scope == 0 && f.sbOk true && f.widthIn 0 4 && f.mf 1 3 == 0 && (!(f.mb 0) || f.widthIn 0 1)
  | .stp f => f.scope == 0 && f.sbOk false && f.widthIn 0 4 && f.md == 0
  | .ldk f => f.scope == 0 && f.sbOk true && f.widthIn 2 4 && f.md == 0
  | .atom f => f.scopeIn 0 5 && f.sbOk true && f.widthIn 2 3 && f.atomOpOk && (f.ord == 0 || f.scopeIn 1 5)
  | .red f => f.scopeIn 0 5 && f.sbOk false && f.widthIn 2 3 && f.atomOpOk && f.md != 8 && f.md != 9 && (f.ord == 0 || (f.ord == 2 && f.scopeIn 1 5))
  | .atoml f => f.scope == 0 && f.sbOk true && f.widthIn 2 3 && f.atomOpOk && f.ord == 0
  | .acq f => f.scopeIn 1 5 && f.sbOk true && f.widthIn 2 3 && f.md == 0
  | .rel f => f.scopeIn 1 5 && f.sbOk false && f.widthIn 2 3 && f.md == 0
  | .phase f => f.scopeIn 1 5 && f.sbOk false && f.width == 0 && f.md == 0 && f.off == 0
  | .pref f => f.scope == 0 && f.sbOk false && f.width == 0 && f.md.toNat <= 2
  | .cline f => f.scope == 0 && f.sbOk false && f.width == 0 && f.md.toNat <= 3
  | .drainst f => f.scope == 0 && f.sbOk false && f.width == 0 && f.md == 0 && f.off == 0
  | .vcqry f => f.scope == 0 && f.sbOk true && f.width == (if f.md == 0 then 4 else 3) && f.md.toNat <= 2 && (f.md != 0 || f.off == 0)
  | .bar f => f.bidOk && f.sbOk false && f.width == 0 && true && f.off == 0
  | .bararv f => f.bidOk && f.sbOk false && f.width == 0 && true && f.off == 0
  | .barwait f => f.bidOk && f.sbOk false && f.width == 0 && true && f.off == 0
  | .boinit f => f.scope == 0 && f.sbOk false && f.width == 0 && f.md == 0
  | .boexp f => f.scope == 0 && f.sbOk false && f.width == 0 && f.md.toNat <= 1
  | .boarv f => f.scope == 0 && f.sbOk false && f.width == 0 && f.md == 0
  | .bowait f => f.scope == 0 && f.sbOk false && f.width == 0 && f.md == 0
  | .botest f => f.scope == 0 && f.sbOk false && f.width == 0 && f.md.toNat < 8
  | .qdef f => f.scope == 0 && f.sbOk false && f.width == 0 && true
  | .qpush f => f.scope == 0 && f.sbOk false && f.width == 0 && true && f.off == 0
  | .qpop f => f.scope == 0 && f.sbOk false && f.width == 0 && true && f.off == 0
  | .qtry f => f.scope == 0 && f.sbOk false && f.width == 0 && true && f.off.toNat < 16
  | .cpy f => f.coordOk && cpyMod f.md
  | .cpyg f => f.coordOk && f.md == 0
  | .cpys f => f.coordOk && cpysMod f.md
  | .cpyfill f => f.coordOk && cpyMod f.md
  | .ctload f => f.coordOk && f.md == 0
  | .decent f => f.coordOk && f.md == 0
  | .decbr f => f.coordOk && f.md == 0
  | .mresv f => f.coordOk && f.md == 0
  | .mrels f => f.coordOk && f.md == 0
  | .mload f => f.coordOk && f.md == 0
  | .mcbl f => f.coordOk && f.md == 0
  | .mma f => f.coordOk && f.md == 0
  | .mmai f => f.coordOk && f.md == 0
  | .mzero f => f.coordOk && f.md == 0
  | .mstore f => f.coordOk && f.md == 0
  | .mstat f => f.coordOk && f.md == 0
  | .mchk f => f.coordOk && f.md == 0
  | .rayq f => f.coordOk && f.md == 0
  | .sqnop f => f.ar == 0 && f.br == 0 && f.doff == 0 && f.boff == 0 && f.smod == 0
  | .sqloop f => f.ar == 0 && f.br == 0 && f.boff == 0 && f.mf 0 6 == 0
  | .sqend f => f.ar == 0 && f.br == 0 && f.doff == 0 && f.boff == 0 && f.smod == 0
  | .sqwaitc f => f.ar == 0 && f.br == 0 && f.doff.toNat < 2
  | .sqboarv f => f.ar == 0 && f.smod.toNat < 2 && (f.smod == 1 || f.doff == 0)
  | .sqbowait f => f.ar == 0 && f.doff == 0 && f.smod.toNat < 8
  | .seqCpy f => f.smod.toNat < 0x4000 && cpyMod (f.smod.setWidth 14)
  | .seqCpyg f => f.smod == 0
  | .seqCpys f => f.smod.toNat < 0x4000 && cpysMod (f.smod.setWidth 14)
  | .seqCpyfill f => f.smod.toNat < 0x4000 && cpyMod (f.smod.setWidth 14)
  | .seqCtload f => f.smod == 0
  | .seqDecent f => f.smod == 0
  | .seqDecbr f => f.smod == 0
  | .seqMresv f => f.smod == 0
  | .seqMrels f => f.smod == 0
  | .seqMload f => f.smod == 0
  | .seqMcbl f => f.smod == 0
  | .seqMma f => f.smod == 0
  | .seqMmai f => f.smod == 0
  | .seqMzero f => f.smod == 0
  | .seqMstore f => f.smod == 0
  | .seqMstat f => f.smod == 0
  | .seqMchk f => f.smod == 0
  | .paypush f => okA f .opt 0x000 true
  | .paypop f => okA f .no 0x000 true
  | .mcount f => okA f .opt 0x01F false && f.mf 0 5 <= 16
  | .mvert f => okA f .no 0x007 false && f.mf 0 3 <= 4
  | .mprim f => okA f .opt 0x000 false
  | .mdone f => okA f .no 0x000 true
  | .vispop f => okA f .no 0x000 true
  | .visget f => okA f .no 0x000 true
  | .rgnacq f => okA f .no 0x000 true
  | .rgnrel f => okA f .no 0x000 false
  | .rtblend f => okA f .no 0x007 false && f.mf 0 3 <= 4
  | .tex f => okA f .opt 0x001 true
  | .tld f => okA f .opt 0x000 true
  | .tqry f => okA f .opt 0x001 true
  | .trap f => okI f 0
  | .tret f => okA f .no 0x001 false
  | .frginfo f => okA f .no 0x007 false && f.mf 0 3 <= 4
  | .sfqpop f => okA f .no 0x000 false
  | .killf f => okA f .no 0x001 false
  | .bpt f => okI f 0
  | .launch f => okA f .opt 0x001 true
  | .fork f => f.coordOk && f.md.toNat < 2
  | .rdv f => f.coordOk && f.md.toNat < 8 && f.md.toNat % 4 != 0
  | .setprio f => okI f 1 && (if f.md.toNat == 1 then f.imm == 0 else f.imm.toNat <= 127)
  | .tmode f => okI f 0 && f.imm.toNat <= 1
  | .xldec f => okA f .opt 0x000 false
  | .xlmap f => okA f .no 0x000 true
  | .xlmapRaise f => okA f .no 0x0FF false && f.mb 0 && (f.mf 1 7 == 0 || 0x40 <= f.mf 1 7)
  | .vcdef f => okA f .opt 0x000 true
  | .vcsize f => okA f .opt 0x000 true
  | .vcmove f => okA f .opt 0x001 true
  | .vcflush f => okA f .opt 0x003 true && f.mf 0 2 <= 2
  | .biasflip f => okA f .opt 0x000 true
  | .qfeat f => okI f 0 && f.imm.toNat <= 31
  | .clauseIssue _ _ => true
  | .descheduleExpiry _ _ => true
  | .yieldExpiry _ _ => true
  | .stallExpiry _ _ => true
  | .slotLanding _ _ _ => true
  | .homeRelease _ => true
  | .homeAcquire _ => true
  | .homeAtomic _ => true
  | .homeFill _ => true
  | .demandWriteBack _ _ => true
  | .writeBackArrival _ _ => true
  | .writeBackAck _ => true
  | .boostNotice _ _ _ => true
  | .pageMoveSweepStep _ _ _ => true
  | .vcCommandLanding _ => true
  | .biasflipComplete _ => true
  | .engineDelivery _ => true
  | .matrixOpStart _ => true
  | .sqwaitcExpiry _ _ => true
  | .frontEndRequest _ => true
  | .paypushLanding _ => true
  | .packetArrival _ _ => true
  | .watermarkFlit _ _ _ _ => true
  | .launchHead _ _ => true
  | .blockPlace _ => true
  | .completionRecord _ => true
  | .preempt _ => true
  | .graceExpiry _ => true
  | .engineDrainExpiry _ => true
  | .blockRestore _ _ => true
  | .fixedClockChange _ _ => true
  | .blockRelaunch _ _ => true
  | .billingSend _ _ => true
  | .bootStep _ => true
  | .create _ _ _ => true
  | .destroy _ _ _ => true
  | .inval _ _ _ => true
  | .frmopen _ _ _ => true
  | .frmclose _ _ _ => true
  | .frmrel _ _ _ => true
  | .resans _ _ _ => true
  | .qbind _ _ _ => true
  | .migout _ _ _ => true
  | .migin _ _ _ => true
  | .hostCommandComplete => true
  | .waitTimeout _ => true
  | .eviction _ _ => true
  | .directoryRecall _ => true
  | .dirtyNotice _ _ => true
  | .hostSnoop _ _ => true
  | .hostMemAccess _ _ => true
  | .bankSleep _ _ => true
  | .l2DectedSwitch _ => true
  | .mresvPartnerTimeout _ => true
  | .tokenTimeout _ _ => true
  | .frameTimeout _ => true
  | .pipelineEvaluation _ => true
  | .quadGate _ _ => true
  | .uncorrectableError _ => true
  | .corrected _ => true
  | .scrub _ => true
  | .dieLost _ => true
  | .heartbeatSend => true
  | .silenceNotice _ _ => true
  | .linkLaneLoss _ _ => true
  | .linkRetrainDone _ _ => true
  | .remoteRequest _ => true
  | .podArrivalFlit _ _ => true
  | .podReleaseFlit _ => true
  | .billingFlit _ _ _ => true
  | .fabricEnable _ => true
  | .lostMarkClear _ => true
  | .powerEvaluation _ _ => true
  | .energyAccounting _ _ _ _ => true
  | .thermalReading _ _ _ _ => true
  | .droopDetect _ _ => true
  | .droopLimit _ _ => true
  | .droopRecover _ _ => true
  | .droopFloorExpiry _ _ => true
  | .regFailed _ _ => true
  | .pwrlimWrite _ => true
  | .packageReset => true
  | .pkgctlRst _ => true
  | .tailReread _ _ => true
  | .registerWrite _ _ => true
  | .stretchedCycle _ _ _ => true
  | .shuntClamp _ _ => true
  | .way7ReturnToVc1 _ => true

/-- A destination in format M may not carry the last-use bit LD unless D is read (spec/04_encoding.md R111). -/
def Operand.lastOk (o : Operand) : Bool := !o.last || o.use == .src

/-- Every field of the instruction is legal (spec/04_encoding.md R115-R120). -/
def Instr.wellFormed (i : Instr) : Bool :=
  i.operands.all (fun o => o.ok && o.lastOk) && i.fieldsOk

end Sys2Proof
end

