-- ==== Sys2Proof/Decode.lean ====
section
/-! DEFINITION. Reading an instruction word (spec/04_encoding.md R102-R132, spec/10_distributor.md R289): total on any 64 bits,
rejecting by name; then the encoder, written from the same tables. -/

namespace Sys2Proof

/-- Clause classes (spec/04_encoding.md R102). -/
inductive Cls where
  | alu
  | mem
  | sync
  | eng
  | seq
  | gfx
  | sys
  deriving DecidableEq, Repr

/-- CLASS field to class; 7 is reserved. -/
def Cls.ofCode : Nat → Option Cls
  | 0 => some .alu
  | 1 => some .mem
  | 2 => some .sync
  | 3 => some .eng
  | 4 => some .seq
  | 5 => some .gfx
  | 6 => some .sys
  | _ => none

def Cls.code : Cls → Nat
  | .alu => 0
  | .mem => 1
  | .sync => 2
  | .eng => 3
  | .seq => 4
  | .gfx => 5
  | .sys => 6

/-- A clause header (spec/04_encoding.md R102). -/
structure Header where
  cls : Cls
  count : Nat
  sbwait : BitVec 8
  fixed : Bool
  stall : Nat
  deriving DecidableEq, Repr

/-- bits [63:60] of a word are MARK (spec/04_encoding.md R104). -/
def isHeader (w : DWord) : Bool := w.extractLsb' 60 4 == 0b1010

/-- A header word, or none when MARK is missing, CLASS is 7 or a reserved bit is set (spec/04_encoding.md R102, R122 step 2). -/
def decodeHeader (w : DWord) : Option Header :=
  if isHeader w && w.extractLsb' 0 40 == 0 then
    (Cls.ofCode (w.extractLsb' 57 3).toNat).map fun c =>
      ⟨c, (w.extractLsb' 53 4).toNat, w.extractLsb' 45 8, w.getLsbD 44, (w.extractLsb' 40 4).toNat⟩
  else none

def encodeHeader (h : Header) : DWord :=
  (0b1010 : BitVec 4) ++ BitVec.ofNat 3 h.cls.code ++ BitVec.ofNat 4 h.count ++ h.sbwait ++ BitVec.ofBool h.fixed ++
    BitVec.ofNat 4 h.stall ++ (0 : BitVec 40)

def decodeFA (w : DWord) : FA :=
  ⟨w.extractLsb' 53 3, w.getLsbD 52, w.extractLsb' 44 8, w.extractLsb' 36 8, w.extractLsb' 28 8, w.extractLsb' 20 8,
    w.getLsbD 19, w.getLsbD 18, w.getLsbD 17, w.getLsbD 16, w.extractLsb' 13 3, w.getLsbD 12, w.extractLsb' 0 12⟩
def decodeFI (w : DWord) : FI :=
  ⟨w.extractLsb' 53 3, w.getLsbD 52, w.extractLsb' 44 8, w.extractLsb' 36 8, w.getLsbD 35, w.extractLsb' 32 3,
    w.extractLsb' 0 32⟩
def decodeFM (w : DWord) : FM :=
  ⟨w.extractLsb' 53 3, w.getLsbD 52, w.extractLsb' 44 8, w.extractLsb' 36 8, w.getLsbD 35, w.getLsbD 34, w.extractLsb' 31 3,
    w.extractLsb' 28 3, w.getLsbD 27, w.extractLsb' 24 3, w.extractLsb' 20 4, w.extractLsb' 0 20⟩
def decodeFB (w : DWord) : FB :=
  ⟨w.extractLsb' 53 3, w.getLsbD 52, w.extractLsb' 50 2, w.extractLsb' 46 4, w.extractLsb' 40 6, w.extractLsb' 32 8,
    w.extractLsb' 0 32⟩
def decodeFX (w : DWord) : FX :=
  ⟨w.extractLsb' 53 3, w.getLsbD 52, w.extractLsb' 44 8, w.extractLsb' 36 8, w.getLsbD 35, w.getLsbD 34, w.extractLsb' 26 8,
    w.extractLsb' 18 8, w.extractLsb' 14 4, w.extractLsb' 0 14⟩
def decodeFS (w : DWord) : FS :=
  ⟨w.extractLsb' 53 3, w.extractLsb' 50 3, w.extractLsb' 32 18, w.extractLsb' 16 16, w.extractLsb' 0 16⟩

/-- The ALU opcode map (spec/04_encoding.md R126-R132); an unassigned opcode is none. -/
def opcodeAlu (w : DWord) : Nat → Option Instr
  | 0x00 => some (.nop (decodeFA w))
  | 0x01 => some (.mov (decodeFA w))
  | 0x02 => some (.movi (decodeFI w))
  | 0x03 => some (.movk (decodeFA w))
  | 0x04 => some (.iadd (decodeFA w))
  | 0x05 => some (.iaddI (decodeFI w))
  | 0x06 => some (.isub (decodeFA w))
  | 0x07 => some (.isubI (decodeFI w))
  | 0x08 => some (.imul (decodeFA w))
  | 0x09 => some (.imulI (decodeFI w))
  | 0x0A => some (.imulhi (decodeFA w))
  | 0x0B => some (.imad (decodeFA w))
  | 0x0C => some (.imadw (decodeFA w))
  | 0x0D => some (.iadd64 (decodeFA w))
  | 0x0E => some (.isub64 (decodeFA w))
  | 0x0F => some (.imin (decodeFA w))
  | 0x10 => some (.iminI (decodeFI w))
  | 0x11 => some (.imax (decodeFA w))
  | 0x12 => some (.imaxI (decodeFI w))
  | 0x13 => some (.iabs (decodeFA w))
  | 0x14 => some (.ineg (decodeFA w))
  | 0x15 => some (.logt (decodeFA w))
  | 0x16 => some (.and (decodeFA w))
  | 0x17 => some (.andI (decodeFI w))
  | 0x18 => some (.or (decodeFA w))
  | 0x19 => some (.orI (decodeFI w))
  | 0x1A => some (.xor (decodeFA w))
  | 0x1B => some (.xorI (decodeFI w))
  | 0x1C => some (.not (decodeFA w))
  | 0x1D => some (.shl (decodeFA w))
  | 0x1E => some (.shlI (decodeFI w))
  | 0x1F => some (.shr (decodeFA w))
  | 0x20 => some (.shrI (decodeFI w))
  | 0x21 => some (.sar (decodeFA w))
  | 0x22 => some (.sarI (decodeFI w))
  | 0x23 => some (.shf (decodeFA w))
  | 0x24 => some (.bfx (decodeFA w))
  | 0x25 => some (.bfi (decodeFA w))
  | 0x26 => some (.popc (decodeFA w))
  | 0x27 => some (.clz (decodeFA w))
  | 0x28 => some (.ctz (decodeFA w))
  | 0x29 => some (.brev (decodeFA w))
  | 0x2A => some (.prmb (decodeFA w))
  | 0x2B => some (.iset (decodeFA w))
  | 0x2C => some (.isetI (decodeFI w))
  | 0x2D => some (.iset64 (decodeFA w))
  | 0x2E => some (.sel (decodeFA w))
  | 0x2F => some (.lea (decodeFA w))
  | 0x30 => some (.leaI (decodeFI w))
  | 0x31 => some (.i2i (decodeFA w))
  | 0x32 => some (.plop (decodeFA w))
  | 0x33 => some (.pset (decodeFA w))
  | 0x34 => some (.srd (decodeFA w))
  | 0x35 => some (.cyc (decodeFA w))
  | 0x36 => some (.gpoll (decodeFA w))
  | 0x37 => some (.gxch (decodeFA w))
  | 0x38 => some (.gpeer (decodeFA w))
  | 0x40 => some (.bra (decodeFB w))
  | 0x41 => some (.brx (decodeFB w))
  | 0x42 => some (.call (decodeFB w))
  | 0x43 => some (.ret (decodeFB w))
  | 0x44 => some (.exit (decodeFB w))
  | 0x45 => some (.jset (decodeFB w))
  | 0x46 => some (.jwait (decodeFB w))
  | 0x47 => some (.yield (decodeFB w))
  | 0x60 => some (.fadd (decodeFA w))
  | 0x61 => some (.faddI (decodeFI w))
  | 0x62 => some (.fmul (decodeFA w))
  | 0x63 => some (.fmulI (decodeFI w))
  | 0x64 => some (.ffma (decodeFA w))
  | 0x65 => some (.fmulz (decodeFA w))
  | 0x66 => some (.fmin (decodeFA w))
  | 0x67 => some (.fmax (decodeFA w))
  | 0x68 => some (.fset (decodeFA w))
  | 0x69 => some (.fsetI (decodeFI w))
  | 0x6A => some (.fclass (decodeFA w))
  | 0x6B => some (.frnd (decodeFA w))
  | 0x6C => some (.f2i (decodeFA w))
  | 0x6D => some (.i2f (decodeFA w))
  | 0x6E => some (.f2f (decodeFA w))
  | 0x6F => some (.fsf (decodeFA w))
  | 0x70 => some (.pkadd (decodeFA w))
  | 0x71 => some (.pkmul (decodeFA w))
  | 0x72 => some (.pkfma (decodeFA w))
  | 0x73 => some (.pkdot (decodeFA w))
  | 0x74 => some (.dadd (decodeFA w))
  | 0x75 => some (.dmul (decodeFA w))
  | 0x76 => some (.dfma (decodeFA w))
  | _ => none

/-- The MEM opcode map (spec/04_encoding.md R126-R132); an unassigned opcode is none. -/
def opcodeMem (w : DWord) : Nat → Option Instr
  | 0x00 => some (.ld (decodeFM w))
  | 0x01 => some (.st (decodeFM w))
  | 0x02 => some (.ldl (decodeFM w))
  | 0x03 => some (.stl (decodeFM w))
  | 0x04 => some (.ldp (decodeFM w))
  | 0x05 => some (.stp (decodeFM w))
  | 0x06 => some (.ldk (decodeFM w))
  | 0x07 => some (.atom (decodeFM w))
  | 0x08 => some (.red (decodeFM w))
  | 0x09 => some (.atoml (decodeFM w))
  | 0x0A => some (.acq (decodeFM w))
  | 0x0B => some (.rel (decodeFM w))
  | 0x0C => some (.phase (decodeFM w))
  | 0x0D => some (.pref (decodeFM w))
  | 0x0E => some (.cline (decodeFM w))
  | 0x0F => some (.drainst (decodeFM w))
  | 0x10 => some (.vcqry (decodeFM w))
  | _ => none

/-- The SYNC opcode map (spec/04_encoding.md R126-R132); an unassigned opcode is none. -/
def opcodeSync (w : DWord) : Nat → Option Instr
  | 0x00 => some (.bar (decodeFM w))
  | 0x01 => some (.bararv (decodeFM w))
  | 0x02 => some (.barwait (decodeFM w))
  | 0x03 => some (.boinit (decodeFM w))
  | 0x04 => some (.boexp (decodeFM w))
  | 0x05 => some (.boarv (decodeFM w))
  | 0x06 => some (.bowait (decodeFM w))
  | 0x07 => some (.botest (decodeFM w))
  | 0x08 => some (.qdef (decodeFM w))
  | 0x09 => some (.qpush (decodeFM w))
  | 0x0A => some (.qpop (decodeFM w))
  | 0x0B => some (.qtry (decodeFM w))
  | _ => none

/-- The ENG opcode map (spec/04_encoding.md R126-R132); an unassigned opcode is none. -/
def opcodeEng (w : DWord) : Nat → Option Instr
  | 0x00 => some (.cpy (decodeFX w))
  | 0x01 => some (.cpyg (decodeFX w))
  | 0x02 => some (.cpys (decodeFX w))
  | 0x03 => some (.cpyfill (decodeFX w))
  | 0x04 => some (.ctload (decodeFX w))
  | 0x05 => some (.decent (decodeFX w))
  | 0x06 => some (.decbr (decodeFX w))
  | 0x10 => some (.mresv (decodeFX w))
  | 0x11 => some (.mrels (decodeFX w))
  | 0x12 => some (.mload (decodeFX w))
  | 0x13 => some (.mcbl (decodeFX w))
  | 0x14 => some (.mma (decodeFX w))
  | 0x15 => some (.mmai (decodeFX w))
  | 0x16 => some (.mzero (decodeFX w))
  | 0x17 => some (.mstore (decodeFX w))
  | 0x18 => some (.mstat (decodeFX w))
  | 0x19 => some (.mchk (decodeFX w))
  | 0x20 => some (.rayq (decodeFX w))
  | _ => none

/-- The SEQ opcode map (spec/04_encoding.md R126-R132); an unassigned opcode is none. -/
def opcodeSeq (w : DWord) : Nat → Option Instr
  | 0x00 => some (.sqnop (decodeFS w))
  | 0x01 => some (.sqloop (decodeFS w))
  | 0x02 => some (.sqend (decodeFS w))
  | 0x03 => some (.sqwaitc (decodeFS w))
  | 0x04 => some (.sqboarv (decodeFS w))
  | 0x05 => some (.sqbowait (decodeFS w))
  | 0x40 => some (.seqCpy (decodeFS w))
  | 0x41 => some (.seqCpyg (decodeFS w))
  | 0x42 => some (.seqCpys (decodeFS w))
  | 0x43 => some (.seqCpyfill (decodeFS w))
  | 0x44 => some (.seqCtload (decodeFS w))
  | 0x45 => some (.seqDecent (decodeFS w))
  | 0x46 => some (.seqDecbr (decodeFS w))
  | 0x50 => some (.seqMresv (decodeFS w))
  | 0x51 => some (.seqMrels (decodeFS w))
  | 0x52 => some (.seqMload (decodeFS w))
  | 0x53 => some (.seqMcbl (decodeFS w))
  | 0x54 => some (.seqMma (decodeFS w))
  | 0x55 => some (.seqMmai (decodeFS w))
  | 0x56 => some (.seqMzero (decodeFS w))
  | 0x57 => some (.seqMstore (decodeFS w))
  | 0x58 => some (.seqMstat (decodeFS w))
  | 0x59 => some (.seqMchk (decodeFS w))
  | _ => none

/-- The GFX opcode map (spec/04_encoding.md R126-R132); an unassigned opcode is none. -/
def opcodeGfx (w : DWord) : Nat → Option Instr
  | 0x00 => some (.paypush (decodeFA w))
  | 0x01 => some (.paypop (decodeFA w))
  | 0x02 => some (.mcount (decodeFA w))
  | 0x03 => some (.mvert (decodeFA w))
  | 0x04 => some (.mprim (decodeFA w))
  | 0x05 => some (.mdone (decodeFA w))
  | 0x10 => some (.vispop (decodeFA w))
  | 0x11 => some (.visget (decodeFA w))
  | 0x12 => some (.rgnacq (decodeFA w))
  | 0x13 => some (.rgnrel (decodeFA w))
  | 0x14 => some (.rtblend (decodeFA w))
  | 0x20 => some (.tex (decodeFA w))
  | 0x21 => some (.tld (decodeFA w))
  | 0x22 => some (.tqry (decodeFA w))
  | _ => none

/-- The SYS opcode map (spec/04_encoding.md R126-R132); an unassigned opcode is none. -/
def opcodeSys (w : DWord) : Nat → Option Instr
  | 0x00 => some (.trap (decodeFI w))
  | 0x01 => some (.tret (decodeFA w))
  | 0x02 => some (.frginfo (decodeFA w))
  | 0x03 => some (.sfqpop (decodeFA w))
  | 0x04 => some (.killf (decodeFA w))
  | 0x05 => some (.bpt (decodeFI w))
  | 0x10 => some (.launch (decodeFA w))
  | 0x11 => some (.fork (decodeFX w))
  | 0x12 => some (.rdv (decodeFX w))
  | 0x13 => some (.setprio (decodeFI w))
  | 0x14 => some (.tmode (decodeFI w))
  | 0x20 => some (.xldec (decodeFA w))
  | 0x21 => some (if w.getLsbD 0 then .xlmapRaise (decodeFA w) else .xlmap (decodeFA w))
  | 0x30 => some (.vcdef (decodeFA w))
  | 0x31 => some (.vcsize (decodeFA w))
  | 0x32 => some (.vcmove (decodeFA w))
  | 0x33 => some (.vcflush (decodeFA w))
  | 0x34 => some (.biasflip (decodeFA w))
  | 0x40 => some (.qfeat (decodeFI w))
  | _ => none

/-- The instruction a word of a class encodes, its fields not yet checked. -/
def decodeRaw (c : Cls) (w : DWord) : Option Instr :=
  let o := (w.extractLsb' 56 8).toNat
  match c with
  | .alu => opcodeAlu w o
  | .mem => opcodeMem w o
  | .sync => opcodeSync w o
  | .eng => opcodeEng w o
  | .seq => opcodeSeq w o
  | .gfx => opcodeGfx w o
  | .sys => opcodeSys w o

/-- Why a word is no instruction (spec/04_encoding.md R122 steps 4 and 5). -/
inductive DecodeErr where
  /-- ILLEGAL_INSTRUCTION: the class does not assign the opcode -/
  | unassigned
  /-- ILLEGAL_ENCODING: a field breaks R115-R120 -/
  | illegalEncoding
  deriving DecidableEq, Repr

/-- Steps 4 and 5 of spec/04_encoding.md R122. -/
def decodeWord (c : Cls) (w : DWord) : Except DecodeErr Instr :=
  match decodeRaw c w with
  | none => .error .unassigned
  | some i => if i.wellFormed then .ok i else .error .illegalEncoding

/-- Instructions that must stand last in their clause (spec/04_encoding.md R121). -/
def Instr.mustBeLast : Instr → Bool
  | .bra _ => true
  | .brx _ => true
  | .call _ => true
  | .ret _ => true
  | .exit _ => true
  | .jwait _ => true
  | .yield _ => true
  | .bar _ => true
  | .barwait _ => true
  | .bowait _ => true
  | .qpush _ => true
  | .qpop _ => true
  | .trap _ => true
  | .tret _ => true
  | .killf _ => true
  | .bpt _ => true
  | .rdv _ => true
  | .sqloop _ => true
  | .sqend _ => true
  | _ => false

def encodeFA (o : BitVec 8) (f : FA) : DWord :=
  o ++ f.pred ++ BitVec.ofBool f.pneg ++ f.d ++ f.a ++ f.b ++ f.c ++ BitVec.ofBool f.la ++ BitVec.ofBool f.lb ++
    BitVec.ofBool f.lc ++ BitVec.ofBool f.bk ++ f.sbs ++ BitVec.ofBool f.sbv ++ f.md
def encodeFI (o : BitVec 8) (f : FI) : DWord :=
  o ++ f.pred ++ BitVec.ofBool f.pneg ++ f.d ++ f.a ++ BitVec.ofBool f.la ++ f.md ++ f.imm
def encodeFM (o : BitVec 8) (f : FM) : DWord :=
  o ++ f.pred ++ BitVec.ofBool f.pneg ++ f.d ++ f.a ++ BitVec.ofBool f.la ++ BitVec.ofBool f.ld ++ f.scope ++ f.sbs ++
    BitVec.ofBool f.sbv ++ f.width ++ f.md ++ f.off
def encodeFB (o : BitVec 8) (f : FB) : DWord :=
  o ++ f.pred ++ BitVec.ofBool f.pneg ++ f.hint ++ f.j ++ f.md ++ f.a ++ f.off
def encodeFX (o : BitVec 8) (f : FX) : DWord :=
  o ++ f.pred ++ BitVec.ofBool f.pneg ++ f.a ++ f.b ++ BitVec.ofBool f.la ++ BitVec.ofBool f.lb ++ f.row ++ f.col ++ f.die ++ f.md
def encodeFS (o : BitVec 8) (f : FS) : DWord := o ++ f.ar ++ f.br ++ f.doff ++ f.boff ++ f.smod

/-- The class and the word of an instruction; a device event has no word. -/
def encode : Instr → Option (Cls × DWord)
  | .nop f => some (.alu, encodeFA 0x00 f)
  | .mov f => some (.alu, encodeFA 0x01 f)
  | .movi f => some (.alu, encodeFI 0x02 f)
  | .movk f => some (.alu, encodeFA 0x03 f)
  | .iadd f => some (.alu, encodeFA 0x04 f)
  | .iaddI f => some (.alu, encodeFI 0x05 f)
  | .isub f => some (.alu, encodeFA 0x06 f)
  | .isubI f => some (.alu, encodeFI 0x07 f)
  | .imul f => some (.alu, encodeFA 0x08 f)
  | .imulI f => some (.alu, encodeFI 0x09 f)
  | .imulhi f => some (.alu, encodeFA 0x0A f)
  | .imad f => some (.alu, encodeFA 0x0B f)
  | .imadw f => some (.alu, encodeFA 0x0C f)
  | .iadd64 f => some (.alu, encodeFA 0x0D f)
  | .isub64 f => some (.alu, encodeFA 0x0E f)
  | .imin f => some (.alu, encodeFA 0x0F f)
  | .iminI f => some (.alu, encodeFI 0x10 f)
  | .imax f => some (.alu, encodeFA 0x11 f)
  | .imaxI f => some (.alu, encodeFI 0x12 f)
  | .iabs f => some (.alu, encodeFA 0x13 f)
  | .ineg f => some (.alu, encodeFA 0x14 f)
  | .logt f => some (.alu, encodeFA 0x15 f)
  | .and f => some (.alu, encodeFA 0x16 f)
  | .andI f => some (.alu, encodeFI 0x17 f)
  | .or f => some (.alu, encodeFA 0x18 f)
  | .orI f => some (.alu, encodeFI 0x19 f)
  | .xor f => some (.alu, encodeFA 0x1A f)
  | .xorI f => some (.alu, encodeFI 0x1B f)
  | .not f => some (.alu, encodeFA 0x1C f)
  | .shl f => some (.alu, encodeFA 0x1D f)
  | .shlI f => some (.alu, encodeFI 0x1E f)
  | .shr f => some (.alu, encodeFA 0x1F f)
  | .shrI f => some (.alu, encodeFI 0x20 f)
  | .sar f => some (.alu, encodeFA 0x21 f)
  | .sarI f => some (.alu, encodeFI 0x22 f)
  | .shf f => some (.alu, encodeFA 0x23 f)
  | .bfx f => some (.alu, encodeFA 0x24 f)
  | .bfi f => some (.alu, encodeFA 0x25 f)
  | .popc f => some (.alu, encodeFA 0x26 f)
  | .clz f => some (.alu, encodeFA 0x27 f)
  | .ctz f => some (.alu, encodeFA 0x28 f)
  | .brev f => some (.alu, encodeFA 0x29 f)
  | .prmb f => some (.alu, encodeFA 0x2A f)
  | .iset f => some (.alu, encodeFA 0x2B f)
  | .isetI f => some (.alu, encodeFI 0x2C f)
  | .iset64 f => some (.alu, encodeFA 0x2D f)
  | .sel f => some (.alu, encodeFA 0x2E f)
  | .lea f => some (.alu, encodeFA 0x2F f)
  | .leaI f => some (.alu, encodeFI 0x30 f)
  | .i2i f => some (.alu, encodeFA 0x31 f)
  | .plop f => some (.alu, encodeFA 0x32 f)
  | .pset f => some (.alu, encodeFA 0x33 f)
  | .srd f => some (.alu, encodeFA 0x34 f)
  | .cyc f => some (.alu, encodeFA 0x35 f)
  | .gpoll f => some (.alu, encodeFA 0x36 f)
  | .gxch f => some (.alu, encodeFA 0x37 f)
  | .gpeer f => some (.alu, encodeFA 0x38 f)
  | .bra f => some (.alu, encodeFB 0x40 f)
  | .brx f => some (.alu, encodeFB 0x41 f)
  | .call f => some (.alu, encodeFB 0x42 f)
  | .ret f => some (.alu, encodeFB 0x43 f)
  | .exit f => some (.alu, encodeFB 0x44 f)
  | .jset f => some (.alu, encodeFB 0x45 f)
  | .jwait f => some (.alu, encodeFB 0x46 f)
  | .yield f => some (.alu, encodeFB 0x47 f)
  | .fadd f => some (.alu, encodeFA 0x60 f)
  | .faddI f => some (.alu, encodeFI 0x61 f)
  | .fmul f => some (.alu, encodeFA 0x62 f)
  | .fmulI f => some (.alu, encodeFI 0x63 f)
  | .ffma f => some (.alu, encodeFA 0x64 f)
  | .fmulz f => some (.alu, encodeFA 0x65 f)
  | .fmin f => some (.alu, encodeFA 0x66 f)
  | .fmax f => some (.alu, encodeFA 0x67 f)
  | .fset f => some (.alu, encodeFA 0x68 f)
  | .fsetI f => some (.alu, encodeFI 0x69 f)
  | .fclass f => some (.alu, encodeFA 0x6A f)
  | .frnd f => some (.alu, encodeFA 0x6B f)
  | .f2i f => some (.alu, encodeFA 0x6C f)
  | .i2f f => some (.alu, encodeFA 0x6D f)
  | .f2f f => some (.alu, encodeFA 0x6E f)
  | .fsf f => some (.alu, encodeFA 0x6F f)
  | .pkadd f => some (.alu, encodeFA 0x70 f)
  | .pkmul f => some (.alu, encodeFA 0x71 f)
  | .pkfma f => some (.alu, encodeFA 0x72 f)
  | .pkdot f => some (.alu, encodeFA 0x73 f)
  | .dadd f => some (.alu, encodeFA 0x74 f)
  | .dmul f => some (.alu, encodeFA 0x75 f)
  | .dfma f => some (.alu, encodeFA 0x76 f)
  | .ld f => some (.mem, encodeFM 0x00 f)
  | .st f => some (.mem, encodeFM 0x01 f)
  | .ldl f => some (.mem, encodeFM 0x02 f)
  | .stl f => some (.mem, encodeFM 0x03 f)
  | .ldp f => some (.mem, encodeFM 0x04 f)
  | .stp f => some (.mem, encodeFM 0x05 f)
  | .ldk f => some (.mem, encodeFM 0x06 f)
  | .atom f => some (.mem, encodeFM 0x07 f)
  | .red f => some (.mem, encodeFM 0x08 f)
  | .atoml f => some (.mem, encodeFM 0x09 f)
  | .acq f => some (.mem, encodeFM 0x0A f)
  | .rel f => some (.mem, encodeFM 0x0B f)
  | .phase f => some (.mem, encodeFM 0x0C f)
  | .pref f => some (.mem, encodeFM 0x0D f)
  | .cline f => some (.mem, encodeFM 0x0E f)
  | .drainst f => some (.mem, encodeFM 0x0F f)
  | .vcqry f => some (.mem, encodeFM 0x10 f)
  | .bar f => some (.sync, encodeFM 0x00 f)
  | .bararv f => some (.sync, encodeFM 0x01 f)
  | .barwait f => some (.sync, encodeFM 0x02 f)
  | .boinit f => some (.sync, encodeFM 0x03 f)
  | .boexp f => some (.sync, encodeFM 0x04 f)
  | .boarv f => some (.sync, encodeFM 0x05 f)
  | .bowait f => some (.sync, encodeFM 0x06 f)
  | .botest f => some (.sync, encodeFM 0x07 f)
  | .qdef f => some (.sync, encodeFM 0x08 f)
  | .qpush f => some (.sync, encodeFM 0x09 f)
  | .qpop f => some (.sync, encodeFM 0x0A f)
  | .qtry f => some (.sync, encodeFM 0x0B f)
  | .cpy f => some (.eng, encodeFX 0x00 f)
  | .cpyg f => some (.eng, encodeFX 0x01 f)
  | .cpys f => some (.eng, encodeFX 0x02 f)
  | .cpyfill f => some (.eng, encodeFX 0x03 f)
  | .ctload f => some (.eng, encodeFX 0x04 f)
  | .decent f => some (.eng, encodeFX 0x05 f)
  | .decbr f => some (.eng, encodeFX 0x06 f)
  | .mresv f => some (.eng, encodeFX 0x10 f)
  | .mrels f => some (.eng, encodeFX 0x11 f)
  | .mload f => some (.eng, encodeFX 0x12 f)
  | .mcbl f => some (.eng, encodeFX 0x13 f)
  | .mma f => some (.eng, encodeFX 0x14 f)
  | .mmai f => some (.eng, encodeFX 0x15 f)
  | .mzero f => some (.eng, encodeFX 0x16 f)
  | .mstore f => some (.eng, encodeFX 0x17 f)
  | .mstat f => some (.eng, encodeFX 0x18 f)
  | .mchk f => some (.eng, encodeFX 0x19 f)
  | .rayq f => some (.eng, encodeFX 0x20 f)
  | .sqnop f => some (.seq, encodeFS 0x00 f)
  | .sqloop f => some (.seq, encodeFS 0x01 f)
  | .sqend f => some (.seq, encodeFS 0x02 f)
  | .sqwaitc f => some (.seq, encodeFS 0x03 f)
  | .sqboarv f => some (.seq, encodeFS 0x04 f)
  | .sqbowait f => some (.seq, encodeFS 0x05 f)
  | .seqCpy f => some (.seq, encodeFS 0x40 f)
  | .seqCpyg f => some (.seq, encodeFS 0x41 f)
  | .seqCpys f => some (.seq, encodeFS 0x42 f)
  | .seqCpyfill f => some (.seq, encodeFS 0x43 f)
  | .seqCtload f => some (.seq, encodeFS 0x44 f)
  | .seqDecent f => some (.seq, encodeFS 0x45 f)
  | .seqDecbr f => some (.seq, encodeFS 0x46 f)
  | .seqMresv f => some (.seq, encodeFS 0x50 f)
  | .seqMrels f => some (.seq, encodeFS 0x51 f)
  | .seqMload f => some (.seq, encodeFS 0x52 f)
  | .seqMcbl f => some (.seq, encodeFS 0x53 f)
  | .seqMma f => some (.seq, encodeFS 0x54 f)
  | .seqMmai f => some (.seq, encodeFS 0x55 f)
  | .seqMzero f => some (.seq, encodeFS 0x56 f)
  | .seqMstore f => some (.seq, encodeFS 0x57 f)
  | .seqMstat f => some (.seq, encodeFS 0x58 f)
  | .seqMchk f => some (.seq, encodeFS 0x59 f)
  | .paypush f => some (.gfx, encodeFA 0x00 f)
  | .paypop f => some (.gfx, encodeFA 0x01 f)
  | .mcount f => some (.gfx, encodeFA 0x02 f)
  | .mvert f => some (.gfx, encodeFA 0x03 f)
  | .mprim f => some (.gfx, encodeFA 0x04 f)
  | .mdone f => some (.gfx, encodeFA 0x05 f)
  | .vispop f => some (.gfx, encodeFA 0x10 f)
  | .visget f => some (.gfx, encodeFA 0x11 f)
  | .rgnacq f => some (.gfx, encodeFA 0x12 f)
  | .rgnrel f => some (.gfx, encodeFA 0x13 f)
  | .rtblend f => some (.gfx, encodeFA 0x14 f)
  | .tex f => some (.gfx, encodeFA 0x20 f)
  | .tld f => some (.gfx, encodeFA 0x21 f)
  | .tqry f => some (.gfx, encodeFA 0x22 f)
  | .trap f => some (.sys, encodeFI 0x00 f)
  | .tret f => some (.sys, encodeFA 0x01 f)
  | .frginfo f => some (.sys, encodeFA 0x02 f)
  | .sfqpop f => some (.sys, encodeFA 0x03 f)
  | .killf f => some (.sys, encodeFA 0x04 f)
  | .bpt f => some (.sys, encodeFI 0x05 f)
  | .launch f => some (.sys, encodeFA 0x10 f)
  | .fork f => some (.sys, encodeFX 0x11 f)
  | .rdv f => some (.sys, encodeFX 0x12 f)
  | .setprio f => some (.sys, encodeFI 0x13 f)
  | .tmode f => some (.sys, encodeFI 0x14 f)
  | .xldec f => some (.sys, encodeFA 0x20 f)
  | .xlmap f => some (.sys, encodeFA 0x21 f)
  | .xlmapRaise f => some (.sys, encodeFA 0x21 f)
  | .vcdef f => some (.sys, encodeFA 0x30 f)
  | .vcsize f => some (.sys, encodeFA 0x31 f)
  | .vcmove f => some (.sys, encodeFA 0x32 f)
  | .vcflush f => some (.sys, encodeFA 0x33 f)
  | .biasflip f => some (.sys, encodeFA 0x34 f)
  | .qfeat f => some (.sys, encodeFI 0x40 f)
  | .clauseIssue _ _ => none
  | .descheduleExpiry _ _ => none
  | .yieldExpiry _ _ => none
  | .stallExpiry _ _ => none
  | .slotLanding _ _ _ => none
  | .homeRelease _ => none
  | .homeAcquire _ => none
  | .homeAtomic _ => none
  | .homeFill _ => none
  | .demandWriteBack _ _ => none
  | .writeBackArrival _ _ => none
  | .writeBackAck _ => none
  | .boostNotice _ _ _ => none
  | .pageMoveSweepStep _ _ _ => none
  | .vcCommandLanding _ => none
  | .biasflipComplete _ => none
  | .engineDelivery _ => none
  | .matrixOpStart _ => none
  | .sqwaitcExpiry _ _ => none
  | .frontEndRequest _ => none
  | .paypushLanding _ => none
  | .packetArrival _ _ => none
  | .watermarkFlit _ _ _ _ => none
  | .launchHead _ _ => none
  | .blockPlace _ => none
  | .completionRecord _ => none
  | .preempt _ => none
  | .graceExpiry _ => none
  | .engineDrainExpiry _ => none
  | .blockRestore _ _ => none
  | .fixedClockChange _ _ => none
  | .blockRelaunch _ _ => none
  | .billingSend _ _ => none
  | .bootStep _ => none
  | .create _ _ _ => none
  | .destroy _ _ _ => none
  | .inval _ _ _ => none
  | .frmopen _ _ _ => none
  | .frmclose _ _ _ => none
  | .frmrel _ _ _ => none
  | .resans _ _ _ => none
  | .qbind _ _ _ => none
  | .migout _ _ _ => none
  | .migin _ _ _ => none
  | .hostCommandComplete => none
  | .waitTimeout _ => none
  | .eviction _ _ => none
  | .directoryRecall _ => none
  | .dirtyNotice _ _ => none
  | .hostSnoop _ _ => none
  | .hostMemAccess _ _ => none
  | .bankSleep _ _ => none
  | .l2DectedSwitch _ => none
  | .mresvPartnerTimeout _ => none
  | .tokenTimeout _ _ => none
  | .frameTimeout _ => none
  | .pipelineEvaluation _ => none
  | .quadGate _ _ => none
  | .uncorrectableError _ => none
  | .corrected _ => none
  | .scrub _ => none
  | .dieLost _ => none
  | .heartbeatSend => none
  | .silenceNotice _ _ => none
  | .linkLaneLoss _ _ => none
  | .linkRetrainDone _ _ => none
  | .remoteRequest _ => none
  | .podArrivalFlit _ _ => none
  | .podReleaseFlit _ => none
  | .billingFlit _ _ _ => none
  | .fabricEnable _ => none
  | .lostMarkClear _ => none
  | .powerEvaluation _ _ => none
  | .energyAccounting _ _ _ _ => none
  | .thermalReading _ _ _ _ => none
  | .droopDetect _ _ => none
  | .droopLimit _ _ => none
  | .droopRecover _ _ => none
  | .droopFloorExpiry _ _ => none
  | .regFailed _ _ => none
  | .pwrlimWrite _ => none
  | .packageReset => none
  | .pkgctlRst _ => none
  | .tailReread _ _ => none
  | .registerWrite _ _ => none
  | .stretchedCycle _ _ _ => none
  | .shuntClamp _ _ => none
  | .way7ReturnToVc1 _ => none

/-- The row is a device event, which no instruction word encodes. -/
def Instr.isEvent : Instr → Bool
  | .nop _ => false
  | .mov _ => false
  | .movi _ => false
  | .movk _ => false
  | .iadd _ => false
  | .iaddI _ => false
  | .isub _ => false
  | .isubI _ => false
  | .imul _ => false
  | .imulI _ => false
  | .imulhi _ => false
  | .imad _ => false
  | .imadw _ => false
  | .iadd64 _ => false
  | .isub64 _ => false
  | .imin _ => false
  | .iminI _ => false
  | .imax _ => false
  | .imaxI _ => false
  | .iabs _ => false
  | .ineg _ => false
  | .logt _ => false
  | .and _ => false
  | .andI _ => false
  | .or _ => false
  | .orI _ => false
  | .xor _ => false
  | .xorI _ => false
  | .not _ => false
  | .shl _ => false
  | .shlI _ => false
  | .shr _ => false
  | .shrI _ => false
  | .sar _ => false
  | .sarI _ => false
  | .shf _ => false
  | .bfx _ => false
  | .bfi _ => false
  | .popc _ => false
  | .clz _ => false
  | .ctz _ => false
  | .brev _ => false
  | .prmb _ => false
  | .iset _ => false
  | .isetI _ => false
  | .iset64 _ => false
  | .sel _ => false
  | .lea _ => false
  | .leaI _ => false
  | .i2i _ => false
  | .plop _ => false
  | .pset _ => false
  | .srd _ => false
  | .cyc _ => false
  | .gpoll _ => false
  | .gxch _ => false
  | .gpeer _ => false
  | .bra _ => false
  | .brx _ => false
  | .call _ => false
  | .ret _ => false
  | .exit _ => false
  | .jset _ => false
  | .jwait _ => false
  | .yield _ => false
  | .fadd _ => false
  | .faddI _ => false
  | .fmul _ => false
  | .fmulI _ => false
  | .ffma _ => false
  | .fmulz _ => false
  | .fmin _ => false
  | .fmax _ => false
  | .fset _ => false
  | .fsetI _ => false
  | .fclass _ => false
  | .frnd _ => false
  | .f2i _ => false
  | .i2f _ => false
  | .f2f _ => false
  | .fsf _ => false
  | .pkadd _ => false
  | .pkmul _ => false
  | .pkfma _ => false
  | .pkdot _ => false
  | .dadd _ => false
  | .dmul _ => false
  | .dfma _ => false
  | .ld _ => false
  | .st _ => false
  | .ldl _ => false
  | .stl _ => false
  | .ldp _ => false
  | .stp _ => false
  | .ldk _ => false
  | .atom _ => false
  | .red _ => false
  | .atoml _ => false
  | .acq _ => false
  | .rel _ => false
  | .phase _ => false
  | .pref _ => false
  | .cline _ => false
  | .drainst _ => false
  | .vcqry _ => false
  | .bar _ => false
  | .bararv _ => false
  | .barwait _ => false
  | .boinit _ => false
  | .boexp _ => false
  | .boarv _ => false
  | .bowait _ => false
  | .botest _ => false
  | .qdef _ => false
  | .qpush _ => false
  | .qpop _ => false
  | .qtry _ => false
  | .cpy _ => false
  | .cpyg _ => false
  | .cpys _ => false
  | .cpyfill _ => false
  | .ctload _ => false
  | .decent _ => false
  | .decbr _ => false
  | .mresv _ => false
  | .mrels _ => false
  | .mload _ => false
  | .mcbl _ => false
  | .mma _ => false
  | .mmai _ => false
  | .mzero _ => false
  | .mstore _ => false
  | .mstat _ => false
  | .mchk _ => false
  | .rayq _ => false
  | .sqnop _ => false
  | .sqloop _ => false
  | .sqend _ => false
  | .sqwaitc _ => false
  | .sqboarv _ => false
  | .sqbowait _ => false
  | .seqCpy _ => false
  | .seqCpyg _ => false
  | .seqCpys _ => false
  | .seqCpyfill _ => false
  | .seqCtload _ => false
  | .seqDecent _ => false
  | .seqDecbr _ => false
  | .seqMresv _ => false
  | .seqMrels _ => false
  | .seqMload _ => false
  | .seqMcbl _ => false
  | .seqMma _ => false
  | .seqMmai _ => false
  | .seqMzero _ => false
  | .seqMstore _ => false
  | .seqMstat _ => false
  | .seqMchk _ => false
  | .paypush _ => false
  | .paypop _ => false
  | .mcount _ => false
  | .mvert _ => false
  | .mprim _ => false
  | .mdone _ => false
  | .vispop _ => false
  | .visget _ => false
  | .rgnacq _ => false
  | .rgnrel _ => false
  | .rtblend _ => false
  | .tex _ => false
  | .tld _ => false
  | .tqry _ => false
  | .trap _ => false
  | .tret _ => false
  | .frginfo _ => false
  | .sfqpop _ => false
  | .killf _ => false
  | .bpt _ => false
  | .launch _ => false
  | .fork _ => false
  | .rdv _ => false
  | .setprio _ => false
  | .tmode _ => false
  | .xldec _ => false
  | .xlmap _ => false
  | .xlmapRaise _ => false
  | .vcdef _ => false
  | .vcsize _ => false
  | .vcmove _ => false
  | .vcflush _ => false
  | .biasflip _ => false
  | .qfeat _ => false
  | .clauseIssue _ _ => true
  | .descheduleExpiry _ _ => true
  | .yieldExpiry _ _ => true
  | .stallExpiry _ _ => true
  | .slotLanding _ _ _ => true
  | .homeRelease _ => true
  | .homeAcquire _ => true
  | .homeAtomic _ => true
  | .homeFill _ => true
  | .demandWriteBack _ _ => true
  | .writeBackArrival _ _ => true
  | .writeBackAck _ => true
  | .boostNotice _ _ _ => true
  | .pageMoveSweepStep _ _ _ => true
  | .vcCommandLanding _ => true
  | .biasflipComplete _ => true
  | .engineDelivery _ => true
  | .matrixOpStart _ => true
  | .sqwaitcExpiry _ _ => true
  | .frontEndRequest _ => true
  | .paypushLanding _ => true
  | .packetArrival _ _ => true
  | .watermarkFlit _ _ _ _ => true
  | .launchHead _ _ => true
  | .blockPlace _ => true
  | .completionRecord _ => true
  | .preempt _ => true
  | .graceExpiry _ => true
  | .engineDrainExpiry _ => true
  | .blockRestore _ _ => true
  | .fixedClockChange _ _ => true
  | .blockRelaunch _ _ => true
  | .billingSend _ _ => true
  | .bootStep _ => true
  | .create _ _ _ => true
  | .destroy _ _ _ => true
  | .inval _ _ _ => true
  | .frmopen _ _ _ => true
  | .frmclose _ _ _ => true
  | .frmrel _ _ _ => true
  | .resans _ _ _ => true
  | .qbind _ _ _ => true
  | .migout _ _ _ => true
  | .migin _ _ _ => true
  | .hostCommandComplete => true
  | .waitTimeout _ => true
  | .eviction _ _ => true
  | .directoryRecall _ => true
  | .dirtyNotice _ _ => true
  | .hostSnoop _ _ => true
  | .hostMemAccess _ _ => true
  | .bankSleep _ _ => true
  | .l2DectedSwitch _ => true
  | .mresvPartnerTimeout _ => true
  | .tokenTimeout _ _ => true
  | .frameTimeout _ => true
  | .pipelineEvaluation _ => true
  | .quadGate _ _ => true
  | .uncorrectableError _ => true
  | .corrected _ => true
  | .scrub _ => true
  | .dieLost _ => true
  | .heartbeatSend => true
  | .silenceNotice _ _ => true
  | .linkLaneLoss _ _ => true
  | .linkRetrainDone _ _ => true
  | .remoteRequest _ => true
  | .podArrivalFlit _ _ => true
  | .podReleaseFlit _ => true
  | .billingFlit _ _ _ => true
  | .fabricEnable _ => true
  | .lostMarkClear _ => true
  | .powerEvaluation _ _ => true
  | .energyAccounting _ _ _ _ => true
  | .thermalReading _ _ _ _ => true
  | .droopDetect _ _ => true
  | .droopLimit _ _ => true
  | .droopRecover _ _ => true
  | .droopFloorExpiry _ _ => true
  | .regFailed _ _ => true
  | .pwrlimWrite _ => true
  | .packageReset => true
  | .pkgctlRst _ => true
  | .tailReread _ _ => true
  | .registerWrite _ _ => true
  | .stretchedCycle _ _ _ => true
  | .shuntClamp _ _ => true
  | .way7ReturnToVc1 _ => true

/-- The class and the instruction word that the bits `w` hold: a clause header in [63:0] and the instruction in [127:64], or, where
[63:60] is not MARK, the instruction itself, taken to be of class ALU (notes/assumptions/5.md: the opcode table gives a row
neither bits nor class). -/
def tableWord (w : Nat) : Cls × DWord :=
  let lo := BitVec.ofNat 64 w
  match decodeHeader lo with
  | some h => (h.cls, BitVec.ofNat 64 (w / 2 ^ 64))
  | none => (.alu, lo)

/-- The instruction the decoder reads from the bits of an opcode-table row. -/
def decodeTableWord (_nbits w : Nat) : Option Instr :=
  match decodeWord (tableWord w).1 (tableWord w).2 with
  | .ok i => some i
  | .error _ => none

end Sys2Proof
end

