-- ==== Sys2Proof/Machine/State.lean ====
section
/-! DEFINITION. The state of the machine: plain data. A table `Tbl α` is a list of (key, value) pairs with strictly rising keys; an
unlisted key stands for the default that the field's docstring names. INVENTORY.md lists every piece with the rule that names it. -/

namespace Sys2Proof.Machine

/-- A sparse table: strictly rising keys. -/
abbrev Tbl (α : Type) := List (Nat × α)
/-- Memory: strictly rising addresses, no byte equal to 0; an unlisted address reads 0 (notes/assumptions/1.md). -/
abbrev Mem := List Host.Cell

/-- A mapped register: its value, and, when it is poisoned, the pointer of the load that poisoned it (spec/20_reliability.md R489). -/
structure RegCell where
  val : Word
  poison : Option DWord := none
  deriving DecidableEq, Repr

/-- What else the landing of a slot operation does. -/
inductive LandAct where
  | none
  /-- an acquiring access returns: the invalidations of spec/03_memory_model.md R87, R88 and the marks of
  spec/08_core_sync.md R250-R252 -/
  | acquire (granule : Nat) (value : Nat) (failed offDie offGroup atHome : Bool)
  deriving DecidableEq, Repr

/-- An outstanding slot operation of a thread (spec/04_encoding.md R118). -/
structure SlotOp where
  id : Nat
  slot : Nat
  /-- destination registers in word order; 255 is gz -/
  regs : List Nat
  /-- the words to land, once known -/
  val : Option (List Word)
  /-- lands as poison, with the pointer of the access -/
  poison : Option DWord := Option.none
  /-- an acquiring access (spec/07_core_memory.md R225) -/
  acq : Bool := false
  act : LandAct := .none
  /-- the quad cycle at which its result lands, where that is constant (spec/10_distributor.md R294) -/
  due : Option Nat := Option.none
  /-- parts of a load that is performed in parts: index of the first word, and the words (spec/03_memory_model.md R71, R73) -/
  part : List (Nat × List Word) := []
  deriving DecidableEq, Repr

/-- What a blocked thread waits for. -/
inductive Wait where
  | jwait (j : Nat)
  | bar (scope bid : Nat)
  | bowait (addr : Nat) (parity : Bool)
  | qpush (q : Nat) (v : Word)
  | qpop (q : Nat) (d : Nat)
  | rdv (die num : Nat) (cpy mat pair : Bool)
  /-- a KILLF waits for the issuing threads of this fragment to end (spec/09_core_traps.md R269) -/
  | killf (fid : BitVec 16)
  deriving DecidableEq, Repr

/-- What a trap reports (the arguments of TakeTrap, spec/09_core_traps.md R256). -/
structure TrapInfo where
  cause : Nat
  detail : Word
  ipc : DWord
  rpc : DWord
  /-- the header of the clause that holds RPC (spec/09_core_traps.md R267) -/
  rhdr : DWord
  addr : DWord
  dfl : Bool
  hdr : Bool
  wt : Bool
  pos : Nat
  deriving DecidableEq, Repr

/-- The condition of a thread (spec/02_execution.md R32, R62). -/
inductive TStatus where
  | ready
  /-- a member of an open group -/
  | issuing
  | waiting (w : Wait)
  /-- parked on a moving page (spec/07_core_memory.md R218) -/
  | parked (page : Nat) (addr : DWord)
  /-- blocked at a committing instruction behind a moving page or an incomplete acquire (R218, R80) -/
  | held
  /-- blocked after 64 failed attempts (spec/08_core_sync.md R252) -/
  | descheduled
  /-- not ready after YIELD (spec/05_core_integer.md R171) -/
  | yielded (others : List (Nat × Nat))
  /-- a trap whose entry waits for the slots or for the commit (spec/09_core_traps.md R256) -/
  | trapping (t : TrapInfo)
  /-- at an EXIT that waits for the slots or for the commit (spec/05_core_integer.md R170) -/
  | exiting
  | ended
  deriving DecidableEq, Repr

/-- The arrived flag and arrival phase of one scoped barrier (spec/08_core_sync.md R234, R235). -/
structure BarArr where
  scope : Nat
  bid : Nat
  phase : Nat
  /-- the phase completed before the thread's block was restored elsewhere (R249) -/
  done : Bool := false
  deriving DecidableEq, Repr

/-- A thread (spec/02_execution.md R28 and the thread state that chapters 08 and 09 add). -/
structure Thread where
  /-- mapped registers; an unlisted register is unmapped (R30, R31) -/
  regs : Tbl RegCell := []
  preds : BitVec 7 := 0
  ops : List SlotOp := []
  pc : DWord := 0
  /-- the header of the clause that pc lies in -/
  hdr : DWord := 0
  fid : BitVec 16 := 0
  parent : BitVec 16 := 0
  sib : BitVec 32 := 0
  status : TStatus := .ready
  /-- group position of the clause being issued, or of the last one -/
  pos : Nat := 0
  /-- the STALL of the next header has elapsed (R103) -/
  stallDone : Bool := false
  /-- quad cycle at the end of the previous clause -/
  clauseEnd : Nat := 0
  /-- order of the previous issue (R36) -/
  lastIssue : Nat := 0
  /-- cycles counted in the current wait, YIELD or descheduling before this residence, and the quad cycle at which this residence's
  count began (R248, R252) -/
  waitBase : Nat := 0
  waitFrom : Nat := 0
  /-- order in which the thread blocked (spec/08_core_sync.md R246) -/
  waitSeq : Nat := 0
  bars : List BarArr := []
  /-- granule and value of the latest acquiring access (R250) -/
  heldVal : Option (Nat × Nat) := none
  /-- granule and count of consecutive failed attempts (R252) -/
  fails : Nat × Nat := (0, 0)
  /-- held-granule mark (R251) -/
  mark : Option Nat := none
  /-- boost held (R251) -/
  boost : Option (BitVec 7) := none
  /-- a boost that takes effect at the next clause boundary (R251) -/
  boostNew : Option (BitVec 7) := none
  lprio : BitVec 7 := 0
  /-- SETPRIO's value until the next clause boundary (spec/10_distributor.md R283) -/
  lprioNew : Option (BitVec 7) := none
  inHandler : Bool := false
  tw0 : DWord := 0
  tw1 : DWord := 0
  tw2 : DWord := 0
  tw3 : DWord := 0
  rhdr : DWord := 0
  /-- the wait that a trap taken in it left (R267) -/
  savedWait : Option Wait := none
  /-- pending store fault with the pointer of the oldest discarded store (spec/09_core_traps.md R261) -/
  pendSf : Option (DWord × Nat × Word) := none
  lost : BitVec 16 := 0
  /-- PHASE operations not yet complete (spec/07_core_memory.md R226) -/
  phases : Nat := 0
  /-- ended by KILLF, or by the end of its launch, at the end of the clause it issues (R269) -/
  kill : Bool := false
  /-- the memory of this thread alone (spec/03_memory_model.md R65) -/
  pmem : Mem := []
  deriving DecidableEq, Repr

/-- A store-buffer entry (spec/07_core_memory.md R211). -/
structure SbEntry where
  seq : Nat
  tl : Nat
  va : DWord
  pa : Nat
  width : Nat
  data : Nat
  vc : Nat
  tracked : Bool
  hostBias : Bool
  /-- lacks W (R219) -/
  faulting : Bool
  /-- CH 2: commits to the die's L2 (R211) -/
  nl1 : Bool
  /-- the word index of the store instruction in .text and its WIDTH field (spec/09_core_traps.md R263) -/
  word : BitVec 32
  wfield : BitVec 3
  /-- CH 1: its line has the lowest replacement priority (R211) -/
  low : Bool := false
  /-- the page it was translated to: first 4 KiB frame, and frames -/
  page : Nat × Nat := (0, 1)
  deriving DecidableEq, Repr

/-- A store-fault record (spec/09_core_traps.md R263). -/
structure SfRec where
  tl : Nat
  word : BitVec 32
  wfield : BitVec 3
  va : DWord
  deriving DecidableEq, Repr

/-- A join barrier set by one group: the threads of `expected` hold it (spec/02_execution.md R46, R47; notes/assumptions/6.md). -/
structure JoinBar where
  j : Nat
  expected : List Nat
  arrived : List Nat
  jid : BitVec 16
  /-- the rest of that fragment's identity (R42) -/
  parent : BitVec 16 := 0
  sib : BitVec 32 := 0
  deriving DecidableEq, Repr

/-- A lease (spec/10_distributor.md R275): permission 0 ro, 1 wo, 2 rw. -/
structure Lease where
  perm : Nat
  base : Nat
  size : Nat
  deriving DecidableEq, Repr

/-- A cached translation of a 4 KiB page (spec/07_core_memory.md R212). -/
structure TlbEntry where
  ctx : Nat
  vpn : Nat
  frame : Nat
  vc : BitVec 8
  hb : Bool
  trk : Bool
  x : Bool
  w : Bool
  rd : Bool
  mov : Bool
  /-- 4 KiB pages of the leaf -/
  pages : Nat
  deriving DecidableEq, Repr

/-- A sequencer (spec/10_distributor.md R287). -/
structure Sequencer where
  running : Bool := false
  /-- the program has ended; operations still in flight (R292) -/
  draining : Bool := false
  owner : Nat := 0
  pc : DWord := 0
  hdr : DWord := 0
  head : Option Header := none
  words : List DWord := []
  idx : Nat := 0
  /-- number of the FORK that started it -/
  fork : Nat := 0
  a : List (BitVec 32) := []
  st : List (BitVec 16) := []
  n : List (BitVec 32) := []
  c : List (BitVec 32) := []
  t : BitVec 8 := 0
  /-- quad cycle at SCYC = 0; while saved, minus the cycles counted -/
  scyc0 : Int := 0
  mark : BitVec 64 := 0
  pbo : BitVec 32 := 0
  /-- first cause recorded, with the word index -/
  cause : Nat := 0
  detail : BitVec 32 := 0
  /-- held by SQWAITC until SCYC reaches this value -/
  holdT : Option Nat := none
  /-- blocked in SQBOWAIT on this object address with this tracker -/
  bowait : Option (Nat × Nat) := none
  /-- quad cycle at which its wait began; while saved, minus the cycles counted -/
  waitFrom : Int := 0
  /-- the quad cycle at which its next instruction issues, where that is constant (spec/10_distributor.md R294) -/
  due : Option Nat := none
  deriving DecidableEq, Repr

/-- A matrix reservation held by a core (spec/12_matrix.md R324). -/
structure MatRes where
  id : Nat
  blk : Nat
  base : Nat
  size : Nat
  key : BitVec 32
  delivered : Bool
  deriving DecidableEq, Repr

/-- The matrix state that a block is saved with (spec/12_matrix.md R348). -/
structure SavedMat where
  res : MatRes
  obuf : Mem
  acc0 : Tbl Word
  acc1 : Tbl Word
  codebooks : Tbl (List Word)
  stick0 : BitVec 3
  stick1 : BitVec 3
  chkn : BitVec 16
  deriving DecidableEq, Repr

/-- A visibility packet at its owner die (spec/14_narrows.md R380-R382). -/
structure VisPkt where
  p : Packet
  /-- package time of its arrival -/
  came : Nat
  /-- its offset in the spill area, while it lies there -/
  spilled : Option Nat
  /-- number of its release; its low 16 bits are its HANDLE -/
  stamp : Nat := 0
  deriving DecidableEq, Repr

/-- A resident or saved block. -/
structure Block where
  id : Nat
  ctx : Nat
  launch : Nat
  /-- number within the launch (sr.blkid) -/
  num : Nat
  core : CoreRef
  /-- index of its kernel in the launch's kernel list -/
  kernel : Nat
  nx : Nat
  ny : Nat
  nz : Nat
  regsN : Nat
  localSize : Nat
  privSize : Nat
  /-- threads in ascending linear index -/
  threads : List Thread
  kregs : List Word
  lmem : Mem := []
  /-- poisoned bytes of local memory (spec/20_reliability.md R490) -/
  lpoison : List Nat := []
  sbuf : List SbEntry := []
  sfq : List SfRec := []
  fidCtr : BitVec 16 := 1
  joins : List JoinBar := []
  /-- queue table: queue number to local address -/
  qtable : Tbl Nat := []
  /-- code-table slots: the 256 code lengths (spec/11_copy.md R315) -/
  ctabs : Tbl (List Nat) := []
  /-- sequencers and matrix state saved with the block; the first component says that it stood on the partner core -/
  seqs : List (Bool × SeqKind × Sequencer) := []
  mats : List (Bool × SavedMat) := []
  nonRollback : Bool := false
  /-- saved, not resident (spec/10_distributor.md R296) -/
  saved : Bool := false
  /-- rolled back and waiting to be relaunched (spec/20_reliability.md R493) -/
  relaunch : Bool := false
  /-- the quad that it was saved from so that the quad's pass-count may rise (spec/02_execution.md R40) -/
  evicted : Option Nat := none
  rollbacks : Nat := 0
  /-- quad on which the latest rollback cause struck (spec/20_reliability.md R494) -/
  struck : Option Nat := none
  /-- continuation and parked-fragment records of its save, as numbers of 512 and 256 bits (spec/10_distributor.md R297); where in the
  save area they lie, the spec does not say (notes/assumptions/54.md) -/
  conts : List Nat := []
  frags : List Nat := []
  /-- package time of the last placement, in ns (spec/10_distributor.md R299) -/
  placedAt : Nat := 0
  /-- stage state (spec/13_geometry.md R354-R361) -/
  stage : Nat := 0
  root : Nat := 0
  /-- what sr.nblk reads (R354) -/
  nblk : Nat := 1
  /-- slot of its input entry, and the slot of the output queue reserved for it -/
  inSlot : Option Nat := none
  outSlot : Option Nat := none
  pushed : Bool := false
  /-- MS: 0 none, 1 counted, 2 done -/
  ms : Nat := 0
  /-- the thread whose MDONE holds its issue while the front end is full (spec/13_geometry.md R352) -/
  mdHold : Option Nat := none
  nv : Nat := 0
  np : Nat := 0
  aw : Nat := 0
  out : BitVec 32 := 0
  /-- held region, and the packets that the latest VISPOP gave (spec/14_narrows.md R384, R387) -/
  region : Option Nat := none
  packets : List VisPkt := []
  deriving DecidableEq, Repr

/-- A clean cached copy of a granule. -/
structure Copy where
  bytes : List Byte
  tracked : Bool
  ctx : Nat
  vc : Nat
  /-- the home lies outside the coherence group (spec/03_memory_model.md R88) -/
  far : Bool
  /-- its latest use: nextId at that time; 0 is the lowest replacement priority (spec/18_cache.md R443, R445) -/
  used : Nat := 0
  /-- it stands in the old share map of an open window (spec/18_cache.md R454) -/
  inOld : Bool := false
  /-- its page: first 4 KiB frame, and frames -/
  page : Nat × Nat := (0, 1)
  deriving DecidableEq, Repr

/-- The dirty bytes a core holds of a granule (spec/03_memory_model.md R76, R79). -/
structure DirtyLine where
  bytes : Tbl Byte
  gen : BitVec 4
  tracked : Bool
  hostBias : Bool
  ctx : Nat
  vc : Nat
  /-- a write-back is on its way to the home -/
  wb : Bool
  /-- bytes of it lie in the die's L2 (spec/07_core_memory.md R211) -/
  l2 : Bool := false
  /-- its latest use, and whether it stands in the old share map of an open window, and its page, as for a clean copy -/
  used : Nat := 0
  inOld : Bool := false
  page : Nat × Nat := (0, 1)
  /-- its write-back's flit has been sent to the package of its home (spec/19_fabric.md R475) -/
  flit : Bool := false
  deriving DecidableEq, Repr

/-- A stacked core; an unlisted core is this default. -/
structure Core where
  gen : BitVec 4 := 0
  dirty : Tbl DirtyLine := []
  copies : Tbl Copy := []
  tlb : List TlbEntry := []
  cseq : Sequencer := {}
  mseq : Sequencer := {}
  /-- draining for pre-emption (spec/10_distributor.md R296): 0 none, 1 grace, 2 engines -/
  drain : Nat := 0
  /-- launch whose blocks are being saved, and the time of the step -/
  drainLaunch : Nat := 0
  drainFrom : Nat := 0
  /-- a thermal migration saves only the blocks placed by this time (spec/10_distributor.md R299) -/
  drainAge : Option Nat := none
  /-- faulty until package reset (spec/20_reliability.md R494) -/
  faulty : Bool := false
  lastError : Option Nat := none
  /-- matrix unit (spec/12_matrix.md R324, R344) -/
  res : Option MatRes := none
  /-- operand buffer: key is 512-byte-unit byte address -/
  obuf : Mem := []
  obPoison : List Nat := []
  /-- poisoned elements of the tiles: tile * 8192 + element (spec/12_matrix.md R349) -/
  tilePoison : List Nat := []
  acc0 : Tbl Word := []
  acc1 : Tbl Word := []
  codebooks : Tbl (List Word) := []
  stick0 : BitVec 3 := 0
  stick1 : BitVec 3 := 0
  chkn : BitVec 16 := 0
  deriving DecidableEq, Repr

/-- The clock of a quad (spec/10_distributor.md R295). -/
inductive QClock where
  | elastic
  | toPinned
  | pinned
  | toElastic
  deriving DecidableEq, Repr

/-- A quad; an unlisted quad is this default. -/
structure Quad where
  /-- quad-clock cycles since power-up (spec/05_core_integer.md R148) -/
  cyc : Nat := 0
  /-- sr.pass PASS and CHG (spec/02_execution.md R39) -/
  pass : BitVec 2 := 0
  chg : BitVec 16 := 0
  clock : QClock := .elastic
  claim : Bool := false
  gated : Bool := false
  deriving DecidableEq, Repr

/-- A sync record (spec/03_memory_model.md R84), with the holder-recorded bit of spec/08_core_sync.md R250. -/
structure SyncRec where
  sv : Bool := false
  fl : Bool := false
  rdie : BitVec 4 := 0
  rcore : BitVec 7 := 0
  rpkg : BitVec 14 := 0
  rgen : BitVec 4 := 0
  bv : Bool := false
  boost : BitVec 7 := 0
  hdie : BitVec 4 := 0
  hcore : BitVec 7 := 0
  hpkg : BitVec 14 := 0
  holder : Bool := false
  deriving DecidableEq, Repr

/-- What a pending request asks of the home. -/
inductive ReqKind where
  | fill
  | acquire
  | atomic
  | release
  deriving DecidableEq, Repr

/-- How far a request has come at the home (spec/03_memory_model.md R85, R86). -/
inductive ReqStage where
  | fresh
  /-- waits for the write-backs of the fence with this number -/
  | fenced (fence : Nat)
  | ready
  deriving DecidableEq, Repr

/-- A request of a thread that the home has not yet performed. -/
structure HomeReq where
  id : Nat
  kind : ReqKind
  blk : Nat
  tl : Nat
  /-- the slot operation it serves -/
  op : Option Nat
  core : CoreRef
  ctx : Nat
  pa : Nat
  va : DWord
  width : Nat
  vc : Nat
  tracked : Bool
  hostBias : Bool
  data : Nat := 0
  cmp : Nat := 0
  aop : Nat := 0
  acq : Bool := false
  rel : Bool := false
  scope : Nat := 0
  prio : BitVec 7 := 0
  sx : Bool := false
  /-- outermost level left out of the fill: 0 fills L1, L2 and last level, 1 not L1, 2 last level only (spec/07_core_memory.md R228) -/
  level : Nat := 0
  /-- the instruction it belongs to: nextId as that issued (spec/07_core_memory.md R211) -/
  ins : Nat := 0
  /-- a part of a load, which begins at this word of its result -/
  wofs : Option Nat := none
  /-- CH 1: its line has the lowest replacement priority (spec/07_core_memory.md R211) -/
  low : Bool := false
  /-- the page it was translated to: first 4 KiB frame, and frames -/
  page : Nat × Nat := (0, 1)
  /-- its flit has been sent to the package of its home (spec/19_fabric.md R475) -/
  flit : Bool := false
  stage : ReqStage := .fresh
  deriving DecidableEq, Repr

/-- On whose behalf write-backs are awaited (WRITE_BACK_ACK). -/
inductive FenceFor where
  /-- PHASE of a thread at a scope (spec/03_memory_model.md R90) -/
  | phase (blk tl scope : Nat)
  /-- the release part of a scoped barrier (R94) -/
  | barrier (blk tl scope bid phase : Nat)
  /-- the write-backs that precede a release (R85) -/
  | req (id : Nat)
  /-- a demand on behalf of a request, for the record as it stood (R85, R86) -/
  | demand (id granule : Nat) (rec_ : SyncRec)
  /-- the end of a launch (spec/10_distributor.md R278) -/
  | launchEnd (launch : Nat)
  /-- VCFLUSH or BIASFLIP (spec/18_cache.md R453, R462) -/
  | vc (cmd : Nat)
  /-- RGNREL (spec/14_narrows.md R386) -/
  | region (blk tl region : Nat)
  /-- PAYPUSH (spec/13_geometry.md R358) -/
  | paypush (blk : Nat)
  /-- a demand that precedes a recall of a directory entry (spec/18_cache.md R459) -/
  | recall (granule : Nat) (rec_ : SyncRec)
  /-- a demand that precedes the end of a BIASFLIP (spec/03_memory_model.md R89, spec/18_cache.md R462) -/
  | flip (granule : Nat) (rec_ : SyncRec)
  /-- a demand on behalf of a request of another package (spec/19_fabric.md R479) -/
  | remoteReq (id granule : Nat) (rec_ : SyncRec)
  /-- a demand that precedes the releasing add of a distributor or of the Narrows to a DONE word (spec/10_distributor.md R277,
  spec/14_narrows.md R377) -/
  | done (pa : Nat) (rec_ : SyncRec)
  /-- the dirty notice of a core's first dirty bytes of a granule homed on another package (spec/19_fabric.md R480) -/
  | notice (core : CoreRef) (granule : Nat)
  deriving DecidableEq, Repr

/-- Write-backs that must reach their homes before `who` goes on: (core, granule) pairs. -/
structure Fence where
  id : Nat
  who : FenceFor
  lines : List (CoreRef × Nat)
  /-- the demanded core lies on another package, whose acknowledgement comes from outside -/
  remote : Option (BitVec 14) := none
  /-- older requests of the thread, which are performed before it is acknowledged (spec/03_memory_model.md R80) -/
  reqs : List Nat := []
  deriving DecidableEq, Repr

/-- Threads of an open group at their positions, with the clause as fetched (spec/02_execution.md R33, spec/04_encoding.md R105). -/
structure Group where
  blk : Nat
  hdr : DWord
  head : Header
  words : List DWord
  idx : Nat
  /-- (position, linear thread index), ascending -/
  lanes : List (Nat × Nat)
  /-- sr.pass as the clause sees it (R38, R39) -/
  pass : Word := 0
  /-- threads whose part of the current instruction is done while its issue is held (spec/11_copy.md R302) -/
  part : List Nat := []
  /-- the quad cycle at which its next instruction issues, where that is constant (spec/10_distributor.md R294) -/
  due : Option Nat := none
  /-- the issue slot of its core (spec/02_execution.md R33) -/
  slot : Nat := 0
  deriving DecidableEq, Repr

/-- A clause being issued, by a group or by a sequencer. -/
inductive Open where
  | grp (g : Group)
  | seq (core : CoreRef) (kind : SeqKind)
  deriving DecidableEq, Repr

/-- A kernel of a launch's image (spec/10_distributor.md R273), as the loader read it. -/
structure Kernel where
  entry : DWord
  nx : Nat
  ny : Nat
  nz : Nat
  regs : Nat
  localSize : Nat
  privSize : Nat
  stage : Nat
  fpprof : Nat
  ktype : Nat
  leases : List Lease
  /-- VC bindings: index, address of the CDR -/
  vcbs : List (Nat × DWord)
  /-- stage queues: slots, slot bytes -/
  queues : List (Nat × Nat)
  /-- it contains a sampler instruction (spec/15_sampler.md R405) -/
  samp : Bool := false
  /-- it contains an instruction that needs a matrix pairing (spec/02_execution.md R51) -/
  pair : Bool := false
  deriving DecidableEq, Repr

/-- How far a launch has come. -/
inductive LState where
  /-- its checks are made; it waits for residency of its leases (spec/10_distributor.md R281), or as a replay for its turn (R286) -/
  | resident
  | running
  /-- all blocks ended; dirty lines being written back (R278) -/
  | flushing
  | ended
  deriving DecidableEq, Repr

/-- A slot of a stage queue (spec/13_geometry.md R355). -/
structure StageSlot where
  /-- reserved by this block, not yet filled -/
  reserved : Option Nat := none
  /-- entry: count, root, payload -/
  entry : Option (Nat × Nat × List Byte) := none
  /-- order of its landing -/
  landed : Nat := 0
  started : Nat := 0
  done : Nat := 0
  deriving DecidableEq, Repr

/-- A launch from its submission's check to its end. -/
structure Launch where
  id : Nat
  ctx : Nat
  queue : Nat
  sub : Nat
  coop : Bool
  mesh : Bool
  prio : BitVec 7
  row0 : Nat
  col0 : Nat
  rows : Nat
  cols : Nat
  profile : Nat
  nblk : Nat
  podgrp : BitVec 32
  cbank : DWord
  cbsize : Nat
  args : List Word
  cplptr : DWord
  image : DWord
  text : DWord
  textWords : Nat
  /-- address of .data (spec/04_encoding.md R133) -/
  data : DWord
  /-- bytes of the image, which the loader's lease covers (spec/17_translation.md R435) -/
  imgSize : Nat := 0
  kernels : List Kernel
  /-- directory index of the kernel and of the handler -/
  kidx : Nat
  handler : Option Nat
  /-- patched instruction words (spec/04_encoding.md R135; notes/assumptions/7.md) -/
  reloc : Tbl DWord := []
  prot : Bool := false
  state : LState := .running
  started : Nat := 0
  cause : Nat := 0
  outState : Nat := 0
  detail : Nat := 0
  tw : List DWord := []
  /-- parameter slot of a replay (R286) -/
  pslot : Option Nat := none
  patch : List Byte := []
  pslotVa : DWord := 0
  record : DWord := 0
  /-- order of submission -/
  seq : Nat := 0
  /-- blocks of the launch, or of stage 1, that have been started -/
  placed : Nat := 0
  /-- cores that held its blocks -/
  cores : List Nat := []
  /-- cores that the check of its routing tables found usable (spec/02_execution.md R54) -/
  routes : List Nat := []
  /-- translations of the pages that its start has pinned (spec/10_distributor.md R281) -/
  pins : List TlbEntry := []
  /-- the lease range whose residency record it waits for (spec/22_host.md R522) -/
  awaits : Option (Nat × Nat) := none
  /-- a pipeline: directory index of the kernel of each stage; empty otherwise (spec/13_geometry.md R353) -/
  stageK : List Nat := []
  /-- the stage each core serves, and the one it changes to (spec/02_execution.md R58, R59) -/
  coreStage : Tbl Nat := []
  coreNext : Tbl Nat := []
  /-- stage queues: key is the queue of stage n -/
  stages : Tbl (List StageSlot) := []
  /-- stages whose occupancy was at least 3/4 at the evaluation before (spec/10_distributor.md R285) -/
  prevHigh : List Nat := []
  /-- DRAW of a graphics pipeline as read at its start, and whether its packets are discarded (spec/14_narrows.md R378) -/
  draw : Option Nat := none
  badDraw : Bool := false
  deriving DecidableEq, Repr

/-- One accepted submission (spec/10_distributor.md R279). -/
structure Submission where
  /-- order of submission among all queues -/
  seq : Nat
  num : BitVec 32
  /-- the record's 128 bytes as a number -/
  record : Nat
  patch : Option (List Byte)
  /-- submitted by LAUNCH.replay -/
  replay : Bool
  /-- submitted by LAUNCH -/
  byThread : Bool
  recAddr : DWord
  badPatch : Bool
  deriving DecidableEq, Repr

/-- A submission queue. -/
structure SubQueue where
  next : BitVec 32 := 0
  entries : List Submission := []
  /-- ended submissions: number and STATE -/
  ended : Tbl Nat := []
  /-- ring binding (spec/22_host.md R523): descriptor address, HEAD, TAIL seen -/
  ring : Option (Nat × Nat × Nat) := none
  deriving DecidableEq, Repr

/-- A defined entry of the VC table (spec/18_cache.md R442). -/
structure VcEntry where
  /-- defined (V); the words of an undefined entry stay as they were left -/
  v : Bool
  w0 : DWord
  w1 : DWord
  fix : Bool
  lost : BitVec 32
  /-- shares held: (level-2?, die, bank, way) -/
  shares : List (Bool × Nat × Nat × Nat)
  /-- the old map of an open migration window -/
  old : Option (List (Bool × Nat × Nat × Nat)) := none
  deriving DecidableEq, Repr

/-- A residency record not yet answered (spec/22_host.md R522); `n` is none while it waits for a ring entry. -/
structure ResRec where
  n : Option Nat
  base : Nat
  size : Nat
  queue : Nat
  sub : Nat
  lidx : Nat
  deriving DecidableEq, Repr

/-- A region of a frame at its owner die (spec/14_narrows.md R380). -/
structure Region where
  /-- the token: TK, none while no key has been released, TP and OP -/
  tk : Option Nat := none
  tp : Nat := 0
  op : Bool := false
  held : List VisPkt := []
  released : List VisPkt := []
  poisoned : Bool := false
  /-- the block that holds it -/
  holder : Option Nat := none
  deriving DecidableEq, Repr

/-- A frame as opened (spec/14_narrows.md R374-R382). -/
structure Frame where
  /-- physical address of its record -/
  rec_ : Nat
  rtbase : DWord
  rtfmt : Nat
  rtpitch : Nat
  rtw : Nat
  rth : Nat
  /-- OWNPTR and SPILLPTR -/
  ownptr : DWord
  spillptr : DWord
  /-- bytes of the spill area, and FTO in ns -/
  spill : Nat
  fto : Nat
  gdmask : Nat
  /-- owner of each region, row by row -/
  owners : List Nat
  opened : Nat
  closing : Bool := false
  cause : Nat := 0
  npois : Nat := 0
  ndisc : Nat := 0
  /-- watermarks sent, by geometry die, and received, by geometry die * 64 + owner die -/
  sentWm : Tbl Nat := []
  wm : Tbl Nat := []
  /-- highest DRAW started in the frame -/
  draw : Option Nat := none
  regions : Tbl Region := []
  nextStamp : Nat := 0
  /-- translations of the pages it pins (R376) -/
  pins : List TlbEntry := []
  deriving DecidableEq, Repr

/-- A flit on its way through the Narrows (spec/14_narrows.md R379). -/
inductive NFlit where
  | packet (p : Packet)
  | watermark (wm : Nat)
  deriving DecidableEq, Repr

/-- A flit from a geometry die to an owner die, in order of emission for each pair of dies. -/
structure NMsg where
  ctx : Nat
  gdie : Nat
  owner : Nat
  flit : NFlit
  deriving DecidableEq, Repr

/-- A PAYPUSH that has not landed (spec/13_geometry.md R358). -/
structure PendPush where
  blk : Nat
  tl : Nat
  op : Nat
  addr : Nat
  n : Nat
  /-- its write-backs have been acknowledged -/
  ready : Bool := false
  deriving DecidableEq, Repr

/-- A request held by a front end (spec/13_geometry.md R352), in order of arrival. -/
structure MdReq where
  die : Nat
  blk : Nat
  tl : Nat
  op : Nat
  deriving DecidableEq, Repr

/-- A VISPOP, or an RGNACQ of any region, that waits (spec/14_narrows.md R385, R387). -/
structure RgnReq where
  blk : Nat
  tl : Nat
  op : Nat
  pop : Bool
  deriving DecidableEq, Repr

/-- A context (spec/10_distributor.md R271). -/
structure Ctx where
  ptroot : Nat
  btbase : Nat
  vctbase : Nat
  priomax : Nat
  fixed : Bool
  strict : Bool
  mergef : Bool
  wto : Nat
  grace : Nat
  savebase : Nat
  savesize : Nat
  rring : Nat
  floor : List DWord
  pqmask : DWord
  queues : Tbl SubQueue := []
  vcs : Tbl VcEntry := []
  /-- residency records: the next number, and those not yet answered (spec/22_host.md R522) -/
  resNext : Nat := 0
  resRecs : List ResRec := []
  frame : Option Frame := none
  /-- a frame that FRMOPEN accepted, waiting for a range of it to be resident: base and size (spec/14_narrows.md R376) -/
  opening : Option (Frame × Nat × Nat) := none
  deriving DecidableEq, Repr

/-- An instance of a scoped barrier wider than a lane (spec/08_core_sync.md R234): `inst` is the block id, the quad or die key, 0 for
the package, or the pod group; `owner` is the launch, or the pod group. -/
structure BarInst where
  scope : Nat
  owner : Nat
  inst : Nat
  bid : Nat
  phase : Nat
  /-- threads that have arrived in the current phase, their release part performed -/
  arrived : List (Nat × Nat)
  deriving DecidableEq, Repr

/-- The die map (spec/01_package.md R22-R24): the header and the four words of each die. -/
structure DieMap where
  hdr : DWord
  ents : List (List DWord)
  deriving DecidableEq, Repr

/-- A VC command or a BIASFLIP in progress (spec/18_cache.md R451-R453, R462). -/
inductive VcCmd where
  | define (idx : Nat) (w0 w1 : DWord)
  | resize (idx : Nat) (l2 ll : Nat)
  | move (idx : Nat) (w1 : DWord) (far : Bool)
  | flush (idx op : Nat)
  | bias (va : DWord) (host : Bool) (started : Bool) (frame pages : Nat)
  deriving DecidableEq, Repr

/-- A command as it waits at the engine, in order of arrival (R457); `window` is set once a migration window is open for it. -/
structure VcPending where
  id : Nat
  ctx : Nat
  cmd : VcCmd
  blk : Nat
  tl : Nat
  op : Nat
  window : Bool := false
  count : Nat := 0
  /-- pages that have lines in the old map, ascending: first 4 KiB frame, and frames (R455) -/
  left : List (Nat × Nat) := []
  deriving DecidableEq, Repr

/-- A flit as it enters the fabric: kind, destination, payload. Kinds: 0 request, 1 and 2 pod barrier arrival and release, 3 write-back
demand, 4 dirty notice, 5 heartbeat (its destination is a link), 6 billing, 7 response, 8 boost notice, 9 write-back, 10 engine bulk,
11 acknowledgement of a dirty notice, 12 invalidation (spec/19_fabric.md R475). -/
abbrev Flit := Nat × Nat × Nat

/-- The sending end of a link (spec/19_fabric.md R475): flits waiting in each of the four classes, oldest first, flits of each class for
which the far window has given no credit back, slots given to classes 0 to 2 in the present round, and slots since the last flit of
class 3. -/
structure LinkOut where
  waiting : List (List Flit) := List.replicate 4 []
  owed : List Nat := List.replicate 4 0
  given : List Nat := List.replicate 3 0
  since : Nat := 15
  /-- flits on the link, newest first -/
  sent : List Flit := []
  deriving DecidableEq, Repr

/-- The fabric registers (spec/19_fabric.md R471-R474, R483) and the fabric's state (R477-R484). -/
structure Fabric where
  fabid : DWord := 0
  cfgerr : Bool := false
  fenced : Bool := false
  en : Bool := false
  cgtab : List DWord := List.replicate 8 0
  expwin : DWord := 0
  lnksts : List DWord := List.replicate 36 0
  lnkwt : List DWord := List.replicate 36 0x080404
  pbgtab : List DWord := List.replicate 16 0
  /-- widths learned of a destination's end of a plane: key is package * 64 + plane; 2 four lanes, 1 two lanes, 0 down; an unlisted
  one is taken as four lanes (R477) -/
  widths : Tbl Nat := []
  /-- plane tables of 64 entries per destination package -/
  planes : Tbl (List Nat) := []
  /-- remote dirty writers of a granule: their packages (R480) -/
  remoteDirty : Tbl (List (BitVec 14)) := []
  /-- members of the coherence group that hold a copy of a granule homed here (spec/18_cache.md R460) -/
  sharers : Tbl (List (BitVec 14)) := []
  /-- planes that have given a silence notice for a package (R481) -/
  silence : Tbl (BitVec 36) := []
  /-- lost packages (R482) -/
  lost : List (BitVec 14) := []
  /-- pod barrier arrivals counted at the root: by group (R483) -/
  podArr : Tbl (List (BitVec 14)) := []
  /-- energy accumulated for a tag, pJ: key is package * 1024 + context (R484) -/
  billing : Tbl Nat := []
  /-- flits sent, newest first -/
  sent : List Flit := []
  /-- those of them that no link has taken up yet, oldest first, and the links -/
  out : List Flit := []
  links : Tbl LinkOut := []
  deriving DecidableEq, Repr

/-- The engine operations (spec/11_copy.md, spec/12_matrix.md, spec/16_ray.md). -/
inductive EngKind where
  | cpy
  | cpyg
  | cpys
  | cpyfill
  | ctload
  | decent
  | decbr
  | mresv
  | mrels
  | mload
  | mcbl
  | mma
  | mmai
  | mzero
  | mstore
  | mstat
  | mchk
  | rayq
  deriving DecidableEq, Repr

/-- Global memory as a core sees it at one moment (spec/03_memory_model.md R96): the homes, and the core's levels. -/
structure View where
  mem : Mem := []
  dirty : Tbl DirtyLine := []
  copies : Tbl Copy := []
  l2 : Tbl Copy := []
  deriving DecidableEq, Repr

/-- An engine operation that has been accepted and has not completed. -/
structure EngOp where
  id : Nat
  kind : EngKind
  core : CoreRef
  ctx : Nat
  blk : Nat
  /-- the sequencer of `core` that issued it; none for a thread -/
  seq : Option SeqKind
  /-- local address of its barrier object -/
  bo : Nat
  /-- the eight 32-bit words of the descriptor -/
  desc : List Nat
  /-- MOD14 or SMOD[13:0] -/
  md : Nat
  /-- quad cycle at acceptance -/
  cyc : Nat
  /-- a cause that the checks at acceptance or at start found, or, of the ray unit, the first of its rays', with its detail -/
  cause : Nat := 0
  detail : Nat := 0
  /-- delivery count in bytes (spec/11_copy.md R307), and the part delivered -/
  bytes : Nat := 0
  prog : Nat := 0
  /-- local bytes it still writes: address and number (spec/08_core_sync.md R239) -/
  wloc : Nat := 0
  wlen : Nat := 0
  /-- the tensor map's words and the row indexes, as read at acceptance (R308, R311) -/
  map : List Nat := []
  idx : List Int := []
  /-- number of the reservation it was accepted against (spec/12_matrix.md R333) -/
  res : Nat := 0
  /-- it joined the follower's array queue too (R345) -/
  both : Bool := false
  started : Bool := false
  /-- captured as a continuation record (spec/10_distributor.md R296) -/
  saved : Bool := false
  /-- source position of a decode operation: bits or bytes consumed (spec/11_copy.md R320) -/
  spos : Nat := 0
  /-- global memory as seen at its issue (spec/03_memory_model.md R96), and the bytes that other operations of its engine have written
  since, by physical address (spec/11_copy.md R314) -/
  view : View := {}
  fresh : Tbl Byte := []
  /-- what it may still read: local memory as it began, and the operand buffers of its arrays as it started (spec/03_memory_model.md R96,
  spec/12_matrix.md R346) -/
  lold : Mem := []
  obold : List Mem := []
  /-- the quad cycle at which its final delivery is performed, where that is constant (spec/10_distributor.md R294; spec/11_copy.md R321, spec/12_matrix.md R347) -/
  due : Option Nat := none
  deriving DecidableEq, Repr

/-- What a sequencer's instruction does when it is performed. -/
inductive LaterAct where
  /-- one arrival on an object -/
  | arrive (a : Nat)
  /-- n bytes announced, with an arrival -/
  | expect (a n : Nat)
  /-- the arrival that ends a program, with its cause and detail -/
  | program (a cause detail : Nat)
  deriving DecidableEq, Repr
/-- An update that a sequencer of a fixed-timing context has issued and that is performed at a constant time (spec/10_distributor.md
R294). -/
structure Later where
  core : CoreRef
  due : Nat
  blk : Nat
  act : LaterAct
  deriving DecidableEq, Repr

/-- The reliability registers (spec/20_reliability.md R499) and what R494 counts. -/
structure ErrLog where
  elbase : DWord := 0
  ovf : BitVec 32 := 0
  head : BitVec 32 := 0
  tail : BitVec 32 := 0
  /-- UNCORRECTABLE and LANE_MISMATCH causes that struck: core key, package time -/
  strikes : List (Nat × Nat) := []
  deriving DecidableEq, Repr

/-- The power registers of a stacked die (spec/21_power.md R504) and its L2 mode (spec/18_cache.md R466). -/
structure DiePower where
  vnow : BitVec 12 := 700
  vdt : BitVec 12 := 0
  tmax : BitVec 8 := 0
  gmax : BitVec 8 := 0
  dark : BitVec 24 := 0
  regfail : BitVec 48 := 0
  dected : Bool := false
  deriving DecidableEq, Repr

/-- What the power controller holds for a quad (spec/21_power.md R507, R509, R512). -/
structure QuadPower where
  stretch : Bool := false
  boost : Bool := false
  /-- end of the floor that a DROOP_LIMIT set, package ns -/
  droopUntil : Option Nat := none
  /-- the first cycle that a stretch request may stretch (R507) -/
  stretchFrom : Nat := 0
  /-- the pattern that a write to SWPAT replaced, in effect before cycle patFrom (R506) -/
  oldPat : BitVec 16 := 0
  patFrom : Nat := 0
  over12 : Bool := false
  thermal : Nat := 1
  /-- 2 while the base-die sensor beneath reads above 95 °C -/
  base : Nat := 1
  stopped : Bool := false
  /-- the latest reading and its gradient, °C -/
  temp : Int := 0
  grad : Int := 0
  /-- P is to be doubled once the fixed-timing blocks are saved (R510, R40) -/
  raise : Bool := false
  deriving DecidableEq, Repr

/-- The power register block (R504, R514) and the controller's state. -/
structure Power where
  pwrlim : DWord := 0x0E10690F00140101
  pkgw : BitVec 16 := 0
  dies : Tbl DiePower := []
  quads : Tbl QuadPower := []
  eloc : Tbl DWord := []
  erem : Tbl DWord := []
  /-- picojoules billed and not yet added to EREM, by context -/
  remPj : Tbl Nat := []
  eidle : DWord := 0
  deriving DecidableEq, Repr

/-- A context as MIGOUT wrote it (spec/22_host.md R521, R525). -/
structure Image where
  ctx : Ctx
  launches : List Launch
  blocks : List Block
  engs : List EngOp
  bars : List BarInst
  deriving DecidableEq, Repr

/-- A host command in progress (spec/22_host.md R519, R521). -/
structure HostCmd where
  op : Nat
  slot : Nat
  arg : Nat
  ptr : Nat
  res : Nat := 0
  cause : Nat := 0
  /-- its effect is complete -/
  ready : Bool := false
  deriving DecidableEq, Repr

/-- The host control registers (R519) and the interrupt vectors signalled so far, newest first. -/
structure HostRegs where
  step : BitVec 8 := 0
  done : Bool := false
  fail : Bool := false
  hcmd0 : DWord := 0
  hcmd1 : DWord := 0
  lost : Bool := false
  res : BitVec 8 := 0
  cause : BitVec 10 := 0
  msixmap : DWord := 0
  busy : Option HostCmd := none
  signals : List Nat := []
  deriving DecidableEq, Repr

/-- Time and the free values already used. -/
structure Clock where
  /-- package time counter, ns (spec/05_core_integer.md R148) -/
  ns : Nat := 0
  /-- number of the next free value: the model's own (notes/assumptions/3.md) -/
  free : Nat := 0
  deriving DecidableEq, Repr

/-- Why the machine stops. -/
inductive Fault where
  /-- raised by the meaning of a thread instruction when no issue group is open to issue it; step never does this. Safe. -/
  | noGroup
  /-- raised by the meaning of a sequencer instruction when no sequencer is open to issue it; step never does this. Safe. -/
  | noSequencer
  deriving DecidableEq, Repr

/-- Why the model gives no meaning. -/
inductive Refusal where
  /-- raised by exec for an instruction the model does not give a meaning to yet. Safe. -/
  | notModelled (mnemonic : String)
  deriving DecidableEq, Repr

/-- The whole machine. -/
structure State where
  /-- memory at the homes, by physical address -/
  mem : Mem
  /-- poisoned granules (spec/20_reliability.md R487) -/
  poison : List Nat
  /-- sync records (spec/03_memory_model.md R84); an unlisted granule has the reset record -/
  sync : Tbl SyncRec
  /-- alias bits T, U, reported of a 4 KiB frame (spec/18_cache.md R461) -/
  alias2 : Tbl (Bool × Bool × Bool)
  /-- granules that last-level shares hold (spec/18_cache.md R458) -/
  llc : Tbl Copy
  /-- clean L2 copies of a die -/
  l2 : Tbl (Tbl Copy)
  /-- tracked granules that were cached, by granule: is the entry of a tracked page -/
  tracked : List Nat
  cores : Tbl Core
  /-- last-level translations of each die (spec/07_core_memory.md R212) -/
  tlb2 : Tbl (List TlbEntry)
  /-- translations that the instruction being performed has made: it translates each page once (R212) -/
  coal : List (CoreRef × TlbEntry)
  quads : Tbl Quad
  dieMap : DieMap
  ctxs : Tbl Ctx
  launches : List Launch
  blocks : List Block
  bars : List BarInst
  reqs : List HomeReq
  fences : List Fence
  /-- requests of other packages that wait for a demanded write-back: number, request and local address (spec/19_fabric.md R479) -/
  remotes : List (Nat × RemoteReq × Nat)
  /-- boost notices on their way: core, granule, priority (spec/08_core_sync.md R250) -/
  notices : List (CoreRef × Nat × BitVec 7)
  /-- pages the engine marks moving: first 4 KiB frame, frames (spec/07_core_memory.md R218) -/
  moving : List (Nat × Nat)
  vcCmds : List VcPending
  fab : Fabric
  /-- flits in the Narrows -/
  narrows : List NMsg
  pushes : List PendPush
  fronts : List MdReq
  rgnReqs : List RgnReq
  /-- migration images, by physical address -/
  images : Tbl Image
  /-- engine operations in order of acceptance -/
  engs : List EngOp
  /-- updates to be performed at a constant time -/
  later : List Later
  errs : ErrLog
  power : Power
  host : HostRegs
  /-- bank shares out of service (spec/18_cache.md R467): level 2, die, bank, way -/
  badShares : List (Bool × Nat × Nat × Nat)
  /-- stacked dies lost (spec/20_reliability.md R496) -/
  lostDies : List Nat
  /-- sleeping banks (R465) -/
  asleep : List (Nat × Nat)
  clock : Clock
  /-- next block, launch, operation, request number -/
  nextId : Nat
  /-- clauses being issued; the first one issues next: the model's own schedule (notes/assumptions/8.md) -/
  opens : List Open
  /-- events to come, from outside or chosen by the device: the model's own (notes/assumptions/8.md) -/
  agenda : List Instr
  /-- the next step prefers a device event: the model's own -/
  turn : Bool
  deriving DecidableEq, Repr

/-- The machine right after package reset. -/
def State.reset : State where
  mem := []
  poison := []
  sync := []
  alias2 := []
  llc := []
  l2 := []
  tracked := []
  cores := []
  tlb2 := []
  coal := []
  quads := []
  dieMap := ⟨0x0100000000000200#64, []⟩
  ctxs := []
  launches := []
  blocks := []
  bars := []
  reqs := []
  fences := []
  remotes := []
  notices := []
  moving := []
  vcCmds := []
  fab := {}
  narrows := []
  pushes := []
  fronts := []
  rgnReqs := []
  images := []
  engs := []
  later := []
  errs := {}
  power := {}
  host := {}
  badShares := []
  lostDies := []
  asleep := []
  clock := {}
  nextId := 1
  opens := []
  agenda := []
  turn := false

end Sys2Proof.Machine
end

