-- ==== Sys2Proof/Machine/Ops.lean ====
section
/-! DEFINITION. The named operations over the state: tables, memory, registers, the die map, translation and the checks of an access,
commit and write-back, blocks and groups, taking a trap. -/

namespace Sys2Proof.Machine

/-! ### Tables -/

/-- The value at key k. -/
def tget {α : Type} (t : Tbl α) (k : Nat) : Option α :=
  match t with
  | [] => none
  | (j, v) :: r => if j == k then some v else tget r k

/-- Set key k. -/
def tput {α : Type} (t : Tbl α) (k : Nat) (v : α) : Tbl α :=
  match t with
  | [] => [(k, v)]
  | (j, w) :: r => if k < j then (k, v) :: (j, w) :: r else if j == k then (k, v) :: r else (j, w) :: tput r k v

/-- Remove key k. -/
def tdel {α : Type} (t : Tbl α) (k : Nat) : Tbl α := t.filter fun p => p.1 != k

/-- Apply f to every value. -/
def tmap {α : Type} (f : α → α) (t : Tbl α) : Tbl α := t.map fun p => (p.1, f p.2)

/-- Replace the n-th element of a list. -/
def lset {α : Type} : List α → Nat → α → List α
  | [], _, _ => []
  | _ :: r, 0, v => v :: r
  | x :: r, n + 1, v => x :: lset r n v

/-- The n-th element of a list. -/
def lget {α : Type} : List α → Nat → Option α
  | [], _ => none
  | x :: _, 0 => some x
  | _ :: r, n + 1 => lget r n

/-- Remove repeats, keeping the first of each. -/
def nub {α : Type} [BEq α] (l : List α) : List α :=
  l.foldl (fun acc x => if acc.contains x then acc else acc ++ [x]) []

/-- Insert into an ascending list without repeats. -/
def sins (l : List Nat) (k : Nat) : List Nat :=
  match l with
  | [] => [k]
  | j :: r => if k < j then k :: j :: r else if j == k then j :: r else j :: sins r k

/-! ### Memory: a byte list in one canonical form, an unlisted byte reads 0 -/

/-- What an unlisted address reads as (notes/assumptions/1.md). -/
def memDefault : Byte := 0

/-- The byte at address a. -/
def mget (m : Mem) (a : Nat) : Byte :=
  match m with
  | [] => memDefault
  | (j, v) :: r => if j == a then v else mget r a

/-- Set the byte at address a; writing what an unlisted byte reads as removes the entry. -/
def mset (m : Mem) (a : Nat) (b : Byte) : Mem :=
  if b == memDefault then tdel m a else tput m a b

/-- Every listed address lies above `lo`, addresses rise strictly and no entry equals the default. -/
def memWfFrom (lo : Nat) (m : Mem) : Bool :=
  match m with
  | [] => true
  | (j, v) :: r => decide (lo ≤ j) && (v != memDefault) && memWfFrom (j + 1) r

/-- The canonical form of a memory. -/
def Memory.wf (m : Mem) : Bool := memWfFrom 0 m

/-- n bytes from address a, lowest first. -/
def mbytes (m : Mem) (a n : Nat) : List Byte :=
  match n with
  | 0 => []
  | n + 1 => mget m a :: mbytes m (a + 1) n

/-- Write bytes at address a, lowest first. -/
def mputs (m : Mem) (a : Nat) (bs : List Byte) : Mem :=
  match bs with
  | [] => m
  | b :: r => mputs (mset m a b) (a + 1) r

/-- The little-endian value of bytes (spec/00_scope.md R4). -/
def leVal (bs : List Byte) : Nat :=
  match bs with
  | [] => 0
  | b :: r => b.toNat + 256 * leVal r

/-- The low n bytes of a value, lowest first. -/
def leBytes (n v : Nat) : List Byte :=
  match n with
  | 0 => []
  | n + 1 => BitVec.ofNat 8 v :: leBytes n (v / 256)

/-- The n-byte little-endian value at address a. -/
def mread (m : Mem) (a n : Nat) : Nat := leVal (mbytes m a n)

/-- Write the n-byte little-endian value v at address a. -/
def mwrite (m : Mem) (a n v : Nat) : Mem := mputs m a (leBytes n v)

/-- Bits [hi:lo] of a number. -/
def bits (v hi lo : Nat) : Nat := v / 2 ^ lo % 2 ^ (hi - lo + 1)
/-- Bit n of a number. -/
def bit (v n : Nat) : Bool := v / 2 ^ n % 2 == 1
/-- The signed value of the low n bits of v (spec/04_encoding.md R143). -/
def sext (v n : Nat) : Int :=
  if bit (v % 2 ^ n) (n - 1) then (v % 2 ^ n : Nat) - (2 ^ n : Nat) else (v % 2 ^ n : Nat)
/-- x clamped to n bits (R143). -/
def saturate (x : Int) (n : Nat) (signed : Bool) : Int :=
  if signed then max (-(2 ^ (n - 1) : Nat)) (min x ((2 ^ (n - 1) : Nat) - 1)) else max 0 (min x ((2 ^ n : Nat) - 1))

/-! ### Free values -/

/-- The next free 64-bit value. -/
def State.freeVal (s : State) : BitVec 64 := Config.freeValue s.clock.free
/-- Use up one free value. -/
def State.useFree (s : State) : State := { s with clock := { s.clock with free := s.clock.free + 1 } }
/-- n free bytes, and the state with that many free values used. -/
def State.freeBytes (s : State) (n : Nat) : List Byte × State :=
  ((List.range n).map fun i => (Config.freeValue (s.clock.free + i)).setWidth 8,
    { s with clock := { s.clock with free := s.clock.free + n } })

/-! ### Die map, cores, quads (spec/01_package.md R12-R24) -/

def DieMap.ndie (m : DieMap) : Nat := bits m.hdr.toNat 55 48
def DieMap.nsd (m : DieMap) : Nat := bits m.hdr.toNat 47 40
def DieMap.ngd (m : DieMap) : Nat := bits m.hdr.toNat 39 32
def DieMap.nmcb (m : DieMap) : Nat := bits m.hdr.toNat 31 24
def DieMap.stepping (m : DieMap) : Nat := bits m.hdr.toNat 7 4
/-- Word w of the entry of die d; 0 where the map has none. -/
def DieMap.word (m : DieMap) (d w : Nat) : Nat :=
  match lget m.ents d with
  | some e => match lget e w with
    | some v => v.toNat
    | none => 0
  | none => 0
def DieMap.isSd (m : DieMap) (d : Nat) : Bool := decide (d < m.nsd)
def DieMap.isGd (m : DieMap) (d : Nat) : Bool := decide (m.nsd ≤ d) && decide (d < m.nsd + m.ngd)
def DieMap.cols (m : DieMap) (d : Nat) : Nat := if m.isGd d then 8 else 12
def DieMap.rows (m : DieMap) (d : Nat) : Nat := if m.isGd d then 4 else 8
/-- Core `num` of die d is present. -/
def DieMap.present (m : DieMap) (c : CoreRef) : Bool :=
  (m.isSd c.die || m.isGd c.die) && decide (c.num < m.rows c.die * m.cols c.die) && bit (m.word c.die 0) 61 &&
    (if c.num < 64 then bit (m.word c.die 1) c.num else m.isSd c.die && bit (m.word c.die 2) (c.num - 64))
def DieMap.row (m : DieMap) (c : CoreRef) : Nat := c.num / m.cols c.die
def DieMap.col (m : DieMap) (c : CoreRef) : Nat := c.num % m.cols c.die
/-- Quad number within the die (R16). -/
def DieMap.quad (m : DieMap) (c : CoreRef) : Nat :=
  if m.isGd c.die then m.row c / 2 * 4 + m.col c / 2 else m.row c / 2 * 6 + m.col c / 2
def DieMap.mrow (m : DieMap) (c : CoreRef) : Nat := bits (m.word c.die 0) 47 40 + m.row c
def DieMap.mcol (m : DieMap) (c : CoreRef) : Nat := bits (m.word c.die 0) 39 32 + m.col c
/-- The core at a mesh position (R17), present or absent. -/
def DieMap.coreAt (m : DieMap) (geo : Bool) (r c : Nat) : Option CoreRef :=
  let dies := if geo then (List.range m.ngd).map (· + m.nsd) else List.range m.nsd
  dies.findSome? fun d =>
    let r0 := bits (m.word d 0) 47 40
    let c0 := bits (m.word d 0) 39 32
    if r0 ≤ r && decide (r < r0 + m.rows d) && c0 ≤ c && decide (c < c0 + m.cols d) then
      some ⟨d, (r - r0) * m.cols d + (c - c0)⟩ else none
/-- Rows and columns of a mesh (R17). -/
def DieMap.meshSize (m : DieMap) (geo : Bool) : Nat × Nat :=
  if geo then (8, 8 * ((m.ngd + 1) / 2)) else (16, 12 * (m.nsd / 2))

/-- A rectangle reaches outside its mesh (R18). -/
def DieMap.rectOut (m : DieMap) (geo : Bool) (row0 col0 rows cols : Nat) : Bool :=
  (m.meshSize geo).1 < row0 + rows || (m.meshSize geo).2 < col0 + cols
/-- The present cores of a rectangle in row-major order. -/
def DieMap.rectCores (m : DieMap) (geo : Bool) (row0 col0 rows cols : Nat) : List CoreRef :=
  ((List.range rows).map fun r => (List.range cols).filterMap fun c =>
    match m.coreAt geo (row0 + r) (col0 + c) with
    | some k => if m.present k then some k else none
    | none => none).flatten

/-- Key of a core in State.cores. -/
def coreKey (c : CoreRef) : Nat := c.die * 128 + c.num
def coreOfKey (k : Nat) : CoreRef := ⟨k / 128, k % 128⟩
def State.core (s : State) (c : CoreRef) : Core := (tget s.cores (coreKey c)).getD {}
def State.setCore (s : State) (c : CoreRef) (k : Core) : State := { s with cores := tput s.cores (coreKey c) k }
/-- Key of a quad in State.quads. -/
def quadKey (die q : Nat) : Nat := die * 64 + q
def State.quadKeyOf (s : State) (c : CoreRef) : Nat := quadKey c.die (s.dieMap.quad c)
def State.quadAt (s : State) (k : Nat) : Quad := (tget s.quads k).getD {}
def State.quad (s : State) (c : CoreRef) : Quad := s.quadAt (s.quadKeyOf c)
def State.setQuad (s : State) (k : Nat) (q : Quad) : State := { s with quads := tput s.quads k q }
/-- The quad runs the pinned clock. -/
def QClock.isPinned : QClock → Bool
  | .pinned => true
  | .toElastic => true
  | _ => false
/-- Let the cycle counter of a quad reach at least n: an event that a deadline brings about happens no earlier (assumption 4). The
counters of the quads that run the pinned reference advance together (spec/10_distributor.md R294). -/
def State.reachCyc (s : State) (k n : Nat) : State :=
  let q := s.quadAt k
  if n ≤ q.cyc then s
  else if q.clock.isPinned then
    { s with quads := s.quads.map fun (p : Nat × Quad) => if p.2.clock.isPinned then (p.1, { p.2 with cyc := p.2.cyc + (n - q.cyc) }) else p }
  else s.setQuad k { q with cyc := n }
/-- Let the cycle counter of a quad reach a constant time, where there is one. -/
def State.reachDue (s : State) (k : Nat) (d : Option Nat) : State :=
  match d with
  | some n => s.reachCyc k n
  | none => s
/-- Let the package time reach at least n ns. -/
def State.reachNs (s : State) (n : Nat) : State :=
  { s with clock := { s.clock with ns := max s.clock.ns n } }
/-- The core is a matrix-bearing shading core. -/
def State.isShading (s : State) (c : CoreRef) : Bool := s.dieMap.isSd c.die
/-- This package's pod package number. -/
def State.pkg (s : State) : BitVec 14 := s.fab.fabid.extractLsb' 50 14
/-- A flit of this kind and payload waits for a slot of its link (spec/19_fabric.md R475). -/
def State.flitWaits (s : State) (kind payload : Nat) : Bool :=
  let is := fun (f : Flit) => f.1 == kind && f.2.2 == payload
  s.fab.out.any is || s.fab.links.any fun l => l.2.waiting.any fun q => q.any is

/-! ### Blocks, threads, launches, contexts -/

def State.block (s : State) (b : Nat) : Option Block := s.blocks.find? fun x => x.id == b
/-- Change the first block with number b. -/
def bmod (b : Nat) (f : Block → Block) : List Block → List Block
  | [] => []
  | k :: r => if k.id == b then f k :: r else k :: bmod b f r
def State.modBlock (s : State) (b : Nat) (f : Block → Block) : State := { s with blocks := bmod b f s.blocks }
def State.setBlock (s : State) (k : Block) : State := s.modBlock k.id fun _ => k
def Block.thread (k : Block) (tl : Nat) : Thread := (lget k.threads tl).getD {}
def Block.modThread (k : Block) (tl : Nat) (f : Thread → Thread) : Block :=
  { k with threads := lset k.threads tl (f (k.thread tl)) }
def State.thread (s : State) (b tl : Nat) : Thread :=
  match s.block b with
  | some k => k.thread tl
  | none => {}
def State.modThread (s : State) (b tl : Nat) (f : Thread → Thread) : State := s.modBlock b fun k => k.modThread tl f
def State.launch (s : State) (l : Nat) : Option Launch := s.launches.find? fun x => x.id == l
def State.modLaunch (s : State) (l : Nat) (f : Launch → Launch) : State :=
  { s with launches := s.launches.map fun x => if x.id == l then f x else x }
def State.ctx (s : State) (c : Nat) : Option Ctx := tget s.ctxs c
def State.modCtx (s : State) (c : Nat) (f : Ctx → Ctx) : State :=
  match tget s.ctxs c with
  | some x => { s with ctxs := tput s.ctxs c (f x) }
  | none => s
def Block.nthreads (k : Block) : Nat := k.nx * k.ny * k.nz
/-- W of the block's launch (spec/02_execution.md R60). -/
def State.width (s : State) (k : Block) : Nat :=
  match s.launch k.launch with
  | some l => if l.prot then 16 else 32
  | none => 32
def State.blockFixed (s : State) (k : Block) : Bool := ((s.ctx k.ctx).map (·.fixed)).getD false
def State.blockStrict (s : State) (k : Block) : Bool := ((s.ctx k.ctx).map (·.strict)).getD false
/-- A fresh number, and the state after taking it. -/
def State.take (s : State) : Nat × State := (s.nextId, { s with nextId := s.nextId + 1 })

/-- The block acts irrevocably (spec/20_reliability.md R492). -/
def State.irrevocable (s : State) (b : Nat) : State := s.modBlock b fun k => { k with nonRollback := true }

/-- The clause being issued goes behind the others. -/
def State.rotate (s : State) : State :=
  match s.opens with
  | o :: rest => { s with opens := rest ++ [o] }
  | [] => s

/-! ### Registers and predicates -/

/-- Index of a register of a thread among the free values of unmapped registers. -/
def unmappedVal (ctr tl r : Nat) : Word := Config.unmapped ctr tl r

/-- The landed value that a read of a guarded register may return: the known value of the latest operation that writes r. -/
def Thread.landing (t : Thread) (r : Nat) : Option Word :=
  t.ops.foldl (fun acc o =>
    match o.val with
    | some vs => match (o.regs.zip vs).find? (fun p => p.1 == r) with
      | some p => some p.2
      | none => acc
    | none => acc) none

/-- Read register r (spec/02_execution.md R28, R30; spec/04_encoding.md R118): gz is 0, an unmapped register is a free value, and
a guarded register is its previous value or the landed one, as a free choice says. -/
def Thread.reg (t : Thread) (ctr tl r : Nat) : Word :=
  if 255 ≤ r then 0 else
    let prev := match tget t.regs r with
      | some c => c.val
      | none => unmappedVal ctr tl r
    match t.landing r with
    | some v => if Config.readsLanded ctr tl r then v else prev
    | none => prev

/-- Read a pair (R28); gz reads as a 64-bit zero (R115). -/
def Thread.reg64 (t : Thread) (ctr tl r : Nat) : DWord :=
  if 255 ≤ r then 0 else t.reg ctr tl (r + 1) ++ t.reg ctr tl r

/-- Write register r: it is mapped and no longer poisoned (R30; spec/20_reliability.md R489); a write to gz is discarded. -/
def Thread.setReg (t : Thread) (r : Nat) (v : Word) : Thread :=
  if 255 ≤ r then t else { t with regs := tput t.regs r ⟨v, none⟩ }

/-- Write a pair. -/
def Thread.setReg64 (t : Thread) (r : Nat) (v : DWord) : Thread :=
  if 255 ≤ r then t else (t.setReg r (v.extractLsb' 0 32)).setReg (r + 1) (v.extractLsb' 32 32)

/-- Write consecutive registers from r; a member that is g255 is discarded. -/
def Thread.setRegs (t : Thread) (r : Nat) (vs : List Word) : Thread :=
  match vs with
  | [] => t
  | v :: rest => if 255 ≤ r then t else (t.setReg r v).setRegs (r + 1) rest

/-- Poison register r (spec/20_reliability.md R489). -/
def Thread.poisonReg (t : Thread) (ctr tl r : Nat) (p : DWord) : Thread :=
  if 255 ≤ r then t else { t with regs := tput t.regs r ⟨t.reg ctr tl r, some p⟩ }

/-- Free the mapping of register r (R30). -/
def Thread.freeReg (t : Thread) (r : Nat) : Thread := { t with regs := tdel t.regs r }

/-- Predicate n; encoding 7 is pt (R28). -/
def Thread.pred (t : Thread) (n : Nat) : Bool := if 7 ≤ n then true else t.preds.getLsbD n

/-- Write predicate n; a write to pt is discarded. -/
def Thread.setPred (t : Thread) (n : Nat) (b : Bool) : Thread :=
  if 7 ≤ n then t else
    { t with preds := if b then t.preds ||| (1#7 <<< n) else t.preds &&& ~~~(1#7 <<< n) }

/-- A predicate field: number in [2:0], inversion in [3] (spec/05_core_integer.md R151). -/
def Thread.predField (t : Thread) (f : BitVec 8) : Bool := (t.pred (f.toNat % 8)) != f.getLsbD 3

/-- The thread has no outstanding slot operation (every slot is idle). -/
def Thread.idle (t : Thread) : Bool := t.ops.isEmpty
/-- Operations outstanding in slot n. -/
def Thread.slotCount (t : Thread) (n : Nat) : Nat := (t.ops.filter fun o => o.slot == n).length
/-- An acquiring access has not completed (spec/07_core_memory.md R225). -/
def Thread.acquiring (t : Thread) : Bool := t.ops.any (·.acq) || decide (0 < t.phases)
/-- The lowest operation number of an acquiring access that has not completed. -/
def Thread.acqFrom (t : Thread) : Option Nat := ((t.ops.filter (·.acq)).map (·.id)).min?

def TStatus.isEnded : TStatus → Bool
  | .ended => true
  | _ => false
def TStatus.isIssuing : TStatus → Bool
  | .issuing => true
  | _ => false
def TStatus.isReady : TStatus → Bool
  | .ready => true
  | _ => false
def Thread.alive (t : Thread) : Bool := !t.status.isEnded

/-! ### Cause codes (spec/07_core_memory.md R231, spec/08_core_sync.md R254, spec/09_core_traps.md R270) -/

def cIllegalClause : Nat := 0x001
def cIllegalInstruction : Nat := 0x002
def cIllegalEncoding : Nat := 0x003
def cReadAfterLastUse : Nat := 0x004
def cIllegalTarget : Nat := 0x005
def cFixedInElastic : Nat := 0x006
def cBreakpoint : Nat := 0x010
def cHandlerState : Nat := 0x011
def cDoubleTrap : Nat := 0x012
def cBounds : Nat := 0x080
def cSpace : Nat := 0x081
def cMisaligned : Nat := 0x082
def cLease : Nat := 0x083
def cPteInvalid : Nat := 0x084
def cPteReserved : Nat := 0x085
def cVcUndefined : Nat := 0x086
def cReadProtect : Nat := 0x087
def cWriteProtect : Nat := 0x088
def cExecProtect : Nat := 0x089
def cPageMoving : Nat := 0x08A
def cVcOperand : Nat := 0x090
def cOrphanWait : Nat := 0x100
def cBoInvalid : Nat := 0x101
def cBoCountRange : Nat := 0x102
def cBoOverrun : Nat := 0x103
def cBarSequence : Nat := 0x104
def cQueueUndefined : Nat := 0x105
def cQueueConfig : Nat := 0x106
def cQueueInvalid : Nat := 0x107
def cDataLost : Nat := 0x200
def cUncorrectable : Nat := 0x201
def cLaneMismatch : Nat := 0x202
def cRollbackLimit : Nat := 0x203
def cCorrected : Nat := 0x204
def cRegionDark : Nat := 0x205
def cDieLost : Nat := 0x206
def cRemoteAperture : Nat := 0x380
def cPkgLost : Nat := 0x381
def cPodBarrierLost : Nat := 0x382

/-- Causes whose outcome is "launch failed" whether or not there is a handler (R231, R485). -/
def failsLaunch (c : Nat) : Bool :=
  c == cLease || c == cPteInvalid || c == cPteReserved || c == cVcUndefined || c == cRemoteAperture

/-! ### Homes, copies and write-backs (spec/03_memory_model.md R74-R92, spec/18_cache.md R458-R461) -/

/-- The granule of a physical address (R72). -/
def granule (pa : Nat) : Nat := pa / 128
/-- The package whose memory a physical address names (spec/19_fabric.md R470). -/
def State.homePkg (s : State) (pa : Nat) : Nat := if bit pa 51 then bits pa 50 37 else s.pkg.toNat
/-- A remote address that names this package, as the local address it stands for (R470). -/
def State.localPa (s : State) (pa : Nat) : Nat :=
  if bit pa 51 && bits pa 50 37 == s.pkg.toNat then
    bits s.fab.expwin.toNat 51 12 * 4096 + pa % 2 ^ 37 else pa
/-- Package p is a member of this package's coherence group (R472). -/
def State.inGroup (s : State) (p : Nat) : Bool :=
  p == s.pkg.toNat || (List.range (bits s.fab.fabid.toNat 44 40 + 1)).any fun m =>
    match lget s.fab.cgtab (m / 4) with
    | some w => let e := bits w.toNat (m % 4 * 16 + 15) (m % 4 * 16); bit e 15 && e % 2 ^ 14 == p
    | none => false
/-- The home of pa lies outside the coherence group (spec/03_memory_model.md R88). -/
def State.farHome (s : State) (pa : Nat) : Bool := !s.inGroup (s.homePkg pa)

/-- The sync record of a granule. -/
def State.srec (s : State) (g : Nat) : SyncRec := (tget s.sync g).getD {}
def State.setRec (s : State) (g : Nat) (r : SyncRec) : State := { s with sync := tput s.sync g r }
def State.poisoned (s : State) (g : Nat) : Bool := s.poison.contains g
/-- Poison (spec/04_encoding.md R143). -/
def State.poisonGranule (s : State) (g : Nat) : State := { s with poison := sins s.poison g }

/-- Drop a core's clean L1 copy of a granule. -/
def State.dropCopy (s : State) (c : CoreRef) (g : Nat) : State :=
  match tget s.cores (coreKey c) with
  | some k => s.setCore c { k with copies := tdel k.copies g }
  | none => s
/-- Drop a die's clean L2 copy of a granule. -/
def State.dropL2 (s : State) (die g : Nat) : State :=
  match tget s.l2 die with
  | some t => { s with l2 := tput s.l2 die (tdel t g) }
  | none => s
/-- Drop every clean copy of a granule, in every L1, L2 and last-level share. -/
def State.dropAll (s : State) (g : Nat) : State :=
  { s with
    cores := tmap (fun k => { k with copies := tdel k.copies g }) s.cores
    l2 := tmap (fun t => tdel t g) s.l2
    llc := tdel s.llc g }

/-- A flit leaves for another package: kind, destination, payload (spec/19_fabric.md R475). -/
def State.sendFlit (s : State) (kind dst payload : Nat) : State :=
  { s with fab := { s.fab with sent := (kind, dst, payload) :: s.fab.sent, out := s.fab.out ++ [(kind, dst, payload)] } }

/-- The copies that other packages hold of a granule homed here are invalidated (spec/18_cache.md R460). -/
def State.dropFar (s : State) (g : Nat) : State :=
  match tget s.fab.sharers g with
  | some l =>
    let s := l.foldl (fun s p => s.sendFlit 12 p.toNat g) s
    { s with fab := { s.fab with sharers := tdel s.fab.sharers g } }
  | none => s
/-- Write bytes (offset in the granule, value) at the home. A write of the whole granule ends its poison (spec/20_reliability.md
R487). -/
def State.homeBytes (s : State) (g : Nat) (bs : Tbl Byte) : State :=
  { s with
    mem := bs.foldl (fun m p => mset m (g * 128 + p.1) p.2) s.mem
    poison := if bs.length == 128 then s.poison.filter (· != g) else s.poison
    llc := tdel s.llc g }

/-- Take the dirty bytes of every core but `but` of a granule: the cores without them, and the bytes in core order. -/
def takeDirty (but : Option Nat) (g : Nat) : Tbl Core → Tbl Core × List (Tbl Byte)
  | [] => ([], [])
  | (k, c) :: r =>
    let q := takeDirty but g r
    match tget c.dirty g with
    | some d => if but == some k then ((k, c) :: q.1, q.2) else ((k, { c with dirty := tdel c.dirty g }) :: q.1, d.bytes :: q.2)
    | none => ((k, c) :: q.1, q.2)

/-- The home's part of a write to a granule (R76, R92): the bytes are merged; for a tracked page every other cached copy is
invalidated, a copy that holds another core's dirty bytes writing them back before. The dirty bytes of the others enter the coherence
order after the write, in core order: R92 states the first for an atomic; for a write-back both are the model's choice
(notes/assumptions/44.md). -/
def State.homeWrite (s : State) (by_ : Option CoreRef) (g : Nat) (bs : Tbl Byte) (tracked : Bool) : State :=
  let s := s.homeBytes g bs
  if tracked then
    let q := takeDirty (by_.map coreKey) g s.cores
    let s := { s with
      cores := q.1
      fences := s.fences.map fun (f : Fence) => { f with lines := f.lines.filter fun p => !(p.2 == g && by_ != some p.1) } }
    let s := q.2.foldl (fun s b => s.homeBytes g b) s
    (s.dropAll g).dropFar g
  else
    match by_ with
    | some c => (s.dropCopy c g).dropL2 c.die g
    | none => s

/-- The dirty line of a core reaches the home (WRITE_BACK_ARRIVAL): its bytes are merged and the line is dirty no longer. -/
def State.arriveWb (s : State) (c : CoreRef) (g : Nat) : State :=
  let k := s.core c
  match tget k.dirty g with
  | some d =>
    let s := s.setCore c { k with dirty := tdel k.dirty g, copies := tdel k.copies g }
    let s := s.homeWrite (some c) g d.bytes d.tracked
    let s := s.dropL2 c.die g
    { s with fences := s.fences.map fun f => { f with lines := f.lines.filter fun p => !(p.1 == c && p.2 == g) } }
  | none => { s with fences := s.fences.map fun f => { f with lines := f.lines.filter fun p => !(p.1 == c && p.2 == g) } }

/-- Send the write-backs of the lines of core c that `p` selects. -/
def State.sendWb (s : State) (c : CoreRef) (p : Nat → DirtyLine → Bool) : State :=
  match tget s.cores (coreKey c) with
  | some k => s.setCore c { k with dirty := k.dirty.map fun e => if p e.1 e.2 then (e.1, { e.2 with wb := true }) else e }
  | none => s

/-- The lines of core c that `p` selects. -/
def State.linesOf (s : State) (c : CoreRef) (p : Nat → DirtyLine → Bool) : List (CoreRef × Nat) :=
  ((s.core c).dirty.filter fun e => p e.1 e.2).map fun e => (c, e.1)

/-- Write back the lines of the given cores that `p` selects, and await their arrival on behalf of `who`; `reqs` are requests that are
performed before. -/
def State.fence (s : State) (who : FenceFor) (cs : List CoreRef) (p : Nat → DirtyLine → Bool) (reqs : List Nat := []) : State :=
  let lines := (cs.map fun c => s.linesOf c p).flatten
  let s := cs.foldl (fun s c => s.sendWb c p) s
  { s with fences := s.fences ++ [⟨s.nextId, who, lines, none, reqs⟩], nextId := s.nextId + 1 }
/-- The requests of a thread that its home has not performed; a prefetch is none of its accesses. -/
def State.older (s : State) (b tl : Nat) : List Nat :=
  (s.reqs.filter fun (q : HomeReq) => q.blk == b && q.tl == tl && !(q.kind == ReqKind.fill && q.op.isNone)).map (·.id)
/-- A fence is complete: its lines have reached their homes, its requests are performed, and no other package is to answer. -/
def State.fenceDone (s : State) (f : Fence) : Bool :=
  f.lines.isEmpty && f.reqs.all fun i => !(s.reqs.any fun (q : HomeReq) => q.id == i)

/-- What an acquire invalidates when it returns to core c (R87, R88): L1 copies of granules in which the core holds dirty bytes stay
under R87. -/
def State.acquireInval (s : State) (c : CoreRef) (offDie offGroup : Bool) : State :=
  let k := s.core c
  let s := s.setCore c { k with copies := k.copies.filter fun e => (e.2.tracked || (tget k.dirty e.1).isSome) && !(offGroup && e.2.far) }
  match tget s.l2 c.die with
  | some t => if offDie || offGroup then
      { s with l2 := tput s.l2 c.die (t.filter fun e => (e.2.tracked || !offDie) && !(offGroup && e.2.far)) } else s
  | none => s

/-! ### Page tables and the checks of an access (spec/07_core_memory.md R208-R219) -/

/-- The result of a walk. -/
inductive Walk where
  | ok (e : TlbEntry)
  | bad (cause : Nat)
  deriving DecidableEq, Repr

/-- A leaf entry well formed at level `lvl` (R214). -/
def leafOk (e lvl : Nat) : Bool :=
  !bit e 52 && bits e 11 7 == 0 && !bit e 1 && (lvl == 0 || !bit e 6) &&
    (match lvl with
      | 2 => bits e 29 12 == 0
      | 1 => bits e 20 12 == 0
      | _ => true)
/-- A table entry well formed: no leaf-only field is set (R214). -/
def tableOk (e : Nat) : Bool :=
  bits e 63 52 == 0 && bits e 11 7 == 0 && bits e 4 1 == 0 && !bit e 6

/-- The entry a leaf gives the 4 KiB page of va. -/
def leafEntry (ctx va e lvl : Nat) : TlbEntry :=
  let fr := bits e 51 12
  let f := match lvl with
    | 2 => fr + bits va 29 12
    | 1 => fr + bits va 20 12
    | _ => if bit e 6 then fr + bits va 15 12 else fr
  let hb := bit e 54 || (bit (f * 4096) 50 && !bit (f * 4096) 51)
  ⟨ctx, va / 4096, f, BitVec.ofNat 8 (bits e 63 56), hb, bit e 53, bit e 4, bit e 3, bit e 2, bit e 55,
    match lvl with
    | 2 => 262144
    | 1 => 512
    | _ => if bit e 6 then 16 else 1⟩

/-- Walk the tables below `table` at level `lvl` (R213-R215). -/
def walkFrom (m : Mem) (ctx va : Nat) : Nat → Nat → Walk
  | 0, table =>
    let e := mread m (table + 8 * bits va 20 12) 8
    if !bit e 0 then .bad cPteInvalid
    else if bit e 6 then
      let f := mread m (table + 8 * (bits va 20 12 / 16 * 16)) 8
      if !bit f 6 || bits f 15 12 != 0 then .bad cPteReserved
      else if !bit f 0 then .bad cPteInvalid
      else if !bit f 5 || !leafOk f 0 then .bad cPteReserved
      else .ok (leafEntry ctx va f 0)
    else if !bit e 5 || !leafOk e 0 then .bad cPteReserved
    else .ok (leafEntry ctx va e 0)
  | lvl + 1, table =>
    let ix := if lvl == 3 then bits va 55 48 else bits va (12 + 9 * (lvl + 1) + 8) (12 + 9 * (lvl + 1))
    let e := mread m (table + 8 * ix) 8
    if !bit e 0 then .bad cPteInvalid
    else if bit e 5 then
      if lvl + 1 ≤ 2 && leafOk e (lvl + 1) then .ok (leafEntry ctx va e (lvl + 1)) else .bad cPteReserved
    else if tableOk e then walkFrom m ctx va lvl (bits e 51 12 * 4096) else .bad cPteReserved

/-- Capacity of device memory in bytes (spec/01_package.md R24, spec/22_host.md R517). -/
def DieMap.capacity (m : DieMap) : Nat :=
  (((List.range m.nmcb).map fun i =>
    let e := m.word (m.nsd + m.ngd + i) 2
    ((List.range 8).map fun c => if bit e c then (if bit e (8 + c) then 2 else 1) * bits e 23 16 else 0).sum).sum) * 2 ^ 30

/-- Which physical addresses exist, and what a translation to one that does not is reported as (R470, R482, R517). -/
def State.paCause (s : State) (pa : Nat) : Option Nat :=
  if bit pa 51 then
    let p := bits pa 50 37
    if s.fab.lost.contains (BitVec.ofNat 14 p) then some cPkgLost
    else if (if p == s.pkg.toNat then bits s.fab.expwin.toNat 63 56 * 2 ^ 30 else Config.exportSize p) ≤ pa % 2 ^ 37 then some cRemoteAperture
    else none
  else if bit pa 50 then none
  else if s.dieMap.capacity ≤ pa then some cPteInvalid else none

/-- What a cached entry says of a 4 KiB page that its leaf covers. -/
def TlbEntry.at (e : TlbEntry) (ctx vpn : Nat) : Option TlbEntry :=
  if e.ctx == ctx && e.vpn / e.pages == vpn / e.pages then
    some { e with vpn := vpn, frame := e.frame - e.vpn % e.pages + vpn % e.pages } else none
/-- The first 4 KiB frame of the page of an entry. -/
def TlbEntry.page (e : TlbEntry) : Nat := e.frame - e.vpn % e.pages
def State.dieTlb (s : State) (die : Nat) : List TlbEntry := (tget s.tlb2 die).getD []
/-- A cached translation: the core's, else the die's (R212). -/
def State.cached (s : State) (c : CoreRef) (ctx vpn : Nat) : Option TlbEntry :=
  ((s.core c).tlb.findSome? fun e => e.at ctx vpn).orElse fun _ => (s.dieTlb c.die).findSome? fun e => e.at ctx vpn
/-- A translation as the two levels and the coalescer hold it from now on; other entries for its page go. -/
def State.keepTlb (s : State) (c : CoreRef) (e : TlbEntry) : State :=
  let k := s.core c
  let but := fun (l : List TlbEntry) => l.filter fun x => (x.at e.ctx e.vpn).isNone
  { s.setCore c { k with tlb := (e :: but k.tlb).take 256 } with
    tlb2 := tput s.tlb2 c.die ((e :: but (s.dieTlb c.die)).take 131072)
    coal := (c, e) :: s.coal }
/-- The entries of a page leave both levels. -/
def State.forgetTlb (s : State) (c : CoreRef) (ctx vpn : Nat) : State :=
  let k := s.core c
  let but := fun (l : List TlbEntry) => l.filter fun x => (x.at ctx vpn).isNone
  { s.setCore c { k with tlb := but k.tlb } with tlb2 := tput s.tlb2 c.die (but (s.dieTlb c.die)) }
/-- Walk the page tables of a context as they stand (R213). -/
def State.walk (s : State) (x : Ctx) (ctx va : Nat) : Walk := walkFrom s.mem ctx (va % 2 ^ 56) 4 x.ptroot
/-- The translation of a page that a launch or the open frame has pinned (spec/10_distributor.md R281, spec/14_narrows.md R376). -/
def State.pinned (s : State) (ctx vpn : Nat) : Option TlbEntry :=
  match s.launches.findSome? fun (l : Launch) => if l.ctx == ctx && l.state != .ended then l.pins.findSome? fun e => e.at ctx vpn else none with
  | some e => some e
  | none => ((s.ctx ctx).bind (·.frame)).bind fun f => f.pins.findSome? fun e => e.at ctx vpn
/-- Translate the 4 KiB page of va for a core (R212): an instruction translates a page once; a cached translation that differs from the
tables may or may not still be used, as a free choice says. -/
def State.lookup (s : State) (c : CoreRef) (ctx va : Nat) : Walk × State :=
  let vpn := va % 2 ^ 56 / 4096
  match s.ctx ctx with
  | none => (.bad cPteInvalid, s)
  | some x =>
    match s.coal.findSome? fun p => if p.1 == c then p.2.at ctx vpn else none with
    | some e => (.ok e, s)
    | none =>
      match s.cached c ctx vpn, s.walk x ctx va with
      | some e, w =>
        if w == .ok e then (w, s.keepTlb c e)
        else if s.freeVal.getLsbD 0 then (.ok e, s.useFree.keepTlb c e)
        else match w with
          | .ok n => (w, s.useFree.keepTlb c n)
          | .bad _ => (w, s.useFree.forgetTlb c ctx vpn)
      | none, .ok e => (.ok e, s.keepTlb c e)
      | none, .bad cause => match s.pinned ctx vpn with
        | some e => (.ok e, s.keepTlb c e)
        | none => (.bad cause, s)

/-- The kinds of access that the checks tell apart (R69, R216, R217). -/
inductive AKind where
  | load
  | store
  | atomic
  | pref
  | cline
  /-- VCQRY .sync and .dir: a load that never parks (spec/18_cache.md R463) -/
  | query
  /-- BIASFLIP: checks 1 to 5 as an atomic (R462) -/
  | flip
  deriving DecidableEq, Repr

def AKind.reads : AKind → Bool
  | .load => true
  | .query => true
  | _ => false
def AKind.updates : AKind → Bool
  | .atomic => true
  | .cline => true
  | .flip => true
  | _ => false
/-- The engine marks a 4 KiB frame moving (R218). -/
def State.movingFrame (s : State) (fr : Nat) : Bool := s.moving.any fun m => m.1 ≤ fr && decide (fr < m.1 + m.2)
/-- The engine's mark or the PTE says that the page moves (R218). -/
def State.isMoving (s : State) (e : TlbEntry) : Bool := e.mov || s.movingFrame e.frame
/-- The page of a virtual address moves as the tables stand now. -/
def State.vaMoving (s : State) (ctx va : Nat) : Bool :=
  match s.ctx ctx with
  | some x => (match s.walk x ctx va with
    | .ok e => s.isMoving e
    | .bad _ => false)
  | none => false

/-- A pointer that passed its checks. -/
inductive Place where
  | loc (a : Nat)
  | prv (a : Nat)
  /-- global: physical address, page, whether W is granted -/
  | glob (pa : Nat) (e : TlbEntry) (w : Bool)
  deriving DecidableEq, Repr

/-- The result of the checks of one lane. -/
inductive Chk where
  | ok (p : Place)
  | trap (cause : Nat)
  | park (page : Nat)
  deriving DecidableEq, Repr

/-- A bounds table entry passes for the access (spec/03_memory_model.md R68, R69). -/
def boundsOk (lo hi : Nat) (addr w : Nat) (k : AKind) : Bool :=
  let v := hi * 2 ^ 64 + lo
  let base := bits v 71 16
  let limit := bits v 127 72
  bit v 3 && base ≤ addr && addr + w - 1 ≤ limit &&
    (match k with
      | .load => bit v 0
      | .query => bit v 0
      | .store => bit v 1
      | .pref => bit v 0 || bit v 1
      | .cline => bit v 0 && bit v 1
      | .atomic => bit v 0 && bit v 1 && bit v 2
      | .flip => bit v 0 && bit v 1 && bit v 2)

/-- The lease check (R216). -/
def leaseOk (ls : List Lease) (addr w : Nat) (k : AKind) : Bool :=
  ls.any fun l => l.base ≤ addr && addr + w ≤ l.base + l.size &&
    (match k with
      | .pref => true
      | .load => l.perm == 0 || l.perm == 2
      | .query => l.perm == 0 || l.perm == 2
      | .store => l.perm == 1 || l.perm == 2
      | _ => l.perm == 2)

/-- The leases of the kernel a block runs. -/
def State.leases (s : State) (k : Block) : List Lease :=
  match s.launch k.launch with
  | some l => ((lget l.kernels k.kernel).map (·.leases)).getD []
  | none => []

/-- Write policy of a VC (spec/18_cache.md R446). -/
def VcEntry.wpol (v : VcEntry) : Nat := bits v.w0.toNat 58 57
/-- The VC entry that a context defines for an index (R442). -/
def State.vc (s : State) (ctx idx : Nat) : Option VcEntry := ((s.ctx ctx).bind fun c => tget c.vcs idx).filter (·.v)

/-- Checks 3 to 7 of R217 for a global address whose bounds and alignment have passed. -/
def State.checkGlobal (s : State) (c : CoreRef) (ctx : Nat) (ls : List Lease) (addr w : Nat) (k : AKind) : Chk × State :=
  if !leaseOk ls addr w k then (.trap cLease, s) else
    match s.lookup c ctx addr with
    | (.bad cause, s) => (.trap cause, s)
    | (.ok e, s) =>
      let pa := s.localPa (e.frame * 4096 + addr % 4096)
      match s.paCause (e.frame * 4096 + addr % 4096) with
      | some cause => (.trap cause, s)
      | none =>
        match s.vc ctx e.vc.toNat with
        | none => (.trap cVcUndefined, s)
        | some v =>
          let w := e.w && v.wpol != 3
          if (k.reads || k == .atomic) && !e.rd then (.trap cReadProtect, s)
          else if k == .atomic && !w then (.trap cWriteProtect, s)
          else if s.isMoving e && k != .pref && k != .cline && k != .query && k != .flip then (.park e.page, s)
          else (.ok (.glob pa e w), s)

/-- The checks of R69 and R217 for one pointer. -/
def State.check (s : State) (k : Block) (ptr : DWord) (w align : Nat) (ak : AKind) : Chk × State :=
  let region := bits ptr.toNat 63 56
  let addr := ptr.toNat % 2 ^ 56
  if region == 1 then
    if k.localSize ≤ addr + w - 1 then (.trap cBounds, s)
    else if addr % align != 0 then (.trap cMisaligned, s) else (.ok (.loc addr), s)
  else if region == 2 then
    if k.privSize ≤ addr + w - 1 then (.trap cBounds, s)
    else if addr % align != 0 then (.trap cMisaligned, s) else (.ok (.prv addr), s)
  else
    let bt := ((s.ctx k.ctx).map (·.btbase)).getD 0 + 16 * region
    if 3 ≤ region && !boundsOk (mread s.mem bt 8) (mread s.mem (bt + 8) 8) addr w ak then (.trap cBounds, s)
    else if addr % align != 0 then (.trap cMisaligned, s)
    else s.checkGlobal k.core k.ctx (s.leases k) addr w ak

/-- Read one 8-byte word of code (R105, R217): checks 4, 5 and X. The outer none: the fetch waits for a moving page. -/
def State.fetchWord (s : State) (c : CoreRef) (ctx : Nat) (reloc : Tbl DWord) (va : DWord) :
    Option (Except Nat DWord) × State :=
  match s.lookup c ctx (va.toNat % 2 ^ 56) with
  | (.bad cause, s) => (some (.error cause), s)
  | (.ok e, s) =>
    match s.paCause (e.frame * 4096 + va.toNat % 4096) with
    | some cause => (some (.error cause), s)
    | none =>
      match s.vc ctx e.vc.toNat with
      | none => (some (.error cVcUndefined), s)
      | some _ =>
        if !e.x then (some (.error cExecProtect), s)
        else if s.isMoving e then (none, s)
        else
          let pa := s.localPa (e.frame * 4096 + va.toNat % 4096)
          match tget reloc va.toNat with
          | some w => (some (.ok w), s)
          | none => (some (.ok (BitVec.ofNat 64 (mread s.mem pa 8))), s)

/-- Fetch n consecutive words from va. -/
def State.fetchWords (s : State) (c : CoreRef) (ctx : Nat) (reloc : Tbl DWord) (va : DWord) (n : Nat) :
    Option (Except Nat (List DWord)) × State :=
  match n with
  | 0 => (some (.ok []), s)
  | n + 1 =>
    match s.fetchWord c ctx reloc va with
    | (none, s) => (none, s)
    | (some (.error e), s) => (some (.error e), s)
    | (some (.ok w), s) =>
      match s.fetchWords c ctx reloc (va + 8) n with
      | (none, s) => (none, s)
      | (some (.error e), s) => (some (.error e), s)
      | (some (.ok ws), s) => (some (.ok (w :: ws)), s)

/-! ### The store buffer and its commit (spec/03_memory_model.md R78, R79; spec/09_core_traps.md R261, R263) -/

/-- The bytes an entry stores: offsets in its granule. -/
def SbEntry.bytes (e : SbEntry) : Tbl Byte :=
  ((leBytes e.width e.data).zipIdx).map fun p => (e.pa % 128 + p.2, p.1)

/-- Bytes of core SRAM that a block takes (spec/02_execution.md R50). -/
def sramUse (localSize privSize threads : Nat) : Nat := (localSize + threads * privSize + 8192 + 4095) / 4096 * 4096
def Block.sram (k : Block) : Nat := sramUse k.localSize k.privSize k.nthreads
/-- The blocks that reside on a core. -/
def State.onCore (s : State) (c : CoreRef) : List Block := s.blocks.filter fun k => k.core == c && !k.saved && !k.relaunch
/-- The VC allocates in the L2 of a die (spec/18_cache.md R443, R446-R448). -/
def State.usesL2 (s : State) (ctx vc die : Nat) : Bool :=
  s.dieMap.isSd die && (vc == 1 || (4 ≤ vc && (match s.vc ctx vc with
    | some v => v.wpol != 2 && v.shares.any fun x => x.1 && x.2.1 == die
    | none => false)))
/-- The VC allocates in last-level shares. -/
def State.usesLl (s : State) (ctx vc : Nat) : Bool :=
  vc == 1 || vc == 3 || (4 ≤ vc && (match s.vc ctx vc with
    | some v => v.wpol != 2 && v.shares.any fun x => !x.1
    | none => false))

/-- The dirty notice of a granule goes to its home on another package, whose acknowledgement is awaited (spec/19_fabric.md R480). -/
def State.sendNotice (s : State) (c : CoreRef) (g far : Nat) : State :=
  let s := s.sendFlit 4 far g
  { s with fences := s.fences ++ [(⟨s.nextId, .notice c g, [], some (BitVec.ofNat 14 far), []⟩ : Fence)], nextId := s.nextId + 1 }
/-- A dirty notice of a core has not been acknowledged. -/
def State.noticing (s : State) (c : CoreRef) : Bool := s.fences.any fun (f : Fence) => match f.who with
  | .notice x _ => x == c
  | _ => false
/-- Put bytes into the dirty set of a core: in its L1, or, with `nl1` or for a line that L1 does not hold, in the die's L2 where the VC uses
that (R76, spec/07_core_memory.md R211). The first dirty bytes of a granule homed on another package send a dirty notice (spec/19_fabric.md
R480). -/
def State.putDirty (s : State) (c : CoreRef) (g : Nat) (bs : Tbl Byte) (tracked hb : Bool) (ctx vc : Nat) (nl1 low : Bool := false)
    (page : Nat × Nat := (0, 1)) : State :=
  let k := s.core c
  let far := s.homePkg (g * 128)
  let s := if (tget k.dirty g).isNone && far != s.pkg.toNat then s.sendNotice c g far else s
  let inL2 := s.usesL2 ctx vc c.die
  let d := (tget k.dirty g).getD ⟨[], k.gen, tracked, hb, ctx, vc, false, inL2 && (tget k.copies g).isNone, 0, false, page, false⟩
  s.setCore c { k with dirty := tput k.dirty g { d with
    bytes := bs.foldl (fun t p => tput t p.1 p.2) d.bytes, l2 := d.l2 || (inL2 && nl1), used := if low then 0 else s.nextId } }

/-- Where a write of a page of this VC goes at commit: to the home at once (R76, R443, R446), or to the dirty set. -/
def State.writesThrough (s : State) (ctx vc : Nat) : Bool :=
  vc == 0 || (match s.vc ctx vc with
    | some v => v.wpol == 1 || v.wpol == 2
    | none => false)

/-- Commit one entry that is not faulting. -/
def State.commitEntry (s : State) (c : CoreRef) (ctx : Nat) (e : SbEntry) : State :=
  if s.writesThrough ctx e.vc then s.homeWrite (some c) (granule e.pa) e.bytes e.tracked
  else s.putDirty c (granule e.pa) e.bytes e.tracked e.hostBias ctx e.vc e.nl1 e.low e.page

/-- Discard one faulting entry: its record is queued, or dropped and counted, and its thread has a pending store fault (R261, R263). -/
def Block.storeFault (k : Block) (e : SbEntry) : Block :=
  let k := if k.sfq.length < 32 then { k with sfq := k.sfq ++ [⟨e.tl, e.word, e.wfield, e.va⟩] }
    else k.modThread e.tl fun t => { t with lost := if t.lost == 0xFFFF then t.lost else t.lost + 1 }
  k.modThread e.tl fun t => { t with pendSf := match t.pendSf with
    | some p => some p
    | none => some (e.va, 0, (8 : Word) ||| e.wfield.setWidth 32) }

/-- The fence is that of an operation of a thread that acts as PHASE (R90). -/
def FenceFor.acts (w : FenceFor) (b tl : Nat) : Bool :=
  match w with
  | .phase x y _ => x == b && y == tl
  | .region x y _ => x == b && y == tl
  | _ => false
/-- The fence is that of an operation of a block. -/
def FenceFor.ofBlock (w : FenceFor) (b : Nat) : Bool :=
  match w with
  | .phase x _ _ => x == b
  | .barrier x _ _ _ _ => x == b
  | .region x _ _ => x == b
  | .paypush x => x == b
  | _ => false
/-- An operation that acts as PHASE, older than number n of the thread, has not completed. -/
def State.phasing (s : State) (b tl n : Nat) : Bool := s.fences.any fun (f : Fence) => f.who.acts b tl && decide (f.id < n)
/-- A store entry may not commit yet: its page moves, an older acquiring access of its thread has not completed (R218, R80), or an
older access of its thread to the granule has not been performed (R75: one location's accesses take effect in program order). -/
def State.entryHeld (s : State) (k : Block) (e : SbEntry) : Bool :=
  s.movingFrame (e.pa / 4096) || s.vaMoving k.ctx e.va.toNat || s.phasing k.id e.tl e.seq ||
    s.reqs.any (fun (q : HomeReq) => q.blk == k.id && q.tl == e.tl && granule q.pa == granule e.pa && decide (q.id < e.seq)) || (match (k.thread e.tl).acqFrom with
    | some a => decide (a < e.seq)
    | none => false)

/-- Commit, oldest first, the entries of `es` that `p` selects; false when a held entry stops the commit. -/
def State.commitList (s : State) (b : Nat) (p : SbEntry → Bool) : List SbEntry → State × Bool
  | [] => (s, true)
  | e :: r =>
    if !p e then s.commitList b p r else
      match s.block b with
      | none => (s, true)
      | some k =>
        if s.entryHeld k e then (s, false)
        else
          let s := s.modBlock b fun k => { k with sbuf := k.sbuf.filter fun x => x.seq != e.seq }
          let s := if e.faulting then s.modBlock b fun k => k.storeFault e else s.commitEntry k.core k.ctx e
          s.commitList b p r

/-- A store that writes through covers all 128 bytes of its granule with the entries of one commit: the granule's poison ends
(spec/20_reliability.md R487). -/
def State.wholeStores (s : State) (ctx : Nat) (es : List SbEntry) : State :=
  if s.poison.isEmpty then s
  else { s with poison := s.poison.filter fun g =>
    let mine := es.filter fun e => granule e.pa == g && !e.faulting && s.writesThrough ctx e.vc
    !((List.range 128).all fun i => mine.any fun e => (tget e.bytes i).isSome) }
/-- CommitStores of the entries that `p` selects (spec/04_encoding.md R143): complete once no dirty notice of the core is unanswered
(spec/19_fabric.md R480). -/
def State.commitWhere (s : State) (b : Nat) (p : SbEntry → Bool) : State × Bool :=
  match s.block b with
  | some k =>
    let r := s.commitList b p k.sbuf
    ((if r.2 then r.1.wholeStores k.ctx (k.sbuf.filter p) else r.1), r.2 && !r.1.noticing k.core)
  | none => (s, true)
/-- CommitStores of a block, and of a thread. -/
def State.commitBlock (s : State) (b : Nat) : State × Bool := s.commitWhere b fun _ => true
def State.commitThread (s : State) (b tl : Nat) : State × Bool := s.commitWhere b fun e => e.tl == tl

/-! ### Acquire effects on local memory, the end of a thread, barriers -/

/-- Fragment ids held by live threads. -/
def Block.liveFids (k : Block) : List (BitVec 16) := (k.threads.filter (·.alive)).map (·.fid)

/-- The next fragment id from the block's counter (spec/02_execution.md R44): at most 1,024 are live. -/
def nextFid (live : List (BitVec 16)) (c : BitVec 16) : Nat → BitVec 16
  | 0 => c
  | n + 1 => if c == 0 || live.contains c then nextFid live (c + 1) n else c

/-- Allocate a fragment id. -/
def Block.allocFid (k : Block) : BitVec 16 × Block :=
  let f := nextFid k.liveFids k.fidCtr 1100
  (f, { k with fidCtr := if f == 0xFFFF then 1 else f + 1 })

/-- A thread becomes ready at the clause header pc. -/
def Thread.goto (t : Thread) (pc : DWord) (cyc : Nat) : Thread :=
  { t with status := .ready, pc := pc, hdr := pc, stallDone := false, clauseEnd := cyc, waitBase := 0 }

/-- A thread leaves a wait for the clause after it: every waiting instruction stands last in its clause (spec/04_encoding.md R121). -/
def Thread.resume (t : Thread) (cyc : Nat) : Thread := t.goto (t.pc + 8) cyc

/-- The address after a clause (spec/04_encoding.md R101). -/
def clauseNext (hdr : DWord) (h : Header) : DWord := hdr + BitVec.ofNat 64 (8 * (h.count + 2))

/-- Complete join barriers of a block whose expected threads have all arrived or ended (R47). -/
def State.joinCheck (s : State) (b : Nat) : State :=
  match s.block b with
  | none => s
  | some k =>
    let full := fun (j : JoinBar) => j.expected.all fun t => j.arrived.contains t || !(k.thread t).alive
    let fired := k.joins.filter full
    let cyc := (s.quad k.core).cyc
    s.setBlock { k with
      joins := k.joins.filter fun j => !full j
      threads := k.threads.zipIdx.map fun p =>
        match fired.find? fun j => j.arrived.contains p.2 with
        | some j => match p.1.status with
          | .waiting (.jwait _) => { p.1.resume cyc with fid := j.jid, parent := j.parent, sib := j.sib }
          | _ => { p.1 with fid := j.jid, parent := j.parent, sib := j.sib }
        | none => p.1 }

/-- Pod barrier group of a launch; 0 is none. -/
def State.podOf (s : State) (l : Nat) : Nat :=
  match s.launch l with
  | some x => x.podgrp.toNat
  | none => 0

/-- Key of the instance of a scope that a block's threads lie in (spec/08_core_sync.md R234). -/
def State.barInst (s : State) (k : Block) (scope : Nat) : Nat × Nat :=
  match scope with
  | 1 => (k.launch, k.id)
  | 2 => (k.launch, s.quadKeyOf k.core)
  | 3 => (k.launch, k.core.die)
  | 4 => (k.launch, 0)
  | _ => (((s.launch k.launch).map (·.podgrp.toNat)).getD 0, 0)

/-- The live participants of a barrier instance on this package (R52, R234). -/
def State.participants (s : State) (scope owner inst : Nat) : List (Nat × Nat) :=
  (s.blocks.map fun k =>
    let own := if scope == 5 then (s.podOf k.launch) == owner else k.launch == owner
    let here := match scope with
      | 1 => k.id == inst
      | 2 => !k.saved && !k.relaunch && s.quadKeyOf k.core == inst
      | 3 => !k.saved && !k.relaunch && k.core.die == inst
      | _ => true
    if own && here then (k.threads.zipIdx.filter fun p => p.1.alive).map fun p => (k.id, p.2) else []).flatten

/-- A barrier instance as it stands; phase 0 with nobody arrived when it is not listed. -/
def State.barOf (s : State) (scope owner inst bid : Nat) : BarInst :=
  (s.bars.find? fun x => x.scope == scope && x.owner == owner && x.inst == inst && x.bid == bid).getD ⟨scope, owner, inst, bid, 0, []⟩
def State.setBar (s : State) (v : BarInst) : State :=
  { s with bars := (s.bars.filter fun x => !(x.scope == v.scope && x.owner == v.owner && x.inst == v.inst && x.bid == v.bid)) ++ [v] }

/-- A thread waiting in a barrier leaves it: the acquire part (spec/03_memory_model.md R94) and the next clause (R235). -/
def State.leaveBar (s : State) (b tl scope bid : Nat) : State :=
  match s.block b with
  | none => s
  | some k =>
    let s := if 2 ≤ scope then s.acquireInval k.core (4 ≤ scope) (scope == 5) else s
    let cyc := (s.quad k.core).cyc
    s.modThread b tl fun t =>
      { t.resume cyc with bars := t.bars.filter fun a => !(a.scope == scope && a.bid == bid) }

/-- Threads that wait in phase `ph` of an instance are released (R235); those of a saved block find it completed as they are restored
(R249). -/
def State.releaseBar (s : State) (v : BarInst) (ph : Nat) : State :=
  let ws := (s.participants v.scope v.owner v.inst).filter fun p =>
    (match (s.thread p.1 p.2).status with
      | .waiting (.bar sc bid) => sc == v.scope && bid == v.bid &&
          (s.block p.1).all (fun k => !k.saved) && (s.thread p.1 p.2).bars.any fun a => a.scope == sc && a.bid == bid && a.phase == ph
      | _ => false)
  ws.foldl (fun s p => s.leaveBar p.1 p.2 v.scope v.bid) s

/-- Package p arrives in a phase of pod group gid at its root, if this package is the root (R483). -/
def State.podArrive (s : State) (gid src : Nat) : State :=
  match s.fab.pbgtab.find? fun w => bit w.toNat 0 && bits w.toNat 63 32 == gid with
  | some w =>
    if bits w.toNat 31 18 == s.pkg.toNat then
      let l := (tget s.fab.podArr gid).getD [] ++ [BitVec.ofNat 14 src]
      if bits w.toNat 17 4 + 1 ≤ l.length then
        l.foldl (fun s p => s.sendFlit 2 p.toNat gid) { s with fab := { s.fab with podArr := tdel s.fab.podArr gid } }
      else { s with fab := { s.fab with podArr := tput s.fab.podArr gid l } }
    else s.sendFlit 1 (bits w.toNat 31 18) gid
  | none => s

/-- Complete the phase of an instance when every participant has arrived in it (R235). A pod phase is completed by its release flit
(R483): here the package reports its arrival. -/
def State.barCheck (s : State) (scope owner inst bid : Nat) : State :=
  let v := s.barOf scope owner inst bid
  let ps := s.participants scope owner inst
  if !v.arrived.isEmpty && ps.all (fun p => v.arrived.contains p) then
    if scope == 5 then
      if v.arrived.contains (0, 0) then s
      else (s.setBar { v with arrived := (0, 0) :: v.arrived }).podArrive owner s.pkg.toNat
    else
      let s := s.setBar { v with phase := v.phase + 1, arrived := [] }
      s.releaseBar v v.phase
  else s

/-- Check every barrier instance that threads of block b may complete by leaving it. -/
def State.barCheckAll (s : State) (owner podgrp : Nat) : State :=
  (s.bars.filter fun v => (if v.scope == 5 then v.owner == podgrp else v.owner == owner)).foldl
    (fun s v => s.barCheck v.scope v.owner v.inst v.bid) s

/-- The end of a thread (R47, R170, R235): its boost ends, joins and barriers are checked. -/
def State.endThread (s : State) (b tl : Nat) : State :=
  match s.block b with
  | none => s
  | some k =>
    let s := s.modBlock b fun k =>
      { k.modThread tl (fun t => { t with status := .ended, ops := [], mark := none, boost := none, boostNew := none, pendSf := none }) with
        sbuf := k.sbuf.filter fun e => e.tl != tl }
    let s := { s with reqs := s.reqs.filter fun (q : HomeReq) => !(q.blk == b && q.tl == tl && q.kind == ReqKind.fill) }
    let s := s.joinCheck b
    s.barCheckAll k.launch (s.podOf k.launch)

/-- KILLF's end of a thread (spec/09_core_traps.md R269): its records, its count and its fault are discarded too. -/
def State.killThread (s : State) (b tl : Nat) : State :=
  (s.modBlock b fun k =>
    { k.modThread tl (fun t => { t with lost := 0, inHandler := false }) with sfq := k.sfq.filter fun r => r.tl != tl }).endThread b tl

/-- A KILLF that waits for issuing threads of a fragment goes on when none is left (R269). -/
def State.killWake (s : State) (b : Nat) : State :=
  s.modBlock b fun k => { k with threads := k.threads.map fun t =>
    match t.status with
    | .waiting (.killf f) => if k.threads.any (fun u => u.alive && u.fid == f) then t else t.resume 0
    | _ => t }

/-- Every block of a launch ends (spec/09_core_traps.md R255): threads, open groups and sequencers stop. -/
def State.endBlocks (s : State) (l : Nat) : State :=
  let bs := (s.blocks.filter fun k => k.launch == l).map (·.id)
  let s := { s with
    opens := s.opens.filter fun o => match o with
      | .grp g => !bs.contains g.blk
      | .seq c k => !bs.contains (match k with
        | .copy => (s.core c).cseq.owner
        | .matrix => (s.core c).mseq.owner)
    blocks := s.blocks.map fun (k : Block) => if k.launch == l then
      { k with sbuf := [], sfq := [], saved := false, relaunch := false
               threads := k.threads.map fun (t : Thread) => { t with status := .ended, ops := [], mark := none, boost := none, boostNew := none, pendSf := none } } else k
    reqs := s.reqs.filter fun (q : HomeReq) => !(bs.contains q.blk && q.kind == ReqKind.fill)
    cores := tmap (fun (c : Core) => { c with
      cseq := if c.cseq.running && bs.contains c.cseq.owner then { c.cseq with running := false, draining := true, bowait := none, holdT := none } else c.cseq
      mseq := if c.mseq.running && bs.contains c.mseq.owner then { c.mseq with running := false, draining := true, bowait := none, holdT := none } else c.mseq }) s.cores }
  s.barCheckAll l (s.podOf l)

/-- A launch fails with a cause and the trap record of the failing thread (R255, spec/10_distributor.md R277). -/
def State.failLaunch (s : State) (l cause : Nat) (tw : List DWord) : State :=
  match s.launch l with
  | some x =>
    if x.outState == 0 && x.cause == 0 then
      (s.modLaunch l fun x => { x with cause := cause, outState := 1, tw := tw }).endBlocks l
    else s
  | none => s

/-- The regions that a block holds are free (spec/20_reliability.md R493). -/
def State.freeRegions (s : State) (b : Nat) : State :=
  { s with ctxs := tmap (fun (c : Ctx) => { c with frame := c.frame.map fun (f : Frame) => { f with
      regions := tmap (fun (r : Region) => { r with holder := r.holder.filter (· != b) }) f.regions } }) s.ctxs }
/-- Roll back one block or fail its launch (spec/20_reliability.md R493, R494): its groups, sequencers, engine operations, store buffer,
records and landings are discarded and its reservation and region released; BLOCK_RELAUNCH starts it again. -/
def State.rollbackOne (s : State) (b cause : Nat) (tw : List DWord) : State :=
  match s.block b with
  | none => s
  | some k =>
    if k.relaunch then s
    else if k.nonRollback then s.failLaunch k.launch cause tw
    else if 2 ≤ k.rollbacks then s.failLaunch k.launch cRollbackLimit tw
    else
      let s := { s with
        opens := s.opens.filter fun (o : Open) => match o with
          | .grp g => decide (g.blk ≠ b)
          | .seq c kd => (match kd with
            | .copy => (s.core c).cseq.owner
            | .matrix => (s.core c).mseq.owner) != b
        engs := s.engs.filter fun (o : EngOp) => o.blk != b
        later := s.later.filter fun (x : Later) => x.blk != b
        reqs := s.reqs.filter fun (q : HomeReq) => q.blk != b
        rgnReqs := s.rgnReqs.filter fun (r : RgnReq) => r.blk != b
        bars := s.bars.filter fun (v : BarInst) => !(v.scope == 1 && v.inst == b)
        fences := s.fences.filter fun (f : Fence) => !f.who.ofBlock b && (match f.who with
          | .req i => !s.reqs.any fun q => q.id == i && q.blk == b
          | .demand i _ _ => !s.reqs.any fun q => q.id == i && q.blk == b
          | _ => true)
        cores := tmap (fun (c : Core) => { c with
          res := c.res.filter fun (r : MatRes) => r.blk != b
          cseq := if c.cseq.owner == b then {} else c.cseq
          mseq := if c.mseq.owner == b then {} else c.mseq }) s.cores }
      (s.freeRegions b).modBlock b fun k => { k with
        threads := k.threads.map fun _ => {}
        ctabs := [], seqs := [], mats := []
        sbuf := [], sfq := [], joins := [], qtable := [], lmem := [], lpoison := [], fidCtr := 1
        relaunch := true, saved := false, rollbacks := k.rollbacks + 1, struck := some (s.quadKeyOf k.core)
        pushed := false, ms := 0, mdHold := none, nv := 0, np := 0, aw := 0, out := 0, region := none, packets := [] }

/-- The partner of a core of a shading die (spec/12_matrix.md R323). -/
def CoreRef.partner (c : CoreRef) : CoreRef := ⟨c.die, if c.num % 2 == 0 then c.num + 1 else c.num - 1⟩
/-- The cores c and its partner hold reservations of one context with the same nonzero key (R324). -/
def State.pairLive (s : State) (c : CoreRef) : Bool :=
  match (s.core c).res, (s.core (CoreRef.partner c)).res with
  | some a, some b => a.key != 0 && a.key == b.key && (s.block a.blk).map (·.ctx) == (s.block b.blk).map (·.ctx)
  | _, _ => false
/-- The other block of the live pair that a block belongs to. -/
def State.pairBlock (s : State) (b : Nat) : Option Nat :=
  (s.cores.findSome? fun p => match p.2.res with
    | some r => if r.blk == b && s.pairLive (coreOfKey p.1) then (s.core (CoreRef.partner (coreOfKey p.1))).res.map (·.blk) else none
    | none => none).filter (· != b)
/-- Rollback (R493, R494): the two blocks of a live matrix pair are rolled back together, or their launch fails. -/
def State.rollback (s : State) (b cause : Nat) (tw : List DWord) : State :=
  match s.pairBlock b with
  | none => s.rollbackOne b cause tw
  | some o =>
    if ((s.block b).map (·.nonRollback)) == some true || ((s.block o).map (·.nonRollback)) == some true then
      match s.block b with
      | some k => s.failLaunch k.launch cause tw
      | none => s
    else (s.rollbackOne b cause tw).rollbackOne o cause tw

/-! ### Taking a trap (spec/09_core_traps.md R255-R261) -/

/-- TW0 (R258). -/
def tw0Of (cause : Nat) (dfl sfp hdr wt : Bool) (pos : Nat) (preds : BitVec 7) (detail : Word) : DWord :=
  BitVec.ofNat 10 cause ++ BitVec.ofBool dfl ++ BitVec.ofBool sfp ++ BitVec.ofBool hdr ++ BitVec.ofBool wt ++
    BitVec.ofNat 5 pos ++ preds ++ (0 : BitVec 6) ++ detail

/-- Two threads trap with one cause at one instruction (R256). -/
def TrapInfo.with_ (i j : TrapInfo) : Bool := i.cause == j.cause && i.ipc == j.ipc && i.hdr == j.hdr
/-- The threads of a fragment that trap with thread tl, and what each reports. -/
def Block.mates (k : Block) (tl : Nat) (i : TrapInfo) : List (Nat × TrapInfo) :=
  k.threads.zipIdx.filterMap fun p => match p.1.status with
    | .trapping j => if p.1.fid == (k.thread tl).fid && i.with_ j then some (p.2, j) else none
    | _ => none
/-- A thread enters the handler at its first clause (R256). -/
def Block.enter (k : Block) (entry : DWord) (cyc : Nat) (m : Nat × TrapInfo) : Block :=
  let i := m.2
  let sfp := k.sfq.any fun r => r.tl == m.1
  k.modThread m.1 fun t => { t.goto entry cyc with
    inHandler := true
    pendSf := none
    tw0 := tw0Of i.cause i.dfl sfp i.hdr i.wt i.pos t.preds i.detail
    tw1 := i.ipc
    tw2 := i.rpc
    tw3 := i.addr
    rhdr := i.rhdr }
/-- Trap entry once it may be made: the slots of the threads that trap together are idle and the block's stores commit (R256). Held
commits leave the threads trapping. -/
def State.tryTrap (s : State) (b tl : Nat) : State :=
  match s.block b with
  | none => s
  | some k =>
    match (k.thread tl).status with
    | .trapping i =>
      if !((k.mates tl i).all fun m => (k.thread m.1).idle) then s else
        match s.commitBlock b with
        | (s, false) => s
        | (s, true) =>
          match s.launch k.launch with
          | none => s
          | some l =>
            match l.handler.bind fun h => lget l.kernels h with
            | none => s
            | some h =>
              let cyc := (s.quad k.core).cyc
              s.modBlock b fun x => (k.mates tl i).foldl (fun x m => x.enter h.entry cyc m) x
    | _ => s

/-- TakeTrap (R256) up to the entry: a fabric cause whose outcome is rollback rolls the block back; a cause of that outcome, a trap in
a handler, or a launch without a handler fails the launch (R255); else the thread traps. -/
def State.beginTrap (s : State) (b tl : Nat) (i : TrapInfo) : State :=
  match s.block b with
  | none => s
  | some k =>
    let t := k.thread tl
    let sfp := k.sfq.any fun r => r.tl == tl
    let rec_ := fun c d => [tw0Of c i.dfl sfp i.hdr i.wt i.pos t.preds d, i.ipc, i.rpc, i.addr]
    match s.launch k.launch with
    | none => s
    | some l =>
      if i.cause == cPkgLost || i.cause == cPodBarrierLost then s.rollback b i.cause (rec_ i.cause 0)
      else if failsLaunch i.cause then s.failLaunch l.id i.cause (rec_ i.cause i.detail)
      else if t.inHandler then s.failLaunch l.id cDoubleTrap (rec_ cDoubleTrap (BitVec.ofNat 32 i.cause))
      else if l.handler.isNone then s.failLaunch l.id i.cause (rec_ i.cause i.detail)
      else s.modThread b tl fun t => { t with
        status := .trapping i
        savedWait := match t.status with
          | .waiting w => some w
          | _ => none }
/-- TakeTrap (R256). -/
def State.takeTrap (s : State) (b tl : Nat) (i : TrapInfo) : State := (s.beginTrap b tl i).tryTrap b tl

/-- The pending store fault of a blocked or parked thread is reported at once (R261). -/
def State.sfReport (s : State) (b tl : Nat) : State :=
  let t := s.thread b tl
  match t.pendSf with
  | none => s
  | some (va, _, d) =>
    match t.status with
    | .waiting _ => s.takeTrap b tl ⟨cWriteProtect, d, t.pc, t.pc, t.hdr, va, true, false, true, t.pos⟩
    | .parked _ _ => s.takeTrap b tl ⟨cWriteProtect, d, t.pc, t.pc, t.hdr, va, true, false, false, t.pos⟩
    | _ => s

/-- Report the store faults of every blocked or parked thread of a block. -/
def State.sfReportAll (s : State) (b : Nat) : State :=
  match s.block b with
  | some k => (List.range k.threads.length).foldl (fun s tl => s.sfReport b tl) s
  | none => s

end Sys2Proof.Machine
end

