-- ==== Sys2Proof/Machine/Operands.lean ====
section
/-! DEFINITION. How an instruction issues for a group (spec/02_execution.md R33, R43; spec/04_encoding.md R108-R122): guards, operands,
last use, lanes in ascending position, the threads that stop, and the end of the clause. -/

namespace Sys2Proof.Machine

/-- The result type of a meaning. -/
abbrev Out := Host.Outcome State Fault Refusal

/-- How an instruction stops one thread (spec/02_execution.md R43). -/
inductive Stop where
  /-- a trap; `after`: the instruction has completed (spec/09_core_traps.md R259); `dfl`: a store fault at a commit (R261) -/
  | trap (cause : Nat) (detail : Word) (addr : DWord) (after dfl : Bool)
  /-- parks on a moving page -/
  | park (page : Nat) (addr : DWord)
  /-- blocked at this instruction until a commit can be made (spec/07_core_memory.md R218) -/
  | hold
  deriving DecidableEq, Repr

/-- One lane's part of an instruction: the state after it, and how it stopped, if it did. -/
abbrev LaneOut := State × Option Stop

/-- What a lane's part of an instruction reads: the state, block and thread as they stood before the instruction. -/
structure Env where
  s0 : State
  g : Group
  k : Block
  pos : Nat
  tl : Nat
  th : Thread
  /-- the participants: position, thread (spec/05_core_integer.md R173) -/
  parts : List (Nat × Nat)

/-- Address of the instruction a group is at. -/
def Group.iaddr (g : Group) : DWord := g.hdr + BitVec.ofNat 64 (8 * (g.idx + 1))
def Group.isLast (g : Group) : Bool := g.head.count ≤ g.idx
/-- Where a thread goes on after the instruction: address, and the header of its clause (R259). -/
def Group.nextAddr (g : Group) : DWord × DWord :=
  if g.isLast then (clauseNext g.hdr g.head, clauseNext g.hdr g.head) else (g.iaddr + 8, g.hdr)
/-- sr.grpmask (spec/05_core_integer.md R145). -/
def laneMask (l : List (Nat × Nat)) : BitVec 32 := l.foldl (fun m p => m ||| (1#32 <<< p.1)) 0

def Env.ctr (e : Env) : Nat := e.s0.clock.free
def Env.r (e : Env) (n : BitVec 8) : Word := e.th.reg e.ctr e.tl n.toNat
def Env.r64 (e : Env) (n : BitVec 8) : DWord := e.th.reg64 e.ctr e.tl n.toNat
/-- Register n plus i of a group operand; a member that is g255 reads zero (spec/04_encoding.md R115). -/
def Env.rN (e : Env) (n : BitVec 8) (i : Nat) : Word := if n == 255 then 0 else e.th.reg e.ctr e.tl (n.toNat + i)
/-- A 64-bit value from registers n + i and n + i + 1. -/
def Env.rN64 (e : Env) (n : BitVec 8) (i : Nat) : DWord := e.rN n (i + 1) ++ e.rN n i
/-- Uniform register i (spec/05_core_integer.md R144). -/
def Block.kreg (k : Block) (i : Nat) : Word := (lget k.kregs i).getD 0
/-- opB of format A (spec/05_core_integer.md R153). -/
def Env.opB (e : Env) (f : FA) : Word := if f.bk then e.k.kreg f.b.toNat else e.r f.b
/-- Change the executing thread. -/
def Env.upd (e : Env) (s : State) (f : Thread → Thread) : State := s.modThread e.k.id e.tl f
/-- The address of the instruction being executed. -/
def Env.iaddr (e : Env) : DWord := e.g.iaddr

/-- Step 6 of R122, and a poisoned source (spec/20_reliability.md R489). A register that is unmapped until an outstanding operation lands
in it is unmapped here: of the two values that R118 allows a read before the landing, the previous one decides
(notes/assumptions/48.md). -/
def srcStop (s : State) (k : Block) (i : Instr) (tl : Nat) : Option Stop :=
  let t := k.thread tl
  let rs := ((i.operands.filter (·.isSrc)).map (·.regs)).flatten
  if s.blockStrict k && rs.any (fun r => (tget t.regs r).isNone) then some (.trap cReadAfterLastUse 0 0 false false)
  else
    match rs.findSome? fun r => (tget t.regs r).bind (·.poison) with
    | some p => some (.trap cDataLost 0 p false false)
    | none => none

/-- Free the registers that last-use bits name (spec/04_encoding.md R117). -/
def freeLast (i : Instr) (t : Thread) : Thread :=
  (((i.operands.filter fun o => o.isSrc && o.last).map (·.regs)).flatten).foldl (fun t r => t.freeReg r) t

/-- The lanes whose guard is true (R108). -/
def activeLanes (k : Block) (g : Group) (pred : BitVec 3) (pneg : Bool) : List (Nat × Nat) :=
  g.lanes.filter fun p => (k.thread p.2).pred pred.toNat != pneg

/-! ### Threads that stop -/

/-- The outcome of a stop, for R43: a trap cause or a page. -/
def Stop.key : Stop → Option (Nat × Nat)
  | .trap c _ _ _ _ => some (0, c)
  | .park p _ => some (1, p)
  | .hold => none

/-- The trap record of a stop at the instruction of a group. -/
def trapOf (g : Group) (pos : Nat) : Stop → TrapInfo
  | .trap c d a after dfl =>
    { cause := c, detail := d, ipc := g.iaddr, rpc := if after then g.nextAddr.1 else g.iaddr,
      rhdr := if after then g.nextAddr.2 else g.hdr, addr := a, dfl := dfl, hdr := false, wt := false, pos := pos }
  | _ => ⟨0, 0, 0, 0, 0, 0, false, false, false, pos⟩

/-- Give the threads of one outcome a new fragment (spec/02_execution.md R42-R44). -/
def Block.split (k : Block) (tls : List Nat) (parent : BitVec 16) (mask : BitVec 32) : Block :=
  let a := k.allocFid
  tls.foldl (fun k tl => k.modThread tl fun t => { t with fid := a.1, parent := parent, sib := mask }) a.2

/-- Split the stopped threads off a group (R43). `stops` pairs lanes with their stops, in ascending position. -/
def splitGroup (s : State) (g : Group) (stops : List ((Nat × Nat) × Stop)) : State :=
  let out := stops.filterMap fun p => p.2.key.map fun key => (p.1, key)
  let keys := nub (out.map (·.2))
  let stay := g.lanes.any fun l => !(out.any fun p => p.1 == l)
  let leave := if stay then keys else keys.drop 1
  let mask := laneMask ((out.filter fun p => leave.contains p.2).map (·.1))
  leave.foldl (fun s key =>
    s.modBlock g.blk fun k =>
      let tls := (out.filter fun p => p.2 == key).map (·.1.2)
      let parent := match g.lanes with
        | l :: _ => (k.thread ((g.lanes.find? fun l => !(out.any fun p => p.1 == l && leave.contains p.2)).getD l).2).fid
        | [] => 0
      k.split tls parent mask) s

/-- What becomes of one stopped thread. -/
def applyStop (g : Group) (s : State) (p : (Nat × Nat) × Stop) : State :=
  let tl := p.1.2
  let s := s.modThread g.blk tl fun t => { t with pc := g.iaddr, hdr := g.hdr }
  match p.2 with
  | .park page addr => (s.modThread g.blk tl fun t => { t with status := .parked page addr }).sfReport g.blk tl
  | .hold => s.modThread g.blk tl fun t => { t with status := .held }
  | st => s.beginTrap g.blk tl (trapOf g p.1.1 st)

/-- The threads that trap at one instruction enter their handler together, where they may at once (spec/09_core_traps.md R256). -/
def enterTraps (s : State) (b : Nat) (tls : List Nat) : State := tls.foldl (fun s tl => s.tryTrap b tl) s

/-- The end of a clause for its remaining threads (R34, R101). -/
def endClause (s : State) (g : Group) (lanes : List (Nat × Nat)) : State :=
  lanes.foldl (fun s l =>
    let cyc := match s.block g.blk with
      | some k => (s.quad k.core).cyc
      | none => 0
    if (s.thread g.blk l.2).kill then s.killThread g.blk l.2
    else s.modThread g.blk l.2 fun t => t.goto t.pc cyc) s

/-- After an instruction: stopped threads leave, the group goes on to its next instruction or its clause ends. -/
def finishInstr (s : State) (g : Group) (stops : List ((Nat × Nat) × Stop)) : State :=
  let s := enterTraps (stops.foldl (applyStop g) (splitGroup s g stops)) g.blk (stops.map (·.1.2))
  let s := s.useFree
  match s.opens with
  | .grp g0 :: rest =>
    if g0 == g then
      let lanes := g.lanes.filter fun l => (s.thread g.blk l.2).status.isIssuing
      if lanes.isEmpty then { s with opens := rest }
      else if g.isLast then ({ endClause s g lanes with opens := rest }).killWake g.blk
      else { s with opens := .grp { g with idx := g.idx + 1, lanes := lanes, part := [] } :: rest }
    else s
  | _ => s

/-! ### Issue -/

/-- Run the lanes of an instruction in ascending position. -/
def runLanes (i : Instr) (s0 : State) (g : Group) (k : Block) (parts : List (Nat × Nat)) (lane : Env → State → LaneOut) :
    List (Nat × Nat) → State → State × List ((Nat × Nat) × Stop)
  | [], s => (s, [])
  | p :: r, s =>
    let th := k.thread p.2
    let e : Env := ⟨s0, g, k, p.1, p.2, th, parts⟩
    let s1 := s.modThread k.id p.2 (freeLast i)
    match lane e s1 with
    | (s2, none) => runLanes i s0 g k parts lane r s2
    | (s2, some st) =>
      let keep := match st with
        | .trap _ _ _ true _ => true
        | _ => false
      let s3 := if keep then s2 else s2.modThread k.id p.2 fun t => { t with regs := th.regs }
      let q := runLanes i s0 g k parts lane r s3
      (q.1, (p, st) :: q.2)

/-- Put stops in ascending position. -/
def insStop (x : (Nat × Nat) × Stop) : List ((Nat × Nat) × Stop) → List ((Nat × Nat) × Stop)
  | [] => [x]
  | y :: r => if x.1.1 < y.1.1 then x :: y :: r else y :: insStop x r

/-- A lane of an instruction that would hold a sixteenth operation in its slot (R118). -/
def slotFull (k : Block) (act : List (Nat × Nat)) (sb : Option Nat) : Bool :=
  match sb with
  | some n => act.any fun p => 15 ≤ (k.thread p.2).slotCount n
  | none => false

/-- Issue an instruction for the group whose clause is being issued. While a slot it sets is full the issue is held (R118). -/
def issue (i : Instr) (pred : BitVec 3) (pneg : Bool) (sb : Option Nat) (lane : Env → State → LaneOut) (s : State) : Out :=
  match s.opens with
  | .grp g :: _ =>
    match s.block g.blk with
    | some k =>
      let act := activeLanes k g pred pneg
      if slotFull k act sb then .next s.rotate else
        let bad := act.filterMap fun p => (srcStop s k i p.2).map fun st => (p, st)
        let ok := act.filter fun p => (srcStop s k i p.2).isNone
        let q := runLanes i s g k ok lane ok s
        .next (finishInstr q.1 g (bad.foldl (fun l x => insStop x l) q.2))
    | none => .fault .noGroup
  | _ => .fault .noGroup

/-- One thread's part of an instruction that only changes its own registers and predicates. -/
def aluThread (i : Instr) (s : State) (g : Group) (k : Block) (ok : List (Nat × Nat)) (f : Env → Thread → Thread)
    (tl : Nat) (t : Thread) : Thread :=
  match ok.find? fun p => p.2 == tl with
  | some p => f ⟨s, g, k, p.1, tl, t, ok⟩ (freeLast i t)
  | none => t

/-- The block after an instruction that only changes registers and predicates. -/
def aluBlock (i : Instr) (s : State) (g : Group) (k : Block) (ok : List (Nat × Nat)) (f : Env → Thread → Thread) : Block :=
  { k with threads := k.threads.zipIdx.map fun p => aluThread i s g k ok f p.2 p.1 }

/-- Issue an instruction that completes at issue and changes only the registers and predicates of its threads
(spec/05_core_integer.md R149). A thread that traps at this instruction is no participant of it (notes/assumptions/48.md). -/
def issueAlu (i : Instr) (pred : BitVec 3) (pneg : Bool) (f : Env → Thread → Thread) (s : State) : Out :=
  match s.opens with
  | .grp g :: _ =>
    match s.block g.blk with
    | some k =>
      let act := activeLanes k g pred pneg
      let bad := act.filterMap fun p => (srcStop s k i p.2).map fun st => (p, st)
      let ok := act.filter fun p => (srcStop s k i p.2).isNone
      .next (finishInstr (s.setBlock (aluBlock i s g k ok f)) g bad)
    | none => .fault .noGroup
  | _ => .fault .noGroup

/-- Block the executing thread at its instruction (spec/02_execution.md R62). -/
def Env.block (e : Env) (s : State) (w : Wait) : State :=
  let cyc := (s.quad e.k.core).cyc
  let s := e.upd s fun t => { t with status := .waiting w, pc := e.iaddr, hdr := e.g.hdr, waitBase := 0, waitFrom := cyc, waitSeq := s.nextId }
  { s with nextId := s.nextId + 1 }

/-- Set a slot for an operation (R118): its number is the state's next; `due` is the constant time of its landing, if it has one. -/
def Env.addOp (e : Env) (s : State) (slot : BitVec 3) (regs : List Nat) (val : Option (List Word)) (poison : Option DWord)
    (acq : Bool) (act : LandAct) (due : Option Nat := none) : State :=
  let o : SlotOp := ⟨s.nextId, slot.toNat, regs, val, poison, acq, act, due, []⟩
  let s := e.upd s fun t => { t with ops := t.ops ++ [o] }
  { s with nextId := s.nextId + 1 }

/-- The registers a memory result of a width lands in (spec/04_encoding.md R111). -/
def destRegs (d : BitVec 8) (width : Nat) : List Nat :=
  if d == 255 then List.replicate ((width + 3) / 4) 255
  else (List.range ((width + 3) / 4)).map (· + d.toNat)

/-- The words of a value, lowest first. -/
def wordsOf (n v : Nat) : List Word := (List.range n).map fun i => BitVec.ofNat 32 (v / 2 ^ (32 * i))

/-- A loaded value as it lands: sign- or zero-extended to a whole register for 8 and 16 bits (spec/07_core_memory.md R210). -/
def landWords (width v : Nat) (sx : Bool) : List Word :=
  if width < 4 then [if sx then BitVec.ofInt 32 (sext v (8 * width)) else BitVec.ofNat 32 v] else wordsOf (width / 4) v

/-- Bytes of a WIDTH field (spec/04_encoding.md R111). -/
def widthBytes (w : BitVec 3) : Nat := 2 ^ w.toNat

end Sys2Proof.Machine
end

