-- ==== Sys2Proof/Machine/Flags.lean ====
section
/-! DEFINITION. Truth values: comparisons and how they combine with a predicate (spec/05_core_integer.md R151, R156, R161, R162). -/

namespace Sys2Proof.Machine

/-- Compare under CMP (R151): `a`, `b` are the operands read as signed, `ua`, `ub` as unsigned. -/
def cmpInt (cmp : Nat) (a b : Int) (ua ub : Nat) : Bool :=
  match cmp with
  | 0 => ua == ub
  | 1 => ua != ub
  | 2 => decide (a < b)
  | 3 => decide (a ≤ b)
  | 4 => decide (b < a)
  | 5 => decide (b ≤ a)
  | 6 => decide (ua < ub)
  | 7 => decide (ua ≤ ub)
  | 8 => decide (ub < ua)
  | _ => decide (ub ≤ ua)

/-- 32-bit comparison. -/
def cmp32 (cmp : Nat) (a b : Word) : Bool := cmpInt cmp a.toInt b.toInt a.toNat b.toNat
/-- 64-bit comparison. -/
def cmp64 (cmp : Nat) (a b : DWord) : Bool := cmpInt cmp a.toInt b.toInt a.toNat b.toNat

/-- Combine a result with the combining predicate under BOP (R161). -/
def boolOp (bop : Nat) (r c : Bool) : Bool :=
  match bop with
  | 0 => r
  | 1 => r && c
  | 2 => r || c
  | _ => r != c

/-- Set predicate Q = D[2:0] of a compare of format A: PC in MOD[4:2], PCN in MOD[5], BOP in MOD[1:0] (R150, R161). -/
def setCmpA (f : FA) (e : Env) (t : Thread) (r : Bool) : Thread :=
  t.setPred (f.d.toNat % 8) (boolOp (f.mf 0 2) r (e.th.pred (f.mf 2 3) != f.mb 5))

/-- Set predicate Q of a compare of format I: the combining predicate is Q itself, read before the write (R161). -/
def setCmpI (f : FI) (e : Env) (t : Thread) (r : Bool) : Thread :=
  t.setPred (f.d.toNat % 8) (boolOp (f.md.toNat % 4) r (e.th.pred (f.d.toNat % 8) != f.mb 2))

/-- A bit of a look-up table indexed a + 2b + 4c (R156, R162). -/
def lutBit (lut : Nat) (a b c : Bool) : Bool := bit lut (a.toNat + 2 * b.toNat + 4 * c.toNat)

end Sys2Proof.Machine
end

