-- ==== Sys2Proof/Machine/Alu.lean ====
section
/-! DEFINITION. The integer, logical, compare, move, address and group instructions of class ALU (spec/05_core_integer.md
R144-R166, R173-R176). -/

namespace Sys2Proof.Machine

/-! ### Values -/

/-- Ext of R153. -/
def ext32 (u : Bool) (w : Word) : Int := if u then w.toNat else w.toInt
/-- Ext64 of R153. -/
def ext64 (u : Bool) (w : DWord) : Int := if u then w.toNat else w.toInt
/-- The low n bits of an exact integer, saturated once when SAT is set (R154). -/
def narrow (n : Nat) (sat u : Bool) (x : Int) : BitVec n := BitVec.ofInt n (if sat then saturate x n (!u) else x)

/-- The shift amount of R157 and R158. -/
def shAmount (w : Bool) (b : Word) : Nat := if w then b.toNat % 32 else min b.toNat 32
def shlVal (a : Word) (n : Nat) : Word := BitVec.ofNat 32 (a.toNat * 2 ^ n)
def shrVal (a : Word) (n : Nat) : Word := BitVec.ofNat 32 (a.toNat / 2 ^ n)
def sarVal (a : Word) (n : Nat) : Word := BitVec.ofInt 32 (a.toInt / (2 ^ n : Nat))
/-- SHF (R158): `lo` is g(A), `hi` is opB. -/
def shfVal (left : Bool) (lo hi : Word) (n : Nat) : Word :=
  let v : DWord := hi ++ lo
  if left then (v <<< n).extractLsb' 32 32 else (v >>> n).extractLsb' 0 32
/-- BFX (R159). -/
def bfxVal (u : Bool) (a b : Word) : Word :=
  let pos := b.toNat % 256
  let len := min (b.toNat / 256 % 256) 32
  let v := ext32 u a / (2 ^ pos : Nat)
  if len == 0 then 0
  else if u then BitVec.ofInt 32 (v % (2 ^ len : Nat))
  else BitVec.ofInt 32 (sext (BitVec.ofInt 32 v).toNat len)
/-- BFI (R159): insert a into c. -/
def bfiVal (a b c : Word) : Word :=
  let pos := b.toNat % 256
  let len := min (b.toNat / 256 % 256) 32
  let mask : Word := BitVec.ofNat 32 ((2 ^ len - 1) * 2 ^ pos)
  (c &&& ~~~mask) ||| (BitVec.ofNat 32 (a.toNat * 2 ^ pos) &&& mask)
def boolBit (b : Bool) (i : Nat) : Nat := if b then 2 ^ i else 0
/-- Build a word bit by bit. -/
def wordOf (f : Nat → Bool) : Word := BitVec.ofNat 32 ((List.range 32).map fun i => boolBit (f i) i).sum
def logtVal (lut : Nat) (a b c : Word) : Word := wordOf fun i => lutBit lut (a.getLsbD i) (b.getLsbD i) (c.getLsbD i)
def popcVal (a : Word) : Nat := ((List.range 32).filter fun i => a.getLsbD i).length
def ctzVal (a : Word) : Nat := ((List.range 32).find? fun i => a.getLsbD i).getD 32
def clzVal (a : Word) : Nat := ((List.range 32).find? fun i => a.getLsbD (31 - i)).getD 32
def brevVal (a : Word) : Word := wordOf fun i => a.getLsbD (31 - i)
/-- PRMB (R160). -/
def prmbVal (a b c : Word) : Word :=
  let v := b.toNat * 2 ^ 32 + a.toNat
  BitVec.ofNat 32 ((List.range 4).map fun i =>
    let n := bits c.toNat (4 * i + 3) (4 * i)
    let x := v / 2 ^ (8 * (n % 8)) % 256
    (if 8 ≤ n then (if 128 ≤ x then 255 else 0) else x) * 2 ^ (8 * i)).sum
/-- Width of an integer type code (R166). -/
def intWidth (t : Nat) : Nat := 8 * 2 ^ (t % 4)
/-- A value of an integer type from the low bits of a 64-bit source (R166). -/
def intOf (t : Nat) (v : Nat) : Int := if t < 4 then sext v (intWidth t) else (v % 2 ^ intWidth t : Nat)
/-- A result of an integer type as a register or a pair holds it (R166). -/
def intReg (t : Nat) (x : Int) : DWord :=
  BitVec.ofInt 64 (if t < 4 then sext (BitVec.ofInt 64 x).toNat (intWidth t)
    else ((BitVec.ofInt 64 x).toNat % 2 ^ intWidth t : Nat))
/-- Write a result of an integer type: a pair for the 64-bit types. -/
def setInt (t : Thread) (d : BitVec 8) (ty : Nat) (x : Int) : Thread :=
  if intWidth ty == 64 then t.setReg64 d.toNat (intReg ty x) else t.setReg d.toNat ((intReg ty x).setWidth 32)
/-- Read a source of an integer type. -/
def Env.intSrc (e : Env) (a : BitVec 8) (ty : Nat) : Int :=
  intOf ty (if intWidth ty == 64 then (e.r64 a).toNat else (e.r a).toNat)

/-! ### Shapes shared by the meanings -/

/-- Format A, one 32-bit result of g(A), opB and g(C). -/
def alu3 (i : Instr) (f : FA) (v : Word → Word → Word → Word) (s : State) : Out :=
  issueAlu i f.pred f.pneg (fun e t => t.setReg f.d.toNat (v (e.r f.a) (e.opB f) (e.r f.c))) s
/-- Format A, one 32-bit result of g(A) and opB. -/
def alu2 (i : Instr) (f : FA) (v : Word → Word → Word) (s : State) : Out :=
  issueAlu i f.pred f.pneg (fun e t => t.setReg f.d.toNat (v (e.r f.a) (e.opB f))) s
/-- Format A, one 32-bit result of g(A). -/
def alu1 (i : Instr) (f : FA) (v : Word → Word) (s : State) : Out :=
  issueAlu i f.pred f.pneg (fun e t => t.setReg f.d.toNat (v (e.r f.a))) s
/-- Format I, one 32-bit result of g(A) and IMM32. -/
def aluI (i : Instr) (f : FI) (v : Word → Word → Word) (s : State) : Out :=
  issueAlu i f.pred f.pneg (fun e t => t.setReg f.d.toNat (v (e.r f.a) f.imm)) s

def addVal (sat u : Bool) (a b : Word) : Word := narrow 32 sat u (ext32 u a + ext32 u b)
def subVal (sat u : Bool) (a b : Word) : Word := narrow 32 sat u (ext32 u a - ext32 u b)
def mulVal (sat u : Bool) (a b : Word) : Word := narrow 32 sat u (ext32 u a * ext32 u b)
def minVal (u : Bool) (a b : Word) : Word := narrow 32 false u (min (ext32 u a) (ext32 u b))
def maxVal (u : Bool) (a b : Word) : Word := narrow 32 false u (max (ext32 u a) (ext32 u b))
def mulhiVal (u : Bool) (a b : Word) : Word := narrow 32 false u (ext32 u a * ext32 u b / (2 ^ 32 : Nat))
def madVal (sat u : Bool) (a b c : Word) : Word := narrow 32 sat u (ext32 u a * ext32 u b + ext32 u c)
def madwVal (sat u : Bool) (a b : Word) (c : DWord) : DWord := narrow 64 sat u (ext32 u a * ext32 u b + ext64 u c)
def add64Val (sat u : Bool) (a b : DWord) : DWord := narrow 64 sat u (ext64 u a + ext64 u b)
def sub64Val (sat u : Bool) (a b : DWord) : DWord := narrow 64 sat u (ext64 u a - ext64 u b)
def absVal (sat : Bool) (a : Word) : Word := narrow 32 sat false a.toInt.natAbs
def negVal (sat : Bool) (a : Word) : Word := narrow 32 sat false (-a.toInt)

/-! ### Meanings -/

/-- NOP: no effect beyond its issue (R164). -/
def execNop (f : FA) (s : State) : Out := issueAlu (.nop f) f.pred f.pneg (fun _ t => t) s
/-- MOV (R164). -/
def execMov (f : FA) (s : State) : Out :=
  issueAlu (.mov f) f.pred f.pneg
    (fun e t => if f.mb 0 then t.setReg64 f.d.toNat (e.r64 f.a) else t.setReg f.d.toNat (e.r f.a)) s
/-- MOVI (R164). -/
def execMovi (f : FI) (s : State) : Out := issueAlu (.movi f) f.pred f.pneg (fun _ t => t.setReg f.d.toNat f.imm) s
/-- MOVK (R164). -/
def execMovk (f : FA) (s : State) : Out :=
  issueAlu (.movk f) f.pred f.pneg (fun e t => t.setReg f.d.toNat (e.k.kreg f.b.toNat)) s
/-- IADD (R154). -/
def execIadd (f : FA) (s : State) : Out := alu2 (.iadd f) f (addVal (f.mb 1) (f.mb 0)) s
def execIaddI (f : FI) (s : State) : Out := aluI (.iaddI f) f (addVal (f.mb 1) (f.mb 0)) s
/-- ISUB (R154). -/
def execIsub (f : FA) (s : State) : Out := alu2 (.isub f) f (subVal (f.mb 1) (f.mb 0)) s
def execIsubI (f : FI) (s : State) : Out := aluI (.isubI f) f (subVal (f.mb 1) (f.mb 0)) s
/-- IMUL (R154). -/
def execImul (f : FA) (s : State) : Out := alu2 (.imul f) f (mulVal (f.mb 1) (f.mb 0)) s
def execImulI (f : FI) (s : State) : Out := aluI (.imulI f) f (mulVal (f.mb 1) (f.mb 0)) s
/-- IMULHI (R154). -/
def execImulhi (f : FA) (s : State) : Out := alu2 (.imulhi f) f (mulhiVal (f.mb 0)) s
/-- IMAD (R154). -/
def execImad (f : FA) (s : State) : Out := alu3 (.imad f) f (madVal (f.mb 1) (f.mb 0)) s
/-- IMADW (R154). -/
def execImadw (f : FA) (s : State) : Out :=
  issueAlu (.imadw f) f.pred f.pneg
    (fun e t => t.setReg64 f.d.toNat (madwVal (f.mb 1) (f.mb 0) (e.r f.a) (e.opB f) (e.r64 f.c))) s
/-- IADD64 (R154). -/
def execIadd64 (f : FA) (s : State) : Out :=
  issueAlu (.iadd64 f) f.pred f.pneg
    (fun e t => t.setReg64 f.d.toNat (add64Val (f.mb 1) (f.mb 0) (e.r64 f.a) (e.r64 f.b))) s
/-- ISUB64 (R154). -/
def execIsub64 (f : FA) (s : State) : Out :=
  issueAlu (.isub64 f) f.pred f.pneg
    (fun e t => t.setReg64 f.d.toNat (sub64Val (f.mb 1) (f.mb 0) (e.r64 f.a) (e.r64 f.b))) s
/-- IMIN (R154). -/
def execImin (f : FA) (s : State) : Out := alu2 (.imin f) f (minVal (f.mb 0)) s
def execIminI (f : FI) (s : State) : Out := aluI (.iminI f) f (minVal (f.mb 0)) s
/-- IMAX (R154). -/
def execImax (f : FA) (s : State) : Out := alu2 (.imax f) f (maxVal (f.mb 0)) s
def execImaxI (f : FI) (s : State) : Out := aluI (.imaxI f) f (maxVal (f.mb 0)) s
/-- IABS (R155). -/
def execIabs (f : FA) (s : State) : Out := alu1 (.iabs f) f (absVal (f.mb 1)) s
/-- INEG (R155). -/
def execIneg (f : FA) (s : State) : Out := alu1 (.ineg f) f (negVal (f.mb 1)) s
/-- LOGT (R156). -/
def execLogt (f : FA) (s : State) : Out := alu3 (.logt f) f (logtVal (f.mf 0 8)) s
/-- AND, OR, XOR, NOT (R156). -/
def execAnd (f : FA) (s : State) : Out := alu2 (.and f) f (fun a b => a &&& b) s
def execAndI (f : FI) (s : State) : Out := aluI (.andI f) f (fun a b => a &&& b) s
def execOr (f : FA) (s : State) : Out := alu2 (.or f) f (fun a b => a ||| b) s
def execOrI (f : FI) (s : State) : Out := aluI (.orI f) f (fun a b => a ||| b) s
def execXor (f : FA) (s : State) : Out := alu2 (.xor f) f (fun a b => a ^^^ b) s
def execXorI (f : FI) (s : State) : Out := aluI (.xorI f) f (fun a b => a ^^^ b) s
def execNot (f : FA) (s : State) : Out := alu1 (.not f) f (fun a => ~~~a) s
/-- SHL, SHR, SAR (R157). -/
def execShl (f : FA) (s : State) : Out := alu2 (.shl f) f (fun a b => shlVal a (shAmount (f.mb 0) b)) s
def execShlI (f : FI) (s : State) : Out := aluI (.shlI f) f (fun a b => shlVal a (shAmount (f.mb 0) b)) s
def execShr (f : FA) (s : State) : Out := alu2 (.shr f) f (fun a b => shrVal a (shAmount (f.mb 0) b)) s
def execShrI (f : FI) (s : State) : Out := aluI (.shrI f) f (fun a b => shrVal a (shAmount (f.mb 0) b)) s
def execSar (f : FA) (s : State) : Out := alu2 (.sar f) f (fun a b => sarVal a (shAmount (f.mb 0) b)) s
def execSarI (f : FI) (s : State) : Out := aluI (.sarI f) f (fun a b => sarVal a (shAmount (f.mb 0) b)) s
/-- SHF (R158). -/
def execShf (f : FA) (s : State) : Out :=
  alu3 (.shf f) f (fun a b c => shfVal (f.mb 0) a b (shAmount (f.mb 1) c)) s
/-- BFX, BFI (R159). -/
def execBfx (f : FA) (s : State) : Out := alu2 (.bfx f) f (bfxVal (f.mb 0)) s
def execBfi (f : FA) (s : State) : Out := alu3 (.bfi f) f bfiVal s
/-- POPC, CLZ, CTZ, BREV, PRMB (R160). -/
def execPopc (f : FA) (s : State) : Out := alu1 (.popc f) f (fun a => BitVec.ofNat 32 (popcVal a)) s
def execClz (f : FA) (s : State) : Out := alu1 (.clz f) f (fun a => BitVec.ofNat 32 (clzVal a)) s
def execCtz (f : FA) (s : State) : Out := alu1 (.ctz f) f (fun a => BitVec.ofNat 32 (ctzVal a)) s
def execBrev (f : FA) (s : State) : Out := alu1 (.brev f) f brevVal s
def execPrmb (f : FA) (s : State) : Out := alu3 (.prmb f) f prmbVal s
/-- ISET (R161). -/
def execIset (f : FA) (s : State) : Out :=
  issueAlu (.iset f) f.pred f.pneg (fun e t => setCmpA f e t (cmp32 (f.d.toNat / 16) (e.r f.a) (e.opB f))) s
def execIsetI (f : FI) (s : State) : Out :=
  issueAlu (.isetI f) f.pred f.pneg (fun e t => setCmpI f e t (cmp32 (f.d.toNat / 16) (e.r f.a) f.imm)) s
/-- ISET64 (R161). -/
def execIset64 (f : FA) (s : State) : Out :=
  issueAlu (.iset64 f) f.pred f.pneg (fun e t => setCmpA f e t (cmp64 (f.d.toNat / 16) (e.r64 f.a) (e.r64 f.b))) s
/-- SEL (R162). -/
def execSel (f : FA) (s : State) : Out :=
  issueAlu (.sel f) f.pred f.pneg
    (fun e t => t.setReg f.d.toNat (if e.th.predField f.c then e.r f.a else e.opB f)) s
/-- LEA, format A (R165). -/
def execLea (f : FA) (s : State) : Out :=
  issueAlu (.lea f) f.pred f.pneg (fun e t =>
    if f.mb 4 then
      t.setReg64 f.d.toNat (e.r64 f.a + BitVec.ofInt 64 (ext32 (!f.mb 3) (e.opB f) * (2 ^ f.mf 0 3 : Nat)))
    else t.setReg f.d.toNat (e.r f.a + BitVec.ofNat 32 ((e.opB f).toNat * 2 ^ f.mf 0 3))) s
/-- LEA, format I (R165). -/
def execLeaI (f : FI) (s : State) : Out :=
  issueAlu (.leaI f) f.pred f.pneg (fun e t =>
    if f.mb 0 then t.setReg64 f.d.toNat (e.r64 f.a + f.imm.signExtend 64)
    else t.setReg f.d.toNat (e.r f.a + f.imm)) s
/-- I2I (R166). -/
def execI2i (f : FA) (s : State) : Out :=
  issueAlu (.i2i f) f.pred f.pneg (fun e t =>
    let x := e.intSrc f.a (f.mf 0 4)
    let dt := f.mf 4 4
    setInt t f.d dt (if f.mb 8 then saturate x (intWidth dt) (decide (dt < 4)) else x)) s
/-- PLOP (R162). -/
def execPlop (f : FA) (s : State) : Out :=
  issueAlu (.plop f) f.pred f.pneg (fun e t =>
    t.setPred f.d.toNat (lutBit (f.mf 0 8) (e.th.predField f.a) (e.th.predField f.b) (e.th.predField f.c))) s
/-- PSET (R163). -/
def execPset (f : FA) (s : State) : Out :=
  issueAlu (.pset f) f.pred f.pneg (fun e t =>
    if f.mb 0 then
      let m : BitVec 7 := BitVec.ofNat 7 (f.mf 4 7)
      { t with preds := (t.preds &&& ~~~m) ||| ((e.r f.a).setWidth 7 &&& m) }
    else t.setReg f.d.toNat (e.th.preds.setWidth 32)) s

/-- sr.coreid (R146). -/
def coreIdWord (m : DieMap) (c : CoreRef) : Word :=
  BitVec.ofNat 4 c.die ++ BitVec.ofNat 4 (m.row c) ++ BitVec.ofNat 4 (m.col c) ++ BitVec.ofNat 5 (m.quad c) ++
    BitVec.ofNat 4 (m.mrow c) ++ BitVec.ofNat 7 (m.mcol c) ++ (0 : BitVec 4)
/-- IPRIO of a thread: a boost is taken with its launch priority (spec/08_core_sync.md R251, spec/10_distributor.md R283). -/
def Thread.iprio (t : Thread) : BitVec 7 :=
  match t.boost with
  | some b => if t.lprio.toNat < b.toNat then b else t.lprio
  | none => t.lprio
/-- sr.prio (R147). -/
def prioWord (t : Thread) : Word :=
  (0 : BitVec 17) ++ t.lprio ++ BitVec.ofBool t.boost.isSome ++ t.iprio
/-- A system register (R145). -/
def Env.sysReg (e : Env) (n : Nat) : Word :=
  let k := e.k
  match n with
  | 0x00 => BitVec.ofNat 32 e.pos
  | 0x01 => laneMask e.g.lanes
  | 0x02 => BitVec.ofNat 32 (e.tl % k.nx)
  | 0x03 => BitVec.ofNat 32 (e.tl / k.nx % k.ny)
  | 0x04 => BitVec.ofNat 32 (e.tl / (k.nx * k.ny))
  | 0x05 => BitVec.ofNat 32 e.tl
  | 0x06 => BitVec.ofNat 32 k.nx
  | 0x07 => BitVec.ofNat 32 k.ny
  | 0x08 => BitVec.ofNat 32 k.nz
  | 0x09 => BitVec.ofNat 32 k.num
  | 0x0A => BitVec.ofNat 32 k.nblk
  | 0x0B => coreIdWord e.s0.dieMap k.core
  | 0x0C => e.g.pass
  | 0x0D => prioWord e.th
  | 0x0E => BitVec.ofNat 32 k.launch
  | 0x0F => BitVec.ofNat 32 k.ctx
  | 0x10 => BitVec.ofNat 32 k.stage
  | 0x11 => if e.s0.blockFixed k then 1 else 0
  | 0x12 => match e.s0.launch k.launch with
    | some l => BitVec.ofNat 32 l.profile
    | none => 0
  | _ => 0
/-- SRD (R145). -/
def execSrd (f : FA) (s : State) : Out :=
  issueAlu (.srd f) f.pred f.pneg (fun e t => t.setReg f.d.toNat (e.sysReg (f.mf 0 8))) s
/-- CYC (R148). -/
def execCyc (f : FA) (s : State) : Out :=
  issueAlu (.cyc f) f.pred f.pneg (fun e t =>
    t.setReg64 f.d.toNat (BitVec.ofNat 64 (if f.mb 0 then e.s0.clock.ns else (e.s0.quad e.k.core).cyc))) s

/-- GPOLL (R174). -/
def execGpoll (f : FA) (s : State) : Out :=
  issueAlu (.gpoll f) f.pred f.pneg (fun e t =>
    let v := fun (p : Nat × Nat) => (e.k.thread p.2).predField f.a
    match f.mf 0 2 with
    | 0 => t.setReg f.d.toNat (laneMask (e.parts.filter v))
    | 1 => t.setPred f.d.toNat (e.parts.all v)
    | 2 => t.setPred f.d.toNat (e.parts.any v)
    | _ => t.setPred f.d.toNat (e.parts.all v || !(e.parts.any v))) s
/-- The source position of GXCH, if it lies in the segment (R175). -/
def gxchPos (mode w i b : Nat) : Option Nat :=
  let base := i - i % w
  let src : Int := match mode with
    | 0 => ((base + b % w : Nat) : Int)
    | 1 => (i : Int) - (b : Int)
    | 2 => (i : Int) + (b : Int)
    | _ => ((base + ((i % w) ^^^ (b % w)) : Nat) : Int)
  if (base : Int) ≤ src ∧ src < (base : Int) + (w : Int) then some src.toNat else none
/-- GXCH (R175). -/
def execGxch (f : FA) (s : State) : Out :=
  issueAlu (.gxch f) f.pred f.pneg (fun e t =>
    let src := (gxchPos (f.mf 0 2) (32 / 2 ^ f.mf 2 3) e.pos (e.opB f).toNat).bind fun n => e.parts.find? fun p => p.1 == n
    t.setReg f.d.toNat (match src with
      | some p => (e.k.thread p.2).reg e.ctr p.2 f.a.toNat
      | none => e.r f.a)) s
/-- GPEER (R176). -/
def execGpeer (f : FA) (s : State) : Out :=
  issueAlu (.gpeer f) f.pred f.pneg (fun e t =>
    let v := fun (tl : Nat) => if f.mb 1 then (e.k.thread tl).reg64 e.ctr tl f.a.toNat
      else ((e.k.thread tl).reg e.ctr tl f.a.toNat).setWidth 64
    let m := e.parts.filter fun p => v p.2 == v e.tl
    t.setReg f.d.toNat (if f.mb 0 then (if m.length == e.parts.length then laneMask m else 0) else laneMask m)) s

end Sys2Proof.Machine
end

