-- ==== Sys2Proof/Machine/Control.lean ====
section
/-! DEFINITION. Control flow, join barriers, EXIT and YIELD (spec/05_core_integer.md R167-R172, spec/02_execution.md R46, R47). -/

namespace Sys2Proof.Machine

/-- The direct target of a branch (spec/04_encoding.md R112). -/
def branchTarget (hdr : DWord) (off : BitVec 32) : DWord := hdr + BitVec.ofInt 64 (8 * off.toInt)

/-- What the check of an indirect target finds (R168). -/
inductive Target where
  | ok
  | illegal
  /-- the fetch waits for a moving page (spec/07_core_memory.md R217) -/
  | wait
  deriving DecidableEq, Repr

/-- Check an indirect target on its fetched word; a fetch that faults is reported at the target (R168). -/
def State.target (s : State) (k : Block) (t : DWord) : Target × State :=
  if t.toNat % 8 != 0 then (.illegal, s) else
    match s.fetchWord k.core k.ctx (((s.launch k.launch).map (·.reloc)).getD []) t with
    | (none, s) => (.wait, s)
    | (some (.error _), s) => (.ok, s)
    | (some (.ok w), s) => (if isHeader w then .ok else .illegal, s)

/-- Continue at t if it passes the check of R168. -/
def Env.jump (e : Env) (s : State) (t : DWord) (f : Thread → Thread) : LaneOut :=
  match s.target e.k t with
  | (.ok, s) => (e.upd s fun th => { f th with pc := t }, none)
  | (.illegal, s) => (s, some (.trap cIllegalTarget 0 t false false))
  | (.wait, s) => (s, some .hold)

/-- BRA (R168). -/
def execBra (f : FB) (s : State) : Out :=
  issueAlu (.bra f) f.pred f.pneg (fun e t => { t with pc := branchTarget e.g.hdr f.off }) s
/-- BRX (R168). -/
def execBrx (f : FB) (s : State) : Out :=
  issue (.brx f) f.pred f.pneg none (fun e s => e.jump s (e.r64 f.a) id) s
/-- CALL (R169). -/
def execCall (f : FB) (s : State) : Out :=
  issue (.call f) f.pred f.pneg none (fun e s =>
    let link := clauseNext e.g.hdr e.g.head
    if f.md.getLsbD 0 then e.jump s (e.r64 f.a) fun t => t.setReg64 f.a.toNat link
    else (e.upd s fun t => { t.setReg64 f.a.toNat link with pc := branchTarget e.g.hdr f.off }, none)) s
/-- RET (R169). -/
def execRet (f : FB) (s : State) : Out :=
  issue (.ret f) f.pred f.pneg none (fun e s => e.jump s (e.r64 f.a) id) s

/-- An arrival that the thread has begun at a scoped barrier is not yet counted: its release part is not performed
(spec/03_memory_model.md R94, spec/08_core_sync.md R235). -/
def State.arriving (s : State) (b tl : Nat) : Bool :=
  s.fences.any fun (f : Fence) => match f.who with
    | .barrier x y _ _ _ => x == b && y == tl
    | _ => false
/-- A thread at an EXIT ends once its slots are idle, its arrivals are counted and its stores commit; a fault found traps at the EXIT
(R170; spec/08_core_sync.md R235). -/
def State.tryExit (s : State) (b tl : Nat) : State :=
  let t := s.thread b tl
  match t.status with
  | .exiting =>
    if !t.idle || s.arriving b tl then s else
      match s.commitThread b tl with
      | (s, false) => s
      | (s, true) =>
        match (s.thread b tl).pendSf with
        | some (va, _, d) => s.takeTrap b tl ⟨cWriteProtect, d, t.pc, t.pc, t.hdr, va, true, false, false, t.pos⟩
        | none => s.endThread b tl
  | _ => s
/-- EXIT (R170). -/
def execExit (f : FB) (s : State) : Out :=
  issue (.exit f) f.pred f.pneg none (fun e s =>
    if !(s.thread e.k.id e.tl).idle || s.arriving e.k.id e.tl then
      (e.upd s fun t => { t with status := .exiting, pc := e.iaddr, hdr := e.g.hdr }, none)
    else
      match s.commitThread e.k.id e.tl with
      | (s, false) => (s, some .hold)
      | (s, true) =>
        match (s.thread e.k.id e.tl).pendSf with
        | some (va, _, d) => (s, some (.trap cWriteProtect d va false true))
        | none => (s.endThread e.k.id e.tl, none)) s

/-- JSET (spec/02_execution.md R46): one new barrier of the participants; an older one that any of them holds is discarded, and
those that had arrived at it are released with their own FIDs. -/
def Block.jset (k : Block) (j : Nat) (parts : List Nat) (g : Thread) (cyc : Nat) : Block :=
  let old := k.joins.filter fun b => b.j == j && b.expected.any fun t => parts.contains t
  { k with
    joins := (k.joins.filter fun b => !(old.contains b)) ++ (if parts.isEmpty then [] else [⟨j, parts, [], g.fid, g.parent, g.sib⟩])
    threads := k.threads.zipIdx.map fun p =>
      if old.any fun b => b.arrived.contains p.2 then
        match p.1.status with
        | .waiting (.jwait i) => if i == j then p.1.resume cyc else p.1
        | _ => p.1
      else p.1 }
/-- JSET j (R171). -/
def execJset (f : FB) (s : State) : Out :=
  issue (.jset f) f.pred f.pneg none (fun e s =>
    match e.parts with
    | p :: _ => if p.2 == e.tl then
        (s.modBlock e.k.id fun k => k.jset f.j.toNat (e.parts.map (·.2)) e.th (s.quad e.k.core).cyc, none) else (s, none)
    | [] => (s, none)) s

/-- A thread arrives at join barrier j, if it is expected there and has not arrived (spec/02_execution.md R47). -/
def Block.jarrive (k : Block) (j tl : Nat) : Block :=
  { k with joins := k.joins.map fun b =>
      if b.j == j && b.expected.contains tl && !b.arrived.contains tl then { b with arrived := b.arrived ++ [tl] } else b }
/-- The thread is in the expected set of a barrier j. -/
def Block.jexpects (k : Block) (j tl : Nat) : Bool := k.joins.any fun b => b.j == j && b.expected.contains tl
/-- JWAIT j (R171). -/
def execJwait (f : FB) (s : State) : Out :=
  match issue (.jwait f) f.pred f.pneg none (fun e s =>
    if e.k.jexpects f.j.toNat e.tl then
      ((e.block s (.jwait f.j.toNat)).modBlock e.k.id fun k => k.jarrive f.j.toNat e.tl, none)
    else (s, none)) s with
  | .next t => .next (match s.opens with
    | .grp g :: _ => t.joinCheck g.blk
    | _ => t)
  | o => o

/-- The core of a block is being drained of the block's context (spec/10_distributor.md R296). -/
def State.draining (s : State) (k : Block) : Bool :=
  let c := s.core k.core
  c.drain != 0 && (match s.launch c.drainLaunch with
    | some l => l.ctx == k.ctx
    | none => false)
/-- A block may run: it is resident, and its quad is neither stopped nor between two clocks; a fixed-timing block needs the pinned clock
(spec/10_distributor.md R295; spec/21_power.md R512). -/
def State.mayRun (s : State) (k : Block) : Bool :=
  !k.saved && !k.relaunch &&
    !((tget s.power.quads (s.quadKeyOf k.core)).map (·.stopped)).getD false &&
    (match (s.quad k.core).clock with
      | .elastic => !s.blockFixed k
      | .pinned => true
      | _ => false)
/-- A block may start clauses: its core is not drained for a save (spec/10_distributor.md R296). -/
def State.mayIssue (s : State) (k : Block) : Bool := s.mayRun k && !s.draining k
/-- The acquire rule of R225: a class whose clauses wait for the thread's acquiring accesses. -/
def Cls.waitsAcquire : Cls → Bool
  | .alu => false
  | .sys => false
  | .seq => false
  | _ => true
/-- A thread may be packed for a clause with header h (spec/02_execution.md R32, spec/04_encoding.md R103, spec/07_core_memory.md
R225). -/
def Thread.qualifies (t : Thread) (h : Header) (cyc : Nat) : Bool :=
  t.ops.all (fun o => !h.sbwait.getLsbD o.slot) &&
    (h.stall == 0 || t.stallDone || t.clauseEnd + h.stall ≤ cyc) &&
    (!Cls.waitsAcquire h.cls || !t.acquiring)
/-- The thread's pending store fault is to be reported at the header at which it stands (spec/09_core_traps.md R261). -/
def Thread.faultsHere (t : Thread) : Bool := t.pendSf.isSome && t.pc == t.hdr
/-- A thread stands ready for its next clause, or its header traps (spec/02_execution.md R32). -/
def State.canIssue (s : State) (k : Block) (tl : Nat) : Bool :=
  let t := k.thread tl
  t.status.isReady && s.mayIssue k && (t.fails.2 < 64) &&
    (t.faultsHere ||
      (match (s.fetchWord k.core k.ctx (((s.launch k.launch).map (·.reloc)).getD []) t.hdr).1 with
        | none => false
        | some (.error _) => true
        | some (.ok w) => !isHeader w || (match decodeHeader w with
          | none => true
          | some h => t.qualifies h (s.quad k.core).cyc)))
/-- What takes effect at a thread's next clause boundary does (spec/08_core_sync.md R251, spec/10_distributor.md R283). -/
def Thread.bounded (t : Thread) : Thread :=
  { t with
    lprio := t.lprioNew.getD t.lprio
    lprioNew := none
    boost := t.boostNew.orElse fun _ => t.boost
    boostNew := none }
/-- The issue priority of a thread's next clause. -/
def Thread.nextPrio (t : Thread) : Nat := t.bounded.iprio.toNat
/-- The other threads of the core that are ready with equal or higher priority, the yielding group left out (R171). -/
def State.yieldOthers (s : State) (e : Env) : List (Nat × Nat) :=
  ((s.blocks.filter fun k => k.core == e.k.core).map fun k =>
    (k.threads.zipIdx.filter fun p => s.canIssue k p.2 && e.th.iprio.toNat ≤ p.1.nextPrio &&
      !(k.id == e.k.id && e.g.lanes.any fun l => l.2 == p.2)).map fun p => (k.id, p.2)).flatten
/-- YIELD (R171). -/
def execYield (f : FB) (s : State) : Out :=
  issue (.yield f) f.pred f.pneg none (fun e s =>
    let o := e.s0.yieldOthers e
    if o.isEmpty then (s, none)
    else
      let cyc := (s.quad e.k.core).cyc
      let s := e.upd s fun t => { t.goto (clauseNext e.g.hdr e.g.head) cyc with status := .yielded o, waitSeq := s.nextId, waitFrom := cyc }
      (s, none)) s
/-- A yielding thread is ready again: every other thread has issued since, or is not ready any more (R171). -/
def State.yieldOver (s : State) (t : Thread) (o : List (Nat × Nat)) : Bool :=
  o.all fun p => let u := s.thread p.1 p.2; !u.status.isReady || t.waitSeq ≤ u.lastIssue

end Sys2Proof.Machine
end

