-- ==== Sys2Proof/Machine/Fp.lean ====
section
/-! DEFINITION. Number formats, exact values and rounding (spec/06_core_float.md R177-R188, R202). -/

namespace Sys2Proof.Machine

/-- A binary format (R177): exponent and fraction widths; `kind` 0 is IEEE, 1 FP8-E4M3, 2 FP4-E2M1. -/
structure Fmt where
  ew : Nat
  fw : Nat
  kind : Nat
  deriving DecidableEq, Repr

def fp64 : Fmt := ⟨11, 52, 0⟩
def fp32 : Fmt := ⟨8, 23, 0⟩
def fp16 : Fmt := ⟨5, 10, 0⟩
def bf16 : Fmt := ⟨8, 7, 0⟩
def e4m3 : Fmt := ⟨4, 3, 1⟩
def e5m2 : Fmt := ⟨5, 2, 0⟩
def e2m1 : Fmt := ⟨2, 1, 2⟩
/-- Float type codes (R191). -/
def fmtOf (t : Nat) : Fmt :=
  match t with
  | 0 => fp32
  | 1 => fp64
  | 2 => fp16
  | 3 => bf16
  | 4 => e4m3
  | 5 => e5m2
  | _ => e2m1
def Fmt.bias (f : Fmt) : Int := (2 ^ (f.ew - 1) : Nat) - 1
def Fmt.width (f : Fmt) : Nat := 1 + f.ew + f.fw
/-- The exponent of the smallest normal. -/
def Fmt.emin (f : Fmt) : Int := 1 - f.bias
/-- The bits of the largest finite magnitude. -/
def Fmt.maxBits (f : Fmt) : Nat :=
  match f.kind with
  | 0 => (2 ^ f.ew - 1) * 2 ^ f.fw - 1
  | 1 => 0x7E
  | _ => 0x7

/-- A value of a format. -/
inductive Fv where
  | nan (neg : Bool) (frac : Nat)
  | inf (neg : Bool)
  /-- (-1)^neg * m * 2^e -/
  | fin (neg : Bool) (m : Nat) (e : Int)
  deriving DecidableEq, Repr

/-- The value of a bit pattern (R177). -/
def fpDec (f : Fmt) (v : Nat) : Fv :=
  let neg := bit v (f.ew + f.fw)
  let e := v / 2 ^ f.fw % 2 ^ f.ew
  let m := v % 2 ^ f.fw
  if e == 2 ^ f.ew - 1 && f.kind == 0 then (if m == 0 then .inf neg else .nan neg m)
  else if e == 2 ^ f.ew - 1 && f.kind == 1 && m == 7 then .nan neg m
  else if e == 0 then .fin neg m (f.emin - f.fw)
  else .fin neg (m + 2 ^ f.fw) ((e : Int) - f.bias - f.fw)

def Fv.isNan : Fv → Bool
  | .nan _ _ => true
  | _ => false
def Fv.isZero : Fv → Bool
  | .fin _ 0 _ => true
  | _ => false
def Fv.neg : Fv → Bool
  | .nan n _ => n
  | .inf n => n
  | .fin n _ _ => n
def Fv.setNeg (b : Bool) : Fv → Fv
  | .nan _ f => .nan b f
  | .inf _ => .inf b
  | .fin _ m e => .fin b m e
/-- The operand modifiers of R190: absolute value, then negation. -/
def Fv.modify (ng ab : Bool) (v : Fv) : Fv :=
  let v := if ab then v.setNeg false else v
  if ng then v.setNeg (!v.neg) else v
/-- A subnormal of the format. -/
def Fv.subnormal (f : Fmt) : Fv → Bool
  | .fin _ m e => m != 0 && decide (m < 2 ^ f.fw) && e == f.emin - f.fw
  | _ => false

def signBit (f : Fmt) (neg : Bool) : Nat := if neg then 2 ^ (f.ew + f.fw) else 0
/-- Infinity, or the largest magnitude in a format without one (R183). -/
def fpInf (f : Fmt) (neg : Bool) : Nat := signBit f neg + (if f.kind == 0 then (2 ^ f.ew - 1) * 2 ^ f.fw else f.maxBits)
/-- The canonical NaN (R178). -/
def fpQnan (f : Fmt) : Nat := if f.kind == 0 then (2 ^ f.ew - 1) * 2 ^ f.fw + 2 ^ (f.fw - 1) else 0x7F

/-- Rounding directions; `sr r` is stochastic with 16 random bits (R183, R184). -/
inductive Rnd where
  | rn
  | rz
  | ru
  | rd
  | sr (r : Nat)
  deriving DecidableEq, Repr
def rndOf (n : Nat) : Rnd :=
  match n with
  | 0 => .rn
  | 1 => .rz
  | 2 => .ru
  | _ => .rd

/-- n / d * 2^k as a fraction. -/
def scaled (n d : Nat) (k : Int) : Nat × Nat := if 0 ≤ k then (n * 2 ^ k.toNat, d) else (n, d * 2 ^ (-k).toNat)
/-- Round the fraction a / b to an integer. -/
def roundQ (r : Rnd) (neg : Bool) (a b : Nat) : Nat :=
  let i := a / b
  let rem := a % b
  let up := match r with
    | .rn => decide (b < 2 * rem) || (2 * rem == b && i % 2 == 1)
    | .rz => false
    | .ru => !neg && rem != 0
    | .rd => neg && rem != 0
    | .sr k => decide (k < rem * 65536 / b)
  if up then i + 1 else i
/-- floor(log2 (n / d)) for positive n, d. -/
def log2Q (n d : Nat) : Int :=
  let l : Int := (Nat.log2 n : Int) - Nat.log2 d
  let s := scaled n d (-l)
  if s.2 ≤ s.1 then l else l - 1
/-- Round a magnitude n / d * 2^e with fw fraction bits and least exponent lo (none: unbounded): integer and exponent of its ulp. -/
def roundMag (fw : Nat) (lo : Option Int) (r : Rnd) (neg : Bool) (n d : Nat) (e : Int) : Nat × Int :=
  let k := log2Q n d + e
  let u := match lo with
    | some l => max (k - fw) (l - fw)
    | none => k - fw
  let s := scaled n d (e - u)
  (roundQ r neg s.1 s.2, u)

/-- Round(x, f, r) for x = (-1)^neg * n / d * 2^e, d positive, with the flush of results when `flush` is set (R183, R184, R187). -/
def roundFp (f : Fmt) (r : Rnd) (flush : Bool) (neg : Bool) (n d : Nat) (e : Int) : Nat :=
  if n == 0 then signBit f neg else
    let ub := roundMag f.fw none r neg n d e
    if flush && decide (log2Q ub.1 1 + ub.2 < f.emin) then signBit f neg else
      let q := roundMag f.fw (some f.emin) r neg n d e
      let q := if q.1 == 2 ^ (f.fw + 1) then (2 ^ f.fw, q.2 + 1) else q
      let mag : Nat := if q.1 < 2 ^ f.fw then q.1 else ((q.2 + f.fw + f.bias).toNat) * 2 ^ f.fw + (q.1 - 2 ^ f.fw)
      if f.maxBits < mag then
        let toInf := match r with
          | .rn => true
          | .rz => false
          | .ru => !neg
          | .rd => neg
          | .sr _ => true
        if toInf then fpInf f neg else signBit f neg + f.maxBits
      else signBit f neg + mag

/-! ### Profiles (R187): 0 native, 1 L9, 2 L10, 3 L11 -/

/-- The profile flushes subnormals of a format. -/
def flushes (prof : Nat) (f : Fmt) : Bool :=
  if f == fp32 || f == bf16 then decide (1 ≤ prof) && decide (prof ≤ 3)
  else if f == fp16 then prof == 1 || prof == 2 else false
/-- Flush an operand. -/
def flushIn (prof : Nat) (f : Fmt) (v : Fv) : Fv :=
  if flushes prof f && v.subnormal f then .fin v.neg 0 (f.emin - f.fw) else v
/-- A NaN result of format f from a NaN of format src, by R185 or by the profile. -/
def nanTo (prof : Nat) (src f : Fmt) (neg : Bool) (frac : Nat) : Nat :=
  if prof == 1 && (f == fp32 || f == fp16 || f == bf16) then 2 ^ (f.ew + f.fw) - 1
  else if f.kind == 1 then signBit f neg + 0x7F
  else
    let fr := if src.fw ≤ f.fw then frac * 2 ^ (f.fw - src.fw) else frac / 2 ^ (src.fw - f.fw)
    signBit f neg + (2 ^ f.ew - 1) * 2 ^ f.fw + (if bit fr (f.fw - 1) then fr else fr + 2 ^ (f.fw - 1))
/-- The canonical NaN, or the profile's. -/
def badNan (prof : Nat) (f : Fmt) : Nat :=
  if prof == 1 && (f == fp32 || f == fp16 || f == bf16) then 2 ^ (f.ew + f.fw) - 1 else fpQnan f

/-- An addend of a sum: an exact value, an infinity, or the result of an invalid product. -/
inductive Term where
  | fin (neg : Bool) (m : Nat) (e : Int)
  | inf (neg : Bool)
  | bad
  deriving DecidableEq, Repr

def Fv.term : Fv → Term
  | .fin n m e => .fin n m e
  | .inf n => .inf n
  | .nan _ _ => .bad
/-- The zero rule decides the product (R187). -/
def zeroRules (zr : Bool) (a b : Fv) : Bool := zr && (a.isZero || b.isZero)
/-- A product, exact; under the zero rule a zero factor gives a zero (R187). -/
def prodTerm (zr : Bool) (a b : Fv) : Term :=
  let n := a.neg != b.neg
  if zeroRules zr a b then .fin n 0 0 else
    match a, b with
    | .fin _ m e, .fin _ m2 e2 => .fin n (m * m2) (e + e2)
    | .inf _, .fin _ m _ => if m == 0 then .bad else .inf n
    | .fin _ m _, .inf _ => if m == 0 then .bad else .inf n
    | .inf _, .inf _ => .inf n
    | _, _ => .bad
/-- The exact sum of finite addends: signed integer and exponent. -/
def exactSum (l : List (Bool × Nat × Int)) : Int × Int :=
  let e := (l.map (fun t => t.2.2)).foldl min ((l.map (fun t => t.2.2)).headD 0)
  ((l.map fun t => (if t.1 then -1 else 1 : Int) * ((t.2.1 * 2 ^ (t.2.2 - e).toNat : Nat) : Int)).sum, e)
/-- Round the sum of terms to format f (R183, R185, R186, R187); `rd` says that the direction is towards minus infinity. -/
def roundSum (f : Fmt) (prof : Nat) (r : Rnd) (ts : List Term) : Nat :=
  if ts.any (fun t => t == .bad) then badNan prof f
  else if ts.contains (.inf true) then (if ts.contains (.inf false) then badNan prof f else fpInf f true)
  else if ts.contains (.inf false) then fpInf f false
  else
    let fs := ts.filterMap fun t => match t with
      | .fin n m e => some (n, m, e)
      | _ => none
    let x := exactSum fs
    if x.1 == 0 then
      if fs.all (fun t => t.2.1 == 0 && t.1) then signBit f true
      else if fs.all (fun t => t.2.1 == 0 && !t.1) then signBit f false
      else signBit f (r == .rd)
    else roundFp f r (flushes prof f) (decide (x.1 < 0)) x.1.natAbs 1 x.2
/-- The first NaN of a list of (format, value), as a result of format f (R185). -/
def firstNan (prof : Nat) (f : Fmt) (l : List (Fmt × Fv)) : Option Nat :=
  l.findSome? fun p => match p.2 with
    | .nan n fr => some (nanTo prof p.1 f n fr)
    | _ => none

/-- a * b + c in one rounding (R193); the NaNs of a zero-rule product are not seen. -/
def fmaBits (f : Fmt) (prof : Nat) (r : Rnd) (zr : Bool) (a b c : Fv) : Nat :=
  match firstNan prof f (if zeroRules zr a b then [(f, c)] else [(f, a), (f, b), (f, c)]) with
  | some v => v
  | none => roundSum f prof r [prodTerm zr a b, c.term]
/-- a * b (R193). -/
def mulBits (f : Fmt) (prof : Nat) (r : Rnd) (zr : Bool) (a b : Fv) : Nat :=
  match firstNan prof f (if zeroRules zr a b then [] else [(f, a), (f, b)]) with
  | some v => v
  | none => match prodTerm zr a b with
    | .fin n m e => if m == 0 then signBit f n else roundFp f r (flushes prof f) n m 1 e
    | .inf n => fpInf f n
    | .bad => badNan prof f
/-- a + b (R193). -/
def addBits (f : Fmt) (prof : Nat) (r : Rnd) (a b : Fv) : Nat :=
  match firstNan prof f [(f, a), (f, b)] with
  | some v => v
  | none => roundSum f prof r [a.term, b.term]

/-- Clamp01 (R194). -/
def clamp01 (f : Fmt) (v : Nat) : Nat :=
  match fpDec f v with
  | .nan _ _ => 0
  | .inf n => if n then 0 else roundFp f .rn false false 1 1 0
  | .fin n m e => if n || m == 0 then 0
    else if 0 ≤ log2Q m 1 + e then roundFp f .rn false false 1 1 0 else v

/-- Order of finite or infinite values as a key for comparison: sign, and exact comparison. -/
def fvLt (a b : Fv) : Bool :=
  match a, b with
  | .inf n, .inf m => n && !m
  | .inf n, _ => n
  | _, .inf m => !m
  | .fin n1 m1 e1, .fin n2 m2 e2 => decide ((exactSum [(n1, m1, e1), (!n2, m2, e2)]).1 < 0)
  | _, _ => false
def fvEq (a b : Fv) : Bool := !a.isNan && !b.isNan && !fvLt a b && !fvLt b a
/-- The relation of FSET's CMP (R196). -/
def cmpF (cmp : Nat) (a b : Fv) : Bool :=
  let nan := a.isNan || b.isNan
  let rel := fun c => match c with
    | 0 => fvEq a b
    | 1 => !fvEq a b
    | 2 => fvLt a b
    | 3 => fvLt a b || fvEq a b
    | 4 => fvLt b a
    | _ => fvLt b a || fvEq a b
  if cmp ≤ 5 then !nan && rel cmp
  else if cmp ≤ 11 then nan || rel (cmp - 6)
  else if cmp == 12 then !nan else nan

/-! ### Square roots and the special functions -/

/-- Integer square root, one bit of the root a step. -/
def isqrtFrom (n r : Nat) : Nat → Nat
  | 0 => if (r + 1) * (r + 1) ≤ n then r + 1 else r
  | b + 1 => isqrtFrom n (if (r + 2 ^ (b + 1)) * (r + 2 ^ (b + 1)) ≤ n then r + 2 ^ (b + 1) else r) b
def isqrt (n : Nat) : Nat := isqrtFrom n 0 (Nat.log2 n / 2 + 1)

/-- Round sqrt(n / d) * 2^e to nearest: 160 bits of the root and a sticky bit decide (R202, correctly rounded). -/
def roundSqrt (f : Fmt) (flush : Bool) (n d : Nat) (e : Int) : Nat :=
  let k : Nat := 2 * (160 + Nat.log2 d)
  let q := n * 2 ^ k / d
  let root := isqrt q
  let sticky := if root * root == q && q * d == n * 2 ^ k then 0 else 1
  roundFp f .rn flush false (2 * root + sticky) 1 (e - 1 - (k / 2 : Nat))

/-- Fixed-point precision of the bounds below. -/
def fxP : Nat := 256
/-- The series sum of z^(2i+1) / (2i+1), alternating when `alt`: `p` is z^(2i+1), `z2` is z^2. -/
def atanSeries (alt : Bool) (z2 : Int) (p : Int) (i : Nat) : Nat → Int
  | 0 => 0
  | n + 1 => (if alt && i % 2 == 1 then -1 else 1) * (p / (2 * i + 1 : Nat)) + atanSeries alt z2 (p * z2 / (2 ^ fxP : Nat)) (i + 1) n
/-- ln(n / d) for 1 <= n / d <= 2, fixed point. -/
def fxLn (n d : Nat) : Int :=
  let z : Int := (((n - d) * 2 ^ fxP / (n + d) : Nat) : Int)
  2 * atanSeries false (z * z / (2 ^ fxP : Nat)) z 0 90
/-- ln 2. -/
def fxLn2 : Int := fxLn 2 1
/-- arctan(1 / q), fixed point. -/
def fxAtanInv (p q : Nat) : Int :=
  let z : Int := ((2 ^ p / q : Nat) : Int)
  let rec go (t : Int) (i : Nat) : Nat → Int
    | 0 => 0
    | n + 1 => (if i % 2 == 1 then -1 else 1) * (t / (2 * i + 1 : Nat)) + go (t / ((q * q : Nat) : Int)) (i + 1) n
  go z 0 160
/-- pi with p fraction bits, by Machin's formula. -/
def fxPi (p : Nat) : Int := 4 * (4 * fxAtanInv p 5 - fxAtanInv p 239)
/-- Terms x^k / k! from k on, with sign pattern: `alt` 0 none, else every other sign; steps of `st`. -/
def expSeries (alt : Bool) (st : Nat) (x : Int) (t : Int) (k : Nat) : Nat → Int
  | 0 => 0
  | n + 1 =>
    let t1 := if st == 1 then t * x / (2 ^ fxP : Nat) / ((k + 1 : Nat) : Int)
      else t * x / (2 ^ fxP : Nat) * x / (2 ^ fxP : Nat) / (((k + 1) * (k + 2) : Nat) : Int)
    t + expSeries alt st x (if alt then -t1 else t1) (k + st) n
/-- The exact function value of FUNC 3 to 6 at m * 2^e (with sign), in fixed point of fxP bits scaled by 2^s: value, s. -/
def fxFunc (func : Nat) (neg : Bool) (m : Nat) (e : Int) : Int × Int :=
  let sg : Int := if neg then -1 else 1
  match func with
  | 3 =>
    -- 2^a: integer part, as far as it matters, and fraction
    let a : Int := if 0 ≤ e + fxP then sg * ((m * 2 ^ (e + fxP).toNat : Nat) : Int) else sg * ((m / 2 ^ (-(e + fxP)).toNat : Nat) : Int)
    let i := max (-1000) (min 1000 (a / (2 ^ fxP : Nat)))
    let fr := a % (2 ^ fxP : Nat)
    (expSeries false 1 (fr * fxLn2 / (2 ^ fxP : Nat)) (2 ^ fxP : Nat) 0 60, i)
  | 4 =>
    let k := Nat.log2 m
    ((k + e) * (2 ^ fxP : Nat) + fxLn m (2 ^ k) * (2 ^ fxP : Nat) / fxLn2, 0)
  | _ =>
    -- reduce |a| modulo 2 pi with 512 fraction bits
    let p : Nat := 512
    let a : Nat := if 0 ≤ e + p then m * 2 ^ (e + p).toNat else m / 2 ^ (-(e + p)).toNat
    let twoPi := (2 * fxPi (p + 256)).toNat
    let red := (a * 2 ^ 256) % twoPi
    let x0 : Int := ((red / 2 ^ (p + 256 - fxP) : Nat) : Int)
    let pi := fxPi fxP
    let x := if pi < x0 then x0 - 2 * pi else x0
    if func == 5 then (sg * expSeries true 2 x x 1 60, 0) else (expSeries true 2 x (2 ^ fxP : Nat) 0 60, 0)

/-- The bits y (FP32) lie within the bound that R202 states for FUNC 3 to 6 at the operand; +infinity counts as 2^128. -/
def fsfWithin (func : Nat) (neg : Bool) (m : Nat) (e : Int) (y : Nat) : Bool :=
  match (match fpDec fp32 y with
    | .inf false => if func == 3 then (if 128 ≤ (fxFunc func neg m e).2 then Fv.inf false else Fv.fin false 1 128) else Fv.nan false 1
    | v => v) with
  | .nan _ _ => false
  | .inf n => !n
  | .fin yn ym ye =>
    let v := fxFunc func neg m e
    let big : Int := max 0 v.2
    let small : Int := (-(min 0 v.2)).toNat
    -- both sides scaled by 2^(fxP + 160)
    let val : Int := if 0 ≤ v.2 then v.1 * (2 ^ (160 + min big.toNat 200) : Nat) else v.1 * (2 ^ 160 : Nat) / (2 ^ small.toNat : Nat)
    let yv : Int := (if yn then -1 else 1) * ((ym * 2 ^ (ye + fxP + 160).toNat : Nat) : Int)
    let d := (val - yv).natAbs
    let k : Int := (Nat.log2 val.natAbs : Int) - fxP - 160
    let ulp2 : Nat := 2 ^ ((max k (-126) - 23 + 1) + fxP + 160).toNat
    match func with
    | 3 => decide (d ≤ ulp2)
    | 4 => if decide (-1 ≤ log2Q m 1 + e) && (decide (log2Q m 1 + e < 1) || (log2Q m 1 + e == 1 && m == 2 ^ Nat.log2 m)) then
        decide (d ≤ 2 ^ (fxP + 160 - 22)) else decide (d ≤ ulp2)
    | _ => decide (d ≤ 2 ^ (fxP + 160 - 21))
/-- The value rounded to nearest. -/
def fsfNear (func : Nat) (neg : Bool) (m : Nat) (e : Int) : Nat :=
  let v := fxFunc func neg m e
  roundFp fp32 .rn false (decide (v.1 < 0)) v.1.natAbs 1 (v.2 - fxP)
/-- FSF .exp2, .log2, .sin, .cos of a finite nonzero operand: the stepping's function where it lies within the bound
(R202; notes/assumptions/49.md), else the nearest value. -/
def fsfBounded (func stepping : Nat) (neg : Bool) (m : Nat) (e : Int) : Nat :=
  let near := fsfNear func neg m e
  let y := (Config.fsf func stepping (BitVec.ofNat 32 (roundFp fp32 .rn false neg m 1 e))).toNat
  let free := if fsfWithin func neg m e y then y else near
  if func == 3 && (decide (0 ≤ e) || m % 2 ^ (-e).toNat == 0) && decide (log2Q m 1 + e < 8) then
    -- an integer operand: exact where representable
    let i : Int := (if neg then -1 else 1) * ((scaled m 1 e).1 / (scaled m 1 e).2 : Nat)
    if -149 ≤ i ∧ i ≤ 127 then roundFp fp32 .rn false false 1 1 i else free
  else if func == 4 && !neg && m == 2 ^ Nat.log2 m && (Nat.log2 m : Int) + e == 0 then 0
  else free

/-- rcpL9 of a normal magnitude m * 2^e, m in [2^23, 2^24) (R188). -/
def rcpL9 (neg : Bool) (m : Nat) (e : Int) : Nat :=
  let ex := e + 23
  if m == 2 ^ 23 then roundFp fp32 .rn true neg 1 1 (-ex)
  else roundFp fp32 .rn true neg (2 ^ 45 / m) 1 (-ex - 22)
/-- rsqL9 as an exact value: integer and exponent (R188). -/
def rsqL9 (m : Nat) (e : Int) : Nat × Int :=
  let ex := e + 23
  let k := ex / 2
  let u := if ex % 2 == 0 then m else 2 * m
  if u == 2 ^ 23 then (1, -k) else (isqrt (2 ^ 67 / u), -k - 22)

/-- FSF (R202, R188) of the operand v, its modifiers and flush applied. -/
def fsfBits (prof stepping func : Nat) (v : Fv) : Nat :=
  let r := match v with
    | .nan n f => nanTo prof fp32 fp32 n f
    | .inf n =>
      (match func with
        | 0 => signBit fp32 n
        | 1 => if n then badNan prof fp32 else 0
        | 2 => if n then badNan prof fp32 else fpInf fp32 false
        | 3 => if n then 0 else fpInf fp32 false
        | 4 => if n then badNan prof fp32 else fpInf fp32 false
        | _ => badNan prof fp32)
    | .fin n m e =>
      if m == 0 then
        (match func with
          | 0 => fpInf fp32 n
          | 1 => fpInf fp32 n
          | 2 => signBit fp32 n
          | 3 => 0x3F800000
          | 4 => fpInf fp32 true
          | 5 => signBit fp32 n
          | _ => 0x3F800000)
      else
        (match func with
          | 0 => if prof == 1 then rcpL9 n m e else roundFp fp32 .rn false n 1 m (-e)
          | 1 => if n then badNan prof fp32
            else if prof == 1 then let q := rsqL9 m e; roundFp fp32 .rn true false q.1 1 q.2
            else let h := e % 2; roundSqrt fp32 false 1 (m * 2 ^ h.toNat) (-((e - h) / 2))
          | 2 => if n then badNan prof fp32
            else if prof == 1 then let q := rsqL9 m e; roundFp fp32 .rn false false (m * q.1) 1 (e + q.2)
            else let h := e % 2; roundSqrt fp32 false (m * 2 ^ h.toNat) 1 ((e - h) / 2)
          | 4 => if n then badNan prof fp32 else fsfBounded func stepping n m e
          | _ => fsfBounded func stepping n m e)
  if flushes prof fp32 && (fpDec fp32 r).subnormal fp32 then signBit fp32 (fpDec fp32 r).neg else r

end Sys2Proof.Machine
end

