-- ==== Sys2Proof/Machine/Cache.lean ====
section
/-! DEFINITION. Error records (spec/20_reliability.md R499, R500), the homes, what a core sees of a granule, fills, atomics, and how a
home performs a pending request (spec/03_memory_model.md R74-R92, spec/18_cache.md R442-R461). -/

namespace Sys2Proof.Machine

/-! ### Error records -/

/-- The host is signalled on a vector of MSIXMAP: 3 VCMD, 2 VRES, 1 VERR, 0 VFRM (spec/22_host.md R519). -/
def State.signal (s : State) (v : Nat) : State :=
  { s with host := { s.host with signals := bits s.host.msixmap.toNat (4 * v + 3) (4 * v) :: s.host.signals } }

/-- A write by an agent that caches nothing, at consecutive physical addresses. -/
def State.agentWrite (s : State) (pa : Nat) (bs : List Byte) (tracked : Bool) : State :=
  if bs.isEmpty then s else
    let g0 := granule pa
    let n := granule (pa + bs.length - 1) + 1 - g0
    (List.range n).foldl (fun s i =>
      let g := g0 + i
      s.homeWrite none g ((bs.zipIdx.filter fun p => granule (pa + p.2) == g).map fun p => ((pa + p.2) % 128, p.1)) tracked) s
/-- A write of one 64-bit word. -/
def State.agentWord (s : State) (pa : Nat) (v : Nat) : State := s.agentWrite pa (leBytes 8 v) true

/-- What an error record says (R500). -/
structure ErrInfo where
  cause : Nat
  sev : Nat
  die : Nat := 0x1F
  core : Nat := 0x7F
  unit : Nat := 10
  uidx : Nat := 0
  ctx : Nat := 0x3FF
  addr : Nat := 0
  launch : Nat := 0xFFFFFFFF
  deriving DecidableEq, Repr

/-- Word 0 of a record. -/
def ErrInfo.word0 (e : ErrInfo) : Nat :=
  e.cause * 2 ^ 54 + e.sev * 2 ^ 52 + e.die * 2 ^ 47 + e.core * 2 ^ 40 + e.unit * 2 ^ 35 + e.uidx % 65536 * 2 ^ 16 + e.ctx
def State.ringAddr (s : State) (i : Nat) : Nat :=
  bits s.errs.elbase.toNat 51 12 * 4096 + 32 * (i % 2 ^ (s.errs.elbase.toNat % 32))
/-- Unread records that a record of SEV 0 repeats within 1 ms. -/
def State.mergeWith (s : State) (e : ErrInfo) : Option Nat :=
  let n := s.errs.head.toNat - s.errs.tail.toNat
  ((List.range n).map (· + s.errs.tail.toNat)).find? fun i =>
    let a := s.ringAddr i
    let w := mread s.mem a 8
    bits w 63 54 == e.cause && bits w 53 52 == 0 && bits w 39 35 == e.unit && bits w 31 16 == e.uidx % 65536 &&
      decide (s.clock.ns ≤ mread s.mem (a + 24) 8 + 1000000)
/-- Write, merge or drop an error record (R499); SEV 1 and above signal VERR. -/
def State.errRecord (s : State) (e : ErrInfo) : State :=
  let lg := s.errs.elbase.toNat % 32
  let s := if e.sev == 0 then s else s.signal 1
  if lg < 7 || 20 < lg then s
  else
    match (if e.sev == 0 then s.mergeWith e else none) with
    | some i => s.agentWrite (s.ringAddr i + 16) (leBytes 4 (mread s.mem (s.ringAddr i + 16) 4 + 1)) true
    | none =>
      if 2 ^ lg ≤ (s.errs.head - s.errs.tail).toNat then
        { s with errs := { s.errs with ovf := if s.errs.ovf == 0xFFFFFFFF then s.errs.ovf else s.errs.ovf + 1 } }
      else
        let a := s.ringAddr s.errs.head.toNat
        let s := s.agentWrite a (leBytes 8 e.word0 ++ leBytes 8 e.addr ++ leBytes 8 (e.launch * 2 ^ 32 + 1) ++ leBytes 8 s.clock.ns) true
        { s with errs := { s.errs with head := s.errs.head + 1 } }

/-! ### Homes and levels -/

/-- The present last-level slices in ascending order (R444). -/
def DieMap.slices (m : DieMap) : List (Nat × Nat) :=
  ((List.range m.nmcb).map fun i =>
    let d := m.nsd + m.ngd + i
    ((List.range 64).filter fun b => bit (m.word d 1) b).map fun b => (d, b)).flatten
/-- The home slice of a physical address of this package (R444). -/
def DieMap.homeSlice (m : DieMap) (pa : Nat) : Nat × Nat :=
  let l := m.slices
  if l.isEmpty then (0x1F, 0) else (lget l (bits pa 51 7 % l.length)).getD (0x1F, 0)

/-- The alias detector sees a fill (R461). -/
def State.aliasFill (s : State) (pa ctx : Nat) (tracked : Bool) : State :=
  let fr := pa / 4096
  let b := (tget s.alias2 fr).getD (false, false, false)
  let nb := (b.1 || tracked, b.2.1 || !tracked, b.2.2)
  if nb.1 && nb.2.1 && !b.2.2 then
    let sl := s.dieMap.homeSlice pa
    ({ s with alias2 := tput s.alias2 fr (nb.1, nb.2.1, true) }).errRecord
      { cause := 0x091, sev := 0, die := sl.1, unit := 4, uidx := sl.2, ctx := ctx, addr := fr * 4096 }
  else { s with alias2 := tput s.alias2 fr nb }

/-- Granules of a line of a VC in its L2 and last-level shares (R444, R445). -/
def State.lineLen (s : State) (ctx vc : Nat) : Nat :=
  match (if 4 ≤ vc then s.vc ctx vc else none) with
  | some v => 2 ^ bits v.w0.toNat 63 62
  | none => 1
/-- The stamp of a line that a VC fills: CH 1 and the stream policy insert it at the lowest priority (R445, spec/07_core_memory.md R211). -/
def State.stamp (s : State) (ctx vc : Nat) (low : Bool) : Nat :=
  if low || (match s.vc ctx vc with
    | some v => 4 ≤ vc && bits v.w0.toNat 56 55 == 2
    | none => false) then 0 else s.nextId
/-- Put the granules of a line into a table of copies; `keep`: one that stands there stays. -/
def putLine (t : Tbl Copy) (first n g : Nat) (keep : Bool) (cp : Nat → Copy) : Tbl Copy :=
  (List.range n).foldl (fun t i =>
    let x := first + i
    if (tget t x).isSome && (keep || x != g) then t else tput t x (cp x)) t
/-- A fill brings the granule into the levels its VC uses, down to `level`, and its line into L2 and last level; a sleeping bank of those
levels wakes (R228, R443, R444, R448, R465). `keep`: a level that holds the granule is left as it stands. -/
def State.fillCopies (s : State) (q : HomeReq) (keep : Bool) : State :=
  if q.vc == 0 then s else
    let g := granule q.pa
    let n := s.lineLen q.ctx q.vc
    let cp : Nat → Copy := fun x =>
      ⟨mbytes s.mem (x * 128) 128, q.tracked, q.ctx, q.vc, s.farHome (x * 128), s.stamp q.ctx q.vc q.low, false, q.page⟩
    let l2 := (tget s.l2 q.core.die).getD []
    let sl := s.dieMap.homeSlice (g * 128)
    let s := { s with asleep := s.asleep.filter fun p => !(p.1 == q.core.die || p.1 == sl.1) }
    let s := if q.tracked && s.usesLl q.ctx q.vc then { s with llc := putLine s.llc (g / n * n) n g keep cp } else s
    let s := if q.level ≤ 1 && s.usesL2 q.ctx q.vc q.core.die then
      { s with l2 := tput s.l2 q.core.die (putLine l2 (g / n * n) n g keep cp) } else s
    let k := s.core q.core
    if q.level == 0 && !(keep && (tget k.copies g).isSome) then
      s.setCore q.core { k with copies := tput k.copies g (if keep then (tget l2 g).getD (cp g) else cp g) }
    else s
/-- A load that finds its granule in the L1 of its core, or else in the L2 of its die, uses that line; one found in L2 is brought into L1,
but for CH 2 (R443, spec/07_core_memory.md R211). -/
def State.touch (s : State) (c : CoreRef) (g : Nat) (nl1 : Bool) : State :=
  let k := s.core c
  match tget k.copies g, tget ((tget s.l2 c.die).getD []) g with
  | some cp, _ => s.setCore c { k with copies := tput k.copies g { cp with used := s.nextId } }
  | none, some cp =>
    let s := { s with l2 := tput s.l2 c.die (tput ((tget s.l2 c.die).getD []) g { cp with used := s.nextId }) }
    if nl1 then s else s.setCore c { k with copies := tput k.copies g { cp with used := s.nextId } }
  | none, none => s

/-! ### What a thread reads -/

/-- The byte of an entry at physical address a. -/
def SbEntry.byteAt (e : SbEntry) (a : Nat) : Option Byte :=
  if e.pa ≤ a && decide (a < e.pa + e.width) then some (BitVec.ofNat 8 (e.data / 256 ^ (a - e.pa))) else none
/-- The youngest byte at address a in the store-buffer entries of a thread older than `before` (R78: faulting entries are absent). Lanes
of one load on one byte may differ here, each thread seeing its own stores: R78 is taken before the one value of
spec/07_core_memory.md R211 (notes/assumptions/51.md). -/
def Block.sbByte (k : Block) (tl before a : Nat) : Option Byte :=
  k.sbuf.foldl (fun acc e => if e.tl == tl && !e.faulting && decide (e.seq < before) then (match e.byteAt a with
    | some b => some b
    | none => acc) else acc) none
/-- The byte of a granule's dirty set in a core. -/
def Core.dirtyByte (k : Core) (a : Nat) : Option Byte := (tget k.dirty (granule a)).bind fun d => tget d.bytes (a % 128)
/-- The byte of a clean copy. -/
def copyByte (t : Tbl Copy) (a : Nat) : Option Byte := (tget t (granule a)).bind fun c => lget c.bytes (a % 128)
/-- The byte at the view of a core held in its own caches (R75), for a thread's load numbered `before`. -/
def State.viewByte (s : State) (k : Block) (tl before a : Nat) : Option Byte :=
  let c := s.core k.core
  (k.sbByte tl before a).orElse fun _ => (c.dirtyByte a).orElse fun _ =>
    (copyByte c.copies a).orElse fun _ => copyByte ((tget s.l2 k.core.die).getD []) a
/-- The byte a load reads at the home: the thread's own older stores, the core's dirty bytes, else the home's. -/
def State.homeView (s : State) (k : Block) (tl before a : Nat) : Byte :=
  ((k.sbByte tl before a).orElse fun _ => (s.core k.core).dirtyByte a).getD (mget s.mem a)
/-- n bytes, if the core holds them all. -/
def State.viewBytes (s : State) (k : Block) (tl before a : Nat) : Nat → Option (List Byte)
  | 0 => some []
  | n + 1 => match s.viewByte k tl before a, s.viewBytes k tl before (a + 1) n with
    | some b, some r => some (b :: r)
    | _, _ => none

/-! ### Atomics (spec/07_core_memory.md R220, R221) -/

/-- The new value of n bits; none for a CAS that fails. -/
def atomNew (op n old v cmp : Nat) : Option Nat :=
  match op with
  | 0 => some ((old + v) % 2 ^ n)
  | 1 => some (if sext old n ≤ sext v n then old else v)
  | 2 => some (if sext v n ≤ sext old n then old else v)
  | 3 => some (min old v)
  | 4 => some (max old v)
  | 5 => some (old &&& v)
  | 6 => some (old ||| v)
  | 7 => some (old ^^^ v)
  | 8 => some v
  | 9 => if old == cmp then some v else none
  | 10 => some (if v ≤ old then 0 else old + 1)
  | 11 => some (if old == 0 || v < old then v else old - 1)
  | 12 => let f := if n == 32 then fp32 else fp64
          some (addBits f 0 .rn (fpDec f old) (fpDec f v))
  | 13 => some (addBits fp16 0 .rn (fpDec fp16 (old % 65536)) (fpDec fp16 (v % 65536)) +
      65536 * addBits fp16 0 .rn (fpDec fp16 (old / 65536)) (fpDec fp16 (v / 65536)))
  | _ => some (addBits bf16 0 .rn (fpDec bf16 (old % 65536)) (fpDec bf16 (v % 65536)) +
      65536 * addBits bf16 0 .rn (fpDec bf16 (old / 65536)) (fpDec bf16 (v / 65536)))

/-! ### Requests at the home -/

/-- A request waits for write-backs. -/
def ReqStage.waits : ReqStage → Bool
  | .fenced _ => true
  | _ => false

/-- The number an access has in its thread's program order. -/
def HomeReq.num (q : HomeReq) : Nat := q.op.getD q.id
/-- Reductions of two lanes that a router may merge, so that either comes first (R93; spec/07_core_memory.md R223). -/
def State.merges (s : State) (q : HomeReq) : Bool :=
  q.op.isNone && !q.rel && !q.hostBias && 2 ≤ q.scope && (q.aop < 8 || (12 ≤ q.aop && ((s.ctx q.ctx).map (·.mergef)).getD false))
/-- p comes before q by group position: lanes of one atomic or one release on the same bytes (spec/07_core_memory.md R211). -/
def State.before (s : State) (p q : HomeReq) : Bool :=
  p.ins == q.ins && p.blk == q.blk && p.id < q.id && decide (p.pa < q.pa + q.width) && decide (q.pa < p.pa + p.width) &&
    (q.kind == .release || (q.kind == .atomic && !(p.pa == q.pa && s.merges q)))
/-- A release at core scope, which its core's L1 performs (R83), unless its page is written through. -/
def State.inL1 (s : State) (q : HomeReq) : Bool := q.kind == .release && q.scope < 2 && !s.writesThrough q.ctx q.vc
/-- The home may perform a request: no older acquiring access of its thread is incomplete (R80), no older request of the thread to
the granule is pending (R75), nor, for a releasing one, any older request of the thread (R225); a remote home can be reached
(spec/19_fabric.md R471, R481); no lane before it is to be performed first (spec/07_core_memory.md R211); and no other release of
the core has begun (R85). -/
def State.reqReady (s : State) (q : HomeReq) : Bool :=
  let t := s.thread q.blk q.tl
  !(t.ops.any fun o => o.acq && decide (o.id < q.num)) &&
    !(s.phasing q.blk q.tl q.num) &&
    !(s.reqs.any fun (p : HomeReq) => p.blk == q.blk && p.tl == q.tl && decide (p.id < q.id) && (q.rel || granule p.pa == granule q.pa)) &&
    !(s.reqs.any fun (p : HomeReq) => s.before p q) &&
    !(s.fences.any fun (f : Fence) => match f.who with
      | .recall g _ => g == granule q.pa
      | _ => false) &&
    (s.homePkg q.pa == s.pkg.toNat || s.inL1 q || (s.fab.en && !s.fab.fenced && !s.flitWaits 0 q.id)) &&
    !(q.rel && q.stage == .fresh && s.reqs.any fun (p : HomeReq) => p.rel && p.core == q.core && p.stage != .fresh)

def State.dropReq (s : State) (id : Nat) : State := { s with reqs := s.reqs.filter fun (q : HomeReq) => q.id != id }
def State.setStage (s : State) (id : Nat) (st : ReqStage) : State :=
  { s with reqs := s.reqs.map fun (q : HomeReq) => if q.id == id then { q with stage := st } else q }

/-- The record names core c of this package. -/
def State.recIs (s : State) (r : SyncRec) (c : CoreRef) : Bool :=
  r.rdie.toNat == c.die && r.rcore.toNat == c.num && r.rpkg == s.pkg
/-- The write-back of the recorded releaser is to be demanded for core c (R85, R86). -/
def State.needsDemand (s : State) (g : Nat) (c : CoreRef) : Bool :=
  let r := s.srec g
  r.sv && !r.fl && !s.recIs r c

/-- Generations from the oldest live one of a core to g, in counter order: a line of generation x is among them (R85). The counter
stands at G, and generations are older the further they lie below it. -/
def genWithin (G g x : BitVec 4) : Bool := decide ((G - g).toNat ≤ (G - x).toNat)

/-- DemandWriteBack(rec) on behalf of `who` (R85): the lines of the releaser's generations up to the recorded one are awaited;
DEMAND_WRITE_BACK sends them. The acknowledgement of a releaser in another package comes from there. -/
def State.demandFor (s : State) (who : FenceFor) (g : Nat) : State :=
  let r := s.srec g
  if r.rpkg == s.pkg then
    let c : CoreRef := ⟨r.rdie.toNat, r.rcore.toNat⟩
    let G := (s.core c).gen
    let lines := s.linesOf c fun _ d => genWithin G r.rgen d.gen
    { s with fences := s.fences ++ [(⟨s.nextId, who, lines, none, []⟩ : Fence)], nextId := s.nextId + 1 }
  else
    let s := s.sendFlit 3 r.rpkg.toNat g
    { s with fences := s.fences ++ [(⟨s.nextId, who, [], some r.rpkg, []⟩ : Fence)], nextId := s.nextId + 1 }
/-- The demand of a request, which waits for it. -/
def State.demand (s : State) (id g : Nat) : State :=
  (s.demandFor (.demand id g (s.srec g)) g).setStage id (.fenced s.nextId)
/-- The record whose releaser a fence has demanded. -/
def FenceFor.demanded : FenceFor → Option SyncRec
  | .demand _ _ r => some r
  | .recall _ r => some r
  | .flip _ r => some r
  | .remoteReq _ _ r => some r
  | .done _ r => some r
  | _ => none

/-- The demand of R89 for one granule's record on this package. -/
def State.flushRecord (s : State) (g : Nat) : State :=
  let r := s.srec g
  if r.sv && !r.fl && r.rpkg == s.pkg then
    let c : CoreRef := ⟨r.rdie.toNat, r.rcore.toNat⟩
    (s.linesOf c fun _ d => genWithin (s.core c).gen r.rgen d.gen).foldl (fun s l => s.arriveWb l.1 l.2) s
  else s
/-- An add of 1 to a DONE word by an agent that has no dirty lines, and the record of its release. -/
def State.doneNow (s : State) (pa : Nat) : State :=
  let s := s.agentWord pa (mread s.mem pa 8 + 1)
  s.setRec (granule pa) { s.srec (granule pa) with sv := true, fl := true, rdie := 0xF, bv := false, boost := 0 }
/-- An add of 1 to a DONE word, as a releasing atomic at pod scope (R85, R91): the releaser that the record names writes back first; one
in another package acknowledges first. -/
def State.addDone (s : State) (pa : Nat) : State :=
  let r := s.srec (granule pa)
  if r.sv && !r.fl && r.rpkg != s.pkg then s.demandFor (.done pa r) (granule pa) else (s.flushRecord (granule pa)).doneNow pa

/-- What precedes a release at quad scope or wider on its core (R85, R99): the host-bias lines, the lines of the next generation and the
dirty bytes of the variable's granule are written back. -/
def State.beginRelease (s : State) (q : HomeReq) : State :=
  let n := (s.core q.core).gen + 1
  (s.fence (.req q.id) [q.core] fun g d => d.hostBias || d.gen == n || g == granule q.pa).setStage q.id (.fenced s.nextId)

/-- The record and the core after a release (R85, R250). -/
def State.endRelease (s : State) (c : CoreRef) (g : Nat) : State :=
  let k := s.core c
  let r := s.srec g
  let s := s.setRec g { r with sv := true, fl := false, rdie := BitVec.ofNat 4 c.die, rcore := BitVec.ofNat 7 c.num, rpkg := s.pkg,
                               rgen := k.gen, bv := false, boost := 0 }
  s.setCore c { k with gen := k.gen + 1 }

/-- The boost notice of a record goes to its holder: through the fabric if that lies in another package (R250). -/
def State.notify (s : State) (g : Nat) : State :=
  let r := s.srec g
  if !r.holder then s
  else if r.hpkg == s.pkg then
    { s with notices := s.notices ++ [((⟨r.hdie.toNat, r.hcore.toNat⟩ : CoreRef), g, r.boost)] }
  else s.sendFlit 8 r.hpkg.toNat (g * 2 ^ 18 + r.hdie.toNat * 2 ^ 14 + r.hcore.toNat * 2 ^ 7 + r.boost.toNat)
/-- The home's part of an acquiring access of core (die, core, pkg) after its value is known (R86, R250): the holder, or the spinner's
priority and a notice. -/
def State.acquireFrom (s : State) (die : BitVec 4) (core : BitVec 7) (pkg : BitVec 14) (g : Nat) (failed : Bool) (prio : BitVec 7) : State :=
  let r := s.srec g
  if failed then
    (s.setRec g (if !r.bv || r.boost.toNat < prio.toNat then { r with bv := true, boost := prio } else r)).notify g
  else s.setRec g { r with hdie := die, hcore := core, hpkg := pkg, holder := true }
/-- The same for a core of this package. -/
def State.acquireRec (s : State) (c : CoreRef) (g : Nat) (failed : Bool) (prio : BitVec 7) : State :=
  s.acquireFrom (BitVec.ofNat 4 c.die) (BitVec.ofNat 7 c.num) s.pkg g failed prio

/-- The recorded releaser lies on another die than c, and outside the coherence group (R87, R88). -/
def State.relOff (s : State) (g : Nat) (c : CoreRef) : Bool × Bool :=
  let r := s.srec g
  (r.sv && !(r.rpkg == s.pkg && r.rdie.toNat == c.die), r.sv && !s.inGroup r.rpkg.toNat)

/-- A part of a load is read, from word i of its result on; with the last part the words are known. -/
def SlotOp.addPart (o : SlotOp) (i : Nat) (v : List Word) : SlotOp :=
  let ps := o.part ++ [(i, v)]
  if (ps.map (·.2.length)).sum < o.regs.length then { o with part := ps }
  else { o with part := [], val := some ((List.range o.regs.length).map fun j =>
    (ps.findSome? fun p => if p.1 ≤ j then lget p.2 (j - p.1) else none).getD 0) }
/-- Change the slot operation of a thread. -/
def State.modOp (s : State) (b tl op : Nat) (f : SlotOp → SlotOp) : State :=
  s.modThread b tl fun t => { t with ops := t.ops.map fun (x : SlotOp) => if x.id == op then f x else x }
/-- Give the slot operation of a request its value, or its part of it. -/
def State.landVal (s : State) (q : HomeReq) (v : List Word) (poison : Bool) (act : LandAct) : State :=
  match q.op with
  | some o => s.modOp q.blk q.tl o fun x =>
      let x := { x with poison := if poison then some q.va else x.poison, act := act }
      match q.wofs with
      | some i => x.addPart i v
      | none => { x with val := some v }
  | none => s

/-- A core has read a granule at the home: copies that may be older go, so that its view never moves back (R75). -/
def State.seen (s : State) (c : CoreRef) (g : Nat) : State := (s.dropCopy c g).dropL2 c.die g
/-- A fill request is performed (HOME_FILL): the value is read, and the granule is allocated. -/
def State.performFill (s : State) (q : HomeReq) : State :=
  let s := s.dropReq q.id
  let s := s.aliasFill q.pa q.ctx q.tracked
  let s := if q.op.isSome then s.seen q.core (granule q.pa) else s
  let v := match s.block q.blk with
    | some k => leVal ((List.range q.width).map fun i => s.homeView k q.tl q.num (q.pa + i))
    | none => 0
  let act := if q.acq then .acquire (granule q.pa) v false false false false else .none
  let s := s.landVal q (landWords q.width v q.sx) (s.poisoned (granule q.pa)) act
  if q.level < 3 then s.fillCopies q q.op.isNone else s

/-- An acquiring load is performed at the home (HOME_ACQUIRE, R86). -/
def State.performAcquire (s : State) (q : HomeReq) : State :=
  let g := granule q.pa
  let s := (s.dropReq q.id).seen q.core g
  let v := match s.block q.blk with
    | some k => leVal ((List.range q.width).map fun i => s.homeView k q.tl q.num (q.pa + i))
    | none => 0
  let failed := (s.thread q.blk q.tl).heldVal == some (g, v)
  let off := s.relOff g q.core
  let s := s.acquireRec q.core g failed q.prio
  s.landVal q (landWords q.width v false) (s.poisoned g) (.acquire g v failed off.1 (q.scope == 5 && off.2) true)

/-- An atomic or a reduction is performed at the home (HOME_ATOMIC, R91, R92), after its release part and before its acquire part. -/
def State.performAtomic (s : State) (q : HomeReq) : State :=
  let g := granule q.pa
  let s := (s.dropReq q.id).seen q.core g
  let old := mread s.mem q.pa q.width
  let new := atomNew q.aop (8 * q.width) old q.data q.cmp
  let bad := s.poisoned g
  let s := match new with
    | some v => s.homeWrite (some q.core) g (((leBytes q.width v).zipIdx).map fun (p : Byte × Nat) => (q.pa % 128 + p.2, p.1)) q.tracked
    | none => s
  let wide := decide (2 ≤ q.scope)
  let off := s.relOff g q.core
  let s := if q.rel && wide then s.endRelease q.core g else s
  let failed := new.isNone || new == some old
  let s := if q.acq && wide then s.acquireRec q.core g failed q.prio else s
  s.landVal q (wordsOf (q.width / 4) old) bad
    (if q.acq && wide then .acquire g old failed off.1 (q.scope == 5 && off.2) true else .none)

/-- A releasing write is performed (HOME_RELEASE): at core scope in the core's L1 (R83), else at the home (R85), which treats it as it
treats a write-back (R76, R82: no copy of a tracked granule keeps an older value). -/
def State.performRelease (s : State) (q : HomeReq) : State :=
  let g := granule q.pa
  let s := s.dropReq q.id
  let bs := ((leBytes q.width q.data).zipIdx).map fun p => (q.pa % 128 + p.2, p.1)
  if q.scope < 2 then
    if s.writesThrough q.ctx q.vc then s.homeWrite (some q.core) g bs q.tracked
    else s.putDirty q.core g bs q.tracked q.hostBias q.ctx q.vc false false q.page
  else
    let s := (s.homeWrite (some q.core) g bs q.tracked).dropCopy q.core g
    (s.dropL2 q.core.die g).endRelease q.core g

/-- Lanes of one load, or of one acquire, on the same bytes: they read one value (spec/07_core_memory.md R211). -/
def State.bunch (s : State) (q : HomeReq) : List HomeReq :=
  if (q.kind == .fill && q.op.isSome) || q.kind == .acquire then
    s.reqs.filter fun (p : HomeReq) => p.ins == q.ins && p.blk == q.blk && p.kind == q.kind && p.pa == q.pa
  else [q]
/-- A request and those performed with it go one stage on: the core's part of a release, a demand, or the performance. -/
def State.serve (s : State) (q : HomeReq) (perform : State → HomeReq → State) : State :=
  let wide := decide (2 ≤ q.scope)
  if !((s.bunch q).all fun p => s.reqReady p && !p.stage.waits) then s
  else if q.stage == .fresh && q.rel && wide then s.beginRelease q
  else if (q.rel || q.acq) && wide && s.needsDemand (granule q.pa) q.core then s.demand q.id (granule q.pa)
  else (s.bunch q).foldl perform s

end Sys2Proof.Machine
end

