-- ==== Sys2Proof/Machine/Mem.lean ====
section
/-! DEFINITION. The instructions of class MEM (spec/07_core_memory.md R206-R231, spec/18_cache.md R463). -/

namespace Sys2Proof.Machine

/-! ### Shared parts -/

/-- DETAIL of a memory cause (spec/09_core_traps.md R258). -/
def memDetail (wr : Bool) (w : BitVec 3) : Word := (if wr then 8 else 0) ||| w.setWidth 32
/-- The trap of a memory cause at a pointer; a fabric cause carries neither (R258). -/
def memTrap (c : Nat) (wr : Bool) (w : BitVec 3) (ptr : DWord) : Stop :=
  if c < 0x100 then .trap c (memDetail wr w) ptr false false else .trap c 0 0 false false

/-- The pointer of a format-M instruction with a pair base (R208). -/
def Env.ptr (e : Env) (f : FM) : DWord := e.r64 f.a + BitVec.ofInt 64 f.off.toInt
/-- As Env.ptr, for ATOM and RED. -/
def Env.aptr (e : Env) (f : FM) : DWord := e.r64 f.a + BitVec.ofInt 64 (f.off.extractLsb' 0 18).toInt
/-- The exact offset of an instruction with a register base (R208). -/
def Env.offs (e : Env) (f : FM) : Int := (e.r f.a).toNat + f.off.toInt
def Env.aoffs (e : Env) (f : FM) : Int := (e.r f.a).toNat + (f.off.extractLsb' 0 18).toInt
/-- Region byte and offset as TW3 shows them (spec/09_core_traps.md R258). -/
def regionPtr (r : BitVec 8) (a : Int) : DWord := r ++ BitVec.ofInt 56 a
/-- Checks of an offset against a space of `size` bytes (R208, R209). -/
def offsetCause (a : Int) (w size : Nat) : Option Nat :=
  if a < 0 || (size : Int) ≤ a + w - 1 then some cBounds
  else if a.toNat % w != 0 then some cMisaligned else none

/-- The data operand of a width: registers D, D + 1, … lowest first. -/
def Env.data (e : Env) (d : BitVec 8) (w : Nat) : Nat :=
  ((List.range ((w + 3) / 4)).map fun i => (e.rN d i).toNat * 2 ^ (32 * i)).sum % 2 ^ (8 * w)

/-- Read n bytes of local memory or of the thread's own memory (spec/03_memory_model.md R95). -/
def State.sramRead (s : State) (b tl : Nat) (p : Place) (n : Nat) : Nat :=
  match p, s.block b with
  | .loc a, some k => mread k.lmem a n
  | .prv a, some k => mread (k.thread tl).pmem a n
  | _, _ => 0
/-- Write n bytes of local memory or of the thread's own memory. -/
def State.sramWrite (s : State) (b tl : Nat) (p : Place) (n v : Nat) : State :=
  match p with
  | .loc a => s.modBlock b fun k => { k with lmem := mwrite k.lmem a n v, lpoison := k.lpoison.filter fun x => !(a ≤ x && decide (x < a + n)) }
  | .prv a => s.modThread b tl fun t => { t with pmem := mwrite t.pmem a n v }
  | .glob _ _ _ => s

/-- A request of the executing thread. -/
def Env.req (e : Env) (s : State) (kind : ReqKind) (op : Option Nat) (pa : Nat) (va : DWord) (en : TlbEntry) (w : Nat) : HomeReq :=
  { id := s.nextId, kind := kind, blk := e.k.id, tl := e.tl, op := op, core := e.k.core, ctx := e.k.ctx, pa := pa, va := va,
    width := w, vc := en.vc.toNat, tracked := en.trk, hostBias := en.hb, prio := e.th.iprio, ins := e.s0.nextId, page := (en.page, en.pages) }
def State.addReq (s : State) (q : HomeReq) : State := { s with reqs := s.reqs ++ [q], nextId := s.nextId + 1 }
/-- A request of the thread to the granule is pending. -/
def State.pendingAt (s : State) (b tl g : Nat) : Bool :=
  s.reqs.any fun (q : HomeReq) => q.blk == b && q.tl == tl && granule q.pa == g

/-- One part of a load of global memory, from word i of the result of slot operation `op` on: served from the view of the core, or
requested from the home. -/
def Env.loadPart (e : Env) (op : Nat) (nl1 : Bool) (en : TlbEntry) (pa : Nat) (va : DWord) (w : Nat) (low : Bool) (s : State) (i : Nat) : State :=
  let k := (s.block e.k.id).getD e.k
  let here := en.vc != 0 && e.parts.all fun p => !(s.thread e.k.id p.2).acquiring && !s.pendingAt e.k.id p.2 (granule pa)
  match (if here then s.viewBytes k e.tl op (pa + 4 * i) w else none) with
  | some bs => s.modOp e.k.id e.tl op fun x =>
      { x with poison := if s.poisoned (granule pa) then some va else x.poison }.addPart i (wordsOf (w / 4) (leVal bs))
  | none => s.addReq { e.req s .fill (some op) (pa + 4 * i) va en w with level := if nl1 then 1 else 0, low := low, wofs := some i }
/-- A load that is several single-copy accesses of w bytes each (spec/03_memory_model.md R71, R73). -/
def Env.loadParts (e : Env) (s : State) (sb : BitVec 3) (d : BitVec 8) (n w : Nat) (pa : Nat) (va : DWord) (en : TlbEntry) (nl1 : Bool)
    (low : Bool := false) : State :=
  let op := s.nextId
  let s := e.addOp s sb (destRegs d (n * w)) none none false .none
  ((List.range n).map (· * (w / 4))).foldl (e.loadPart op nl1 en pa va w low) s
/-- A load of global memory that is one single-copy access (R210; spec/03_memory_model.md R73, R75): served from the view of the core,
or requested from the home; the lanes of one instruction do not differ in this (R211). -/
def Env.load (e : Env) (s : State) (sb : BitVec 3) (d : BitVec 8) (w : Nat) (sx : Bool) (pa : Nat) (va : DWord) (en : TlbEntry)
    (nl1 acq : Bool) (low : Bool := false) : State :=
  let k := (s.block e.k.id).getD e.k
  let g := granule pa
  let here := en.vc != 0 && e.parts.all fun p => !(s.thread e.k.id p.2).acquiring && !s.pendingAt e.k.id p.2 g
  match (if here then s.viewBytes k e.tl s.nextId pa w else none) with
  | some bs =>
    let s := s.touch k.core g nl1
    e.addOp s sb (destRegs d w) (some (landWords w (leVal bs) sx)) (if s.poisoned g then some va else none) acq
      (if acq then .acquire g (leVal bs) false false false false else .none)
  | none =>
    let op := s.nextId
    let s := e.addOp s sb (destRegs d w) none none acq .none
    s.addReq { e.req s .fill (some op) pa va en w with sx := sx, level := if nl1 then 1 else 0, acq := acq, low := low }

/-- A result known at issue lands later under its slot. -/
def Env.land (e : Env) (s : State) (sb : BitVec 3) (d : BitVec 8) (w : Nat) (v : List Word) : State :=
  e.addOp s sb (destRegs d w) (some v) none false .none

/-- As Env.land, n cycles after issue in a fixed-timing context (spec/10_distributor.md R294). -/
def Env.landAt (e : Env) (s : State) (sb : BitVec 3) (d : BitVec 8) (w : Nat) (v : List Word) (n : Nat) : State :=
  e.addOp s sb (destRegs d w) (some v) none false .none (if s.blockFixed e.k then some ((s.quad e.k.core).cyc + n) else none)

/-- Word index of the instruction in .text (spec/09_core_traps.md R263). -/
def Env.textWord (e : Env) (s : State) : BitVec 32 :=
  match s.launch e.k.launch with
  | some l => ((e.iaddr - l.text) >>> 3).setWidth 32
  | none => 0
/-- A store-buffer entry of the executing thread. -/
def Env.entry (e : Env) (s : State) (pa : Nat) (va : DWord) (en : TlbEntry) (w data : Nat) (wok nl1 : Bool) (wf : BitVec 3)
    (low : Bool := false) : SbEntry :=
  ⟨s.nextId, e.tl, va, pa, w, data, en.vc.toNat, en.trk, en.hb, !wok, nl1, e.textWord s, wf, low, (en.page, en.pages)⟩
/-- Put an entry into the store buffer of a block; a full buffer commits its oldest entry first and the block is then not
rollbackable (spec/03_memory_model.md R78). false: that commit is held. -/
def State.pushStore (s : State) (b : Nat) (en : SbEntry) : State × Bool :=
  let put := fun (s : State) =>
    { s.modBlock b fun k => { k with sbuf := k.sbuf ++ [en] } with nextId := s.nextId + 1 }
  match s.block b with
  | none => (s, true)
  | some k =>
    if k.sbuf.length < 256 then (put s, true)
    else
      match s.commitList b (fun _ => true) (k.sbuf.take (k.sbuf.length - 255)) with
      | (s, true) => (put (s.irrevocable b), true)
      | (s, false) => (s, false)

/-- The store fault that a thread reports at the commit instruction it executes (spec/09_core_traps.md R261). -/
def sfStop (t : Thread) : Option Stop :=
  t.pendSf.map fun p => .trap cWriteProtect p.2.2 p.1 true true
/-- A faulting entry of a thread, in the store buffer before, has been discarded by a commit since. -/
def Block.faulted (k : Block) (after : List SbEntry) (tl : Nat) : Bool :=
  k.sbuf.any fun e => e.tl == tl && e.faulting && !(after.any fun x => x.seq == e.seq)
/-- While a commit is held, the whole group waits at the instruction (R230): its other lanes wait too. -/
def holdAll (g : Group) (l : List ((Nat × Nat) × Stop)) : List ((Nat × Nat) × Stop) :=
  if l.any fun x => x.2 == .hold then
    (g.lanes.filter fun p => !(l.any fun x => x.1 == p)).foldl (fun l p => insStop (p, .hold) l) l
  else l
/-- Issue an instruction that commits stores (R260 row 7): after its lanes, each thread whose faulting entries its commit has discarded
reports them, unless it waits or parks now, where R261 has it report at once. -/
def issueCommit (i : Instr) (pred : BitVec 3) (pneg : Bool) (sb : Option Nat) (lane : Env → State → LaneOut) (s : State) (all : Bool := false) : Out :=
  match s.opens with
  | .grp g :: _ =>
    match s.block g.blk with
    | some k =>
      let act := activeLanes k g pred pneg
      if slotFull k act sb then .next s.rotate else
        let bad := act.filterMap fun p => (srcStop s k i p.2).map fun st => (p, st)
        let ok := act.filter fun p => (srcStop s k i p.2).isNone
        let q := runLanes i s g k ok lane ok s
        let sf := (ok.filter fun p => !(q.2.any fun x => x.1 == p) && k.faulted (((q.1.block k.id).map (·.sbuf)).getD []) p.2 &&
            (q.1.thread k.id p.2).status.isIssuing).filterMap fun p =>
          (sfStop (q.1.thread k.id p.2)).map fun st => (p, st)
        let stops := (bad ++ sf).foldl (fun l x => insStop x l) q.2
        .next (finishInstr q.1 g (if all then holdAll g stops else stops))
    | none => .fault .noGroup
  | _ => .fault .noGroup

/-! ### Loads and stores -/

/-- LD (R210). -/
def execLd (f : FM) (s : State) : Out :=
  issue (.ld f) f.pred f.pneg (some f.sbs.toNat) (fun e s =>
    let w := widthBytes f.width
    let p := e.ptr f
    match s.check e.k p w w .load with
    | (.trap c, s) => (s, some (memTrap c false f.width p))
    | (.park g, s) => (s, some (.park g p))
    | (.ok (.glob pa en _), s) =>
      let nl1 := f.md.extractLsb' 2 2 == 2
      let low := f.md.extractLsb' 2 2 == 1
      (if w == 16 then e.loadParts s f.sbs f.d 2 8 pa p en nl1 low else e.load s f.sbs f.d w (f.md.getLsbD 0) pa p en nl1 false low, none)
    | (.ok pl, s) => (e.land s f.sbs f.d w (landWords w (s.sramRead e.k.id e.tl pl w) (f.md.getLsbD 0)), none)) s

/-- ST (R211). -/
def execSt (f : FM) (s : State) : Out :=
  issueCommit (.st f) f.pred f.pneg none (fun e s =>
    let w := widthBytes f.width
    let p := e.ptr f
    match s.check e.k p w w .store with
    | (.trap c, s) => (s, some (memTrap c true f.width p))
    | (.park g, s) => (s, some (.park g p))
    | (.ok (.glob pa en wok), s) =>
      match s.pushStore e.k.id (e.entry s pa p en w (e.data f.d w) wok (f.md.extractLsb' 2 2 == 2) f.width (f.md.extractLsb' 2 2 == 1)) with
      | (s, true) => (s, none)
      | (s, false) => (s, some .hold)
    | (.ok pl, s) => (s.sramWrite e.k.id e.tl pl w (e.data f.d w), none)) s

/-- LDL and LDP: a load at an offset of local memory or of the thread's own memory (R208). -/
def Env.sramLoad (e : Env) (s : State) (f : FM) (region : BitVec 8) (size : Nat) (pl : Nat → Place) : LaneOut :=
  let w := widthBytes f.width
  let a := e.offs f
  match offsetCause a w size with
  | some c => (s, some (memTrap c false f.width (regionPtr region a)))
  | none => (e.landAt s f.sbs f.d w (landWords w (s.sramRead e.k.id e.tl (pl a.toNat) w) (f.md.getLsbD 0)) 24, none)
/-- STL and STP (R208, R211). -/
def Env.sramStore (e : Env) (s : State) (f : FM) (region : BitVec 8) (size : Nat) (pl : Nat → Place) : LaneOut :=
  let w := widthBytes f.width
  let a := e.offs f
  match offsetCause a w size with
  | some c => (s, some (memTrap c true f.width (regionPtr region a)))
  | none => (s.sramWrite e.k.id e.tl (pl a.toNat) w (e.data f.d w), none)
/-- LDL (R210). -/
def execLdl (f : FM) (s : State) : Out :=
  issue (.ldl f) f.pred f.pneg (some f.sbs.toNat) (fun e s => e.sramLoad s f 1 e.k.localSize .loc) s
/-- STL (R211). -/
def execStl (f : FM) (s : State) : Out :=
  issue (.stl f) f.pred f.pneg none (fun e s => e.sramStore s f 1 e.k.localSize .loc) s
/-- LDP (R210). -/
def execLdp (f : FM) (s : State) : Out :=
  issue (.ldp f) f.pred f.pneg (some f.sbs.toNat) (fun e s => e.sramLoad s f 2 e.k.privSize .prv) s
/-- STP (R211). -/
def execStp (f : FM) (s : State) : Out :=
  issue (.stp f) f.pred f.pneg none (fun e s => e.sramStore s f 2 e.k.privSize .prv) s

/-- Translate an address of the constant bank: covered by the loader's lease, read through VC 1 (R216, spec/03_memory_model.md R71). -/
def State.checkConst (s : State) (k : Block) (va : DWord) : Chk × State :=
  match s.lookup k.core k.ctx (va.toNat % 2 ^ 56) with
  | (.bad c, s) => (.trap c, s)
  | (.ok en, s) =>
    match s.paCause (en.frame * 4096 + va.toNat % 4096) with
    | some c => (.trap c, s)
    | none =>
      if !en.rd then (.trap cReadProtect, s)
      else if s.isMoving en then (.park en.page, s)
      else (.ok (.glob (s.localPa (en.frame * 4096 + va.toNat % 4096)) { en with vc := 1 } false), s)
/-- LDK (R210). -/
def execLdk (f : FM) (s : State) : Out :=
  issue (.ldk f) f.pred f.pneg (some f.sbs.toNat) (fun e s =>
    let w := widthBytes f.width
    let a := e.offs f
    let bank := ((s.launch e.k.launch).map (·.cbank)).getD 0
    let size := ((s.launch e.k.launch).map (·.cbsize)).getD 0
    let va := bank + BitVec.ofInt 64 a
    -- a replay reads the bytes of its patch from its slot (spec/10_distributor.md R286)
    let from_ := match s.launch e.k.launch with
      | some l => if l.pslot.isSome && 0 ≤ a && a < (l.patch.length : Int) then l.pslotVa + BitVec.ofInt 64 a else va
      | none => va
    match offsetCause a w size with
    | some c => (s, some (memTrap c false f.width va))
    | none =>
      match s.checkConst e.k from_ with
      | (.trap c, s) => (s, some (memTrap c false f.width va))
      | (.park g, s) => (s, some (.park g from_))
      | (.ok (.glob pa en _), s) =>
        (if 4 < w then e.loadParts s f.sbs f.d (w / 4) 4 pa va en false else e.load s f.sbs f.d w false pa va en false false, none)
      | (.ok _, s) => (s, none)) s

/-! ### Atomics and reductions -/

/-- ORD of ATOM and RED: bit 0 acquires, bit 1 releases (R222). -/
def fmAcq (f : FM) : Bool := f.off.getLsbD 18
def fmRel (f : FM) : Bool := f.off.getLsbD 19
/-- Operands of an atomic: v (or swap) and cmp (R221). -/
def Env.atomOps (e : Env) (f : FM) : Nat × Nat :=
  let w := widthBytes f.width
  if f.md == 9 then
    (((List.range (w / 4)).map fun i => (e.rN f.d (w / 4 + i)).toNat * 2 ^ (32 * i)).sum, e.data f.d w)
  else (e.data f.d w, 0)
/-- An atomic on local memory or on the thread's own memory (spec/03_memory_model.md R67, R95): the old value. -/
def Env.sramAtom (e : Env) (s : State) (f : FM) (pl : Place) : State × Nat :=
  let w := widthBytes f.width
  let old := s.sramRead e.k.id e.tl pl w
  let o := e.atomOps f
  match atomNew f.md.toNat (8 * w) old o.1 o.2 with
  | some v => (s.sramWrite e.k.id e.tl pl w v, old)
  | none => (s, old)
/-- The next releasing access to the marked granule ends the mark and the boost (spec/08_core_sync.md R251). -/
def Thread.clearMark (t : Thread) (g : Nat) : Thread :=
  if t.mark == some g then { t with mark := none, boost := none, boostNew := none } else t

/-- ATOM and RED on global memory (R222): a release part commits the block's stores, the core's clean copy is invalidated
(spec/03_memory_model.md R92) and the home is asked. -/
def Env.globalAtom (e : Env) (s : State) (f : FM) (pa : Nat) (p : DWord) (en : TlbEntry) (lands : Bool) : LaneOut :=
  let w := widthBytes f.width
  let g := granule pa
  match (if (fmRel f) then s.commitBlock e.k.id else (s, true)) with
  | (s, false) => (s, some .hold)
  | (s, true) =>
    let s := s.irrevocable e.k.id
    let s := if (fmRel f) && 2 ≤ f.scope.toNat then e.upd s fun t => t.clearMark g else s
    let s := (s.dropCopy e.k.core g).dropL2 e.k.core.die g
    let op := s.nextId
    let s := if lands then e.addOp s f.sbs (destRegs f.d w) none none (fmAcq f) .none else s
    let o := e.atomOps f
    (s.addReq { e.req s .atomic (if lands then some op else none) pa p en w with
      data := o.1, cmp := o.2, aop := f.md.toNat, acq := (fmAcq f), rel := (fmRel f), scope := f.scope.toNat }, none)

/-- A lane of ATOM or RED. -/
def Env.atomLane (e : Env) (s : State) (f : FM) (lands : Bool) : LaneOut :=
  let w := widthBytes f.width
  let p := e.aptr f
  let region := bits p.toNat 63 56
  if (region == 1 || region == 2) && ((fmAcq f) || (fmRel f)) then (s, some (memTrap cSpace true f.width p))
  else
    match s.check e.k p w w .atomic with
    | (.trap c, s) => (s, some (memTrap c true f.width p))
    | (.park g, s) => (s, some (.park g p))
    | (.ok (.glob pa en _), s) => e.globalAtom s f pa p en lands
    | (.ok pl, s) =>
      let q := e.sramAtom s f pl
      (if lands then e.land q.1 f.sbs f.d w (wordsOf (w / 4) q.2) else q.1, none)
/-- ATOM (R222). -/
def execAtom (f : FM) (s : State) : Out :=
  issueCommit (.atom f) f.pred f.pneg (some f.sbs.toNat) (fun e s => e.atomLane s f true) s
/-- RED (R222). -/
def execRed (f : FM) (s : State) : Out :=
  issueCommit (.red f) f.pred f.pneg none (fun e s => e.atomLane s f false) s
/-- ATOML (R222). -/
def execAtoml (f : FM) (s : State) : Out :=
  issue (.atoml f) f.pred f.pneg (some f.sbs.toNat) (fun e s =>
    let w := widthBytes f.width
    let a := e.aoffs f
    match offsetCause a w e.k.localSize with
    | some c => (s, some (memTrap c true f.width (regionPtr 1 a)))
    | none =>
      let q := e.sramAtom s f (.loc a.toNat)
      (e.landAt q.1 f.sbs f.d w (wordsOf (w / 4) q.2) 32, none)) s

/-! ### Acquire, release, publish -/

/-- ACQ (R224): at core scope in the core's L1, else at the home (spec/03_memory_model.md R83, R86). -/
def execAcq (f : FM) (s : State) : Out :=
  issue (.acq f) f.pred f.pneg (some f.sbs.toNat) (fun e s =>
    let w := widthBytes f.width
    let p := e.ptr f
    let region := bits p.toNat 63 56
    if region == 1 || region == 2 then (s, some (memTrap cSpace false f.width p))
    else
      match s.check e.k p w w .load with
      | (.trap c, s) => (s, some (memTrap c false f.width p))
      | (.park g, s) => (s, some (.park g p))
      | (.ok (.glob pa en _), s) =>
        if f.scope.toNat < 2 then (e.load s f.sbs f.d w false pa p en false true, none)
        else
          let op := s.nextId
          let s := e.addOp s f.sbs (destRegs f.d w) none none true .none
          (s.addReq { e.req s .acquire (some op) pa p en w with acq := true, scope := f.scope.toNat }, none)
      | (.ok _, s) => (s, none)) s

/-- REL (R224, R219; spec/03_memory_model.md R85). -/
def execRel (f : FM) (s : State) : Out :=
  issueCommit (.rel f) f.pred f.pneg none (fun e s =>
    let w := widthBytes f.width
    let p := e.ptr f
    let region := bits p.toNat 63 56
    if region == 1 || region == 2 then (s, some (memTrap cSpace true f.width p))
    else
      match s.check e.k p w w .store with
      | (.trap c, s) => (s, some (memTrap c true f.width p))
      | (.park g, s) => (s, some (.park g p))
      | (.ok (.glob pa en wok), s) =>
        match s.commitBlock e.k.id with
        | (s, false) => (s, some .hold)
        | (s, true) =>
          if wok then
            let wide := decide (2 ≤ f.scope.toNat)
            let s := if wide then e.upd (s.irrevocable e.k.id) fun t => t.clearMark (granule pa) else s
            (s.addReq { e.req s .release none pa p en w with data := e.data f.d w, rel := true, scope := f.scope.toNat }, none)
          else
            let s := s.modBlock e.k.id fun k => k.storeFault (e.entry s pa p en w (e.data f.d w) false false f.width)
            (s, sfStop (s.thread e.k.id e.tl))
      | (.ok _, s) => (s, none)) s

/-- PHASE (R226; spec/03_memory_model.md R90): commit, and write back every dirty line of the core; WRITE_BACK_ACK completes it. -/
def execPhase (f : FM) (s : State) : Out :=
  issueCommit (.phase f) f.pred f.pneg none (fun e s =>
    match s.commitBlock e.k.id with
    | (s, false) => (s, some .hold)
    | (s, true) =>
      let s := if 2 ≤ f.scope.toNat then s.irrevocable e.k.id else s
      let s := e.upd s fun t => { t with phases := t.phases + 1 }
      (s.fence (.phase e.k.id e.tl f.scope.toNat) [e.k.core] (fun _ _ => true) (s.older e.k.id e.tl), none)) s

/-! ### Prefetch, cache control, drain, queries -/

/-- PREF (R228): checks 1 to 5; a lane that fails any is dropped. -/
def execPref (f : FM) (s : State) : Out :=
  issue (.pref f) f.pred f.pneg none (fun e s =>
    let p := e.ptr f
    match s.check e.k p 1 1 .pref with
    | (.ok (.glob pa en _), s) =>
      if en.vc == 0 then (s, none)
      else (s.addReq { e.req s .fill none (granule pa * 128) p en 1 with level := f.md.toNat }, none)
    | (_, s) => (s, none)) s

/-- CLINE (R229). -/
def State.cline (s : State) (c : CoreRef) (g op : Nat) : State :=
  let wb := fun (s : State) => s.arriveWb c g
  let inv := fun (s : State) => (s.dropCopy c g).dropL2 c.die g
  match op with
  | 0 => wb s
  | 1 => inv s
  | 2 => inv (wb s)
  | _ => s.setCore c { s.core c with copies := [] }
/-- CLINE (R229). A pointer of region 1 or 2 that passes its checks names no global granule: nothing happens (notes/assumptions/50.md). -/
def execCline (f : FM) (s : State) : Out :=
  issue (.cline f) f.pred f.pneg none (fun e s =>
    let p := e.ptr f
    match s.check e.k p 1 1 .cline with
    | (.trap c, s) => (s, some (memTrap c false f.width p))
    | (.ok (.glob pa _ _), s) => (s.cline e.k.core (granule pa) f.md.toNat, none)
    | (_, s) => (s, none)) s

/-- DRAINST (R230). -/
def execDrainst (f : FM) (s : State) : Out :=
  issueCommit (.drainst f) f.pred f.pneg none (fun e s =>
    match s.commitBlock e.k.id with
    | (s, true) => (s, none)
    | (s, false) => (s, some .hold)) s true

/-- A sync record as VCQRY .sync returns it (spec/03_memory_model.md R84). -/
def SyncRec.word (r : SyncRec) : DWord :=
  BitVec.ofBool r.sv ++ BitVec.ofBool r.fl ++ r.rdie ++ r.rcore ++ r.rpkg ++ r.rgen ++ BitVec.ofBool r.bv ++ r.boost ++ r.hdie ++ r.hcore ++ r.hpkg
/-- Word 2 of a VC table entry (spec/18_cache.md R442). -/
def VcEntry.word2 (v : VcEntry) : DWord :=
  BitVec.ofBool v.v ++ BitVec.ofBool v.old.isSome ++ BitVec.ofBool v.fix ++ (0 : BitVec 29) ++ v.lost
/-- The cores of the package that hold dirty bytes, or a copy, of a granule. -/
def State.dirtyCores (s : State) (g : Nat) : List Nat := (s.cores.filter fun c => (tget c.2.dirty g).isSome).map (·.1)
def State.copyCores (s : State) (g : Nat) : List Nat := (s.cores.filter fun c => (tget c.2.copies g).isSome).map (·.1)
/-- A demand, a recall or a bias flip of a granule is in progress. -/
def State.granuleBusy (s : State) (g : Nat) : Bool :=
  s.fences.any (fun f => match f.who with
    | .demand _ h _ => h == g
    | .recall h _ => h == g
    | .remoteReq _ h _ => h == g
    | .flip h _ => h == g
    | .done p _ => granule p == g
    | _ => false) || s.vcCmds.any (fun c => match c.cmd with
    | .bias _ _ st fr n => st && fr ≤ g / 32 && decide (g / 32 < fr + n)
    | _ => false)
/-- Member index in the coherence group of a package (spec/19_fabric.md R472). -/
def State.memberOf (s : State) (p : Nat) : Option Nat :=
  (List.range 32).find? fun m => match lget s.fab.cgtab (m / 4) with
    | some w => let e := bits w.toNat (m % 4 * 16 + 15) (m % 4 * 16); bit e 15 && e % 2 ^ 14 == p
    | none => false
/-- A directory entry (spec/18_cache.md R458); all zero for an untracked page (R463). -/
def State.dirWord (s : State) (g : Nat) (tracked : Bool) : DWord :=
  if !tracked then 0 else
    let dc := s.dirtyCores g
    let cc := s.copyCores g
    let l2 := (s.l2.filter fun p => (tget p.2 g).isSome).map (·.1)
    let sh := (tget s.fab.sharers g).getD []
    let rem := (((tget s.fab.remoteDirty g).getD [] ++ sh).filterMap fun p => s.memberOf p.toNat).foldl sins []
    let st := if s.poisoned g then 3 else if !dc.isEmpty || !((tget s.fab.remoteDirty g).getD []).isEmpty then 2
      else if !cc.isEmpty || !l2.isEmpty || !sh.isEmpty || (tget s.llc g).isSome then 1 else 0
    let dies := nub (((dc ++ cc).map fun k => k / 128) ++ l2)
    let base := (s.dieMap.homeSlice (g * 128)).1 - s.dieMap.nsd - s.dieMap.ngd
    BitVec.ofNat 64 (st * 2 ^ 62 + 2 ^ 61 + boolBit (s.srec g).sv 60 + boolBit (s.granuleBusy g) 59 +
      (rem.map fun m => 2 ^ (21 + m)).sum + (if (tget s.llc g).isSome then 2 ^ (14 + base) else 0) + (dies.map fun d => 2 ^ d).sum)
/-- VCQRY (spec/18_cache.md R463). -/
def execVcqry (f : FM) (s : State) : Out :=
  issue (.vcqry f) f.pred f.pneg (some f.sbs.toNat) (fun e s =>
    if f.md == 0 then
      let i := e.r f.a
      if i.toNat / 256 != 0 then (s, some (.trap cVcOperand 0 0 false false))
      else
        let v := (s.ctx e.k.ctx).bind fun c => tget c.vcs i.toNat
        let w0 := (v.map (·.w0)).getD 0
        let w2 := (v.map (·.word2)).getD 0
        (e.land s f.sbs f.d 16 (wordsOf 2 w0.toNat ++ wordsOf 2 w2.toNat), none)
    else
      let p := e.ptr f
      let region := bits p.toNat 63 56
      if region == 1 || region == 2 then (s, some (memTrap cSpace false f.width p))
      else
        match s.check e.k p 8 8 .query with
        | (.trap c, s) => (s, some (memTrap c false f.width p))
        | (.ok (.glob pa en _), s) =>
          let v := if f.md == 1 then (s.srec (granule pa)).word else s.dirWord (granule pa) en.trk
          (e.land s f.sbs f.d 8 (wordsOf 2 v.toNat), none)
        | (_, s) => (s, none)) s

end Sys2Proof.Machine
end

