-- ==== Sys2Proof/Machine/Sync.lean ====
section
/-! DEFINITION. The instructions of class SYNC: scoped barriers, barrier objects, queues (spec/08_core_sync.md R232-R246), and the
updates of a barrier object that sequencers and engines share with them. -/

namespace Sys2Proof.Machine

/-! ### Scoped barriers -/

/-- The launch of a block does not allow a barrier at a scope (spec/02_execution.md R52, R53). -/
def State.barIllegal (s : State) (k : Block) (scope : Nat) : Bool :=
  2 ≤ scope && (match s.launch k.launch with
    | some l => !l.coop || (scope == 5 && l.podgrp == 0)
    | none => true)
/-- The thread's arrival at a barrier (R234). -/
def Thread.arrival (t : Thread) (scope bid : Nat) : Option BarArr := t.bars.find? fun a => a.scope == scope && a.bid == bid
/-- Count the arrival of a thread in the current phase of its instance; the phase completes with its last participant (R235). -/
def State.arrive (s : State) (b tl scope bid : Nat) : State :=
  match s.block b with
  | none => s
  | some k =>
    let i := s.barInst k scope
    let v := s.barOf scope i.1 i.2 bid
    (s.setBar { v with arrived := v.arrived ++ [(b, tl)] }).barCheck scope i.1 i.2 bid
/-- BARARV for one thread (R235): the stores commit; from quad scope on the core's dirty lines are written back first, and the arrival
counts when they have reached their homes and the thread's older requests have been performed (spec/03_memory_model.md R94, R80). -/
def Env.barArrive (e : Env) (s : State) (scope bid : Nat) : LaneOut :=
  if s.barIllegal e.k scope then (s, some (.trap cIllegalEncoding 0 0 false false))
  else if ((s.thread e.k.id e.tl).arrival scope bid).isSome then (s, some (.trap cBarSequence 0 0 false false))
  else
    match s.commitBlock e.k.id with
    | (s, false) => (s, some .hold)
    | (s, true) =>
      let i := s.barInst e.k scope
      let ph := (s.barOf scope i.1 i.2 bid).phase
      let s := e.upd s fun t => { t with bars := t.bars ++ [⟨scope, bid, ph, false⟩] }
      if scope == 0 then (s, none)
      else if scope == 1 && (s.older e.k.id e.tl).isEmpty then (s.arrive e.k.id e.tl scope bid, none)
      else
        let s := if scope == 1 then s else s.irrevocable e.k.id
        (s.fence (.barrier e.k.id e.tl scope bid ph) [e.k.core] (fun _ _ => scope != 1) (s.older e.k.id e.tl), none)
/-- The phase of an arrival has completed. -/
def State.barDone (s : State) (k : Block) (a : BarArr) : Bool :=
  a.scope == 0 || a.done || (let i := s.barInst k a.scope; decide (a.phase < (s.barOf a.scope i.1 i.2 a.bid).phase))
/-- BARWAIT for one thread (R235). -/
def Env.barWait (e : Env) (s : State) (scope bid : Nat) : LaneOut :=
  match (s.thread e.k.id e.tl).arrival scope bid with
  | none => (s, some (.trap cBarSequence 0 0 false false))
  | some a =>
    if s.barDone e.k a then
      let s := if 2 ≤ scope then s.acquireInval e.k.core (4 ≤ scope) (scope == 5) else s
      (e.upd s fun t => { t with bars := t.bars.filter fun a => !(a.scope == scope && a.bid == bid) }, none)
    else (e.block s (.bar scope bid), none)
/-- BARARV (R235). -/
def execBararv (f : FM) (s : State) : Out :=
  issueCommit (.bararv f) f.pred f.pneg none (fun e s => e.barArrive s f.scope.toNat f.md.toNat) s
/-- BARWAIT (R235). -/
def execBarwait (f : FM) (s : State) : Out :=
  issue (.barwait f) f.pred f.pneg none (fun e s =>
    if s.barIllegal e.k f.scope.toNat then (s, some (.trap cIllegalEncoding 0 0 false false))
    else e.barWait s f.scope.toNat f.md.toNat) s
/-- BAR: BARARV, then BARWAIT (R235). -/
def execBar (f : FM) (s : State) : Out :=
  issueCommit (.bar f) f.pred f.pneg none (fun e s =>
    match e.barArrive s f.scope.toNat f.md.toNat with
    | (s, none) => e.barWait s f.scope.toNat f.md.toNat
    | r => r) s

/-! ### Barrier objects -/

/-- A control word (R236). -/
structure Bo where
  ph : Bool
  v : Bool
  init : Nat
  pend : Nat
  tx : Int
  deriving DecidableEq, Repr
def boOf (w : Nat) : Bo := ⟨bit w 63, bit w 62, bits w 61 50, bits w 49 38, sext w 32⟩
def Bo.word (o : Bo) : DWord :=
  BitVec.ofBool o.ph ++ BitVec.ofBool o.v ++ BitVec.ofNat 12 o.init ++ BitVec.ofNat 12 o.pend ++ (0 : BitVec 6) ++ BitVec.ofInt 32 o.tx
/-- The completion check (R238). -/
def Bo.check (o : Bo) : Bo := if o.v && o.pend == 0 && o.tx == 0 then { o with ph := !o.ph, pend := o.init, tx := 0 } else o
/-- Record in a status word for phase ph (R239): `final` counts the operation; a cause is kept if it is the first. -/
def stRecord (st : Nat) (ph final : Bool) (cause eng detail : Nat) : Nat :=
  let st := if bit st 63 != ph then boolBit ph 63 else st
  let st := if final then st - bits st 49 34 * 2 ^ 34 + (bits st 49 34 + 1) % 65536 * 2 ^ 34 else st
  if bits st 62 53 == 0 && cause != 0 then st - bits st 52 50 * 2 ^ 50 - bits st 31 0 + cause * 2 ^ 53 + eng * 2 ^ 50 + detail % 2 ^ 32 else st

/-- The object at local address a of a block. -/
def Block.bo (k : Block) (a : Nat) : Bo := boOf (mread k.lmem a 8)
/-- Threads blocked on the object re-evaluate their condition (R238, R241). -/
def Block.boWake (k : Block) (a cyc : Nat) : Block :=
  let ph := (k.bo a).ph
  { k with threads := k.threads.map fun (t : Thread) => match t.status with
      | .waiting (.bowait a2 e) => if a2 == a && ph != e then t.resume cyc else t
      | _ => t }
/-- A sequencer's next word, or the header after its clause. -/
def Sequencer.advance (q : Sequencer) : Sequencer :=
  match q.head with
  | some h => if h.count ≤ q.idx then { q with pc := clauseNext q.hdr h, head := none, words := [], idx := 0 } else { q with idx := q.idx + 1 }
  | none => q
/-- SQBOWAIT is satisfied: the tracker takes the phase (spec/10_distributor.md R290). -/
def Sequencer.boWake (q : Sequencer) (b a : Nat) (ph : Bool) (due : Option Nat) : Sequencer :=
  match q.bowait with
  | some (a2, n) => if q.running && q.owner == b && a2 == a && q.t.getLsbD n != ph then
      { q.advance with bowait := none, due := due, t := if ph then q.t ||| (1#8 <<< n) else q.t &&& ~~~(1#8 <<< n) } else q
  | none => q
/-- Write the control word of an object after an update, check completion, wake its waiters (R238). In a fixed-timing context a
sequencer goes on 4 cycles after the flip is performed, which is `lag` cycles from now (spec/10_distributor.md R294). -/
def State.boPut (s : State) (b a : Nat) (o : Bo) (lag : Nat := 0) : State :=
  match s.block b with
  | none => s
  | some k =>
    let o := o.check
    let s := s.setBlock ({ k with lmem := mwrite k.lmem a 8 o.word.toNat }.boWake a (s.quad k.core).cyc)
    let fixed := s.blockFixed k
    { s with cores := s.cores.map fun (p : Nat × Core) =>
        let due := if fixed then some ((s.quad (coreOfKey p.1)).cyc + lag + 4) else none
        (p.1, { p.2 with cseq := p.2.cseq.boWake b a o.ph due, mseq := p.2.mseq.boWake b a o.ph due }) }
/-- An instruction that leaves an object as it found it is an update of it too: the completion check follows, and the blocked threads
re-evaluate their condition (R238). -/
def State.boLook (s : State) (b a : Nat) : State :=
  match s.block b with
  | none => s
  | some k =>
    let o := k.bo a
    if o.check == o then s.modBlock b fun k => k.boWake a (s.quad k.core).cyc else s.boPut b a o
/-- Write the status word. -/
def State.stPut (s : State) (b a st : Nat) : State := s.modBlock b fun k => { k with lmem := mwrite k.lmem (a + 8) 8 st }

/-- An engine or a sequencer delivers to a barrier object (R239): `bytes` delivered and `arr` arrivals; the final part carries the
operation's own cause. -/
def State.deliver (s : State) (b a : Nat) (bytes : Nat) (arr final : Bool) (eng cause detail : Nat) (lag : Nat := 0) : State :=
  match s.block b with
  | none => s
  | some k =>
    let o := k.bo a
    let st := mread k.lmem (a + 8) 8
    let own := if final then cause else 0
    if !o.v then (s.stPut b a (stRecord st o.ph final (if own == 0 then cBoInvalid else own) eng (if own == 0 then 0 else detail))).boPut b a o lag
    else
      let ovr := arr && o.pend == 0
      let range := o.tx - bytes < -(2 ^ 31 : Nat)
      let c := if own != 0 then own else if ovr then cBoOverrun else if range then cBoCountRange else 0
      let d := if own != 0 then detail else 0
      let st := if final || c != 0 then stRecord st o.ph final c eng d else st
      let o := { o with pend := if arr && !ovr then o.pend - 1 else o.pend, tx := if range then o.tx else o.tx - bytes }
      (s.stPut b a st).boPut b a o lag

/-- Address checks of R240. -/
def boCause (a : Int) (size : Nat) : Option Nat :=
  if a < 0 || (size : Int) ≤ a + 15 then some cBounds else if a.toNat % 16 != 0 then some cMisaligned else none
/-- A lane on a barrier object: `wr` says whether the instruction may write it. -/
def Env.boLane (e : Env) (s : State) (f : FM) (wr : Bool) (act : State → Nat → Bo → LaneOut) : LaneOut :=
  let a := e.offs f
  match boCause a e.k.localSize with
  | some c => (s, some (memTrap c wr f.width (regionPtr 1 a)))
  | none => act s a.toNat (((s.block e.k.id).getD e.k).bo a.toNat)
/-- BOINIT (R240). -/
def execBoinit (f : FM) (s : State) : Out :=
  issue (.boinit f) f.pred f.pneg none (fun e s => e.boLane s f true fun s a _ =>
    let n := (e.r f.d).toNat
    if n == 0 || 4095 < n then (s, some (memTrap cBoCountRange true 0 0))
    else ((s.stPut e.k.id a 0).boPut e.k.id a ⟨false, true, n, n, 0⟩, none)) s
/-- BOEXP: announce n bytes, and arrive when jn is set; the cause of a refusal (R240). -/
def Bo.expect (o : Bo) (n : Nat) (jn : Bool) : Except Nat Bo :=
  if !o.v then .error cBoInvalid
  else if (2 ^ 31 - 1 : Nat) < o.tx + n || (jn && o.pend == 0) then .error cBoCountRange
  else .ok { o with tx := o.tx + n, pend := if jn then o.pend - 1 else o.pend }
/-- BOARV: one arrival (R240). -/
def Bo.arrive (o : Bo) : Except Nat Bo :=
  if !o.v then .error cBoInvalid else if o.pend == 0 then .error cBoOverrun else .ok { o with pend := o.pend - 1 }
/-- BOEXP (R240). -/
def execBoexp (f : FM) (s : State) : Out :=
  issue (.boexp f) f.pred f.pneg none (fun e s => e.boLane s f true fun s a o =>
    match o.expect (e.r f.d).toNat (f.md.getLsbD 0) with
    | .error c => (s, some (memTrap c true 0 0))
    | .ok o => (s.boPut e.k.id a o, none)) s
/-- BOARV (R240). -/
def execBoarv (f : FM) (s : State) : Out :=
  issue (.boarv f) f.pred f.pneg none (fun e s => e.boLane s f true fun s a o =>
    match o.arrive with
    | .error c => (s, some (memTrap c true 0 0))
    | .ok o => (s.boPut e.k.id a o, none)) s
/-- BOWAIT (R241). -/
def execBowait (f : FM) (s : State) : Out :=
  issue (.bowait f) f.pred f.pneg none (fun e s => e.boLane s f false fun s a o =>
    let p := (e.r f.d).getLsbD 0
    if !o.v then (s, some (memTrap cBoInvalid false 0 0))
    else ((if o.ph != p then s else e.block s (.bowait a p)).boLook e.k.id a, none)) s
/-- BOTEST (R241). -/
def execBotest (f : FM) (s : State) : Out :=
  issue (.botest f) f.pred f.pneg none (fun e s => e.boLane s f false fun s a o =>
    let p := (e.r f.d).getLsbD 0
    if !o.v then (s, some (memTrap cBoInvalid false 0 0))
    else ((e.upd s fun t => t.setPred (f.md.toNat % 8) (o.ph != p)).boLook e.k.id a, none)) s

/-! ### Queues (R243-R246) -/

/-- A queue header. -/
structure Que where
  head : Nat
  tail : Nat
  v : Bool
  alw : Nat
  cap : Nat
  deriving DecidableEq, Repr
def queOf (w : Nat) : Que := ⟨bits w 63 48, bits w 47 32, bit w 31, bits w 24 16, bits w 8 0⟩
def Que.word (q : Que) : Nat :=
  q.head * 2 ^ 48 + q.tail * 2 ^ 32 + boolBit q.v 31 + q.alw * 2 ^ 16 + q.cap
def Que.count (q : Que) : Nat := (q.tail + 2 * q.cap - q.head % (2 * q.cap)) % (2 * q.cap)
def Block.que (k : Block) (h : Nat) : Que := queOf (mread k.lmem h 8)
/-- Push at the tail of the queue at h, if there is room. -/
def Block.qpush (k : Block) (h : Nat) (v : Word) : Option Block :=
  let q := k.que h
  if q.count < q.alw then
    some { k with lmem := mwrite (mwrite k.lmem (h + 8 + 4 * (q.tail % q.cap)) 4 v.toNat) h 8 ({ q with tail := (q.tail + 1) % (2 * q.cap) }).word }
  else none
/-- Pop at the head, if there is an entry. -/
def Block.qpop (k : Block) (h : Nat) : Option (Word × Block) :=
  let q := k.que h
  if 0 < q.count then
    some (BitVec.ofNat 32 (mread k.lmem (h + 8 + 4 * (q.head % q.cap)) 4),
      { k with lmem := mwrite k.lmem h 8 ({ q with head := (q.head + 1) % (2 * q.cap) }).word })
  else none
/-- What a blocked thread does on the queue at h: its number and its order. -/
def Block.qwaiters (k : Block) (h : Nat) : List (Nat × Nat) :=
  k.threads.zipIdx.filterMap fun p => match p.1.status with
    | .waiting (.qpush q _) => if tget k.qtable q == some h then some (p.1.waitSeq, p.2) else none
    | .waiting (.qpop q _) => if tget k.qtable q == some h then some (p.1.waitSeq, p.2) else none
    | _ => none
/-- Insert by order. -/
def insByFst (x : Nat × Nat) : List (Nat × Nat) → List (Nat × Nat)
  | [] => [x]
  | y :: r => if x.1 < y.1 then x :: y :: r else y :: insByFst x r
def sortByFst (l : List (Nat × Nat)) : List (Nat × Nat) := l.foldl (fun a x => insByFst x a) []
/-- One blocked thread is served, if its condition holds. -/
def Block.qserve1 (k : Block) (h tl cyc : Nat) : Option Block :=
  if !(k.que h).v then none else
    match (k.thread tl).status with
    | .waiting (.qpush _ v) => (k.qpush h v).map fun k => k.modThread tl fun t => t.resume cyc
    | .waiting (.qpop _ d) => (k.qpop h).map fun p => p.2.modThread tl fun t => (t.setReg d p.1).resume cyc
    | _ => none
/-- Blocked threads of a queue are served in the order in which they blocked (R246). -/
def Block.qserve (k : Block) (h cyc : Nat) : Nat → Block
  | 0 => k
  | n + 1 =>
    match (sortByFst (k.qwaiters h)).findSome? fun p => k.qserve1 h p.2 cyc with
    | some k => k.qserve h cyc n
    | none => k
def State.qserve (s : State) (b h : Nat) : State :=
  match s.block b with
  | some k => s.setBlock (k.qserve h (s.quad k.core).cyc k.threads.length)
  | none => s
/-- QDEF (R244). -/
def execQdef (f : FM) (s : State) : Out :=
  issue (.qdef f) f.pred f.pneg none (fun e s =>
    let a := e.offs f
    let g := (e.r f.d).toNat
    let k := (s.block e.k.id).getD e.k
    let ao := bit g 31
    let cap := bits g 8 0
    let alw := bits g 24 16
    let old := k.que a.toNat
    let cap2 := if ao then old.cap else cap
    if a % 8 != 0 then (s, some (memTrap cMisaligned true 0 (regionPtr 1 a)))
    else if !ao && (bits g 30 25 != 0 || bits g 15 9 != 0 || cap == 0 || 256 < cap || alw == 0 || cap < alw) then (s, some (memTrap cQueueConfig true 0 0))
    else if a < 0 || (e.k.localSize : Int) ≤ a + 7 || (e.k.localSize : Int) ≤ a + 8 + 4 * cap2 - 1 then (s, some (memTrap cBounds true 0 (regionPtr 1 a)))
    else if ao && !old.v then (s, some (memTrap cQueueInvalid true 0 0))
    else if ao && (alw == 0 || old.cap < alw) then (s, some (memTrap cQueueConfig true 0 0))
    else
      let q : Que := if ao then { old with alw := alw } else ⟨0, 0, true, alw, cap⟩
      let s := s.modBlock e.k.id fun k => { k with lmem := mwrite k.lmem a.toNat 8 q.word, qtable := tput k.qtable f.md.toNat a.toNat }
      (s.qserve e.k.id a.toNat, none)) s
/-- A lane on queue q: its header must be bound and valid (R245). -/
def Env.qLane (e : Env) (s : State) (q : Nat) (act : State → Block → Nat → LaneOut) : LaneOut :=
  let k := (s.block e.k.id).getD e.k
  match tget k.qtable q with
  | none => (s, some (memTrap cQueueUndefined true 0 0))
  | some h => if !(k.que h).v then (s, some (memTrap cQueueInvalid true 0 0)) else act s k h
/-- QPUSH (R245). -/
def execQpush (f : FM) (s : State) : Out :=
  issue (.qpush f) f.pred f.pneg none (fun e s => e.qLane s f.md.toNat fun s k h =>
    match k.qpush h (e.r f.d) with
    | some k => ((s.setBlock k).qserve e.k.id h, none)
    | none => (e.block s (.qpush f.md.toNat (e.r f.d)), none)) s
/-- QPOP (R245). -/
def execQpop (f : FM) (s : State) : Out :=
  issue (.qpop f) f.pred f.pneg none (fun e s => e.qLane s f.md.toNat fun s k h =>
    match k.qpop h with
    | some p => ((e.upd (s.setBlock p.2) fun t => t.setReg f.d.toNat p.1).qserve e.k.id h, none)
    | none => (e.block s (.qpop f.md.toNat f.d.toNat), none)) s
/-- QTRY (R245): the predicate Q is OFF20[2:0], DIR OFF20[3]. -/
def execQtry (f : FM) (s : State) : Out :=
  issue (.qtry f) f.pred f.pneg none (fun e s => e.qLane s f.md.toNat fun s k h =>
    let q := f.off.toNat % 8
    if !f.off.getLsbD 3 then
      match k.qpush h (e.r f.d) with
      | some k => (e.upd ((s.setBlock k).qserve e.k.id h) fun t => t.setPred q true, none)
      | none => (e.upd s fun t => t.setPred q false, none)
    else
      match k.qpop h with
      | some p => (e.upd ((s.setBlock p.2).qserve e.k.id h) fun t => (t.setReg f.d.toNat p.1).setPred q true, none)
      | none => (e.upd s fun t => t.setPred q false, none)) s

end Sys2Proof.Machine
end

