-- ==== Sys2Proof/Machine/Sys.lean ====
section
/-! DEFINITION. Traps, handlers, fragments and priority: TRAP, BPT, TRET, FRGINFO, SFQPOP, KILLF (spec/09_core_traps.md R264-R269),
SETPRIO, TMODE (spec/10_distributor.md R283, R284). -/

namespace Sys2Proof.Machine

/-- TRAP (R265). -/
def execTrap (f : FI) (s : State) : Out :=
  issue (.trap f) f.pred f.pneg none (fun _ s => (s, some (.trap (0x40 + f.imm.toNat % 64) f.imm 0 true false))) s
/-- BPT (R265). -/
def execBpt (f : FI) (s : State) : Out :=
  issue (.bpt f) f.pred f.pneg none (fun _ s => (s, some (.trap cBreakpoint f.imm 0 true false))) s

/-! ### Waits re-entered -/

/-- A sequencer is idle (spec/10_distributor.md R287, R292). -/
def Sequencer.isIdle (q : Sequencer) : Bool := !q.running && !q.draining
/-- The sequencers an RDV selects are idle (R293). -/
def State.rdvDone (s : State) (c : CoreRef) (cpy mat pair : Bool) : Bool :=
  let one := fun (c : CoreRef) => (!cpy || (s.core c).cseq.isIdle) && (!mat || (s.core c).mseq.isIdle)
  one c && (!pair || one (CoreRef.partner c))
/-- A blocked thread whose condition already holds goes on (spec/08_core_sync.md R249; spec/09_core_traps.md R267). -/
def State.retryWait (s : State) (b tl : Nat) : State :=
  match s.block b with
  | none => s
  | some k =>
    let cyc := (s.quad k.core).cyc
    match (k.thread tl).status with
    | .waiting (.bar sc bid) => match (k.thread tl).arrival sc bid with
      | some a => if s.barDone k a then s.leaveBar b tl sc bid else s
      | none => s
    | .waiting (.bowait a e) => if (k.bo a).ph != e then s.modThread b tl fun t => t.resume cyc else s
    | .waiting (.qpush q _) => match tget k.qtable q with
      | some h => s.qserve b h
      | none => s
    | .waiting (.qpop q _) => match tget k.qtable q with
      | some h => s.qserve b h
      | none => s
    | .waiting (.jwait j) => if k.jexpects j tl then s.joinCheck b else s.modThread b tl fun t => t.resume cyc
    | .waiting (.rdv d n c m p) => if s.rdvDone ⟨d, n⟩ c m p then s.modThread b tl fun t => t.resume cyc else s
    | .waiting (.killf _) => s.killWake b
    | _ => s

/-- TRET: the thread leaves its handler for t in the clause with header hdr (R267). -/
def Thread.tret (t : Thread) (pc hdr : DWord) (cyc : Nat) : Thread :=
  { t.goto pc cyc with hdr := hdr, inHandler := false, preds := t.tw0.extractLsb' 38 7 }
/-- TRET (R267). -/
def execTret (f : FA) (s : State) : Out :=
  issue (.tret f) f.pred f.pneg none (fun e s =>
    let cyc := (s.quad e.k.core).cyc
    if !e.th.inHandler then (s, some (.trap cHandlerState 0 0 false false))
    else if f.md.getLsbD 0 then
      let t := e.r64 f.a
      match s.target e.k t with
      | (.ok, s) => (e.upd s fun th => th.tret t t cyc, none)
      | (.illegal, s) => (s, some (.trap cIllegalTarget 0 t false false))
      | (.wait, s) => (s, some .hold)
    else
      match (if e.th.tw0.getLsbD 50 then e.th.savedWait else none) with
      | some w =>
        let s := e.upd s fun th => { th.tret th.tw2 th.rhdr cyc with status := .waiting w, waitBase := 0, waitFrom := cyc, waitSeq := s.nextId }
        (({ s with nextId := s.nextId + 1 }).retryWait e.k.id e.tl, none)
      | none => (e.upd s fun th => th.tret th.tw2 th.rhdr cyc, none)) s

/-- FRGINFO (R266). -/
def execFrginfo (f : FA) (s : State) : Out :=
  issue (.frginfo f) f.pred f.pneg none (fun e s =>
    let sel := f.md.toNat % 8
    if sel == 0 then (e.upd s fun t => t.setReg64 f.d.toNat (e.th.fid ++ e.th.parent ++ e.th.sib), none)
    else if !e.th.inHandler then (s, some (.trap cHandlerState 0 0 false false))
    else
      let v := match sel with
        | 1 => e.th.tw0
        | 2 => e.th.tw1
        | 3 => e.th.tw2
        | _ => e.th.tw3
      (e.upd s fun t => t.setReg64 f.d.toNat v, none)) s

/-- A store-fault record as SFQPOP writes it (R263): registers lowest first. -/
def sfWords (r : Option SfRec) (lost : BitVec 16) : List Word :=
  match r with
  | some r => [r.va.extractLsb' 0 32, r.va.extractLsb' 32 32,
      BitVec.ofNat 10 cWriteProtect ++ (1 : BitVec 1) ++ r.wfield ++ (0 : BitVec 2) ++ lost, r.word]
  | none => [0, 0, (0 : BitVec 16) ++ lost, 0]
/-- Remove the oldest record of a thread. -/
def sfTake (tl : Nat) : List SfRec → Option SfRec × List SfRec
  | [] => (none, [])
  | r :: l => if r.tl == tl then (some r, l) else let q := sfTake tl l; (q.1, r :: q.2)
/-- SFQPOP (R268). -/
def execSfqpop (f : FA) (s : State) : Out :=
  issue (.sfqpop f) f.pred f.pneg none (fun e s =>
    let k := (s.block e.k.id).getD e.k
    let q := sfTake e.tl k.sfq
    let lost := (k.thread e.tl).lost
    (e.upd (s.modBlock e.k.id fun k => { k with sfq := q.2 }) fun t => { t.setRegs f.d.toNat (sfWords q.1 lost) with lost := 0 }, none)) s

/-- KILLF ends the threads of fragment f of a block: one that issues a clause ends with that clause (R269). -/
def State.killFragment (s : State) (b : Nat) (f : BitVec 16) : State :=
  match s.block b with
  | none => s
  | some k =>
    (k.threads.zipIdx.filter fun p => p.1.alive && p.1.fid == f).foldl (fun s p =>
      if p.1.status.isIssuing then s.modThread b p.2 fun t => { t with kill := true } else s.killThread b p.2) s
/-- KILLF (R269). -/
def execKillf (f : FA) (s : State) : Out :=
  issue (.killf f) f.pred f.pneg none (fun e s =>
    let fid : BitVec 16 := if f.md.getLsbD 0 then e.th.fid else (e.r f.a).extractLsb' 0 16
    let s := s.killFragment e.k.id fid
    let k := (s.block e.k.id).getD e.k
    if e.th.fid != fid && k.threads.any (fun t => t.alive && t.fid == fid) then (e.block s (.killf fid), none) else (s, none)) s

/-! ### Priority and timing mode -/

/-- SETPRIO (spec/10_distributor.md R283). -/
def execSetprio (f : FI) (s : State) : Out :=
  issueAlu (.setprio f) f.pred f.pneg (fun e t =>
    let v : BitVec 7 := if f.md.getLsbD 0 then (e.r f.a).extractLsb' 0 7 else f.imm.extractLsb' 0 7
    let cap : BitVec 7 := ((e.s0.launch e.k.launch).map (·.prio)).getD 0
    { t with lprioNew := some (if v.toNat < cap.toNat then v else cap) }) s
/-- TMODE (R284). -/
def execTmode (f : FI) (s : State) : Out :=
  issueAlu (.tmode f) f.pred f.pneg (fun e t =>
    let pin := (e.s0.quad e.k.core).clock.isPinned
    let v : Word := if f.imm == 0 then
        BitVec.ofNat 16 (if pin then 2100 else 2500) ++ (0 : BitVec 14) ++ BitVec.ofBool pin ++ BitVec.ofBool (e.s0.blockFixed e.k)
      else 1
    t.setReg f.d.toNat v) s

end Sys2Proof.Machine
end

