-- ==== Sys2Proof/Machine/Vc.lean ====
section
/-! DEFINITION. Virtual caches: cache definition records, share grant, VCDEF, VCSIZE, VCMOVE, VCFLUSH, BIASFLIP, and the steps of the
memory-cache engine on them (spec/18_cache.md R440-R457, R462). -/

namespace Sys2Proof.Machine

/-! ### Cache definition records (R445) -/

def cdrAssoc (w0 : Nat) : Nat := bits w0 61 59
def cdrFar (w0 : Nat) : Bool := bit w0 54
def cdrL2 (w0 : Nat) : Nat := bits w0 53 40
def cdrLl (w0 : Nat) : Nat := bits w0 39 22
/-- The placement rectangle: mesh, row, column, rows, columns. -/
def cdrRect (w1 : Nat) : Bool × Nat × Nat × Nat × Nat := (bit w1 63, bits w1 62 55, bits w1 54 47, bits w1 46 39, bits w1 38 31)
/-- A rectangle that R18 would refuse. -/
def DieMap.rectBad (m : DieMap) (geo : Bool) (row0 col0 rows cols : Nat) : Bool :=
  m.rectOut geo row0 col0 rows cols || (m.rectCores geo row0 col0 rows cols).isEmpty
/-- Share counts that break R445 for an associativity and a mesh. -/
def DieMap.countsBad (m : DieMap) (w0 w1 l2 ll : Nat) : Bool :=
  let ways := 2 ^ cdrAssoc w0
  l2 % ways != 0 || ll % ways != 0 || 1792 < l2 || 14336 * m.nmcb < ll || (l2 != 0 && bit w1 63)
/-- A placement word that breaks R445. -/
def DieMap.placeBad (m : DieMap) (w0 w1 : Nat) : Bool :=
  let r := cdrRect w1
  bits w1 30 0 != 0 || m.rectBad r.1 r.2.1 r.2.2.1 r.2.2.2.1 r.2.2.2.2 || (cdrL2 w0 != 0 && bit w1 63)
/-- A malformed CDR (R445): eight words. -/
def DieMap.cdrBad (m : DieMap) (ws : List Nat) : Bool :=
  match ws with
  | w0 :: w1 :: rest =>
    bits w0 63 62 == 3 || 5 ≤ cdrAssoc w0 || bits w0 56 55 == 3 || bits w0 21 0 != 0 || rest.any (· != 0) ||
      m.countsBad w0 w1 (cdrL2 w0) (cdrLl w0) || m.placeBad w0 w1
  | _ => true

/-! ### Share grant (R441, R447): a share is (level 2?, die, bank, way) -/

abbrev Share := Bool × Nat × Nat × Nat

/-- Shares in use by defined VCs but those of (ctx, idx), and those out of service. -/
def State.usedShares (s : State) (ctx idx : Nat) : List Share :=
  (s.ctxs.map fun c => (c.2.vcs.map fun v =>
    if (c.1 == ctx && v.1 == idx) || !v.2.v then [] else v.2.shares ++ v.2.old.getD []).flatten).flatten ++ s.badShares
/-- Free ways 0 to 6 of a bank, ascending. -/
def freeWays (used : List Share) (l2 : Bool) (die bank : Nat) : List Nat :=
  (List.range 7).filter fun w => !used.contains (l2, die, bank, w)
/-- Shares of banks in rounds: round r takes the r-th free way of each bank in turn. -/
def roundsOf (used : List Share) (l2 : Bool) (banks : List (Nat × Nat)) : List Share :=
  ((List.range 7).map fun r => banks.filterMap fun b => (lget (freeWays used l2 b.1 b.2) r).map fun w => (l2, b.1, b.2, w)).flatten
/-- The core an L2 bank is near (R441). -/
def bankCore (die b : Nat) : CoreRef := ⟨die, b / 32 * 12 + (b % 32 * 3) / 8⟩
/-- The cores above a last-level slice (R20). -/
def DieMap.coresAbove (m : DieMap) (base slice : Nat) : List CoreRef :=
  ((List.range (m.nsd + m.ngd)).map fun d =>
    if bits (m.word d 0) 60 56 == base && bits (m.word d 0) 55 52 == slice / 32 then
      let x := slice % 32
      if m.isGd d then [(⟨d, x / 8 * 8 + x % 8⟩ : CoreRef)] else (List.range 3).map fun i => ⟨d, x / 4 * 12 + x % 4 * 3 + i⟩
    else []).flatten
/-- Manhattan distance of mesh positions. -/
def DieMap.dist (m : DieMap) (a b : CoreRef) : Nat :=
  let f := fun (x y : Nat) => if x ≤ y then y - x else x - y
  f (m.mrow a) (m.mrow b) + f (m.mcol a) (m.mcol b)
/-- Distance of a bank's cores from the nearest core of the placement. -/
def DieMap.bankDist (m : DieMap) (place cs : List CoreRef) : Nat :=
  ((cs.map fun c => (place.map fun p => m.dist p c).min?.getD 1000).min?).getD 1000
/-- Banks in ascending distance, ties in list order. -/
def DieMap.byDist (m : DieMap) (place : List CoreRef) (cores : Nat × Nat → List CoreRef) (banks : List (Nat × Nat)) : List (Nat × Nat) :=
  let d := banks.map fun b => (m.bankDist place (cores b), b)
  ((List.range 1001).map fun n => (d.filter fun x => x.1 == n).map (·.2)).flatten
/-- Last-level banks as (base die, slice * 32 + bank), in ascending (bank, base die, slice). -/
def DieMap.llBanks (m : DieMap) (p : Nat → Nat → Bool) : List (Nat × Nat) :=
  let sl := m.slices.filter fun x => p x.1 x.2
  ((List.range 32).map fun b => sl.map fun x => (x.1, x.2 * 32 + b)).flatten
/-- Grant the shares of a definition; none when they cannot all be granted. -/
def State.grant (s : State) (ctx idx w0 w1 : Nat) : Option (List Share) :=
  let m := s.dieMap
  let r := cdrRect w1
  let place := m.rectCores r.1 r.2.1 r.2.2.1 r.2.2.2.1 r.2.2.2.2
  let used := s.usedShares ctx idx
  let dies := (List.range m.nsd).filter fun d => place.any fun c => c.die == d
  let l2of := fun d =>
    let all := (List.range 256).map fun b => (d, b)
    let near := all.filter fun b => place.contains (bankCore b.1 b.2)
    let sh := roundsOf used true near
    (if cdrFar w0 then sh ++ roundsOf used true (m.byDist place (fun b => [bankCore b.1 b.2]) (all.filter fun b => !near.contains b)) else sh).take (cdrL2 w0)
  let l2 := if cdrL2 w0 == 0 then [] else dies.map l2of
  let isNear := fun b sl => (m.coresAbove b sl).any fun c => place.contains c
  let ll := if cdrLl w0 == 0 then [] else
    let sh := roundsOf used false (m.llBanks isNear)
    (if cdrFar w0 then sh ++ roundsOf used false
      (m.byDist place (fun b => m.coresAbove b.1 (b.2 / 32)) (m.llBanks fun b sl => !isNear b sl)) else sh).take (cdrLl w0)
  if l2.all (fun x => x.length == cdrL2 w0) && ll.length == cdrLl w0 then some (l2.flatten ++ ll) else none

/-! ### Replacement (R440, R443, R448): a level that holds more lines than it has room for replaces some -/

/-- A line that a level holds: the granule, whose VC it is, its latest use, whether it stands in an old map. -/
structure Line where
  g : Nat
  ctx : Nat
  vc : Nat
  used : Nat
  inOld : Bool
  deriving DecidableEq, Repr
def Copy.line (p : Nat × Copy) : Line := ⟨p.1, p.2.ctx, p.2.vc, p.2.used, p.2.inOld⟩
def DirtyLine.line (p : Nat × DirtyLine) : Line := ⟨p.1, p.2.ctx, p.2.vc, p.2.used, p.2.inOld⟩
/-- Dirty lines of a core that stand in its L1, or in the die's L2, and are not on their way to the home. -/
def Core.dirtyLines (k : Core) (l2 : Bool) : List Line := (k.dirty.filter fun d => d.2.l2 == l2 && !d.2.wb).map DirtyLine.line
/-- The lines of a core's L1, of a die's L2, of the last level. -/
def Core.l1 (k : Core) : List Line := k.copies.map Copy.line ++ k.dirtyLines false
def State.l2Lines (s : State) (die : Nat) : List Line :=
  ((tget s.l2 die).getD []).map Copy.line ++ ((s.cores.filter fun c => c.1 / 128 == die).map fun c => c.2.dirtyLines true).flatten
/-- Shares that `p` selects and a software VC or a share fault takes from the pool. -/
def State.takenShares (s : State) (p : Share → Bool) : Nat :=
  (s.ctxs.map fun c => (c.2.vcs.map fun v =>
    if v.2.v then (v.2.shares.filter p).length + (((v.2.old.getD []).filter p).filter fun x => !v.2.shares.contains x).length else 0).sum).sum +
    (s.badShares.filter p).length
/-- Lines of the pool of VC 1 in the L2 of a die, and in a slice: 256 lines a share (R440, R443, R466). -/
def State.poolL2 (s : State) (die : Nat) : Nat :=
  256 * (2048 - s.takenShares (fun x => x.1 && x.2.1 == die) - (if ((tget s.power.dies die).map (·.dected)).getD false then 256 else 0))
def State.poolSlice (s : State) (base slice : Nat) : Nat :=
  256 * (256 - s.takenShares fun x => !x.1 && x.2.1 == base && x.2.2.1 / 32 == slice)
/-- Group and set of a granule in the shares of a software VC at a level (R448), and its ways. -/
def State.setOf (s : State) (ctx vc : Nat) (l2 : Bool) (die g : Nat) : (Nat × Nat) × Nat :=
  match s.vc ctx vc with
  | none => ((0, 0), 1)
  | some v =>
    let ways := 2 ^ cdrAssoc v.w0.toNat
    let n := g / 2 ^ bits v.w0.toNat 63 62
    let gs := max 1 ((v.shares.filter fun x => x.1 == l2 && (!l2 || x.2.1 == die)).length / ways)
    ((n % gs, n / gs % (256 / 2 ^ bits v.w0.toNat 63 62)), ways)
/-- Lines a and b compete for one place of a level: one set of a software VC, or the pool of a die or slice. -/
def State.rivals (s : State) (l2 : Bool) (die : Nat) (a b : Line) : Bool :=
  !b.inOld && (if 4 ≤ a.vc then b.ctx == a.ctx && b.vc == a.vc && s.setOf a.ctx a.vc l2 die a.g == s.setOf a.ctx a.vc l2 die b.g
    else decide (b.vc < 4) && (l2 || s.dieMap.homeSlice (a.g * 128) == s.dieMap.homeSlice (b.g * 128)))
/-- Lines there is room for where line a stands. -/
def State.roomFor (s : State) (l2 : Bool) (die : Nat) (a : Line) : Nat :=
  if 4 ≤ a.vc then (s.setOf a.ctx a.vc l2 die a.g).2
  else if l2 then s.poolL2 die else let sl := s.dieMap.homeSlice (a.g * 128)
    s.poolSlice sl.1 sl.2
/-- The line of least recent use among lines, `n` granules a line; the clock policy leaves it to a free choice (notes/assumptions/58.md). -/
def leastUsed (ls : List Line) (n : Nat) : Option Line :=
  let last := fun (a : Line) => ((ls.filter fun b => b.g / n == a.g / n).map (·.used)).foldl max 0
  match (ls.map last).min? with
  | some m => ls.find? fun a => last a == m
  | none => none
/-- A line that must leave because of line a, if there is one. A pinned line stays (R443). -/
def State.victimOf (s : State) (l2 : Bool) (die : Nat) (ls : List Line) (a : Line) : Option Line :=
  let n := s.lineLen a.ctx a.vc
  let rs := ls.filter fun b => s.rivals l2 die a b
  if a.inOld || (nub (rs.map fun b => b.g / n)).length ≤ s.roomFor l2 die a then none
  else
    let cs := rs.filter fun b => b.vc != 3
    if 4 ≤ a.vc && ((s.vc a.ctx a.vc).map fun v => bits v.w0.toNat 56 55 == 1).getD false then lget cs (s.freeVal.toNat % cs.length)
    else leastUsed cs n
/-- A line leaves a level: its clean copies go, its dirty bytes set out for the home. -/
def State.dropL2Line (s : State) (die : Nat) (a : Line) : State :=
  let n := s.lineLen a.ctx a.vc
  let s := { s.useFree with l2 := tput s.l2 die (((tget s.l2 die).getD []).filter fun x => x.1 / n != a.g / n) }
  (s.cores.filter fun c => c.1 / 128 == die).foldl (fun s c => s.sendWb (coreOfKey c.1) fun g d => d.l2 && g / n == a.g / n) s
def State.dropLlLine (s : State) (a : Line) : State :=
  let n := s.lineLen a.ctx a.vc
  { s.useFree with llc := s.llc.filter fun x => x.1 / n != a.g / n }
/-- Replace lines of the L2 of a die, and of the last level, until the rest fit. -/
def State.trimL2 (s : State) (die : Nat) : Nat → State
  | 0 => s
  | n + 1 => match (s.l2Lines die).findSome? fun a => s.victimOf true die (s.l2Lines die) a with
    | some a => (s.dropL2Line die a).trimL2 die n
    | none => s
def State.trimLl (s : State) : Nat → State
  | 0 => s
  | n + 1 => match (s.llc.map Copy.line).findSome? fun a => s.victimOf false 0 (s.llc.map Copy.line) a with
    | some a => (s.dropLlLine a).trimLl n
    | none => s
/-- Lines of a core's L1 region: what its blocks leave of the core SRAM (spec/02_execution.md R50). -/
def State.l1Room (s : State) (c : CoreRef) : Nat := (512 * 1024 - ((s.onCore c).map Block.sram).sum) / 128
/-- Replace lines of a core's L1 until the rest fit; a pinned line stays. -/
def State.trimL1 (s : State) (c : CoreRef) : Nat → State
  | 0 => s
  | n + 1 =>
    let ls := (s.core c).l1
    if (nub (ls.map (·.g))).length ≤ s.l1Room c then s
    else match leastUsed (ls.filter fun a => a.vc != 2) 1 with
      | some a => ((s.dropCopy c a.g).sendWb c fun g d => !d.l2 && g == a.g).trimL1 c n
      | none => s
/-- Unpin, as lines of VC 1, the lines of VC 2 in a core's L1 that are too many or whose context has no block there (R443). -/
def State.unpin (s : State) (c : CoreRef) : State :=
  let k := s.core c
  let ps := k.l1.filter fun a => a.vc == 2
  if ps.isEmpty then s
  else
    let most := s.l1Room c / 2
    let off := fun (g ctx vc used : Nat) => vc == 2 && (!(s.onCore c).any (fun b => b.ctx == ctx) ||
      decide (most ≤ (nub ((ps.filter fun a => a.used < used || (a.used == used && a.g < g)).map (·.g))).length))
    s.setCore c { k with
      copies := k.copies.map fun x => if off x.1 x.2.ctx x.2.vc x.2.used then (x.1, { x.2 with vc := 1 }) else x
      dirty := k.dirty.map fun x => if off x.1 x.2.ctx x.2.vc x.2.used then (x.1, { x.2 with vc := 1 }) else x }
/-- The same for the lines of VC 3 at a slice: 4 MiB for all contexts together (R443). -/
def State.unpinLl (s : State) : State :=
  let ps := (s.llc.map Copy.line).filter fun a => a.vc == 3
  if ps.length ≤ 32768 then s
  else { s with llc := s.llc.map fun x =>
    if x.2.vc == 3 && decide (32768 ≤ (ps.filter fun a => (a.used < x.2.used || (a.used == x.2.used && a.g < x.1)) &&
      s.dieMap.homeSlice (a.g * 128) == s.dieMap.homeSlice (x.1 * 128)).length) then (x.1, { x.2 with vc := 1 }) else x }
/-- Every level holds no more than it has room for. -/
def State.settleCaches (s : State) : State :=
  let cs := s.cores.map fun c => coreOfKey c.1
  let s := cs.foldl (fun s c => (s.unpin c).trimL1 c (s.core c).l1.length) s
  let s := (nub (cs.map (·.die) ++ s.l2.map (·.1))).foldl (fun s d => s.trimL2 d (s.l2Lines d).length) s
  (s.unpinLl).trimLl s.llc.length

/-! ### The live table -/

/-- Set an entry; the engine writes it through to the context's table (R442). -/
def State.putVc (s : State) (ctx idx : Nat) (v : VcEntry) : State :=
  match s.ctx ctx with
  | none => s
  | some c =>
    let s := s.modCtx ctx fun c => { c with vcs := tput c.vcs idx v }
    s.agentWrite (c.vctbase + 64 * idx) (leBytes 8 v.w0.toNat ++ leBytes 8 v.w1.toNat ++ leBytes 8 v.word2.toNat) true
/-- The entry at an index, defined or not. -/
def State.vcEntry (s : State) (ctx idx : Nat) : VcEntry :=
  (((s.ctx ctx).bind fun c => tget c.vcs idx)).getD ⟨false, 0, 0, false, 0, [], none⟩
/-- A window is open, or a flush in progress, at an index (R457). -/
def State.vcWindow (s : State) (ctx idx : Nat) : Bool := (s.vcEntry ctx idx).old.isSome
def State.vcFlushing (s : State) (ctx idx : Nat) : Bool :=
  s.vcCmds.any fun c => c.ctx == ctx && c.window && (match c.cmd with
    | .flush i _ => i == idx
    | _ => false)
/-- Define an index with freshly granted shares; the ST value (R450, R451). -/
def State.vcDefine (s : State) (ctx idx : Nat) (w0 w1 : DWord) : Nat × State :=
  if s.vcWindow ctx idx || s.vcFlushing ctx idx then (2, s)
  else if (s.vcEntry ctx idx).v then (3, s)
  else
    match s.grant ctx idx w0.toNat w1.toNat with
    | some sh => (0, s.putVc ctx idx ⟨true, w0, w1, false, 0, sh, none⟩)
    | none => (1, s)

/-! ### Instructions -/

/-- 8-byte words read at issue under the view of the core (spec/03_memory_model.md R96): dirty bytes, copies, the home. -/
def State.engByte (s : State) (c : CoreRef) (a : Nat) : Byte :=
  (((s.core c).dirtyByte a).orElse fun _ => (copyByte (s.core c).copies a).orElse fun _ => copyByte ((tget s.l2 c.die).getD []) a).getD (mget s.mem a)
/-- What an engine operation issued now sees (spec/03_memory_model.md R96). -/
def State.viewOf (s : State) (c : CoreRef) : View := ⟨s.mem, (s.core c).dirty, (s.core c).copies, (tget s.l2 c.die).getD []⟩
/-- The byte of a view at a physical address. -/
def View.byte (v : View) (a : Nat) : Byte :=
  ((({ dirty := v.dirty } : Core).dirtyByte a).orElse fun _ => (copyByte v.copies a).orElse fun _ => copyByte v.l2 a).getD (mget v.mem a)
def State.engBytes (s : State) (c : CoreRef) (a n : Nat) : List Byte := (List.range n).map fun i => s.engByte c (a + i)
/-- n bytes that a plain load of the thread reads now (spec/03_memory_model.md R75, R78): its own buffered stores first. -/
def Env.ownBytes (e : Env) (s : State) (pa n : Nat) : List Byte :=
  let k := (s.block e.k.id).getD e.k
  (List.range n).map fun i => (k.sbByte e.tl s.nextId (pa + i)).getD (s.engByte e.k.core (pa + i))
/-- A load of the thread from a granule waits: for an acquire of the thread, or for its requests to the granule that their home has not
performed (spec/03_memory_model.md R75, R92). -/
def Env.loadWaits (e : Env) (s : State) (pa : Nat) : Bool := (s.thread e.k.id e.tl).acquiring || s.pendingAt e.k.id e.tl (granule pa)
/-- A record of n bytes, aligned to `al`, that an instruction reads at issue by checks 1 to 7 of R217. -/
def Env.readRecord (e : Env) (s : State) (p : DWord) (n al : Nat) : Except Stop (List Byte) × State :=
  let region := bits p.toNat 63 56
  if region == 1 || region == 2 then (.error (memTrap cSpace false 0 p), s)
  else
    match s.check e.k p n al .load with
    | (.trap c, s) => (.error (memTrap c false 0 p), s)
    | (.park g, s) => (.error (.park g p), s)
    | (.ok (.glob pa _ _), s) =>
      if s.poisoned (granule pa) || s.poisoned (granule (pa + n - 1)) then (.error (.trap cDataLost 0 p false false), s)
      else (.ok (s.engBytes e.k.core pa n), s)
    | (.ok _, s) => (.error (memTrap cSpace false 0 p), s)
/-- 64-bit words of bytes. -/
def words64 (bs : List Byte) : List Nat := (List.range (bs.length / 8)).map fun i => leVal ((bs.drop (8 * i)).take 8)

/-- Issue a command to the engine under a slot: irrevocable (spec/20_reliability.md R492). -/
def Env.vcCommand (e : Env) (s : State) (f : FA) (cmd : VcCmd) : State :=
  let s := s.irrevocable e.k.id
  let op := s.nextId
  let s := e.addOp s f.sbs [f.d.toNat] none none false .none
  { s with vcCmds := s.vcCmds ++ [{ id := s.nextId, ctx := e.k.ctx, cmd := cmd, blk := e.k.id, tl := e.tl, op := op }], nextId := s.nextId + 1 }
def vcTrap : Option Stop := some (.trap cVcOperand 0 0 false false)
/-- The index operand (R450): below 256, and a software VC. -/
def Env.vcIndex (e : Env) (f : FA) : Option Nat :=
  let i := (e.opB f).toNat
  if i < 256 && 4 ≤ i then some i else none
/-- VCDEF (R451). -/
def execVcdef (f : FA) (s : State) : Out :=
  issue (.vcdef f) f.pred f.pneg (some f.sbs.toNat) (fun e s =>
    match e.vcIndex f with
    | none => (s, vcTrap)
    | some i =>
      match e.readRecord s (e.r64 f.a) 64 64 with
      | (.error st, s) => (s, some st)
      | (.ok bs, s) =>
        let ws := words64 bs
        if s.dieMap.cdrBad ws then (s, vcTrap)
        else (e.vcCommand s f (.define i (BitVec.ofNat 64 ((lget ws 0).getD 0)) (BitVec.ofNat 64 ((lget ws 1).getD 0))), none)) s
/-- VCSIZE (R452). -/
def execVcsize (f : FA) (s : State) : Out :=
  issue (.vcsize f) f.pred f.pneg (some f.sbs.toNat) (fun e s =>
    match e.vcIndex f with
    | none => (s, vcTrap)
    | some i =>
      let v := s.vcEntry e.k.ctx i
      let l2 := (e.r f.a).toNat
      let ll := (e.r f.c).toNat
      if v.v && s.dieMap.countsBad v.w0.toNat v.w1.toNat l2 ll then (s, vcTrap)
      else (e.vcCommand s f (.resize i l2 ll), none)) s
/-- VCMOVE (R452). -/
def execVcmove (f : FA) (s : State) : Out :=
  issue (.vcmove f) f.pred f.pneg (some f.sbs.toNat) (fun e s =>
    match e.vcIndex f with
    | none => (s, vcTrap)
    | some i =>
      let w1 := e.r64 f.a
      if s.dieMap.placeBad (s.vcEntry e.k.ctx i).w0.toNat w1.toNat then (s, vcTrap)
      else (e.vcCommand s f (.move i w1 (f.md.getLsbD 0)), none)) s
/-- VCFLUSH (R453). -/
def execVcflush (f : FA) (s : State) : Out :=
  issue (.vcflush f) f.pred f.pneg (some f.sbs.toNat) (fun e s =>
    match e.vcIndex f with
    | none => (s, vcTrap)
    | some i => (e.vcCommand s f (.flush i (f.md.toNat % 4)), none)) s
/-- BIASFLIP (R462). -/
def execBiasflip (f : FA) (s : State) : Out :=
  issue (.biasflip f) f.pred f.pneg (some f.sbs.toNat) (fun e s =>
    let p := e.r64 f.a
    let region := bits p.toNat 63 56
    if region == 1 || region == 2 then (s, some (memTrap cSpace false 0 p))
    else
      match s.check e.k p 1 1 .flip with
      | (.trap c, s) => (s, some (memTrap c false 0 p))
      | (_, s) => (e.vcCommand s f (.bias p ((e.opB f).getLsbD 0) false 0 0), none)) s

/-! ### The engine's steps -/

/-- Land a command's result: ST in [31:28], COUNT in [27:0] (R450). -/
def State.landVc (s : State) (c : VcPending) (st count : Nat) : State :=
  let v := BitVec.ofNat 32 (st * 2 ^ 28 + (if st == 0 then count % 2 ^ 28 else 0))
  { s.modThread c.blk c.tl fun t => { t with ops := t.ops.map fun (o : SlotOp) => if o.id == c.op then { o with val := some [v] } else o } with
    vcCmds := s.vcCmds.filter fun x => x.id != c.id }
def State.setCmd (s : State) (c : VcPending) : State := { s with vcCmds := s.vcCmds.map fun x => if x.id == c.id then c else x }
def llHeld (sh : List Share) : Nat := (sh.filter fun x => !x.1).length
/-- Pages that have lines in the shares of a VC, ascending: first 4 KiB frame, and frames. -/
def State.vcPages (s : State) (ctx idx : Nat) : List (Nat × Nat) :=
  let of := fun (t : Tbl Copy) => (t.filter fun p => p.2.ctx == ctx && p.2.vc == idx).map (·.2.page)
  let ps := (s.l2.map fun p => of p.2).flatten ++ of s.llc ++
    (s.cores.map fun c => (c.2.dirty.filter fun d => d.2.l2 && d.2.ctx == ctx && d.2.vc == idx).map (·.2.page)).flatten
  ((ps.map (·.1)).foldl sins []).map fun b => (b, ((ps.filter fun p => p.1 == b).map (·.2)).foldl max 1)
/-- Every line of a VC's shares stands in the old map from now on. -/
def State.agedLines (s : State) (ctx idx : Nat) : State :=
  let f := fun (t : Tbl Copy) => t.map fun p => if p.2.ctx == ctx && p.2.vc == idx then (p.1, { p.2 with inOld := true }) else p
  { s with
    l2 := tmap f s.l2
    llc := f s.llc
    cores := tmap (fun (k : Core) => { k with
      dirty := k.dirty.map fun d => if d.2.l2 && d.2.ctx == ctx && d.2.vc == idx then (d.1, { d.2 with inOld := true }) else d }) s.cores }
/-- Open a migration window to a new definition (R452), or refuse it with ST 1. -/
def State.openWindow (s : State) (c : VcPending) (idx : Nat) (w0 w1 : DWord) : State :=
  let v := s.vcEntry c.ctx idx
  match s.grant c.ctx idx w0.toNat w1.toNat with
  | none => s.landVc c 1 0
  | some sh =>
    ((s.agedLines c.ctx idx).putVc c.ctx idx { v with w0 := w0, w1 := w1, shares := sh, old := some v.shares }).setCmd
      { c with window := true, left := s.vcPages c.ctx idx }
/-- Word 0 with new counts, and with a new FAR bit. -/
def cdrWithCounts (w0 : Nat) (l2 ll : Nat) : DWord :=
  BitVec.ofNat 64 (w0 - cdrL2 w0 * 2 ^ 40 - cdrLl w0 * 2 ^ 22 + l2 * 2 ^ 40 + ll * 2 ^ 22)
def cdrWithFar (w0 : Nat) (far : Bool) : DWord := BitVec.ofNat 64 (w0 - boolBit (cdrFar w0) 54 + boolBit far 54)
/-- Drop every clean copy that a predicate selects, in L1, L2 and last level. -/
def State.dropCopies (s : State) (p : Nat → Copy → Bool) : State :=
  let f := fun (t : Tbl Copy) => t.filter fun x => !p x.1 x.2
  { s with cores := tmap (fun c => { c with copies := f c.copies }) s.cores, l2 := tmap f s.l2, llc := f s.llc }
/-- The blocks of a context that hold buffered stores of a VC, and the requests of it that are on their way. -/
def State.vcBuffered (s : State) (ctx idx : Nat) : List Nat :=
  (s.blocks.filter fun (k : Block) => k.ctx == ctx && k.sbuf.any fun e => e.vc == idx).map (·.id)
def State.vcRequests (s : State) (ctx idx : Nat) : List Nat :=
  (s.reqs.filter fun (q : HomeReq) => q.ctx == ctx && q.vc == idx).map (·.id)
/-- The write-backs of a VCFLUSH, and for .undef the accesses translated before: its dirty lines and its pending requests. -/
def State.vcFence (s : State) (c : VcPending) (idx op : Nat) : State :=
  s.fence (.vc c.id) (s.cores.map fun x => coreOfKey x.1) (fun _ d => d.ctx == c.ctx && d.vc == idx)
    (if op == 2 then s.vcRequests c.ctx idx else [])
/-- The end of a VCFLUSH, once its write-backs have arrived (R453). Before .undef ends, every access translated before has been performed:
buffered stores commit, and what they leave is written back. -/
def State.vcFlushDone (s : State) (c : VcPending) (idx op : Nat) : State :=
  let s := if op == 2 then (s.vcBuffered c.ctx idx).foldl (fun s b => (s.commitBlock b).1) s else s
  if op == 2 && (!(s.vcBuffered c.ctx idx).isEmpty || !(s.vcRequests c.ctx idx).isEmpty ||
      s.cores.any fun x => x.2.dirty.any fun d => d.2.ctx == c.ctx && d.2.vc == idx) then s.vcFence c idx op
  else
    let s := if 1 ≤ op then s.dropCopies fun _ x => x.ctx == c.ctx && x.vc == idx else s
    let v := s.vcEntry c.ctx idx
    if op == 2 then
      (s.putVc c.ctx idx { v with v := false, w0 := cdrWithCounts v.w0.toNat 0 0, shares := [] }).landVc c 0 0
    else s.landVc c 0 (llHeld v.shares)
/-- An earlier command to the same index has not been performed (R457). -/
def State.vcBefore (s : State) (c : VcPending) (idx : Nat) : Bool :=
  s.vcCmds.any fun x => decide (x.id < c.id) && x.ctx == c.ctx && !x.window && (match x.cmd with
    | .define i _ _ => i == idx
    | .resize i _ _ => i == idx
    | .move i _ _ => i == idx
    | .flush i _ => i == idx
    | .bias _ _ _ _ _ => false)
/-- The engine takes a command up, or ends it when its window closes (VC_COMMAND_LANDING; R451-R457). -/
def State.vcStep (s : State) (c : VcPending) : State :=
  match c.cmd with
  | .define i w0 w1 =>
    if s.vcBefore c i then s else
      let r := s.vcDefine c.ctx i w0 w1
      r.2.landVc c r.1 (llHeld (r.2.vcEntry c.ctx i).shares)
  | .resize i l2 ll =>
    let v := s.vcEntry c.ctx i
    if c.window then
      if c.left.isEmpty then (s.putVc c.ctx i { v with old := none }).landVc c 0 (llHeld v.shares) else s
    else if s.vcBefore c i then s
    else if s.vcWindow c.ctx i || s.vcFlushing c.ctx i then s.landVc c 2 0
    else if !v.v then s.landVc c 4 0
    else s.openWindow c i (cdrWithCounts v.w0.toNat l2 ll) v.w1
  | .move i w1 far =>
    let v := s.vcEntry c.ctx i
    if c.window then
      if c.left.isEmpty then (s.putVc c.ctx i { v with old := none }).landVc c 0 (llHeld v.shares) else s
    else if s.vcBefore c i then s
    else if s.vcWindow c.ctx i || s.vcFlushing c.ctx i then s.landVc c 2 0
    else if !v.v then s.landVc c 4 0
    else s.openWindow c i (cdrWithFar v.w0.toNat far) w1
  | .flush i op =>
    let v := s.vcEntry c.ctx i
    if c.window || s.vcBefore c i then s
    else if s.vcFlushing c.ctx i || (op == 2 && s.vcWindow c.ctx i) then s.landVc c 2 0
    else if !v.v then s.landVc c 4 0
    else (s.vcFence c i op).setCmd { c with window := true }
  | .bias va host started fr n =>
    if started then s else
      match s.ctx c.ctx with
      | none => s.landVc c 5 0
      | some x =>
        match walkFrom s.mem c.ctx (va.toNat % 2 ^ 56) 4 x.ptroot with
        | .bad _ => s.landVc c 5 0
        | .ok e =>
          let hostMem := bit (e.frame * 4096) 50 && !bit (e.frame * 4096) 51
          let base := e.frame - e.vpn % e.pages
          if e.hb != host || (!host && hostMem) then s.landVc c 5 0
          else if s.movingFrame e.frame then s.setCmd { c with cmd := .bias va host false fr n }
          else ({ s with moving := s.moving ++ [(base, e.pages)] }).setCmd { c with cmd := .bias va host true base e.pages }

/-- A request translated before a mark is still pending on one of n frames from fr. -/
def State.pendingOn (s : State) (fr n : Nat) : Bool :=
  s.reqs.any fun (q : HomeReq) => fr ≤ q.pa / 4096 && decide (q.pa / 4096 < fr + n)
def onFrames (fr n g : Nat) : Bool := fr ≤ g / 32 && decide (g / 32 < fr + n)
/-- Write back at once every dirty line of n frames from fr: the granules and the state after. -/
def State.wbFrames (s : State) (fr n : Nat) : List (Nat × Nat) × State :=
  let ls := (s.cores.map fun c => (c.2.dirty.filter fun d => onFrames fr n d.1).map fun d => (c.1, d.1)).flatten
  (ls, ls.foldl (fun s p => s.arriveWb (coreOfKey p.1) p.2) s)

/-- The lines of a VC on a page move to the new map: a clean line whose level the new map has no share of is dropped, and a dirty one
written back as an eviction. -/
def State.moveLines (s : State) (ctx idx : Nat) (page : Nat × Nat) : State :=
  let mine := fun (g c v : Nat) => onFrames page.1 page.2 g && c == ctx && v == idx
  let f := fun (stay : Bool) (t : Tbl Copy) => (t.filter fun x => stay || !mine x.1 x.2.ctx x.2.vc).map fun x =>
    if mine x.1 x.2.ctx x.2.vc then (x.1, { x.2 with inOld := false }) else x
  { s with
    l2 := s.l2.map fun (p : Nat × Tbl Copy) => (p.1, f (s.usesL2 ctx idx p.1) p.2)
    llc := f (s.usesLl ctx idx) s.llc
    cores := s.cores.map fun (p : Nat × Core) => (p.1, { p.2 with
      dirty := p.2.dirty.map fun d =>
        if d.2.l2 && mine d.1 d.2.ctx d.2.vc then (d.1, { d.2 with inOld := false, wb := d.2.wb || !s.usesL2 ctx idx (p.1 / 128) }) else d }) }
/-- PAGE_MOVE_SWEEP_STEP (R455): the lowest page of the window's old map is marked; the next occurrence, once the accesses translated
before have been performed, moves its lines and clears the mark. -/
def execPageMoveSweepStep (ctx idx frame : Nat) (s : State) : Out :=
  match s.vcCmds.find? fun c => c.ctx == ctx && c.window && (match c.cmd with
      | .resize i _ _ => i == idx
      | .move i _ _ => i == idx
      | _ => false) with
  | none => .next s
  | some c =>
    match c.left with
    | [] => .next s
    | page :: rest =>
      if page.1 != frame then .next s
      else if !s.moving.contains page then
        if s.movingFrame frame then .next s else .next { s with moving := s.moving ++ [page] }
      else if s.pendingOn page.1 page.2 then .next s
      else
        let s := s.moveLines ctx idx page
        .next ({ s with moving := s.moving.filter (· != page) }.setCmd { c with left := rest })
/-- VC_COMMAND_LANDING (R451). -/
def execVcCommandLanding (cmd : Nat) (s : State) : Out :=
  match s.vcCmds.find? fun c => c.id == cmd with
  | some c => .next (s.vcStep c)
  | none => .next s
/-- Records of granules of a page whose releaser, in another package, has not written back (spec/03_memory_model.md R89). -/
def State.farOwed (s : State) (fr n : Nat) : List (Nat × SyncRec) :=
  s.sync.filter fun p => onFrames fr n p.1 && p.2.sv && !p.2.fl && p.2.rpkg != s.pkg
/-- A demand for such a record awaits its acknowledgement. -/
def State.flipDemanded (s : State) (fr n : Nat) : Bool :=
  s.fences.any fun (f : Fence) => match f.who with
    | .flip g _ => onFrames fr n g
    | _ => false
/-- BIASFLIP_COMPLETE (R462): the demands of R89, then the losing side's copies are written back and dropped, the page's translations
invalidated. COUNT is the number of its dirty lines, those that a demand writes back among them (R450). -/
def execBiasflipComplete (cmd : Nat) (s : State) : Out :=
  match s.vcCmds.find? fun c => c.id == cmd with
  | none => .next s
  | some c =>
    match c.cmd with
    | .bias _ host true fr n =>
      if s.pendingOn fr n || s.flipDemanded fr n then .next s
      else if host && !(s.farOwed fr n).isEmpty then .next ((s.farOwed fr n).foldl (fun s p => s.demandFor (.flip p.1 p.2) p.1) s)
      else
        let gen := (s.sync.filter fun p => host && onFrames fr n p.1 && p.2.sv && !p.2.fl).foldl (fun s p =>
          let c : CoreRef := ⟨p.2.rdie.toNat, p.2.rcore.toNat⟩
          (s.linesOf c fun _ d => genWithin (s.core c).gen p.2.rgen d.gen).foldl (fun s l => s.arriveWb l.1 l.2) s) s
        let w := if host then (gen.wbFrames fr n).2 else gen
        let s1 := w.dropCopies fun g _ => onFrames fr n g
        let but := fun (l : List TlbEntry) => l.filter fun (e : TlbEntry) => !(e.page < fr + n && decide (fr < e.page + e.pages))
        let s1 := { s1 with
          sync := if host then s1.sync.filter fun p => !onFrames fr n p.1 else s1.sync
          tlb2 := tmap but s1.tlb2
          cores := tmap (fun (k : Core) => { k with
            tlb := but k.tlb
            dirty := if host then k.dirty else k.dirty.map fun (d : Nat × DirtyLine) => if onFrames fr n d.1 then (d.1, { d.2 with hostBias := false }) else d }) s1.cores
          moving := s1.moving.filter (· != (fr, n)) }
        .next (s1.landVc c 0 (if host then (s.wbFrames fr n).1.length else 0))
    | _ => .next s

end Sys2Proof.Machine
end

