-- ==== Sys2Proof/Machine/Engine.lean ====
section
/-! DEFINITION. What the engines share: issue and acceptance of a command, reads and writes of global memory by an engine, deliveries
(spec/11_copy.md R302-R307, R313, R319; spec/08_core_sync.md R239). -/

namespace Sys2Proof.Machine

/-- The ENG code of an operation (spec/08_core_sync.md R237). -/
def EngKind.eng : EngKind → Nat
  | .cpy => 1
  | .cpyg => 1
  | .cpys => 1
  | .cpyfill => 1
  | .ctload => 2
  | .decent => 2
  | .decbr => 2
  | .rayq => 4
  | _ => 3
/-- The unit that holds it: 0 copy engine, 1 matrix engine, 2 ray unit. -/
def EngKind.unit (k : EngKind) : Nat := if k.eng == 4 then 2 else if k.eng == 3 then 1 else 0
/-- Operations that the unit holds at most (R302; spec/12_matrix.md R332; spec/16_ray.md R413). -/
def EngKind.limit (k : EngKind) : Nat := if k.unit == 0 then 32 else 16
/-- The ray unit that serves a core: die, quad, unit (spec/16_ray.md R413). -/
def DieMap.rayUnit (m : DieMap) (c : CoreRef) : Nat × Nat × Nat :=
  (c.die, m.quad c, if bit (m.word c.die 3) (24 + m.quad c) then m.col c % 2 else 0)
/-- Operations in flight on the unit that serves a core. -/
def State.inFlight (s : State) (c : CoreRef) (k : EngKind) : Nat :=
  (s.engs.filter fun (o : EngOp) => !o.saved && o.kind.unit == k.unit &&
    (if k.unit == 2 then s.dieMap.rayUnit o.core == s.dieMap.rayUnit c else o.core == c)).length
def State.engFull (s : State) (c : CoreRef) (k : EngKind) : Bool := k.limit ≤ s.inFlight c k

/-- The core that ROW, COL and DIE name, if it is present (spec/01_package.md R19, spec/04_encoding.md R114). -/
def DieMap.target (m : DieMap) (c : CoreRef) (f : FX) : Option CoreRef :=
  let self := fun (v : BitVec 8) => v == 0xFF || v == 0x0F
  let d := if f.die == 0xF then c.die else f.die.toNat
  let r := if self f.row then m.row c else f.row.toNat
  let k := if self f.col then m.col c else f.col.toNat
  if self f.row && self f.col && f.die == 0xF then some c
  else if (m.isSd d || m.isGd d) && decide (r < m.rows d) && decide (k < m.cols d) && m.present ⟨d, r * m.cols d + k⟩ then
    some ⟨d, r * m.cols d + k⟩ else none

/-! ### Issue of a thread's command -/

/-- Run lanes in ascending position until the unit is full, where a lane that passes its checks answers none: the state, the stops, the
threads that are done, and whether the issue is held. -/
def runEng (i : Instr) (s0 : State) (g : Group) (k : Block) (parts : List (Nat × Nat))
    (lane : Env → State → Option LaneOut) : List (Nat × Nat) → State → State × List ((Nat × Nat) × Stop) × List Nat × Bool
  | [], s => (s, [], [], false)
  | p :: r, s =>
    let th := k.thread p.2
    let e : Env := ⟨s0, g, k, p.1, p.2, th, parts⟩
    match lane e (s.modThread k.id p.2 (freeLast i)) with
    | none => (s, [], [], true)
    | some (s2, none) =>
      let q := runEng i s0 g k parts lane r s2
      (q.1, q.2.1, p.2 :: q.2.2.1, q.2.2.2)
    | some (s2, some st) =>
      let q := runEng i s0 g k parts lane r (s2.modThread k.id p.2 fun t => { t with regs := th.regs })
      (q.1, (p, st) :: q.2.1, q.2.2.1, q.2.2.2)

/-- Issue an instruction that holds its issue while a unit is full (R302): lanes already served are not served again. A lane that stops
is reported with the others, when none is held any more. -/
def issueEng (i : Instr) (pred : BitVec 3) (pneg : Bool) (lane : Env → State → Option LaneOut) (s : State) : Out :=
  match s.opens with
  | .grp g :: rest =>
    match s.block g.blk with
    | some k =>
      let all := activeLanes k g pred pneg
      let act := all.filter fun p => !g.part.contains p.2
      let bad := act.filterMap fun p => (srcStop s k i p.2).map fun st => (p, st)
      let ok := act.filter fun p => (srcStop s k i p.2).isNone
      let q := runEng i s g k all lane ok s
      if q.2.2.2 then .next { q.1 with opens := rest ++ [.grp { g with part := g.part ++ q.2.2.1 }] }
      else .next (finishInstr q.1 g (bad.foldl (fun l x => insStop x l) q.2.1))
    | none => .fault .noGroup
  | _ => .fault .noGroup

/-- A thread's part of an engine command (R305): the checks of the object's address, the hold, then acceptance. Geometry cores have no
matrix array and no ray unit (spec/13_geometry.md R351). -/
def Env.engLane (e : Env) (f : FX) (kind : EngKind) (accept : Bool → State → EngOp → State) (s : State) : Option LaneOut :=
  if kind.unit != 0 && s.dieMap.isGd e.k.core.die then some (s, some (.trap cIllegalInstruction 0 0 false false))
  else
    let bo := (e.r f.b).toNat
    match boCause bo e.k.localSize with
    | some c => some (s, some (memTrap c false 0 (regionPtr 1 bo)))
    | none =>
      if s.engFull e.k.core kind then none
      else
        let o : EngOp :=
          { id := s.nextId, kind := kind, core := e.k.core, ctx := e.k.ctx, blk := e.k.id, seq := none, bo := bo,
            desc := (List.range 8).map fun i => (e.rN f.a i).toNat, md := f.md.toNat, cyc := (s.quad e.k.core).cyc,
            view := s.viewOf e.k.core }
        some (accept (s.dieMap.target e.k.core f == some e.k.core) { s with nextId := s.nextId + 1 } o, none)
/-- A thread's engine command. -/
def engCommand (i : Instr) (f : FX) (kind : EngKind) (accept : Bool → State → EngOp → State) (s : State) : Out :=
  issueEng i f.pred f.pneg (fun e s => e.engLane f kind accept s) s

/-! ### Memory as an engine reaches it -/

/-- What becomes of one element: bytes, a wait for a moving page or for the fabric, a cause. -/
inductive GRes where
  | ok (bs : List Byte)
  | wait
  | fail (cause : Nat)
  deriving DecidableEq, Repr

/-- The home of an address can be reached (spec/19_fabric.md R471, R481). -/
def State.reachable (s : State) (pa : Nat) : Bool := s.homePkg pa == s.pkg.toNat || (s.fab.en && !s.fab.fenced)
/-- An engine's access to another package's memory sends a flit there (spec/19_fabric.md R475). -/
def State.bulk (s : State) (pa : Nat) : State :=
  if s.homePkg pa == s.pkg.toNat then s else s.sendFlit 10 (s.homePkg pa) (granule pa)
/-- Some of bytes a and some of bytes b, `unit` at a time as free values choose. -/
def State.mixBytes (s : State) (unit : Nat) (a b : List Byte) : List Byte × State :=
  if a == b then (b, s)
  else
    let n := s.clock.free
    ((a.zip b).zipIdx.map fun p => if (Config.freeValue (n + p.2 / unit)).getLsbD 0 then p.1.1 else p.1.2,
      { s with clock := { s.clock with free := n + b.length } })
/-- The bytes that an operation reads at a physical address (R96): those of its view at issue; where another operation of its engine has
written since, the old or the new (R314); for the ray unit, each 64-bit unit that has been written since, old or new (spec/16_ray.md
R416). A page that has moved since to other frames is read where it is now (notes/assumptions/33.md). -/
def State.seenBytes (s : State) (k : Block) (o : EngOp) (ptr pa w : Nat) : List Byte × State :=
  let at_ := (List.range w).map (pa + ·)
  let now := s.engBytes k.core pa w
  let same := match s.ctx k.ctx with
    | some x => (match walkFrom o.view.mem k.ctx (ptr % 2 ^ 56) 4 x.ptroot with
      | .ok e => !e.mov && s.localPa (e.frame * 4096 + ptr % 4096) == pa
      | .bad _ => false)
    | none => false
  if !same then (now, s)
  else
    let old := at_.map o.view.byte
    if o.kind.unit == 2 then s.mixBytes 8 old now
    else s.mixBytes 1 old (at_.map fun a => (tget o.fresh a).getD (o.view.byte a))
/-- Read w bytes of global memory for an operation (R313, R319; spec/03_memory_model.md R70, R96). -/
def State.gload (s : State) (k : Block) (o : EngOp) (ptr w : Nat) : GRes × State :=
  if ptr / 2 ^ 56 == 1 || ptr / 2 ^ 56 == 2 then (.fail cSpace, s) else
    match s.check k (BitVec.ofNat 64 ptr) w 1 .load with
    | (.trap c, s) => (.fail c, s)
    | (.park _, s) => (.wait, s)
    | (.ok (.glob pa _ _), s) =>
      if !s.reachable pa then (.wait, s)
      else if s.poisoned (granule pa) || s.poisoned (granule (pa + w - 1)) then (.fail cDataLost, s)
      else
        let q := (s.bulk pa).seenBytes k o ptr pa w
        (.ok q.1, q.2)
    | (.ok _, s) => (.fail cSpace, s)
/-- The other operations of an engine may see bytes that one of them has written (R314). -/
def State.shareBytes (s : State) (o : EngOp) (pa : Nat) (bs : List Byte) : State :=
  { s with engs := s.engs.map fun (x : EngOp) => if x.id != o.id && x.core == o.core && x.kind.unit == 0 then
      { x with fresh := (bs.zipIdx).foldl (fun t p => tput t (pa + p.2) p.1) x.fresh } else x }
/-- Write bytes that lie in one granule at their home (R313; spec/03_memory_model.md R98): the core's own older dirty bytes of the
granule go before. A page without W fails before a moving one waits (R217). -/
def State.gstore (s : State) (k : Block) (o : EngOp) (ptr : Nat) (bs : List Byte) : GRes × State :=
  if ptr / 2 ^ 56 == 1 || ptr / 2 ^ 56 == 2 then (.fail cSpace, s) else
    match s.check k (BitVec.ofNat 64 ptr) bs.length 1 .store with
    | (.trap c, s) => (.fail c, s)
    | (.park _, s) =>
      match (s.lookup k.core k.ctx (ptr % 2 ^ 56)).1 with
      | .ok en => (if en.w && ((s.vc k.ctx en.vc.toNat).map (·.wpol)) != some 3 then .wait else .fail cWriteProtect, s)
      | .bad _ => (.wait, s)
    | (.ok (.glob pa en w), s) =>
      if !w then (.fail cWriteProtect, s)
      else if !s.reachable pa then (.wait, s)
      else (.ok [], (((s.bulk pa).arriveWb k.core (granule pa)).homeWrite (some k.core) (granule pa) (bs.zipIdx.map fun p => (pa % 128 + p.2, p.1)) en.trk).shareBytes o pa bs)
    | (.ok _, s) => (.fail cSpace, s)

/-- Local memory of a block as an engine reads it: poisoned bytes give none (spec/20_reliability.md R490). -/
def Block.lload (k : Block) (a n : Nat) : GRes :=
  if k.lpoison.any fun x => a ≤ x && decide (x < a + n) then .fail cDataLost else .ok (mbytes k.lmem a n)
/-- Local memory as an operation reads it while it runs: a byte that changed since it began is read with its old value or its new one
(spec/03_memory_model.md R96). -/
def State.lread (s : State) (k : Block) (o : EngOp) (a n : Nat) : GRes × State :=
  match k.lload a n with
  | .ok bs => let q := s.mixBytes 1 (mbytes o.lold a n) bs; (.ok q.1, q.2)
  | r => (r, s)
/-- An engine writes local memory. -/
def State.lstore (s : State) (b a : Nat) (bs : List Byte) : State :=
  s.modBlock b fun k => { k with
    lmem := mputs k.lmem a bs
    lpoison := k.lpoison.filter fun x => !(a ≤ x && decide (x < a + bs.length)) }
/-- Local bytes that hold unspecified values. -/
def State.scramble (s : State) (b a n : Nat) : State :=
  let q := s.freeBytes n
  q.2.lstore b a q.1

/-! ### Deliveries -/

def State.setEng (s : State) (o : EngOp) : State := { s with engs := s.engs.map fun (x : EngOp) => if x.id == o.id then o else x }
/-- The final delivery of an operation. -/
def State.engDone (s : State) (o : EngOp) (bytes cause detail : Nat) : State :=
  ({ s with engs := s.engs.filter fun (x : EngOp) => x.id != o.id }).deliver o.blk o.bo bytes (o.kind.unit != 0) true o.kind.eng cause detail
/-- A copy or decode operation fails: it delivers what it has not yet delivered, and what it was to write is unspecified (R307). -/
def State.engFail (s : State) (o : EngOp) (cause detail : Nat) : State :=
  (s.scramble o.blk o.wloc o.wlen).engDone o (o.bytes - o.prog) cause detail
/-- Operations of the copy engine that decode are performed one at a time, in order of acceptance (R314). -/
def State.decodeTurn (s : State) (o : EngOp) : Bool :=
  !(s.engs.any fun (x : EngOp) => !x.saved && x.core == o.core && x.kind.eng == 2 && decide (x.id < o.id))

end Sys2Proof.Machine
end

