-- ==== Sys2Proof/Machine/Copy.lean ====
section
/-! DEFINITION. The copy engine: tensor maps, box copies, gather, scatter, fill, entropy and back-reference decoding
(spec/11_copy.md R306-R322). -/

namespace Sys2Proof.Machine

def cCopyDesc : Nat := 0x180
def cTmapInvalid : Nat := 0x181
def cCopyTarget : Nat := 0x182
def cCopyLocalRange : Nat := 0x183
def cCtableInvalid : Nat := 0x184
def cDecodeError : Nat := 0x185
def cDecodeSource : Nat := 0x186
def cDecodeDistance : Nat := 0x187

/-- Register i of the descriptor. -/
def EngOp.reg (o : EngOp) (i : Nat) : Nat := (lget o.desc i).getD 0
/-- Registers i and i + 1 as a pointer. -/
def EngOp.ptr (o : EngOp) (i : Nat) : Nat := o.reg i + 2 ^ 32 * o.reg (i + 1)
/-- The first number of a list at which a test holds. -/
def firstBad (l : List (Nat × Bool)) : Option Nat := (l.find? fun p => p.2).map (·.1)

/-! ### Tensor maps (R308, R309) -/

def mapWord (m : List Nat) (i : Nat) : Nat := (lget m i).getD 0
def mapRank (m : List Nat) : Nat := bits (mapWord m 1) 63 61
def mapE (m : List Nat) : Nat := 2 ^ bits (mapWord m 1) 60 59
def mapDim (m : List Nat) (d : Nat) : Nat := bits (mapWord m (2 + d / 2)) (32 * (d % 2) + 31) (32 * (d % 2))
def mapBox (m : List Nat) (d : Nat) : Nat := bits (mapWord m 5) (8 * d + 7) (8 * d) + 1
def mapStride (m : List Nat) (d : Nat) : Nat := if d == 0 then mapE m else bits (mapWord m (5 + d)) 47 0
/-- Word i breaks the table of R308. -/
def mapWordBad (m : List Nat) (i : Nat) : Bool :=
  let w := mapWord m i
  let r := mapRank m
  let dimBad := fun d => (mapDim m d == 0) == decide (d < r)
  match i with
  | 0 => w / 2 ^ 56 == 1 || w / 2 ^ 56 == 2 || w % mapE m != 0
  | 1 => r == 0 || r == 7 || 2 ≤ bits w 58 57 || bits w 56 32 != 0
  | 2 => dimBad 0 || dimBad 1
  | 3 => dimBad 2 || dimBad 3
  | 4 => dimBad 4 || dimBad 5
  | 5 => bits w 63 48 != 0 || (List.range 6).any fun d => r ≤ d && mapBox m d != 1
  | 11 => w != 0
  | _ => bits w 63 48 != 0 || (if i - 5 < r then bits w 47 0 % mapE m != 0 else bits w 47 0 != 0)
/-- The first word at fault. -/
def mapBad (m : List Nat) : Option Nat := (List.range 12).find? (mapWordBad m)
/-- Elements of a dense box. -/
def mapCount (m : List Nat) : Nat := ((List.range 6).map (mapBox m)).foldl (· * ·) 1
/-- Position of box element e on dimension d (R309). -/
def boxPos (m : List Nat) (e d : Nat) : Nat := e / ((List.range d).map (mapBox m)).foldl (· * ·) 1 % mapBox m d
/-- The coordinates lie in bounds. -/
def mapIn (m : List Nat) (x : List Int) : Bool :=
  (x.zipIdx).all fun p => mapRank m ≤ p.2 || (decide (0 ≤ p.1) && decide (p.1 < mapDim m p.2))
/-- The exact address of an element. -/
def mapAddr (m : List Nat) (x : List Int) : Int := mapWord m 0 + ((x.zipIdx).map fun p => (mapStride m p.2 : Int) * p.1).sum
/-- The fill element. -/
def mapFill (m : List Nat) : List Byte :=
  let v := bits (mapWord m 1) 31 0
  leBytes (mapE m) (if bits (mapWord m 1) 58 57 == 1 then v + 2 ^ 32 * v else 0)

/-! ### Acceptance (R306) -/

/-- What the checks at acceptance find. -/
structure CopyChk where
  bytes : Nat := 0
  map : List Nat := []
  idx : List Int := []
  wloc : Nat := 0
  wlen : Nat := 0
  bad : Option (Nat × Nat) := none
  deriving DecidableEq, Repr
/-- The map as the engine reads it at acceptance. -/
def Block.tmap (k : Block) (a : Nat) : List Nat := (List.range 12).map fun i => mread k.lmem (a + 8 * i) 8
def Block.outside (k : Block) (a n : Nat) : Bool := decide (k.localSize < a + n)
/-- Signed 32-bit register. -/
def EngOp.sreg (o : EngOp) (i : Nat) : Int := sext (o.reg i) 32
/-- Checks 2 to 5 for CPY (R310). -/
def cpyChk (k : Block) (o : EngOp) : CopyChk :=
  if o.reg 0 % 32 != 0 || k.outside (o.reg 0) 96 then { bad := some (cCopyDesc, 0) } else
    if k.lload (o.reg 0) 96 == .fail cDataLost then { bad := some (cDataLost, 0) } else
    let m := k.tmap (o.reg 0)
    match mapBad m with
    | some w => { bad := some (cTmapInvalid, w) }
    | none =>
      match firstBad ((List.range 6).map fun d => (2 + d, mapRank m ≤ d && o.reg (2 + d) != 0)) with
      | some r => { bad := some (cCopyDesc, r) }
      | none =>
        let n := mapE m * mapCount m
        if 2 ^ 31 ≤ n then { bad := some (cCopyDesc, 0) }
        else if o.reg 1 % mapE m != 0 || k.outside (o.reg 1) n then { bytes := n, bad := some (cCopyLocalRange, 1) }
        else { bytes := n, map := m, wloc := o.reg 1, wlen := if o.md % 2 == 1 then 0 else n }
/-- Checks 2 to 5 for CPYG and CPYS (R311). -/
def cpygChk (k : Block) (o : EngOp) (scatter : Bool) : CopyChk :=
  match firstBad [(0, o.reg 0 % 32 != 0 || k.outside (o.reg 0) 96), (3, o.reg 3 == 0 || decide (256 < o.reg 3))] with
  | some r => { bad := some (cCopyDesc, r) }
  | none =>
    if k.lload (o.reg 0) 96 == .fail cDataLost then { bad := some (cDataLost, 0) } else
    let m := k.tmap (o.reg 0)
    match mapBad m with
    | some w => { bad := some (cTmapInvalid, w) }
    | none =>
      let r := mapRank m
      match firstBad [(0, r < 2 || 5 < r || mapBox m 1 != 1), (5, r ≤ 2 && o.reg 5 != 0), (6, r ≤ 3 && o.reg 6 != 0), (7, r ≤ 4 && o.reg 7 != 0)] with
      | some r => { bad := some (cCopyDesc, r) }
      | none =>
        let n := o.reg 3 * (mapE m * mapCount m)
        if 2 ^ 31 ≤ n then { bad := some (cCopyDesc, 0) }
        else
          match firstBad [(1, o.reg 1 % mapE m != 0 || k.outside (o.reg 1) n), (2, o.reg 2 % 4 != 0 || k.outside (o.reg 2) (4 * o.reg 3))] with
          | some r => { bytes := n, bad := some (cCopyLocalRange, r) }
          | none =>
            if k.lload (o.reg 2) (4 * o.reg 3) == .fail cDataLost then { bytes := n, bad := some (cDataLost, 0) }
            else
                    { bytes := n, map := m, wloc := o.reg 1, wlen := if scatter then 0 else n
                      idx := (List.range (o.reg 3)).map fun j => sext (mread k.lmem (o.reg 2 + 4 * j) 4) 32 }
/-- P of CPYFILL. -/
def fillP (o : EngOp) : Nat := 2 ^ (o.reg 3 % 4)
/-- Checks 2 to 5 for CPYFILL (R312). -/
def fillChk (k : Block) (o : EngOp) : CopyChk :=
  let gl := o.md % 2 == 1
  let region := o.reg 1 / 2 ^ 24
  match firstBad [(0, gl && (o.reg 0 % fillP o != 0 || region == 1 || region == 2)), (1, !gl && o.reg 1 != 0),
      (2, o.reg 2 == 0 || 2 ^ 24 < o.reg 2 || o.reg 2 % fillP o != 0), (3, decide (4 ≤ o.reg 3)), (6, o.reg 6 != 0), (7, o.reg 7 != 0)] with
  | some r => { bad := some (cCopyDesc, r) }
  | none =>
    if gl then { bytes := o.reg 2 }
    else if o.reg 0 % fillP o != 0 || k.outside (o.reg 0) (o.reg 2) then { bytes := o.reg 2, bad := some (cCopyLocalRange, 0) }
    else { bytes := o.reg 2, wloc := o.reg 0, wlen := o.reg 2 }
/-- Checks 2 to 5 for CTLOAD (R315). -/
def ctloadChk (k : Block) (o : EngOp) : CopyChk :=
  match firstBad ((1, decide (4 ≤ o.reg 1)) :: (List.range 6).map fun i => (2 + i, o.reg (2 + i) != 0)) with
  | some r => { bad := some (cCopyDesc, r) }
  | none => if o.reg 0 % 16 != 0 || k.outside (o.reg 0) 128 then { bytes := 128, bad := some (cCopyLocalRange, 0) } else { bytes := 128 }
/-- Ranges [a, a + n) and [b, b + m) share a byte. -/
def meets (a n b m : Nat) : Bool := decide (a < b + m) && decide (b < a + n)
/-- The result word of a decode is wanted (R316). -/
def hasRes (o : EngOp) : Bool := o.reg 6 != 0xFFFFFFFF
/-- Checks 2 to 5 for DECENT and DECBR, with a dictionary of `pre` bytes (R316, R318). -/
def decChk (k : Block) (o : EngOp) (r5 : Bool) (pre : Nat) : CopyChk :=
  let region := o.reg 1 / 2 ^ 24
  match firstBad [(0, region == 2), (2, o.reg 2 == 0 || 2 ^ 24 < o.reg 2), (4, o.reg 4 == 0 || 2 ^ 24 < o.reg 4), (5, r5),
      (7, o.reg 7 != 0)] with
  | some r => { bad := some (cCopyDesc, r) }
  | none =>
    let src := o.ptr 0 % 2 ^ 56
    let lo := o.reg 3 - pre
    let n := o.reg 4 + pre
    match firstBad [(0, region == 1 && (k.outside src (o.reg 2) || meets src (o.reg 2) lo n || (hasRes o && meets src (o.reg 2) (o.reg 6) 8))),
        (3, k.outside (o.reg 3) (o.reg 4) || (hasRes o && meets (o.reg 6) 8 lo n)), (6, hasRes o && (o.reg 6 % 8 != 0 || k.outside (o.reg 6) 8))] with
    | some r => { bytes := o.reg 4, bad := some (cCopyLocalRange, r) }
    | none => { bytes := o.reg 4, wloc := o.reg 3, wlen := o.reg 4 }
/-- Check 6 for DECENT: a table stands in the slot, or an earlier CTLOAD will decide (R306, R314). -/
def State.slotMissing (s : State) (k : Block) (o : EngOp) : Bool :=
  (tget k.ctabs (o.reg 5 % 4)).isNone && !(s.engs.any fun (x : EngOp) => x.blk == k.id && x.kind == .ctload && x.reg 1 == o.reg 5 % 4 && x.cause == 0)
/-- All checks but the target's. -/
def State.copyChk (s : State) (k : Block) (o : EngOp) : CopyChk :=
  match o.kind with
  | .cpy => cpyChk k o
  | .cpyg => cpygChk k o false
  | .cpys => cpygChk k o true
  | .cpyfill => fillChk k o
  | .ctload => ctloadChk k o
  | .decent =>
    let c := decChk k o (o.reg 5 - bits (o.reg 5) 10 8 * 256 != o.reg 5 % 4) 0
    if c.bad.isNone && s.slotMissing k o then { c with bad := some (cCtableInvalid, o.reg 5 % 4) } else c
  | _ => decChk k o (decide (o.reg 3 < o.reg 5)) (min (o.reg 5) (o.reg 3))
/-- The operation writes global memory (spec/20_reliability.md R492). -/
def EngOp.storesGlobal (o : EngOp) : Bool :=
  match o.kind with
  | .cpy => o.md % 2 == 1
  | .cpys => true
  | .cpyfill => o.md % 2 == 1
  | _ => false
/-- Cycles of the commands of a DECBR with a local source, from output p and source i on (R321). -/
def decbrCycles (k : Block) (o : EngOp) (p i : Nat) : Nat → Nat
  | 0 => 0
  | n + 1 =>
    let byte := fun j => mread k.lmem (o.ptr 0 % 2 ^ 56 + j) 1
    let ll := byte i / 16
    let mc := byte i % 16
    let d := byte (i + 1 + ll) + 256 * byte (i + 2 + ll)
    let m := if mc == 0 then 0 else 2 + (mc + 2 + min 16 (max 1 d) - 1) / min 16 (max 1 d)
    if o.reg 4 ≤ p then 0
    else 2 + (ll + 15) / 16 + m + decbrCycles k o (p + ll + (if mc == 0 then 0 else mc + 2)) (i + 1 + ll + (if mc == 0 then 0 else 2)) n
/-- The constant duration of an operation whose reads and writes all lie in local memory (R321). -/
def copyCycles (k : Block) (o : EngOp) : Option Nat :=
  let near := o.reg 1 / 2 ^ 24 == 1
  match o.kind with
  | .cpyfill => if o.md % 2 == 0 then some (12 + (o.reg 2 + 63) / 64) else none
  | .ctload => some 40
  | .decent => if near then some (16 + o.reg 4) else none
  | .decbr => if near then some (16 + decbrCycles k o 0 0 (o.reg 4)) else none
  | _ => none
/-- Acceptance by the copy engine (R305, R306). -/
def acceptCopy (self : Bool) (s : State) (o : EngOp) : State :=
  match s.block o.blk with
  | none => s
  | some k =>
    let c := s.copyChk k o
    let bad := if self then c.bad else some (cCopyTarget, 0)
    let o : EngOp := { o with
      bytes := c.bytes, map := c.map, idx := c.idx, wloc := c.wloc, wlen := c.wlen
      cause := (bad.map (·.1)).getD 0, detail := (bad.map (·.2)).getD 0
      spos := if o.kind == .decent then bits (o.reg 5) 10 8 else 0, lold := k.lmem }
    let s := if o.storesGlobal then s.irrevocable k.id else s
    let alone := !(s.engs.any fun (x : EngOp) => !x.saved && x.core == o.core && x.kind.unit == 0)
    let due := if s.blockFixed k && alone && o.cause == 0 then (copyCycles k o).map ((s.quad o.core).cyc + ·) else none
    { s with engs := s.engs ++ [{ o with due := due }] }

/-! ### Copies (R310-R313) -/

/-- Bytes of one element. -/
def EngOp.esize (o : EngOp) : Nat := if o.kind == .cpyfill then fillP o else mapE o.map
/-- Coordinates of element e. -/
def EngOp.coords (o : EngOp) (e : Nat) : List Int :=
  if o.kind == .cpy then (List.range 6).map fun d => o.sreg (2 + d) + boxPos o.map e d
  else
    let q := mapCount o.map
    let i := e % q
    [o.sreg 4 + boxPos o.map i 0, (lget o.idx (e / q)).getD 0, o.sreg 5 + boxPos o.map i 2, o.sreg 6 + boxPos o.map i 3,
     o.sreg 7 + boxPos o.map i 4, 0]
/-- A global element at an exact address (R309). -/
def inSpace (a : Int) : Bool :=
  match a with
  | .ofNat n => n / 2 ^ 64 == 0
  | .negSucc _ => false
/-- Perform element e of a copy operation. -/
def State.copyElem (s : State) (k : Block) (o : EngOp) (e : Nat) : GRes × State :=
  let z := o.esize
  if o.kind == .cpyfill then
    let pat := leBytes z (o.ptr 4)
    if o.md % 2 == 1 then
      if inSpace (o.ptr 0 + e * z : Nat) then s.gstore k o (o.ptr 0 + e * z) pat else (.fail cBounds, s)
    else (.ok [], s.lstore k.id (o.reg 0 + e * z) pat)
  else
    let x := o.coords e
    let a := mapAddr o.map x
    let loc := o.reg 1 + e * z
    let store := o.kind == .cpys || (o.kind == .cpy && o.md % 2 == 1)
    if !mapIn o.map x then (.ok [], if store then s else s.lstore k.id loc (mapFill o.map))
    else if !inSpace a then (.fail cBounds, s)
    else if store then
      match s.lread k o loc z with
      | (.ok bs, s) => s.gstore k o a.toNat bs
      | r => r
    else
      match s.gload k o a.toNat z with
      | (.ok bs, s) => (.ok [], s.lstore k.id loc bs)
      | r => r
/-- Perform up to n elements from e: how many were performed, and what stopped them. -/
def State.copyRun (s : State) (o : EngOp) (e : Nat) : Nat → State × Nat × Option GRes
  | 0 => (s, e, none)
  | n + 1 =>
    match s.block o.blk with
    | none => (s, e, none)
    | some k =>
      match s.copyElem k o e with
      | (.ok _, s) => s.copyRun o (e + 1) n
      | (r, s) => (s, e, some r)
/-- A part of a copy operation: a free number of its remaining elements, in layout order (R313, R320; spec/08_core_sync.md R239); all
of them at a constant time (R321). -/
def State.copyStep (s : State) (o : EngOp) : State :=
  let z := o.esize
  let e := o.prog / z
  let n := if o.due.isSome then o.bytes / z - e else 1 + s.freeVal.toNat % (o.bytes / z - e)
  let q := s.useFree.copyRun o e n
  let part := { o with prog := q.2.1 * z, wloc := o.wloc + (if o.wlen == 0 then 0 else (q.2.1 - e) * z), wlen := o.wlen - (q.2.1 - e) * z }
  match q.2.2 with
  | some (.fail c) => q.1.engFail { part with prog := o.prog } c (q.2.1 * z)
  | _ =>
    if q.2.1 == e then q.1
    else if part.prog == o.bytes then q.1.engDone part (o.bytes - o.prog) 0 0
    else (q.1.setEng part).deliver o.blk o.bo (part.prog - o.prog) false false o.kind.eng 0 0

/-! ### Decoding (R315-R318) -/

/-- Code length n stands for `ctCnt` symbols. -/
def ctCnt (L : List Nat) (n : Nat) : Nat := if n == 0 then 0 else (L.filter (· == n)).length
/-- The first code of length n. -/
def ctFirst (L : List Nat) : Nat → Nat
  | 0 => 0
  | n + 1 => 2 * (ctFirst L n + ctCnt L n)
/-- The symbol whose code is c, of length n. -/
def ctSym (L : List Nat) (n c : Nat) : Option Nat :=
  if c < ctFirst L n then none else lget ((L.zipIdx.filter fun p => p.1 == n).map (·.2)) (c - ctFirst L n)
/-- The lengths of a record are valid. -/
def ctValid (L : List Nat) : Bool :=
  L.any (· != 0) && decide ((L.map fun n => if n == 0 then 0 else 2 ^ (15 - n)).sum ≤ 2 ^ 15)
/-- Perform a CTLOAD. -/
def State.ctloadRun (s : State) (o : EngOp) : State :=
  match s.block o.blk with
  | none => s
  | some k =>
    match k.lload (o.reg 0) 128 with
    | .ok bs =>
      let v := leVal bs
      let L := (List.range 256).map fun i => bits v (4 * i + 3) (4 * i)
      if ctValid L then (s.modBlock o.blk fun k => { k with ctabs := tput k.ctabs (o.reg 1) L }).engDone o o.bytes 0 0
      else (s.modBlock o.blk fun k => { k with ctabs := tdel k.ctabs (o.reg 1) }).engDone o o.bytes cCtableInvalid (o.reg 1)
    | _ => s.engFail o cDataLost (((k.lpoison.filter fun x => o.reg 0 ≤ x).min?.getD 0) - o.reg 0)

/-- Byte i of a decode source. -/
def State.srcByte (s : State) (o : EngOp) (i : Nat) : GRes × State :=
  match s.block o.blk with
  | none => (.wait, s)
  | some k =>
    if o.reg 1 / 2 ^ 24 == 1 then s.lread k o (o.ptr 0 % 2 ^ 56 + i) 1
    else if inSpace (o.ptr 0 + i : Nat) then s.gload k o (o.ptr 0 + i) 1 else (.fail cBounds, s)
/-- How a decode goes on: a value and the source position after it, or how it stops: cause, and source offset of a memory cause. -/
inductive Dec where
  | val (v : Nat) (pos : Nat)
  | fail (cause : Nat) (off : Option Nat)
  | wait
  deriving DecidableEq, Repr
/-- Read one code: n bits are still allowed, `len` were read with value c, the next bit is k. -/
def State.decCode (s : State) (L : List Nat) (o : EngOp) (len c k : Nat) : Nat → Dec × State
  | 0 => (.fail cDecodeError none, s)
  | n + 1 =>
    if 8 * o.reg 2 ≤ k then (.fail cDecodeSource none, s) else
      match s.srcByte o (k / 8) with
      | (.fail e, s) => (.fail e (some (k / 8)), s)
      | (.wait, s) => (.wait, s)
      | (.ok bs, s) =>
        let c := 2 * c + bits (leVal bs) (k % 8) (k % 8)
        match ctSym L (len + 1) c with
        | some v => (.val v (k + 1), s)
        | none => s.decCode L o (len + 1) c (k + 1) n
/-- Decode the symbols from n on, at bit k; `left` remain. -/
def State.decentRun (s : State) (L : List Nat) (o : EngOp) (n k : Nat) : Nat → Dec × Nat × Nat × State
  | 0 => (.val 0 k, n, k, s)
  | left + 1 =>
    match s.decCode L o 0 0 k 15 with
    | (.val v k2, s) => (s.lstore o.blk (o.reg 3 + n) [BitVec.ofNat 8 v]).decentRun L o (n + 1) k2 left
    | (r, s) => (r, n, k, s)
/-- Read n source bytes from i. -/
def State.srcBytes (s : State) (o : EngOp) (i : Nat) : Nat → (List Byte × Dec) × State
  | 0 => (([], .val 0 i), s)
  | n + 1 =>
    if o.reg 2 ≤ i then (([], .fail cDecodeSource none), s) else
      match s.srcByte o i with
      | (.fail e, s) => (([], .fail e (some i)), s)
      | (.wait, s) => (([], .wait), s)
      | (.ok bs, s) => let q := s.srcBytes o (i + 1) n; ((bs ++ q.1.1, q.1.2), q.2)
/-- Copy n match bytes at distance d, byte by byte; none where one of them is poisoned. -/
def State.matchCopy (s : State) (b a d : Nat) : Nat → Option State
  | 0 => some s
  | n + 1 =>
    match (s.block b).map fun (k : Block) => k.lload (a - d) 1 with
    | some (.ok bs) => (s.lstore b a bs).matchCopy b (a + 1) d n
    | _ => none
/-- One command of a back-reference stream at output p and source i (R317): the next output position with the next source position. -/
def State.decbrCmd (s : State) (o : EngOp) (p i : Nat) : Nat × Dec × State :=
  match s.srcBytes o i 1 with
  | ((h, .val _ _), s) =>
    let H := leVal h
    let ll := H / 16
    let mc := H % 16
    if H == 0 then (p, .fail cDecodeError none, s)
    else if o.reg 4 < p + ll + (if mc == 0 then 0 else mc + 2) then (p, .fail cDecodeError none, s)
    else
      match s.srcBytes o (i + 1) ll with
      | ((lits, .val _ _), s) =>
        if mc == 0 then (p + ll, .val 0 (i + 1 + ll), s.lstore o.blk (o.reg 3 + p) lits)
        else if o.reg 2 ≤ i + ll + 2 then (p, .fail cDecodeSource none, s)
        else
          match s.srcBytes o (i + 1 + ll) 2 with
          | ((db, .val _ _), s) =>
            let d := leVal db
            if d == 0 then (p, .fail cDecodeError none, s)
            else if p + ll + o.reg 5 < d then (p, .fail cDecodeDistance none, s)
            else match (s.lstore o.blk (o.reg 3 + p) lits).matchCopy o.blk (o.reg 3 + p + ll) d (mc + 2) with
              | some t => (p + ll + mc + 2, .val 0 (i + 3 + ll), t)
              | none => (p, .fail cDataLost none, s)
          | ((_, r), s) => (p, r, s)
      | ((_, r), s) => (p, r, s)
  | ((_, r), s) => (p, r, s)
/-- At most n commands, while p < N; every command writes one byte at least, so N commands are enough. -/
def State.decbrRun (s : State) (o : EngOp) (p i : Nat) : Nat → Dec × Nat × Nat × State
  | 0 => (.val 0 i, p, i, s)
  | n + 1 =>
    if o.reg 4 ≤ p then (.val 0 i, p, i, s) else
      match s.decbrCmd o p i with
      | (p2, .val _ i2, s) => s.decbrRun o p2 i2 n
      | (_, r, s) => (r, p, i, s)
/-- The result word (R316). -/
def State.decRes (s : State) (o : EngOp) (n k : Nat) : State :=
  if hasRes o then s.lstore o.blk (o.reg 6) (leBytes 8 (n % 2 ^ 32 * 2 ^ 32 + k % 2 ^ 32)) else s
/-- A part of a decode ends at a symbol or command boundary: n bytes stand, and the source position is k (R320). -/
def State.decPart (s : State) (o : EngOp) (n k : Nat) : State :=
  if n == o.prog then s
  else (s.setEng { o with prog := n, spos := k, wloc := o.reg 3 + n, wlen := o.reg 4 - n }).deliver o.blk o.bo (n - o.prog) false false o.kind.eng 0 0
/-- What a decode has reached: a part, or its end with the result word, what is left unspecified, and the delivery (R316, R318, R319). -/
def State.decEnd (o : EngOp) (r : Dec × Nat × Nat × State) : State :=
  let n := r.2.1
  let k := r.2.2.1
  let t := r.2.2.2
  match r.1 with
  | .wait => t.decPart o n k
  | .val _ _ => if n < o.reg 4 then t.decPart o n k else (t.decRes o n k).engDone o (o.bytes - o.prog) 0 0
  | .fail c off =>
    ((t.scramble o.blk (o.reg 3 + n) (o.reg 4 - n)).decRes o n k).engDone o (o.bytes - o.prog) c (off.getD n)
/-- How many symbols or commands the next part of a decode takes at most: a free number; all of them at a constant time (R321). -/
def State.decStep (s : State) (o : EngOp) : Nat := if o.due.isSome then o.reg 4 - o.prog else 1 + s.freeVal.toNat % (o.reg 4 - o.prog)
/-- Perform a copy or decode operation, or a part of it. -/
def State.copyDelivery (s : State) (o : EngOp) : State :=
  if o.kind.eng == 2 && !s.decodeTurn o then s
  else if o.cause != 0 then s.engFail o o.cause o.detail
  else
    match o.kind with
    | .ctload => s.ctloadRun o
    | .decent =>
      match (s.block o.blk).bind fun k => tget k.ctabs (o.reg 5 % 4) with
      | none => s.engFail o cCtableInvalid (o.reg 5 % 4)
      | some L => State.decEnd o (s.useFree.decentRun L o o.prog o.spos (s.decStep o))
    | .decbr => State.decEnd o (s.useFree.decbrRun o o.prog o.spos (s.decStep o))
    | _ => s.copyStep o

/-- CPY (R310). -/
def execCpy (f : FX) (s : State) : Out := engCommand (.cpy f) f .cpy acceptCopy s
/-- CPYG (R311). -/
def execCpyg (f : FX) (s : State) : Out := engCommand (.cpyg f) f .cpyg acceptCopy s
/-- CPYS (R311). -/
def execCpys (f : FX) (s : State) : Out := engCommand (.cpys f) f .cpys acceptCopy s
/-- CPYFILL (R312). -/
def execCpyfill (f : FX) (s : State) : Out := engCommand (.cpyfill f) f .cpyfill acceptCopy s
/-- CTLOAD (R315). -/
def execCtload (f : FX) (s : State) : Out := engCommand (.ctload f) f .ctload acceptCopy s
/-- DECENT (R316). -/
def execDecent (f : FX) (s : State) : Out := engCommand (.decent f) f .decent acceptCopy s
/-- DECBR (R318). -/
def execDecbr (f : FX) (s : State) : Out := engCommand (.decbr f) f .decbr acceptCopy s

end Sys2Proof.Machine
end

