-- ==== Sys2Proof/Machine/Loader.lean ====
section
/-! DEFINITION. The Korest loader: images, the checks R136 makes of them, relocation, and the clauses that a kernel contains
(spec/04_encoding.md R133-R136, R526; spec/10_distributor.md R273-R275). -/

namespace Sys2Proof.Machine

/-! ### Reading a context's memory as the distributor does -/

/-- The physical address of a virtual one, if the page is readable under the context. -/
def State.vtrans (s : State) (ctx va : Nat) : Option Nat :=
  match s.ctx ctx with
  | none => none
  | some c =>
    match walkFrom s.mem ctx (va % 2 ^ 56) 4 c.ptroot with
    | .bad _ => none
    | .ok e =>
      let pa := e.frame * 4096 + va % 4096
      if e.rd && (s.paCause pa).isNone then some (s.localPa pa) else none
/-- Bytes at virtual addresses, or none where one is not mapped. -/
def State.vbytes (s : State) (ctx va : Nat) : Nat → Option (List Byte)
  | 0 => some []
  | n + 1 => match s.vtrans ctx va, s.vbytes ctx (va + 1) n with
    | some pa, some r => some (mget s.mem pa :: r)
    | _, _ => none
/-- The 8-byte word at a virtual address, which may reach into the next page. -/
def State.vword (s : State) (ctx va : Nat) : Option Nat :=
  if va % 4096 ≤ 4088 then (s.vtrans ctx va).map fun pa => mread s.mem pa 8 else (s.vbytes ctx va 8).map leVal
/-- n words from va. -/
def State.vwords (s : State) (ctx va : Nat) : Nat → Option (List Nat)
  | 0 => some []
  | n + 1 => match s.vword ctx va, s.vwords ctx (va + 8) n with
    | some w, some r => some (w :: r)
    | _, _ => none
/-- Every 4 KiB page of a range is readable. -/
def State.vreadable (s : State) (ctx va n : Nat) : Bool :=
  n == 0 || (List.range ((va + n - 1) / 4096 + 1 - va / 4096)).all fun i => (s.vtrans ctx ((va / 4096 + i) * 4096)).isSome
/-- An agent's write to virtual addresses within one page; nothing where the page is not mapped. -/
def State.vwrite (s : State) (ctx va : Nat) (bs : List Byte) : State :=
  match s.vtrans ctx va with
  | some pa => s.agentWrite pa bs true
  | none => s

/-! ### The image header and the kernel directory -/

/-- The eight words of an image header (R133). -/
structure ImgHdr where
  ws : List Nat
  deriving DecidableEq, Repr
def ImgHdr.w (h : ImgHdr) (i : Nat) : Nat := (lget h.ws i).getD 0
def ImgHdr.textOff (h : ImgHdr) : Nat := bits (h.w 1) 63 32
def ImgHdr.textWords (h : ImgHdr) : Nat := bits (h.w 1) 31 0
def ImgHdr.dataOff (h : ImgHdr) : Nat := bits (h.w 2) 63 32
def ImgHdr.dataBytes (h : ImgHdr) : Nat := bits (h.w 2) 31 0
def ImgHdr.relOff (h : ImgHdr) : Nat := bits (h.w 3) 63 32
def ImgHdr.relCount (h : ImgHdr) : Nat := bits (h.w 3) 31 0
def ImgHdr.dirOff (h : ImgHdr) : Nat := bits (h.w 4) 63 32
def ImgHdr.kcount (h : ImgHdr) : Nat := bits (h.w 4) 31 0
def ImgHdr.strOff (h : ImgHdr) : Nat := bits (h.w 5) 63 32
def ImgHdr.strBytes (h : ImgHdr) : Nat := bits (h.w 5) 31 0
/-- Sections and tables: offset and length in bytes. -/
def ImgHdr.parts (h : ImgHdr) : List (Nat × Nat) :=
  [(h.textOff, 8 * h.textWords), (h.dataOff, h.dataBytes), (h.relOff, 8 * h.relCount), (h.dirOff, 64 * h.kcount), (h.strOff, h.strBytes)]
/-- Two parts overlap; an empty part has no bytes. -/
def overlaps (a b : Nat × Nat) : Bool := a.2 != 0 && b.2 != 0 && decide (a.1 < b.1 + b.2) && decide (b.1 < a.1 + a.2)
def anyOverlap : List (Nat × Nat) → Bool
  | [] => false
  | a :: r => r.any (fun b => overlaps a b) || anyOverlap r
/-- Layout faults of the header, of code 0x01. An empty section or table starts and overlaps nowhere (notes/assumptions/47.md). -/
def ImgHdr.bad1 (h : ImgHdr) : Bool :=
  bits (h.w 0) 63 32 != 0x4B525354 || bits (h.w 0) 31 16 != 1 || h.textOff % 8 != 0 || h.dataOff % 16 != 0 || h.relOff % 8 != 0 ||
    h.parts.any (fun p => p.2 != 0 && (decide (p.1 < 64) || decide (2 ^ 32 < p.1 + p.2))) || anyOverlap h.parts
/-- Reserved fields of the header. -/
def ImgHdr.bad2 (h : ImgHdr) : Bool := bits (h.w 0) 15 5 != 0 || h.w 6 != 0 || h.w 7 != 0

/-- One directory entry (R273): its eight words. -/
structure DirEnt where
  ws : List Nat
  deriving DecidableEq, Repr
def DirEnt.w (d : DirEnt) (i : Nat) : Nat := (lget d.ws i).getD 0
def DirEnt.entry (d : DirEnt) : Nat := bits (d.w 0) 63 32
def DirEnt.ktype (d : DirEnt) : Nat := bits (d.w 2) 3 0
def DirEnt.stage (d : DirEnt) : Nat := bits (d.w 2) 15 8
def DirEnt.nlease (d : DirEnt) : Nat := bits (d.w 3) 31 24
def DirEnt.nvcb (d : DirEnt) : Nat := bits (d.w 3) 23 16
def DirEnt.nque (d : DirEnt) : Nat := bits (d.w 3) 15 8
/-- A NAMEOFF outside the string table, or a table outside .data (code 0x01). -/
def DirEnt.bad1 (d : DirEnt) (h : ImgHdr) : Bool :=
  let out := fun (off n : Nat) => n != 0 && decide (h.dataBytes < off + n)
  h.strBytes ≤ bits (d.w 0) 31 0 || out (bits (d.w 3) 63 32) (16 * d.nlease) || out (bits (d.w 4) 63 32) (8 * d.nvcb) ||
    out (bits (d.w 4) 31 0) (8 * d.nque)
/-- Reserved fields and values of an entry, and a sequencer program's entry that breaks R274 (code 0x02). `seq`: its first clause is of
class SEQ. -/
def DirEnt.bad2 (d : DirEnt) (h : ImgHdr) (seq : Bool) : Bool :=
  let thr := bits (d.w 1) 63 53 * bits (d.w 1) 52 42 * bits (d.w 1) 41 31
  let prof := bits (d.w 2) 7 4
  h.textWords ≤ d.entry || 3 < d.ktype || seq != (d.ktype != 0) || d.w 5 != 0 || d.w 6 != 0 || d.w 7 != 0 ||
    (if d.ktype != 0 then d.w 1 != 0 || bits (d.w 2) 63 8 != 0 || prof != 0xF || d.w 3 != 0 || d.w 4 != 0
     else bits (d.w 1) 22 0 != 0 || thr == 0 || 1024 < thr || bits (d.w 1) 30 23 == 0 || (3 < prof && prof != 0xF) ||
       393216 < bits (d.w 2) 63 32 || bits (d.w 2) 63 32 % 16 != 0 || 4096 < bits (d.w 2) 31 16 || bits (d.w 2) 31 16 % 16 != 0 ||
       bits (d.w 3) 7 0 != 0 || 16 < d.nlease || 64 < d.nvcb || 16 < d.nque)
/-- Entries of the tables (R275). -/
def leaseBad (v : Nat) : Bool := bits v 127 126 == 3 || bits v 125 120 != 0 || bits v 63 56 != 0 || bits v 119 64 == 0
def vcbBad (v : Nat) : Bool := bits v 63 56 < 4 || bits v 55 32 != 0 || bits v 31 0 % 64 != 0
def queBad (v : Nat) : Bool :=
  bits v 63 56 == 0 || 64 < bits v 63 56 || bits v 55 44 != 0 || bits v 43 32 == 0 || 256 < bits v 43 32 || bits v 31 0 != 0

/-! ### Clauses -/

/-- A clause of an image: the word index of its header, the header, its words; `bad`: the header is none that R102 allows; `past`: the
clause runs past the end of .text. -/
structure IClause where
  idx : Nat
  head : Header
  words : List DWord
  bad : Bool
  past : Bool
  deriving DecidableEq, Repr
/-- The fields of a header position whatever its other bits say; a class that does not exist is taken as ALU, whose words are not
reached by a check before the header is refused. -/
def looseHeader (w : DWord) : Header :=
  ⟨(Cls.ofCode (w.extractLsb' 57 3).toNat).getD .alu, (w.extractLsb' 53 4).toNat, w.extractLsb' 45 8, w.getLsbD 44, (w.extractLsb' 40 4).toNat⟩
/-- The clauses of .text from word idx: each header position follows the clause before it, as that clause's COUNT says. -/
def clausesFrom (ws : List DWord) (idx : Nat) : Nat → List IClause
  | 0 => []
  | n + 1 =>
    match ws with
    | [] => []
    | h :: r =>
      let hd := looseHeader h
      ⟨idx, hd, r.take (hd.count + 1), (decodeHeader h).isNone, decide (r.length < hd.count + 1)⟩ ::
        clausesFrom (r.drop (hd.count + 1)) (idx + hd.count + 2) n
/-- The instructions of a clause. -/
def IClause.instrs (c : IClause) : List Instr := c.words.filterMap fun w => match decodeWord c.head.cls w with
  | .ok i => some i
  | .error _ => none
/-- Word index of the direct target of an instruction that stands in the clause at word idx (spec/04_encoding.md R112,
spec/10_distributor.md R290). -/
def directTarget (i : Instr) (idx : Nat) : Option Int :=
  match i with
  | .bra f => some (idx + f.off.toInt)
  | .call f => if f.md.getLsbD 0 then none else some (idx + f.off.toInt)
  | .sqloop f => some (idx - f.doff.toNat)
  | _ => none
/-- A clause whose last instruction always leaves for elsewhere (R526); `sqend` counts SQEND too, as for the opcodes that a sequencer
program holds (R130, notes/assumptions/47.md). -/
def neverFalls (i : Instr) (sqend : Bool) : Bool :=
  match i with
  | .bra f => f.pred == 7 && !f.pneg
  | .brx f => f.pred == 7 && !f.pneg
  | .ret f => f.pred == 7 && !f.pneg
  | .exit f => f.pred == 7 && !f.pneg
  | .tret f => f.pred == 7 && !f.pneg
  | .sqend _ => sqend
  | _ => false
/-- Headers that one clause leads to. -/
def IClause.nexts (c : IClause) (sqend : Bool) : List Nat :=
  let is := c.instrs
  let t := is.filterMap fun i => (directTarget i c.idx).bind fun x => if x < 0 then none else some x.toNat
  match is.getLast? with
  | some i => if neverFalls i sqend then t else (c.idx + c.head.count + 2) :: t
  | none => [c.idx + c.head.count + 2]
/-- The clauses reachable from those already found. -/
def reachFrom (cs : List IClause) (sqend : Bool) : Nat → List Nat → List Nat
  | 0, seen => seen
  | n + 1, seen =>
    let more := ((cs.filter fun c => seen.contains c.idx).map fun c => c.nexts sqend).flatten
    let new := (nub more).filter fun i => !seen.contains i && cs.any fun c => c.idx == i
    if new.isEmpty then seen else reachFrom cs sqend n (seen ++ new)
/-- The clauses that a kernel contains (R526). -/
def kernelClauses (cs : List IClause) (entry : Nat) (sqend : Bool) : List IClause :=
  let r := reachFrom cs sqend cs.length [entry]
  cs.filter fun c => r.contains c.idx

/-! ### The three passes of R136 -/

/-- The slot that a word of a class sets (spec/04_encoding.md R109, R111). -/
def slotOfWord (c : Cls) (w : DWord) : Option Nat :=
  let op := (w.extractLsb' 56 8).toNat
  let a := if w.getLsbD 12 then some (w.extractLsb' 13 3).toNat else none
  match c with
  | .mem => if w.getLsbD 27 then some (w.extractLsb' 28 3).toNat else none
  | .sync => if w.getLsbD 27 then some (w.extractLsb' 28 3).toNat else none
  | .gfx => a
  | .sys => if op == 0x10 || op == 0x21 || (0x30 ≤ op && op ≤ 0x34) then a else none
  | _ => none
/-- The slots that a set of clauses sets. -/
def slotsOf (cs : List IClause) : List Nat := (cs.map fun c => c.words.filterMap fun w => slotOfWord c.head.cls w).flatten
/-- An opcode of class SEQ that a program of a KTYPE may not hold (R130). -/
def seqOpBad (ktype op : Nat) : Bool :=
  let cpy := 0x40 ≤ op && op ≤ 0x46
  let mat := 0x50 ≤ op && op ≤ 0x59
  (ktype == 1 && mat) || (ktype == 2 && cpy) || (ktype == 3 && (cpy || mat))
/-- A kernel as the loader checks it: its entry, and its clauses by R526 and with SQEND. -/
structure KView where
  d : DirEnt
  cs : List IClause
  sq : List IClause
  deriving DecidableEq, Repr
def KView.regs (k : KView) : Nat := bits (k.d.w 1) 30 23
/-- Lowest code that applies to the header of a clause, beyond 0x03 and 0x04 (R136). -/
def headCode (c : IClause) (all : List IClause) (ks : List KView) : Nat :=
  let mine := ks.filter fun k => k.cs.any fun x => x.idx == c.idx
  let sets := if mine.isEmpty then [slotsOf all] else mine.map fun k => slotsOf k.cs
  if sets.any fun l => (List.range 8).any fun n => c.head.sbwait.getLsbD n && !l.contains n then 0x09 else 0
/-- Lowest code that applies to an instruction word (R136). -/
def wordCode (c : IClause) (i : Nat) (w : DWord) (textWords : Nat) (all : List IClause) (ks : List KView) : Nat :=
  let op := (w.extractLsb' 56 8).toNat
  let progs := ks.filter fun k => k.d.ktype != 0 && k.sq.any fun x => x.idx == c.idx
  if c.head.cls == .seq && progs.any fun k => seqOpBad k.d.ktype op then 0x05 else
  match decodeWord c.head.cls w with
  | .error .unassigned => 0x05
  | .error .illegalEncoding => 0x06
  | .ok ins =>
    let mine := ks.filter fun k => k.d.ktype == 0 && k.cs.any fun x => x.idx == c.idx
    let lim := if mine.isEmpty then (((ks.filter fun k => k.d.ktype == 0).map (·.regs)).max?).getD 255 else ((mine.map (·.regs)).min?).getD 255
    if ins.mustBeLast && i != c.head.count then 0x07
    else if (match directTarget ins c.idx with
      | some t => t < 0 || (textWords : Int) ≤ t || !(all.any fun x => (x.idx : Int) == t)
      | none => false) then 0x08
    else if c.head.cls != .seq && regsLimit0 ins lim then 0x0A else 0
where
  /-- A register of the instruction lies at or above n. -/
  regsLimit0 (i : Instr) (n : Nat) : Bool := i.operands.any fun o => o.regs.any fun r => r != 255 && n ≤ r
/-- FIXED breaks R107 at a header. -/
def fixedBad (c : IClause) : Bool :=
  c.head.fixed && !(c.head.cls == .alu || c.head.cls == .seq ||
    (c.head.cls == .mem && c.words.all fun w => [2, 3, 4, 5, 9].contains (w.extractLsb' 56 8).toNat))
/-- The first code of pass 2 in a list of clauses; 0 for none. -/
def pass2 (cs : List IClause) (textWords : Nat) (all : List IClause) (ks : List KView) : Nat :=
  match cs with
  | [] => 0
  | c :: r =>
    let h := if c.bad || fixedBad c then 0x03 else if c.past then 0x04 else headCode c all ks
    if h != 0 then h
    else match (c.words.zipIdx.map fun p => wordCode c p.2 p.1 textWords all ks).find? (· != 0) with
      | some e => e
      | none => pass2 r textWords all ks
/-- A word of format X (spec/04_encoding.md R113). -/
def isFormX (c : Cls) (w : DWord) : Bool :=
  let op := (w.extractLsb' 56 8).toNat
  c == .eng || (c == .sys && (op == 0x11 || op == 0x12))
/-- The patched word of a relocation entry, or none where R135 refuses it. -/
def relocate (m : DieMap) (geo : Bool) (row0 col0 rows cols : Nat) (cs : List IClause) (e : Nat) : Option (Nat × DWord) :=
  let wi := bits e 63 32
  let lr := bits e 15 8
  let lc := bits e 7 0
  let tgt := lget (m.rectCores geo row0 col0 rows cols) (lr * cols + lc)
  let word := (cs.find? fun c => c.idx < wi && wi ≤ c.idx + c.head.count + 1).bind fun c =>
    (lget c.words (wi - c.idx - 1)).filter fun w => isFormX c.head.cls w
  if rows ≤ lr || cols ≤ lc then none
  else match tgt, word with
    | some t, some w => some (wi, w.extractLsb' 34 30 ++ BitVec.ofNat 8 (m.row t) ++ BitVec.ofNat 8 (m.col t) ++ BitVec.ofNat 4 t.die ++ w.extractLsb' 0 14)
    | _, _ => none

/-- A loaded image. -/
structure Loaded where
  text : DWord
  textWords : Nat
  data : DWord
  /-- the end of its last section or table -/
  size : Nat
  kernels : List Kernel
  /-- clauses of each kernel -/
  views : List KView
  reloc : Tbl DWord
  deriving DecidableEq, Repr

/-- A kernel with its tables, as read. -/
def mkKernel (text : DWord) (d : DirEnt) (v : KView) (ls vb qs : List Nat) : Kernel :=
  { entry := text + BitVec.ofNat 64 (8 * d.entry), nx := bits (d.w 1) 63 53, ny := bits (d.w 1) 52 42, nz := bits (d.w 1) 41 31,
    regs := bits (d.w 1) 30 23, localSize := bits (d.w 2) 63 32, privSize := bits (d.w 2) 31 16, stage := d.stage,
    fpprof := bits (d.w 2) 7 4, ktype := d.ktype,
    leases := ls.map fun x => ⟨bits x 127 126, bits x 55 0, bits x 119 64⟩,
    vcbs := vb.map fun x => (bits x 63 56, BitVec.ofNat 64 (bits x 31 0)),
    queues := qs.map fun x => (bits x 63 56, 16 * bits x 43 32),
    samp := v.cs.any fun c => c.instrs.any fun i => match i with
      | .tex _ => true
      | .tld _ => true
      | .tqry _ => true
      | _ => false
    -- what names the partner's sequencers in the code itself (notes/assumptions/53.md)
    pair := v.cs.any fun c => c.instrs.any fun i => match i with
      | .fork f => f.md.getLsbD 0
      | .rdv f => f.md.getLsbD 2
      | _ => false }
/-- Pairs of words as 128-bit values. -/
def pairs128 : List Nat → List Nat
  | a :: b :: r => (b * 2 ^ 64 + a) :: pairs128 r
  | _ => []
/-- Read and check an image (R136): the code of the first failure, or the image. `rect`: mesh, origin and size of the launch; `kernels`:
the kernels of the launch. -/
def State.load (s : State) (ctx img : Nat) (rect : Bool × Nat × Nat × Nat × Nat) (handler : Option Nat) (kernels : List Nat) : Except Nat Loaded :=
  match s.vwords ctx img 8 with
  | none => .error 0x01
  | some hw =>
    let h : ImgHdr := ⟨hw⟩
    if h.bad1 || h.parts.any fun p => !s.vreadable ctx (img + p.1) p.2 then .error 0x01
    else
      let dirs := (List.range h.kcount).map fun i => (⟨(s.vwords ctx (img + h.dirOff + 64 * i) 8).getD []⟩ : DirEnt)
      if dirs.any fun d => d.bad1 h then .error 0x01
      else
        let ws := ((s.vwords ctx (img + h.textOff) h.textWords).getD []).map (BitVec.ofNat 64)
        let cs := clausesFrom ws 0 h.textWords
        let isSeq := fun (d : DirEnt) => ((lget ws d.entry).bind decodeHeader).any fun x => x.cls == .seq
        let tab := fun (off n : Nat) => (s.vwords ctx (img + h.dataOff + off) n).getD []
        let ls := fun (d : DirEnt) => pairs128 (tab (bits (d.w 3) 63 32) (2 * d.nlease))
        let vb := fun (d : DirEnt) => tab (bits (d.w 4) 63 32) d.nvcb
        let qs := fun (d : DirEnt) => tab (bits (d.w 4) 31 0) d.nque
        let rel := (s.vwords ctx (img + h.relOff) h.relCount).getD []
        if h.bad2 || (rel.any fun e => bits e 31 28 != 1 || bits e 27 16 != 0) || (dirs.any fun d => d.bad2 h (isSeq d)) ||
            (dirs.any fun d => (ls d).any leaseBad || (vb d).any vcbBad || (qs d).any queBad) then .error 0x02
        else
          let views := dirs.map fun d => (⟨d, kernelClauses cs d.entry false, kernelClauses cs d.entry true⟩ : KView)
          let e := pass2 cs h.textWords cs views
          -- the handler's .regs (spec/09_core_traps.md R256)
          let hr := handler.bind fun i => lget views i
          let e := if e == 0 && hr.any (fun v => (kernels.filterMap fun i => lget views i).any fun k => k.regs < v.regs) then 0x0A else e
          let inMesh := !s.dieMap.rectOut rect.1 rect.2.1 rect.2.2.1 rect.2.2.2.1 rect.2.2.2.2
          let rl := rel.map fun x => relocate s.dieMap rect.1 rect.2.1 rect.2.2.1 rect.2.2.2.1 rect.2.2.2.2 cs x
          if e != 0 then .error e
          else if inMesh && rl.any (·.isNone) then .error 0x0B
          else
            let text := BitVec.ofNat 64 (img + h.textOff)
            .ok { text := text, textWords := h.textWords, data := BitVec.ofNat 64 (img + h.dataOff), views := views,
                  size := (h.parts.map fun p => p.1 + p.2).foldl max 64,
                  kernels := (dirs.zip views).map fun p => mkKernel text p.1 p.2 (ls p.1) (vb p.1) (qs p.1),
                  reloc := (rl.filterMap id).foldl (fun t p => tput t (text.toNat + 8 * p.1) p.2) [] }

end Sys2Proof.Machine
end

