-- ==== Sys2Proof/Machine/Issue.lean ====
section
/-! DEFINITION. Clause issue: packing threads into groups, fetching and checking a clause, choosing the instruction that issues next
(spec/02_execution.md R32-R39, spec/04_encoding.md R101-R122), and the events of a thread's issue and waits. -/

namespace Sys2Proof.Machine

/-- Cut a list into pieces of at most w elements. -/
def cut (w : Nat) : Nat → List Nat → List (List Nat)
  | 0, _ => []
  | n + 1, l => if l.isEmpty then [] else l.take w :: cut w n (l.drop w)
/-- Two threads of a block can be in one group: one fragment, one program counter (R32). -/
def Thread.standsWith (t u : Thread) : Bool := t.fid == u.fid && t.pc == u.pc && t.hdr == u.hdr && t.faultsHere == u.faultsHere
/-- The issue groups that the ready threads of a block make, each in ascending linear index (R32). -/
def State.readyGroups (s : State) (k : Block) : List (List Nat) :=
  let can := (List.range k.threads.length).filter fun tl => s.canIssue k tl
  let mates := fun tl => can.filter fun u => (k.thread u).standsWith (k.thread tl)
  ((can.filter fun tl => (mates tl).head? == some tl).map fun tl => cut (s.width k) can.length (mates tl)).flatten
/-- Issue slots of a core on which a group issues its clause (R33). -/
def State.slotsUsed (s : State) (c : CoreRef) : List Nat :=
  s.opens.filterMap fun o => match o with
    | .grp g => if (s.block g.blk).any fun k => k.core == c then some g.slot else none
    | .seq _ _ => none
/-- The lowest free one of a core's four issue slots (R33). A ready group is bound to no slot before it issues
(notes/assumptions/45.md). -/
def State.freeSlot (s : State) (c : CoreRef) : Option Nat := [0, 1, 2, 3].find? fun n => !(s.slotsUsed c).contains n
/-- A FIXED clause of class MEM may hold only these (R107). -/
def fixedMemOk (w : DWord) : Bool := [2, 3, 4, 5, 9].contains (w.extractLsb' 56 8).toNat
/-- Steps 2 and 3 of R122 for a thread. -/
def clauseCause (h : Header) (ws : List DWord) (fixedCtx : Bool) : Option Nat :=
  if h.cls == .seq then some cIllegalClause
  else if h.fixed && !(h.cls == .alu || (h.cls == .mem && ws.all fixedMemOk)) then some cIllegalClause
  else if h.fixed && !fixedCtx then some cFixedInElastic
  else none
/-- Every thread of a group that was to be formed traps at the header (R122 steps 1 to 3). -/
def State.headerTrap (s : State) (b : Nat) (tls : List Nat) (cause : Nat) (addr : DWord) : State :=
  enterTraps (tls.foldl (fun s tl =>
    let t := s.thread b tl
    s.beginTrap b tl ⟨cause, 0, t.hdr, t.hdr, t.hdr, addr, false, true, false, t.pos⟩) s) b tls
/-- Pending store faults are reported at the header (spec/09_core_traps.md R261): the threads form a fragment of their own with
SIBMASK 0, unless they are all of theirs. -/
def State.headerFault (s : State) (b : Nat) (tls : List Nat) (fid : BitVec 16) : State :=
  match s.block b with
  | none => s
  | some k =>
    let whole := (k.threads.zipIdx.filter fun p => p.1.alive && p.1.fid == fid).all fun p => tls.contains p.2
    let s := if whole then s else s.modBlock b fun k => k.split tls fid 0
    enterTraps (tls.foldl (fun s x =>
      let t := s.thread b x
      match t.pendSf with
      | some (va, _, d) => s.beginTrap b x ⟨cWriteProtect, d, t.hdr, t.hdr, t.hdr, va, true, true, false, t.pos⟩
      | none => s) s) b tls
/-- sr.pass (R39). -/
def passWord (q : Quad) : Word := q.chg ++ (0 : BitVec 14) ++ q.pass
/-- A thread joins a group at a position: what takes effect at a clause boundary does. -/
def Thread.start (t : Thread) (pos : Nat) (next : DWord) (id : Nat) : Thread :=
  { t.bounded with status := .issuing, pos := pos, pc := next, lastIssue := id }
/-- Open the clause for threads tls of a block (R32, R33); in a fixed-timing context its first instruction issues no earlier than 3
cycles and its STALL after the clause before (spec/10_distributor.md R294). -/
def State.openGroup (s : State) (b : Nat) (tls : List Nat) (hdr : DWord) (h : Header) (ws : List DWord) (idx slot : Nat) : State :=
  match s.block b with
  | none => s
  | some k =>
    let lanes := tls.zipIdx.map fun p => (p.2, p.1)
    let ends := tls.foldl (fun n tl => max n ((k.thread tl).clauseEnd + 3 + h.stall)) (s.quad k.core).cyc
    let due := if s.blockFixed k then some ends else none
    let g : Group := ⟨b, hdr, h, ws, idx, lanes, passWord (s.quad k.core), [], due, slot⟩
    let id := s.nextId
    let s := lanes.foldl (fun s l => s.modThread b l.2 fun t => t.start l.1 (clauseNext hdr h) id) s
    { s with opens := .grp g :: s.opens, nextId := id + 1 }
/-- Bring the open group of a thread to the front. -/
def frontGroup (b tl : Nat) (l : List Open) : List Open :=
  let mine := fun (o : Open) => match o with
    | .grp g => g.blk == b && g.lanes.any fun x => x.2 == tl
    | .seq _ _ => false
  l.filter mine ++ l.filter fun o => !mine o
/-- Fetch and check the clause of a group, and open it on a slot (R105, R122 steps 1 to 3). The words are read at one moment
(notes/assumptions/46.md). -/
def State.fetchClause (s : State) (k : Block) (tls : List Nat) (t : Thread) (slot : Nat) : State :=
  let reloc := ((s.launch k.launch).map (·.reloc)).getD []
  let idx := (t.pc - t.hdr).toNat / 8 - 1
  match s.fetchWord k.core k.ctx reloc t.hdr with
  | (none, s) => s
  | (some (.error c), s) => s.headerTrap k.id tls c t.hdr
  | (some (.ok hw), s) =>
    if !isHeader hw then s.headerTrap k.id tls cIllegalClause 0
    else
      match s.fetchWords k.core k.ctx reloc (t.hdr + 8) (bits hw.toNat 56 53 + 1) with
      | (none, s) => s
      | (some (.error c), s) => s.headerTrap k.id tls c t.hdr
      | (some (.ok ws), s) =>
        match decodeHeader hw with
        | none => s.headerTrap k.id tls cIllegalClause 0
        | some h =>
          match (if h.count < idx then some cIllegalClause else clauseCause h ws (s.blockFixed k)) with
          | some c => s.headerTrap k.id tls c 0
          | none => s.openGroup k.id tls t.hdr h ws idx slot
/-- CLAUSE_ISSUE of the group in which thread tl of block b stands ready, on a free slot of its core (R32, R33). -/
def State.clauseIssue (s : State) (b tl : Nat) : State :=
  match s.block b with
  | none => s
  | some k =>
    let t := k.thread tl
    if t.status.isIssuing then { s with opens := frontGroup b tl s.opens }
    else
      match s.freeSlot k.core, (s.readyGroups k).find? fun g => g.contains tl with
      | some slot, some tls => if t.faultsHere then s.headerFault b tls t.fid else s.fetchClause k tls t slot
      | _, _ => s
/-- CLAUSE_ISSUE (R32). -/
def execClauseIssue (blk tl : Nat) (s : State) : Out := .next (s.clauseIssue blk tl)

/-! ### The instruction that issues next -/

/-- A register of the instruction lies at or above the kernel's .regs value (R115). -/
def regsLimit (i : Instr) (n : Nat) : Bool := i.operands.any fun o => o.regs.any fun r => r != 255 && n ≤ r
/-- Steps 4 and 5 of R122 on the word at which a group stands: the instruction, or the cause with its DETAIL, which is the loader's
code for an illegal encoding (spec/09_core_traps.md R258, spec/04_encoding.md R136). -/
def Group.instr (g : Group) (regsN : Nat) : Except (Nat × Word) Instr :=
  match (if g.head.cls == .seq then none else lget g.words g.idx) with
  | none => .error (cIllegalClause, 0)
  | some w =>
    match decodeWord g.head.cls w with
    | .error .unassigned => .error (cIllegalInstruction, 0)
    | .error .illegalEncoding => .error (cIllegalEncoding, 0x06)
    | .ok i => if i.mustBeLast && !g.isLast then .error (cIllegalEncoding, 0x07)
      else if regsLimit i regsN then .error (cIllegalEncoding, 0x0A) else .ok i
/-- The whole group traps at its instruction (R122 steps 4 and 5). -/
def State.groupTrap (s : State) (g : Group) (c : Nat × Word) : State :=
  finishInstr s g (g.lanes.map fun l => (l, .trap c.1 c.2 0 false false))

/-! ### Events -/

/-- STALL_EXPIRY (R103): the STALL of the thread's next header has elapsed. -/
def execStallExpiry (blk tl : Nat) (s : State) : Out :=
  match s.block blk with
  | none => .next s
  | some k =>
    let t := k.thread tl
    if !t.status.isReady || t.stallDone then .next s
    else
      match s.fetchWord k.core k.ctx (((s.launch k.launch).map (·.reloc)).getD []) t.hdr with
      | (some (.ok w), s) =>
        .next ((s.reachCyc (s.quadKeyOf k.core) (t.clauseEnd + bits w.toNat 43 40)).modThread blk tl fun t => { t with stallDone := true })
      | (_, s) => .next s
/-- The threads of one YIELD are ready again together (spec/05_core_integer.md R171, R172). -/
def Block.unyield (k : Block) (seq : Nat) : Block :=
  { k with threads := k.threads.map fun (t : Thread) => match t.status with
      | .yielded _ => if t.waitSeq == seq then { t with status := .ready } else t
      | _ => t }
/-- YIELD_EXPIRY (spec/05_core_integer.md R171): 256 issue cycles after the YIELD, counted as cycles of the quad
(notes/assumptions/45.md). -/
def execYieldExpiry (blk tl : Nat) (s : State) : Out :=
  match s.block blk with
  | none => .next s
  | some k =>
    let t := k.thread tl
    match t.status with
    | .yielded _ => .next ((s.reachCyc (s.quadKeyOf k.core) (t.waitFrom + (256 - t.waitBase))).modBlock blk fun k => k.unyield t.waitSeq)
    | _ => .next s
/-- DESCHEDULE_EXPIRY (spec/08_core_sync.md R252). -/
def execDescheduleExpiry (blk tl : Nat) (s : State) : Out :=
  match s.block blk with
  | none => .next s
  | some k =>
    let t := k.thread tl
    match t.status with
    | .descheduled => .next ((s.reachCyc (s.quadKeyOf k.core) (t.waitFrom + (65536 - t.waitBase))).modThread blk tl fun t =>
        { t with status := .ready, fails := (t.fails.1, 0) })
    | _ => .next s
/-- What an acquiring access leaves in its thread when it returns (spec/08_core_sync.md R250-R252): one at quad scope or wider, which the
home answered, sets the mark unless it failed. -/
def Thread.acquired (t : Thread) (g v : Nat) (failed home : Bool) : Thread :=
  let keep := failed || !home || t.mark == some g
  { t with
    heldVal := some (g, v)
    fails := if failed then (g, if t.fails.1 == g then t.fails.2 + 1 else 1) else (g, 0)
    mark := if failed || !home then t.mark else some g
    boost := if keep then t.boost else none
    boostNew := if keep then t.boostNew else none }
/-- An operation's words land in its registers, or poison them (spec/04_encoding.md R118, spec/20_reliability.md R489). -/
def Thread.landOp (t : Thread) (ctr tl : Nat) (o : SlotOp) (vs : List Word) : Thread :=
  let t := (o.regs.zip vs).foldl (fun t p => match o.poison with
    | some ptr => t.poisonReg ctr tl p.1 ptr
    | none => t.setReg p.1 p.2) t
  { t with ops := t.ops.filter fun x => x.id != o.id }
/-- SLOT_LANDING (R118). -/
def execSlotLanding (blk tl op : Nat) (s : State) : Out :=
  match s.block blk with
  | none => .next s
  | some k =>
    match (k.thread tl).ops.find? fun o => o.id == op with
    | none => .next s
    | some o =>
      match o.val with
      | none => .next s
      | some vs =>
        let s := s.reachDue (s.quadKeyOf k.core) o.due
        let s := s.modThread blk tl fun t => t.landOp s.clock.free tl o vs
        match o.act with
        | .none => .next s
        | .acquire g v failed offDie offGroup atHome =>
          let s := if atHome then s.acquireInval k.core offDie offGroup else s
          .next (s.modThread blk tl fun t => t.acquired g v failed atHome)
/-- BOOST_NOTICE (spec/08_core_sync.md R251): resident threads of the core that hold the mark are boosted at their next clause
boundary. -/
def execBoostNotice (core : CoreRef) (granule : Nat) (prio : BitVec 7) (s : State) : Out :=
  let up := fun (o : Option (BitVec 7)) => match o with
    | some b => some (if b.toNat < prio.toNat then prio else b)
    | none => some prio
  .next { s with
    notices := s.notices.erase (core, granule, prio)
    blocks := s.blocks.map fun (k : Block) => if k.core == core && !k.saved && !k.relaunch then
      { k with threads := k.threads.map fun (t : Thread) => if t.alive && t.mark == some granule then
          { t with boostNew := up (match t.boostNew with
              | some b => some b
              | none => t.boost) } else t } else k }

/-! ### What follows at once -/

/-- A held thread may try its instruction again: no entry of its block is held any more. -/
def State.commitFree (s : State) (k : Block) : Bool := k.sbuf.all fun e => !s.entryHeld k e
/-- One thread's part of what follows at once. -/
def State.settleThread (s : State) (b tl : Nat) : State :=
  match s.block b with
  | none => s
  | some k =>
    let t := k.thread tl
    if t.kill && t.alive && !t.status.isIssuing then s.killThread b tl else
    match t.status with
    | .waiting (.rdv d n c m p) =>
      if t.pendSf.isSome then s.sfReport b tl
      else if s.rdvDone ⟨d, n⟩ c m p then s.modThread b tl fun t => t.resume (s.quad k.core).cyc else s
    | .waiting _ => if t.pendSf.isSome then s.sfReport b tl else s
    | .parked _ va =>
      if t.pendSf.isSome then s.sfReport b tl
      else if s.vaMoving k.ctx va.toNat then s
      else s.modThread b tl fun t => { t with status := .ready, stallDone := true }
    | .trapping _ => s.tryTrap b tl
    | .exiting => s.tryExit b tl
    | .held => if s.commitFree k then s.modThread b tl fun t => { t with status := .ready, stallDone := true } else s
    | .yielded o => if s.yieldOver t o then s.modBlock b fun k => k.unyield t.waitSeq else s
    | .ready =>
      if 64 ≤ t.fails.2 then s.modThread b tl fun t => { t with status := .descheduled, waitBase := 0, waitFrom := (s.quad k.core).cyc } else s
    | _ => s
/-- Every thread of a block. -/
def State.settleBlock (s : State) (b : Nat) : State :=
  match s.block b with
  | some k => ((List.range k.threads.length).foldl (fun s tl => s.settleThread b tl) s).killWake b
  | none => s
/-- Every resident block. -/
def State.settleThreads (s : State) : State :=
  ((s.blocks.filter fun k => !k.saved && !k.relaunch).map (·.id)).foldl (fun s b => s.settleBlock b) s

end Sys2Proof.Machine
end

