-- ==== Sys2Proof/Machine/Float.lean ====
section
/-! DEFINITION. The floating-point instructions of class ALU (spec/06_core_float.md R189-R205). -/

namespace Sys2Proof.Machine

/-- The active profile of the executing launch (R187). -/
def Env.prof (e : Env) : Nat :=
  match e.s0.launch e.k.launch with
  | some l => l.profile
  | none => 0
/-- An FP32 operand after modifiers and flushing (R190, R193). -/
def fpOp (prof : Nat) (ng ab : Bool) (v : Word) : Fv := flushIn prof fp32 ((fpDec fp32 v.toNat).modify ng ab)
/-- An FP64 operand after modifiers (R205). -/
def fpOp64 (ng ab : Bool) (v : DWord) : Fv := (fpDec fp64 v.toNat).modify ng ab
def sat01 (sat : Bool) (f : Fmt) (v : Nat) : Nat := if sat then clamp01 f v else v

def faddVal (prof : Nat) (sat : Bool) (r : Nat) (a b : Fv) : Word :=
  BitVec.ofNat 32 (sat01 sat fp32 (addBits fp32 prof (rndOf r) a b))
def fmulVal (prof : Nat) (zr sat : Bool) (r : Nat) (a b : Fv) : Word :=
  BitVec.ofNat 32 (sat01 sat fp32 (mulBits fp32 prof (rndOf r) zr a b))

/-- FADD (R193). -/
def execFadd (f : FA) (s : State) : Out :=
  issueAlu (.fadd f) f.pred f.pneg (fun e t => t.setReg f.d.toNat
    (faddVal e.prof (f.mb 2) (f.mf 0 2) (fpOp e.prof (f.mb 3) (f.mb 6) (e.r f.a)) (fpOp e.prof (f.mb 4) (f.mb 7) (e.opB f)))) s
def execFaddI (f : FI) (s : State) : Out :=
  issueAlu (.faddI f) f.pred f.pneg (fun e t => t.setReg f.d.toNat
    (faddVal e.prof (f.mb 2) (f.md.toNat % 4) (fpOp e.prof false false (e.r f.a)) (fpOp e.prof false false f.imm))) s
/-- FMUL (R193): the zero rule under FP-L9. -/
def execFmul (f : FA) (s : State) : Out :=
  issueAlu (.fmul f) f.pred f.pneg (fun e t => t.setReg f.d.toNat
    (fmulVal e.prof (e.prof == 1) (f.mb 2) (f.mf 0 2) (fpOp e.prof (f.mb 3) (f.mb 6) (e.r f.a))
      (fpOp e.prof (f.mb 4) (f.mb 7) (e.opB f)))) s
def execFmulI (f : FI) (s : State) : Out :=
  issueAlu (.fmulI f) f.pred f.pneg (fun e t => t.setReg f.d.toNat
    (fmulVal e.prof (e.prof == 1) (f.mb 2) (f.md.toNat % 4) (fpOp e.prof false false (e.r f.a)) (fpOp e.prof false false f.imm))) s
/-- FFMA (R193). -/
def execFfma (f : FA) (s : State) : Out :=
  issueAlu (.ffma f) f.pred f.pneg (fun e t => t.setReg f.d.toNat
    (BitVec.ofNat 32 (sat01 (f.mb 2) fp32 (fmaBits fp32 e.prof (rndOf (f.mf 0 2)) (e.prof == 1)
      (fpOp e.prof (f.mb 3) (f.mb 6) (e.r f.a)) (fpOp e.prof (f.mb 4) (f.mb 7) (e.opB f))
      (fpOp e.prof (f.mb 5) (f.mb 8) (e.r f.c)))))) s
/-- FMULZ (R193): the zero rule in every profile. -/
def execFmulz (f : FA) (s : State) : Out :=
  issueAlu (.fmulz f) f.pred f.pneg (fun e t => t.setReg f.d.toNat
    (fmulVal e.prof true (f.mb 2) (f.mf 0 2) (fpOp e.prof (f.mb 3) (f.mb 6) (e.r f.a)) (fpOp e.prof (f.mb 4) (f.mb 7) (e.opB f)))) s

/-- The bits of an FP32 value that no rounding changes. -/
def fvBits (f : Fmt) (v : Fv) : Nat :=
  match v with
  | .nan n fr => signBit f n + (2 ^ f.ew - 1) * 2 ^ f.fw + fr
  | .inf n => fpInf f n
  | .fin n m e => if m == 0 then signBit f n else roundFp f .rn false n m 1 e
/-- FMIN and FMAX (R195): `mx` selects the larger; -0 lies below +0. -/
def minMaxBits (prof : Nat) (num mx : Bool) (a b : Fv) : Nat :=
  if a.isNan && b.isNan then (firstNan prof fp32 [(fp32, a), (fp32, b)]).getD 0
  else if a.isNan || b.isNan then
    if num || prof == 1 then fvBits fp32 (if a.isNan then b else a)
    else (firstNan prof fp32 [(fp32, a), (fp32, b)]).getD 0
  else
    let aLess := fvLt a b || (fvEq a b && a.neg && !b.neg)
    fvBits fp32 (if aLess != mx then a else b)
def execFmin (f : FA) (s : State) : Out :=
  issueAlu (.fmin f) f.pred f.pneg (fun e t => t.setReg f.d.toNat (BitVec.ofNat 32
    (minMaxBits e.prof (f.mb 0) false (fpOp e.prof (f.mb 3) (f.mb 6) (e.r f.a)) (fpOp e.prof (f.mb 4) (f.mb 7) (e.opB f))))) s
def execFmax (f : FA) (s : State) : Out :=
  issueAlu (.fmax f) f.pred f.pneg (fun e t => t.setReg f.d.toNat (BitVec.ofNat 32
    (minMaxBits e.prof (f.mb 0) true (fpOp e.prof (f.mb 3) (f.mb 6) (e.r f.a)) (fpOp e.prof (f.mb 4) (f.mb 7) (e.opB f))))) s
/-- FSET (R196). -/
def execFset (f : FA) (s : State) : Out :=
  issueAlu (.fset f) f.pred f.pneg (fun e t => setCmpA f e t
    (cmpF (f.d.toNat / 16) (fpOp e.prof (f.mb 6) (f.mb 8) (e.r f.a)) (fpOp e.prof (f.mb 7) (f.mb 9) (e.opB f)))) s
def execFsetI (f : FI) (s : State) : Out :=
  issueAlu (.fsetI f) f.pred f.pneg (fun e t => setCmpI f e t
    (cmpF (f.d.toNat / 16) (fpOp e.prof false false (e.r f.a)) (fpOp e.prof false false f.imm))) s

/-- A 16-bit, 32-bit or 64-bit float source (R197, R199): code 0 f32, 1 f64, 2 f16, 3 bf16. -/
def Env.fsrc (e : Env) (a : BitVec 8) (ty : Nat) (hi : Bool) : Nat :=
  match ty with
  | 0 => (e.r a).toNat
  | 1 => (e.r64 a).toNat
  | _ => if hi then (e.r a).toNat / 65536 else (e.r a).toNat % 65536
/-- FCLASS's bit number (R197). -/
def classOf (f : Fmt) (v : Nat) : Nat :=
  match fpDec f v with
  | .nan _ fr => if bit fr (f.fw - 1) then 9 else 8
  | .inf n => if n then 0 else 7
  | .fin n m e =>
    if m == 0 then (if n then 3 else 4)
    else if (Fv.fin n m e).subnormal f then (if n then 2 else 5)
    else (if n then 1 else 6)
def execFclass (f : FA) (s : State) : Out :=
  issueAlu (.fclass f) f.pred f.pneg (fun e t => t.setReg f.d.toNat
    (BitVec.ofNat 32 (2 ^ classOf (fmtOf (f.mf 0 2)) (e.fsrc f.a (f.mf 0 2) (f.mb 2))))) s

/-- The integer nearest a finite value in a direction (R198, R199). -/
def roundInt (r : Rnd) (neg : Bool) (m : Nat) (e : Int) : Nat := let q := scaled m 1 e; roundQ r neg q.1 q.2
/-- FRND (R198). -/
def frndBits (f : Fmt) (prof : Nat) (r : Rnd) (v : Fv) : Nat :=
  match v with
  | .nan n fr => nanTo prof f f n fr
  | .inf n => fpInf f n
  | .fin n m e => let i := roundInt r n m e; if i == 0 then signBit f n else roundFp f .rn false n i 1 0
def execFrnd (f : FA) (s : State) : Out :=
  issueAlu (.frnd f) f.pred f.pneg (fun e t =>
    if f.mb 2 then t.setReg64 f.d.toNat (BitVec.ofNat 64 (frndBits fp64 0 (rndOf (f.mf 0 2)) (fpDec fp64 (e.r64 f.a).toNat)))
    else t.setReg f.d.toNat (BitVec.ofNat 32
      (frndBits fp32 e.prof (rndOf (f.mf 0 2)) (flushIn e.prof fp32 (fpDec fp32 (e.r f.a).toNat))))) s

/-- F2I's integer (R199). -/
def f2iVal (r : Rnd) (dt : Nat) (v : Fv) : Int :=
  let w := intWidth dt
  let sg := decide (dt < 4)
  match v with
  | .nan _ _ => 0
  | .inf n => if n then (if sg then -((2 ^ (w - 1) : Nat) : Int) else 0)
    else (if sg then ((2 ^ (w - 1) - 1 : Nat) : Int) else ((2 ^ w - 1 : Nat) : Int))
  | .fin n m e => let i : Int := ((roundInt r n m e : Nat) : Int); saturate (if n then -i else i) w sg
def execF2i (f : FA) (s : State) : Out :=
  issueAlu (.f2i f) f.pred f.pneg (fun e t =>
    let ft := fmtOf (f.mf 2 3)
    setInt t f.d (f.mf 5 4)
      (f2iVal (rndOf (f.mf 0 2)) (f.mf 5 4) (flushIn e.prof ft (fpDec ft (e.fsrc f.a (f.mf 2 3) (f.mb 9)))))) s
/-- I2F (R200). -/
def execI2f (f : FA) (s : State) : Out :=
  issueAlu (.i2f f) f.pred f.pneg (fun e t =>
    let ft := fmtOf (f.mf 6 3)
    let x := e.intSrc f.a (f.mf 2 4)
    let v := roundFp ft (rndOf (f.mf 0 2)) false (decide (x < 0)) x.natAbs 1 0
    if f.mf 6 3 == 1 then t.setReg64 f.d.toNat (BitVec.ofNat 64 v) else t.setReg f.d.toNat (BitVec.ofNat 32 v)) s

/-- F2F's result (R201). -/
def f2fBits (prof : Nat) (src dst : Fmt) (r : Rnd) (x : Nat) : Nat :=
  match flushIn prof src (fpDec src x) with
  | .nan n fr => if dst.kind == 2 then 0 else nanTo prof src dst n fr
  | .inf n => if dst.kind == 1 then signBit dst n + 0x7F else fpInf dst n
  | .fin n m e => if m == 0 then signBit dst n else roundFp dst r (flushes prof dst) n m 1 e
/-- F2F (R201). -/
def execF2f (f : FA) (s : State) : Out :=
  issueAlu (.f2f f) f.pred f.pneg (fun e t =>
    let dt := f.mf 6 3
    let st := f.mf 3 3
    let lane := f.mf 9 3
    let src := fmtOf st
    let dst := fmtOf dt
    let r := if f.mf 0 3 == 4 then Rnd.sr ((e.r f.b).toNat % 65536) else rndOf (f.mf 0 3)
    let raw := if st == 1 then (e.r64 f.a).toNat else (e.r f.a).toNat
    let x := (if 2 ≤ dt || st ≤ 1 then raw else raw / 2 ^ (src.width * lane)) % 2 ^ src.width
    let y := f2fBits e.prof src dst r x
    if 2 ≤ dt then
      let c := (e.r f.c).toNat
      let lo := dst.width * lane
      t.setReg f.d.toNat (BitVec.ofNat 32 (c / 2 ^ (lo + dst.width) * 2 ^ (lo + dst.width) + y * 2 ^ lo + c % 2 ^ lo))
    else if dt == 1 then t.setReg64 f.d.toNat (BitVec.ofNat 64 y)
    else t.setReg f.d.toNat (BitVec.ofNat 32 y)) s
/-- FSF (R202). -/
def execFsf (f : FA) (s : State) : Out :=
  issueAlu (.fsf f) f.pred f.pneg (fun e t =>
    t.setReg f.d.toNat (BitVec.ofNat 32 (fsfBits e.prof e.s0.dieMap.stepping (f.mf 0 3)
      (fpOp e.prof (f.mb 3) (f.mb 4) (e.r f.a))))) s

/-- Half h of a packed register (R203). -/
def half (v : Word) (h : Nat) : Nat := v.toNat / 2 ^ (16 * h) % 65536
/-- A packed-half operand after its negate bit and flushing. -/
def halfOp (prof : Nat) (ty : Fmt) (ng : Bool) (v : Word) (h : Nat) : Fv :=
  flushIn prof ty ((fpDec ty (half v h)).modify ng false)
/-- Both halves of a packed result. -/
def packed (g : Nat → Nat) : Word := BitVec.ofNat 32 (g 1 % 65536 * 65536 + g 0 % 65536)
def pkType (f : FA) : Fmt := if f.mb 6 then bf16 else fp16
/-- PKADD (R203). -/
def execPkadd (f : FA) (s : State) : Out :=
  issueAlu (.pkadd f) f.pred f.pneg (fun e t =>
    let ty := pkType f
    let p := e.prof
    t.setReg f.d.toNat (packed fun h => sat01 (f.mb 2) ty
      (addBits ty p (rndOf (f.mf 0 2)) (halfOp p ty (f.mb 3) (e.r f.a) h) (halfOp p ty (f.mb 4) (e.opB f) h)))) s
/-- PKMUL (R203). -/
def execPkmul (f : FA) (s : State) : Out :=
  issueAlu (.pkmul f) f.pred f.pneg (fun e t =>
    let ty := pkType f
    let p := e.prof
    t.setReg f.d.toNat (packed fun h => sat01 (f.mb 2) ty
      (mulBits ty p (rndOf (f.mf 0 2)) (p == 1) (halfOp p ty (f.mb 3) (e.r f.a) h) (halfOp p ty (f.mb 4) (e.opB f) h)))) s
/-- PKFMA (R203). -/
def execPkfma (f : FA) (s : State) : Out :=
  issueAlu (.pkfma f) f.pred f.pneg (fun e t =>
    let ty := pkType f
    let p := e.prof
    t.setReg f.d.toNat (packed fun h => sat01 (f.mb 2) ty
      (fmaBits ty p (rndOf (f.mf 0 2)) (p == 1) (halfOp p ty (f.mb 3) (e.r f.a) h) (halfOp p ty (f.mb 4) (e.opB f) h)
        (halfOp p ty (f.mb 5) (e.r f.c) h)))) s
/-- PKDOT's result (R204): NaN order a0, a1, b0, b1, c; a factor of a zero-rule product is not seen. -/
def pkdotBits (ty : Fmt) (prof : Nat) (r : Rnd) (a0 a1 b0 b1 c : Fv) : Nat :=
  let zr := prof == 1
  let z0 := zeroRules zr a0 b0
  let z1 := zeroRules zr a1 b1
  let l := (if z0 then [] else [(ty, a0)]) ++ (if z1 then [] else [(ty, a1)]) ++ (if z0 then [] else [(ty, b0)]) ++
    (if z1 then [] else [(ty, b1)]) ++ [(fp32, c)]
  match firstNan prof fp32 l with
  | some v => v
  | none => roundSum fp32 prof r [prodTerm zr a0 b0, prodTerm zr a1 b1, c.term]
def execPkdot (f : FA) (s : State) : Out :=
  issueAlu (.pkdot f) f.pred f.pneg (fun e t =>
    let ty := pkType f
    let p := e.prof
    t.setReg f.d.toNat (BitVec.ofNat 32 (sat01 (f.mb 2) fp32 (pkdotBits ty p (rndOf (f.mf 0 2))
      (halfOp p ty (f.mb 3) (e.r f.a) 0) (halfOp p ty (f.mb 3) (e.r f.a) 1)
      (halfOp p ty (f.mb 4) (e.opB f) 0) (halfOp p ty (f.mb 4) (e.opB f) 1) (fpOp p (f.mb 5) false (e.r f.c)))))) s

/-- DADD (R205). -/
def execDadd (f : FA) (s : State) : Out :=
  issueAlu (.dadd f) f.pred f.pneg (fun e t => t.setReg64 f.d.toNat (BitVec.ofNat 64
    (addBits fp64 0 (rndOf (f.mf 0 2)) (fpOp64 (f.mb 3) (f.mb 6) (e.r64 f.a)) (fpOp64 (f.mb 4) (f.mb 7) (e.r64 f.b))))) s
/-- DMUL (R205). -/
def execDmul (f : FA) (s : State) : Out :=
  issueAlu (.dmul f) f.pred f.pneg (fun e t => t.setReg64 f.d.toNat (BitVec.ofNat 64
    (mulBits fp64 0 (rndOf (f.mf 0 2)) false (fpOp64 (f.mb 3) (f.mb 6) (e.r64 f.a)) (fpOp64 (f.mb 4) (f.mb 7) (e.r64 f.b))))) s
/-- DFMA (R205). -/
def execDfma (f : FA) (s : State) : Out :=
  issueAlu (.dfma f) f.pred f.pneg (fun e t => t.setReg64 f.d.toNat (BitVec.ofNat 64
    (fmaBits fp64 0 (rndOf (f.mf 0 2)) false (fpOp64 (f.mb 3) (f.mb 6) (e.r64 f.a)) (fpOp64 (f.mb 4) (f.mb 7) (e.r64 f.b))
      (fpOp64 (f.mb 5) (f.mb 8) (e.r64 f.c))))) s

end Sys2Proof.Machine
end

