-- ==== Sys2Proof/Machine/Matrix.lean ====
section
/-! DEFINITION. The matrix engine: reservations, loads, codebooks, pair operations, stores and state records (spec/12_matrix.md). -/

namespace Sys2Proof.Machine

def cMatrixDesc : Nat := 0x1A0
def cMatrixReserve : Nat := 0x1A1
def cMatrixPartner : Nat := 0x1A2
def cMatrixRole : Nat := 0x1A3
def cMatrixNores : Nat := 0x1A4
def cMatrixRange : Nat := 0x1A5
def cCbookInvalid : Nat := 0x1A6
def cMatrixFormat : Nat := 0x1A7
def cMatrixPairLost : Nat := 0x1A8
def cMatrixCheck : Nat := 0x1A9

/-! ### Operand records (R327-R329) -/

/-- An operand record. -/
structure ORec where
  fmt : Nat
  off : Nat
  soff : Nat
  sc : Bool
  ct : Nat
  rs : Nat
  ss : Nat
  deriving DecidableEq, Repr
def orec (v : Nat) : ORec := ⟨bits v 63 60, bits v 59 48, bits v 47 36, bit v 35, bits v 34 33, bits v 32 22, bits v 21 14⟩
/-- The register that holds a field at fault, of a record in registers i and i + 1. -/
def recBad (v i : Nat) : Option Nat :=
  let x := orec v
  if bits v 13 0 != 0 || x.rs == 0 || (!x.sc && x.ss != 0) then some i
  else if 10 ≤ x.fmt || (!x.sc && x.soff != 0) || (x.fmt != 8 && x.ct != 0) then some (i + 1) else none
/-- Element width in bits; 16 stands for the index of eight CB16 elements. -/
def fmtBits (f : Nat) : Nat := if f == 3 || f == 4 || f == 8 then 16 else if f == 2 || f == 7 || f == 9 then 4 else 8
def fmtInt (f : Nat) : Bool := f == 5 || f == 6 || f == 7 || f == 9
/-- The record whose format the combination refuses: register 0 or 2 (R329). -/
def formatBad (a b : ORec) (int : Bool) : Option Nat :=
  if int then
    if !fmtInt a.fmt || a.sc then some 0 else if !(fmtInt b.fmt || b.fmt == 8) || b.sc then some 2 else none
  else if a.fmt == 8 then some 0
  else if a.fmt == 3 || a.fmt == 4 then (if b.fmt == a.fmt then none else some 2)
  else if b.fmt == 3 || b.fmt == 4 then some 2 else none
/-- Bytes of one row of KC chunks. -/
def rowBytes (x : ORec) (kc : Nat) : Nat := if x.fmt == 8 then kc * 8 else kc * 4 * fmtBits x.fmt
/-- The record's ranges leave a reservation of `size` units (R328). -/
def recOutside (x : ORec) (rows kc size : Nat) : Bool :=
  let n := rowBytes x kc
  let lim := 4096 * size
  decide (16 * x.rs < n) || decide (lim < 64 * x.off + 16 * x.rs * (rows - 1) + n) ||
    (x.sc && (decide (x.ss < kc) || decide (lim < 64 * x.soff + x.ss * (rows - 1) + kc)))

/-- Element i of a CB16 index by a codebook table (spec/06_core_float.md R182, R330). -/
def cb16Val (t : List Word) (c i : Nat) : Fv :=
  let m := bits ((lget t (bits c 15 7)).getD 0).toNat (4 * i + 2) (4 * i)
  let par := ((List.range 7).filter fun j => bit c j).length % 2 == 1
  .fin (m != 0 && if i == 7 then par else bit c i) m 0
/-- A value of a matrix format (spec/06_core_float.md R177, R179, R180). -/
def matDec (f v : Nat) : Fv :=
  match f with
  | 0 => fpDec e4m3 v
  | 1 => fpDec e5m2 v
  | 2 => fpDec e2m1 v
  | 3 => fpDec bf16 v
  | 4 => fpDec fp16 v
  | 5 => .fin (bit v 7) (sext v 8).natAbs 0
  | 7 => .fin (bit v 3) (sext v 4).natAbs 0
  | _ => .fin false v 0
/-- Val(rec, h, r, k) of R328 on the array of core c. -/
def Core.val (c : Core) (x : ORec) (r k : Nat) : Fv :=
  let b0 := 4096 * ((c.res.map (·.base)).getD 0)
  let base := b0 + 64 * x.off + 16 * x.rs * r
  let v := if x.fmt == 8 then cb16Val ((tget c.codebooks x.ct).getD []) (mread c.obuf (base + 2 * (k / 8)) 2) (k % 8)
    else
      let w := fmtBits x.fmt
      matDec x.fmt (bits (mread c.obuf (base + w * k / 8) 2) (w * k % 8 + w - 1) (w * k % 8))
  if x.sc then
    let e := (mget c.obuf (b0 + 64 * x.soff + x.ss * r + k / 32)).toNat
    if e == 255 then .nan false 1
    else match v with
      | .fin n m p => .fin n m (p + e - 127)
      | v => v
  else v

/-! ### Arithmetic (R338-R341) -/

/-- The element (m, n) of a tile. -/
def tileAt (t : Tbl Word) (i : Nat) : Word := (tget t i).getD 0
/-- A tile from its elements; a listed element is not zero. -/
def tileOf (f : Nat → Word) : Tbl Word := (List.range 8192).filterMap fun i => if f i == 0 then none else some (i, f i)
/-- An accumulator with its flags SV, OF, NV. -/
abbrev AccF := Nat × BitVec 3
/-- ChunkAdd (R339). -/
def chunkAdd (acc : Nat) (q : List Term) : Nat × BitVec 3 :=
  let ts := (fpDec fp32 acc).term :: q
  let r := roundSum fp32 0 .rn ts
  let nan := (fpDec fp32 r).isNan
  let inf := ts.any fun t => match t with
    | .inf _ => true
    | _ => false
  let ovf := !inf && (r == fpInf fp32 false || r == fpInf fp32 true)
  (r, if nan then 1 else if ovf then 2 else 0)
def Fv.int : Fv → Int
  | .fin n m _ => if n then -(m : Int) else m
  | _ => 0
/-- One chunk of MMAI (R340). -/
def chunkInt (acc : Nat) (sat : Bool) (x : Int) : Nat × BitVec 3 :=
  let t := sext acc 32 + x
  let r := if sat then saturate t 32 true else t
  ((BitVec.ofInt 32 r).toNat, if r != t then 4 else 0)
/-- The new element (m, n) of an array after kc chunks. -/
def Core.mmaElem (c : Core) (a b : ORec) (int sat : Bool) (kc m n acc : Nat) : Nat × BitVec 3 :=
  (List.range kc).foldl (fun s ch =>
    let ks := (List.range 32).map (· + 32 * ch)
    let q := if int then chunkInt s.1 sat ((ks.map fun k => (c.val a m k).int * (c.val b n k).int).sum)
      else chunkAdd s.1 (ks.map fun k => prodTerm false (c.val a m k) (c.val b n k))
    (q.1, s.2 ||| q.2)) (acc, 0)
def Core.tile (c : Core) (t : Nat) : Tbl Word := if t == 0 then c.acc0 else c.acc1
def Core.setTile (c : Core) (t : Nat) (v : Tbl Word) : Core := if t == 0 then { c with acc0 := v } else { c with acc1 := v }
def Core.stick (c : Core) (t : Nat) (f : BitVec 3) : Core :=
  if t == 0 then { c with stick0 := c.stick0 ||| f } else { c with stick1 := c.stick1 ||| f }
/-- An array performs MMA or MMAI on its tile. -/
def Core.mma (c : Core) (a b : ORec) (int : Bool) (ctl : Nat) : Core :=
  let t := bits ctl 4 4
  let old := c.tile t
  let r := fun i => c.mmaElem a b int (bit ctl 6) (ctl % 16 + 1) (i / 128) (i % 128) (if bit ctl 5 then 0 else (tileAt old i).toNat)
  (c.setTile t (tileOf fun i => BitVec.ofNat 32 (r i).1)).stick t ((List.range 8192).foldl (fun f i => f ||| (r i).2) 0)

/-! ### Acceptance (R333) -/

def isPairOp : EngKind → Bool
  | .mma => true
  | .mmai => true
  | .mchk => true
  | .mzero => true
  | _ => false
/-- The first nonzero register from i on. -/
def EngOp.nonzeroFrom (o : EngOp) (i : Nat) : Option (Nat × Nat) :=
  ((List.range 8).find? fun r => i ≤ r && o.reg r != 0).map fun r => (cMatrixDesc, r)
/-- Bytes of an MSTORE element. -/
def cvtBytes (cvt : Nat) : Nat := if cvt == 0 then 4 else if cvt ≤ 2 then 2 else 1
def EngOp.isInt (o : EngOp) : Bool := o.kind == .mmai || (o.kind == .mchk && bit (o.reg 4) 7)
/-- Checks 4, 6 and 7 of R333 for a reservation of `size` units. -/
def matFields (k : Block) (o : EngOp) (size : Nat) : Option (Nat × Nat) :=
  let loc := fun (n : Nat) => if o.reg 0 % 16 != 0 || k.outside (o.reg 0) n then some (cMatrixRange, 0) else none
  match o.kind with
  | .mresv =>
    if 64 ≤ o.reg 0 then some (cMatrixDesc, 0)
    else if o.reg 1 == 0 || 64 < o.reg 0 + o.reg 1 then some (cMatrixDesc, 1) else o.nonzeroFrom 3
  | .mrels => o.nonzeroFrom 0
  | .mload =>
    (o.nonzeroFrom 3).orElse fun _ =>
      if o.reg 2 < 16 || 262144 < o.reg 2 || o.reg 2 % 16 != 0 then some (cMatrixRange, 2)
      else (loc (o.reg 2)).orElse fun _ => if 4096 * size < 64 * o.reg 1 + o.reg 2 then some (cMatrixRange, 1) else none
  | .mcbl => if 4 ≤ o.reg 1 then some (cMatrixDesc, 1) else (o.nonzeroFrom 2).orElse fun _ => loc 2048
  | .mzero => if o.reg 0 % 4 == 0 || 4 ≤ o.reg 0 then some (cMatrixDesc, 0) else o.nonzeroFrom 1
  | .mstore =>
    let z := cvtBytes (bits (o.reg 1) 3 1)
    if 16 ≤ o.reg 1 || 6 ≤ bits (o.reg 1) 3 1 then some (cMatrixDesc, 1)
    else if o.reg 2 % 16 != 0 || o.reg 2 < 128 * z then some (cMatrixDesc, 2)
    else (o.nonzeroFrom 3).orElse fun _ => loc (o.reg 2 * 63 + 128 * z)
  | .mstat => if 2 ≤ o.reg 1 then some (cMatrixDesc, 1) else (o.nonzeroFrom 2).orElse fun _ => loc 16
  | _ =>
    let ctl := o.reg 4
    let a := orec (o.ptr 0)
    let b := orec (o.ptr 2)
    match (recBad (o.ptr 0) 0).orElse fun _ => recBad (o.ptr 2) 2 with
    | some r => some (cMatrixDesc, r)
    | none =>
      if 256 ≤ ctl || (bit ctl 7 && o.kind != .mchk) || (bit ctl 6 && !o.isInt) then some (cMatrixDesc, 4)
      else (o.nonzeroFrom 5).orElse fun _ =>
        match formatBad a b o.isInt with
        | some r => some (cMatrixFormat, r)
        | none =>
          if recOutside a 64 (ctl % 16 + 1) size then some (cMatrixRange, 0)
          else if recOutside b 128 (ctl % 16 + 1) size then some (cMatrixRange, 2) else none
/-- The block holds the core's reservation, or the partner's in a live pair; a pair operation runs on the leader; MRELS comes from the
holder (R325, R326). -/
def State.roleOk (s : State) (o : EngOp) (r : MatRes) : Bool :=
  (r.blk == o.blk || (o.kind != .mrels && s.pairLive o.core && ((s.core (CoreRef.partner o.core)).res.map (·.blk)) == some o.blk)) &&
    !(isPairOp o.kind && o.core.num % 2 == 1 && r.key != 0)
/-- Check 5: the partner of a keyed MRESV is present and holds no reservation of another key or context (R324). -/
def State.partnerOk (s : State) (o : EngOp) : Bool :=
  let p := CoreRef.partner o.core
  o.reg 2 == 0 || (s.dieMap.present p && (match (s.core p).res with
    | some r => r.key == BitVec.ofNat 32 (o.reg 2) && (s.block r.blk).map (·.ctx) == some o.ctx
    | none => true))
/-- The cause that R333 finds at acceptance, if any. -/
def State.matBad (s : State) (self : Bool) (k : Block) (o : EngOp) : Option (Nat × Nat) :=
  if !self then some (cMatrixRole, 0)
  else if o.kind == .mresv then
    if (s.core o.core).res.isSome then some (cMatrixReserve, 0)
    else (matFields k o 0).orElse fun _ => if s.partnerOk o then none else some (cMatrixPartner, 0)
  else
    match (s.core o.core).res with
    | none => some (cMatrixNores, 0)
    | some r => if s.roleOk o r then matFields k o r.size else some (cMatrixRole, 0)
/-- Acceptance by the matrix engine (R332-R334, R345). -/
def acceptMat (self : Bool) (s : State) (o : EngOp) : State :=
  match s.block o.blk with
  | none => s
  | some k =>
    let bad := s.matBad self k o
    let c := s.core o.core
    let o : EngOp := { o with
      cause := (bad.map (·.1)).getD 0, detail := (bad.map (·.2)).getD 0
      res := (c.res.map (·.id)).getD 0
      both := isPairOp o.kind && ((c.res.map (·.key)).getD 0) != 0 }
    let s := if o.kind == .mresv && bad.isNone then
      s.setCore o.core { c with res := some ⟨o.id, o.blk, o.reg 0, o.reg 1, BitVec.ofNat 32 (o.reg 2), false⟩ } else s
    { s with engs := s.engs ++ [{ o with due := if o.cause == 0 then none else some ((s.quad o.core).cyc + 2) }] }

/-! ### Queues, starts and durations (R345, R347) -/

/-- Cycles per chunk (R329). -/
def EngOp.chunk (o : EngOp) : Nat :=
  let a := (orec (o.ptr 0)).fmt
  let b := (orec (o.ptr 2)).fmt
  if o.isInt then 32 else if a == 3 || a == 4 then 64 else if a == 2 && b == 2 then 16 else 32
/-- Cycles from the start of an operation to its delivery at P = p (R347). -/
def EngOp.cycles (o : EngOp) (p : Nat) : Nat :=
  let kc := o.reg 4 % 16 + 1
  match o.kind with
  | .mresv => 16
  | .mrels => 4
  | .mload => 8 + (o.reg 2 + 255) / 256
  | .mcbl => 16
  | .mzero => 8
  | .mchk => 16 + 2 * p * kc * o.chunk
  | .mstore => match bits (o.reg 1) 3 1 with
    | 0 => 136
    | 1 => 72
    | 2 => 72
    | _ => 40
  | .mstat => 6
  | _ => 12 + p * kc * o.chunk

/-- The queues an operation joined: core, array queue. One that fails at its start stays in them until its end. -/
def EngOp.joins (o : EngOp) : List (CoreRef × Bool) :=
  if o.kind.unit != 1 || (o.cause != 0 && !o.started) then [] else
    match o.kind with
    | .mresv => [(o.core, false), (o.core, true)]
    | .mrels => [(o.core, false), (o.core, true)]
    | .mload => [(o.core, false)]
    | .mcbl => [(o.core, false)]
    | _ => (o.core, true) :: (if o.both && isPairOp o.kind then [(CoreRef.partner o.core, true)] else [])
/-- An earlier operation stands in one of its queues. -/
def State.queued (s : State) (o : EngOp) : Bool :=
  s.engs.any fun (x : EngOp) => !x.saved && decide (x.id < o.id) && x.joins.any fun j => o.joins.contains j
/-- Clear what a reservation covers (R324). -/
def Core.clearRes (c : Core) (r : MatRes) : Core :=
  let lo := 4096 * r.base
  let hi := lo + 4096 * r.size
  { c with
    obuf := c.obuf.filter fun p => !(lo ≤ p.1 && decide (p.1 < hi))
    obPoison := c.obPoison.filter fun a => !(lo ≤ a && decide (a < hi))
    tilePoison := []
    acc0 := [], acc1 := [], codebooks := [], stick0 := 0, stick1 := 0 }
/-- The checks at start (R333): the cause, and whether both arrays are acted on. -/
def State.startBad (s : State) (o : EngOp) : Option (Nat × Nat) × Bool :=
  let c := s.core o.core
  match c.res with
  | none => (if o.kind == .mresv then none else some (cMatrixNores, 0), false)
  | some r =>
    if o.kind == .mresv then (none, false)
    else if r.id != o.res then (some (cMatrixNores, 0), false)
    else if !isPairOp o.kind then (none, false)
    else if r.key != 0 && !s.pairLive o.core then (some (cMatrixPairLost, 0), false)
    else
      let both := r.key != 0
      let arrays := c :: (if both then [s.core (CoreRef.partner o.core)] else [])
      if o.kind == .mzero then (none, both)
      else
        let kc := o.reg 4 % 16 + 1
        let a := orec (o.ptr 0)
        let b := orec (o.ptr 2)
        let size := fun (x : Core) => (x.res.map (·.size)).getD 0
        if arrays.any fun x => recOutside a 64 kc (size x) then (some (cMatrixRange, 0), both)
        else if arrays.any fun x => recOutside b 128 kc (size x) then (some (cMatrixRange, 2), both)
        else if b.fmt == 8 && arrays.any fun x => (tget x.codebooks b.ct).isNone then (some (cCbookInvalid, b.ct), both)
        else (none, both)
/-- A keyed MRESV started: both deliver 16 cycles after the later start of the two (R334); the partner's may have delivered before and
its reservation pairs again (R326). -/
def State.pairDue (s : State) (o : EngOp) : State :=
  let p := CoreRef.partner o.core
  if s.pairLive o.core && ((s.core p).res.map (·.delivered)) == some true then s.setEng { o with due := some ((s.quad o.core).cyc + 16) }
  else if s.pairLive o.core && s.engs.any fun (x : EngOp) => !x.saved && x.kind == .mresv && x.core == p && x.cause == 0 && x.started then
    let due := (s.quad o.core).cyc + 16
    { s with engs := s.engs.map fun (x : EngOp) =>
        if !x.saved && x.kind == .mresv && x.cause == 0 && (x.core == p || x.core == o.core) then { x with due := some due } else x }
  else s
/-- The invalid base vector of a codebook table, if there is one (R330). -/
def cbookBad (t : List Word) : Option Nat := (t.zipIdx.find? fun p => p.1 &&& 0x88888888 != 0).map (·.2)
/-- The table in 2,048 bytes. -/
def cbookOf (bs : List Byte) : List Word := (List.range 512).map fun i => BitVec.ofNat 32 (leVal ((bs.drop (4 * i)).take 4))
/-- A byte of a reservation's buffer that a record of KC chunks reads (R328). -/
def ORec.reads (x : ORec) (rows kc a : Nat) : Bool :=
  (List.range rows).any fun r =>
    (64 * x.off + 16 * x.rs * r ≤ a && decide (a < 64 * x.off + 16 * x.rs * r + rowBytes x kc)) ||
    (x.sc && 64 * x.soff + x.ss * r ≤ a && decide (a < 64 * x.soff + x.ss * r + kc))
/-- A poisoned byte of an operand, or a poisoned element of a tile, that an operation reads on an array (R349). -/
def Core.poisonRead (c : Core) (o : EngOp) : Bool :=
  let tile := fun (t : Nat) => c.tilePoison.any fun i => i / 8192 == t
  match o.kind with
  | .mstore => tile (o.reg 1 % 2)
  | .mma | .mmai | .mchk =>
    let kc := o.reg 4 % 16 + 1
    let b0 := 4096 * ((c.res.map (·.base)).getD 0)
    (!bit (o.reg 4) 5 && tile (bits (o.reg 4) 4 4)) ||
      c.obPoison.any fun a => b0 ≤ a && ((orec (o.ptr 0)).reads 64 kc (a - b0) || (orec (o.ptr 2)).reads 128 kc (a - b0))
  | _ => false
/-- What an operation that passed the checks at start fails by: poison that it reads, an invalid codebook table, a difference that MCHK
finds (R337, R341, R349). Every failed operation takes 2 cycles (R347), so these are decided at its start. -/
def State.runBad (s : State) (o : EngOp) (both : Bool) : Option (Nat × Nat) :=
  match s.block o.blk with
  | none => none
  | some k =>
    if (s.core o.core).poisonRead o || (both && (s.core (CoreRef.partner o.core)).poisonRead o) then some (cDataLost, 0)
    else
      match o.kind with
      | .mload => (match k.lload (o.reg 0) (o.reg 2) with
        | .ok _ => none
        | _ => some (cDataLost, 0))
      | .mcbl => (match k.lload (o.reg 0) 2048 with
        | .ok bs => (cbookBad (cbookOf bs)).map fun v => (cCbookInvalid, v)
        | _ => some (cDataLost, 0))
      | .mchk => if Config.matrixDiffer s.clock.free == 0 then none else some (cMatrixCheck, min (Config.matrixDiffer s.clock.free) 0xFFFFFFFF)
      | _ => none
/-- An operation starts (MATRIX_OP_START). -/
def State.matStart (s : State) (o : EngOp) : State :=
  let q0 := s.startBad o
  let q := (q0.1.orElse fun _ => s.runBad o q0.2, q0.2)
  let s := s.useFree
  let cyc := (s.quad o.core).cyc
  let p := 2 ^ (s.quad o.core).pass.toNat
  let keyed := o.kind == .mresv && o.reg 2 != 0
  let due := if q.1.isSome then some (cyc + 2) else if keyed then none else some (cyc + o.cycles p)
  let o2 := { o with
    started := true
    both := if q.1.isSome then o.both else q.2
    lold := ((s.block o.blk).map (·.lmem)).getD []
    obold := [(s.core o.core).obuf, (s.core (CoreRef.partner o.core)).obuf]
    cause := (q.1.map (·.1)).getD 0, detail := (q.1.map (·.2)).getD 0, due := due }
  let s := s.setEng o2
  let c := s.core o.core
  if q.1.isSome then s
  else if o.kind == .mresv then
    match c.res with
    | some r => let s := s.setCore o.core (c.clearRes r); if keyed then s.pairDue o2 else s
    | none => s
  else if o.kind == .mrels then s.setCore o.core { c with res := none }
  else s

/-! ### Effects (R334-R344) -/

/-- MSTORE's conversion of one element (R342). -/
def cvtElem (cvt v : Nat) : List Byte :=
  match cvt with
  | 0 => leBytes 4 v
  | 1 => leBytes 2 (f2fBits 0 fp32 bf16 .rn v)
  | 2 => leBytes 2 (f2fBits 0 fp32 fp16 .rn v)
  | 3 => leBytes 1 (f2fBits 0 fp32 e4m3 .rn v)
  | 4 => leBytes 1 ((BitVec.ofInt 8 (saturate (sext v 32) 8 true)).toNat)
  | _ => leBytes 1 ((saturate (sext v 32) 8 false).toNat)
/-- Operations of a queue in flight, but one. -/
def State.qlen (s : State) (c : CoreRef) (array : Bool) (but : Nat) : Nat :=
  (s.engs.filter fun (x : EngOp) => !x.saved && x.id != but && x.joins.contains (c, array)).length
/-- The MSTAT record (R344). -/
def State.mstat (s : State) (o : EngOp) : List Byte :=
  let c := s.core o.core
  let p := s.core (CoreRef.partner o.core)
  let live := s.pairLive o.core
  let r := c.res.getD ⟨0, 0, 0, 0, 0, true⟩
  let fl := fun (a b : BitVec 3) => (if live then a ||| b else a).toNat
  let w0 := boolBit c.res.isSome 63 + boolBit live 62 + boolBit (o.core.num % 2 == 0 || r.key == 0) 61 +
    boolBit (r.key != 0 && !r.delivered) 60 + r.base * 2 ^ 54 + r.size * 2 ^ 47 +
    ((List.range 4).map fun i => boolBit ((tget c.codebooks i).isSome) (43 + i)).sum + r.key.toNat
  let w1 := s.qlen o.core true o.id % 256 * 2 ^ 40 + s.qlen o.core false o.id % 256 * 2 ^ 32 + c.chkn.toNat * 2 ^ 16 +
    fl c.stick1 p.stick1 * 8 + fl c.stick0 p.stick0
  leBytes 8 w0 ++ leBytes 8 w1
/-- Change the arrays an operation acts on. -/
def State.onArrays (s : State) (o : EngOp) (f : Core → Core) : State :=
  let s1 := s.setCore o.core (f (s.core o.core))
  if o.both then s1.setCore (CoreRef.partner o.core) (f (s.core (CoreRef.partner o.core))) else s1
/-- The tile holds unspecified values. -/
def State.scrambleTile (s : State) (o : EngOp) (t : Nat) : State :=
  let n := s.clock.free
  ({ s with clock := { s.clock with free := n + 8192 } }).onArrays o fun c =>
    c.setTile t (tileOf fun i => (Config.freeValue (n + i)).extractLsb' 0 32)
/-- The operand buffer of a core once every load operation that runs on it has written its bytes. -/
def State.loadedBuf (s : State) (c : CoreRef) : Mem :=
  (s.engs.filter fun (x : EngOp) => !x.saved && x.kind == .mload && x.core == c && x.started && x.cause == 0).foldl (fun m x =>
    let base := 4096 * (((s.core c).res.map (·.base)).getD 0)
    mputs m (base + 64 * x.reg 1) (((s.block x.blk).map fun k => mbytes k.lmem (x.reg 0) (x.reg 2)).getD [])) (s.core c).obuf
/-- A buffer as an array operation reads it: a byte that a load operation writes while it runs is read with its old value, as at the
start, or its new one, which that load has written by now or may write early (R346). -/
def mixBuf (free : Nat) (old now next : Mem) : Mem :=
  (((old ++ now ++ next).map (·.1)).filter fun a => mget old a != mget next a || mget now a != mget next a).zipIdx.foldl (fun m p =>
    let f := Config.freeValue (free + p.2)
    mset m p.1 (mget (if f.getLsbD 0 then old else if f.getLsbD 1 then now else next) p.1)) now
/-- An array performs MMA, MMAI or MCHK. -/
def State.mmaOn (s : State) (o : EngOp) (c : CoreRef) (old : Mem) : State :=
  let k := s.core c
  let t := bits (o.reg 4) 4 4
  let r := ({ k with obuf := mixBuf s.clock.free old k.obuf (s.loadedBuf c) }).mma (orec (o.ptr 0)) (orec (o.ptr 2)) o.isInt (o.reg 4)
  ({ s with clock := { s.clock with free := s.clock.free + 3 * 262144 } }).setCore c
    { r with obuf := k.obuf, tilePoison := k.tilePoison.filter fun i => i / 8192 != t }
/-- Perform MMA, MMAI or MCHK and deliver. -/
def State.mmaRun (s : State) (o : EngOp) : State :=
  let s := s.mmaOn o o.core (o.obold.headD [])
  (if o.both then s.mmaOn o (CoreRef.partner o.core) ((lget o.obold 1).getD []) else s).engDone o 0 0 0
/-- What an operation that fails at its start leaves: MCBL an empty slot, MCHK its count and its record, a loss of data unspecified
values in what it was to write (R337, R341, R349). -/
def State.matFail (s : State) (o : EngOp) : State :=
  if o.cause == cMatrixCheck then
    let s := s.onArrays o fun c => { c with chkn := if c.chkn == 0xFFFF then c.chkn else c.chkn + 1 }
    s.errRecord { cause := cMatrixCheck, sev := 1, die := o.core.die, core := o.core.num, unit := 9, ctx := o.ctx
                  launch := ((s.block o.blk).map (·.launch)).getD 0xFFFFFFFF }
  else if o.kind == .mcbl && (o.cause == cCbookInvalid || o.cause == cDataLost) then
    s.setCore o.core { s.core o.core with codebooks := tdel (s.core o.core).codebooks (o.reg 1) }
  else if o.cause == cDataLost then
    match o.kind with
    | .mload =>
      let c := s.core o.core
      let q := s.freeBytes (o.reg 2)
      q.2.setCore o.core { c with obuf := mputs c.obuf (4096 * ((c.res.map (·.base)).getD 0) + 64 * o.reg 1) q.1 }
    | .mstore =>
      (List.range 64).foldl (fun s m => s.scramble o.blk (o.reg 0 + o.reg 2 * m) (128 * cvtBytes (bits (o.reg 1) 3 1))) s
    | _ => s.scrambleTile o (bits (o.reg 4) 4 4)
  else s
/-- MRESV delivers: a keyed one only with its partner's, both in one step (R334). -/
def State.mresvRun (s : State) (o : EngOp) : State :=
  let mark := fun (s : State) (c : CoreRef) =>
    let k := s.core c
    s.setCore c { k with res := k.res.map fun r => { r with delivered := true } }
  if o.reg 2 == 0 then (mark s o.core).engDone o 0 0 0
  else if !s.pairLive o.core then s
  else
    let p := CoreRef.partner o.core
    match s.engs.find? fun (x : EngOp) => !x.saved && x.kind == .mresv && x.core == p && x.cause == 0 with
    | some x => if x.started && x.due.isSome then (((mark s o.core).engDone o 0 0 0) |> fun s => (mark s p).engDone x 0 0 0) else s
    | none => (mark s o.core).engDone o 0 0 0
/-- The effect and the final delivery of a matrix operation. -/
def State.matDelivery (s : State) (o : EngOp) : State :=
  if o.cause != 0 then (if o.started then s.matFail o else s).engDone o 0 o.cause o.detail
  else if !o.started || o.due.isNone then s
  else
    match s.block o.blk with
    | none => s
    | some k =>
      let c := s.core o.core
      let base := 4096 * ((c.res.map (·.base)).getD 0)
      match o.kind with
      | .mresv => s.mresvRun o
      | .mrels => s.engDone o 0 0 0
      | .mload =>
        match s.lread k o (o.reg 0) (o.reg 2) with
        | (.ok bs, s) =>
          let a := base + 64 * o.reg 1
          (s.setCore o.core { c with obuf := mputs c.obuf a bs, obPoison := c.obPoison.filter fun x => !(a ≤ x && decide (x < a + bs.length)) }).engDone o 0 0 0
        | (_, s) => (s.matFail { o with cause := cDataLost }).engDone o 0 cDataLost 0
      | .mcbl =>
        match s.lread k o (o.reg 0) 2048 with
        | (.ok bs, s) =>
          match cbookBad (cbookOf bs) with
          | none => (s.setCore o.core { c with codebooks := tput c.codebooks (o.reg 1) (cbookOf bs) }).engDone o 0 0 0
          | some v => (s.matFail { o with cause := cCbookInvalid }).engDone o 0 cCbookInvalid v
        | (_, s) => (s.matFail { o with cause := cDataLost }).engDone o 0 cDataLost 0
      | .mzero => (s.onArrays o fun c =>
          { c with
            acc0 := if bit (o.reg 0) 0 then [] else c.acc0
            acc1 := if bit (o.reg 0) 1 then [] else c.acc1
            tilePoison := c.tilePoison.filter fun i => !bit (o.reg 0) (i / 8192) }).engDone o 0 0 0
      | .mstore =>
        let cvt := bits (o.reg 1) 3 1
        let t := c.tile (o.reg 1 % 2)
        let s := (List.range 64).foldl (fun s m => s.lstore k.id (o.reg 0 + o.reg 2 * m)
          (((List.range 128).map fun n => cvtElem cvt (tileAt t (128 * m + n)).toNat).flatten)) s
        s.engDone o 0 0 0
      | .mstat =>
        let s1 := s.lstore k.id (o.reg 0) (s.mstat o)
        (if o.reg 1 == 1 then s1.setCore o.core { c with stick0 := 0, stick1 := 0, chkn := 0 } else s1).engDone o 0 0 0
      | _ => s.mmaRun o

/-- MRESV (R334). -/
def execMresv (f : FX) (s : State) : Out := engCommand (.mresv f) f .mresv acceptMat s
/-- MRELS (R335). -/
def execMrels (f : FX) (s : State) : Out := engCommand (.mrels f) f .mrels acceptMat s
/-- MLOAD (R336). -/
def execMload (f : FX) (s : State) : Out := engCommand (.mload f) f .mload acceptMat s
/-- MCBL (R337). -/
def execMcbl (f : FX) (s : State) : Out := engCommand (.mcbl f) f .mcbl acceptMat s
/-- MMA (R339). -/
def execMma (f : FX) (s : State) : Out := engCommand (.mma f) f .mma acceptMat s
/-- MMAI (R340). -/
def execMmai (f : FX) (s : State) : Out := engCommand (.mmai f) f .mmai acceptMat s
/-- MZERO (R338). -/
def execMzero (f : FX) (s : State) : Out := engCommand (.mzero f) f .mzero acceptMat s
/-- MSTORE (R342). -/
def execMstore (f : FX) (s : State) : Out := engCommand (.mstore f) f .mstore acceptMat s
/-- MSTAT (R343). -/
def execMstat (f : FX) (s : State) : Out := engCommand (.mstat f) f .mstat acceptMat s
/-- MCHK (R341). -/
def execMchk (f : FX) (s : State) : Out := engCommand (.mchk f) f .mchk acceptMat s

/-- MATRIX_OP_START (R345). -/
def execMatrixOpStart (op : Nat) (s : State) : Out :=
  match s.engs.find? fun (o : EngOp) => o.id == op && !o.saved && o.kind.unit == 1 && !o.started && o.cause == 0 with
  | some o => if s.queued o then .next s else .next (s.matStart o)
  | none => .next s
/-- MRESV_PARTNER_TIMEOUT (R334): the partner's matching MRESV has not started within the wait-timeout. -/
def execMresvPartnerTimeout (op : Nat) (s : State) : Out :=
  match s.engs.find? fun (o : EngOp) => o.id == op && !o.saved && o.kind == .mresv && o.cause == 0 && o.reg 2 != 0 with
  | none => .next s
  | some o =>
    let w := ((s.ctx o.ctx).map (·.wto)).getD 0
    let p := CoreRef.partner o.core
    let met := s.pairLive o.core && !(s.engs.any fun (x : EngOp) => !x.saved && x.kind == .mresv && x.core == p && x.cause == 0 && !x.started)
    if w == 63 || met then .next s
    else
      let s := s.reachCyc (s.quadKeyOf o.core) (o.cyc + 2 ^ (if w == 0 then 30 else w))
      let c := s.core o.core
      .next ((s.setCore o.core { c with res := none }).engDone o 0 cMatrixPartner 0)

end Sys2Proof.Machine
end

