-- ==== Sys2Proof/Machine/Ray.lean ====
section
/-! DEFINITION. The ray unit: hierarchy nodes, triangles, rays, traversal in exact arithmetic, hit records, RAYQ (spec/16_ray.md). -/

namespace Sys2Proof.Machine

def cRayDesc : Nat := 0x140
def cRayTarget : Nat := 0x141
def cRayLocalRange : Nat := 0x142
def cRayNode : Nat := 0x143
def cRayLeaf : Nat := 0x144
def cRayDepth : Nat := 0x145
def cRayLimit : Nat := 0x146

/-! ### Exact arithmetic -/

/-- 2^e. -/
def ratPow2 (e : Int) : Rat := if 0 ≤ e then ((2 ^ e.toNat : Nat) : Rat) else 1 / ((2 ^ (-e).toNat : Nat) : Rat)
/-- The exact value of a finite number. -/
def Fv.rat : Fv → Rat
  | .fin n m e => (if n then -1 else 1) * (m : Rat) * ratPow2 e
  | _ => 0
def Fv.finite : Fv → Bool
  | .fin _ _ _ => true
  | _ => false
/-- RoundNE of an exact value in FP32. -/
def ratBits (x : Rat) : Nat := roundFp fp32 .rn false (decide (x < 0)) x.num.natAbs x.den 0
/-- A vector. -/
structure V3 where
  x : Rat
  y : Rat
  z : Rat
  deriving DecidableEq, Repr
def V3.sub (a b : V3) : V3 := ⟨a.x - b.x, a.y - b.y, a.z - b.z⟩
def V3.dot (a b : V3) : Rat := a.x * b.x + a.y * b.y + a.z * b.z
def V3.cross (a b : V3) : V3 := ⟨a.y * b.z - a.z * b.y, a.z * b.x - a.x * b.z, a.x * b.y - a.y * b.x⟩
/-- The FP32 value at byte a of a record. -/
def fp32At (v a : Nat) : Fv := fpDec fp32 (bits v (8 * a + 31) (8 * a))
/-- Three FP32 values from byte a. -/
def vecAt (v a : Nat) : V3 := ⟨(fp32At v a).rat, (fp32At v (a + 4)).rat, (fp32At v (a + 8)).rat⟩
def vecFinite (v a : Nat) : Bool := (fp32At v a).finite && (fp32At v (a + 4)).finite && (fp32At v (a + 8)).finite

/-! ### Rays, boxes, triangles -/

/-- A ray (R410). -/
structure Ray where
  o : V3
  d : V3
  tmin : Rat
  tmax : Rat
  deriving DecidableEq, Repr
/-- The ray of a record; none misses at once (R410). -/
def rayOf (v : Nat) : Option Ray :=
  let r : Ray := ⟨vecAt v 0, vecAt v 16, (fp32At v 12).rat, (fp32At v 28).rat⟩
  if vecFinite v 0 && vecFinite v 16 && (fp32At v 12).finite && (fp32At v 28).finite && decide (r.tmin ≤ r.tmax) && r.d != ⟨0, 0, 0⟩ then some r
  else none
/-- The part of [t0, t1] in which one axis of the ray lies within [lo, hi]; none when empty, as where the box is. -/
def clipAxis (o d lo hi : Rat) (t : Option (Rat × Rat)) : Option (Rat × Rat) :=
  match t with
  | none => none
  | some (a, b) =>
    if decide (hi < lo) then none
    else if d == 0 then (if decide (lo ≤ o) && decide (o ≤ hi) then some (a, b) else none)
    else
      let p := (lo - o) / d
      let q := (hi - o) / d
      let a2 := max a (min p q)
      let b2 := min b (max p q)
      if a2 ≤ b2 then some (a2, b2) else none
/-- The ray meets the closed box (R414). -/
def Ray.meetsBox (r : Ray) (lo hi : V3) : Bool :=
  (clipAxis r.o.z r.d.z lo.z hi.z (clipAxis r.o.y r.d.y lo.y hi.y (clipAxis r.o.x r.d.x lo.x hi.x (some (r.tmin, r.tmax))))).isSome
/-- A candidate. -/
structure Hit where
  t : Rat
  u : Rat
  v : Rat
  back : Bool
  prim : Nat
  geom : Nat
  taddr : Nat
  deriving DecidableEq, Repr
/-- The candidate that a triangle record at `addr` gives (R414). -/
def Ray.hit (r : Ray) (cullb cullf : Bool) (tri addr : Nat) : Option Hit :=
  if !(vecFinite tri 0 && vecFinite tri 12 && vecFinite tri 24) then none else
    let v0 := vecAt tri 0
    let e1 := (vecAt tri 12).sub v0
    let e2 := (vecAt tri 24).sub v0
    let n := e1.cross e2
    let den := -(n.dot r.d)
    if den == 0 then none else
      let w := r.o.sub v0
      let t := n.dot w / den
      let u := -(w.dot (e2.cross r.d)) / den
      let v := -(e1.dot (w.cross r.d)) / den
      let back := decide (den < 0)
      let g := bits tri 351 320
      if decide (0 ≤ u) && decide (0 ≤ v) && decide (u + v ≤ 1) && decide (r.tmin ≤ t) && decide (t ≤ r.tmax) &&
          !(!bit g 24 && ((cullb && back) || (cullf && !back))) then
        some ⟨t, u, v, back, bits tri 319 288, g % 2 ^ 24, addr⟩ else none
/-- A triangle record breaks R409. -/
def triBad (tri : Nat) : Bool := bits tri 351 345 != 0 || bits tri 383 352 != 0

/-! ### Nodes (R407, R408) -/

def childAt (node c : Nat) : Nat := bits node (96 * c + 351) (96 * c + 256)
def childKind (ch : Nat) : Nat := bits ch 49 48
def childBad (ch : Nat) : Bool :=
  bits ch 95 76 != 0 || childKind ch == 3 || (childKind ch == 0 && ch != 0) || (childKind ch == 1 && bits ch 75 72 != 0)
def nodeBad (node : Nat) : Bool :=
  bits node 127 120 != 0 || (List.range 3).any (fun a => bits node (8 * a + 103) (8 * a + 96) == 255) || !vecFinite node 0 ||
    bits node 191 128 % 128 != 0 || bits node 255 192 % 16 != 0 || (List.range 8).any fun c => childBad (childAt node c)
/-- The box of a child: lower and upper corner. -/
def childBox (node ch : Nat) : V3 × V3 :=
  let s := fun a => ratPow2 ((bits node (8 * a + 103) (8 * a + 96) : Nat) - (127 : Int))
  let o := vecAt node 0
  let lo := fun a => ((bits ch (8 * a + 7) (8 * a) : Nat) : Rat) * s a
  let hi := fun a => ((bits ch (8 * a + 31) (8 * a + 24) + 1 : Nat) : Rat) * s a
  (⟨o.x + lo 0, o.y + lo 1, o.z + lo 2⟩, ⟨o.x + hi 0, o.y + hi 1, o.z + hi 2⟩)

/-! ### Traversal -/

/-- What remains to be visited: a node at an address and level, or a triangle. -/
inductive Visit where
  | node (a level : Nat)
  | tri (a : Nat)
  deriving DecidableEq, Repr
/-- How a ray ends. -/
inductive RayEnd where
  | done (h : Option Hit)
  | fail (cause : Nat)
  | wait
  deriving DecidableEq, Repr
/-- n pieces of 16 bytes of global memory; addresses are plain 64-bit sums (spec/03_memory_model.md R66). -/
def State.gloadPieces (s : State) (k : Block) (o : EngOp) (a : Nat) : Nat → GRes × State
  | 0 => (.ok [], s)
  | n + 1 =>
    match s.gload k o (a % 2 ^ 64) 16 with
    | (.ok bs, s) => match s.gloadPieces k o (a + 16) n with
      | (.ok r, s) => (.ok (bs ++ r), s)
      | q => q
    | q => q
/-- The better of two candidates: least t, then lowest address. -/
def betterHit (a : Option Hit) (b : Hit) : Option Hit :=
  match a with
  | none => some b
  | some h => if h.t < b.t || (h.t == b.t && decide (h.taddr ≤ b.taddr)) then some h else some b
/-- Test the triangle at address a: the best candidate so far, or a cause. -/
def State.rayTri (s : State) (k : Block) (o : EngOp) (r : Ray) (best : Option Hit) (a : Nat) : RayEnd × State :=
  match s.gloadPieces k o a 3 with
  | (.fail c, s) => (.fail c, s)
  | (.wait, s) => (.wait, s)
  | (.ok bs, s) =>
    let tri := leVal bs
    if triBad tri then (.fail cRayLeaf, s)
    else (.done (match r.hit (bit (o.reg 5) 1) (bit (o.reg 5) 2) tri a with
      | some h => betterHit best h
      | none => best), s)
/-- What the children of a node that the ray meets leave to be visited. -/
def nodeVisits (r : Ray) (node level : Nat) : List Visit :=
  ((List.range 8).map fun i =>
    let ch := childAt node i
    let bx := childBox node ch
    if childKind ch == 0 || !r.meetsBox bx.1 bx.2 then []
    else if childKind ch == 1 then [.node ((bits node 191 128 + 128 * bits ch 71 50) % 2 ^ 64) (level + 1)]
    else (List.range (bits ch 75 72 + 1)).map fun j => .tri ((bits node 255 192 + 48 * (bits ch 71 50 + j)) % 2 ^ 64)).flatten
/-- Visit what is left, in an order that free values choose; `nodes` nodes may still be visited (R414, R415). With ANY the first
candidate ends the ray. -/
def State.rayWalk (s : State) (k : Block) (o : EngOp) (r : Ray) (best : Option Hit) (nodes : Nat) (left : List Visit) : Nat → RayEnd × State
  | 0 => (.fail cRayLimit, s)
  | n + 1 =>
    let i := s.freeVal.toNat % left.length
    let s := s.useFree
    match lget left i with
    | none => (.done best, s)
    | some (.tri a) =>
      match s.rayTri k o r best a with
      | (.done h, s) => if bit (o.reg 5) 0 && h.isSome then (.done h, s) else s.rayWalk k o r h nodes (left.eraseIdx i) n
      | q => q
    | some (.node a level) =>
      if 32 < level then (.fail cRayDepth, s)
      else if nodes == 0 then (.fail cRayLimit, s)
      else
        match s.gload k o a 128 with
        | (.fail c, s) => (.fail c, s)
        | (.wait, s) => (.wait, s)
        | (.ok bs, s) =>
          let node := leVal bs
          if nodeBad node then (.fail cRayNode, s)
          else s.rayWalk k o r best (nodes - 1) (left.eraseIdx i ++ nodeVisits r node level) n

/-! ### RAYQ -/

/-- Checks 2 and 3 of R413. -/
def rayChk (k : Block) (o : EngOp) : Option (Nat × Nat) :=
  let region := o.reg 1 / 2 ^ 24
  match firstBad [(0, o.reg 0 % 128 != 0 || region == 1 || region == 2), (2, o.reg 2 % 32 != 0), (3, o.reg 3 % 32 != 0),
      (4, o.reg 4 == 0 || 256 < o.reg 4), (5, 6 ≤ o.reg 5), (6, o.reg 6 != 0), (7, o.reg 7 != 0)] with
  | some r => some (cRayDesc, r)
  | none =>
    let n := 32 * o.reg 4
    (firstBad [(2, k.outside (o.reg 2) n || meets (o.reg 2) n (o.reg 3) n), (3, k.outside (o.reg 3) n)]).map fun r => (cRayLocalRange, r)
/-- Acceptance by the ray unit (R413): an operation that fails delivers its arrival at once; of another, until they are written, the hit
records hold unspecified bytes (R416). -/
def acceptRay (self : Bool) (s : State) (o : EngOp) : State :=
  match s.block o.blk with
  | none => s
  | some k =>
    match if self then rayChk k o else some (cRayTarget, 0) with
    | some b => s.engDone o 0 b.1 b.2
    | none =>
      let s := s.scramble o.blk (o.reg 3) (32 * o.reg 4)
      { s with engs := s.engs ++ [{ o with lold := k.lmem }] }
/-- The hit record (R411). -/
def hitRecord (h : Option Hit) (cause : Nat) : List Byte :=
  match h with
  | some h => leBytes 8 (ratBits h.u * 2 ^ 32 + ratBits h.t) ++ leBytes 8 (h.prim * 2 ^ 32 + ratBits h.v) ++
      leBytes 8 (boolBit h.back 25 + 2 ^ 24 + h.geom) ++ leBytes 8 h.taddr
  | none => leBytes 16 0 ++ leBytes 8 (cause * 2 ^ 54) ++ leBytes 8 0
/-- Process at most n rays from the operation's progress on: the operation with its progress and its first cause. A ray whose read
waits stays to be processed. -/
def State.rayRun (s : State) (o : EngOp) : Nat → EngOp × State
  | 0 => (o, s)
  | n + 1 =>
    match s.block o.blk with
    | none => (o, s)
    | some k =>
      let i := o.prog
      let next := fun (c : Nat) => { o with prog := i + 1, cause := if o.cause == 0 then c else o.cause, detail := if o.cause == 0 && c != 0 then i else o.detail }
      let put := fun (s : State) (h : Option Hit) (c : Nat) => s.lstore k.id (o.reg 3 + 32 * i) (hitRecord h c)
      match s.lread k o (o.reg 2 + 32 * i) 32 with
      | (.ok bs, t) =>
        match rayOf (leVal bs) with
        | none => (put t none 0).rayRun (next 0) n
        | some r =>
          let q := t.rayWalk k o r none (2 ^ 20) [.node (o.ptr 0) 0] (2 ^ 28)
          match q.1 with
          | .done h => (put q.2 h 0).rayRun (next 0) n
          | .fail c => (put q.2 none c).rayRun (next c) n
          | .wait => (o, s)
      | (_, t) => (put t none cDataLost).rayRun (next cDataLost) n
/-- A free number of the remaining rays are processed; after the last the arrival is made (R414-R417). -/
def State.rayDelivery (s : State) (o : EngOp) : State :=
  let q := s.useFree.rayRun o (1 + s.freeVal.toNat % (o.reg 4 - o.prog))
  if q.1.prog == o.reg 4 then q.2.engDone o 0 q.1.cause q.1.detail else q.2.setEng q.1

/-- RAYQ (R412, R413). -/
def execRayq (f : FX) (s : State) : Out := engCommand (.rayq f) f .rayq acceptRay s

/-- ENGINE_DELIVERY (spec/08_core_sync.md R239). -/
def execEngineDelivery (op : Nat) (s : State) : Out :=
  match s.engs.find? fun (o : EngOp) => o.id == op && !o.saved with
  | none => .next s
  | some o =>
    let s := s.reachDue (s.quadKeyOf o.core) o.due
    .next (if o.kind.unit == 0 then s.copyDelivery o else if o.kind.unit == 1 then s.matDelivery o else s.rayDelivery o)

end Sys2Proof.Machine
end

