-- ==== Sys2Proof/Machine/Seq.lean ====
section
/-! DEFINITION. Sequencers: FORK, RDV, the control instructions, the engine commands of class SEQ, and the expiries of waits
(spec/10_distributor.md R287-R293; spec/08_core_sync.md R248). -/

namespace Sys2Proof.Machine

def cSeqBusy : Nat := 0x310
def cSeqTarget : Nat := 0x311
def cSeqStart : Nat := 0x312
def cSeqAddress : Nat := 0x313
def cSeqLate : Nat := 0x314
def cForkRecord : Nat := 0x315

/-! ### A sequencer and its program -/

def State.sq (s : State) (c : CoreRef) (k : SeqKind) : Sequencer :=
  match k with
  | .copy => (s.core c).cseq
  | .matrix => (s.core c).mseq
def State.setSq (s : State) (c : CoreRef) (k : SeqKind) (q : Sequencer) : State :=
  match k with
  | .copy => s.setCore c { s.core c with cseq := q }
  | .matrix => s.setCore c { s.core c with mseq := q }
/-- Address of the instruction or header at which a sequencer stands. -/
def Sequencer.iaddr (q : Sequencer) : DWord := if q.head.isSome then q.hdr + BitVec.ofNat 64 (8 * (q.idx + 1)) else q.pc
/-- Its word index in .text (R292). -/
def State.seqWord (s : State) (q : Sequencer) : BitVec 32 :=
  match (s.block q.owner).bind fun k => s.launch k.launch with
  | some l => ((q.iaddr - l.text) >>> 3).setWidth 32
  | none => 0
/-- The program records a cause, if it is the first. -/
def State.seqRecord (s : State) (q : Sequencer) (cause : Nat) : Sequencer :=
  if q.cause == 0 && cause != 0 then { q with cause := cause, detail := s.seqWord q } else q
/-- An update that a sequencer has issued is performed. -/
def State.performLater (s : State) (b : Nat) (act : LaterAct) : State :=
  let put := fun (a : Nat) (f : Bo → Except Nat Bo) => match (s.block b).map fun k => f (k.bo a) with
    | some (.ok o) => s.boPut b a o
    | _ => s
  match act with
  | .arrive a => put a Bo.arrive
  | .expect a n => put a fun o => o.expect n true
  | .program a cause detail => s.deliver b a 0 true true 5 cause detail
/-- A sequencer's update: performed 6 cycles after its issue in a fixed-timing context, else at once (R294). -/
def State.actLater (s : State) (c : CoreRef) (b : Nat) (act : LaterAct) : State :=
  if ((s.block b).map fun k => s.blockFixed k).getD false then
    { s with later := s.later ++ [⟨c, (s.quad c).cyc + 6, b, act⟩] }
  else s.performLater b act
/-- The updates whose time has come are performed, in order of issue. -/
def State.settleLater (s : State) : State :=
  let now := fun (x : Later) => decide (x.due ≤ (s.quad x.core).cyc)
  (s.later.filter now).foldl (fun s x => s.performLater x.blk x.act) { s with later := s.later.filter fun x => !now x }
/-- The program ends (R292): one arrival on its object, with its first cause. -/
def State.endProgram (s : State) (c : CoreRef) (k : SeqKind) (q : Sequencer) (cause : Nat) : State :=
  let q := s.seqRecord q cause
  let s := s.setSq c k { q with running := false, draining := true, bowait := none, holdT := none, head := none, words := [], idx := 0 }
  { s with opens := s.opens.filter fun (o : Open) => o != Open.seq c k }.actLater c q.owner (.program q.pbo.toNat q.cause q.detail.toNat)
/-- How a sequencer goes on after an instruction. -/
inductive SeqNext where
  | advance (q : Sequencer)
  /-- to the clause header at an address -/
  | jump (q : Sequencer) (pc : DWord)
  /-- the issue is held -/
  | hold
  /-- blocked -/
  | wait (q : Sequencer)
  /-- the program ends -/
  | stop (cause : Nat)
  deriving DecidableEq, Repr
/-- Issue a sequencer's instruction. -/
def seqIssue (act : State → CoreRef → SeqKind → Sequencer → State × SeqNext) (s : State) : Out :=
  match s.opens with
  | .seq c k :: rest =>
    match act s c k (s.sq c k) with
    | (s, .advance q) => .next { s.setSq c k q.advance with opens := rest ++ [.seq c k] }
    | (s, .jump q pc) => .next { s.setSq c k { q with pc := pc, head := none, words := [], idx := 0 } with opens := rest ++ [.seq c k] }
    | (s, .hold) => .next { s with opens := rest ++ [.seq c k] }
    | (s, .wait q) => .next { s.setSq c k q with opens := rest }
    | (s, .stop cause) => .next (s.endProgram c k (s.sq c k) cause)
  | _ => .fault .noSequencer

/-! ### Control instructions (R290) -/

/-- The local address a(r) + 16 * off, modulo 2^32 (R289). -/
def Sequencer.addr (q : Sequencer) (r off : Nat) : Nat := ((lget q.a r).getD 0 + BitVec.ofNat 32 (16 * off)).toNat
/-- Step every address register of a mask by n times its step. -/
def Sequencer.stepA (q : Sequencer) (mask : Nat) (n : Int) : Sequencer :=
  { q with a := q.a.zipIdx.map fun (p : BitVec 32 × Nat) =>
      if bit mask p.2 then p.1 + BitVec.ofInt 32 (n * ((lget q.st p.2).getD 0).toInt) else p.1 }
/-- SQNOP (R290). -/
def execSqnop (_f : FS) (s : State) : Out := seqIssue (fun s _ _ q => (s, .advance q)) s
/-- SQLOOP (R290). -/
def execSqloop (f : FS) (s : State) : Out :=
  seqIssue (fun s _ _ q =>
    let l := f.mf 14 2
    let mask := f.mf 6 8
    let n := (lget q.n l).getD 0
    let c := (lget q.c l).getD 0
    if c == 0 && n == 0 then (s, .stop cSeqStart)
    else
      let c2 := if c == 0 then n - 1 else c - 1
      let q := { q with c := lset q.c l c2 }
      if c2 != 0 then (s, .jump (q.stepA mask 1) (q.hdr - BitVec.ofNat 64 (8 * f.doff.toNat)))
      else (s, .advance (q.stepA mask (-((n.toNat : Int) - 1))))) s
/-- SQEND (R292). -/
def execSqend (_f : FS) (s : State) : Out := seqIssue (fun s _ _ _ => (s, .stop 0)) s
/-- Cycles since the sequencer started. -/
def State.scyc (s : State) (c : CoreRef) (q : Sequencer) : Nat := (((s.quad c).cyc : Int) - q.scyc0).toNat
/-- SQWAITC (R290). -/
def execSqwaitc (f : FS) (s : State) : Out :=
  seqIssue (fun s c _ q =>
    let w : BitVec 32 := f.boff ++ f.smod
    let t := if f.doff.getLsbD 0 then q.mark + w.setWidth 64 else w.setWidth 64
    let q := if f.doff.getLsbD 0 then { q with mark := t } else q
    if t.toNat ≤ s.scyc c q then
      (s, .advance (if (q.head.map (·.fixed)).getD false then s.seqRecord q cSeqLate else q))
    else (s, .wait { q with holdT := some t.toNat })) s
/-- The barrier object that a control instruction names, or the cause of R240. -/
def State.seqBo (s : State) (q : Sequencer) (f : FS) : Except Nat (Nat × Bo) :=
  let a := q.addr f.br.toNat f.boff.toNat
  match s.block q.owner with
  | none => .error cSeqAddress
  | some k =>
    match boCause a k.localSize with
    | some c => .error c
    | none => if (k.bo a).v then .ok (a, k.bo a) else .error cBoInvalid
/-- SQBOARV (R290). -/
def execSqboarv (f : FS) (s : State) : Out :=
  seqIssue (fun s c _ q =>
    match s.seqBo q f with
    | .error e => (s, .stop e)
    | .ok (a, o) =>
      match (if f.smod.getLsbD 0 then o.expect (16 * f.doff.toNat) true else o.arrive) with
      | .error e => (s, .stop e)
      | .ok _ => (s.actLater c q.owner (if f.smod.getLsbD 0 then .expect a (16 * f.doff.toNat) else .arrive a), .advance q)) s
/-- SQBOWAIT (R290). -/
def execSqbowait (f : FS) (s : State) : Out :=
  seqIssue (fun s c _ q =>
    let n := f.mf 0 3
    match s.seqBo q f with
    | .error e => (s, .stop e)
    | .ok (a, o) =>
      if o.ph != q.t.getLsbD n then (s, .advance { q with t := if o.ph then q.t ||| (1#8 <<< n) else q.t &&& ~~~(1#8 <<< n) })
      else (s, .wait { q with bowait := some (a, n), waitFrom := (s.quad c).cyc })) s

/-! ### Engine commands (R289) -/

/-- A sequencer's engine command: it runs on the sequencer's own core, for its owner (R289; spec/11_copy.md R305; spec/12_matrix.md
R332). -/
def seqCommand (f : FS) (kind : EngKind) (accept : Bool → State → EngOp → State) (s : State) : Out :=
  seqIssue (fun s c k q =>
    match s.block q.owner with
    | none => (s, .hold)
    | some b =>
      let d := q.addr f.ar.toNat f.doff.toNat
      let bo := q.addr f.br.toNat f.boff.toNat
      if (kind.unit == 0) != (k == .copy) || (kind.unit == 1 && s.dieMap.isGd c.die) then (s, .stop cIllegalInstruction)
      else if d % 16 != 0 || b.outside d 32 || bo % 16 != 0 || b.outside bo 16 then (s, .stop cSeqAddress)
      else if s.engFull c kind then (s, .hold)
      else
        let o : EngOp :=
          { id := s.nextId, kind := kind, core := c, ctx := b.ctx, blk := b.id, seq := some k, bo := bo,
            desc := (List.range 8).map fun i => mread b.lmem (d + 4 * i) 4, md := f.mf 0 14, cyc := (s.quad c).cyc,
            view := s.viewOf b.core }
        (accept true { s with nextId := s.nextId + 1 } o, .advance q)) s

/-- SEQ_CPY (R289). -/
def execSeqCpy (f : FS) (s : State) : Out := seqCommand f .cpy acceptCopy s
/-- SEQ_CPYG (R289). -/
def execSeqCpyg (f : FS) (s : State) : Out := seqCommand f .cpyg acceptCopy s
/-- SEQ_CPYS (R289). -/
def execSeqCpys (f : FS) (s : State) : Out := seqCommand f .cpys acceptCopy s
/-- SEQ_CPYFILL (R289). -/
def execSeqCpyfill (f : FS) (s : State) : Out := seqCommand f .cpyfill acceptCopy s
/-- SEQ_CTLOAD (R289). -/
def execSeqCtload (f : FS) (s : State) : Out := seqCommand f .ctload acceptCopy s
/-- SEQ_DECENT (R289). -/
def execSeqDecent (f : FS) (s : State) : Out := seqCommand f .decent acceptCopy s
/-- SEQ_DECBR (R289). -/
def execSeqDecbr (f : FS) (s : State) : Out := seqCommand f .decbr acceptCopy s
/-- SEQ_MRESV (R289). -/
def execSeqMresv (f : FS) (s : State) : Out := seqCommand f .mresv acceptMat s
/-- SEQ_MRELS (R289). -/
def execSeqMrels (f : FS) (s : State) : Out := seqCommand f .mrels acceptMat s
/-- SEQ_MLOAD (R289). -/
def execSeqMload (f : FS) (s : State) : Out := seqCommand f .mload acceptMat s
/-- SEQ_MCBL (R289). -/
def execSeqMcbl (f : FS) (s : State) : Out := seqCommand f .mcbl acceptMat s
/-- SEQ_MMA (R289). -/
def execSeqMma (f : FS) (s : State) : Out := seqCommand f .mma acceptMat s
/-- SEQ_MMAI (R289). -/
def execSeqMmai (f : FS) (s : State) : Out := seqCommand f .mmai acceptMat s
/-- SEQ_MZERO (R289). -/
def execSeqMzero (f : FS) (s : State) : Out := seqCommand f .mzero acceptMat s
/-- SEQ_MSTORE (R289). -/
def execSeqMstore (f : FS) (s : State) : Out := seqCommand f .mstore acceptMat s
/-- SEQ_MSTAT (R289). -/
def execSeqMstat (f : FS) (s : State) : Out := seqCommand f .mstat acceptMat s
/-- SEQ_MCHK (R289). -/
def execSeqMchk (f : FS) (s : State) : Out := seqCommand f .mchk acceptMat s

/-! ### FORK and RDV -/

/-- A named program is the entry of a kernel that the sequencer may run (R291). -/
def State.programOk (s : State) (k : Block) (kind : SeqKind) (entry : DWord) : Bool :=
  match s.launch k.launch with
  | some l => l.kernels.any fun x => x.entry == entry && (x.ktype == 3 || x.ktype == (if kind == .copy then 1 else 2))
  | none => false
/-- The sequencers that a FORK starts: core, owner; none for a wrong target (R291). -/
def State.forkTargets (s : State) (k : Block) (f : FX) : Option (List (CoreRef × Nat)) :=
  let c := k.core
  let p := CoreRef.partner c
  match s.dieMap.target c f with
  | none => none
  | some t =>
    if t == c && !f.md.getLsbD 0 then some [(c, k.id)]
    else if t == c && s.pairLive c then ((s.core p).res.map fun r => [(c, k.id), (p, r.blk)])
    else if t == p && !f.md.getLsbD 0 && s.isShading c && s.pairLive c then some [(p, k.id)] else none
/-- Load a sequencer from its start record (R288, R291); in a fixed-timing context it issues, and SCYC is 0, 8 cycles later (R294). -/
def State.startSeq (s : State) (c : CoreRef) (kind : SeqKind) (owner : Nat) (entry : DWord) (rec_ pbo fork : Nat) : State :=
  match s.block owner with
  | none => s
  | some b =>
    let w := fun i => mread b.lmem (rec_ + 8 * i) 8
    let part := fun (first n width : Nat) => (List.range n).map fun i => bits (w (first + i * width / 64)) (i * width % 64 + width - 1) (i * width % 64)
    let from_ := (s.quad c).cyc + 8
    s.setSq c kind
      { running := true, owner := owner, pc := entry, hdr := entry, fork := fork, due := if s.blockFixed b then some from_ else none
        a := (part 0 8 32).map (BitVec.ofNat 32), st := (part 4 8 16).map (BitVec.ofNat 16), n := (part 6 4 32).map (BitVec.ofNat 32)
        c := List.replicate 4 0, scyc0 := if s.blockFixed b then from_ else (s.quad c).cyc, pbo := BitVec.ofNat 32 pbo }
/-- The cause that refuses a FORK (R291). -/
def Env.forkBad (e : Env) (s : State) (f : FX) (progs : List (SeqKind × DWord × Nat)) (tg : Option (List (CoreRef × Nat))) : Nat :=
  if e.rN f.a 6 != 0 || e.rN f.a 7 != 0 || progs.isEmpty || !(progs.all fun p => s.programOk e.k p.1 p.2.1) then cForkRecord
  else
    match tg with
    | none => cSeqTarget
    | some ts =>
      if ts.any fun t => progs.any fun p => p.2.2 % 16 != 0 || ((s.block t.2).map fun b => b.outside p.2.2 64).getD true then cSeqStart
      else if ts.any fun t => progs.any fun p => !(s.sq t.1 p.1).isIdle then cSeqBusy else 0
/-- FORK (R291). -/
def execFork (f : FX) (s : State) : Out :=
  issue (.fork f) f.pred f.pneg none (fun e s =>
    let bo := (e.r f.b).toNat
    match boCause bo e.k.localSize with
    | some c => (s, some (memTrap c false 0 (regionPtr 1 bo)))
    | none =>
      let progs := [((.copy : SeqKind), e.rN64 f.a 0, (e.rN f.a 4).toNat), (.matrix, e.rN64 f.a 2, (e.rN f.a 5).toNat)].filter fun p => p.2.1 != 0
      let tg := s.forkTargets e.k f
      let bad := e.forkBad s f progs tg
      if bad != 0 then
        let n := progs.length * (if f.md.getLsbD 0 then 2 else 1)
        ((List.range n).foldl (fun s _ => s.deliver e.k.id bo 0 true true 5 bad (e.textWord s).toNat) s, none)
      else
        let id := s.nextId
        let s := (tg.getD []).foldl (fun s t => progs.foldl (fun s p => s.startSeq t.1 p.1 t.2 p.2.1 p.2.2 bo id) s) s
        ({ s with nextId := id + 1 }, none)) s
/-- RDV (R293). -/
def execRdv (f : FX) (s : State) : Out :=
  issue (.rdv f) f.pred f.pneg none (fun e s =>
    let c := e.k.core
    match s.dieMap.target c f with
    | none => (s, some (.trap cSeqTarget 0 0 false false))
    | some t =>
      if t != c && !(s.isShading c && t == CoreRef.partner c) then (s, some (.trap cSeqTarget 0 0 false false))
      else if s.rdvDone t (f.md.getLsbD 0) (f.md.getLsbD 1) (f.md.getLsbD 2) then (s, none)
      else (e.block s (.rdv t.die t.num (f.md.getLsbD 0) (f.md.getLsbD 1) (f.md.getLsbD 2)), none)) s

/-! ### Fetching a sequencer's clause -/

/-- A sequencer may issue. -/
def State.seqMayIssue (s : State) (c : CoreRef) (q : Sequencer) : Bool :=
  match s.block q.owner with
  | some k => s.mayRun k && (s.core c).drain < 2
  | none => false
/-- A sequencer fetches the clause at its PC (spec/04_encoding.md R105-R107, R122 steps 1 to 3); STALL adds its cycles (R294). -/
def State.seqFetch (s : State) (c : CoreRef) (kind : SeqKind) (q : Sequencer) : State :=
  match s.block q.owner with
  | none => s
  | some k =>
    let reloc := ((s.launch k.launch).map (·.reloc)).getD []
    match s.fetchWord k.core k.ctx reloc q.pc with
    | (none, s) => s.rotate
    | (some (.error e), s) => s.endProgram c kind q e
    | (some (.ok hw), s) =>
      if !isHeader hw then s.endProgram c kind q cIllegalClause
      else
        match s.fetchWords k.core k.ctx reloc (q.pc + 8) (bits hw.toNat 56 53 + 1) with
        | (none, s) => s.rotate
        | (some (.error e), s) => s.endProgram c kind q e
        | (some (.ok ws), s) =>
          match decodeHeader hw with
          | none => s.endProgram c kind q cIllegalClause
          | some h =>
            if h.cls != .seq then s.endProgram c kind q cIllegalClause
            else if h.fixed && !s.blockFixed k then s.endProgram c kind q cFixedInElastic
            else
            let s := if q.due.isNone then s.reachCyc (s.quadKeyOf c) ((s.quad c).cyc + h.stall) else s
            (s.setSq c kind { q with hdr := q.pc, head := some h, words := ws, idx := 0, due := q.due.map (· + h.stall) }).rotate
/-- An opcode of class SEQ that the other kind of sequencer alone may run (spec/04_encoding.md R130). -/
def wrongSeq (k : SeqKind) (op : Nat) : Bool :=
  match k with
  | .copy => 0x50 ≤ op && op ≤ 0x59
  | .matrix => 0x40 ≤ op && op ≤ 0x46
/-- Steps 4 and 5 of R122 on the word at which a sequencer of a kind stands. -/
def Sequencer.instr (q : Sequencer) (kind : SeqKind) : Except Nat Instr :=
  match lget q.words q.idx with
  | none => .error cIllegalClause
  | some w =>
    if wrongSeq kind (w.extractLsb' 56 8).toNat then .error cIllegalInstruction else
    match decodeWord .seq w with
    | .error .unassigned => .error cIllegalInstruction
    | .error .illegalEncoding => .error cIllegalEncoding
    | .ok i => if i.mustBeLast && !((q.head.map fun h => decide (h.count ≤ q.idx)).getD true) then .error cIllegalEncoding else .ok i

/-! ### Expiries -/

/-- SQWAITC_EXPIRY (R290). -/
def execSqwaitcExpiry (core : CoreRef) (kind : SeqKind) (s : State) : Out :=
  let q := s.sq core kind
  match (if q.running && (s.core core).drain < 2 then q.holdT else none) with
  | none => .next s
  | some t =>
    let n := (q.scyc0 + t).toNat
    let fixed := ((s.block q.owner).map fun k => s.blockFixed k).getD false
    .next ((s.reachCyc (s.quadKeyOf core) n).setSq core kind { q.advance with holdT := none, due := if fixed then some n else none })
/-- A wait that the wait-timeout bounds (spec/08_core_sync.md R248, R293). -/
def Wait.bounded : Wait → Bool
  | .jwait _ => false
  | .killf _ => false
  | _ => true
/-- The wait-timeout of a context in cycles. -/
def State.timeout (s : State) (ctx : Nat) : Option Nat :=
  let w := ((s.ctx ctx).map (·.wto)).getD 0
  if w == 63 then none else some (2 ^ (if w == 0 then 30 else w))
/-- WAIT_TIMEOUT (spec/08_core_sync.md R248). -/
def execWaitTimeout (w : Waiter) (s : State) : Out :=
  match w with
  | .thread blk tl =>
    match s.block blk with
    | none => .next s
    | some k =>
      let t := k.thread tl
      match (if k.saved then none else s.timeout k.ctx), t.status with
      | some n, .waiting x =>
        if x.bounded then
          .next ((s.reachCyc (s.quadKeyOf k.core) (t.waitFrom + (n - t.waitBase) + 1)).takeTrap blk tl
            ⟨cOrphanWait, 0, t.pc, t.pc, t.hdr, 0, false, false, true, t.pos⟩)
        else .next s
      | _, _ => .next s
  | .sequencer c kind =>
    let q := s.sq c kind
    match (s.block q.owner).bind fun k => s.timeout k.ctx with
    | some n => if q.running && q.bowait.isSome then
        .next ((s.reachCyc (s.quadKeyOf c) (q.waitFrom + n + 1).toNat).endProgram c kind q cOrphanWait) else .next s
    | none => .next s

/-! ### What follows at once -/

/-- A sequencer whose program has ended is idle when its operations have made their final deliveries (R292); one that runs and is not
blocked issues. -/
def State.settleSeq (s : State) (c : CoreRef) (kind : SeqKind) : State :=
  let q := s.sq c kind
  if q.draining && !(s.engs.any fun (o : EngOp) => o.core == c && o.seq == some kind && o.blk == q.owner && !o.saved) then s.setSq c kind { q with draining := false }
  else if q.running && q.bowait.isNone && q.holdT.isNone && !s.opens.contains (Open.seq c kind) then
    { s with opens := s.opens ++ [Open.seq c kind] }
  else s
def State.settleSeqs (s : State) : State :=
  (s.cores.map (·.1)).foldl (fun s k => (s.settleSeq (coreOfKey k) .copy).settleSeq (coreOfKey k) .matrix) s

end Sys2Proof.Machine
end

