-- ==== Sys2Proof/Machine/Dist.lean ====
section
/-! DEFINITION. The work distributor: LAUNCH, the checks of a launch, residency, placing blocks, pipelines, ends of blocks and launches
(spec/10_distributor.md R271-R286; spec/02_execution.md R49-R60; spec/13_geometry.md R353-R355; spec/22_host.md R522). -/

namespace Sys2Proof.Machine

def cLaunchRecord : Nat := 0x300
def cRectInvalid : Nat := 0x301
def cBlockTooLarge : Nat := 0x302
def cRoutingCheck : Nat := 0x303
def cBarrierScope : Nat := 0x304
def cImageRefused : Nat := 0x305
def cLeaseUnresolved : Nat := 0x306
def cDependenceFailed : Nat := 0x307
def cPriorityRange : Nat := 0x308
def cContextRecord : Nat := 0x309
def cLaunchCancelled : Nat := 0x30A
def cVcBind : Nat := 0x093
def cKeyOrder : Nat := 0x1EC

/-! ### Submission queues (R279, R282) -/

/-- The number after n: the counter wraps from 0xFFFF_FFEF to 0. -/
def nextSub (n : BitVec 32) : BitVec 32 := if n == 0xFFFFFFEF then 0 else n + 1
def State.queue (s : State) (ctx q : Nat) : SubQueue := ((s.ctx ctx).bind fun c => tget c.queues q).getD {}
def State.setQueue (s : State) (ctx q : Nat) (v : SubQueue) : State := s.modCtx ctx fun c => { c with queues := tput c.queues q v }
/-- Accept a submission: its number. -/
def State.submit (s : State) (ctx q : Nat) (mk : Nat → BitVec 32 → Submission) : BitVec 32 × State :=
  let v := s.queue ctx q
  (v.next, ({ s with nextId := s.nextId + 1 }).setQueue ctx q { v with next := nextSub v.next, entries := v.entries ++ [mk s.nextId v.next], ended := tdel v.ended v.next.toNat })
/-- A record of n bytes read by checks 1 to 7, which may cross a page. -/
def Env.readSpan (e : Env) (s : State) (p : DWord) (n : Nat) : Except Stop (List Byte) × State :=
  let first := 4096 - p.toNat % 4096
  if n ≤ first then e.readRecord s p n 1
  else
    match e.readRecord s p first 1 with
    | (.error st, s) => (.error st, s)
    | (.ok a, s) =>
      match e.readRecord s (p + BitVec.ofNat 64 first) (n - first) 1 with
      | (.error st, s) => (.error st, s)
      | (.ok b, s) => (.ok (a ++ b), s)
/-- Queue a thread's submission, or the value that says why not (R282). -/
def Env.submit (e : Env) (s : State) (q : Nat) (rec_ : List Byte) (patch : Option (List Byte)) (addr : DWord) : BitVec 32 × State :=
  if 64 ≤ q then (0xFFFFFFFE, s)
  else if 256 ≤ (s.queue e.k.ctx q).entries.length then (0xFFFFFFFF, s)
  else s.submit e.k.ctx q fun i n => ⟨i, n, leVal rec_, patch, patch.isSome, true, addr, false⟩
/-- LAUNCH (R282). -/
def execLaunch (f : FA) (s : State) : Out :=
  issue (.launch f) f.pred f.pneg (some f.sbs.toNat) (fun e s =>
    let a := e.r64 f.a
    match e.readSpan s a 128 with
    | (.error st, s) => (s, some st)
    | (.ok rec_, s) =>
      let n := bits (leVal rec_) (64 * 14 + 63) (64 * 14 + 48)
      let go := fun (s : State) (patch : Option (List Byte)) =>
        let r := e.submit (s.irrevocable e.k.id) (e.opB f).toNat rec_ patch a
        (e.addOp r.2 f.sbs [f.d.toNat] (some [r.1]) none false .none, none)
      if f.md.getLsbD 0 then
        if n == 0 then go s (some [])
        else
          match e.readSpan s (e.r64 f.c) n with
          | (.error st, s) => (s, some st)
          | (.ok patch, s) => go s (some patch)
      else go s none) s

/-! ### Launch records (R276, R280) -/

/-- A launch record's 128 bytes as a number. -/
structure LRec where
  v : Nat
  deriving DecidableEq, Repr
def LRec.w (r : LRec) (i : Nat) : Nat := bits r.v (64 * i + 63) (64 * i)
def LRec.kind (r : LRec) : Nat := bits (r.w 0) 63 62
def LRec.coop (r : LRec) : Bool := bit (r.w 0) 61
def LRec.mesh (r : LRec) : Bool := bit (r.w 0) 60
def LRec.prio (r : LRec) : Nat := bits (r.w 0) 59 53
def LRec.row0 (r : LRec) : Nat := bits (r.w 0) 47 40
def LRec.col0 (r : LRec) : Nat := bits (r.w 0) 39 32
def LRec.rows (r : LRec) : Nat := bits (r.w 0) 31 24
def LRec.cols (r : LRec) : Nat := bits (r.w 0) 23 16
def LRec.prof (r : LRec) : Nat := bits (r.w 0) 15 12
def LRec.argn (r : LRec) : Nat := bits (r.w 0) 11 8
def LRec.image (r : LRec) : Nat := r.w 1
def LRec.kidx (r : LRec) : Nat := bits (r.w 2) 63 32
def LRec.hidx (r : LRec) : Option Nat := if bits (r.w 2) 31 16 == 0xFFFF then none else some (bits (r.w 2) 31 16)
def LRec.nblk (r : LRec) : Nat := bits (r.w 3) 63 32
def LRec.podgrp (r : LRec) : Nat := bits (r.w 3) 31 0
def LRec.cbank (r : LRec) : Nat := r.w 4
def LRec.cbsize (r : LRec) : Nat := bits (r.w 5) 63 32
def LRec.arg (r : LRec) (i : Nat) : Nat := bits r.v (64 * 6 + 32 * i + 31) (64 * 6 + 32 * i)
def LRec.pslot (r : LRec) : Nat := r.w 13
def LRec.pbytes (r : LRec) : Nat := bits (r.w 14) 63 48
def LRec.pipe (r : LRec) : Bool := r.nblk == 0

/-- The directory entries of an image, if its header and directory can be read. -/
def State.dirEntries (s : State) (ctx img : Nat) : Option (List DirEnt) :=
  (s.vwords ctx img 8).bind fun hw =>
    let h : ImgHdr := ⟨hw⟩
    if h.bad1 || !s.vreadable ctx (img + h.dirOff) (64 * h.kcount) then none
    else some ((List.range h.kcount).map fun i => ⟨(s.vwords ctx (img + h.dirOff + 64 * i) 8).getD []⟩)
/-- The directory indexes of a pipeline's stages from KIDX on (spec/13_geometry.md R353). -/
def stageIndexes (ds : List DirEnt) (kidx : Nat) : Nat → Nat → List Nat
  | 0, _ => []
  | n + 1, stage =>
    match ((ds.zipIdx.filter fun p => kidx < p.2 && p.1.stage == stage).map (·.2)).head? with
    | some i => i :: stageIndexes ds kidx n (stage + 1)
    | none => []
/-- A pipeline that R353 refuses. -/
def pipeBad (r : LRec) (ds : List DirEnt) : Bool :=
  let st := stageIndexes ds r.kidx 9 2
  let nq := fun i => ((lget ds i).map (·.nque)).getD 0
  r.argn == 0 || r.arg 0 == 0 || 65536 < r.arg 0 || nq r.kidx != 0 || st.any (fun i => nq i != 1) || 8 < st.length + 1 || r.coop
/-- First record word at fault (check 1 of R280). -/
def launchBad (sub : Submission) (r : LRec) (ds : Option (List DirEnt)) : Option Nat :=
  let rsv11 := fun w => bits w 56 32 != 0
  let ent := fun (i : Nat) => ds.bind fun l => lget l i
  let out := fun (i : Nat) => match ds with
    | some l => l.length ≤ i || ((ent i).map (·.ktype)).getD 0 != 0
    | none => false
  let stage := ((ent r.kidx).map (·.stage)).getD (if r.pipe then 1 else 0)
  let bad : List Bool := [
    sub.recAddr.toNat % 128 != 0 || 2 ≤ r.kind || bits (r.w 0) 52 48 != 0 || bits (r.w 0) 7 0 != 0 || r.rows == 0 || r.cols == 0 || (3 < r.prof && r.prof != 0xF) || 8 < r.argn ||
      (sub.byThread && (r.kind == 1) != sub.replay) ||
      (r.pipe && stage == 1 && (match ds with
        | some l => pipeBad r l
        | none => false)),
    false,
    bits (r.w 2) 15 0 != 0 || out r.kidx || (match r.hidx with
      | some i => out i
      | none => false),
    (stage == 1) != r.pipe,
    r.cbank % 256 != 0,
    r.cbsize < 256 || 65536 < r.cbsize || r.cbsize % 256 != 0 || bits (r.w 5) 31 0 != 0,
    false, false, false, false,
    r.w 10 % 64 != 0,
    rsv11 (r.w 11), rsv11 (r.w 12),
    r.kind == 0 && r.w 13 != 0,
    bits (r.w 14) 47 0 != 0 || (if r.kind == 0 then r.pbytes != 0 else r.pbytes < 16 || 256 < r.pbytes || r.pbytes % 16 != 0),
    sub.badPatch || (if r.kind == 0 || sub.byThread then r.w 15 != 0 else r.w 15 == 0 || r.w 15 % 16 != 0)]
  (bad.zipIdx.find? (·.1)).map (·.2)

/-- What a dependence says (R279). -/
inductive Dep where
  | ok
  | wait
  | fail
  deriving DecidableEq, Repr
/-- Submission n of a queue lies among the last 2^31 numbers issued: numbers run modulo 0xFFFF_FFF0. -/
def recentSub (next n : Nat) : Bool :=
  let d := (next + 0xFFFFFFF0 - n) % 0xFFFFFFF0
  n < 0xFFFFFFF0 && 1 ≤ d && d ≤ 2 ^ 31
def State.dep (s : State) (ctx w : Nat) : Dep :=
  if !bit w 57 then .ok else
    let q := s.queue ctx (bits w 63 58)
    let n := bits w 31 0
    if !recentSub q.next.toNat n then .fail
    else
      match tget q.ended n with
      | some st => if st == 0 then .ok else .fail
      | none =>
        if q.entries.any (fun e => e.num.toNat == n) ||
            s.launches.any (fun (l : Launch) => l.ctx == ctx && l.queue == bits w 63 58 && l.sub == n) then .wait else .fail

/-! ### What a core can hold (spec/02_execution.md R29, R50) -/

/-- Threads, bytes of core SRAM and of register reservation of a block of a kernel. -/
def Kernel.threads (k : Kernel) : Nat := k.nx * k.ny * k.nz
def regUse (regs threads : Nat) : Nat := 32 * ((threads + 31) / 32) * (8 * ((regs + 7) / 8)) * 4
def Kernel.sram (k : Kernel) : Nat := sramUse k.localSize k.privSize k.threads
def Kernel.regBytes (k : Kernel) : Nat := regUse k.regs k.threads
def Block.regBytes (k : Block) : Nat := regUse k.regsN k.nthreads
/-- n blocks of a kernel fit an empty core. -/
def Kernel.fitsEmpty (k : Kernel) (n : Nat) : Bool :=
  n * k.sram ≤ 448 * 1024 && n * k.regBytes ≤ 256 * 1024 && n ≤ 16 && n * k.threads ≤ 2048
/-- A use fits beside blocks that are there (R50). -/
def fitsBeside (bs : List Block) (sram regs threads : Nat) : Bool :=
  (bs.map Block.sram).sum + sram ≤ 448 * 1024 && (bs.map Block.regBytes).sum + regs ≤ 256 * 1024 && bs.length < 16 &&
    (bs.map Block.nthreads).sum + threads ≤ 2048
/-- A quad of a die is dark (spec/21_power.md R511) or stopped (R512). -/
def State.quadDown (s : State) (c : CoreRef) : Bool :=
  let q := s.dieMap.quad c
  bit (((tget s.power.dies c.die).map (·.dark.toNat)).getD 0) q || ((tget s.power.quads (s.quadKeyOf c)).map (·.stopped)).getD false
/-- Quad that a regulator feeds (spec/21_power.md R511). -/
def DieMap.regQuad (m : DieMap) (die r : Nat) : Nat := if m.isGd die then r / 8 / 2 * 4 + r % 8 / 2 else 6 * (r / 12) + r % 12 / 2
/-- The quad can hold the fixed-timing clock (R295). -/
def State.fixedAble (s : State) (c : CoreRef) : Bool :=
  !s.quadDown c && !(s.blocks.any fun k => k.evicted == some (s.quadKeyOf c)) && (List.range 48).all fun r =>
    !(bit (((tget s.power.dies c.die).map (·.regfail.toNat)).getD 0) r && s.dieMap.regQuad c.die r == s.dieMap.quad c)
/-- A core is present and not lost. -/
def State.coreUsable (s : State) (c : CoreRef) : Bool := s.dieMap.present c && !s.lostDies.contains c.die && !(s.core c).faulty
/-- The distributor may place work on a core; `samp`, `pair`: work that needs a sampler, or a partner (spec/02_execution.md R51). -/
def State.coreOpen (s : State) (c : CoreRef) (fixed samp pair : Bool) : Bool :=
  s.coreUsable c && !s.quadDown c && (s.core c).drain == 0 &&
    (!fixed || (s.fixedAble c && (s.quad c).pass == 0)) && (!samp || (s.dieMap.isSd c.die && bit (s.dieMap.word c.die 3) (s.dieMap.quad c))) &&
    (!pair || (s.dieMap.isSd c.die && s.coreUsable (CoreRef.partner c)))
/-- The present cores of a launch's rectangle. -/
def State.rectOf (s : State) (l : Launch) : List CoreRef := s.dieMap.rectCores l.mesh l.row0 l.col0 l.rows l.cols
def State.launchFixed (s : State) (l : Launch) : Bool := ((s.ctx l.ctx).map (·.fixed)).getD false
/-- A block of a kernel may be placed on a core now. -/
def State.fits (s : State) (l : Launch) (k : Kernel) (c : CoreRef) : Bool :=
  s.coreOpen c (s.launchFixed l) k.samp k.pair && fitsBeside (s.onCore c) k.sram k.regBytes k.threads

/-! ### Refusal and end of a launch -/

/-- Zero words 0 to 6 of the completion record (R277). -/
def State.clearCpl (s : State) (l : Launch) : State := s.vwrite l.ctx l.cplptr.toNat (List.replicate 56 0)
/-- Refuse a launch: COMPLETION_RECORD reports it. -/
def State.refuse (s : State) (l cause detail : Nat) : State :=
  s.modLaunch l fun x => { x with cause := cause, outState := 2, detail := detail, state := .ended }
/-- Every block of a launch that has started has ended, and none will start. -/
def State.launchOver (s : State) (l : Launch) : Bool :=
  !(s.blocks.any fun k => k.launch == l.id) &&
    (l.outState != 0 || (if l.stageK.isEmpty then decide (l.nblk ≤ l.placed)
      else decide (((lget l.args 0).map (·.toNat)).getD 0 ≤ l.placed) && l.stages.all fun q => q.2.all fun x => x.reserved.isNone && x.entry.isNone))
/-- A launch whose blocks have all ended writes back the dirty lines of its cores (R278). -/
def State.settleLaunch (s : State) (id : Nat) : State :=
  match s.launch id with
  | some l =>
    if l.state == .running && s.launchOver l then
      (s.modLaunch id fun x => { x with state := .flushing }).fence (.launchEnd id) (l.cores.map coreOfKey) fun _ _ => true
    else s
  | none => s
/-- COMPLETION_RECORD (R277): the outcome, and an add of 1 to word 7 as a releasing atomic at pod scope. -/
def execCompletionRecord (launch : Nat) (s : State) : Out :=
  match s.launch launch with
  | none => .next s
  | some l =>
    if l.state != .ended then .next s
    else
      let tw := (List.range 4).map fun i => (((lget l.tw i).map (·.toNat)).getD 0)
      let ws := [l.cause * 2 ^ 54 + l.outState * 2 ^ 52 + l.detail % 2 ^ 32] ++ tw ++ [s.clock.ns % 2 ^ 64, 0]
      let s := s.vwrite l.ctx l.cplptr.toNat (ws.map fun w => leBytes 8 w).flatten
      let s := match s.vtrans l.ctx (l.cplptr.toNat + 56) with
        | some pa => s.addDone pa
        | none => s
      let q := s.queue l.ctx l.queue
      let s := s.setQueue l.ctx l.queue { q with ended := tput q.ended l.sub l.outState }
      .next { s with launches := s.launches.filter fun (x : Launch) => x.id != launch }

/-! ### Residency (R281; spec/22_host.md R522) -/

/-- A page of a range is not resident: an access to it would raise PTE_INVALID. A malformed entry counts as resident, and an access
raises PTE_RESERVED (DEDUCED, notes/assumptions/9.md). -/
def State.missing (s : State) (ctx base size : Nat) : Bool :=
  size != 0 && (List.range ((base + size - 1) / 4096 + 1 - base / 4096)).any fun i =>
    match s.ctx ctx with
    | none => true
    | some c => match walkFrom s.mem ctx ((base / 4096 + i) * 4096 % 2 ^ 56) 4 c.ptroot with
      | .bad c => c == cPteInvalid
      | .ok e => s.paCause (e.frame * 4096) == some cPteInvalid
/-- Write the records that wait for a ring entry and may have one (R522). -/
def State.writeRes (s : State) (ctx : Nat) : List ResRec → State
  | [] => s
  | r :: rest =>
    match s.ctx ctx with
    | none => s
    | some c =>
      if r.n.isSome then s.writeRes ctx rest
      else if c.resRecs.any fun x => x.n == some (c.resNext - 128) && 128 ≤ c.resNext then s
      else
        let n := c.resNext
        let a := c.rring + 32 * (n % 128)
        let s := s.modCtx ctx fun c => { c with
          resNext := n + 1
          resRecs := c.resRecs.map fun (x : ResRec) => if x == r then { x with n := some n } else x }
        let s := s.agentWrite a (leBytes 8 r.base ++ leBytes 8 r.size ++
          leBytes 8 (r.queue * 2 ^ 58 + ctx * 2 ^ 48 + r.lidx * 2 ^ 32 + r.sub) ++ leBytes 8 (n % (2 ^ 32 - 1) + 1)) true
        (s.signal 2).writeRes ctx rest
/-- A residency request for a range; one for a range that is already pending is not written again (R522). -/
def State.requestRes (s : State) (ctx : Nat) (r : ResRec) : State :=
  if (((s.ctx ctx).map (·.resRecs)).getD []).any fun x => x.base == r.base && x.size == r.size then s
  else
    let s := s.modCtx ctx fun c => { c with resRecs := c.resRecs ++ [r] }
    s.writeRes ctx (((s.ctx ctx).map (·.resRecs)).getD [])
/-- Ask for a range: refused at once without a ring. -/
def State.askRes (s : State) (l : Launch) (base size lidx : Nat) : State :=
  match s.ctx l.ctx with
  | none => s.refuse l.id cLeaseUnresolved lidx
  | some c =>
    if c.rring == 0 then s.refuse l.id cLeaseUnresolved lidx
    else (s.modLaunch l.id fun x => { x with awaits := some (base, size) }).requestRes l.ctx ⟨none, base, size, l.queue, l.sub, lidx⟩
/-- The kernels a launch runs: its kernel, or the kernels of its stages. -/
def Launch.runs (l : Launch) : List Nat := if l.stageK.isEmpty then [l.kidx] else l.stageK
def Launch.kernelsRun (l : Launch) : List Kernel := l.runs.filterMap fun i => lget l.kernels i
/-- The first range of a launch that is not resident: base, size, entry index; 0xFFFF for the constant bank. -/
def State.firstMissing (s : State) (l : Launch) : Option (Nat × Nat × Nat) :=
  let ls := (l.kernelsRun.map fun k => k.leases.zipIdx.map fun p => (p.1.base, p.1.size, p.2)).flatten
  ((ls ++ [(l.cbank.toNat % 2 ^ 56, l.cbsize, 0xFFFF)]).find? fun x => s.missing l.ctx x.1 x.2.1)
/-- Bind the VCs of a launch's kernels (spec/18_cache.md R464): entry index of the first that cannot be bound. -/
def State.bindVcs (s : State) (l : Launch) : List (Nat × Nat × Nat) → Option Nat × State
  | [] => (none, s)
  | (idx, off, i) :: r =>
    match s.vwords l.ctx (l.data.toNat + off) 8 with
    | none => (some i, s)
    | some ws =>
      let w0 := BitVec.ofNat 64 ((lget ws 0).getD 0)
      let w1 := BitVec.ofNat 64 ((lget ws 1).getD 0)
      let v := s.vcEntry l.ctx idx
      if s.dieMap.cdrBad ws then (some i, s)
      else if v.v then (if v.w0 == w0 && v.w1 == w1 then s.bindVcs l r else (some i, s))
      else
        let q := s.vcDefine l.ctx idx w0 w1
        if q.1 == 0 then q.2.bindVcs l r else (some i, s)
/-- The entries to bind: index, offset of the CDR, entry index. -/
def Launch.bindings (l : Launch) : List (Nat × Nat × Nat) :=
  (l.kernelsRun.map fun k => k.vcbs.zipIdx.map fun p => (p.1.1, p.1.2.toNat, p.2)).flatten

/-! ### The start of a launch -/

/-- A 32-bit word of the constant bank as a launch sees it: a replay's patch first (R286). -/
def State.bankWord (s : State) (l : Launch) (off : Nat) : Nat :=
  let va := if l.pslot.isSome && off < l.patch.length then l.pslotVa.toNat + off else l.cbank.toNat + off
  match s.vtrans l.ctx va with
  | some pa => mread s.mem pa 4
  | none => 0
/-- A frame cause is recorded if it is the first (spec/14_narrows.md R392). -/
def Frame.record (f : Frame) (cause : Nat) : Frame := if f.cause == 0 then { f with cause := cause } else f
def State.modFrame (s : State) (ctx : Nat) (g : Frame → Frame) : State := s.modCtx ctx fun c => { c with frame := c.frame.map g }
/-- A graphics pipeline starts (spec/14_narrows.md R378): its DRAW must exceed those started before it in the frame. -/
def State.startDraw (s : State) (l : Launch) : State :=
  if !l.mesh || l.stageK.isEmpty then s else
    let d := bits (s.bankWord l 0xD4) 15 0
    match (s.ctx l.ctx).bind (·.frame) with
    | some f =>
      let bad := match f.draw with
        | some x => decide (d ≤ x)
        | none => false
      let s := s.modLaunch l.id fun x => { x with draw := some d, badDraw := bad }
      s.modFrame l.ctx fun f => if bad then f.record cKeyOrder else { f with draw := some d }
    | none => s.modLaunch l.id fun x => { x with draw := some d }
/-- An earlier launch of the queue has not started, or an earlier replay of the object has not ended (R279, R286). -/
def State.mustWait (s : State) (l : Launch) : Bool :=
  let obj := l.pslotVa - BitVec.ofNat 64 (l.pslot.getD 0 * l.patch.length)
  (s.launches.any fun (x : Launch) => decide (x.seq < l.seq) && x.ctx == l.ctx &&
    ((x.queue == l.queue && x.state == .resident) ||
     (l.pslot.isSome && x.pslot.isSome && x.state != .ended && x.pslotVa - BitVec.ofNat 64 (x.pslot.getD 0 * x.patch.length) == obj))) ||
  (l.pslot.isSome && (((s.ctx l.ctx).map (·.queues)).getD []).any fun q => q.2.entries.any fun e =>
    decide (e.seq < l.seq) && LRec.kind ⟨e.record⟩ == 1 && LRec.pslot ⟨e.record⟩ == obj.toNat)
/-- The first record word that check 1 of R280 faults, for an entry of a queue of a context. -/
def State.recordBad (s : State) (ctx : Nat) (e : Submission) : Option Nat :=
  launchBad e ⟨e.record⟩ (s.dirEntries ctx (LRec.image ⟨e.record⟩))
/-- The dependences of a record. -/
def State.depOf (s : State) (ctx : Nat) (r : LRec) : Dep :=
  let a := s.dep ctx (r.w 11)
  let b := s.dep ctx (r.w 12)
  if a == .fail || b == .fail then .fail else if a == .wait || b == .wait then .wait else .ok
/-- Parameter slots of a pipeline object that live replays hold (R286). -/
def State.slotsHeld (s : State) (ctx base n : Nat) : List Nat :=
  s.launches.filterMap fun (x : Launch) =>
    if x.ctx == ctx then x.pslot.filter fun i => x.pslotVa.toNat == base + i * n && x.patch.length == n else none
/-- The head of a queue can be taken now: it fails check 1 or 2, or its dependences are resolved and, for a replay, a slot is free. -/
def State.headReady (s : State) (ctx q : Nat) : Option (Nat × Nat) :=
  match (s.queue ctx q).entries with
  | [] => none
  | e :: _ =>
    let r : LRec := ⟨e.record⟩
    let refused := (s.recordBad ctx e).isSome || ((s.ctx ctx).map (·.priomax)).getD 0 < r.prio
    if !refused && (s.depOf ctx r == .wait || (r.kind == 1 && 2 ≤ (s.slotsHeld ctx r.pslot r.pbytes).length)) then none
    else some (r.prio, e.seq)
/-- A launch that waited could start now. -/
def State.canStart (s : State) (l : Launch) : Bool :=
  l.state == .resident && l.awaits.isNone && !s.mustWait l && (s.firstMissing l).isNone
/-- Priority and order of submission of everything of the package that could start now: heads of queues, and launches that waited. -/
def State.contenders (s : State) : List (Nat × Nat) :=
  (s.ctxs.map fun c => c.2.queues.filterMap fun x => s.headReady c.1 x.1).flatten ++
    (s.launches.filter fun l => s.canStart l).map fun l => (l.prio.toNat, l.seq)
/-- The highest PRIO goes first, then the older submission (R279). -/
def State.goesFirst (s : State) (p n : Nat) : Bool := s.contenders.all fun x => x.1 < p || (x.1 == p && n ≤ x.2)
/-- The translations of the pages of a range, one for each leaf. -/
def State.rangePins (s : State) (ctx base size : Nat) : List TlbEntry :=
  match s.ctx ctx with
  | none => []
  | some x => (List.range ((base + size + 4095) / 4096 - base / 4096)).foldl (fun l i =>
      let vpn := base / 4096 + i
      if l.any fun e => (e.at ctx vpn).isSome then l
      else match s.walk x ctx (vpn * 4096) with
        | .ok e => e :: l
        | .bad _ => l) []
/-- The pages of a launch's leases, and of those the loader makes for its image and its constant bank, are pinned and their translations
loaded on its dies (R281; spec/07_core_memory.md R216). -/
def State.pinLeases (s : State) (l : Launch) : State :=
  let ls := ((l.kernelsRun.map (·.leases)).flatten.map fun x => (x.base, x.size)) ++
    [(l.image.toNat % 2 ^ 56, l.imgSize), (l.cbank.toNat % 2 ^ 56, l.cbsize)]
  let ps := (ls.map fun x => s.rangePins l.ctx x.1 x.2).flatten
  let s := s.modLaunch l.id fun x => { x with pins := ps }
  (nub ((s.rectOf l).map (·.die))).foldl (fun s d => { s with tlb2 := tput s.tlb2 d ((ps ++ s.dieTlb d).take 131072) }) s
/-- A core that the check of the launch's routing tables found usable is so no longer (spec/02_execution.md R54). -/
def State.routeLost (s : State) (l : Launch) : Bool := l.routes.any fun k => !s.coreUsable (coreOfKey k)
/-- The lease step and the start of a launch whose checks are made (R281; spec/18_cache.md R464; spec/02_execution.md R54). -/
def State.startLaunch (s : State) (l : Launch) : State :=
  if l.state != .resident || l.awaits.isSome then s
  else
    match s.firstMissing l with
    | some (b, n, i) => s.askRes l b n i
    | none =>
      if s.mustWait l || !s.goesFirst l.prio.toNat l.seq then s
      else if s.routeLost l then s.refuse l.id cRoutingCheck 0
      else
        match s.bindVcs l l.bindings with
        | (some i, s) => s.refuse l.id cVcBind i
        | (none, s) =>
          let n := l.stageK.length
          let cores := s.rectOf l
          let s := s.modLaunch l.id fun x => { x with
            state := .running
            started := s.clock.ns
            coreStage := if n == 0 then [] else cores.zipIdx.foldl (fun t p => tput t (coreKey p.1) (p.2 % n + 1)) []
            stages := if n == 0 then [] else (l.stageK.zipIdx.filter fun p => p.2 != 0).map fun p =>
              (p.2 + 1, List.replicate ((((lget l.kernels p.1).map (·.queues)).getD []).map (·.1)).sum ({} : StageSlot)) }
          (s.pinLeases l).startDraw l

/-! ### LAUNCH_HEAD (R280) -/

/-- A kernel holds a barrier at a scope that its launch does not allow (spec/02_execution.md R53). -/
def barBad (coop pod : Bool) (v : KView) : Bool :=
  let bad := fun (f : FM) => 2 ≤ f.scope.toNat && (!coop || (f.scope == 5 && !pod))
  v.cs.any fun c => c.instrs.any fun i => match i with
    | .bar f => bad f
    | .bararv f => bad f
    | .barwait f => bad f
    | _ => false
/-- Checks 5 to 8 of R280 for a loaded image: the cause, or 0. -/
def State.placeCause (s : State) (r : LRec) (ld : Loaded) (stages : List Nat) : Nat :=
  let m := s.dieMap
  let runs := if r.pipe then stages else [r.kidx]
  let ks := runs.filterMap fun i => lget ld.kernels i
  let cores := m.rectCores r.mesh r.row0 r.col0 r.rows r.cols
  let n := cores.length
  let most := (r.nblk + n - 1) / n
  if m.rectBad r.mesh r.row0 r.col0 r.rows r.cols then cRectInvalid
  else if (runs ++ r.hidx.toList).any fun i => ((lget ld.views i).map (barBad r.coop (r.podgrp != 0))).getD false then cBarrierScope
  else if ks.any fun k => !k.fitsEmpty 1 then cBlockTooLarge
  else if r.coop && ks.any fun k => !k.fitsEmpty most then cBlockTooLarge
  else if (r.podgrp != 0 && !(s.fab.pbgtab.any fun w => bit w.toNat 0 && bits w.toNat 63 32 == r.podgrp)) || (r.pipe && n < stages.length) then
    cRoutingCheck
  else 0
/-- No other head of the package goes before it: highest PRIO, then the older submission (R279). -/
def State.headFirst (s : State) (ctx q : Nat) : Bool :=
  match s.headReady ctx q with
  | none => false
  | some (p, n) => s.goesFirst p n
/-- A launch as its record gives it. -/
def mkLaunch (id ctx q : Nat) (e : Submission) (r : LRec) (prot : Bool) : Launch :=
  { id := id, ctx := ctx, queue := q, sub := e.num.toNat, coop := r.coop, mesh := r.mesh, prio := BitVec.ofNat 7 r.prio, row0 := r.row0, col0 := r.col0,
    rows := r.rows, cols := r.cols, profile := if r.prof == 0xF then 0 else r.prof, nblk := r.nblk, podgrp := BitVec.ofNat 32 r.podgrp,
    cbank := BitVec.ofNat 64 r.cbank, cbsize := r.cbsize, args := (List.range r.argn).map fun i => BitVec.ofNat 32 (r.arg i),
    cplptr := BitVec.ofNat 64 (r.w 10), image := BitVec.ofNat 64 r.image, text := 0, textWords := 0, data := 0, kernels := [], kidx := r.kidx,
    handler := r.hidx, prot := prot, state := .resident, seq := e.seq, record := e.recAddr }
/-- Take the head of a queue through its checks. -/
def State.takeHead (s : State) (ctx q : Nat) (e : Submission) (prot : Bool) (priomax : Nat) : State :=
  let r : LRec := ⟨e.record⟩
  let id := s.nextId
  let v := s.queue ctx q
  let l := mkLaunch id ctx q e r prot
  let s := (({ s with nextId := id + 1, launches := s.launches ++ [l] }).setQueue ctx q { v with entries := v.entries.drop 1 }).clearCpl l
  let ds := s.dirEntries ctx r.image
  match s.recordBad ctx e with
  | some i => s.refuse id cLaunchRecord i
  | none =>
    if priomax < r.prio then s.refuse id cPriorityRange 0
    else if s.depOf ctx r == .fail then s.refuse id cDependenceFailed 0
    else
      let stages := if r.pipe then r.kidx :: stageIndexes (ds.getD []) r.kidx 8 2 else []
      match s.load ctx r.image (r.mesh, r.row0, r.col0, r.rows, r.cols) r.hidx (if r.pipe then stages else [r.kidx]) with
      | .error c => s.refuse id cImageRefused c
      | .ok ld =>
        let c := s.placeCause r ld stages
        if c != 0 then s.refuse id c 0
        else
          let kp := ((lget ld.kernels r.kidx).map (·.fpprof)).getD 0xF
          let slot := if r.kind == 1 then ((List.range 2).filter fun i => !(s.slotsHeld ctx r.pslot r.pbytes).contains i).head? else none
          let va := r.pslot + slot.getD 0 * r.pbytes
          let patch := (e.patch.getD []).take r.pbytes
          let s := s.modLaunch id fun x => { x with
            profile := if r.prof != 0xF then r.prof else if kp == 0xF then 0 else kp
            text := ld.text, textWords := ld.textWords, data := ld.data, imgSize := ld.size, kernels := ld.kernels, reloc := ld.reloc, stageK := stages
            routes := ((s.dieMap.rectCores r.mesh r.row0 r.col0 r.rows r.cols).filter fun c => s.coreUsable c).map coreKey
            pslot := slot, pslotVa := BitVec.ofNat 64 va, patch := if r.kind == 1 then patch else [] }
          let first := 4096 - va % 4096
          let s := if r.kind == 1 then (s.vwrite ctx va (patch.take first)).vwrite ctx (va + first) (patch.drop first) else s
          match s.launch id with
          | some x => s.startLaunch x
          | none => s
/-- LAUNCH_HEAD (R280): launches of the queue that wait go on if they can, and the head is taken if it goes before every other. -/
def execLaunchHead (ctx queue : Nat) (s : State) : Out :=
  let s := (s.launches.filter fun (l : Launch) => l.ctx == ctx && l.queue == queue).foldl (fun s l => s.startLaunch l) s
  match s.ctx ctx, (s.queue ctx queue).entries with
  | some c, e :: _ =>
    if s.headFirst ctx queue then .next (s.takeHead ctx queue e (queue < 16 && bit c.pqmask.toNat queue) c.priomax) else .next s
  | _, _ => .next s

/-! ### Placing blocks (R55, R56; spec/13_geometry.md R354, R355) -/

/-- Where a block comes from. -/
structure Start where
  kernel : Nat
  num : Nat
  nblk : Nat
  stage : Nat := 0
  root : Nat := 0
  inSlot : Option Nat := none
  deriving DecidableEq, Repr
/-- The threads of a block at its start: argument words in g0 and up (R276). -/
def startThreads (l : Launch) (k : Kernel) (n : Nat) : List Thread :=
  let regs : Tbl RegCell := l.args.zipIdx.map fun p => (p.2, ⟨p.1, none⟩)
  List.replicate n { regs := regs, pc := k.entry, hdr := k.entry, lprio := l.prio }
/-- The quad gets a block: it wakes, its claim bit is set, and a fixed-timing block asks for the pinned clock (R295, R300). -/
def Quad.dispatch (q : Quad) (fixed : Bool) : Quad :=
  { q with
    gated := false
    claim := true
    clock := if fixed then (match q.clock with
      | .elastic => .toPinned
      | .toElastic => .pinned
      | c => c) else q.clock }
/-- What every start of a block on a core does: the acquire at core scope (spec/13_geometry.md R360) takes a pusher on another die. -/
def State.dispatch (s : State) (l : Launch) (c : CoreRef) : State :=
  let key := s.quadKeyOf c
  let s := s.setQuad key ((s.quadAt key).dispatch (s.launchFixed l))
  (s.modLaunch l.id fun x => { x with cores := sins x.cores (coreKey c) }).acquireInval c (!l.stageK.isEmpty) false
/-- Start one block. -/
def State.startBlock (s : State) (l : Launch) (st : Start) (c : CoreRef) : State :=
  match lget l.kernels st.kernel with
  | none => s
  | some k =>
    let id := s.nextId
    let outQ := tget l.stages (st.stage + 1)
    let free := outQ.bind fun q => (q.zipIdx.find? fun p => p.1.reserved.isNone && p.1.entry.isNone).map (·.2)
    let b : Block :=
      { id := id, ctx := l.ctx, launch := l.id, num := st.num, core := c, kernel := st.kernel, nx := k.nx, ny := k.ny, nz := k.nz, regsN := k.regs,
        localSize := k.localSize, privSize := k.privSize, threads := startThreads l k k.threads,
        kregs := (List.range 64).map fun i => BitVec.ofNat 32 (s.bankWord l (4 * i)), placedAt := s.clock.ns,
        stage := st.stage, root := st.root, nblk := st.nblk, inSlot := st.inSlot, outSlot := free }
    let s := { s with nextId := id + 1, blocks := s.blocks ++ [b] }
    let s := s.modLaunch l.id fun x => { x with
      stages := x.stages.map fun (q : Nat × List StageSlot) =>
        (q.1, q.2.zipIdx.map fun (p : StageSlot × Nat) =>
          let a := if q.1 == st.stage + 1 && free == some p.2 then { p.1 with reserved := some id } else p.1
          if q.1 == st.stage && st.inSlot == some p.2 then { a with started := a.started + 1 } else a)
      placed := if st.stage ≤ 1 then x.placed + 1 else x.placed }
    s.dispatch l c
/-- A stage may start a block: it has no output queue, or a slot of it is free (R355). -/
def Launch.outFree (l : Launch) (stage : Nat) : Bool :=
  match tget l.stages (stage + 1) with
  | some q => q.any fun x => x.reserved.isNone && x.entry.isNone
  | none => true
/-- The next block of a stage. -/
def Launch.nextOf (l : Launch) (stage : Nat) : Option Start :=
  let total := ((lget l.args 0).map (·.toNat)).getD 0
  match lget l.stageK (stage - 1) with
  | none => none
  | some k =>
    if !l.outFree stage then none
    else if stage == 1 then (if l.placed < total then some { kernel := k, num := l.placed, nblk := total, stage := 1, root := l.placed } else none)
    else
      let open_ := ((tget l.stages stage).getD []).zipIdx.filter fun p => match p.1.entry with
        | some e => p.1.started < e.1
        | none => false
      let oldest := (open_.map fun p => p.1.landed).min?
      match open_.find? fun p => some p.1.landed == oldest with
      | some (x, i) => x.entry.map fun e => { kernel := k, num := x.started, nblk := e.1, stage := stage, root := e.2.1, inSlot := some i }
      | none => none
/-- Every choice of a block and a core that the distributor has. -/
def State.choices (s : State) (l : Launch) : List (Start × CoreRef) :=
  let cores := s.rectOf l
  if l.stageK.isEmpty then
    if l.placed < l.nblk then
      match lget l.kernels l.kidx with
      | some k => (cores.filter fun c => s.fits l k c).map fun c => (({ kernel := l.kidx, num := l.placed, nblk := l.nblk } : Start), c)
      | none => []
    else []
  else
    ((List.range l.stageK.length).map fun i =>
      match l.nextOf (i + 1), (lget l.stageK i).bind fun x => lget l.kernels x with
      | some st, some k => (cores.filter fun c => tget l.coreStage (coreKey c) == some (i + 1) && (tget l.coreNext (coreKey c)).isNone && s.fits l k c).map fun c => (st, c)
      | _, _ => []).flatten
/-- A cooperative launch's blocks with their cores (R55). -/
def coopPlan (l : Launch) (cores : List CoreRef) : List (Start × CoreRef) :=
  (List.range l.nblk).filterMap fun b => (lget cores (b % cores.length)).map fun c => (({ kernel := l.kidx, num := b, nblk := l.nblk } : Start), c)
/-- The rectangle can hold all blocks of a cooperative launch now. -/
def State.coopFits (s : State) (l : Launch) (k : Kernel) (plan : List (Start × CoreRef)) : Bool :=
  (nub (plan.map (·.2))).all fun c =>
    let n := (plan.filter fun p => p.2 == c).length
    let bs := s.onCore c
    s.coreOpen c (s.launchFixed l) k.samp k.pair && (bs.map Block.sram).sum + n * k.sram ≤ 448 * 1024 &&
      (bs.map Block.regBytes).sum + n * k.regBytes ≤ 256 * 1024 && bs.length + n ≤ 16 && (bs.map Block.nthreads).sum + n * k.threads ≤ 2048
/-- BLOCK_PLACE (R55, R56): all blocks of a cooperative launch, or one block on one core that a free choice picks. -/
def State.placeBlock (s : State) (l : Launch) : State :=
  if l.state != .running || l.outState != 0 then s
  else if l.placed == 0 && s.routeLost l then s.refuse l.id cRoutingCheck 0
  else if l.coop then
    match lget l.kernels l.kidx with
    | some k =>
      let plan := coopPlan l (s.rectOf l)
      if l.placed == 0 && s.coopFits l k plan then
        plan.foldl (fun s p => match s.launch l.id with
          | some x => s.startBlock x p.1 p.2
          | none => s) s
      else s
    | none => s
  else
    let cs := s.choices l
    match lget cs (s.freeVal.toNat % cs.length) with
    | some p => s.useFree.startBlock l p.1 p.2
    | none => s
/-- BLOCK_PLACE (R55). -/
def execBlockPlace (launch : Nat) (s : State) : Out :=
  match s.launch launch with
  | some l => .next (s.placeBlock l)
  | none => .next s

/-! ### The end of a block (R278, R355; spec/12_matrix.md R326; spec/14_narrows.md R386) -/

/-- Every condition of R278 holds. -/
def State.blockOver (s : State) (k : Block) : Bool :=
  let q := fun (x : Sequencer) => (x.running || x.draining) && x.owner == k.id
  k.threads.all (fun t => !t.alive) && k.seqs.isEmpty && !(s.later.any fun (x : Later) => x.blk == k.id) && !(s.engs.any fun (o : EngOp) => o.blk == k.id) && !(s.fronts.any fun (r : MdReq) => r.blk == k.id) &&
    !(s.pushes.any fun (p : PendPush) => p.blk == k.id) && !(s.cores.any fun c => q c.2.cseq || q c.2.mseq)
/-- Its slot of the output queue, unless it holds a published entry, and its part of its input entry are given back. -/
def endSlots (k : Block) (l : Launch) : Launch :=
  { l with stages := l.stages.map fun (q : Nat × List StageSlot) => (q.1, q.2.zipIdx.map fun (p : StageSlot × Nat) =>
      if q.1 == k.stage + 1 && p.1.reserved == some k.id then {}
      else if q.1 == k.stage && k.inSlot == some p.2 then
        (match p.1.entry with
          | some e => if e.1 ≤ p.1.done + 1 then {} else { p.1 with done := p.1.done + 1 }
          | none => p.1)
      else p.1) }
/-- The distributor changes clocks back after the last fixed-timing block of a quad, and drops its claim when the quad is empty. -/
def State.quadAfter (s : State) (key : Nat) : State :=
  let here := s.blocks.filter fun k => !k.saved && !k.relaunch && s.quadKeyOf k.core == key
  let q := s.quadAt key
  let q := if here.isEmpty then { q with claim := false } else q
  let q := if here.any fun k => s.blockFixed k then q else match q.clock with
    | .pinned => { q with clock := .toElastic }
    | .toPinned => { q with clock := .elastic }
    | _ => q
  if q == s.quadAt key then s else s.setQuad key q
/-- Remove a block that is over. -/
def State.endBlock (s : State) (k : Block) : State :=
  let s := match k.region with
    | some r => s.fence (.region k.id 0 r) [k.core] fun _ _ => true
    | none => s
  let s := { s with
    blocks := s.blocks.filter fun (x : Block) => x.id != k.id
    rgnReqs := s.rgnReqs.filter fun (r : RgnReq) => r.blk != k.id
    bars := s.bars.filter fun (v : BarInst) => !(v.scope == 1 && v.inst == k.id)
    cores := tmap (fun (c : Core) => { c with res := c.res.filter fun (r : MatRes) => r.blk != k.id }) s.cores }
  (s.modLaunch k.launch (endSlots k)).quadAfter (s.quadKeyOf k.core)
/-- Blocks that are over end; cores change stage (spec/02_execution.md R59); launches that are over end. -/
def State.settleEnds (s : State) : State :=
  let s := (s.blocks.filter fun k => s.blockOver k).foldl (fun s k => s.endBlock k) s
  let s := { s with launches := s.launches.map fun (l : Launch) =>
    if l.coreNext.isEmpty then l else
      let go := l.coreNext.filter fun (p : Nat × Nat) => !(s.blocks.any fun k => k.launch == l.id && coreKey k.core == p.1 && !k.saved && !k.relaunch)
      { l with
        coreStage := go.foldl (fun t (p : Nat × Nat) => tput t p.1 p.2) l.coreStage
        coreNext := l.coreNext.filter fun (p : Nat × Nat) => !go.contains p } }
  (s.launches.map (·.id)).foldl (fun s i => s.settleLaunch i) s

/-! ### PIPELINE_EVALUATION (R285) -/

/-- Occupancy of a stage as a fraction. -/
def Launch.occupancy (l : Launch) (stage : Nat) : Nat × Nat :=
  if !l.outFree stage then (0, 1)
  else if stage == 1 then (1, 2)
  else
    let q := (tget l.stages stage).getD []
    ((q.filter fun x => x.entry.isSome).length, q.length)
/-- a < b as fractions. -/
def fracLt (a b : Nat × Nat) : Bool := decide (a.1 * b.2 < b.1 * a.2)
/-- The best of some stages: the first that no other beats. -/
def bestStage (occ : Nat → Nat × Nat) (better : Nat × Nat → Nat × Nat → Bool) (l : List Nat) : Option Nat :=
  l.find? fun a => l.all fun b => !better (occ b) (occ a)
/-- One evaluation: at most one core changes stage. -/
def State.evaluate (s : State) (l : Launch) : State :=
  let ss := (List.range l.stageK.length).map (· + 1)
  let occ := l.occupancy
  let high := ss.filter fun y => !fracLt (occ y) (3, 4)
  let cores := fun x => (s.rectOf l).filter fun c => tget l.coreStage (coreKey c) == some x && (tget l.coreNext (coreKey c)).isNone
  let canGo := fun x y => ((cores x).find? fun c => match (lget l.stageK (y - 1)).bind fun i => lget l.kernels i with
    | some k => s.coreOpen c (s.launchFixed l) k.samp k.pair && fitsBeside ((s.onCore c).filter fun b => b.launch != l.id) k.sram k.regBytes k.threads
    | none => false)
  let ok := fun x y => x != y && !fracLt (1, 4) (occ x) && 2 ≤ (cores x).length && (canGo x y).isSome
  let ys := high.filter fun y => l.prevHigh.contains y && ss.any fun x => ok x y
  let s1 := s.modLaunch l.id fun v => { v with prevHigh := high }
  match bestStage occ (fun a b => fracLt b a) ys with
  | none => s1
  | some y =>
    match bestStage occ fracLt (ss.filter fun x => ok x y) with
    | none => s1
    | some x => match canGo x y with
      | some c => s1.modLaunch l.id fun v => { v with coreNext := tput v.coreNext (coreKey c) y }
      | none => s1
/-- PIPELINE_EVALUATION (R285). -/
def execPipelineEvaluation (launch : Nat) (s : State) : Out :=
  match s.launch launch with
  | some l => if l.stageK.isEmpty || l.state != .running then .next s else .next (s.evaluate l)
  | none => .next s

/-! ### Clocks and gating of a quad (R295, R300) -/

/-- The cores of a quad. -/
def DieMap.quadCores (m : DieMap) (die q : Nat) : List CoreRef :=
  ((List.range (m.rows die * m.cols die)).map fun n => (⟨die, n⟩ : CoreRef)).filter fun c => m.quad c == q
/-- A clause of a group is issuing on a quad. -/
def State.quadIssuing (s : State) (key : Nat) : Bool :=
  s.opens.any fun (o : Open) => match o with
    | .grp g => match s.block g.blk with
      | some k => s.quadKeyOf k.core == key
      | none => false
    | .seq _ _ => false
/-- FIXED_CLOCK_CHANGE (R295). -/
def execFixedClockChange (die quad : Nat) (s : State) : Out :=
  let key := quadKey die quad
  let q := s.quadAt key
  if s.quadIssuing key then .next s
  else match q.clock with
    | .toPinned => .next (s.setQuad key { q with clock := .pinned })
    | .toElastic => .next (s.setQuad key { q with clock := .elastic })
    | _ => .next s
/-- QUAD_GATE (R300): the commit point reads the claim bit. -/
def execQuadGate (die quad : Nat) (s : State) : Out :=
  let key := quadKey die quad
  let q := s.quadAt key
  if q.claim || s.quadIssuing key || s.blocks.any fun k => !k.saved && !k.relaunch && s.quadKeyOf k.core == key then .next s
  else .next (s.setQuad key { q with gated := true })

end Sys2Proof.Machine
end

