-- ==== Sys2Proof/Machine/Geometry.lean ====
section
/-! DEFINITION. The geometry engine: payload hand-off, mesh output, and the front end that clips, projects, bins and packs triangles
(spec/13_geometry.md R351-R373). -/

namespace Sys2Proof.Machine

def cGeoStage : Nat := 0x1C0
def cPayNoQueue : Nat := 0x1C1
def cPayRepeat : Nat := 0x1C2
def cPayCount : Nat := 0x1C3
def cGeoCount : Nat := 0x1C4
def cGeoIndex : Nat := 0x1C5
def cGeoSequence : Nat := 0x1C6
def cGsrInvalid : Nat := 0x1C7

/-! ### Payload hand-off (R358, R359) -/

/-- Slot bytes of the input queue of a stage (spec/10_distributor.md R275). -/
def Launch.slotBytes (l : Launch) (stage : Nat) : Option Nat :=
  if stage < 2 then none else ((lget l.stageK (stage - 1)).bind fun i => lget l.kernels i).bind fun k => (lget k.queues 0).map (·.2)
/-- Address checks of a local range of n bytes (R358). -/
def payCause (a n size : Nat) : Option Nat :=
  if a % 16 != 0 then some cMisaligned else if size ≤ a + n - 1 then some cBounds else none
/-- A plain trap. -/
def plainTrap (c : Nat) : Option Stop := some (.trap c 0 0 false false)
/-- PAYPUSH for one lane: the checks, the commit and the write-backs of PHASE.pkg; PAYPUSH_LANDING publishes the entry. -/
def Env.payPush (e : Env) (s : State) (f : FA) : LaneOut :=
  match if e.k.stage == 0 then none else (s.launch e.k.launch).bind fun l => l.slotBytes (e.k.stage + 1) with
  | none => (s, plainTrap cPayNoQueue)
  | some sb =>
    let a := (e.r f.a).toNat
    let n := (e.opB f).toNat
    match payCause a sb e.k.localSize with
    | some c => (s, some (memTrap c false 0 (regionPtr 1 a)))
    | none =>
      if 1024 < n then (s, plainTrap cPayCount)
      else if ((s.block e.k.id).map (·.pushed)) == some true then (s, plainTrap cPayRepeat)
      else
        match s.commitBlock e.k.id with
        | (s, false) => (s, some .hold)
        | (s, true) =>
          let op := s.nextId
          let s := (e.addOp s f.sbs [f.d.toNat] none none false .none).modBlock e.k.id fun k => { k with pushed := true, nonRollback := true }
          let s := s.fence (.paypush e.k.id) [e.k.core] (fun _ _ => true) (s.older e.k.id e.tl)
          ({ s with pushes := s.pushes ++ [(⟨e.k.id, e.tl, op, a, n, false⟩ : PendPush)] }, none)
/-- PAYPUSH (R358). -/
def execPaypush (f : FA) (s : State) : Out :=
  issueCommit (.paypush f) f.pred f.pneg (some f.sbs.toNat) (fun e s => e.payPush s f) s
/-- The slot a block of a later stage was started from. -/
def State.inEntry (s : State) (k : Block) : Option (Nat × List Byte) :=
  match k.inSlot, s.launch k.launch with
  | some i, some l => (((tget l.stages k.stage).bind fun q => lget q i).bind (·.entry)).map fun x => (i, x.2.2)
  | _, _ => none
/-- PAYPOP (R359). -/
def execPaypop (f : FA) (s : State) : Out :=
  issue (.paypop f) f.pred f.pneg (some f.sbs.toNat) (fun e s =>
    match s.inEntry e.k with
    | none => (s, plainTrap cPayNoQueue)
    | some (i, bs) =>
      let a := (e.r f.a).toNat
      match payCause a bs.length e.k.localSize with
      | some c => (s, some (memTrap c true 0 (regionPtr 1 a)))
      | none => (e.addOp (s.lstore e.k.id a bs) f.sbs [f.d.toNat] (some [BitVec.ofNat 32 i]) none false .none, none)) s
/-- Give the slot operation of a thread its value. -/
def State.landOn (s : State) (b tl op : Nat) (v : List Word) : State :=
  s.modThread b tl fun t => { t with ops := t.ops.map fun (o : SlotOp) => if o.id == op then { o with val := some v } else o }
/-- Publish an entry in a block's reserved slot; an entry of no blocks frees it (R355). -/
def publishSlot (k : Block) (n order : Nat) (bs : List Byte) (l : Launch) : Launch :=
  { l with stages := l.stages.map fun (q : Nat × List StageSlot) => (q.1, q.2.map fun (x : StageSlot) =>
      if q.1 == k.stage + 1 && x.reserved == some k.id then
        (if n == 0 then {} else { entry := some (n, k.root, bs), landed := order }) else x) }
/-- PAYPUSH_LANDING (R358): the write-backs have been acknowledged; the payload is copied and the entry published. -/
def execPaypushLanding (blk : Nat) (s : State) : Out :=
  match s.pushes.find? fun p => p.blk == blk && p.ready, s.block blk with
  | some p, some k =>
    match (s.launch k.launch).bind fun l => l.slotBytes (k.stage + 1) with
    | none => .next s
    | some sb =>
      let s := { s with pushes := s.pushes.filter fun (x : PendPush) => x.blk != blk, nextId := s.nextId + 1 }
      let s := s.modLaunch k.launch (publishSlot k p.n (s.nextId - 1) (mbytes k.lmem p.addr sb))
      .next (s.landOn blk p.tl p.op [BitVec.ofNat 32 (k.outSlot.getD 0)])
  | _, _ => .next s

/-! ### Mesh output (R361-R365) -/

/-- The four instructions are legal in the block (R361). -/
def State.meshLegal (s : State) (k : Block) : Bool :=
  s.dieMap.isGd k.core.die && (match s.launch k.launch with
    | some l => l.mesh && !l.stageK.isEmpty && l.stageK.length ≤ 2 && k.stage == l.stageK.length
    | none => false)
/-- A lane of a mesh instruction: the block as it stands. -/
def Env.mesh (e : Env) (s : State) (act : State → Block → LaneOut) : LaneOut :=
  if !s.meshLegal e.k then (s, plainTrap cGeoStage) else act s ((s.block e.k.id).getD e.k)
/-- Stride of a vertex (R362). -/
def Block.vstride (k : Block) : Nat := 16 + 4 * k.aw
def Block.vertexAt (k : Block) (v : Nat) : Nat := k.out.toNat + k.vstride * v
def Block.primAt (k : Block) (p : Nat) : Nat := k.out.toNat + k.vstride * k.nv + 4 * p
/-- MCOUNT (R362). -/
def execMcount (f : FA) (s : State) : Out :=
  issue (.mcount f) f.pred f.pneg none (fun e s => e.mesh s fun s k =>
    let nv := (e.r f.a).toNat
    let np := (e.opB f).toNat
    let o := e.r f.c
    let aw := f.md.toNat % 32
    if k.ms == 2 then (s, plainTrap cGeoSequence)
    else if 256 < nv || 256 < np then (s, plainTrap cGeoCount)
    else if o.toNat % 16 != 0 then (s, some (memTrap cMisaligned true 0 (regionPtr 1 o.toNat)))
    else if k.localSize < o.toNat + (16 + 4 * aw) * nv + 4 * np then (s, some (memTrap cBounds true 0 (regionPtr 1 o.toNat)))
    else if k.ms == 0 then (s.modBlock k.id fun k => { k with nv := nv, np := np, aw := aw, out := o, ms := 1 }, none)
    else if nv == k.nv && np == k.np && aw == k.aw && o == k.out then (s, none)
    else (s, plainTrap cGeoCount)) s
/-- MVERT (R363). -/
def execMvert (f : FA) (s : State) : Out :=
  issue (.mvert f) f.pred f.pneg none (fun e s => e.mesh s fun s k =>
    let v := (e.r f.a).toNat
    let part := f.md.toNat % 8
    let ws := fun (n : Nat) => ((List.range n).map fun i => leBytes 4 (e.rN f.b i).toNat).flatten
    let j0 := 4 * (part - 1)
    if k.ms != 1 then (s, plainTrap cGeoSequence)
    else if k.nv ≤ v || (part != 0 && k.aw ≤ j0) then (s, plainTrap cGeoIndex)
    else if part == 0 then (s.lstore k.id (k.vertexAt v) (ws 4), none)
    else (s.lstore k.id (k.vertexAt v + 16 + 4 * j0) (ws (min 4 (k.aw - j0))), none)) s
/-- Bits and indexes of a primitive word are well formed (R363). -/
def primOk (nv w : Nat) : Bool := bits w 31 25 == 0 && decide (w % 256 < nv) && decide (bits w 15 8 < nv) && decide (bits w 23 16 < nv)
/-- MPRIM (R363). -/
def execMprim (f : FA) (s : State) : Out :=
  issue (.mprim f) f.pred f.pneg none (fun e s => e.mesh s fun s k =>
    let p := (e.r f.a).toNat
    let w := (e.opB f).toNat
    if k.ms != 1 then (s, plainTrap cGeoSequence)
    else if k.np ≤ p || !primOk k.nv w then (s, plainTrap cGeoIndex)
    else (s.lstore k.id (k.primAt p) (leBytes 4 w), none)) s

/-- The geometry state record (R365). -/
structure Gsr where
  vpsx : Nat
  vpsy : Nat
  vpox : Nat
  vpoy : Nat
  w2 : Nat
  rest : List Nat
  deriving DecidableEq, Repr
/-- The record as k48 to k63 read. -/
def Block.gsr (k : Block) : Gsr :=
  let w := fun i => (k.kreg (48 + i)).toNat
  ⟨w 0, w 1, w 2, w 3, w 5 * 2 ^ 32 + w 4, (List.range 10).map fun i => w (6 + i)⟩
def Gsr.cull (g : Gsr) : Nat := bits g.w2 50 49
def Gsr.ccw (g : Gsr) : Bool := bit g.w2 48
def Gsr.draw (g : Gsr) : Nat := bits g.w2 47 32
def Gsr.height (g : Gsr) : Nat := bits g.w2 30 16
def Gsr.width (g : Gsr) : Nat := bits g.w2 14 0
/-- The record is invalid (R365). -/
def Gsr.bad (g : Gsr) : Bool :=
  let badScale := fun (v : Nat) => match fpDec fp32 v with
    | .fin n m e => m == 0 || (Fv.fin n m e).subnormal fp32
    | _ => true
  let badOffset := fun (v : Nat) => !(fpDec fp32 v).finite
  let badSize := fun (n : Nat) => n == 0 || 16384 < n
  bits g.w2 63 51 != 0 || bit g.w2 31 || bit g.w2 15 || g.rest.any (· != 0) || g.cull == 3 || badSize g.width || badSize g.height ||
    badScale g.vpsx || badScale g.vpsy || badOffset g.vpox || badOffset g.vpoy
/-- The front end of a die holds 64 requests (R352). -/
def State.frontFull (s : State) (die : Nat) : Bool := 64 ≤ (s.fronts.filter fun (r : MdReq) => r.die == die).length
/-- MDONE for one lane (R364). -/
def Env.mdone (e : Env) (s : State) (f : FA) : LaneOut :=
  e.mesh s fun s k =>
    if !(k.ms == 1 || k.mdHold == some e.tl) then (s, plainTrap cGeoSequence)
    else if k.gsr.bad then (s, plainTrap cGsrInvalid)
    else
      let op := s.nextId
      let s := (e.addOp s f.sbs [f.d.toNat] none none false .none).modBlock k.id fun k => { k with ms := 2, mdHold := none, nonRollback := true }
      ({ s with fronts := s.fronts ++ [(⟨e.k.core.die, k.id, e.tl, op⟩ : MdReq)] }, none)
/-- The thread of a group whose MDONE is to hold its issue (R352): the first that executes it in a block not yet done, or the one
that holds it already. -/
def State.mdHolder (s : State) (g : Group) (k : Block) (f : FA) : Option Nat :=
  let act := ((activeLanes k g f.pred f.pneg).filter fun p => (srcStop s k (.mdone f) p.2).isNone).map (·.2)
  if !s.meshLegal k || k.gsr.bad || !s.frontFull k.core.die || slotFull k (activeLanes k g f.pred f.pneg) (some f.sbs.toNat) then none
  else if k.ms == 1 then act.head?
  else k.mdHold.filter fun tl => act.contains tl
/-- MDONE (R364): while the front end holds 64 requests it holds its issue, and MS reads 2. -/
def execMdone (f : FA) (s : State) : Out :=
  match s.opens with
  | .grp g :: _ =>
    match (s.block g.blk).bind fun k => s.mdHolder g k f with
    | some tl => .next (s.modBlock g.blk fun k => { k with ms := 2, mdHold := some tl }).rotate
    | none => issue (.mdone f) f.pred f.pneg (some f.sbs.toNat) (fun e s => e.mdone s f) s
  | _ => .fault .noGroup

/-! ### Clipping (R366): a vertex is its index in the area, while it is one, and its words x, y, z, w, attributes -/

/-- A polygon vertex. -/
structure GVert where
  src : Option Nat
  ws : List Nat
  deriving DecidableEq, Repr
def GVert.c (v : GVert) (i : Nat) : Fv := fpDec fp32 ((lget v.ws i).getD 0)
/-- a * b + c, a + b and a / b in FP32, to nearest, no profile. -/
def gFma (a b c : Fv) : Nat := fmaBits fp32 0 .rn false a b c
def gAdd (a b : Fv) : Nat := addBits fp32 0 .rn a b
def fNeg (a : Fv) : Fv := a.setNeg (!a.neg)
/-- A quotient in FP32. -/
def gDiv (a b : Fv) : Nat :=
  match firstNan 0 fp32 [(fp32, a), (fp32, b)] with
  | some v => v
  | none => match a, b with
    | .inf _, .inf _ => fpQnan fp32
    | .inf n, _ => fpInf fp32 (n != b.neg)
    | _, .inf n => signBit fp32 (n != a.neg)
    | .fin n m e, .fin n2 m2 e2 =>
      if m2 == 0 then (if m == 0 then fpQnan fp32 else fpInf fp32 (n != n2))
      else if m == 0 then signBit fp32 (n != n2) else roundFp fp32 .rn false (n != n2) m m2 (e - e2)
    | _, _ => fpQnan fp32
/-- Clip-space coordinate of a screen column or row (R366). -/
def guardOf (s : Int) (off scale : Nat) : Nat :=
  match fpDec fp32 off, fpDec fp32 scale with
  | .fin n m e, .fin n2 m2 e2 =>
    let q := ((s : Rat) - (Fv.fin n m e).rat) / (Fv.fin n2 m2 e2).rat
    if q == 0 then 0 else ratBits q
  | _, _ => 0
/-- The two guard coordinates in ascending order. -/
def guards (size off scale : Nat) : Fv × Fv :=
  let a := fpDec fp32 (guardOf (-8192) off scale)
  let b := fpDec fp32 (guardOf (size + 8192) off scale)
  if fvLt b a then (b, a) else (a, b)
/-- The distances to the six planes, in order. -/
def Gsr.planes (g : Gsr) : List (GVert → Fv) :=
  let x := guards g.width g.vpox g.vpsx
  let y := guards g.height g.vpoy g.vpsy
  let d := fun (v : Nat) => fpDec fp32 v
  [fun v => v.c 2, fun v => d (gAdd (v.c 3) (fNeg (v.c 2))), fun v => d (gFma (fNeg x.1) (v.c 3) (v.c 0)),
   fun v => d (gFma x.2 (v.c 3) (fNeg (v.c 0))), fun v => d (gFma (fNeg y.1) (v.c 3) (v.c 1)), fun v => d (gFma y.2 (v.c 3) (fNeg (v.c 1)))]
def fPos (a : Fv) : Bool := fvLt (.fin false 0 0) a
def fNegative (a : Fv) : Bool := fvLt a (.fin false 0 0)
/-- t of R366: the quotient of the exact difference, for finite distances. -/
def cutAt (da db : Fv) : Fv :=
  if da.finite && db.finite then fpDec fp32 (ratBits (da.rat / (da.rat - db.rat)))
  else fpDec fp32 (gDiv da (fpDec fp32 (gAdd da (fNeg db))))
/-- The vertex where an edge meets a plane. -/
def cutEdge (a b : GVert) (t : Fv) : GVert :=
  ⟨none, (a.ws.zip b.ws).map fun p =>
    let x := fpDec fp32 p.1
    gFma t (fpDec fp32 (gAdd (fpDec fp32 p.2) (fNeg x))) x⟩
/-- One plane: walk the edges in order, closing edge included. -/
def clipPlane (d : GVert → Fv) (vs : List GVert) : List GVert :=
  ((vs.zip (vs.drop 1 ++ vs.take 1)).map fun p =>
    let da := d p.1
    let db := d p.2
    (if fNegative da || da.isNan then [] else [p.1]) ++
      (if (fPos da && fNegative db) || (fNegative da && fPos db) then [cutEdge p.1 p.2 (cutAt da db)] else [])).flatten
def clipAll (ps : List (GVert → Fv)) (vs : List GVert) : List GVert := ps.foldl (fun vs d => clipPlane d vs) vs

/-! ### Projection, culling, binning and packets (R367-R370) -/

/-- A projected vertex: its number within the request, screen position in 1/256 pixel, z/w, 1/w, attribute words. -/
structure SVert where
  id : Nat
  x : Int
  y : Int
  z : Nat
  rhw : Nat
  attr : List Nat
  deriving DecidableEq, Repr
/-- The integer nearest 256 times a value, ties to even; `free` where it is no number (notes/assumptions/3.md). -/
def snap (free : Int) (v : Nat) : Int :=
  match fpDec fp32 v with
  | .fin n m e => if n then -(roundInt .rn n m (e + 8) : Int) else (roundInt .rn n m (e + 8) : Int)
  | _ => free
/-- Project one vertex. -/
def Gsr.project (g : Gsr) (free : Int) (id : Nat) (v : GVert) : SVert :=
  let d := fun (v : Nat) => fpDec fp32 v
  let w := v.c 3
  { id := id
    x := snap free (gFma (d g.vpsx) (d (gDiv (v.c 0) w)) (d g.vpox))
    y := snap free (gFma (d g.vpsy) (d (gDiv (v.c 1) w)) (d g.vpoy))
    z := gDiv (v.c 2) w
    rhw := gDiv (.fin false 1 0) w
    attr := v.ws.drop 4 }
/-- A triangle to bin. -/
structure STri where
  v : List SVert
  back : Bool
  deriving DecidableEq, Repr
def minI (l : List Int) : Int := l.foldl min (l.headD 0)
def maxI (l : List Int) : Int := l.foldl max (l.headD 0)
/-- A projected triangle, unless it is culled. -/
def Gsr.tri (g : Gsr) (a b c : SVert) : Option STri :=
  let area := (b.x - a.x) * (c.y - a.y) - (c.x - a.x) * (b.y - a.y)
  let back := (decide (0 < area)) != g.ccw
  let xs := [a.x, b.x, c.x]
  let ys := [a.y, b.y, c.y]
  if area == 0 || (g.cull == 1 && back) || (g.cull == 2 && !back) then none
  else if maxI xs < 0 || 256 * (g.width : Int) ≤ minI xs || maxI ys < 0 || 256 * (g.height : Int) ≤ minI ys then none
  else some ⟨[a, b, c], back⟩
/-- Bytes of a block's local memory as one vertex of the area. -/
def Block.areaVert (k : Block) (i : Nat) : GVert :=
  ⟨some i, (List.range (4 + k.aw)).map fun j => mread k.lmem (k.vertexAt i + 4 * j) 4⟩
/-- The triangles of primitive p. A vertex of the area keeps its number; one made by clipping has a number of its own. -/
def Block.primTris (k : Block) (g : Gsr) (ps : List (GVert → Fv)) (free : Int) (p : Nat) : List STri :=
  let w := mread k.lmem (k.primAt p) 4
  if bit w 24 || !primOk k.nv w then [] else
    let vs := [k.areaVert (w % 256), k.areaVert (bits w 15 8), k.areaVert (bits w 23 16)]
    if vs.any fun v => (List.range 4).any fun i => !(v.c i).finite then [] else
      let poly := clipAll ps vs
      if poly.length < 3 || poly.any fun v => !fPos (v.c 3) then [] else
        let q := poly.zipIdx.map fun x => g.project free (x.1.src.getD (256 + 16 * p + x.2)) x.1
        match q with
        | a :: rest => (rest.zip (rest.drop 1)).filterMap fun x => g.tri a x.1 x.2
        | [] => []
/-- The regions a triangle is binned to, as ry * 512 + rx. -/
def Gsr.regionsOf (g : Gsr) (t : STri) : List Nat :=
  let range := fun (lo hi : Int) (n : Nat) =>
    let a := (max 0 (lo / 8192)).toNat
    let b := (min ((n : Int) - 1) (hi / 8192)).toNat
    (List.range (b + 1 - a)).map (· + a)
  let xs := range (minI (t.v.map (·.x))) (maxI (t.v.map (·.x))) ((g.width + 31) / 32)
  let ys := range (minI (t.v.map (·.y))) (maxI (t.v.map (·.y))) ((g.height + 31) / 32)
  (ys.map fun y => xs.map fun x => y * 512 + x).flatten
/-- One part of a packet while it grows: its vertices and its triangles. -/
abbrev GPart := List SVert × List STri
/-- Vertices of a part with those of a triangle added in order. -/
def addVerts (vs : List SVert) (t : STri) : List SVert :=
  t.v.foldl (fun l v => if l.any fun x => x.id == v.id then l else l ++ [v]) vs
/-- Parts, newest first, with a triangle added (R368). -/
def addTri (ps : List GPart) (t : STri) : List GPart :=
  match ps with
  | (vs, ts) :: r =>
    if ts.length < 256 && (addVerts vs t).length ≤ 256 then (addVerts vs t, ts ++ [t]) :: r else (addVerts [] t, [t]) :: (vs, ts) :: r
  | [] => [(addVerts [] t, [t])]
/-- The parts of a region, at most 16. -/
def partsOf (ts : List STri) : List GPart := ((ts.foldl addTri []).reverse).take 16
/-- The payload of a part (R370). -/
def payloadOf (rx ry aw : Nat) (p : GPart) : List Byte :=
  let vb := 112 + 32 * aw
  let low := fun (x : Int) => (x % (2 ^ 24 : Nat)).toNat
  let rec_ := fun (v : SVert) => low (v.x - 8192 * rx) + low (v.y - 8192 * ry) * 2 ^ 24 + v.z * 2 ^ 48 + v.rhw * 2 ^ 80 +
    ((v.attr.zipIdx.map fun a => a.1 * 2 ^ (112 + 32 * a.2))).sum
  let tri0 := (vb * p.1.length + 31) / 32 * 32
  let num := fun (v : SVert) => p.1.findIdx fun x => x.id == v.id
  let word := fun (t : STri) => ((t.v.zipIdx.map fun x => num x.1 * 2 ^ (8 * x.2)).sum) + boolBit t.back 24
  let total := ((p.1.zipIdx.map fun x => rec_ x.1 * 2 ^ (vb * x.2)).sum) + (p.2.zipIdx.map fun x => word x.1 * 2 ^ (tri0 + 32 * x.2)).sum
  leBytes (32 * ((tri0 + 32 * p.2.length + 255) / 256)) total
/-- The packets of one request in order of emission (R368, R369). -/
def Block.emitted (k : Block) (die : Nat) (free : Int) : List Packet :=
  let g := k.gsr
  let tris := ((List.range k.np).map fun p => k.primTris g g.planes free p).flatten
  let binned := tris.map fun t => (t, g.regionsOf t)
  let regs := binned.foldl (fun l b => b.2.foldl sins l) []
  (regs.map fun r =>
    let parts := partsOf ((binned.filter fun b => b.2.contains r).map (·.1))
    parts.zipIdx.map fun p =>
      { rgx := r % 512, rgy := r / 512, gdie := die, draw := BitVec.ofNat 16 g.draw, task := BitVec.ofNat 16 k.root,
        midx := if k.stage ≤ 1 then 0 else BitVec.ofNat 16 k.num, part := p.2, lastp := p.2 + 1 == parts.length,
        nvert := p.1.1.length, nprim := p.1.2.length, aw := k.aw, payload := payloadOf (r % 512) (r / 512) k.aw p.1 }).flatten

/-! ### Emission -/

/-- Flits of a packet, header included (R369). -/
def pktFlits (p : Packet) : Nat := 1 + p.payload.length / 32
/-- The header flit of a packet (R369). -/
def pktHeader (p : Packet) : BitVec 256 :=
  BitVec.ofNat 256 (p.rgx % 512 * 2 ^ 245 + p.rgy % 512 * 2 ^ 236 + p.gdie % 16 * 2 ^ 232 + p.draw.toNat * 2 ^ 216 + p.task.toNat * 2 ^ 200 +
    p.midx.toNat * 2 ^ 184 + p.part % 16 * 2 ^ 180 + boolBit p.lastp 179 + p.nvert % 512 * 2 ^ 170 + p.nprim % 512 * 2 ^ 161 +
    p.aw % 32 * 2 ^ 156 + pktFlits p % 1024 * 2 ^ 146)
/-- The flits of a packet as bytes, the header first (R369, R370). -/
def pktBytes (p : Packet) : List Byte := leBytes 32 (pktHeader p).toNat ++ p.payload
/-- The packet whose header flit and payload are these. -/
def pktOf (h : Nat) (payload : List Byte) : Packet :=
  { rgx := bits h 253 245, rgy := bits h 244 236, gdie := bits h 235 232, draw := BitVec.ofNat 16 (bits h 231 216),
    task := BitVec.ofNat 16 (bits h 215 200), midx := BitVec.ofNat 16 (bits h 199 184), part := bits h 183 180, lastp := bit h 179,
    nvert := bits h 178 170, nprim := bits h 169 161, aw := bits h 160 156, payload := payload }
/-- Grid columns and rows of a frame (spec/14_narrows.md R374). -/
def Frame.gx (f : Frame) : Nat := (f.rtw + 31) / 32
def Frame.gy (f : Frame) : Nat := (f.rth + 31) / 32
/-- The owner die of a region; none for a region outside the grid or without an owner (spec/14_narrows.md R375). -/
def Frame.owner (f : Frame) (rx ry : Nat) : Option Nat :=
  if f.gx ≤ rx || f.gy ≤ ry then none else (lget f.owners (ry * f.gx + rx)).filter (· != 0xFF)
/-- A packet of a context enters the Narrows: discarded without an open frame, or without an owner (spec/14_narrows.md R377, R382). -/
def State.emit (s : State) (ctx : Nat) (p : Packet) : State :=
  match (s.ctx ctx).bind (·.frame) with
  | none => s
  | some f =>
    match f.owner p.rgx p.rgy with
    | none => s.modFrame ctx fun f => { f with ndisc := min 0xFFFF (f.ndisc + 1) }
    | some o => { s with narrows := s.narrows ++ [(⟨ctx, p.gdie, o, .packet p⟩ : NMsg)] }
/-- FRONT_END_REQUEST (R366): the oldest request of a die; the packets of a pipeline that breaks the order of draws are discarded
(spec/14_narrows.md R378). -/
def execFrontEndRequest (die : Nat) (s : State) : Out :=
  match s.fronts.find? fun (r : MdReq) => r.die == die with
  | none => .next s
  | some r =>
    let rest := s.fronts.eraseP fun (x : MdReq) => x.die == die
    match s.block r.blk with
    | none => .next { s with fronts := rest }
    | some k =>
      let ps := k.emitted die (s.freeVal.extractLsb' 0 32).toInt
      let drop := match s.launch k.launch with
        | some l => l.badDraw
        | none => false
      let s := { s.useFree with fronts := rest }
      let s := if drop then s else ps.foldl (fun s p => s.emit k.ctx p) s
      .next (s.landOn r.blk r.tl r.op [BitVec.ofNat 32 (ps.length % 65536 * 65536 + (ps.map (·.nprim)).sum % 65536)])

end Sys2Proof.Machine
end

