-- ==== Sys2Proof/Machine/Narrows.lean ====
section
/-! DEFINITION. The Narrows: watermarks, release by order key, poison and timeouts, frame ends, and the region instructions
(spec/14_narrows.md R374-R392). -/

namespace Sys2Proof.Machine

def cRegionNotOwned : Nat := 0x1E0
def cRegionNotHeld : Nat := 0x1E1
def cRegionHeld : Nat := 0x1E2
def cRegionPoisoned : Nat := 0x1E3
def cVisHandle : Nat := 0x1E4
def cNoFrame : Nat := 0x1E5
def cRtPixel : Nat := 0x1E6
def cTokenTimeout : Nat := 0x1EA
def cFrameSpill : Nat := 0x1EB
def cFrameTimeout : Nat := 0x1ED

/-! ### Order keys and watermarks (R378, R379) -/

/-- The watermark flit of a geometry die (R380). -/
def wmFlit (gdie wm : Nat) : BitVec 256 := BitVec.ofNat 256 (2 ^ 254 + gdie % 16 * 2 ^ 232 + wm % 2 ^ 48 * 2 ^ 184)
/-- The first flit of a message: a packet's header, or the watermark flit (R369, R380). -/
def NMsg.header (m : NMsg) : BitVec 256 :=
  match m.flit with
  | .packet p => pktHeader p
  | .watermark w => wmFlit m.gdie w
/-- DRAW, TASK and MIDX as a key. -/
def keyOf (draw task midx : Nat) : Nat := draw * 2 ^ 32 + task * 2 ^ 16 + midx
def pktKey (p : Packet) : Nat := keyOf p.draw.toNat p.task.toNat p.midx.toNat
/-- The highest watermark. -/
def wmMax : Nat := 0xFFFFFFFFFFFF
/-- The keys of an open pipeline that count for geometry die g. -/
def State.openKeys (s : State) (l : Launch) (g : Nat) : List Nat :=
  let d := l.draw.getD 0
  let total := ((lget l.args 0).map (·.toNat)).getD 0
  let last := l.stageK.length
  let mine := s.blocks.filter fun (k : Block) => k.launch == l.id
  let mesh := (mine.filter fun k => k.stage == last && (k.core.die == g || k.saved || k.relaunch)).map fun k =>
    keyOf d k.root (if last ≤ 1 then 0 else k.num)
  let unplaced := if l.placed < total then [keyOf d l.placed 0] else []
  if last ≤ 1 then mesh ++ unplaced
  else
    let pushing := (mine.filter fun k => k.stage == 1 && ((tget l.stages 2).getD []).any fun x => x.reserved == some k.id).map fun k => keyOf d k.root 0
    let entries := (l.stages.map (·.2)).flatten.filterMap fun x => x.entry.bind fun e => if x.started < e.1 then some (keyOf d e.2.1 x.started) else none
    mesh ++ unplaced ++ pushing ++ entries
/-- The watermark of geometry die g in a context (R379). -/
def State.watermark (s : State) (ctx : Nat) (f : Frame) (g : Nat) : Nat :=
  let ls := s.launches.filter fun (l : Launch) => l.ctx == ctx && l.mesh && !l.stageK.isEmpty && l.state == .running && l.outState == 0
  match ((ls.map fun l => s.openKeys l g).flatten).min? with
  | some k => k
  | none => match f.draw with
    | some d => min wmMax (keyOf (d + 1) 0 0)
    | none => 0
/-- The dies that own a region of a frame. -/
def Frame.ownerDies (f : Frame) : List Nat := (f.owners.filter (· != 0xFF)).foldl sins []
/-- Geometry die g sends its watermark when it has risen; a lost die sends none (spec/20_reliability.md R496). -/
def State.sendWatermark (s : State) (ctx g : Nat) : State :=
  match (s.ctx ctx).bind (·.frame) with
  | none => s
  | some f =>
    let w := s.watermark ctx f g
    if f.closing || s.lostDies.contains g || w ≤ (tget f.sentWm g).getD 0 then s
    else
      let s := s.modFrame ctx fun f => { f with sentWm := tput f.sentWm g w }
      { s with narrows := s.narrows ++ f.ownerDies.map fun o => (⟨ctx, g, o, .watermark w⟩ : NMsg) }

/-! ### Regions at their owner die (R380-R382) -/

def Frame.region (f : Frame) (r : Nat) : Region := (tget f.regions r).getD {}
def Frame.setRegion (f : Frame) (r : Nat) (v : Region) : Frame := { f with regions := tput f.regions r v }
/-- Every die that takes part has reached key k, as the owner die knows. -/
def Frame.reached (f : Frame) (owner k : Nat) : Bool :=
  (List.range 16).all fun g => !bit f.gdmask g || k ≤ (tget f.wm (g * 64 + owner)).getD 0
/-- The held packet that may be released now (R380). -/
def Frame.next (f : Frame) (owner : Nat) (r : Region) : Option VisPkt :=
  if r.op then r.held.find? fun x => some (pktKey x.p) == r.tk && x.p.part == r.tp
  else
    match (r.held.map (fun x => pktKey x.p)).min? with
    | none => none
    | some k =>
      if (match r.tk with
          | some t => decide (t < k)
          | none => true) && f.reached owner k then r.held.find? fun x => pktKey x.p == k && x.p.part == 0 else none
/-- A held packet whose key has been passed breaks R378: it is discarded, and the cause recorded. -/
def Frame.dropPassed (f : Frame) (rid : Nat) : Frame :=
  let r := f.region rid
  let bad := fun (x : VisPkt) => !r.op && (match r.tk with
    | some t => decide (pktKey x.p ≤ t)
    | none => false)
  if r.held.any bad then (f.setRegion rid { r with held := r.held.filter fun x => !bad x }).record cKeyOrder else f
/-- Release held packets of a region while their condition holds. -/
def Frame.release (f : Frame) (owner rid : Nat) : Nat → Frame
  | 0 => f
  | n + 1 =>
    let f := f.dropPassed rid
    let r := f.region rid
    match f.next owner r with
    | none => f
    | some x =>
      ({ f with nextStamp := f.nextStamp + 1 }.setRegion rid { r with
        tk := some (pktKey x.p), tp := x.p.part + 1, op := !x.p.lastp
        held := r.held.erase x
        released := r.released ++ [{ x with stamp := f.nextStamp }] }).release owner rid n
/-- Re-evaluate every region of an owner die. -/
def Frame.evaluate (f : Frame) (owner : Nat) : Frame :=
  (f.regions.filter fun p => f.owner (p.1 % 512) (p.1 / 512) == some owner).foldl (fun f p => f.release owner p.1 (p.2.held.length + 1)) f
/-- Poison a region (R381). -/
def Frame.poison (f : Frame) (rid : Nat) : Frame :=
  let r := f.region rid
  if r.poisoned then f
  else { f.setRegion rid { r with held := [], released := [], poisoned := true } with npois := min 0xFFFF (f.npois + 1) }
/-- Poison every region that holds a held packet. -/
def Frame.poisonHeld (f : Frame) : Frame :=
  (f.regions.filter fun p => !p.2.held.isEmpty).foldl (fun f p => f.poison p.1) f
/-- Close a frame: every watermark at its highest (R377). -/
def Frame.close (f : Frame) : Frame :=
  let f := { f with
    closing := true
    wm := ((List.range 16).map fun g => f.ownerDies.map fun o => g * 64 + o).flatten.foldl (fun t k => tput t k wmMax) f.wm }
  f.ownerDies.foldl (fun f o => f.evaluate o) f
/-- Flits of the packets that a block has popped. -/
def Block.heldFlits (k : Block) : Nat := (k.packets.map fun x => pktFlits x.p).sum
/-- Flits in the buffer of an owner die (R382, R387). -/
def State.bufferFlits (s : State) (owner : Nat) : Nat :=
  let f := fun (l : List VisPkt) => ((l.filter (·.spilled.isNone)).map fun x => pktFlits x.p).sum
  (s.ctxs.map fun c => match c.2.frame with
    | some fr => ((fr.regions.filter fun p => fr.owner (p.1 % 512) (p.1 / 512) == some owner).map fun p => f p.2.held + f p.2.released).sum
    | none => 0).sum + ((s.blocks.filter fun (k : Block) => k.core.die == owner).map Block.heldFlits).sum
/-- The parts of a frame's spill area that packets take: offset and bytes. -/
def Frame.spills (f : Frame) : List (Nat × Nat) :=
  (f.regions.map fun p => (p.2.held ++ p.2.released).filterMap fun x => x.spilled.map fun o => (o, 32 * pktFlits x.p)).flatten
/-- Where n bytes fit in the spill area: the lowest offset free after 0 or after a packet (notes/assumptions/56.md). -/
def Frame.spillRoom (f : Frame) (n : Nat) : Option Nat :=
  let us := f.spills
  ((0 :: us.map fun u => u.1 + u.2).filter fun o => o + n ≤ f.spill && us.all fun u => decide (u.1 + u.2 ≤ o) || decide (o + n ≤ u.1)).min?
/-- Physical address of an address of the frame's pinned pages. -/
def State.framePa (s : State) (ctx : Nat) (f : Frame) (va : Nat) : Option Nat :=
  (f.pins.findSome? fun e => e.at ctx (va % 2 ^ 56 / 4096)).map fun e => s.localPa (e.frame * 4096 + va % 4096)
/-- The flits of a packet are written to the spill area (R382). -/
def State.spillWrite (s : State) (ctx : Nat) (f : Frame) (off : Nat) (p : Packet) : State :=
  (List.range (pktFlits p)).foldl (fun s i => match s.framePa ctx f (f.spillptr.toNat + off + 32 * i) with
    | some pa => s.agentWrite pa (((pktBytes p).drop (32 * i)).take 32) true
    | none => s) s
/-- A released packet as it is popped: read back if it lies in the spill area (R382). -/
def State.readBack (s : State) (ctx : Nat) (f : Frame) (x : VisPkt) : VisPkt :=
  match x.spilled with
  | none => x
  | some off =>
    let flit := fun i => match s.framePa ctx f (f.spillptr.toNat + off + 32 * i) with
      | some pa => mread s.mem pa 32
      | none => 0
    { x with spilled := none, p := pktOf (flit 0) ((List.range (pktFlits x.p - 1)).map fun i => leBytes 32 (flit (i + 1))).flatten }
/-- A packet arrives at its owner die (R380-R382). -/
def State.arrivePacket (s : State) (ctx owner : Nat) (p : Packet) : State :=
  match (s.ctx ctx).bind (·.frame) with
  | none => s
  | some f =>
    let rid := p.rgy * 512 + p.rgx
    let r := f.region rid
    let expected := (r.held.filter fun x => pktKey x.p == pktKey p).length + (if r.op && r.tk == some (pktKey p) then r.tp else 0)
    let passed := !r.op && (match r.tk with
      | some t => decide (pktKey p ≤ t)
      | none => false)
    if f.owner p.rgx p.rgy != some owner then s.modFrame ctx fun f => { f with ndisc := min 0xFFFF (f.ndisc + 1) }
    else if r.poisoned then s
    else if passed || p.part != expected then s.modFrame ctx fun f => f.record cKeyOrder
    else
      let place := fun (o : Option Nat) => f.setRegion rid { r with held := r.held ++ [(⟨p, s.clock.ns, o, 0⟩ : VisPkt)] }
      if s.bufferFlits owner + pktFlits p ≤ 8192 then s.modFrame ctx fun _ => (place none).evaluate owner
      else match f.spillRoom (32 * pktFlits p) with
        | some o => (s.spillWrite ctx f o p).modFrame ctx fun _ => (place (some o)).evaluate owner
        | none => s.modFrame ctx fun _ => (((place none).record cFrameSpill).poisonHeld).close
/-- The first message of a channel is the one looked for: take it out. -/
def takeMsg (p : NMsg → Bool) : List NMsg → Option (NMsg × List NMsg)
  | [] => none
  | m :: r => if p m then some (m, r) else
      match takeMsg p r with
      | some (x, l) => if x.ctx == m.ctx && x.gdie == m.gdie && x.owner == m.owner then none else some (x, m :: l)
      | none => none
/-- PACKET_ARRIVAL (R379, R380): packets and watermark flits of one geometry die reach an owner die in order of emission. -/
def execPacketArrival (ctx : Nat) (p : Packet) (s : State) : Out :=
  match takeMsg (fun m => m.ctx == ctx && m.flit == .packet p) s.narrows with
  | some (m, rest) => .next ({ s with narrows := rest }.arrivePacket ctx m.owner p)
  | none => .next s
/-- WATERMARK_FLIT (R380). -/
def execWatermarkFlit (ctx gdie owner : Nat) (wm : BitVec 48) (s : State) : Out :=
  match takeMsg (fun m => m.ctx == ctx && m.gdie == gdie && m.owner == owner && m.flit == .watermark wm.toNat) s.narrows with
  | some (_, rest) =>
    .next ({ s with narrows := rest }.modFrame ctx fun f =>
      { f with wm := tput f.wm (gdie * 64 + owner) (max ((tget f.wm (gdie * 64 + owner)).getD 0) wm.toNat) }.evaluate owner)
  | none => .next s
/-- TOKEN_TIMEOUT (R381): a packet held in the region has waited FTO. -/
def execTokenTimeout (ctx region : Nat) (s : State) : Out :=
  match (s.ctx ctx).bind (·.frame) with
  | none => .next s
  | some f =>
    match ((f.region region).held.map (·.came)).min? with
    | none => .next s
    | some t => .next ((s.reachNs (t + f.fto)).modFrame ctx fun f => f.poisonHeld.record cTokenTimeout)
/-- FRAME_TIMEOUT (R381): the frame has been open for FTO. -/
def execFrameTimeout (ctx : Nat) (s : State) : Out :=
  match (s.ctx ctx).bind (·.frame) with
  | none => .next s
  | some f => .next ((s.reachNs (f.opened + f.fto)).modFrame ctx fun f => (f.poisonHeld.record cFrameTimeout).close)

/-! ### What follows at once -/

/-- A region is drained (R377). -/
def Region.drained (r : Region) : Bool := r.held.isEmpty && r.released.isEmpty && r.holder.isNone
/-- Word 6 of the frame record, DONE and the host's signal (R374, R377; spec/22_host.md R519). -/
def State.frameReport (s : State) (rec_ state cause npois ndisc : Nat) : State :=
  ((s.agentWord (rec_ + 48) (cause * 2 ^ 54 + state * 2 ^ 52 + npois * 2 ^ 16 + ndisc)).addDone (rec_ + 56)).signal 0
/-- A watermark flit of a context. -/
def NMsg.isWm (m : NMsg) (ctx : Nat) : Bool :=
  m.ctx == ctx && match m.flit with
    | .watermark _ => true
    | .packet _ => false
/-- A closing frame ends once every region is drained; its watermark flits are no flits of a later frame. -/
def State.endFrame (s : State) (ctx : Nat) : State :=
  match (s.ctx ctx).bind (·.frame) with
  | none => s
  | some f =>
    if f.closing && f.regions.all fun p => p.2.drained then
      let s := (s.frameReport f.rec_ (if f.cause == 0 then 0 else 1) f.cause f.npois f.ndisc).modCtx ctx fun c => { c with frame := none }
      { s with narrows := s.narrows.filter fun m => !m.isWm ctx }
    else s
/-- The slot operation of a request still exists. -/
def State.opLive (s : State) (b tl op : Nat) : Bool := (s.thread b tl).ops.any fun o => o.id == op
/-- Words that VISPOP lands for a packet (R387). -/
def VisPkt.words (x : VisPkt) : List Word :=
  let p := x.p
  [BitVec.ofNat 32 (x.stamp % 65536),
   BitVec.ofNat 32 (p.part * 2 ^ 28 + boolBit p.lastp 27 + p.nvert * 2 ^ 18 + p.nprim * 2 ^ 9 + p.aw * 16 + p.gdie % 16),
   p.task ++ p.midx, BitVec.ofNat 32 (pktFlits p * 65536 + p.draw.toNat)]
/-- ST alone in n words. -/
def stWords (st n : Nat) : List Word := BitVec.ofNat 32 (st * 2 ^ 30) :: List.replicate (n - 1) 0
/-- Take a region for a block: an acquire whose releaser lies on another die (R385, R386). -/
def State.takeRegion (s : State) (k : Block) (rid : Nat) : State :=
  let s := s.modFrame k.ctx fun f => f.setRegion rid { f.region rid with holder := some k.id }
  (s.modBlock k.id fun k => { k with region := some rid }).acquireInval k.core true false
def rgnWord (st rid : Nat) : Word := BitVec.ofNat 32 (st * 2 ^ 30 + rid / 512 * 512 + rid % 512)
/-- The free region of a die whose oldest released packet was released first. -/
def Frame.anyRegion (f : Frame) (die : Nat) : Option Nat :=
  let cs := f.regions.filterMap fun p =>
    if f.owner (p.1 % 512) (p.1 / 512) == some die && p.2.holder.isNone && !p.2.poisoned then (p.2.released.head?).map fun x => (x.stamp, p.1) else none
  match (cs.map (·.1)).min? with
  | some m => (cs.find? fun c => c.1 == m).map (·.2)
  | none => none
/-- Every region of a die is drained. -/
def Frame.dieDrained (f : Frame) (die : Nat) : Bool :=
  (f.regions.filter fun p => f.owner (p.1 % 512) (p.1 / 512) == some die).all fun p => p.2.drained
/-- Serve one waiting request: none while it must wait on (R385, R387). A request for any region of a block that meanwhile holds one takes
none (notes/assumptions/57.md). -/
def State.serveRgn (s : State) (q : RgnReq) : Option State :=
  match s.block q.blk with
  | none => some s
  | some k =>
    if !s.opLive q.blk q.tl q.op then some s
    else
      match (s.ctx k.ctx).bind (·.frame) with
      | none =>
        if q.pop then some (s.landOn q.blk q.tl q.op (stWords 1 4))
        else some (s.landOn q.blk q.tl q.op [rgnWord 1 0])
      | some f =>
        if !q.pop then
          match if k.region.isSome then none else f.anyRegion k.core.die with
          | some rid => some ((s.takeRegion k rid).landOn q.blk q.tl q.op [rgnWord 0 rid])
          | none => if f.closing && f.dieDrained k.core.die then some (s.landOn q.blk q.tl q.op [rgnWord 1 0]) else none
        else
          match k.region with
          | none => -- the block gave its region back meanwhile: the spec states no value (notes/assumptions/3.md)
            some ({ s.landOn q.blk q.tl q.op ((List.range 4).map fun i => (Config.freeValue (s.clock.free + i)).setWidth 32) with
              clock := { s.clock with free := s.clock.free + 4 } })
          | some rid =>
            let r := f.region rid
            if r.poisoned then some (s.landOn q.blk q.tl q.op (stWords 2 4))
            else
              match r.released with
              | x :: rest =>
                let x := s.readBack k.ctx f x
                let s := s.modFrame k.ctx fun f => f.setRegion rid { r with released := rest }
                some ((s.modBlock q.blk fun k => { k with packets := k.packets ++ [x], nonRollback := true }).landOn q.blk q.tl q.op x.words)
              | [] => if f.closing && r.held.isEmpty then some (s.landOn q.blk q.tl q.op (stWords 1 4)) else none
/-- Serve the waiting requests in order of arrival. -/
def State.serveRgns (s : State) : State :=
  s.rgnReqs.foldl (fun s q => match s.serveRgn q with
    | some s => { s with rgnReqs := s.rgnReqs.erase q }
    | none => s) s
/-- Watermarks, releases, requests and frame ends of every context. -/
def State.settleNarrows (s : State) : State :=
  let open_ := (s.ctxs.filter fun c => c.2.frame.isSome).map (·.1)
  let gds := (List.range s.dieMap.ngd).map (· + s.dieMap.nsd)
  let s := open_.foldl (fun s c => gds.foldl (fun s g => s.sendWatermark c g) s) s
  open_.foldl (fun s c => s.endFrame c) s.serveRgns

/-! ### Region instructions (R383-R389) -/

/-- The checks of R384 that every region instruction makes: the frame. -/
def Env.rgn (e : Env) (s : State) (act : State → Block → Frame → LaneOut) : LaneOut :=
  if s.dieMap.isGd e.k.core.die then (s, plainTrap cIllegalInstruction)
  else
    match (s.ctx e.k.ctx).bind (·.frame) with
    | none => (s, plainTrap cNoFrame)
    | some f => act s ((s.block e.k.id).getD e.k) f
/-- The checks of an instruction on the held region; `alive` asks that it is not poisoned. -/
def Env.held (e : Env) (s : State) (alive : Bool) (act : State → Block → Frame → Nat → LaneOut) : LaneOut :=
  e.rgn s fun s k f =>
    match k.region with
    | none => (s, plainTrap cRegionNotHeld)
    | some rid => if alive && (f.region rid).poisoned then (s, plainTrap cRegionPoisoned) else act s k f rid
/-- RGNACQ (R385). -/
def execRgnacq (f : FA) (s : State) : Out :=
  issue (.rgnacq f) f.pred f.pneg (some f.sbs.toNat) (fun e s => e.rgn s fun s k fr =>
    let a := e.r f.a
    let rx := a.toNat % 512
    let ry := bits a.toNat 17 9
    let rid := ry * 512 + rx
    let op := s.nextId
    let put := fun (s : State) (v : Option (List Word)) => e.addOp s f.sbs [f.d.toNat] v none true .none
    if k.region.isSome then (s, plainTrap cRegionHeld)
    else if a == 0xFFFFFFFF then
      let s := put s none
      ({ s with rgnReqs := s.rgnReqs ++ [(⟨k.id, e.tl, op, false⟩ : RgnReq)] }, none)
    else if bits a.toNat 31 18 != 0 || fr.owner rx ry != some k.core.die then (s, plainTrap cRegionNotOwned)
    else if (fr.region rid).poisoned then (put s (some [rgnWord 2 rid]), none)
    else if (fr.region rid).holder.isSome then (put s (some [rgnWord 3 rid]), none)
    else (put (s.takeRegion k rid) (some [rgnWord 0 rid]), none)) s
/-- RGNREL (R386): acts as PHASE.pkg; the block holds the region until the write-backs are acknowledged. -/
def execRgnrel (f : FA) (s : State) : Out :=
  issueCommit (.rgnrel f) f.pred f.pneg none (fun e s => e.held s false fun s k _ rid =>
    match s.commitBlock k.id with
    | (s, false) => (s, some .hold)
    | (s, true) =>
      let s := s.modBlock k.id fun k => { k with nonRollback := true, packets := [] }
      let s := e.upd s fun t => { t with phases := t.phases + 1 }
      (s.fence (.region k.id e.tl rid) [k.core] (fun _ _ => true) (s.older k.id e.tl), none)) s
/-- VISPOP (R387): the packets of the block's previous VISPOP leave the buffer. -/
def execVispop (f : FA) (s : State) : Out :=
  issue (.vispop f) f.pred f.pneg (some f.sbs.toNat) (fun e s => e.held s false fun s k _ _ =>
    let op := s.nextId
    let first := (e.parts.head?).map (·.2) == some e.tl
    let s := if first then s.modBlock k.id fun k => { k with packets := [] } else s
    let s := e.addOp s f.sbs (destRegs f.d 16) none none false .none
    ({ s with rgnReqs := s.rgnReqs ++ [(⟨k.id, e.tl, op, true⟩ : RgnReq)] }, none)) s
/-- VISGET (R388). -/
def execVisget (f : FA) (s : State) : Out :=
  issue (.visget f) f.pred f.pneg (some f.sbs.toNat) (fun e s => e.held s true fun s k _ _ =>
    let a := (e.r f.a).toNat
    match k.packets.find? fun x => x.stamp % 65536 == (e.r f.b).toNat with
    | none => (s, plainTrap cVisHandle)
    | some x =>
      let n := x.p.payload.length
      if a % 32 != 0 then (s, some (memTrap cMisaligned true 0 (regionPtr 1 a)))
      else if k.localSize < a + n then (s, some (memTrap cBounds true 0 (regionPtr 1 a)))
      else (e.addOp (s.lstore k.id a x.p.payload) f.sbs [f.d.toNat] (some [BitVec.ofNat 32 n]) none false .none, none)) s
/-- Bytes of a pixel (R374). -/
def Frame.pixelSize (f : Frame) : Nat := if f.rtfmt == 1 then 8 else 4
/-- One channel of a blend: colour, destination, the colour's alpha (R389). -/
def blendOne (op s d alpha : Nat) : Nat :=
  let x := fun (v : Nat) => fpDec fp32 v
  match op with
  | 0 => s
  | 1 => gAdd (x s) (x d)
  | 2 => gFma (x d) (x (gAdd (.fin false 1 0) (fNeg (x alpha)))) (x s)
  | 3 => minMaxBits 0 true false (x s) (x d)
  | _ => minMaxBits 0 true true (x s) (x d)
/-- The integer nearest 255 times a value clamped to [0, 1], ties to even. -/
def unorm8 (v : Nat) : Nat :=
  match fpDec fp32 (clamp01 fp32 v) with
  | .fin _ m e => let q := scaled (255 * m) 1 e; roundQ .rn false q.1 q.2
  | _ => 0
/-- A blended pixel: the format, the stored pixel, the colour's four words. -/
def blendPixel (fmt op old : Nat) (c : List Nat) : List Byte :=
  let s := fun i => (lget c i).getD 0
  match fmt with
  | 0 => ((List.range 4).map fun i =>
      leBytes 1 (unorm8 (blendOne op (s i) (let v := bits old (8 * i + 7) (8 * i); if v == 0 then 0 else roundFp fp32 .rn false false v 255 0) (s 3)))).flatten
  | 1 => ((List.range 4).map fun i =>
      leBytes 2 (f2fBits 0 fp32 fp16 .rn (blendOne op (s i) (f2fBits 0 fp16 fp32 .rn (bits old (16 * i + 15) (16 * i))) (s 3)))).flatten
  | _ => leBytes 4 (blendOne op (s 0) (old % 2 ^ 32) (s 3))
/-- RTBLEND (R389): read and write of one pixel under the view of the core; the write enters the core's dirty set directly. -/
def execRtblend (f : FA) (s : State) : Out :=
  issue (.rtblend f) f.pred f.pneg none (fun e s => e.held s true fun s k fr rid =>
    let a := (e.r f.a).toNat
    let x := 32 * (rid % 512) + a % 32
    let y := 32 * (rid / 512) + bits a 12 8
    let n := fr.pixelSize
    let va := fr.rtbase.toNat + fr.rtpitch * y + n * x
    let p := BitVec.ofNat 64 va
    if bits a 7 5 != 0 || bits a 31 13 != 0 then (s, plainTrap cRtPixel)
    else if fr.rtw ≤ x || fr.rth ≤ y then (s, none)
    else
      match s.checkGlobal k.core k.ctx [⟨2, 0, 2 ^ 56⟩] (va % 2 ^ 56) n .flip with
      | (.trap c, s) => (s, some (memTrap c true 0 p))
      | (.park g, s) => (s, some (.park g p))
      | (.ok (.glob pa en w), s) =>
        if !w then (s, some (memTrap cWriteProtect true 0 p)) else if s.isMoving en then (s, some (.park en.page p)) else
        let g := granule pa
        let old := s.freeBytes n
        let q := if s.poisoned g then (leVal old.1, old.2) else (leVal (s.engBytes k.core pa n), s)
        let bs := (blendPixel fr.rtfmt (f.md.toNat % 8) q.1 ((List.range 4).map fun i => (e.rN f.b i).toNat)).zipIdx.map fun b => (pa % 128 + b.2, b.1)
        let s := q.2.irrevocable k.id
        (if s.writesThrough k.ctx en.vc.toNat then s.homeWrite (some k.core) g bs en.trk
          else s.putDirty k.core g bs en.trk en.hb k.ctx en.vc.toNat false false (en.page, en.pages), none)
      | (.ok _, s) => (s, none)) s

end Sys2Proof.Machine
end

