-- ==== Sys2Proof/Machine/Links.lean ====
section
/-! DEFINITION. The widths of the Causeway links and the plane tables (spec/19_fabric.md R474, R477, R478). -/

namespace Sys2Proof.Machine

def State.setFab (s : State) (f : Fabric) : State := { s with fab := f }

def linkState (w : DWord) : Nat := bits w.toNat 63 62
def linkWidth (w : DWord) : Nat := bits w.toNat 61 60
def linkLanes (w : DWord) : Nat := bits w.toNat 59 56
/-- A link status with new STATE, WIDTH and LANES, and `downs` more down events. -/
def linkWith (w : DWord) (state width lanes downs : Nat) : DWord :=
  let v := w.toNat
  BitVec.ofNat 64 (state * 2 ^ 62 + width * 2 ^ 60 + lanes * 2 ^ 56 + bits v 55 40 * 2 ^ 40 + (bits v 39 32 + downs) % 256 * 2 ^ 32)
/-- A link status with n more retries (R474). -/
def linkRetry (w : DWord) (n : Nat) : DWord :=
  let v := w.toNat
  BitVec.ofNat 64 (v / 2 ^ 56 * 2 ^ 56 + (bits v 55 40 + n) % 65536 * 2 ^ 40 + v % 2 ^ 40)
/-- Weight of plane p towards a destination (R477): widths at both ends; an unlearned width is four lanes. -/
def State.planeWeight (s : State) (dst p : Nat) : Nat :=
  let own := linkWidth ((lget s.fab.lnksts p).getD 0)
  let far := (tget s.fab.widths (dst * 64 + p)).getD 2
  min own far
/-- The 64 entries of a destination's plane table: each plane takes a turn for each unit of its weight. -/
def State.planeTable (s : State) (dst : Nat) : List Nat :=
  let turns := ((List.range 36).map fun p => List.replicate (s.planeWeight dst p) p).flatten
  (List.range 64).map fun i => (lget turns (i % turns.length)).getD 0
/-- The plane a request to a remote address takes. -/
def State.planeOf (s : State) (pa : Nat) : Nat :=
  let dst := s.homePkg pa
  (lget ((tget s.fab.planes dst).getD (s.planeTable dst)) (bits pa 12 7)).getD 0
/-- Recompute the plane tables in use; an entry with a request outstanding stays (R478). -/
def State.replane (s : State) : State :=
  s.setFab { s.fab with planes := s.fab.planes.map fun (t : Nat × List Nat) =>
    (t.1, (t.2.zip (s.planeTable t.1)).zipIdx.map fun e =>
      if s.reqs.any fun (q : HomeReq) => s.homePkg q.pa == t.1 && bits q.pa 12 7 == e.2 then e.1.1 else e.1.2) }
/-- A response from a remote home carries the width at its end (R477): what it is, the fabric decides. -/
def State.learnWidth (s : State) (pa : Nat) : State :=
  let dst := s.homePkg pa
  if dst == s.pkg.toNat then s
  else
    let p := s.planeOf pa
    let w := if s.freeVal.getLsbD 0 then 2 else 1
    let s := s.useFree
    let s := s.setFab { s.fab with planes := if (tget s.fab.planes dst).isSome then s.fab.planes else tput s.fab.planes dst (s.planeTable dst) }
    if (tget s.fab.widths (dst * 64 + p)).getD 2 == w then s
    else (s.setFab { s.fab with widths := tput s.fab.widths (dst * 64 + p) w }).replane

/-! ### Classes, windows and slots (R475) -/

/-- Class of a flit. A boost notice is counted with the notices of class 1 (notes/assumptions/59.md). -/
def flitClass (f : Flit) : Nat :=
  match f.1 with
  | 0 => 0
  | 7 => 0
  | 9 => 0
  | 10 => 2
  | 3 => 1
  | 4 => 1
  | 8 => 1
  | 11 => 1
  | 12 => 1
  | _ => 3
/-- Link of a flit: the plane that the table of its destination gives the granule it is about, or the first. -/
def State.flitLink (s : State) (f : Flit) : Nat :=
  if f.1 == 5 then f.2.1
  else
    let i := match f.1 with
      | 0 => ((s.reqs.find? fun (q : HomeReq) => q.id == f.2.2).map fun q => bits q.pa 12 7).getD 0
      | 3 => f.2.2 % 64
      | 4 => f.2.2 % 64
      | 9 => f.2.2 % 64
      | 10 => f.2.2 % 64
      | 11 => f.2.2 % 64
      | 12 => f.2.2 % 64
      | _ => 0
    (lget ((tget s.fab.planes f.2.1).getD (s.planeTable f.2.1)) i).getD 0
def LinkOut.class (l : LinkOut) (c : Nat) : List Flit := (lget l.waiting c).getD []
/-- A class has a flit waiting and a credit: its receive window holds 256 flits. -/
def LinkOut.can (l : LinkOut) (c : Nat) : Bool := !(l.class c).isEmpty && decide ((lget l.owed c).getD 0 < 256)
/-- Weight of a class by LNKWT: 0 in W0 and W1 is taken as 1; 0 in W2 stops class 2 while class 0 or 1 has flits waiting. -/
def LinkOut.weight (l : LinkOut) (wt : DWord) (c : Nat) : Nat :=
  let w := bits wt.toNat (8 * c + 7) (8 * c)
  if w != 0 then w else if c == 2 && !((l.class 0).isEmpty && (l.class 1).isEmpty) then 0 else 1
/-- The class that the next slot goes to: class 3 if fifteen slots have passed since its last flit; else classes 0 to 2 by weighted
round robin, each up to its weight in a round, a class with nothing to send yielding its slots. -/
def LinkOut.pick (l : LinkOut) (wt : DWord) : Option Nat :=
  if l.can 3 && 15 ≤ l.since then some 3
  else
    let able := [0, 1, 2].filter fun c => l.can c && l.weight wt c != 0
    match able.find? fun c => decide ((lget l.given c).getD 0 < l.weight wt c) with
    | some c => some c
    | none => able.head?
/-- One slot of a link; the credits that `back` selects have come back before it. -/
def LinkOut.slot (l : LinkOut) (wt : DWord) (back : Nat) : LinkOut :=
  let l := { l with owed := l.owed.zipIdx.map fun (p : Nat × Nat) => if bit back p.2 then p.1 - 1 else p.1 }
  match l.pick wt with
  | none => { l with since := l.since + 1 }
  | some c =>
    let spent := decide (c < 3 && l.weight wt c ≤ (lget l.given c).getD 0)
    let given := if spent then List.replicate 3 0 else l.given
    { l with
      waiting := lset l.waiting c ((l.class c).drop 1)
      owed := lset l.owed c ((lget l.owed c).getD 0 + 1)
      given := if c < 3 then lset given c ((lget given c).getD 0 + 1) else given
      since := if c == 3 then 0 else l.since + 1
      sent := (l.class c).take 1 ++ l.sent }
/-- Requests and write-backs to the homes of other packages whose flit has not been sent. -/
def State.outbound (s : State) : State :=
  let rs := (s.reqs.filter fun (q : HomeReq) => !q.flit && s.homePkg q.pa != s.pkg.toNat && !s.inL1 q).map fun q => (0, s.homePkg q.pa, q.id)
  let far := fun (d : Nat × DirtyLine) => d.2.wb && !d.2.flit && s.homePkg (d.1 * 128) != s.pkg.toNat
  let ws := (s.cores.map fun c => (c.2.dirty.filter far).map fun d => (9, s.homePkg (d.1 * 128), d.1)).flatten
  if rs.isEmpty && ws.isEmpty then s
  else
    let s := (rs ++ ws).foldl (fun s (f : Flit) => s.sendFlit f.1 f.2.1 f.2.2) s
    { s with
      reqs := s.reqs.map fun (q : HomeReq) => if s.homePkg q.pa != s.pkg.toNat then { q with flit := true } else q
      cores := tmap (fun (k : Core) => { k with dirty := k.dirty.map fun d => if far d then (d.1, { d.2 with flit := true }) else d }) s.cores }
/-- Flits sent go to their links. -/
def State.takeFlits (s : State) : State :=
  s.fab.out.foldl (fun s f =>
    let k := s.flitLink f
    let l := (tget s.fab.links k).getD {}
    s.setFab { s.fab with out := s.fab.out.drop 1, links := tput s.fab.links k { l with waiting := lset l.waiting (flitClass f) (l.class (flitClass f) ++ [f]) } }) s
/-- Every up link with flits waiting uses a slot; which credits have come back is a free choice. -/
def State.linkSlot (s : State) (k : Nat) : State :=
  match tget s.fab.links k with
  | none => s
  | some l =>
    let up := s.fab.en && !s.fab.fenced && linkState ((lget s.fab.lnksts k).getD 0) == 2
    if !up || l.waiting.all (·.isEmpty) then s
    else s.useFree.setFab { s.fab with links := tput s.fab.links k (l.slot ((lget s.fab.lnkwt k).getD 0) (s.freeVal.toNat % 16)) }
/-- The links after a step. -/
def State.settleLinks (s : State) : State :=
  let s := s.outbound.takeFlits
  (s.fab.links.map (·.1)).foldl (fun s k => s.linkSlot k) s

end Sys2Proof.Machine
end

