-- ==== Sys2Proof/Machine/Remote.lean ====
section
/-! DEFINITION. Writes that come from outside the package, and the requests of other packages at the homes of this one
(spec/03_memory_model.md R85, R86, R99, spec/19_fabric.md R470, R479, R480, R484). -/

namespace Sys2Proof.Machine

/-- A granule has a copy under a tracked mapping. -/
def State.hasTracked (s : State) (g : Nat) : Bool :=
  s.cores.any (fun c => ((tget c.2.dirty g).map (·.tracked)).getD false || ((tget c.2.copies g).map (·.tracked)).getD false) ||
    s.l2.any (fun p => ((tget p.2 g).map (·.tracked)).getD false)
/-- The part of consecutive bytes from address pa that lies in granule g: its address, and the bytes. -/
def granulePart (pa : Nat) (bs : List Byte) (g : Nat) : Nat × List Byte :=
  let lo := max pa (g * 128)
  (lo, (bs.drop (lo - pa)).take (g * 128 + 128 - lo))
/-- Bytes from outside reach their homes, granule by granule; with `all` every copy goes, tracked or not. -/
def State.outsideWrite (s : State) (pa : Nat) (bs : List Byte) (all : Bool) : State :=
  if bs.isEmpty then s else
    (List.range (granule (pa + bs.length - 1) + 1 - granule pa)).foldl (fun s i =>
      let g := granule pa + i
      let p := granulePart pa bs g
      let s := s.agentWrite p.1 p.2 (s.hasTracked g)
      if all then s.dropAll g else s) s

/-- Key of an energy tag. -/
def tagKey (p : BitVec 14) (c : BitVec 10) : Nat := p.toNat * 1024 + c.toNat
/-- Charge work to a tag of another package. -/
def State.charge (s : State) (p : BitVec 14) (c : BitVec 10) (pj : Nat) : State :=
  s.setFab { s.fab with billing := tput s.fab.billing (tagKey p c) ((tget s.fab.billing (tagKey p c)).getD 0 + pj) }

/-- The record of g names the core that sent q. -/
def remIsRec (q : RemoteReq) (r : SyncRec) : Bool := r.rpkg == q.src && r.rdie == q.srcDie && r.rcore == q.srcCore
/-- An acquiring, and a releasing, request at quad scope or wider. -/
def acquires (q : RemoteReq) : Bool :=
  match q.kind with
  | .atomic _ a _ => a
  | .acquire => true
  | _ => false
def releases (q : RemoteReq) : Bool :=
  match q.kind with
  | .atomic _ _ r => r
  | .release => true
  | _ => false
/-- The write-back of the recorded releaser is to be demanded before the request is performed (R85, R86). -/
def State.remoteWaits (s : State) (q : RemoteReq) (g : Nat) : Bool :=
  let r := s.srec g
  (acquires q || releases q) && r.sv && !r.fl && !remIsRec q r
/-- The home's part of a release by another package (R85, R250). -/
def State.remoteReleased (s : State) (q : RemoteReq) (g : Nat) : State :=
  s.setRec g { s.srec g with sv := true, fl := false, rdie := q.srcDie, rcore := q.srcCore, rpkg := q.src, rgen := q.gen, bv := false, boost := 0 }
/-- A granule read or written: from a cache, or from GDDR-7 (R484). -/
def State.chargeGranule (s : State) (q : RemoteReq) (g : Nat) (write : Bool) : State :=
  s.charge q.src q.ctx (if !write && (tget s.llc g).isSome then 2600 else 6400)
/-- A response of n bytes: its flits are charged (R475, R484). -/
def State.respond (s : State) (q : RemoteReq) (n payload : Nat) : State :=
  (s.sendFlit 7 q.src.toNat payload).charge q.src q.ctx (1300 * (1 + (n + 31) / 32))
/-- A member of the coherence group keeps a copy of a granule of a tracked page that it has read (spec/18_cache.md R460). -/
def State.shareFar (s : State) (q : RemoteReq) (g : Nat) : State :=
  let l := (tget s.fab.sharers g).getD []
  if q.tracked && s.inGroup q.src.toNat && !l.contains q.src then s.setFab { s.fab with sharers := tput s.fab.sharers g (l ++ [q.src]) } else s
/-- A request of another package is performed at physical address pa of this one. -/
def State.serveRemote (s : State) (q : RemoteReq) (pa : Nat) : State :=
  let g := granule pa
  let old := mread s.mem pa q.width
  match q.kind with
  | .load => ((s.shareFar q g).chargeGranule q g false).respond q q.width old
  | .writeBack =>
    let s := s.outsideWrite pa q.data false
    let l := ((tget s.fab.remoteDirty g).getD []).filter fun x => x != q.src
    let s := s.setFab { s.fab with remoteDirty := if l.isEmpty then tdel s.fab.remoteDirty g else tput s.fab.remoteDirty g l }
    (s.chargeGranule q g true).respond q 0 0
  | .atomic op acq rel =>
    let s := s.charge q.src q.ctx 800
    let new := atomNew op.toNat (8 * q.width) old (leVal (q.data.take q.width)) (leVal (q.data.drop q.width))
    let s := match new with
      | some v => s.outsideWrite pa (leBytes q.width v) false
      | none => s
    let s := if rel then s.remoteReleased q g else s
    let s := if acq then s.acquireFrom q.srcDie q.srcCore q.src g (new.isNone || new == some old) q.prio else s
    s.respond q q.width old
  | .acquire =>
    let s := s.acquireFrom q.srcDie q.srcCore q.src g (!q.data.isEmpty && leVal q.data == old) q.prio
    ((s.shareFar q g).chargeGranule q g false).respond q q.width old
  | .release =>
    let s := (s.outsideWrite pa q.data false).remoteReleased q g
    (s.chargeGranule q g true).respond q 0 0
/-- A request of another package at physical address pa: performed, or, where a releaser is demanded first, waiting for its
acknowledgement (R85, R86). -/
def State.takeRemote (s : State) (q : RemoteReq) (pa : Nat) : State :=
  let g := granule pa
  if s.remoteWaits q g then
    let id := s.nextId
    { s with nextId := id + 1, remotes := s.remotes ++ [(id, q, pa)] }.demandFor (.remoteReq id g (s.srec g)) g
  else s.serveRemote q pa
/-- The releaser that a request of another package waited for has acknowledged. -/
def State.resumeRemote (s : State) (id : Nat) : State :=
  match s.remotes.find? fun x => x.1 == id with
  | some x => { s with remotes := s.remotes.filter fun y => y.1 != id }.takeRemote x.2.1 x.2.2
  | none => s

end Sys2Proof.Machine
end

