-- ==== Sys2Proof/Machine/Home.lean ====
section
/-! DEFINITION. The events at the homes and in the caches: requests, demands, write-backs and their acknowledgements, evictions, recalls,
host accesses, bank sleep (spec/03_memory_model.md R76-R99, spec/18_cache.md R458-R466, spec/22_host.md R516). -/

namespace Sys2Proof.Machine

/-! ### Requests -/

def State.findReq (s : State) (id : Nat) (k : ReqKind) : Option HomeReq := s.reqs.find? fun (q : HomeReq) => q.id == id && q.kind == k
/-- Serve a request; when it has been performed, its response has come back with a width (spec/19_fabric.md R477). -/
def State.home (s : State) (q : HomeReq) (perform : State → HomeReq → State) : State :=
  let t := s.serve q perform
  if t.reqs.any fun (x : HomeReq) => x.id == q.id then t else t.learnWidth q.pa
/-- HOME_RELEASE (R85). -/
def execHomeRelease (req : Nat) (s : State) : Out :=
  match s.findReq req .release with
  | some q => .next (s.home q State.performRelease)
  | none => .next s
/-- HOME_ACQUIRE (R86). -/
def execHomeAcquire (req : Nat) (s : State) : Out :=
  match s.findReq req .acquire with
  | some q => .next (s.home q State.performAcquire)
  | none => .next s
/-- HOME_ATOMIC (R91, R92). -/
def execHomeAtomic (req : Nat) (s : State) : Out :=
  match s.findReq req .atomic with
  | some q => .next (s.home q State.performAtomic)
  | none => .next s
/-- HOME_FILL (spec/18_cache.md R461). -/
def execHomeFill (req : Nat) (s : State) : Out :=
  match s.findReq req .fill with
  | some q => .next (s.home q State.performFill)
  | none => .next s

/-! ### Write-backs -/

/-- DEMAND_WRITE_BACK (R85): the core writes back its lines of the generations up to `gen`; a line of a moving page waits. -/
def execDemandWriteBack (core : CoreRef) (gen : BitVec 4) (s : State) : Out :=
  .next (s.sendWb core fun g d => genWithin (s.core core).gen gen d.gen && !s.movingFrame (g / 32))
/-- WRITE_BACK_ARRIVAL (R76): the bytes of a line on its way reach the home; a home in another package needs the fabric. -/
def execWriteBackArrival (core : CoreRef) (granule : Nat) (s : State) : Out :=
  match tget (s.core core).dirty granule with
  | some d => if d.wb && s.reachable (granule * 128) && !s.flitWaits 9 granule then .next (s.arriveWb core granule) else .next s
  | none => .next s
/-- The end of an operation that acts as PHASE: an acquire of its core whose releaser lies on another die, and at pod scope outside its
coherence group (R90). -/
def State.phaseEnd (s : State) (b : Nat) (pod : Bool := false) : State :=
  match s.block b with
  | some k => s.acquireInval k.core true pod
  | none => s
/-- The record of a granule, if it stands as it was demanded, is written back (R86). -/
def State.flushed (s : State) (g : Nat) (r : SyncRec) : State := if s.srec g == r then s.setRec g { r with fl := true } else s
/-- Write back every dirty copy of a granule. -/
def State.recallDirty (s : State) (g : Nat) : State := (s.dirtyCores g).foldl (fun s k => s.arriveWb (coreOfKey k) g) s
/-- The recall of a granule: every dirty copy is written back, every copy invalidated, the entry dropped (spec/18_cache.md R459). -/
def State.dropEntry (s : State) (g : Nat) : State :=
  let s := ((s.recallDirty g).dropAll g).dropFar g
  { s with sync := tdel s.sync g }
/-- A region that block b holds is free. -/
def Frame.freeRegion (f : Frame) (b rid : Nat) : Frame :=
  f.setRegion rid { f.region rid with holder := (f.region rid).holder.filter (· != b) }
/-- A block no longer holds the region it has freed (spec/14_narrows.md R386); a second RGNREL of that hold, still on its way, is then a
PHASE.pkg and frees nothing. -/
def State.giveBack (s : State) (b rid : Nat) : State :=
  let s := s.modBlock b fun k => if k.region == some rid then { k with region := none, packets := [] } else k
  { s with fences := s.fences.map fun (f : Fence) => match f.who with
      | .region b' tl r => if b' == b && r == rid then { f with who := .phase b tl 4 } else f
      | _ => f }
/-- What an acknowledged fence completes. -/
def State.ackFence (s : State) (who : FenceFor) : State :=
  let unphase := fun (s : State) (b tl : Nat) => s.modThread b tl fun t => { t with phases := t.phases - 1 }
  match who with
  | .phase b tl sc => (unphase s b tl).phaseEnd b (sc == 5)
  | .barrier b tl scope bid _ => s.arrive b tl scope bid
  | .req id => s.setStage id .ready
  | .demand id g r => (s.flushed g r).setStage id .ready
  | .recall g r => (s.flushed g r).dropEntry g
  | .flip g r => s.flushed g r
  | .remoteReq id g r => (s.flushed g r).resumeRemote id
  | .done pa r => (s.flushed (granule pa) r).doneNow pa
  | .notice _ _ => s
  | .launchEnd l => s.modLaunch l fun x => { x with state := .ended }
  | .vc cmd =>
    match s.vcCmds.find? fun c => c.id == cmd with
    | some c => (match c.cmd with
      | .flush i op => s.vcFlushDone c i op
      | _ => s)
    | none => s
  | .region b tl rid =>
    let ctx := (s.block b).map (·.ctx)
    let s := (unphase s b tl).phaseEnd b
    match ctx with
    | some c => (s.modFrame c fun f => f.freeRegion b rid).giveBack b rid
    | none => s.freeRegions b
  | .paypush b => ({ s with pushes := s.pushes.map fun (p : PendPush) => if p.blk == b then { p with ready := true } else p }).phaseEnd b
/-- WRITE_BACK_ACK (R86, R90): every line of the fence has reached its home. -/
def execWriteBackAck (req : Nat) (s : State) : Out :=
  match s.fences.find? fun f => f.id == req with
  | none => .next s
  | some f =>
    if !s.fenceDone f then .next s
    else .next (({ s with fences := s.fences.filter fun x => x.id != req }).ackFence f.who)
/-- EVICTION (R77), which no line pinned in the core's L1 suffers (spec/18_cache.md R443): a dirty line of the core sets out for its home;
the clean copy goes, and, as a free choice says, the die's L2 copy. -/
def execEviction (core : CoreRef) (granule : Nat) (s : State) : Out :=
  let pinned := ((tget (s.core core).copies granule).map (·.vc)) == some 2 || ((tget (s.core core).dirty granule).map (·.vc)) == some 2
  let both := s.freeVal.getLsbD 0
  if pinned then .next s else
  let s := (s.useFree.sendWb core fun g _ => g == granule).dropCopy core granule
  .next (if both then s.dropL2 core.die granule else s)
/-- A recall of a granule that another package holds dirty: its write-back is demanded and its acknowledgement awaited
(spec/19_fabric.md R480). -/
def State.recallFrom (s : State) (p : BitVec 14) (g : Nat) : State :=
  let s := s.sendFlit 3 p.toNat g
  { s with fences := s.fences ++ [(⟨s.nextId, .recall g (s.srec g), [], some p, []⟩ : Fence)], nextId := s.nextId + 1 }
/-- DIRECTORY_RECALL (spec/18_cache.md R459): the demand of R89, then every dirty copy is written back, every copy invalidated and the
entry dropped. A releaser in another package acknowledges first; a page that the engine sweeps is recalled when the sweep is over
(spec/18_cache.md R455). -/
def execDirectoryRecall (granule : Nat) (s : State) : Out :=
  let r := s.srec granule
  let writers := (tget s.fab.remoteDirty granule).getD []
  if s.movingFrame (granule / 32) || s.granuleBusy granule then .next s
  else if !writers.isEmpty then .next (writers.foldl (fun s p => s.recallFrom p granule) s)
  else if r.sv && !r.fl && r.rpkg != s.pkg then .next (s.demandFor (.recall granule r) granule)
  else .next ((s.flushRecord granule).dropEntry granule)

/-! ### The host -/

/-- HOST_SNOOP (R99): device copies of the line are written back, and by an invalidation dropped; the
host's write to its line, if it makes one, follows. -/
def execHostSnoop (pa : Nat) (inval : Option (List Byte)) (s : State) : Out :=
  let s := s.recallDirty (granule pa)
  .next (match inval with
    | none => s
    | some data => (s.dropAll (granule pa)).outsideWrite pa (data.take (128 - pa % 128)) true)
/-- Dirty bytes of host-bias lines of a range go to memory first (R99). -/
def State.snoopRange (s : State) (pa n : Nat) : State :=
  (List.range (granule (pa + n - 1) + 1 - granule pa)).foldl (fun s i =>
    let g := granule pa + i
    (s.cores.filter fun c => ((tget c.2.dirty g).map (·.hostBias)).getD false).foldl (fun s c => s.arriveWb (coreOfKey c.1) g) s) s
/-- HOST_MEM_ACCESS (spec/22_host.md R516, R517): the host reads (no data) or writes device memory at an offset below the capacity; a
write invalidates every copy (R99). -/
def execHostMemAccess (pa : Nat) (data : List Byte) (s : State) : Out :=
  if s.dieMap.capacity < pa + max 1 data.length then .next s
  else .next ((s.snoopRange pa (max 1 data.length)).outsideWrite pa data true)

/-! ### Banks (spec/18_cache.md R465, R466) -/

/-- A free choice among the entries of a table: bit 0 of the free value of each. -/
def chosen (free i : Nat) : Bool := (Config.freeValue (free + i)).getLsbD 0
/-- Drop the copies that the free choice and `p` select. -/
def dropChosen (free : Nat) (p : Copy → Bool) (t : Tbl Copy) : Tbl Copy :=
  (t.zipIdx.filter fun x => !(p x.1.2 && chosen free x.2)).map (·.1)
/-- A share of a bank is in an open window. -/
def State.bankBusy (s : State) (die bank : Nat) : Bool :=
  s.ctxs.any fun c => c.2.vcs.any fun v => v.2.old.isSome && (v.2.shares ++ v.2.old.getD []).any fun x => x.2.1 == die && x.2.2.1 == bank
/-- Which lines a bank holds is not architectural: a free choice picks them among the lines that may lie there; dirty bytes lie in the L2 of a
die as R76 and spec/07_core_memory.md R211 put them there. -/
def State.dropBank (s : State) (die : Nat) (p : Copy → Bool) (q : DirtyLine → Bool) : State :=
  let free := s.clock.free
  let l2 := (tget s.l2 die).getD []
  let base := decide (s.dieMap.nsd + s.dieMap.ngd ≤ die)
  let n := l2.length + s.llc.length
  let dirty := if base then [] else (s.cores.filter fun c => c.1 / 128 == die).map fun c => (c.1, c.2.dirty.filter fun d => q d.2)
  let lines := (dirty.map fun c => c.2.map fun d => (c.1, d.1)).flatten
  let go := (lines.zipIdx.filter fun x => chosen (free + n) x.2).map (·.1)
  let s := { s with clock := { s.clock with free := free + n + lines.length } }
  let s := go.foldl (fun s x => s.sendWb (coreOfKey x.1) fun g _ => g == x.2) s
  if base then { s with llc := dropChosen free p s.llc } else { s with l2 := if l2.isEmpty then s.l2 else tput s.l2 die (dropChosen free p l2) }
/-- BANK_SLEEP (R465): its dirty lines set out as by eviction, its clean lines are dropped; a bank with pinned lines or an open window
does not sleep. -/
def execBankSleep (die bank : Nat) (s : State) : Out :=
  if s.bankBusy die bank || s.asleep.contains (die, bank) || !(s.dieMap.isSd die || decide (s.dieMap.nsd + s.dieMap.ngd ≤ die)) then .next s
  else
    let s := s.dropBank die (fun x => x.vc != 2 && x.vc != 3) fun d => d.l2 && d.vc != 2 && d.vc != 3
    .next { s with asleep := s.asleep ++ [(die, bank)] }
def State.diePower (s : State) (die : Nat) : DiePower := (tget s.power.dies die).getD {}
def State.setDiePower (s : State) (die : Nat) (p : DiePower) : State := { s with power := { s.power with dies := tput s.power.dies die p } }
/-- A set point of VLOG within the range of spec/21_power.md R502, in mV: a free choice. -/
def State.freeVlog (s : State) : Nat := 600 + s.freeVal.toNat % 201
/-- L2_DECTED_SWITCH (R466): way 7 of the die's L2, which holds lines of VC 1, is written back and dropped. From then on VLOG may stand
below V_DT (spec/21_power.md R503; notes/assumptions/61.md). -/
def execL2DectedSwitch (die : Nat) (s : State) : Out :=
  if !s.dieMap.isSd die || (s.diePower die).dected then .next s
  else
    let s := s.dropBank die (fun x => x.vc == 1) fun d => d.l2 && d.vc == 1
    .next (s.useFree.setDiePower die { s.diePower die with dected := true, vnow := BitVec.ofNat 12 s.freeVlog })

end Sys2Proof.Machine
end

