-- ==== Sys2Proof/Machine/Fabric.lean ====
section
/-! DEFINITION. The Causeway links: enabling, lane loss, heartbeats and silence, loss of a package, remote requests, pod barrier
flits, billing (spec/19_fabric.md R469-R485). What another package does reaches this one only as an event. -/

namespace Sys2Proof.Machine

def cFabConfig : Nat := 0x383
def cLinkDegraded : Nat := 0x384
def cLinkDown : Nat := 0x385
def cPkgFenced : Nat := 0x386

/-! ### Enabling (R471, R472) -/

/-- Member entry m of the coherence group table. -/
def Fabric.member (f : Fabric) (m : Nat) : Nat := ((lget f.cgtab (m / 4)).map fun w => bits w.toNat (m % 4 * 16 + 15) (m % 4 * 16)).getD 0
/-- The first check of R472: entry CGIDX is valid and names PODPKG. -/
def Fabric.selfOk (f : Fabric) : Bool :=
  let e := f.member (bits f.fabid.toNat 49 45)
  bit e 15 && e % 2 ^ 14 == bits f.fabid.toNat 63 50
/-- Link k is present (spec/01_package.md R24). -/
def DieMap.linkPresent (m : DieMap) (k : Nat) : Bool := bit (m.word (m.nsd + m.ngd + k / 6) 3) (k % 6)
/-- Setting EN: when the checks pass, the present links that are down begin to train (R472, spec/22_host.md R520). -/
def State.fabricEnable (s : State) (digests : Bool) : State :=
  if s.fab.selfOk && digests then s.setFab { s.fab with
    en := true, cfgerr := false
    lnksts := s.fab.lnksts.zipIdx.map fun p => if linkState p.1 == 0 && s.dieMap.linkPresent p.2 then linkWith p.1 1 0 0 0 else p.1 }
  else (s.setFab { s.fab with en := false, cfgerr := true }).errRecord
    { cause := cFabConfig, sev := 3, unit := 10, uidx := s.pkg.toNat }
/-- FABRIC_ENABLE (R472). -/
def execFabricEnable (digestsMatch : Bool) (s : State) : Out := .next (s.fabricEnable digestsMatch)
/-- The lost mark of a package is cleared (R482). -/
def State.clearLost (s : State) (p : BitVec 14) : State :=
  s.setFab { s.fab with lost := s.fab.lost.filter (· != p), silence := tdel s.fab.silence p.toNat }
/-- LOST_MARK_CLEAR (R471, R482). -/
def execLostMarkClear (pkg : BitVec 14) (s : State) : Out := .next (s.clearLost pkg)

/-! ### Links (R478) -/

/-- LINK_LANE_LOSS (R478): the link retrains. -/
def execLinkLaneLoss (link lane : Nat) (s : State) : Out :=
  match lget s.fab.lnksts link with
  | none => .next s
  | some w =>
    if linkState w != 2 || 4 ≤ lane || !bit (linkLanes w) lane then .next s
    else .next (s.setFab { s.fab with lnksts := lset s.fab.lnksts link (linkWith w 1 (linkWidth w) (linkLanes w - 2 ^ lane) 0) })
/-- A link ends its training with the lanes that are intact (R478, R481). The flits on it when it began have been retried: those for which
no credit has come back (R476). -/
def State.linkDone (s : State) (link lanes : Nat) : State :=
  match lget s.fab.lnksts link with
  | none => s
  | some w =>
    if linkState w != 1 then s
    else
      let width := if lanes == 15 then 2 else if lanes % 4 == 3 || lanes / 4 == 3 then 1 else 0
      let down := width == 0
      let w := linkRetry w (((tget s.fab.links link).map fun l => l.owed.sum).getD 0)
      let s := (s.setFab { s.fab with lnksts := lset s.fab.lnksts link (linkWith w (if width == 0 then 0 else 2) width lanes (if down then 1 else 0)) }).replane
      let rec_ := fun (c : Nat) (s : State) => s.errRecord { cause := c, sev := 0, unit := 6, uidx := link }
      let s := if width == 1 then rec_ cLinkDegraded s else if down then rec_ cLinkDown s else s
      if down && s.fab.lnksts.all fun x => linkState x == 0 then
        (s.setFab { s.fab with fenced := true }).errRecord { cause := cPkgFenced, sev := 3, unit := 10, uidx := s.pkg.toNat }
      else s
/-- LINK_RETRAIN_DONE (R478). -/
def execLinkRetrainDone (link : Nat) (lanes : BitVec 4) (s : State) : Out := .next (s.linkDone link lanes.toNat)

/-! ### Heartbeats and loss (R481-R483) -/

/-- HEARTBEAT_SEND (R481): on every up link. -/
def execHeartbeatSend (s : State) : Out :=
  if s.fab.fenced then .next s
  else .next (((s.fab.lnksts.zipIdx.filter fun l => linkState l.1 == 2).map (·.2)).foldl (fun s l => s.sendFlit 5 l 0) s)
/-- Traffic of package p is accepted (R471, R481, R482). -/
def Fabric.hears (f : Fabric) (p : BitVec 14) : Bool := f.en && !f.fenced && !f.lost.contains p
/-- A thread waits in a pod barrier. -/
def Thread.inPodBar (t : Thread) : Bool :=
  match t.status with
  | .waiting (.bar sc _) => sc == 5
  | _ => false
/-- Threads that wait in a pod barrier of group g leave it and trap with POD_BARRIER_LOST (R483). -/
def State.podLost (s : State) (g : Nat) : State :=
  let ws := ((s.blocks.filter fun (k : Block) => s.podOf k.launch == g).map fun k =>
    (k.threads.zipIdx.filter fun p => p.1.inPodBar).map fun p => (k.id, p.2)).flatten
  let s := { s with
    bars := s.bars.filter fun (v : BarInst) => !(v.scope == 5 && v.owner == g)
    fab := { s.fab with podArr := tdel s.fab.podArr g } }
  ws.foldl (fun s p =>
    let t := s.thread p.1 p.2
    if t.inPodBar then s.takeTrap p.1 p.2 ⟨cPodBarrierLost, 0, t.pc, t.pc, t.hdr, 0, false, false, true, t.pos⟩ else s) s
/-- Package p takes part in an entry's group: the root, an arrival counted, or as no register says (Config.podMember). -/
def State.podHas (s : State) (w : DWord) (p : BitVec 14) : Bool :=
  let gid := bits w.toNat 63 32
  bit w.toNat 0 && (bits w.toNat 31 18 == p.toNat || ((tget s.fab.podArr gid).getD []).contains p || Config.podMember gid p.toNat)
/-- A granule loses its remote dirty writer p: it is poisoned (R482). -/
def State.dropWriter (s : State) (p : BitVec 14) : State :=
  let hit := (s.fab.remoteDirty.filter fun e => e.2.contains p).map (·.1)
  let s := hit.foldl (fun s g => s.poisonGranule g) s
  s.setFab { s.fab with remoteDirty := (s.fab.remoteDirty.map fun (e : Nat × List (BitVec 14)) =>
    ((e.1, e.2.filter fun x => x != p) : Nat × List (BitVec 14))).filter fun e => !e.2.isEmpty }
/-- What this package holds of the memory of a lost package: its lines go, with nowhere to be written, and no fence awaits them
(notes/assumptions/13.md). -/
def State.dropLinesOf (s : State) (p : BitVec 14) : State :=
  let its := fun (g : Nat) => s.homePkg (g * 128) == p.toNat
  { s with
    cores := tmap (fun (k : Core) => { k with dirty := k.dirty.filter (fun d => !its d.1), copies := k.copies.filter (fun d => !its d.1) }) s.cores
    l2 := tmap (fun (t : Tbl Copy) => t.filter fun d => !its d.1) s.l2
    fences := s.fences.map fun (f : Fence) => { f with lines := f.lines.filter fun l => !its l.2 } }
/-- Package p is lost (R482): its dirty granules are poisoned, it is no sharer, its releases need no demand, its acknowledgements are no
longer awaited, and its own outstanding requests fail; the requests of this package that its memory has not answered land poisoned. -/
def State.losePkg (s : State) (p : BitVec 14) : State :=
  if s.fab.lost.contains p then s
  else
    let s := s.dropWriter p
    let s := { s with sync := tmap (fun (r : SyncRec) => if r.sv && r.rpkg == p && !r.fl then { r with fl := true } else r) s.sync }
    let s := s.setFab { s.fab with sharers := tmap (fun l => l.filter fun x => x != p) s.fab.sharers }
    let dead := (s.remotes.filter fun x => x.2.1.src == p).map (·.1)
    let s := { s with
      remotes := s.remotes.filter fun x => x.2.1.src != p
      fences := s.fences.filter fun (f : Fence) => match f.who with
        | .remoteReq i _ _ => !dead.contains i
        | _ => true }
    let s := s.dropLinesOf p
    let freed := s.fences.filter fun f => f.remote == some p
    let s := { s with fences := s.fences.filter fun (f : Fence) => f.remote != some p }
    let s := freed.foldl (fun s f => s.ackFence f.who) s
    let gone := s.reqs.filter fun (q : HomeReq) => s.homePkg q.pa == p.toNat
    let s := gone.foldl (fun s q => (s.dropReq q.id).landVal q (List.replicate ((q.width + 3) / 4) 0) true .none) s
    let s := s.setFab { s.fab with lost := s.fab.lost ++ [p] }
    let s := (s.fab.pbgtab.filter fun w => s.podHas w p).foldl (fun s w => s.podLost (bits w.toNat 63 32)) s
    s.errRecord { cause := cPkgLost, sev := 3, unit := 10, uidx := p.toNat }
/-- SILENCE_NOTICE (R481): with the notices of all 36 planes the package is lost. -/
def execSilenceNotice (pkg : BitVec 14) (plane : Nat) (s : State) : Out :=
  if 36 ≤ plane || !s.fab.en || s.fab.fenced || pkg == s.pkg then .next s
  else
    let set := (tget s.fab.silence pkg.toNat).getD 0 ||| (1#36 <<< plane)
    let s := s.setFab { s.fab with silence := tput s.fab.silence pkg.toNat set }
    .next (if set == BitVec.allOnes 36 then s.losePkg pkg else s)

/-! ### Pod barrier flits (R483) -/

/-- POD_ARRIVAL_FLIT: the root counts it. -/
def execPodArrivalFlit (gid : BitVec 32) (src : BitVec 14) (s : State) : Out :=
  if !s.fab.hears src then .next s
  else if s.fab.pbgtab.any fun w => bit w.toNat 0 && bits w.toNat 63 32 == gid.toNat && bits w.toNat 31 18 == s.pkg.toNat then
    .next (s.podArrive gid.toNat src.toNat)
  else .next s
/-- POD_RELEASE_FLIT: the phase in which this package has reported its arrival completes. -/
def execPodReleaseFlit (gid : BitVec 32) (s : State) : Out :=
  match s.bars.find? fun v => v.scope == 5 && v.owner == gid.toNat && v.arrived.contains (0, 0) with
  | some v => .next ((s.setBar { v with phase := v.phase + 1, arrived := [] }).releaseBar v v.phase)
  | none => .next s

/-! ### Energy (R484) -/

/-- The billing flit (R484). -/
def billingFlit (src orig : BitVec 14) (ctx : BitVec 10) (pj : Nat) : BitVec 256 :=
  BitVec.ofNat 256 (2 * 2 ^ 254 + src.toNat * 2 ^ 240 + orig.toNat * 2 ^ 226 + ctx.toNat * 2 ^ 216 + pj % 2 ^ 64 * 2 ^ 128)
/-- BILLING_SEND: the amount accumulated for a tag goes to its package. -/
def execBillingSend (pkg : BitVec 14) (ctx : BitVec 10) (s : State) : Out :=
  match tget s.fab.billing (tagKey pkg ctx) with
  | some pj =>
    if !s.fab.en || s.fab.fenced then .next s
    else
      let t := s.sendFlit 6 pkg.toNat (billingFlit s.pkg pkg ctx pj).toNat
      .next (t.setFab { t.fab with billing := tdel s.fab.billing (tagKey pkg ctx) })
  | none => .next s
/-- BILLING_FLIT (spec/21_power.md R514): whole nanojoules go to EREM, the remainder is carried. -/
def execBillingFlit (src : BitVec 14) (ctx : BitVec 10) (pj : BitVec 64) (s : State) : Out :=
  if !s.fab.hears src then .next s
  else
    let n := (tget s.power.remPj ctx.toNat).getD 0 + pj.toNat
    let e := (tget s.power.erem ctx.toNat).getD 0 + BitVec.ofNat 64 (n / 1000)
    .next { s with power := { s.power with remPj := tput s.power.remPj ctx.toNat (n % 1000), erem := tput s.power.erem ctx.toNat e } }

/-! ### Requests of other packages (R470, R479, R480) -/

/-- REMOTE_REQUEST (R470): an offset at or above the export size is refused with REMOTE_APERTURE. -/
def execRemoteRequest (q : RemoteReq) (s : State) : Out :=
  if !s.fab.hears q.src then .next s
  else if bits s.fab.expwin.toNat 63 56 * 2 ^ 30 ≤ q.off then .next (s.respond q 0 cRemoteAperture)
  else .next (s.takeRemote q (bits s.fab.expwin.toNat 51 12 * 4096 + q.off))
/-- DIRTY_NOTICE (R480): the home records the writer and acknowledges. -/
def execDirtyNotice (granule : Nat) (pkg : BitVec 14) (s : State) : Out :=
  if !s.fab.hears pkg || s.homePkg (granule * 128) != s.pkg.toNat then .next s
  else
    let l := (tget s.fab.remoteDirty granule).getD []
    let l := if l.contains pkg then l else l ++ [pkg]
    .next ((s.setFab { s.fab with remoteDirty := tput s.fab.remoteDirty granule l }).sendFlit 11 pkg.toNat granule)

end Sys2Proof.Machine
end

