-- ==== Sys2Proof/Machine/Save.lean ====
section
/-! DEFINITION. Pre-emption, saving and restoring blocks (spec/10_distributor.md R296-R299; spec/12_matrix.md R348; spec/14_narrows.md
R390). A saved block and its continuation records stand in the state itself. -/

namespace Sys2Proof.Machine

/-- The core of a block, or the partner of that core. -/
def Block.coreAt (k : Block) (p : Bool) : CoreRef := if p then CoreRef.partner k.core else k.core
/-- The reservations that a block holds: on its core, and, by a sequencer there, on the partner (spec/12_matrix.md R348). -/
def State.ownRes (s : State) (k : Block) : List (Bool × MatRes) :=
  ((if s.isShading k.core then [false, true] else [false]).filterMap fun p => (s.core (k.coreAt p)).res.map fun r => (p, r)).filter fun x => x.2.blk == k.id
/-- Save-area bytes that a block needs (R296, spec/12_matrix.md R348). -/
def State.saveNeed (s : State) (k : Block) : Nat :=
  k.regBytes + k.sram + 16384 + ((s.ownRes k).map fun x => x.2.size * 4096 + 73728).sum
/-- A drain of the block's core is to save it. -/
def State.beingSaved (s : State) (k : Block) : Bool :=
  let c := s.core k.core
  !k.saved && !k.relaunch && c.drain != 0 && c.drainLaunch == k.launch && c.drainAge.all fun a => k.placedAt ≤ a
/-- Room left in a context's save area: saved blocks take theirs, and so do the blocks that drains in progress are to save. -/
def State.saveRoom (s : State) (ctx : Nat) : Nat :=
  let mine := s.blocks.filter fun k => k.ctx == ctx
  let used := ((mine.filter fun k => k.saved).map fun k => k.regBytes + k.sram + 16384 + (k.mats.map fun m => m.2.res.size * 4096 + 73728).sum).sum
  let due := ((mine.filter fun k => s.beingSaved k).map fun k => s.saveNeed k).sum
  ((s.ctx ctx).map (·.savesize)).getD 0 - (used + due)
/-- The launch of lowest priority with blocks on a core (R296). -/
def State.victim (s : State) (c : CoreRef) : Option Nat :=
  let ls := (s.onCore c).filterMap fun k => (s.launch k.launch).map fun l => (l.prio.toNat, l.id)
  (ls.find? fun a => ls.all fun b => a.1 ≤ b.1).map (·.2)
/-- The blocks of a core that a drain is to save. -/
def State.victims (s : State) (c : CoreRef) : List Block :=
  (s.onCore c).filter fun k => k.launch == (s.core c).drainLaunch && (s.core c).drainAge.all fun a => k.placedAt ≤ a
/-- A core and, while it is half of a live pair, its partner: both are saved together (spec/12_matrix.md R348). -/
def State.saveCores (s : State) (c : CoreRef) : List CoreRef := if s.pairLive c then [c, CoreRef.partner c] else [c]
/-- The drain of launch l begins on a core, if the save area has room for its victims; `age` limits it to blocks placed by then. -/
def State.drainFor (s : State) (c : CoreRef) (l : Nat) (age : Option Nat) : State :=
  let cs := s.saveCores c
  let ks := (cs.map fun x => (s.onCore x).filter fun k => k.launch == l && age.all fun a => k.placedAt ≤ a).flatten
  let ctx := ((s.launch l).map (·.ctx)).getD 0
  if ks.isEmpty || cs.any (fun x => (s.core x).drain != 0) || s.saveRoom ctx < (ks.map fun k => s.saveNeed k).sum then s
  else cs.foldl (fun s x => s.setCore x { s.core x with drain := 1, drainLaunch := l, drainFrom := s.clock.ns, drainAge := age }) s
/-- PREEMPT (R296): the drain of a core begins. -/
def State.preempt (s : State) (c : CoreRef) : State :=
  match s.victim c with
  | none => s
  | some l => s.drainFor c l none
/-- PREEMPT (R296). -/
def execPreempt (core : CoreRef) (s : State) : Out := .next (s.preempt core)
/-- Grace of the context of a launch, in ns (R271). -/
def State.graceOf (s : State) (l : Nat) : Nat :=
  let g := (((s.launch l).bind fun x => s.ctx x.ctx).map (·.grace)).getD 0
  (if g == 0 then 50 else g) * 1000
/-- GRACE_EXPIRY (R296 step 2): the sequencers of the remaining blocks stop. -/
def execGraceExpiry (core : CoreRef) (s : State) : Out :=
  let c := s.core core
  if c.drain != 1 then .next s
  else
    let s := s.reachNs (c.drainFrom + s.graceOf c.drainLaunch)
    .next (s.setCore core { s.core core with drain := 2 })

/-- A request of a block that is being saved lands ST 3 (spec/14_narrows.md R385, R387). -/
def State.landRetry (s : State) (b : Nat) : State :=
  let mine := s.rgnReqs.filter fun (r : RgnReq) => r.blk == b
  let s := mine.foldl (fun s (r : RgnReq) => s.modThread b r.tl fun t => { t with ops := t.ops.map fun (o : SlotOp) =>
    if o.id == r.op then { o with val := some (BitVec.ofNat 32 (3 * 2 ^ 30) :: List.replicate (o.regs.length - 1) 0) } else o }) s
  { s with rgnReqs := s.rgnReqs.filter fun (r : RgnReq) => r.blk != b }
/-- Blocks whose core is past step 2 have their waiting region requests answered (step 3). -/
def State.settleSaves (s : State) : State :=
  (s.rgnReqs.map (·.blk)).foldl (fun s b => match s.block b with
    | some k => if (s.core k.core).drain == 2 && (s.core k.core).drainLaunch == k.launch then s.landRetry b else s
    | none => s) s

/-- A keyed MRESV that waits for its partner runs no longer than anything: it is captured (spec/12_matrix.md R334, R348). -/
def EngOp.waits (o : EngOp) : Bool := o.kind == .mresv && o.started && o.due.isNone
/-- A block can be saved: nothing of it issues, no slot is set, no arrival is on its way, and no matrix operation and no CTLOAD of it
runs (steps 1, 3, 4; spec/11_copy.md R320). -/
def State.canSave (s : State) (k : Block) : Bool :=
  !(s.opens.any fun (o : Open) => match o with
    | .grp g => g.blk == k.id
    | .seq _ _ => false) &&
    k.threads.all (fun t => t.ops.isEmpty && t.phases == 0) && !(s.pushes.any fun (p : PendPush) => p.blk == k.id) && !(s.fronts.any fun (r : MdReq) => r.blk == k.id) &&
    !(s.later.any fun (x : Later) => x.blk == k.id) && !(s.fences.any fun (f : Fence) => match f.who with
      | .barrier b _ _ _ _ => b == k.id
      | _ => false) &&
    !(s.engs.any fun (o : EngOp) => o.blk == k.id && !o.saved && (o.kind == .ctload || (o.kind.unit == 1 && o.started && !o.waits)))
/-- The matrix state of a core as it is saved. -/
def savedMat (c : Core) (r : MatRes) : SavedMat :=
  ⟨r, c.obuf, c.acc0, c.acc1, c.codebooks, c.stick0, c.stick1, c.chkn⟩
/-- A sequencer with its cycle counts made relative. -/
def Sequencer.freeze (q : Sequencer) (cyc : Nat) : Sequencer := { q with scyc0 := q.scyc0 - cyc, waitFrom := q.waitFrom - cyc, due := none }
def Sequencer.thaw (q : Sequencer) (cyc : Nat) : Sequencer := { q with scyc0 := q.scyc0 + cyc, waitFrom := q.waitFrom + cyc }
/-- The sequencers that a block owns, on its core and on the partner. -/
def State.ownSeqs (s : State) (k : Block) : List (Bool × SeqKind × Sequencer) :=
  let of := fun (p : Bool) (c : CoreRef) => ([(p, (.copy : SeqKind), s.sq c .copy), (p, .matrix, s.sq c .matrix)].filter fun x =>
    (x.2.2.running || x.2.2.draining) && x.2.2.owner == k.id).map fun x => (x.1, x.2.1, x.2.2.freeze (s.quad c).cyc)
  of false k.core ++ (if s.isShading k.core then of true (CoreRef.partner k.core) else [])
/-- PROG of a captured operation (R297; spec/11_copy.md R320, spec/12_matrix.md R348, spec/16_ray.md R417). -/
def EngOp.progWord (o : EngOp) : Nat := if o.kind.eng == 2 then o.prog * 2 ^ 32 + o.spos else o.prog
/-- Class and opcode of the instruction that issued it (spec/11_copy.md R303, spec/12_matrix.md R331, spec/16_ray.md R412). -/
def EngOp.opc (o : EngOp) : Nat :=
  let op := match o.kind with
    | .cpy => 0x00
    | .cpyg => 0x01
    | .cpys => 0x02
    | .cpyfill => 0x03
    | .ctload => 0x04
    | .decent => 0x05
    | .decbr => 0x06
    | .mresv => 0x10
    | .mrels => 0x11
    | .mload => 0x12
    | .mcbl => 0x13
    | .mma => 0x14
    | .mmai => 0x15
    | .mzero => 0x16
    | .mstore => 0x17
    | .mstat => 0x18
    | .mchk => 0x19
    | .rayq => 0x20
  if o.seq.isNone then 0x300 + op else 0x440 + op
/-- The continuation record of an operation: 512 bits (R297). -/
def EngOp.contRec (o : EngOp) : Nat :=
  (o.desc.zipIdx.map fun p => p.1 * 2 ^ (32 * p.2)).sum * 2 ^ 256 + o.progWord * 2 ^ 192 + o.bo * 2 ^ 160 + o.opc * 2 ^ 128 + o.md * 2 ^ 114
/-- The parked threads of a fragment: linear index and pointer. -/
def Block.parkedOf (k : Block) (fid : BitVec 16) : List (Nat × DWord) :=
  k.threads.zipIdx.filterMap fun p => match p.1.status with
    | .parked _ a => if p.1.fid == fid then some (p.2, a) else none
    | _ => none
/-- The parked-fragment records of a block: 256 bits each (R297). -/
def Block.fragRecs (k : Block) : List Nat :=
  (nub k.liveFids).filterMap fun fid => match k.parkedOf fid with
    | [] => none
    | (tl, a) :: r =>
      let mask := (nub (((tl, a) :: r).map fun x => (k.thread x.1).pos)).map fun i => 2 ^ i
      some ((k.thread tl).pc.toNat * 2 ^ 192 + a.toNat * 2 ^ 128 + cPageMoving * 2 ^ 118 + fid.toNat * 2 ^ 96 + mask.sum)
/-- Steps 4 to 7 of R296 for one block. -/
def State.saveBlock (s : State) (k : Block) : State :=
  let cyc := (s.quad k.core).cyc
  let seqs := s.ownSeqs k
  let mats := (s.ownRes k).map fun x => (x.1, savedMat (s.core (k.coreAt x.1)) x.2)
  let mine := s.engs.filter fun (o : EngOp) => o.blk == k.id
  let s := { s with
    engs := s.engs.map fun (o : EngOp) => if o.blk == k.id then { o with saved := true, due := none, started := false } else o
    opens := s.opens.filter fun (o : Open) => match o with
      | .grp _ => true
      | .seq x kd => (s.sq x kd).owner != k.id
    cores := tmap (fun (x : Core) => { x with
      cseq := if x.cseq.owner == k.id then {} else x.cseq
      mseq := if x.mseq.owner == k.id then {} else x.mseq
      res := x.res.filter fun (r : MatRes) => r.blk != k.id }) s.cores }
  s.modBlock k.id fun k => { k with
    saved := true, seqs := seqs, mats := mats, conts := mine.map (·.contRec), frags := k.fragRecs
    threads := k.threads.map fun (t : Thread) => { t with waitBase := t.waitBase + (cyc - t.waitFrom), stallDone := true } }
/-- Step 6: the context's dirty lines of the core are written back, its copies invalidated. -/
def State.flushCore (s : State) (c : CoreRef) (ctx : Nat) : State :=
  let s := ((s.linesOf c fun _ d => d.ctx == ctx)).foldl (fun s p => s.arriveWb p.1 p.2) s
  let k := s.core c
  s.setCore c { k with copies := k.copies.filter fun (p : Nat × Copy) => p.2.ctx != ctx }
/-- Save the victims of some cores and free the cores. -/
def State.saveAll (s : State) (cs : List CoreRef) : State :=
  let ks := (cs.map fun c => s.victims c).flatten
  let s := ks.foldl (fun s k => s.saveBlock k) s
  let s := ks.foldl (fun s k => s.barCheckAll k.launch (s.podOf k.launch)) s
  cs.foldl (fun s c =>
    let ctx := ((s.launch (s.core c).drainLaunch).map (·.ctx)).getD 0
    let s := s.flushCore c ctx
    (s.setCore c { s.core c with drain := 0 }).quadAfter (s.quadKeyOf c)) s
/-- ENGINE_DRAIN_EXPIRY (R296 steps 3 to 7). -/
def execEngineDrainExpiry (core : CoreRef) (s : State) : Out :=
  let c := s.core core
  let cs := s.saveCores core
  let ks := (cs.map fun x => s.victims x).flatten
  if c.drain != 2 || cs.any (fun x => (s.core x).drain != 2) || ks.any (fun k => !s.canSave k) then .next s
  else
    let busy := s.engs.any fun (o : EngOp) => ks.any fun k => k.id == o.blk
    let s := if busy then s.reachNs (c.drainFrom + s.graceOf c.drainLaunch + 20000) else s
    .next (s.saveAll cs)
/-- A drain with nothing left to save ends (step 1: blocks that end within the grace are not saved). -/
def State.settleDrains (s : State) : State :=
  { s with cores := s.cores.map fun (p : Nat × Core) =>
      if p.2.drain != 0 && (s.victims (coreOfKey p.1)).isEmpty then (p.1, { p.2 with drain := 0 }) else p }

/-! ### Restoring (R298) -/

/-- The saved block of the other half of a saved pair. -/
def State.savedMate (s : State) (k : Block) : Option Block :=
  k.mats.findSome? fun m => if m.2.res.key == 0 then none else
    s.blocks.find? fun x => x.id != k.id && x.saved && x.ctx == k.ctx &&
      x.mats.any fun y => y.2.res.key == m.2.res.key && x.coreAt y.1 == CoreRef.partner (k.coreAt m.1)
/-- A core meets R50, the context's timing, the rectangle, the routing tables, the stage and the region of a saved block. -/
def State.canRestore (s : State) (k : Block) (c : CoreRef) : Bool :=
  match s.launch k.launch with
  | none => false
  | some l =>
    s.coreOpen c (s.launchFixed l) (((lget l.kernels k.kernel).map (·.samp)).getD false) (((lget l.kernels k.kernel).map (·.pair)).getD false) && (s.rectOf l).contains c &&
      l.awaits.isNone && k.evicted != some (s.quadKeyOf c) && fitsBeside (s.onCore c) k.sram k.regBytes k.nthreads && (k.region.isNone || c.die == k.core.die) &&
      (l.podgrp == 0 || s.fab.pbgtab.any fun w => bit w.toNat 0 && (w.extractLsb' 32 32) == l.podgrp) &&
      (l.stageK.isEmpty || tget l.coreStage (coreKey c) == some k.stage) &&
      (k.mats.all fun m => (s.core (if m.1 then CoreRef.partner c else c)).res.isNone) &&
      (c.num % 2 == k.core.num % 2 || ((s.savedMate k).isNone && k.mats.length ≤ 1)) &&
      k.seqs.all fun q => (s.sq (if q.1 then CoreRef.partner c else c) q.2.1).isIdle
/-- The arrivals of a thread at quad or die barriers go with its block to another quad or die (spec/08_core_sync.md R234, R249): a
phase that has completed there is marked so; in one that has not, the thread has arrived in the current phase of the instance that it
now belongs to (notes/assumptions/55.md). -/
def State.carryArrival (s : State) (k : Block) (c : CoreRef) (tl : Nat) (a : BarArr) : State :=
  let old := s.barInst k a.scope
  let new := s.barInst { k with core := c } a.scope
  if (a.scope != 2 && a.scope != 3) || old == new then s
  else
    let put := fun (s : State) (x : BarArr) => s.modThread k.id tl fun t => { t with bars := t.bars.map fun y => if y == a then x else y }
    if s.barDone k a then put s { a with done := true }
    else
      let v := s.barOf a.scope old.1 old.2 a.bid
      let s := s.setBar { v with arrived := v.arrived.filter fun p => p != (k.id, tl) }
      let w := s.barOf a.scope new.1 new.2 a.bid
      put (s.setBar { w with arrived := w.arrived ++ [(k.id, tl)] }) { a with phase := w.phase }
/-- Every arrival of a block. -/
def State.carryArrivals (s : State) (k : Block) (c : CoreRef) : State :=
  k.threads.zipIdx.foldl (fun s p => p.1.bars.foldl (fun s a => s.carryArrival k c p.2 a) s) s
/-- Put a saved block back on a core: memory and registers, continuations, sequencers (R298 steps 1 to 4). -/
def State.restoreOn (s : State) (k : Block) (c : CoreRef) : State :=
  let cyc := (s.quad c).cyc
  let at_ := fun (p : Bool) => if p then CoreRef.partner c else c
  let s := s.carryArrivals k c
  let s := { s with engs := s.engs.map fun (o : EngOp) => if o.blk == k.id && o.saved then { o with saved := false, core := at_ (o.core != k.core) } else o }
  let s := k.seqs.foldl (fun s q => s.setSq (at_ q.1) q.2.1 (q.2.2.thaw (s.quad (at_ q.1)).cyc)) s
  let s := k.mats.foldl (fun s m => s.setCore (at_ m.1) { s.core (at_ m.1) with
    res := some m.2.res, obuf := m.2.obuf, acc0 := m.2.acc0, acc1 := m.2.acc1, codebooks := m.2.codebooks, stick0 := m.2.stick0,
    stick1 := m.2.stick1, chkn := m.2.chkn }) s
  let s := s.modBlock k.id fun k => { k with
    saved := false, core := c, seqs := [], mats := [], conts := [], frags := [], evicted := none, placedAt := s.clock.ns
    threads := k.threads.map fun (t : Thread) => { t with
      waitFrom := cyc, clauseEnd := cyc
      status := match t.status with
        | .parked _ _ => .ready
        | x => x } }
  match s.launch k.launch with
  | some l => s.dispatch l c
  | none => s
/-- Step 5: blocked threads re-evaluate their waits (spec/08_core_sync.md R249). -/
def State.rewake (s : State) (b : Nat) : State :=
  match s.block b with
  | some k => ((List.range k.threads.length).foldl (fun s tl => s.retryWait b tl) s).barCheckAll k.launch (s.podOf k.launch)
  | none => s
/-- BLOCK_RESTORE (R298): the two blocks of a live pair are restored together onto one quad. -/
def State.restore (s : State) (b : Nat) (c : CoreRef) : State :=
  match s.block b with
  | none => s
  | some k =>
    if !k.saved || !s.canRestore k c then s
    else
      let fixed := s.blockFixed k
      let key := s.quadKeyOf c
      if fixed && (s.quadAt key).clock != .pinned then s.setQuad key ((s.quadAt key).dispatch true)
      else
        match s.savedMate k with
        | none => (s.restoreOn k c).rewake b
        | some m =>
          let p := CoreRef.partner c
          if !s.canRestore m p then s else (((s.restoreOn k c).restoreOn m p).rewake b).rewake m.id
/-- BLOCK_RESTORE (R298). -/
def execBlockRestore (blk : Nat) (core : CoreRef) (s : State) : Out := .next (s.restore blk core)

end Sys2Proof.Machine
end

