-- ==== Sys2Proof/Machine/Reliab.lean ====
section
/-! DEFINITION. The events of the reliability controller: uncorrectable and corrected errors, patrol reads, relaunch of a rolled-back
block, loss of a die (spec/20_reliability.md R486-R501, spec/18_cache.md R467). -/

namespace Sys2Proof.Machine

def cSharePoison : Nat := 0x092

/-! ### A rollback cause strikes a block (R493-R495) -/

/-- A rollback of the block fails its launch (R493, R494). -/
def State.strikeFails (s : State) (k : Block) : Bool :=
  k.nonRollback || (2 ≤ k.rollbacks && !k.relaunch) || (match (s.pairBlock k.id).bind s.block with
    | some o => o.nonRollback
    | none => false)
/-- The trap record of a block that is struck while thread tl runs. -/
def strikeTw (t : Thread) (cause : Nat) : List DWord := [tw0Of cause false false false false t.pos t.preds 0, t.pc, t.pc, 0]
/-- A cause counts against its core: two within 1 s mark it faulty (R494). -/
def State.countStrike (s : State) (c : CoreRef) : State :=
  let twice := s.errs.strikes.any fun e => e.1 == coreKey c && decide (s.clock.ns ≤ e.2 + 1000000000)
  let s := { s with errs := { s.errs with strikes := (coreKey c, s.clock.ns) :: s.errs.strikes } }
  if twice then s.setCore c { s.core c with faulty := true } else s
/-- A cause strikes block b: its error record, and the rollback or the end of its launch. -/
def State.strike (s : State) (b tl cause unit uidx addr : Nat) : State :=
  match s.block b with
  | none => s
  | some k =>
    if k.saved || k.relaunch then s else
    let s := s.errRecord { cause := cause, sev := if s.strikeFails k then 2 else 1, die := k.core.die, core := k.core.num, unit := unit, uidx := uidx,
                           ctx := k.ctx, addr := addr, launch := k.launch }
    let s := if cause == cUncorrectable || cause == cLaneMismatch then s.countStrike k.core else s
    s.rollback b cause (strikeTw (k.thread tl) cause)

/-! ### Sites (R488) -/

/-- The unit fields of a site: die, core, unit, index. The spec does not say which channel holds a granule: a free value. -/
def State.siteOf (s : State) (e : ErrSite) : Nat × Nat × Nat × Nat :=
  let onBlock := fun b => match s.block b with
    | some k => (k.core.die, k.core.num, 0, 0)
    | none => (0x1F, 0x7F, 0, 0)
  match e with
  | .blockState b _ => onBlock b
  | .lanePair b _ => onBlock b
  | .dirtyLine c _ _ _ => (c.die, c.num, 1, 0)
  | .tagEntry g => let sl := s.dieMap.homeSlice (g * 128); (sl.1, 0x7F, 4, sl.2)
  | .memory g => ((s.dieMap.homeSlice (g * 128)).1, 0x7F, 5, s.freeVal.toNat % 8)
  | .share l2 die bank _ _ => (die, 0x7F, if l2 then 2 else 3, bank)
  | .engineOp op _ => match s.engs.find? fun (o : EngOp) => o.id == op with
    | some o => (o.core.die, o.core.num, 0, 0)
    | none => (0x1F, 0x7F, 0, 0)
  | .other die core unit uidx => (die, core, unit, uidx)
/-- The record of a site without a block. -/
def State.siteRecord (s : State) (e : ErrSite) (cause sev addr : Nat) : State :=
  let u := s.siteOf e
  s.useFree.errRecord { cause := cause, sev := sev, die := u.1, core := u.2.1, unit := u.2.2.1, uidx := u.2.2.2, addr := addr }
/-- A dirty line of a core is gone: its granule is poisoned (R487, R488). -/
def State.loseLine (s : State) (c : CoreRef) (g : Nat) : State :=
  let k := s.core c
  let s := s.setCore c { k with dirty := tdel k.dirty g, copies := tdel k.copies g }
  { s.poisonGranule g with fences := s.fences.map fun (f : Fence) => { f with lines := f.lines.filter fun p => !(p.1 == c && p.2 == g) } }
/-- An uncorrectable tag entry: its granule is poisoned, every copy is invalidated, the entry is gone. -/
def State.loseEntry (s : State) (g : Nat) : State :=
  let s := (s.dirtyCores g).foldl (fun s k => s.loseLine (coreOfKey k) g) s
  let s := (s.dropAll g).poisonGranule g
  { s with sync := tdel s.sync g }
/-- A share leaves the map of the VC that holds it (spec/18_cache.md R467). -/
def State.dropShare (s : State) (x : Bool × Nat × Nat × Nat) : State :=
  s.ctxs.foldl (fun s c => c.2.vcs.foldl (fun s v =>
    if v.2.v && v.2.shares.contains x then
      let w0 := v.2.w0.toNat
      s.putVc c.1 v.1 { v.2 with
        shares := v.2.shares.filter fun y => y != x
        old := v.2.old.map fun (l : List (Bool × Nat × Nat × Nat)) => l.filter fun y => y != x
        lost := v.2.lost + 1
        w0 := if x.1 then cdrWithCounts w0 (cdrL2 w0 - 1) (cdrLl w0) else cdrWithCounts w0 (cdrL2 w0) (cdrLl w0 - 1) }
    else s) s) s
/-- An uncorrectable error in a share that holds dirty bytes, or in clean data (spec/18_cache.md R467). -/
def State.loseShare (s : State) (l2 : Bool) (die bank way : Nat) (dirty : List Nat) : State :=
  if dirty.isEmpty then s.dropBank die (fun _ => true) fun _ => false
  else
    let s := dirty.foldl (fun s g =>
      let cs := (s.dirtyCores g).filter fun c => c / 128 == die
      (cs.foldl (fun s c => s.loseLine (coreOfKey c) g) s).poisonGranule g) s
    let x := (l2, die, bank, way)
    let s := { s with badShares := if s.badShares.contains x then s.badShares else s.badShares ++ [x] }
    (s.dropShare x).errRecord { cause := cSharePoison, sev := 1, die := die, unit := if l2 then 2 else 3, uidx := bank, addr := (dirty.head?.getD 0) * 128 }
/-- An engine operation meets an uncorrectable error at byte x of what it reads or writes (R490; spec/11_copy.md R319, spec/12_matrix.md
R349, spec/16_ray.md R415): it reports DATA_LOST. In an operand buffer the byte is poisoned, in a tile its first element. -/
def State.engStruck (s : State) (o : EngOp) (x : Nat) : State :=
  match o.kind.unit with
  | 0 => s.engFail o cDataLost x
  | 1 =>
    let c := s.core o.core
    let base := 4096 * ((c.res.map (·.base)).getD 0)
    let c := if o.kind == .mstore then { c with tilePoison := sins c.tilePoison (8192 * (o.reg 1 % 2)) }
      else if isPairOp o.kind then { c with obPoison := sins c.obPoison (base + x) } else c
    ((s.setCore o.core c).matFail { o with cause := cDataLost }).engDone o 0 cDataLost 0
  | _ => s.engDone o 0 cDataLost x
/-- An uncorrectable error at a site (R488, R493); `access` is false for a patrol read, which has no accessing block. -/
def State.uncorrectable (s : State) (e : ErrSite) (access : Bool) : State :=
  match e with
  | .blockState b tl => s.strike b tl cUncorrectable 0 0 0
  | .lanePair b tl =>
    if ((s.block b).bind fun k => (s.launch k.launch).map (·.prot)) == some true then s.strike b tl cLaneMismatch 0 0 0 else s
  | .dirtyLine c g b tl =>
    if (tget (s.core c).dirty g).isNone then s
    else
      let s := s.loseLine c g
      if access && ((s.block b).map (·.core)) == some c then s.strike b tl cUncorrectable 1 0 (g * 128)
      else s.siteRecord e cUncorrectable 1 (g * 128)
  | .tagEntry g => (s.loseEntry g).siteRecord e cUncorrectable 1 (g * 128)
  | .memory g => (s.poisonGranule g).siteRecord e cUncorrectable 1 (g * 128)
  | .share l2 die bank way dirty => s.loseShare l2 die bank way dirty
  | .engineOp op x =>
    match s.engs.find? fun (o : EngOp) => o.id == op && !o.saved with
    | some o => (s.engStruck o x).strike o.blk 0 cUncorrectable 0 0 0
    | none => s
  | .other _ _ _ _ => s.siteRecord e cUncorrectable 1 0
/-- UNCORRECTABLE_ERROR (R493). -/
def execUncorrectableError (site : ErrSite) (s : State) : Out := .next (s.uncorrectable site true)
/-- CORRECTED (R488): the error is only counted. -/
def execCorrected (site : ErrSite) (s : State) : Out := .next (s.siteRecord site cCorrected 0 0)
/-- SCRUB (R488): what a patrol read finds. -/
def execScrub (found : List ErrSite) (s : State) : Out := .next (found.foldl (fun s e => s.uncorrectable e false) s)

/-! ### Relaunch (R493 step 5, R494) -/

/-- n free bytes as a memory. -/
def freeMem (free n : Nat) : Mem :=
  (List.range n).filterMap fun i =>
    let b : Byte := (Config.freeValue (free + i)).setWidth 8
    if b == memDefault then none else some (i, b)
/-- A rolled-back block may be relaunched on a core. -/
def State.canRelaunch (s : State) (k : Block) (c : CoreRef) : Bool :=
  match s.launch k.launch with
  | some l =>
    k.relaunch && l.outState == 0 && l.state == .running && (s.rectOf l).contains c && k.struck != some (s.quadKeyOf c) &&
      s.coreOpen c (s.launchFixed l) (((lget l.kernels k.kernel).map (·.samp)).getD false) (((lget l.kernels k.kernel).map (·.pair)).getD false) && fitsBeside (s.onCore c) k.sram k.regBytes k.nthreads &&
      (l.stageK.isEmpty || tget l.coreStage (coreKey c) == some k.stage)
  | none => false
/-- BLOCK_RELAUNCH: from its first clause, with the launch arguments, the constant bank, fresh mappings; local and private memory hold
unspecified values. -/
def State.relaunch (s : State) (k : Block) (c : CoreRef) : State :=
  match (s.launch k.launch).bind fun l => (lget l.kernels k.kernel).map fun x => (l, x) with
  | none => s
  | some (l, x) =>
    let f := s.clock.free
    let ts := startThreads l x x.threads
    let s := { s with clock := { s.clock with free := f + k.localSize + ts.length * k.privSize } }
    let s := s.modBlock k.id fun k => { k with
      core := c, relaunch := false, placedAt := s.clock.ns
      kregs := (List.range 64).map fun i => BitVec.ofNat 32 (s.bankWord l (4 * i))
      lmem := freeMem f k.localSize
      threads := ts.zipIdx.map fun (p : Thread × Nat) => { p.1 with pmem := freeMem (f + k.localSize + p.2 * k.privSize) k.privSize } }
    s.dispatch l c
/-- BLOCK_RELAUNCH (R494). -/
def execBlockRelaunch (blk : Nat) (core : CoreRef) (s : State) : Out :=
  match s.block blk with
  | some k => if s.canRelaunch k core then .next (s.relaunch k core) else .next s
  | none => .next s

/-! ### Dies (R496) -/

/-- A lost stacked die: its caches are gone, dirty bytes poison their granules, and the releases of its cores need no demand. -/
def State.loseDie (s : State) (die : Nat) : State :=
  let cs := s.cores.filter fun c => c.1 / 128 == die
  let s := cs.foldl (fun s c => (c.2.dirty.map (·.1)).foldl (fun s g => s.loseLine (coreOfKey c.1) g) s) s
  { s with
    lostDies := s.lostDies ++ [die]
    cores := s.cores.map fun (p : Nat × Core) => if p.1 / 128 == die then (p.1, { p.2 with copies := [], tlb := [] }) else p
    l2 := tdel s.l2 die
    tlb2 := tdel s.tlb2 die
    sync := tmap (fun (r : SyncRec) => if r.sv && !r.fl && r.rpkg == s.pkg && r.rdie.toNat == die then { r with fl := true } else r) s.sync }
/-- DIE_LOST (R496): blocks of a stacked die are rolled back or their launches fail; a base die is handled as its package. -/
def execDieLost (die : Nat) (s : State) : Out :=
  if s.lostDies.contains die || s.dieMap.ndie ≤ die then .next s
  else
    let s := s.errRecord { cause := cDieLost, sev := 3, die := die, unit := 7 }
    if s.dieMap.isSd die || s.dieMap.isGd die then
      let bs := s.blocks.filter fun k => k.core.die == die && !k.saved && !k.relaunch
      .next (bs.foldl (fun s k => s.rollback k.id cDieLost (strikeTw (k.thread 0) cDieLost)) (s.loseDie die))
    else
      let s := { s with lostDies := s.lostDies ++ [die], fab := { s.fab with fenced := true } }
      .next ((s.launches.filter fun l => l.state != .ended).foldl (fun s l => s.failLaunch l.id cDieLost (strikeTw {} cDieLost)) s)

end Sys2Proof.Machine
end

