-- ==== Sys2Proof/Machine/Power.lean ====
section
/-! DEFINITION. The events of the power controller: pass-counts, droops, regulators, temperatures, energy (spec/21_power.md R502-R515).
Readings of the analogue world come with the events. -/

namespace Sys2Proof.Machine

def cRegFailed : Nat := 0x3C0
def cThermalLimit : Nat := 0x3C1
def cThermalTrip : Nat := 0x3C2
def cDroopLimit : Nat := 0x3C3

/-! ### Registers and floors (R504, R509) -/

def Power.plim (p : Power) : Nat := bits p.pwrlim.toNat 63 48
def Power.tlim (p : Power) : Int := bits p.pwrlim.toNat 47 40
def Power.glim (p : Power) : Int := bits p.pwrlim.toNat 39 32
def Power.swpat (p : Power) : Nat := bits p.pwrlim.toNat 15 0
def State.quadPower (s : State) (key : Nat) : QuadPower := (tget s.power.quads key).getD {}
def State.setQuadPower (s : State) (key : Nat) (q : QuadPower) : State := { s with power := { s.power with quads := tput s.power.quads key q } }
/-- Quads of a stacked die. -/
def DieMap.nquads (m : DieMap) (die : Nat) : Nat := if m.isSd die then 24 else if m.isGd die then 8 else 0
/-- The base die beneath a stacked die (spec/01_package.md R23). -/
def DieMap.baseOf (m : DieMap) (die : Nat) : Nat := bits (m.word die 0) 60 56
/-- A regulator of a quad has failed. -/
def State.quadReg (s : State) (die q : Nat) : Bool :=
  (List.range 48).any fun r => bit (s.diePower die).regfail.toNat r && s.dieMap.regQuad die r == q
/-- A base-die sensor beneath the die, or beneath the other die above that base die, reads above 95 °C (R512). -/
def State.baseHot (s : State) (die : Nat) : Bool :=
  s.power.quads.any fun e => e.2.base == 2 && s.dieMap.baseOf (e.1 / 64) == s.dieMap.baseOf die
/-- The floor F of a quad (R509). -/
def State.floorOf (s : State) (die q : Nat) : Nat :=
  let p := s.quadPower (quadKey die q)
  max (if s.quadReg die q || p.droopUntil.isSome || p.over12 || s.baseHot die then 2 else 1) p.thermal
/-- The pass-count of a quad, and its encoding (spec/02_execution.md R39). -/
def Quad.p (q : Quad) : Nat := 2 ^ q.pass.toNat
def passCode (p : Nat) : BitVec 2 := if p ≤ 1 then 0 else if p == 2 then 1 else 2
/-- Change the pass-count of a quad (R38, R39). -/
def State.setPass (s : State) (key p : Nat) : State :=
  let q := s.quadAt key
  if q.pass == passCode p then s else s.setQuad key { q with pass := passCode p, chg := q.chg + 1 }
/-- Fixed-timing blocks resident on a quad. -/
def State.fixedOn (s : State) (key : Nat) : List Block := s.blocks.filter fun k => !k.saved && !k.relaunch && s.quadKeyOf k.core == key && s.blockFixed k
/-- Fixed-timing blocks saved from a quad so that its pass-count may rise, and not yet restored on another. -/
def State.awayFrom (s : State) (key : Nat) : List Block := s.blocks.filter fun k => k.saved && k.evicted == some key
/-- The pass-count of a quad may rise: no fixed-timing block is there, and those that were have been restored elsewhere (R40). -/
def State.mayRaise (s : State) (key : Nat) : Bool := (s.fixedOn key).isEmpty && (s.awayFrom key).isEmpty
/-- P is raised to n: at once, or, while fixed-timing blocks are there, after they have been saved and restored on another quad
(spec/02_execution.md R40). -/
def State.raisePass (s : State) (key n : Nat) : State :=
  if s.mayRaise key then s.setPass key n
  else (s.fixedOn key).foldl (fun s k =>
    let s := s.drainFor k.core k.launch none
    if s.beingSaved k then s.modBlock k.id fun k => { k with evicted := some key } else s) s
/-- The pass-count of a quad need not rise: the blocks saved for it may come back. -/
def State.letBack (s : State) (key : Nat) : State :=
  if s.blocks.any fun k => k.evicted == some key then
    { s with blocks := s.blocks.map fun (k : Block) => if k.evicted == some key then { k with evicted := none } else k }
  else s
/-- Every quad stands at its floor or above, as soon as it may. -/
def State.settlePower (s : State) : State :=
  s.power.quads.foldl (fun s e =>
    let die := e.1 / 64
    let low := decide ((s.quadAt e.1).p < s.floorOf die (e.1 % 64))
    let s := if low then s.raisePass e.1 (s.floorOf die (e.1 % 64)) else s
    if !(s.quadPower e.1).raise then (if low then s else s.letBack e.1)
    else if s.mayRaise e.1 then (s.setPass e.1 (min 4 (2 * (s.quadAt e.1).p))).setQuadPower e.1 { s.quadPower e.1 with raise := false }
    else s.raisePass e.1 4) s
/-- A power record of a quad (R515). -/
def State.quadRecord (s : State) (die q cause sev : Nat) : State :=
  s.errRecord { cause := cause, sev := sev, die := die, core := (((s.dieMap.quadCores die q).head?).map (·.num)).getD 0x7F, unit := 0, uidx := q }
/-- The blocks of a quad are rolled back with REGION_DARK, or their launches fail (spec/20_reliability.md R497). -/
def State.darken (s : State) (key : Nat) : State :=
  (s.blocks.filter fun k => !k.saved && !k.relaunch && s.quadKeyOf k.core == key).foldl (fun s k => s.strike k.id 0 cRegionDark 0 (key % 64) 0) s

/-! ### Evaluation (R510) -/

/-- The budget of a stacked die, in mW. -/
def State.budget (s : State) (die : Nat) : Nat := s.power.plim * (if s.dieMap.isGd die then 120 else 300) * 1000 / 3600
/-- Insert by a measure, the greater first; a tie keeps the lower number first. -/
def byPower (mw : Nat → Nat) (q : Nat) : List Nat → List Nat
  | [] => [q]
  | x :: r => if mw x < mw q then q :: x :: r else x :: byPower mw q r
/-- POWER_EVALUATION (R510). -/
def execPowerEvaluation (die : Nat) (m : PowerReading) (s : State) : Out :=
  let s := { s with power := { s.power with pkgw := BitVec.ofNat 16 (m.packageMw / 1000) } }
  let qs := List.range (s.dieMap.nquads die)
  let mw := fun q => (lget m.quadMw q).getD 0
  let s := qs.foldl (fun s q =>
    let key := quadKey die q
    let ovr := m.overCurrent.contains q
    if (s.quadPower key).over12 == ovr then s else s.setQuadPower key { s.quadPower key with over12 := ovr }) s
  if qs.isEmpty then .next s
  else
    let p := fun q => (s.quadAt (quadKey die q)).p
    let high := qs.foldl (fun l q => byPower mw q l) []
    let eligible := high.filter fun q => p q < 4 && s.mayRaise (quadKey die q) && !(s.quadAt (quadKey die q)).clock.isPinned
    if s.budget die < m.dieMw then
      if m.over105For1ms && eligible.isEmpty then
        .next ((qs.filter fun q => !(s.fixedOn (quadKey die q)).isEmpty).foldl (fun s q =>
          s.setQuadPower (quadKey die q) { s.quadPower (quadKey die q) with raise := true }) s)
      else .next ((eligible.take 4).foldl (fun s q => s.setPass (quadKey die q) (2 * (s.quadAt (quadKey die q)).p)) s)
    else if m.below90For1ms then
      let low := (qs.foldl (fun l q => byPower (fun q => (m.quadMw.foldl max 0) - mw q) q l) []).filter fun q => s.floorOf die q < p q
      .next ((low.take 4).foldl (fun s q => s.setPass (quadKey die q) ((s.quadAt (quadKey die q)).p / 2)) s)
    else .next s

/-! ### Energy (R514) -/

/-- Add nanojoules to the count of a context. -/
def addNj (t : Tbl DWord) (c n : Nat) : Tbl DWord := if n == 0 then t else tput t c ((tget t c).getD 0 + BitVec.ofNat 64 n)
/-- Quad cycles in the 10 µs of an accounting. -/
def Quad.window (q : Quad) : Nat := if q.clock.isPinned then 21000 else 25000
/-- ENERGY_ACCOUNTING (R514): each context's part in proportion to its issue cycles; the rest goes to EIDLE. -/
def execEnergyAccounting (die quad nj : Nat) (shares : List (Nat × Nat)) (s : State) : Out :=
  let cycles := (shares.map (·.2)).sum
  let total := max cycles (s.quadAt (quadKey die quad)).window
  let part := fun c => nj * c / total
  let used := (shares.map fun x => part x.2).sum
  .next { s with power := { s.power with
    eloc := shares.foldl (fun t x => addNj t x.1 (part x.2)) s.power.eloc
    eidle := s.power.eidle + BitVec.ofNat 64 (nj - used) } }

/-! ### Temperatures (R512) -/

/-- TMAX and GMAX of a die from the latest readings of its quads. -/
def State.dieTemps (s : State) (die : Nat) : State :=
  let qs := (List.range (s.dieMap.nquads die)).map fun q => s.quadPower (quadKey die q)
  let top := fun (f : QuadPower → Int) => (qs.map f).foldl max 0
  s.setDiePower die { s.diePower die with tmax := BitVec.ofInt 8 (min 255 (top (·.temp))), gmax := BitVec.ofInt 8 (min 255 (top (·.grad))) }
/-- Thermal migration of the blocks of a quad is requested (spec/10_distributor.md R299): those placed 500 µs ago or earlier. -/
def State.migrate (s : State) (key : Nat) : State :=
  if s.clock.ns < 500000 then s
  else
    let by_ := s.clock.ns - 500000
    (s.blocks.filter fun k => !k.saved && !k.relaunch && s.quadKeyOf k.core == key && decide (k.placedAt ≤ by_)).foldl
      (fun s k => s.drainFor k.core k.launch (some by_)) s
/-- THERMAL_READING (R512). -/
def execThermalReading (die quad : Nat) (temp base : Int) (s : State) : Out :=
  if s.dieMap.nquads die ≤ quad then .next s
  else
    let key := quadKey die quad
    let p := s.quadPower key
    let T := s.power.tlim
    let hot := decide (T - 5 ≤ temp) || decide (s.power.glim ≤ temp - base)
    let trip := decide (T + 10 ≤ temp)
    let p' := { p with
      temp := temp, grad := temp - base
      base := if 95 < base then 2 else 1
      thermal := if T ≤ temp then 4 else if hot then 2 else 1
      stopped := if trip then true else if temp < T - 10 then false else p.stopped }
    let s := (s.setQuadPower key p').dieTemps die
    let s := if base ≤ 95 then s
      else (((List.range (s.dieMap.nsd + s.dieMap.ngd)).filter fun d => s.dieMap.baseOf d == s.dieMap.baseOf die).map fun d =>
        (List.range (s.dieMap.nquads d)).map fun q => quadKey d q).flatten.foldl (fun s x => s.setQuadPower x (s.quadPower x)) s
    let s := if T ≤ temp then s.quadRecord die quad cThermalLimit 0 else s
    let s := if trip && !p.stopped then (s.quadRecord die quad cThermalTrip 1).darken key else s
    .next (if hot && !trip then s.migrate key else s)

/-! ### Droops (R506, R507) -/

/-- DROOP_DETECT (R507): a stretch request, unless the quad runs the pinned clock (R508), and the boost stage. -/
def execDroopDetect (die quad : Nat) (s : State) : Out :=
  let key := quadKey die quad
  .next (s.setQuadPower key
    { s.quadPower key with stretch := !(s.quadAt key).clock.isPinned, stretchFrom := (s.quadAt key).cyc + 1, boost := true })
/-- Slot n of a quad may be stretched (R506): SWPAT rotated left by the quad number modulo 8. -/
def slotOk (pat quad n : Nat) : Bool := bit pat ((n % 16 + 16 - quad % 8) % 16)
/-- The pattern in effect in cycle n of a quad (R506). -/
def State.patAt (s : State) (key n : Nat) : Nat :=
  let p := s.quadPower key
  if n < p.patFrom then p.oldPat.toNat else s.power.swpat
/-- The first cycle from n on in a permitted slot. -/
def State.nextSlot (s : State) (die quad n : Nat) : Option Nat :=
  ((List.range 32).map (· + n)).find? fun i => slotOk (s.patAt (quadKey die quad) i) quad i
/-- PWRLIM is written: the pattern that a quad has now stays until its next cycle of slot 0 (R504, R506). -/
def State.setPwrlim (s : State) (v : DWord) : State :=
  let dies := List.range (s.dieMap.nsd + s.dieMap.ngd)
  let quads := (dies.map fun d => (List.range (s.dieMap.nquads d)).map fun q => quadKey d q).flatten
  let s := quads.foldl (fun s key =>
    let n := (s.quadAt key).cyc
    s.setQuadPower key { s.quadPower key with oldPat := BitVec.ofNat 16 (s.patAt key n), patFrom := 16 * (n / 16 + 1) }) s
  { s with power := { s.power with pwrlim := v } }
/-- STRETCHED_CYCLE (R507): the first cycle in a permitted slot is stretched and counts as one; a rail that is still low raises a new
request. -/
def execStretchedCycle (die quad : Nat) (stillLow : Bool) (s : State) : Out :=
  let key := quadKey die quad
  let p := s.quadPower key
  match (if p.stretch then s.nextSlot die quad (max p.stretchFrom (s.quadAt key).cyc) else none) with
  | some n => .next ((s.reachCyc key (n + 1)).setQuadPower key { p with stretch := stillLow, stretchFrom := n + 1, boost := p.boost && stillLow })
  | none => .next s
/-- DROOP_RECOVER (R507): an unserved request is withdrawn. -/
def execDroopRecover (die quad : Nat) (s : State) : Out :=
  let key := quadKey die quad
  .next (s.setQuadPower key { s.quadPower key with stretch := false, boost := false })
/-- DROOP_LIMIT (R507, R508): recorded; the floor becomes 2 for 1 ms. -/
def execDroopLimit (die quad : Nat) (s : State) : Out :=
  let key := quadKey die quad
  .next ((s.quadRecord die quad cDroopLimit 0).setQuadPower key
    { s.quadPower key with boost := false, droopUntil := some (s.clock.ns + 1000000) })
/-- DROOP_FLOOR_EXPIRY (R509): 1 ms after the DROOP_LIMIT. -/
def execDroopFloorExpiry (die quad : Nat) (s : State) : Out :=
  let key := quadKey die quad
  match (s.quadPower key).droopUntil with
  | some t => .next ((s.reachNs t).setQuadPower key { s.quadPower key with droopUntil := none })
  | none => .next s
/-- SHUNT_CLAMP (R507): the rail is clamped; no result and no register changes. -/
def execShuntClamp (_die _quad : Nat) (s : State) : Out := .next s

/-! ### Regulators and limits (R503, R504, R511) -/

/-- The neighbours of a regulator in its grid. -/
def DieMap.regNear (m : DieMap) (die r : Nat) : List Nat :=
  let w := if m.isGd die then 8 else 12
  let n := if m.isGd die then 32 else 48
  (List.range n).filter fun x => (x / w == r / w && (x + 1 == r || r + 1 == x)) || (x % w == r % w && (x + w == r || r + w == x))
/-- REG_FAILED (R511). -/
def execRegFailed (die reg : Nat) (s : State) : Out :=
  let n := if s.dieMap.isSd die then 48 else if s.dieMap.isGd die then 32 else 0
  let d := s.diePower die
  if n ≤ reg || bit d.regfail.toNat reg then .next s
  else
    let near := (s.dieMap.regNear die reg).filter fun r => bit d.regfail.toNat r
    let quads := if near.isEmpty then [] else nub ((reg :: near).map fun r => s.dieMap.regQuad die r)
    let dark := quads.foldl (fun (v : BitVec 24) q => v ||| (1#24 <<< q)) d.dark
    let s := s.setDiePower die { d with regfail := d.regfail ||| (1#48 <<< reg), dark := dark }
    let key := quadKey die (s.dieMap.regQuad die reg)
    let s := s.setQuadPower key (s.quadPower key)
    let s := s.errRecord { cause := cRegFailed, sev := if near.isEmpty then 1 else 3, die := die, unit := 8, uidx := reg }
    .next (quads.foldl (fun s q => s.darken (quadKey die q)) s)
/-- PWRLIM as a write leaves it (R504). The spec does not say what a TLIM below 70 becomes: a free value. -/
def pwrlimNew (old v free : DWord) : DWord :=
  let x := v.toNat
  let tl := bits x 47 40
  let pat := bits x 15 0
  let ones := ((List.range 16).filter fun i => bit pat i).length
  BitVec.ofNat 16 (max 500 (min 3600 (bits x 63 48))) ++ (if tl < 70 then free.extractLsb' 0 8 else BitVec.ofNat 8 (min 105 tl)) ++
    BitVec.ofNat 8 (max 5 (min 30 (bits x 39 32))) ++ BitVec.ofNat 16 (max 1 (bits x 31 16)) ++
    (if 2 < ones then old.extractLsb' 0 16 else BitVec.ofNat 16 pat)
/-- PWRLIM_WRITE (R504). -/
def execPwrlimWrite (v : BitVec 64) (s : State) : Out :=
  let f := s.freeVal
  .next (s.useFree.setPwrlim (pwrlimNew s.power.pwrlim v f))
/-- WAY7_RETURN_TO_VC1 (R503): VLOG has stood above V_DT for 1 ms (notes/assumptions/61.md). -/
def execWay7ReturnToVc1 (die : Nat) (s : State) : Out :=
  let d := s.diePower die
  if d.dected then .next (s.useFree.setDiePower die { d with dected := false, vnow := BitVec.ofNat 12 (max (d.vdt.toNat + 1) s.freeVlog) })
  else .next s

end Sys2Proof.Machine
end

