-- ==== Sys2Proof/Machine/Host.lean ====
section
/-! DEFINITION. The host's side: the feature query, reset and boot, the host commands, the host rings and the registers of BAR0
(spec/22_host.md R516-R525, spec/14_narrows.md R374-R377). -/

namespace Sys2Proof.Machine

def cFrameRecord : Nat := 0x1E8
def cFrameBusy : Nat := 0x1E9

/-! ### Feature words (R524) -/

/-- Present cores of the dies that `p` selects. -/
def DieMap.coreCount (m : DieMap) (p : Nat → Bool) : Nat :=
  (((List.range (m.nsd + m.ngd)).filter p).map fun d => ((List.range (m.rows d * m.cols d)).filter fun n => m.present ⟨d, n⟩).length).sum
/-- The device's own floor words 0 to 4. -/
def State.ownFloor (s : State) : List DWord :=
  let m := s.dieMap
  let sd := m.coreCount m.isSd
  let gd := m.coreCount m.isGd
  let able := (List.range (m.nsd + m.ngd)).any fun d => (List.range (m.rows d * m.cols d)).any fun n => m.present ⟨d, n⟩ && s.fixedAble ⟨d, n⟩
  let samp := (List.range m.nsd).any fun d => m.word d 3 % 2 ^ 24 != 0
  let feats := boolBit able 0 + (if sd == 0 then 0 else 0xE) + boolBit samp 4 + boolBit (gd != 0) 5 + 0x40
  [BitVec.ofNat 64 (9 * 2 ^ 56 + m.stepping * 2 ^ 52), BitVec.ofNat 64 feats, BitVec.ofNat 64 (sd * 65536 + gd),
    BitVec.ofNat 64 (m.capacity / 2 ^ 30), BitVec.ofNat 64 (m.slices.length * 256)]
/-- Present dies of a range that hold no block. -/
def State.emptyDies (s : State) (ds : List Nat) : Nat :=
  (ds.filter fun d => bit (s.dieMap.word d 0) 61 && !(s.blocks.any fun k => k.core.die == d && !k.saved && !k.relaunch)).length
/-- Feature word n for a block. -/
def State.featWord (s : State) (k : Block) (n : Nat) : DWord :=
  let m := s.dieMap
  if n ≤ 4 then (((s.ctx k.ctx).bind fun c => lget c.floor n)).getD 0
  else match n with
    | 16 => if (s.quad k.core).clock.isPinned then 2100 else 2500
    | 17 => BitVec.ofNat 64 (s.emptyDies (List.range m.nsd) * 65536 + s.emptyDies ((List.range m.ngd).map (· + m.nsd)))
    | 18 => (tget s.power.eloc k.ctx).getD 0
    | 19 => (tget s.power.erem k.ctx).getD 0
    | 20 => BitVec.ofNat 64 s.clock.ns
    | _ => 0
/-- QFEAT (R524). -/
def execQfeat (f : FI) (s : State) : Out :=
  issueAlu (.qfeat f) f.pred f.pneg (fun e t => t.setReg64 f.d.toNat (e.s0.featWord e.k f.imm.toNat)) s

/-! ### Reset and boot (R520) -/

/-- Package reset: every register at its reset value, every context gone, memory contents unspecified; the numbers of the free values
already used and the events to come stay. -/
def State.packageReset (s : State) : State :=
  let n := s.mem.length
  { State.reset with
    mem := s.mem.zipIdx.filterMap fun p =>
      let b : Byte := (Config.freeValue (s.clock.free + p.2)).setWidth 8
      if b == memDefault then none else some (p.1.1, b)
    clock := { ns := 0, free := s.clock.free + n }
    nextId := s.nextId
    agenda := s.agenda }
/-- PACKAGE_RESET (R520). -/
def execPackageReset (s : State) : Out := .next s.packageReset
/-- PKGCTL_RST (R519, R520): bit 0 performs package reset. -/
def execPkgctlRst (v : BitVec 64) (s : State) : Out := .next (if v.getLsbD 0 then s.packageReset else s)
/-- Base, shading and geometry dies of the parts (spec/01_package.md R14). -/
def partDies (p : Nat) : Nat × Nat × Nat :=
  match p % 3 with
  | 0 => (6, 10, 2)
  | 1 => (4, 6, 2)
  | _ => (2, 2, 2)
/-- The entry of die d as boot writes it (spec/01_package.md R12, R17, R23, R24); presence is what the self-tests find. -/
def bootEntry (p d : Nat) : List DWord :=
  let (mcb, nsd, ngd) := partDies p
  let S := nsd / 2
  let w := fun i => (Config.bootWord d i).toNat
  let here := bit (w 0) 0
  let mk := fun (kind base row col mr mc cr cc : Nat) (lo hi x : Nat) (n : Nat) =>
    [BitVec.ofNat 64 (kind * 2 ^ 62 + boolBit here 61 + base * 2 ^ 56 + row * 2 ^ 52 + col * 2 ^ 48 + mr * 2 ^ 40 + mc * 2 ^ 32 + cr * 2 ^ 24 + cc * 2 ^ 16 +
        (if here then n * 256 else 0))] ++
      [lo, hi, x].map fun v => BitVec.ofNat 64 (if here then v else 0)
  let ones := fun v n => ((List.range n).filter fun i => bit v i).length
  if d < nsd then
    let hi := w 2 % 2 ^ 32
    mk 0 (nsd + ngd + d % S) (d / S) (d % S) (8 * (d / S)) (12 * (d % S)) 8 12 (w 1) hi (w 3 % 2 ^ 48) (ones (w 1) 64 + ones hi 32)
  else if d < nsd + ngd then
    let j := d - nsd
    let lo := w 1 % 2 ^ 32
    mk 1 (nsd + ngd + S + j / 2) (j % 2) (S + j / 2) (4 * (j % 2)) (8 * (j / 2)) 4 8 lo 0 0 (ones lo 32)
  else if d < nsd + ngd + mcb then mk 2 d 0 (d - nsd - ngd) 0 0 0 0 (w 1) (w 2 % 2 ^ 24) (w 3 % 64) 0
  else []
/-- The die map that boot writes. -/
def bootMap : DieMap :=
  let p := Config.bootPart
  let (mcb, nsd, ngd) := partDies p
  let n := nsd + ngd + mcb
  ⟨BitVec.ofNat 64 (2 ^ 56 + n * 2 ^ 48 + nsd * 2 ^ 40 + ngd * 2 ^ 32 + mcb * 2 ^ 24 + mcb * 2 ^ 16 + 2 * 2 ^ 8 + (Config.bootWord 63 0).toNat % 16 * 16),
    (List.range n).map (bootEntry p)⟩
/-- The voltages of the stacked dies after boot (spec/21_power.md R504): VNOW and the fused V_DT. -/
def bootPower (m : DieMap) : Tbl DiePower :=
  (List.range (m.nsd + m.ngd)).map fun d => (d, { vnow := (Config.bootWord d 4).extractLsb' 0 12, vdt := (Config.bootWord d 5).extractLsb' 0 12 })
/-- BOOT_STEP (R520): a step completes, and the last one writes the die map; or the boot stops. -/
def execBootStep (ok : Bool) (s : State) : Out :=
  let h := s.host
  if h.done || h.fail then .next s
  else if !ok then .next { s with host := { h with fail := true } }
  else if h.step.toNat < 4 then .next { s with host := { h with step := h.step + 1 } }
  else .next { s with host := { h with step := 5, done := true }, dieMap := bootMap, power := { s.power with dies := bootPower bootMap } }

/-! ### Commands (R519, R521) -/

/-- The command in progress is this one, and its effect is not complete. -/
def HostCmd.is (c : HostCmd) (op : Nat) (slot : BitVec 10) (arg : BitVec 46) (ptr : BitVec 64) : Bool :=
  !c.ready && c.op == op && c.slot == slot.toNat && c.arg == arg.toNat && c.ptr == ptr.toNat
/-- The effect is complete with a result. -/
def State.cmdDone (s : State) (res cause : Nat) : State :=
  { s with host := { s.host with busy := s.host.busy.map fun c => { c with res := res, cause := cause, ready := true } } }
/-- Perform a command in progress: a result and a cause, or none while it goes on. -/
def State.command (s : State) (op : Nat) (slot : BitVec 10) (arg : BitVec 46) (ptr : BitVec 64) (act : State → Option (Nat × Nat) × State) : Out :=
  match s.host.busy with
  | some c =>
    if !c.is op slot arg ptr then .next s
    else match act s with
      | (some r, s) => .next (s.cmdDone r.1 r.2)
      | (none, s) => .next s
  | none => .next s
/-- A command on a live slot; RES 2 otherwise. -/
def State.live (s : State) (slot : Nat) (act : Ctx → State → Option (Nat × Nat) × State) : Option (Nat × Nat) × State :=
  match s.ctx slot with
  | some c => act c s
  | none => (some (2, 0), s)
def done (s : State) : Option (Nat × Nat) × State := (some (0, 0), s)
/-- HOST_COMMAND_COMPLETE (R519). -/
def execHostCommandComplete (s : State) : Out :=
  match s.host.busy with
  | some c =>
    if c.ready then .next ({ s with host := { s.host with busy := none, res := BitVec.ofNat 8 c.res, cause := BitVec.ofNat 10 c.cause } }.signal 3)
    else .next s
  | none => .next s

/-! ### CREATE and DESTROY -/

/-- 64-bit words at a physical address. -/
def State.physWords (s : State) (pa n : Nat) : List Nat := (List.range n).map fun i => mread s.mem (pa + 8 * i) 8
/-- Reserved fields of a context record, and WTO (R271, R272; spec/08_core_sync.md R248). -/
def ctxRecBad (ws : List Nat) (able : Bool) : Bool :=
  let w := fun i => (lget ws i).getD 0
  let page := fun i => bits (w i) 63 52 != 0 || bits (w i) 11 0 != 0
  let wto := bits (w 3) 45 40
  page 0 || page 1 || page 2 || page 4 || page 7 || bits (w 3) 63 56 != 0 || bits (w 3) 39 32 != 0 || bits (w 3) 15 0 != 0 || bits (w 6) 63 52 != 0 ||
    bits (w 6) 5 0 != 0 || !(wto == 0 || wto == 63 || (16 ≤ wto && wto ≤ 40)) || (bit (w 3) 48 && !able)
/-- The device meets a floor (R525). -/
def meetsFloor (own fl : List DWord) : Bool :=
  let o := fun i => ((lget own i).map (·.toNat)).getD 0
  let f := fun i => ((lget fl i).map (·.toNat)).getD 0
  bits (f 0) 63 56 ≤ bits (o 0) 63 56 && bits (f 0) 55 52 ≤ bits (o 0) 55 52 && f 1 &&& o 1 == f 1 && bits (f 2) 31 16 ≤ bits (o 2) 31 16 &&
    bits (f 2) 15 0 ≤ bits (o 2) 15 0 && f 3 ≤ o 3 && f 4 ≤ o 4
/-- The context that a record describes. -/
def ctxOf (ws : List Nat) (floor : List DWord) (pqmask : Nat) : Ctx :=
  let w := fun i => (lget ws i).getD 0
  let page := fun i => bits (w i) 51 12 * 4096
  ⟨page 0, page 1, page 2, bits (w 3) 55 49, bit (w 3) 48, bit (w 3) 47, bit (w 3) 46, bits (w 3) 45 40, bits (w 3) 31 16, page 4, w 5, page 7, floor,
    BitVec.ofNat 64 pqmask, [], [], 0, [], none, none⟩
/-- CREATE: the slot becomes live, the fixed VCs are written (spec/18_cache.md R442) and the energy counters zeroed. -/
def State.create (s : State) (slot arg ptr : Nat) : Option (Nat × Nat) × State :=
  if (s.ctx slot).isSome then (some (2, 0), s)
  else
    let own := s.ownFloor
    let ws := s.physWords ptr 8
    if ptr % 64 != 0 || ctxRecBad ws (((lget own 1).map (·.getLsbD 0)).getD false) then (some (1, cContextRecord), s)
    else
      let fp := bits ((lget ws 6).getD 0) 51 6 * 64
      let fl := s.physWords fp 8
      if fp != 0 && (fl.drop 5).any (· != 0) then (some (1, 0), s)
      else
        let floor := if fp == 0 then own else (fl.take 5).map (BitVec.ofNat 64)
        if !meetsFloor own floor then (some (3, 0), s)
        else
          let s := { s with
            ctxs := tput s.ctxs slot (ctxOf ws floor (arg % 65536))
            power := { s.power with eloc := tdel s.power.eloc slot, erem := tdel s.power.erem slot, remPj := tdel s.power.remPj slot } }
          done ((List.range 4).foldl (fun s i => s.putVc slot i ⟨true, 0, 0, true, 0, [], none⟩) s)
/-- CREATE (R521). -/
def execCreate (slot : BitVec 10) (arg : BitVec 46) (ptr : BitVec 64) (s : State) : Out :=
  s.command 1 slot arg ptr fun s => s.create slot.toNat arg.toNat ptr.toNat
/-- Everything of a context but its memory leaves the device: its dirty lines are written back first. -/
def State.evictCtx (s : State) (slot : Nat) : State :=
  let s := (s.cores.map (·.1)).foldl (fun s k => s.flushCore (coreOfKey k) slot) s
  let bs := (s.blocks.filter fun k => k.ctx == slot).map (·.id)
  let ls := (s.launches.filter fun l => l.ctx == slot).map (·.id)
  let s := { s with
    blocks := s.blocks.filter fun (k : Block) => k.ctx != slot
    launches := s.launches.filter fun (l : Launch) => l.ctx != slot
    engs := s.engs.filter fun (o : EngOp) => o.ctx != slot
    reqs := s.reqs.filter fun (q : HomeReq) => q.ctx != slot
    pushes := s.pushes.filter fun (p : PendPush) => !bs.contains p.blk
    fronts := s.fronts.filter fun (r : MdReq) => !bs.contains r.blk
    rgnReqs := s.rgnReqs.filter fun (r : RgnReq) => !bs.contains r.blk
    narrows := s.narrows.filter fun (m : NMsg) => m.ctx != slot
    vcCmds := s.vcCmds.filter fun (c : VcPending) => c.ctx != slot
    bars := s.bars.filter fun (v : BarInst) => if v.scope == 5 then s.launches.any fun l => l.ctx != slot && l.podgrp.toNat == v.owner else !ls.contains v.owner
    fences := s.fences.filter fun (f : Fence) => match f.who with
      | .phase b _ _ => !bs.contains b
      | .barrier b _ _ _ _ => !bs.contains b
      | .launchEnd l => !ls.contains l
      | .region b _ _ => !bs.contains b
      | .paypush b => !bs.contains b
      | .vc c => s.vcCmds.any fun x => x.id == c && x.ctx != slot
      | .req i => s.reqs.any fun q => q.id == i && q.ctx != slot
      | .demand i _ _ => s.reqs.any fun q => q.id == i && q.ctx != slot
      | _ => true
    opens := s.opens.filter fun (o : Open) => match o with
      | .grp g => !bs.contains g.blk
      | .seq c kd => !bs.contains (s.sq c kd).owner
    cores := tmap (fun (c : Core) => { c with
      tlb := c.tlb.filter fun (e : TlbEntry) => e.ctx != slot
      drain := if ls.contains c.drainLaunch then 0 else c.drain
      res := c.res.filter fun (r : MatRes) => !bs.contains r.blk
      cseq := if bs.contains c.cseq.owner then {} else c.cseq
      mseq := if bs.contains c.mseq.owner then {} else c.mseq }) s.cores
    tlb2 := tmap (fun (l : List TlbEntry) => l.filter fun (e : TlbEntry) => e.ctx != slot) s.tlb2
    ctxs := tdel s.ctxs slot }
  (s.quads.map (·.1)).foldl (fun s k => s.quadAfter k) s
/-- A launch of the context ends as cancelled, its completion record written (R277, R278). -/
def State.cancelLaunch (s : State) (l : Launch) : State :=
  let s := s.modLaunch l.id fun x => if x.outState != 0 then x else { x with cause := cLaunchCancelled, outState := 3, detail := 0, tw := [] }
  let s := (l.cores.foldl (fun s c => s.flushCore (coreOfKey c) l.ctx) (s.endBlocks l.id)).modLaunch l.id fun x => { x with state := .ended }
  match execCompletionRecord l.id s with
  | .next s => s
  | _ => s
/-- The submissions of a queue that have not been taken end as cancelled. -/
def State.cancelQueue (s : State) (slot q : Nat) : State :=
  let v := s.queue slot q
  let s := s.setQueue slot q { v with entries := [] }
  v.entries.foldl (fun s e =>
    let l := { mkLaunch s.nextId slot q e ⟨e.record⟩ false with outState := 3, cause := cLaunchCancelled }
    let s := ({ s with nextId := s.nextId + 1, launches := s.launches ++ [l] }).clearCpl l
    s.cancelLaunch l) s
/-- DESTROY: every launch is cancelled, the lines are written back, the VCs and the slot are free. -/
def State.destroy (s : State) (slot : Nat) : State :=
  let s := (s.launches.filter fun l => l.ctx == slot).foldl (fun s l => s.cancelLaunch l) s
  let qs := (((s.ctx slot).map (·.queues)).getD []).map (·.1)
  (qs.foldl (fun s q => s.cancelQueue slot q) s).evictCtx slot
/-- DESTROY (R521). -/
def execDestroy (slot : BitVec 10) (arg : BitVec 46) (ptr : BitVec 64) (s : State) : Out :=
  s.command 2 slot arg ptr fun s => s.live slot.toNat fun _ s => done (s.destroy slot.toNat)

/-! ### INVAL, FRMREL -/

/-- INVAL: the cached translations of a range go, and the accesses translated through them have been performed (spec/07_core_memory.md
R212). -/
def State.inval (s : State) (slot arg ptr : Nat) : Option (Nat × Nat) × State :=
  let lg := bits arg 45 40
  if lg < 12 || 48 < lg || ptr % 2 ^ lg != 0 then (some (1, 0), s)
  else
    let inR := fun (va : Nat) => ptr % 2 ^ 56 ≤ va % 2 ^ 56 && decide (va % 2 ^ 56 < ptr % 2 ^ 56 + 2 ^ lg)
    let v0 := ptr % 2 ^ 56 / 4096
    let but := fun (l : List TlbEntry) => l.filter fun (e : TlbEntry) =>
      !(e.ctx == slot && e.vpn / e.pages * e.pages < v0 + 2 ^ (lg - 12) && decide (v0 < e.vpn / e.pages * e.pages + e.pages))
    let s := { s with cores := tmap (fun (c : Core) => { c with tlb := but c.tlb }) s.cores, tlb2 := tmap but s.tlb2 }
    let busy := s.reqs.any (fun q => q.ctx == slot && inR q.va.toNat) || s.blocks.any fun k => k.ctx == slot && k.sbuf.any fun e => inR e.va.toNat
    (if busy then none else some (0, 0), s)
/-- INVAL (R521). -/
def execInval (slot : BitVec 10) (arg : BitVec 46) (ptr : BitVec 64) (s : State) : Out :=
  s.command 3 slot arg ptr fun s => s.live slot.toNat fun _ s => s.inval slot.toNat arg.toNat ptr.toNat
/-- FRMREL (spec/18_cache.md R461): the alias bits of a 4 KiB frame are cleared. -/
def execFrmrel (slot : BitVec 10) (arg : BitVec 46) (ptr : BitVec 64) (s : State) : Out :=
  s.command 6 slot arg ptr fun s => done { s with alias2 := tdel s.alias2 (ptr.toNat / 4096) }

/-! ### Frames (spec/14_narrows.md R374-R377) -/

/-- A die is present. -/
def State.dieHere (s : State) (d : Nat) : Bool := bit (s.dieMap.word d 0) 61 && !s.lostDies.contains d
/-- The frame that a record describes, its table not yet read, if its fields pass the checks of R376. -/
def State.parseFrame (s : State) (pa : Nat) : Option Frame :=
  let ws := s.physWords pa 6
  let w := fun i => (lget ws i).getD 0
  let m := s.dieMap
  let fmt := bits (w 2) 63 62
  let pitch := bits (w 2) 55 32
  let rth := bits (w 2) 30 16
  let rtw := bits (w 2) 14 0
  let gdm := bits (w 4) 15 0
  let fto := bits (w 4) 31 16
  let px := if fmt == 1 then 8 else 4
  let gds := (List.range 16).filter fun i => bit gdm i
  if w 5 != 0 || bits (w 2) 61 56 != 0 || bit (w 2) 31 || bit (w 2) 15 || fmt == 3 || rtw == 0 || 16384 < rtw || rth == 0 || 16384 < rth ||
      pitch % 256 != 0 || pitch < rtw * px || w 1 % 256 != 0 || w 3 % 4096 != 0 || [0, 1, 3].any (fun i => bits (w i) 63 56 != 0) ||
      gds.isEmpty || gds.any (fun d => !(m.isGd d && s.dieHere d)) then none
  else some { rec_ := pa, ownptr := BitVec.ofNat 64 (w 0), spillptr := BitVec.ofNat 64 (w 3), rtbase := BitVec.ofNat 64 (w 1), rtfmt := fmt,
              rtpitch := pitch, rtw := rtw, rth := rth, spill := bits (w 4) 63 32 * 4096, fto := (if fto == 0 then 100 else fto) * 1000000,
              gdmask := gdm, owners := [], opened := s.clock.ns }
/-- Bytes of the ownership table and of the render target (R374, R375). -/
def Frame.tableSize (f : Frame) : Nat := f.gx * f.gy
def Frame.targetSize (f : Frame) : Nat := f.rtpitch * (f.rth - 1) + f.rtw * f.pixelSize
/-- A frame with the bytes of its table, if each is 0xFF or a present shading die (R376). -/
def State.readOwners (s : State) (slot : Nat) (f : Frame) : Option Frame :=
  (s.vbytes slot f.ownptr.toNat f.tableSize).bind fun own =>
    if own.all fun b => b == 0xFF || (s.dieMap.isSd b.toNat && s.dieHere b.toNat) then some { f with owners := own.map (·.toNat) } else none
/-- A frame that is refused: STATE 2, the cause and DONE (R376). -/
def State.refuseFrame (s : State) (slot pa cause : Nat) : State := (s.frameReport pa 2 cause 0 0).modCtx slot fun c => { c with opening := none }
/-- The frame waits for a range to be resident (R281, R376); without a ring it is refused (notes/assumptions/21.md). -/
def State.frameWait (s : State) (slot : Nat) (f : Frame) (base size : Nat) : State :=
  if ((s.ctx slot).map (·.rring)).getD 0 == 0 then s.refuseFrame slot f.rec_ cFrameRecord
  else (s.modCtx slot fun c => { c with opening := some (f, base, size) }).requestRes slot ⟨none, base, size, 0, 0, 0xFFFF⟩
/-- The steps of an opening frame: its table resident and checked, its target and spill area resident, all of them pinned; then it is
open (R376). -/
def State.tryOpen (s : State) (slot : Nat) (f : Frame) : State :=
  let table := (f.ownptr.toNat, f.tableSize)
  let rest := [(f.rtbase.toNat, f.targetSize), (f.spillptr.toNat, f.spill)]
  if s.missing slot table.1 table.2 then s.frameWait slot f table.1 table.2
  else match s.readOwners slot f with
    | none => s.refuseFrame slot f.rec_ cFrameRecord
    | some f => match rest.find? fun x => s.missing slot x.1 x.2 with
      | some x => s.frameWait slot f x.1 x.2
      | none =>
        let pins := ((table :: rest).map fun x => s.rangePins slot x.1 x.2).flatten
        s.modCtx slot fun c => { c with frame := some { f with pins := pins, opened := s.clock.ns }, opening := none }
/-- FRMOPEN: word 6 is zeroed, and the frame is opened, waits, or is refused. -/
def State.openFrame (s : State) (slot ptr : Nat) : Option (Nat × Nat) × State :=
  if ptr % 64 != 0 then (some (1, 0), s)
  else
    let s := s.agentWord (ptr + 48) 0
    match s.parseFrame ptr with
    | none => done (s.frameReport ptr 2 cFrameRecord 0 0)
    | some f =>
      if ((s.ctx slot).bind (·.frame)).isSome || ((s.ctx slot).bind (·.opening)).isSome then done (s.frameReport ptr 2 cFrameBusy 0 0)
      else done (s.tryOpen slot f)
/-- FRMOPEN (spec/14_narrows.md R376). -/
def execFrmopen (slot : BitVec 10) (arg : BitVec 46) (ptr : BitVec 64) (s : State) : Out :=
  s.command 4 slot arg ptr fun s => s.live slot.toNat fun _ s => s.openFrame slot.toNat ptr.toNat
/-- FRMCLOSE (spec/14_narrows.md R377); without an open frame it does nothing. -/
def execFrmclose (slot : BitVec 10) (arg : BitVec 46) (ptr : BitVec 64) (s : State) : Out :=
  s.command 5 slot arg ptr fun s => s.live slot.toNat fun _ s => done (s.modFrame slot.toNat Frame.close)

/-! ### Residency answers (R522) -/

/-- RESANS: the record's range is resident, or it cannot be; the launches that wait for it go on or end. -/
def State.resans (s : State) (slot arg ptr : Nat) : Option (Nat × Nat) × State :=
  match s.ctx slot with
  | none => (some (2, 0), s)
  | some c =>
    match c.resRecs.find? fun r => match r.n with
      | some n => c.rring + 32 * (n % 128) == ptr
      | none => false with
    | none => (some (1, 0), s)
    | some r =>
      let s := s.modCtx slot fun c => { c with resRecs := c.resRecs.filter fun (x : ResRec) => x != r }
      let s := match (s.ctx slot).bind (·.opening) with
        | some (f, b, n) => if b != r.base || n != r.size then s else if bit arg 0 then s.tryOpen slot f else s.refuseFrame slot f.rec_ cFrameRecord
        | none => s
      let mine := s.launches.filter fun l => l.ctx == slot && l.awaits == some (r.base, r.size)
      let s := mine.foldl (fun s l =>
        if bit arg 0 then s.modLaunch l.id fun x => { x with awaits := none }
        else if l.state == .resident then (s.modLaunch l.id fun x => { x with awaits := none }).refuse l.id cLeaseUnresolved r.lidx
        else s.failLaunch l.id cLeaseUnresolved (strikeTw {} cLeaseUnresolved)) s
      done (s.writeRes slot (((s.ctx slot).map (·.resRecs)).getD []))
/-- RESANS (R521, R522). -/
def execResans (slot : BitVec 10) (arg : BitVec 46) (ptr : BitVec 64) (s : State) : Out :=
  s.command 7 slot arg ptr fun s => s.resans slot.toNat arg.toNat ptr.toNat

/-! ### Host rings (R523) -/

/-- The patch of a record of KIND 1 that a ring holds. -/
def State.ringPatch (s : State) (ctx : Nat) (r : LRec) : Option (List Byte) := s.vbytes ctx (r.w 15) r.pbytes
/-- Take the record at HEAD of a ring into its queue; HEAD advances. -/
def State.takeRing (s : State) (ctx q : Nat) : State :=
  match (s.queue ctx q).ring with
  | none => s
  | some (d, head, tail) =>
    if head == tail || 256 ≤ (s.queue ctx q).entries.length then s
    else
      let a := mread s.mem d 8 + 128 * (head % 256)
      let rec_ := mread s.mem a 128
      let r : LRec := ⟨rec_⟩
      let patch := if r.kind == 1 then s.ringPatch ctx r else none
      let t := (s.submit ctx q fun i n => ⟨i, n, rec_, patch, decide (r.kind = 1), false, BitVec.ofNat 64 a, r.kind == 1 && patch.isNone⟩).2
      let h := (head + 1) % 2 ^ 32
      (t.setQueue ctx q { t.queue ctx q with ring := some (d, h, tail) }).agentWrite (d + 8) (leBytes 4 h) true
/-- Records are taken while the queues have room. -/
def State.takeRings (s : State) (ctx q : Nat) : Nat → State
  | 0 => s
  | n + 1 =>
    match (s.queue ctx q).ring with
    | none => s
    | some (_, head, tail) => if head == tail || 256 ≤ (s.queue ctx q).entries.length then s else (s.takeRing ctx q).takeRings ctx q n
/-- Every bound ring. -/
def State.settleRings (s : State) : State :=
  s.ctxs.foldl (fun s c => (c.2.queues.filter fun q => q.2.ring.isSome).foldl (fun s q => s.takeRings c.1 q.1 256) s) s
/-- The device reads TAIL of a ring again. -/
def State.readTail (s : State) (ctx q : Nat) : State :=
  match (s.queue ctx q).ring with
  | some (d, head, _) => s.setQueue ctx q { s.queue ctx q with ring := some (d, head, mread s.mem (d + 128) 4) }
  | none => s
/-- TAIL_REREAD (R523). -/
def execTailReread (ctx queue : Nat) (s : State) : Out := .next (s.readTail ctx queue)
/-- A reserved field of a queue descriptor is not zero (R523; spec/00_scope.md R7). -/
def State.ringBad (s : State) (ptr : Nat) : Bool :=
  let w := fun i => mread s.mem (ptr + 8 * i) 8
  bits (w 1) 63 32 != 0 || bits (w 16) 63 32 != 0 || ((List.range 14).map (· + 2) ++ (List.range 15).map (· + 17)).any fun i => w i != 0
/-- QBIND: PTR 0 unbinds; HEAD goes on from the descriptor. A descriptor that is misaligned or holds a reserved field is an operand
refused (notes/assumptions/62.md). -/
def State.qbind (s : State) (slot arg ptr : Nat) : Option (Nat × Nat) × State :=
  let q := arg % 64
  if ptr == 0 then done (s.setQueue slot q { s.queue slot q with ring := none })
  else if ptr % 256 != 0 || s.ringBad ptr then (some (1, 0), s)
  else done (s.setQueue slot q { s.queue slot q with ring := some (ptr, mread s.mem (ptr + 8) 4, mread s.mem (ptr + 128) 4) })
/-- QBIND (R521, R523). -/
def execQbind (slot : BitVec 10) (arg : BitVec 46) (ptr : BitVec 64) (s : State) : Out :=
  s.command 8 slot arg ptr fun s => s.live slot.toNat fun _ s => s.qbind slot.toNat arg.toNat ptr.toNat

/-! ### Migration (R521, R525) -/

/-- Nothing of a context is on its way: every resident block can be saved. -/
def State.migReady (s : State) (slot : Nat) : Bool :=
  let bs := s.blocks.filter fun k => k.ctx == slot
  bs.all (fun k => k.saved || k.relaunch || s.canSave k) && !(s.reqs.any fun q => q.ctx == slot) && !(s.narrows.any fun m => m.ctx == slot) &&
    !(s.vcCmds.any fun c => c.ctx == slot) && !(s.fences.any fun f => match f.who with
      | .launchEnd l => s.launches.any fun x => x.id == l && x.ctx == slot
      | .barrier b _ _ _ _ => bs.any fun k => k.id == b
      | .region b _ _ => bs.any fun k => k.id == b
      | _ => false)
/-- The blocks of a context start no clause, and its sequencers stop: a drain without GRACE. -/
def State.stopCtx (s : State) (slot : Nat) : State :=
  (s.blocks.filter fun k => k.ctx == slot && !k.saved && !k.relaunch).foldl (fun s k =>
    let c := s.core k.core
    if c.drain == 2 then s else s.setCore k.core { c with drain := 2, drainLaunch := k.launch, drainFrom := s.clock.ns, drainAge := none }) s
/-- MIGOUT: every block is saved, the image is written and the slot is free. The spec does not say how large the area is: whether it is
too small is a free choice. -/
def State.migout (s : State) (slot ptr : Nat) : Option (Nat × Nat) × State :=
  if s.freeVal.getLsbD 0 then (some (4, 0), s.useFree)
  else
    let s := s.stopCtx slot
    if !s.migReady slot then (none, s)
    else
      let s := (s.blocks.filter fun k => k.ctx == slot && !k.saved && !k.relaunch).foldl (fun s k => s.saveBlock k) s
      let s := (s.cores.map (·.1)).foldl (fun s k => s.flushCore (coreOfKey k) slot) s
      match s.ctx slot with
      | none => (some (2, 0), s)
      | some c =>
        let ls := s.launches.filter fun l => l.ctx == slot
        let img : Image := ⟨c, ls, s.blocks.filter fun k => k.ctx == slot, s.engs.filter fun o => o.ctx == slot,
          s.bars.filter fun v => v.scope != 5 && ls.any fun l => l.id == v.owner⟩
        done { s.evictCtx slot with images := tput s.images ptr img }
/-- MIGOUT (R521). -/
def execMigout (slot : BitVec 10) (arg : BitVec 46) (ptr : BitVec 64) (s : State) : Out :=
  s.command 9 slot arg ptr fun s => s.live slot.toNat fun _ s => s.migout slot.toNat ptr.toNat
/-- Grant the shares of a migrated context's software VCs; none when the package has no room. -/
def State.regrant (s : State) (slot : Nat) : List (Nat × VcEntry) → Option State
  | [] => some s
  | (i, v) :: r =>
    if v.fix || !v.v then s.regrant slot r
    else match s.grant slot i v.w0.toNat v.w1.toNat with
      | some sh => (s.putVc slot i { v with shares := sh, old := none }).regrant slot r
      | none => none
/-- The VC entries that the table at VCTBASE holds, their shares not yet granted (spec/18_cache.md R442). -/
def State.vcTable (s : State) (base : Nat) : Tbl VcEntry :=
  (List.range 256).filterMap fun i =>
    let w := fun j => BitVec.ofNat 64 (mread s.mem (base + 64 * i + 8 * j) 8)
    if (w 2).getLsbD 63 then some (i, ⟨true, w 0, w 1, (w 2).getLsbD 61, bits (w 2).toNat 31 0, [], none⟩) else none
/-- MIGIN: the image is restored when the device meets its floor (RES 3) and has room for its VCs (RES 4); its blocks are saved blocks
that BLOCK_RESTORE places once their leases are resident. -/
def State.migin (s : State) (slot ptr : Nat) : Option (Nat × Nat) × State :=
  if (s.ctx slot).isSome then (some (2, 0), s)
  else
    match tget s.images ptr with
    | none => (some (1, 0), s)
    | some img =>
      if !meetsFloor s.ownFloor img.ctx.floor then (some (3, 0), s)
      else
        let vcs := s.vcTable img.ctx.vctbase
        let t := { s with
          ctxs := tput s.ctxs slot { img.ctx with vcs := vcs }
          launches := s.launches ++ img.launches.map fun (l : Launch) => { l with ctx := slot, awaits := none, cores := [] }
          blocks := s.blocks ++ img.blocks.map fun (k : Block) => { k with ctx := slot }
          engs := s.engs ++ img.engs.map fun (o : EngOp) => { o with ctx := slot }
          bars := s.bars ++ img.bars
          images := tdel s.images ptr
          power := { s.power with eloc := tdel s.power.eloc slot, erem := tdel s.power.erem slot, remPj := tdel s.power.remPj slot } }
        match t.regrant slot vcs with
        | none => (some (4, 0), s)
        | some t =>
          done ((t.launches.filter fun l => l.ctx == slot && l.state == .running).foldl (fun s l =>
            match s.firstMissing l with
            | some (b, n, i) => if ((s.ctx slot).map (·.rring)).getD 0 == 0 then s.failLaunch l.id cLeaseUnresolved (strikeTw {} cLeaseUnresolved)
                else s.askRes l b n i
            | none => s) t)
/-- MIGIN (R525). -/
def execMigin (slot : BitVec 10) (arg : BitVec 46) (ptr : BitVec 64) (s : State) : Out :=
  s.command 10 slot arg ptr fun s => s.migin slot.toNat ptr.toNat

/-! ### Registers of BAR0 (R518, R519; spec/19_fabric.md R471-R474, R483; spec/20_reliability.md R499; spec/21_power.md R504) -/

/-- A register of the die map (spec/01_package.md R21-R24): zero until boot is done. -/
def State.mapReg (s : State) (off : Nat) : DWord :=
  if !s.host.done then 0
  else if off == 0 then s.dieMap.hdr
  else if off < 0x40 then 0
  else BitVec.ofNat 64 (s.dieMap.word ((off - 0x40) / 32) ((off - 0x40) / 8 % 4))
/-- A host control register (R519): RST and GO read as zero. -/
def HostRegs.read (h : HostRegs) (off : Nat) : DWord :=
  match off with
  | 0x08 => BitVec.ofNat 64 (h.step.toNat * 2 ^ 56 + boolBit h.done 55 + boolBit h.fail 54)
  | 0x10 => h.hcmd0
  | 0x18 => h.hcmd1
  | 0x28 => BitVec.ofNat 64 (boolBit h.busy.isSome 63 + boolBit h.lost 62 + h.res.toNat * 2 ^ 54 + h.cause.toNat * 2 ^ 44)
  | 0x30 => h.msixmap
  | _ => 0
/-- A fabric register (spec/19_fabric.md R471-R474, R483): CLR and CLRPKG read as zero. -/
def Fabric.read (f : Fabric) (off : Nat) : DWord :=
  let i := off / 8
  if i == 0 then f.fabid
  else if i == 1 then BitVec.ofNat 64 (boolBit f.cfgerr 3 + boolBit f.fenced 2 + boolBit f.en 0)
  else if i < 10 then (lget f.cgtab (i - 2)).getD 0
  else if i == 10 then f.expwin
  else if i < 47 then (lget f.lnksts (i - 11)).getD 0
  else if i < 83 then (lget f.lnkwt (i - 47)).getD 0
  else if i < 99 then (lget f.pbgtab (i - 83)).getD 0
  else 0
/-- A reliability register (spec/20_reliability.md R499). -/
def ErrLog.read (e : ErrLog) (off : Nat) : DWord :=
  match off with
  | 0x00 => e.elbase
  | 0x08 => e.ovf ++ e.head
  | 0x10 => (0 : BitVec 32) ++ e.tail
  | _ => 0
/-- The pass-counts of a die (spec/21_power.md R504). -/
def State.passes (s : State) (die : Nat) : DWord :=
  BitVec.ofNat 64 (((List.range (s.dieMap.nquads die)).map fun q => (s.quadAt (quadKey die q)).pass.toNat * 4 ^ q).sum)
/-- A register of the power block (R518; spec/21_power.md R504, R514). -/
def State.powerReg (s : State) (off : Nat) : DWord :=
  let p := s.power
  let i := off / 8
  let n := s.dieMap.nsd + s.dieMap.ngd
  if i == 0 then p.pwrlim
  else if i == 1 then p.pkgw ++ (0 : BitVec 48)
  else if i < 2 + 3 * n then
    let die := (i - 2) / 3
    let d := s.diePower die
    match (i - 2) % 3 with
    | 0 => d.vnow ++ d.vdt ++ d.tmax ++ d.gmax ++ d.dark
    | 1 => s.passes die
    | _ => (0 : BitVec 16) ++ d.regfail
  else if i < 2 + 3 * n + 1024 then (tget p.eloc (i - 2 - 3 * n)).getD 0
  else if i < 2 + 3 * n + 2048 then (tget p.erem (i - 2 - 3 * n - 1024)).getD 0
  else if i == 2 + 3 * n + 2048 then p.eidle
  else 0
/-- What a read of the register at a BAR0 offset returns (R518; spec/00_scope.md R6, R7): write-only and reserved fields and unlisted
offsets read as zero. -/
def State.readReg (s : State) (off : Nat) : DWord :=
  if off % 8 != 0 then 0
  else match off / 0x1000 with
    | 0 => s.mapReg off
    | 1 => s.host.read (off % 0x1000)
    | 2 => s.fab.read (off % 0x1000)
    | 3 => s.errs.read (off % 0x1000)
    | b => if 0x10 ≤ b && b < 0x20 then s.powerReg (off - 0x10000) else 0
/-- The bits of `m` come from v, the others from the old value. -/
def maskWrite (m old v : DWord) : DWord := (old &&& ~~~m) ||| (v &&& m)
/-- A write to HCMD2 issues the command held in HCMD0 and HCMD1. -/
def State.go (s : State) : State :=
  let h := s.host
  if h.busy.isSome then { s with host := { h with lost := true } }
  else
    let op := bits h.hcmd0.toNat 63 56
    let c : HostCmd := { op := op, slot := bits h.hcmd0.toNat 55 46, arg := bits h.hcmd0.toNat 45 0, ptr := h.hcmd1.toNat }
    { s with host := { h with busy := some (if 1 ≤ op && op ≤ 10 then c else { c with res := 1, ready := true }) } }
/-- A write to FABCTL. -/
def State.fabctl (s : State) (v : DWord) : State :=
  let s := if v.getLsbD 1 then s.clearLost (v.extractLsb' 50 14) else s
  if !v.getLsbD 0 then s.setFab { s.fab with en := false }
  else if s.fab.en then s
  else s.useFree.fabricEnable (s.freeVal.getLsbD 0)
/-- A write to the register at a BAR0 offset; the blocks hold their registers at 8-byte steps in the order of the spec's tables. -/
def State.writeReg (s : State) (off : Nat) (v : DWord) : State :=
  let h := s.host
  let f := s.fab
  if off == 0x1000 then if v.getLsbD 0 then s.packageReset else s
  else if off == 0x1010 then { s with host := { h with hcmd0 := v } }
  else if off == 0x1018 then { s with host := { h with hcmd1 := v } }
  else if off == 0x1020 then s.go
  else if off == 0x1028 then if v.getLsbD 62 then { s with host := { h with lost := false } } else s
  else if off == 0x1030 then { s with host := { h with msixmap := v &&& 0xFFFF } }
  else if off == 0x2000 then s.setFab { f with fabid := maskWrite 0xFFFFFF0000000000 f.fabid v }
  else if off == 0x2008 then s.fabctl v
  else if 0x2010 ≤ off && off < 0x2050 then s.setFab { f with cgtab := lset f.cgtab ((off - 0x2010) / 8) (maskWrite 0xBFFFBFFFBFFFBFFF 0 v) }
  else if off == 0x2050 then s.setFab { f with expwin := maskWrite 0xFF0FFFFFFFFFF000 0 v }
  else if 0x2178 ≤ off && off < 0x2298 then s.setFab { f with lnkwt := lset f.lnkwt ((off - 0x2178) / 8) (v &&& 0xFFFFFF) }
  else if 0x2298 ≤ off && off < 0x2318 then s.setFab { f with pbgtab := lset f.pbgtab ((off - 0x2298) / 8) (maskWrite 0xFFFFFFFFFFFFFFF1 0 v) }
  else if off == 0x3000 then { s with errs := { s.errs with elbase := maskWrite 0x000FFFFFFFFFF01F 0 v } }
  else if off == 0x3010 then { s with errs := { s.errs with tail := v.extractLsb' 0 32 } }
  else if off == 0x10000 then s.useFree.setPwrlim (pwrlimNew s.power.pwrlim v s.freeVal)
  else s
/-- REGISTER_WRITE (spec/00_scope.md R6): a write that is not of one aligned 64-bit register is ignored. -/
def execRegisterWrite (off : BitVec 20) (v : BitVec 64) (s : State) : Out := .next (if off.toNat % 8 == 0 then s.writeReg off.toNat v else s)

end Sys2Proof.Machine
end

