-- ==== Sys2Proof/Machine/Sampler.lean ====
section
/-! DEFINITION. The sampler: descriptors, texel formats and layout, level of detail, filtering, TEX, TLD and TQRY
(spec/15_sampler.md R393-R406). -/

namespace Sys2Proof.Machine

def cSampDesc : Nat := 0x120
def cSampSampler : Nat := 0x121
def cSampFormat : Nat := 0x122
def cSampAbsent : Nat := 0x123

/-! ### Descriptors (R393-R395) -/

/-- A texture descriptor's 32 bytes as a number. -/
structure TexDesc where
  v : Nat
  deriving DecidableEq, Repr
def TexDesc.base (d : TexDesc) : Nat := bits d.v 63 0
def TexDesc.fmt (d : TexDesc) : Nat := bits d.v 127 124
def TexDesc.type (d : TexDesc) : Nat := bits d.v 123 121
def TexDesc.w (d : TexDesc) : Nat := bits d.v 120 107 + 1
def TexDesc.h (d : TexDesc) : Nat := bits d.v 106 93 + 1
def TexDesc.d (d : TexDesc) : Nat := bits d.v 92 82 + 1
def TexDesc.lm1 (d : TexDesc) : Nat := bits d.v 81 78
def TexDesc.sel (d : TexDesc) (i : Nat) : Nat := bits d.v (128 + 3 * i + 2) (128 + 3 * i)
/-- A block format. -/
def TexDesc.isBlock (d : TexDesc) : Bool := d.fmt == 12 || d.fmt == 13
/-- The descriptor is invalid (R394). -/
def TexDesc.bad (d : TexDesc) : Bool :=
  let region := bits d.v 63 56
  bits d.v 77 64 != 0 || bits d.v 191 140 != 0 || bits d.v 255 192 != 0 || 14 ≤ d.fmt || 4 ≤ d.type ||
    (List.range 4).any (fun i => 6 ≤ d.sel i) || (d.type == 0 && d.h != 1) || (d.type < 2 && d.d != 1) ||
    Nat.log2 (max (max d.w d.h) (if d.type == 2 then d.d else 1)) < d.lm1 || region == 1 || region == 2 || d.base % 256 != 0 ||
    (d.isBlock && (d.type == 0 || d.type == 2))
/-- A sampler descriptor's 16 bytes as a number. -/
structure SampDesc where
  v : Nat
  deriving DecidableEq, Repr
def SampDesc.maxLod (d : SampDesc) : Nat := bits d.v 63 52
def SampDesc.minLod (d : SampDesc) : Nat := bits d.v 51 40
def SampDesc.bias (d : SampDesc) : Int := sext (bits d.v 39 28) 12
def SampDesc.border (d : SampDesc) : Nat := bits d.v 15 14
def SampDesc.mip (d : SampDesc) : Nat := bits d.v 13 12
def SampDesc.min (d : SampDesc) : Bool := bit d.v 11
def SampDesc.mag (d : SampDesc) : Bool := bit d.v 10
/-- Address mode of axis 0 u, 1 v, 2 w. -/
def SampDesc.mode (d : SampDesc) (axis : Nat) : Nat := bits d.v (2 * axis + 1) (2 * axis)
/-- The descriptor is invalid (R395). -/
def SampDesc.bad (d : SampDesc) : Bool :=
  bits d.v 27 16 != 0 || d.border == 3 || d.mip == 3 || bits d.v 9 6 != 0 || bits d.v 127 64 != 0 || d.maxLod < d.minLod

/-! ### Layout (R396, R398) -/

/-- Bytes of a texel or a block. -/
def texelSize (fmt : Nat) : Nat :=
  match fmt with
  | 0 => 1
  | 1 => 2
  | 5 => 2
  | 7 => 8
  | 9 => 8
  | 10 => 16
  | 12 => 8
  | 13 => 16
  | _ => 4
def TexDesc.wl (d : TexDesc) (l : Nat) : Nat := max 1 (d.w / 2 ^ l)
def TexDesc.hl (d : TexDesc) (l : Nat) : Nat := max 1 (d.h / 2 ^ l)
def TexDesc.zl (d : TexDesc) (l : Nat) : Nat := if d.type == 2 then max 1 (d.d / 2 ^ l) else if d.type == 3 then d.d else 1
def TexDesc.pitch (d : TexDesc) (l : Nat) : Nat :=
  ((if d.isBlock then (d.wl l + 3) / 4 else d.wl l) * texelSize d.fmt + 255) / 256 * 256
def TexDesc.slice (d : TexDesc) (l : Nat) : Nat := d.pitch l * (if d.isBlock then (d.hl l + 3) / 4 else d.hl l)
def TexDesc.start (d : TexDesc) (l : Nat) : Nat :=
  d.base + ((List.range l).map fun k => (d.slice k * d.zl k + 4095) / 4096 * 4096).sum
/-- A texel of a level, or of its border. -/
structure TexPos where
  l : Nat
  x : Nat
  y : Nat
  z : Nat
  deriving DecidableEq, Repr
/-- The pointer to the bytes that hold a texel. -/
def TexDesc.ptr (d : TexDesc) (p : TexPos) : Nat :=
  let b := if d.isBlock then 4 else 1
  d.start p.l + d.slice p.l * p.z + d.pitch p.l * (p.y / b) + texelSize d.fmt * (p.x / b)

/-! ### Texel values (R396, R397) -/

/-- An exact channel value; `neg` is the sign of a zero; `srgb` is the sRGB decoding of v / 255. -/
inductive TexVal where
  | num (q : Rat) (neg : Bool)
  | srgb (v : Nat)
  | inf (neg : Bool)
  | nan
  deriving DecidableEq, Repr
def texFv : Fv → TexVal
  | .nan _ _ => .nan
  | .inf n => .inf n
  | .fin n m e => .num (Fv.fin n m e).rat n
/-- The largest r below 2^(b+1) above `r` whose fifth power times d does not exceed n. -/
def root5 (n d r : Nat) : Nat → Nat
  | 0 => if (r + 1) ^ 5 * d ≤ n then r + 1 else r
  | b + 1 => root5 n d (if (r + 2 ^ (b + 1)) ^ 5 * d ≤ n then r + 2 ^ (b + 1) else r) b
/-- The sRGB decoding of v / 255, rounded down and up to multiples of 2^-p; both are the value itself where it is such a multiple, or
lies in the linear part (the constants: notes/assumptions/43.md). -/
def srgbBounds (p v : Nat) : Rat × Rat :=
  if v ≤ 10 then let q : Rat := ((100 * v : Nat) : Rat) / (255 * 1292)
                 (q, q)
  else
    let x : Rat := ((1000 * v + 14025 : Nat) : Rat) / 269025
    let n := x.num.natAbs ^ 12 * 2 ^ (5 * p)
    let d := x.den ^ 12
    let r := root5 n d 0 p
    ((r : Rat) / ((2 ^ p : Nat) : Rat), ((if r ^ 5 * d == n then r else r + 1 : Nat) : Rat) / ((2 ^ p : Nat) : Rat))
/-- Palette channel: base plus k steps, clamped (R397). -/
def ramp (base : Nat) (k : Nat) (step : Int) : Nat := (max 0 (min ((base : Int) + k * step) 255)).toNat
/-- The 8-bit channels of texel t of an RK4 block. -/
def rk4 (v t : Nat) (cut : Bool) : List Nat :=
  let k := bits v (33 + 2 * t) (32 + 2 * t)
  if cut && k == 3 then [0, 0, 0, 0] else
    let five := fun (c : Nat) => c * 8 + c / 4
    let d := fun hi => sext (bits v hi (hi - 3)) 4 * (2 ^ bits v 30 28 : Nat)
    [ramp (five (bits v 15 11)) k (d 27), ramp (let c := bits v 10 5; c * 4 + c / 16) k (d 23), ramp (five (bits v 4 0)) k (d 19), 255]
/-- The channels of a texel whose bytes are v (R396). -/
def texelVals (fmt v t : Nat) : List TexVal :=
  let un := fun (hi lo : Nat) => TexVal.num ((bits v hi lo : Nat) / ((2 ^ (hi - lo + 1) - 1 : Nat) : Rat)) false
  let u8 := fun (x : Nat) => TexVal.num ((x : Nat) / (255 : Rat)) false
  let zero := TexVal.num 0 false
  let one := TexVal.num 1 false
  let f16 := fun i => texFv (fpDec fp16 (bits v (16 * i + 15) (16 * i)))
  let f32 := fun i => texFv (fpDec fp32 (bits v (32 * i + 31) (32 * i)))
  match fmt with
  | 0 => [un 7 0, zero, zero, one]
  | 1 => [un 7 0, un 15 8, zero, one]
  | 2 => [un 7 0, un 15 8, un 23 16, un 31 24]
  | 3 => [.srgb (bits v 7 0), .srgb (bits v 15 8), .srgb (bits v 23 16), un 31 24]
  | 4 => [un 9 0, un 19 10, un 29 20, un 31 30]
  | 5 => [f16 0, zero, zero, one]
  | 6 => [f16 0, f16 1, zero, one]
  | 7 => [f16 0, f16 1, f16 2, f16 3]
  | 8 => [f32 0, zero, zero, one]
  | 9 => [f32 0, f32 1, zero, one]
  | 10 => [f32 0, f32 1, f32 2, f32 3]
  | 12 => (rk4 (v % 2 ^ 64) t (bit v 31)).map u8
  | _ =>
    let a := ramp (bits v 7 0) (bits v (18 + 3 * t) (16 + 3 * t)) (sext (bits v 15 8) 8)
    ((rk4 (v / 2 ^ 64) t false).take 3 ++ [a]).map u8
/-- The colour of a border texel (R395). -/
def borderVals (b : Nat) : List TexVal :=
  match b with
  | 0 => List.replicate 4 (.num 0 false)
  | 1 => List.replicate 3 (.num 0 false) ++ [.num 1 false]
  | _ => List.replicate 4 (.num 1 false)
/-- Bounds of a channel value, 2^-p apart at most. -/
def TexVal.bounds (p : Nat) : TexVal → Rat × Rat
  | .num q _ => (q, q)
  | .srgb v => srgbBounds p v
  | _ => (0, 0)
/-- The FP32 rounding of a weighted sum that is not 0: that of its bounds when both round alike, else of closer bounds (no weighted sum of
sRGB values lies on a boundary of FP32 that closer bounds would not leave). -/
def texSum (l : List (Rat × TexVal)) (p : Nat) : Nat → Nat
  | 0 => ratBits (l.map fun x => x.1 * (x.2.bounds p).1).sum
  | n + 1 =>
    let lo := ratBits (l.map fun x => x.1 * (x.2.bounds p).1).sum
    if lo == ratBits (l.map fun x => x.1 * (x.2.bounds p).2).sum then lo else texSum l (2 * p) n
/-- One channel of a weighted sum, in one rounding (R401). -/
def blendTex (l : List (Rat × TexVal)) : Nat :=
  let l := l.filter fun p => p.1 != 0
  let isInf := fun (b : Bool) => l.any fun p => p.2 == .inf b
  if l.any (fun p => p.2 == .nan) || (isInf true && isInf false) then 0x7FC00000
  else if isInf true then fpInf fp32 true
  else if isInf false then fpInf fp32 false
  else
    if (l.map fun p => p.1 * (p.2.bounds 64).2).sum == 0 then signBit fp32 (!l.isEmpty && l.all fun p => match p.2 with
      | .num x n => x == 0 && n
      | _ => false)
    else texSum l 64 4
/-- Select the result channels by SWZ. -/
def TexDesc.swizzle (d : TexDesc) (one : Nat) (c : List Nat) : List Word :=
  (List.range 4).map fun i =>
    let k := d.sel i
    BitVec.ofNat 32 (if k < 4 then (lget c k).getD 0 else if k == 4 then 0 else one)

/-! ### Addressing and filtering (R399, R401) -/

/-- A coordinate: NaN reads as 0. -/
def texCoord (v : Word) : Fv :=
  match fpDec fp32 v.toNat with
  | .nan _ _ => .fin false 0 0
  | x => x
def clampI32 (x : Int) : Int := max (-(2 ^ 31 : Nat)) (min x ((2 ^ 31 : Nat) - 1))
/-- The integer nearest a rational, ties to even. -/
def roundRat (q : Rat) : Int :=
  let f := q.floor
  let r := q - f
  if r < 1 / 2 then f else if 1 / 2 < r then f + 1 else if f % 2 == 0 then f else f + 1
/-- An integer of an exact function of a coordinate; an infinity is clamped. -/
def coordInt (u : Fv) (f : Rat → Int) : Int :=
  match u with
  | .inf n => if n then -(2 ^ 31 : Nat) else (2 ^ 31 : Nat) - 1
  | x => clampI32 (f x.rat)
/-- The texel index of i under an address mode; none is the border. -/
def addrIndex (mode n : Nat) (i : Int) : Option Nat :=
  match mode with
  | 0 => some (i % n).toNat
  | 1 => let m := (i % (2 * n : Nat)).toNat
         some (if n ≤ m then 2 * n - 1 - m else m)
  | 2 => some (max 0 (min i ((n : Int) - 1))).toNat
  | _ => if i < 0 || (n : Int) ≤ i then none else some i.toNat
/-- Texels of one axis with their factors. -/
def axisTexels (linear : Bool) (mode n : Nat) (u : Fv) : List (Rat × Option Nat) :=
  if linear then
    let t := coordInt u fun x => roundRat (256 * (x * n - 1 / 2))
    let i := t / 256
    let f := t % 256
    [(((256 - f : Int) : Rat) / 256, addrIndex mode n i), ((f : Rat) / 256, addrIndex mode n (i + 1))]
  else [(1, addrIndex mode n (coordInt u fun x => (x * n).floor))]
/-- The texels of a level that a filter takes, with weights; none is the border. -/
def TexDesc.texels (d : TexDesc) (sm : SampDesc) (l : Nat) (linear : Bool) (u v w : Fv) : List (Rat × Option TexPos) :=
  let xs := axisTexels linear (sm.mode 0) (d.wl l) u
  let ys := if d.type == 0 then [((1 : Rat), some 0)] else axisTexels linear (sm.mode 1) (d.hl l) v
  let zs := if d.type == 2 then axisTexels linear (sm.mode 2) (d.zl l) w
    else if d.type == 3 then [((1 : Rat), some (max 0 (min (coordInt w roundRat) ((d.d : Int) - 1))).toNat)] else [((1 : Rat), some 0)]
  (zs.map fun z => (ys.map fun y => xs.map fun x => (x.1 * y.1 * z.1, match x.2, y.2, z.2 with
    | some a, some b, some c => some (⟨l, a, b, c⟩ : TexPos)
    | _, _, _ => none)).flatten).flatten

/-! ### Level of detail (R400) -/

/-- λ in units of 1/256 before clamping. -/
inductive Lod where
  | negInf
  | posInf
  | val (k : Int)
  deriving DecidableEq, Repr
/-- λ of a value in explicit mode: rounded down; NaN reads as MINLOD. -/
def lodOf (sm : SampDesc) (v : Word) : Lod :=
  match fpDec fp32 v.toNat with
  | .nan _ _ => .val sm.minLod
  | .inf n => if n then .negInf else .posInf
  | x => .val (256 * x.rat).floor
def Lod.clamp (x : Lod) (sm : SampDesc) (lm1 : Nat) : Int :=
  let hi := min (sm.maxLod : Int) (256 * lm1)
  match x with
  | .negInf => min (sm.minLod : Int) hi
  | .posInf => hi
  | .val k => min (max k sm.minLod) hi
/-- λ as FP32. -/
def Lod.bits (x : Lod) : Word :=
  match x with
  | .negInf => BitVec.ofNat 32 (fpInf fp32 true)
  | .posInf => BitVec.ofNat 32 (fpInf fp32 false)
  | .val k => if k == 0 then 0 else BitVec.ofNat 32 (ratBits ((k : Rat) / 256))
/-- Register i of the quad operand n of the thread at a position of the group; none when the group has no thread there. -/
def Env.atPos (e : Env) (pos : Nat) (n : BitVec 8) (i : Nat) : Option Word :=
  (e.g.lanes.find? fun l => l.1 == pos).map fun l => if n == 255 then 0 else (e.k.thread l.2).reg e.ctr l.2 (n.toNat + i)
/-- An exact difference of coordinates; none when one is infinite. -/
def coordDiff (a b : Word) : Option Rat :=
  let x := texCoord a
  let y := texCoord b
  if x.finite && y.finite then some (x.rat - y.rat) else none
/-- ρ² of the quad of a position: 0 without an intact quad; none where an infinite coordinate leaves it without a value. -/
def Env.rho2 (e : Env) (d : TexDesc) (n : BitVec 8) : Option Rat :=
  let q := e.pos / 4 * 4
  let axes := if d.type == 0 then [(0, d.w)] else if d.type == 2 then [(0, d.w), (1, d.h), (2, d.d)] else [(0, d.w), (1, d.h)]
  let side := fun (p : Nat) => axes.foldl (fun (acc : Option Rat) a =>
    match acc, e.atPos q n a.1, e.atPos p n a.1 with
    | some s, some x, some y => (coordDiff y x).map fun t => s + (t * a.2) * (t * a.2)
    | _, _, _ => none) (some 0)
  if (e.atPos q n 0).isNone || (e.atPos (q + 1) n 0).isNone || (e.atPos (q + 2) n 0).isNone then some 0
  else match side (q + 1), side (q + 2) with
    | some a, some b => some (max a b)
    | _, _ => none
/-- λ in implicit mode; `free` where the spec gives none. -/
def Env.lodImplicit (e : Env) (d : TexDesc) (sm : SampDesc) (n : BitVec 8) (free : Int) : Lod :=
  match e.rho2 d n with
  | none => .val free
  | some r =>
    if r == 0 then .negInf
    else
      let k := log2Q (r.num.natAbs ^ 128) (r.den ^ 128) + sm.bias
      match fpDec fp32 (e.rN n 3).toNat with
      | .nan _ _ => .val k
      | .inf m => if m then .negInf else .posInf
      | b => .val (k + (256 * b.rat).floor)
/-- Level L of R401 and the filters to apply: level, linear, weight. -/
def lodLevels (d : TexDesc) (sm : SampDesc) (k : Int) : Nat × List (Nat × Bool × Rat) :=
  if k ≤ 0 then (0, [(0, sm.mag, 1)])
  else
    let k := k.toNat
    match sm.mip with
    | 0 => (0, [(0, sm.min, 1)])
    | 1 => let l := min ((k + 128) / 256) d.lm1
           (l, [(l, sm.min, 1)])
    | _ =>
      let l := k / 256
      let f := k % 256
      if l < d.lm1 then (l, [(l, sm.min, ((256 - f : Nat) : Rat) / 256), (l + 1, sm.min, (f : Rat) / 256)]) else (l, [(l, sm.min, 1)])

/-! ### Reads (R393, R404) -/

/-- What a sampler reads: a value, and whether it came from a poisoned granule. A descriptor (`own`) is a plain load, to which the
thread's buffered stores forward (R393); a texel read sees none of them (R404). It waits for requests of the thread to the granule that
its home has not performed (spec/03_memory_model.md R75, R92). -/
def Env.sampRead (e : Env) (own : Bool) (s : State) (p : Nat) (n : Nat) : Except Stop (Nat × Bool) × State :=
  let ptr := BitVec.ofNat 64 p
  let region := bits p 63 56
  if region == 1 || region == 2 then (.error (memTrap cSpace false 0 ptr), s)
  else
    match s.check e.k ptr n 1 .load with
    | (.trap c, s) => (.error (memTrap c false 0 ptr), s)
    | (.park g, s) => (.error (.park g ptr), s)
    | (.ok (.glob pa _ _), s) =>
      if e.loadWaits s pa then (.error .hold, s)
      else (.ok (leVal (if own then e.ownBytes s pa n else s.engBytes e.k.core pa n), s.poisoned (granule pa)), s)
    | (.ok _, s) => (.error (memTrap cSpace false 0 ptr), s)
/-- Of two stops of one lane: a trap goes before a park, and a park before a wait; else the first (spec/09_core_traps.md R260). -/
def Stop.first (a b : Stop) : Stop :=
  match a, b with
  | .trap .., _ => a
  | _, .trap .. => b
  | .hold, .park .. => b
  | _, _ => a
/-- Read the texels of nonzero weight that are not border, every one of them checked: values with weights, and the pointer of a poisoned
one. -/
def Env.readTexels (e : Env) (d : TexDesc) (border : Nat) : List (Rat × Option TexPos) → State →
    Except Stop (List (Rat × List TexVal) × Option Nat) × State
  | [], s => (.ok ([], none), s)
  | (w, p) :: r, s =>
    if w == 0 then e.readTexels d border r s
    else
      match p with
      | none => match e.readTexels d border r s with
        | (.ok q, s) => (.ok ((w, borderVals border) :: q.1, q.2), s)
        | x => x
      | some t =>
        let x := e.sampRead false s (d.ptr t) (texelSize d.fmt)
        match x.1, e.readTexels d border r x.2 with
        | .error a, (.error b, s) => (.error (a.first b), s)
        | .error a, (.ok _, s) => (.error a, s)
        | .ok _, (.error b, s) => (.error b, s)
        | .ok (v, bad), (.ok q, s) =>
          (.ok ((w, texelVals d.fmt v (4 * (t.y % 4) + t.x % 4)) :: q.1, if bad then some (d.ptr t) else q.2), s)
/-- Land four words, or poison their registers. -/
def Env.landTex (e : Env) (s : State) (f : FA) (v : List Word) (poison : Option Nat) : LaneOut :=
  (e.addOp s f.sbs (destRegs f.d 16) (some v) (poison.map (BitVec.ofNat 64 ·)) false .none, none)
/-- The pointers of the two heaps. -/
def Env.theap (e : Env) : Nat := (e.k.kreg 45 ++ e.k.kreg 44).toNat
def Env.sheap (e : Env) : Nat := (e.k.kreg 47 ++ e.k.kreg 46).toNat
/-- The quad of the core has its sampler unit (R405). -/
def State.hasSampler (s : State) (c : CoreRef) : Bool := bit (s.dieMap.word c.die 3) (s.dieMap.quad c)
/-- Read and check the texture descriptor; a poisoned one poisons the destination. -/
def Env.withTex (e : Env) (s : State) (f : FA) (act : State → TexDesc → LaneOut) : LaneOut :=
  if s.dieMap.isGd e.k.core.die then (s, plainTrap cIllegalInstruction)
  else if !s.hasSampler e.k.core then (s, plainTrap cSampAbsent)
  else if e.theap % 32 != 0 then (s, plainTrap cSampDesc)
  else
    let p := (e.theap + 32 * ((e.opB f).toNat % 2 ^ 20)) % 2 ^ 64
    match e.sampRead true s p 32 with
    | (.error st, s) => (s, some st)
    | (.ok (v, bad), s) =>
      if bad then e.landTex s f (List.replicate 4 0) (some p)
      else if (TexDesc.mk v).bad then (s, plainTrap cSampDesc) else act s ⟨v⟩
/-- Read and check the sampler descriptor. -/
def Env.withSamp (e : Env) (s : State) (f : FA) (act : State → SampDesc → LaneOut) : LaneOut :=
  if e.sheap % 16 != 0 then (s, plainTrap cSampDesc)
  else
    let p := (e.sheap + 16 * bits (e.opB f).toNat 31 20) % 2 ^ 64
    match e.sampRead true s p 16 with
    | (.error st, s) => (s, some st)
    | (.ok (v, bad), s) =>
      if bad then e.landTex s f (List.replicate 4 0) (some p)
      else if (SampDesc.mk v).bad then (s, plainTrap cSampSampler) else act s ⟨v⟩
/-- The free value that λ takes where the spec gives none. -/
def Env.freeLod (e : Env) : Int := (Config.freeLane e.ctr e.tl).toInt

/-! ### Instructions (R402, R403) -/

/-- TEX (R403). -/
def execTex (f : FA) (s : State) : Out :=
  issue (.tex f) f.pred f.pneg (some f.sbs.toNat) (fun e s =>
    e.withTex s f fun s d => e.withSamp s f fun s sm =>
      if d.fmt == 11 then (s, plainTrap cSampFormat)
      else
        let lod := if f.md.getLsbD 0 then lodOf sm (e.rN f.a 3) else e.lodImplicit d sm f.a e.freeLod
        let ls := (lodLevels d sm (lod.clamp sm d.lm1)).2
        let c := fun i => texCoord (e.rN f.a i)
        let ts := (ls.map fun x => (d.texels sm x.1 x.2.1 (c 0) (c 1) (c 2)).map fun t => (t.1 * x.2.2, t.2)).flatten
        match e.readTexels d sm.border ts s with
        | (.error st, s) => (s, some st)
        | (.ok (vs, bad), s) =>
          let ch := (List.range 4).map fun i => blendTex (vs.map fun v => (v.1, (lget v.2 i).getD .nan))
          e.landTex s f (d.swizzle 0x3F800000 ch) bad) s
/-- TLD (R403). -/
def execTld (f : FA) (s : State) : Out :=
  issue (.tld f) f.pred f.pneg (some f.sbs.toNat) (fun e s =>
    if bits (e.opB f).toNat 31 20 != 0 && !s.dieMap.isGd e.k.core.die && s.hasSampler e.k.core then (s, plainTrap cSampFormat)
    else e.withTex s f fun s d =>
      let l := (e.rN f.a 3).toNat
      let x := (e.rN f.a 0).toNat
      let y := (e.rN f.a 1).toNat
      let z := (e.rN f.a 2).toNat
      if d.lm1 < l || d.wl l ≤ x || d.hl l ≤ y || d.zl l ≤ z then e.landTex s f (List.replicate 4 0) none
      else
        let p := d.ptr ⟨l, x, y, z⟩
        match e.sampRead false s p (texelSize d.fmt) with
        | (.error st, s) => (s, some st)
        | (.ok (v, bad), s) =>
          let poison := if bad then some p else none
          if d.fmt == 11 then e.landTex s f (d.swizzle 1 [v, 0, 0, 1]) poison
          else e.landTex s f (d.swizzle 0x3F800000 ((texelVals d.fmt v (4 * (y % 4) + x % 4)).map fun c => blendTex [(1, c)])) poison) s
/-- TQRY (R403). -/
def execTqry (f : FA) (s : State) : Out :=
  issue (.tqry f) f.pred f.pneg (some f.sbs.toNat) (fun e s =>
    e.withTex s f fun s d =>
      let n := fun (x : Nat) => BitVec.ofNat 32 x
      if !f.md.getLsbD 0 then
        let l := (e.r f.a).toNat
        if d.lm1 < l then e.landTex s f [0, 0, 0, n (d.lm1 + 1)] none
        else e.landTex s f [n (d.wl l), n (d.hl l), n (d.zl l), n (d.lm1 + 1)] none
      else e.withSamp s f fun s sm =>
        let lod := e.lodImplicit d sm f.a e.freeLod
        let k := lod.clamp sm d.lm1
        e.landTex s f [(Lod.val k).bits, lod.bits, n (lodLevels d sm k).1, 0] none) s

end Sys2Proof.Machine
end

