-- ==== Sys2Proof/Machine/Translate.lean ====
section
/-! DEFINITION. The translation assists XLDEC and XLMAP (spec/17_translation.md R419-R437). -/

namespace Sys2Proof.Machine

def cCompatProfile : Nat := 0x280
def cCompatTitle : Nat := 0x2C0

/-! ### Ciush words (R421-R425) -/

/-- Ciush types (R421). -/
inductive CTy where
  | b32
  | i32
  | n32
  | f32
  | f16x2
  | bf16x2
  deriving DecidableEq, Repr
def ctyOf (n : Nat) : Option CTy :=
  match n with
  | 0 => some .b32
  | 1 => some .i32
  | 2 => some .n32
  | 3 => some .f32
  | 4 => some .f16x2
  | 5 => some .bf16x2
  | _ => none
/-- How an operation uses X or X32 (R421, R423). -/
inductive CX where
  | none
  /-- the 32-bit value X32 in [31:0] -/
  | imm
  /-- SET: a comparison -/
  | cmp
  /-- CVT: a source type -/
  | ty
  /-- a buffer number -/
  | buf
  /-- TRAPC's code -/
  | code
  /-- SEL: the predicate stands in C -/
  | sel
  deriving DecidableEq, Repr
/-- A row of R423: which fields the operation uses, its types, its canonical length and its temporaries; none where the table gives no
number. -/
structure CRow where
  d : Bool
  a : Bool
  b : Bool
  c : Bool
  x : CX
  tys : List CTy
  len : Option Nat
  temps : Option Nat
  deriving DecidableEq, Repr

def cArith : List CTy := [.i32, .n32, .f32, .f16x2, .bf16x2]
/-- A row of length 1 with no temporaries. -/
def crow (d a b c : Bool) (x : CX) (tys : List CTy) : CRow := ⟨d, a, b, c, x, tys, some 1, some 0⟩
/-- The operation table (R423). -/
def ciushRow (op : Nat) : Option CRow :=
  if op == 0x00 then some ⟨false, false, false, false, .none, [.b32], some 0, some 0⟩
  else if op == 0x01 then some (crow true false false false .imm [.b32])
  else if op == 0x02 || op == 0x0E then some (crow true true false false .none [.b32])
  else if 0x03 ≤ op && op ≤ 0x05 then some (crow true true true false .none cArith)
  else if op == 0x06 then some (crow true true true true .none cArith)
  else if op == 0x07 || op == 0x08 then some (crow true true true false .none [.i32, .n32, .f32])
  else if op == 0x09 || op == 0x0A || op == 0x1D then some (crow true true true false .none [.f32])
  else if (0x0B ≤ op && op ≤ 0x0D) || op == 0x0F then some (crow true true true false .none [.b32])
  else if op == 0x10 then some (crow true true true false .none [.b32, .n32, .i32])
  else if op == 0x11 then some (crow true true true false .cmp [.i32, .n32, .f32])
  else if op == 0x12 then some (crow true true true true .sel [.b32])
  else if op == 0x13 then some (crow true true false false .ty [.b32, .i32, .n32, .f32, .f16x2, .bf16x2])
  else if 0x14 ≤ op && op ≤ 0x1C then some (crow true true false false .none [.f32])
  else if op == 0x1E then some (crow true true true true .none [.f16x2])
  else if op == 0x1F then some ⟨true, true, true, true, .none, [.f16x2], some 6, some 3⟩
  else if op == 0x20 then some ⟨true, true, false, false, .buf, [.b32], some 2, some 2⟩
  else if op == 0x21 then some ⟨false, true, true, false, .buf, [.b32], some 2, some 2⟩
  else if op == 0x22 then some ⟨true, true, true, false, .buf, [.i32, .n32, .f32], some 2, some 2⟩
  else if op == 0x23 || op == 0x24 then some (crow true false false false .none [.b32])
  else if op == 0x30 then some (crow false false false false .imm [.b32])
  else if op == 0x31 || op == 0x34 then some (crow false false false false .none [.b32])
  else if op == 0x32 then some ⟨true, false, false, false, .imm, [.b32], none, none⟩
  else if op == 0x33 then some ⟨false, false, false, false, .none, [.b32], none, none⟩
  else if op == 0x3F then some (crow false false false false .code [.b32])
  else none
/-- CVT converts from src to dst (R423). -/
def cvtOk (dst src : CTy) : Bool :=
  let int := fun (t : CTy) => t == .i32 || t == .n32
  let half := fun (t : CTy) => t == .f16x2 || t == .bf16x2
  dst == src || (int src && dst == .f32) || (src == .f32 && int dst) || (src == .f32 && half dst) || (half src && dst == .f32)
/-- The word breaks the word checks of R422. -/
def ciushBad (w : Nat) : Bool :=
  match ciushRow (bits w 63 56), ctyOf (bits w 55 52) with
  | some r, some ty =>
    let x := bits w 7 0
    !r.tys.contains ty || (!r.d && bits w 47 38 != 0) ||
      (if r.x == .imm then bits w 37 32 != 0
       else (!r.a && bits w 37 28 != 0) || (!r.b && bits w 27 18 != 0) || (!r.c && bits w 17 8 != 0) ||
         (match r.x with
          | .none => x != 0
          | .imm => false
          | .cmp => 6 ≤ x || bits w 47 41 != 0
          | .ty => bits x 7 4 != 0 || (match ctyOf (bits x 3 0) with
            | some src => !cvtOk ty src
            | none => true)
          | .buf => bits x 7 2 != 0
          | .code => bits x 7 6 != 0
          | .sel => x != 0 || bits w 17 12 != 0))
  | _, _ => true
/-- The cause field of XLDEC under profile p (R433). -/
def ciushCause (w p : Nat) : Nat :=
  let op := bits w 63 56
  if ciushBad w then 0x3FF
  else if (op == 0x1B || op == 0x1C) && p != 1 then cCompatProfile
  else if op == 0x3F then cCompatTitle + bits w 5 0
  else 0
/-- Length and temporaries: LDB and STB of vz need no LEA (R423). -/
def ciushSize (w : Nat) : Option Nat × Option Nat :=
  let op := bits w 63 56
  if ciushBad w then (none, none)
  else if (op == 0x20 || op == 0x21) && bits w 37 28 == 1023 then (some 1, some 0)
  else match ciushRow op with
    | some r => (r.len, r.temps)
    | none => (none, none)
/-- The four words of XLDEC (R433); `free` stands for a length and a number of temporaries that the table does not give. -/
def xldecWords (w p free : Nat) : List Word :=
  let z := ciushSize w
  let len := z.1.getD (bits free 5 0)
  let temps := z.2.getD (bits free 9 6)
  [BitVec.ofNat 32 (bits w 63 52 * 2 ^ 20 + temps * 2 ^ 16 + len * 2 ^ 10 + ciushCause w p),
   BitVec.ofNat 32 (bits w 51 48 * 2 ^ 28 + bits w 37 28 * 2 ^ 16 + bits w 47 38),
   BitVec.ofNat 32 (bits w 17 8 * 2 ^ 16 + bits w 27 18),
   BitVec.ofNat 32 w]
/-- XLDEC (R433): completes at issue and never traps on the word. -/
def execXldec (f : FA) (s : State) : Out :=
  issueAlu (.xldec f) f.pred f.pneg (fun e t =>
    t.setRegs f.d.toNat (xldecWords (e.r64 f.a).toNat ((e.opB f).toNat % 4) (Config.freeValue (e.ctr + e.tl)).toNat)) s

/-! ### The PC map (R434-R436) -/

/-- Read n bytes of the map at va, as a load of the thread through VC 1 under the loader's lease, which covers the image: the value, and
the address if it is poisoned. -/
def Env.mapRead (e : Env) (l : Launch) (s : State) (va : DWord) (n : Nat) : Except Stop (Nat × Option DWord) × State :=
  if l.image.toNat + l.imgSize < va.toNat + n then (.error (memTrap cLease false 0 va), s)
  else
    match s.checkConst e.k va with
    | (.trap c, s) => (.error (memTrap c false 0 va), s)
    | (.park g, s) => (.error (.park g va), s)
    | (.ok (.glob pa _ _), s) =>
      if e.loadWaits s pa then (.error .hold, s)
      else (.ok (leVal (e.ownBytes s pa n), if s.poisoned (granule pa) then some va else none), s)
    | (.ok _, s) => (.error (memTrap cSpace false 0 va), s)
/-- What a lookup gives: g(D), g(D+1), and the address whose poison they land with. -/
abbrev MapRes := Nat × Nat × Option DWord
/-- Entries are read upwards from entry i until one begins above word w; `best` is the last one at or below it. -/
def Env.mapScan (e : Env) (l : Launch) (nci w : Nat) : Nat → Nat → Option (Nat × Nat) → Option DWord → State → Except Stop MapRes × State
  | 0, _, best, p, s => (.ok (match best with
    | some x => (x.2, 0, p)
    | none => (0xFFFFFFFF, 1, p)), s)
  | n + 1, i, best, p, s =>
    match e.mapRead l s (l.data + BitVec.ofNat 64 (16 + 8 * i)) 8 with
    | (.error st, s) => (.error st, s)
    | (.ok (v, q), s) =>
      let nw := bits v 63 32
      let ci := bits v 31 0
      let p := p.or q
      if nci ≤ ci || (match best with
        | some x => nw ≤ x.1
        | none => false) then (.ok (0xFFFFFFFF, 2, p), s)
      else if w < nw then (.ok (match best with
        | some x => (x.2, 0, p)
        | none => (0xFFFFFFFF, 1, p)), s)
      else e.mapScan l nci w n (i + 1) (some (nw, ci)) p s
/-- The lookup of native address x (R435). -/
def Env.mapLookup (e : Env) (s : State) (x : DWord) : Except Stop MapRes × State :=
  match s.launch e.k.launch with
  | none => (.ok (0xFFFFFFFF, 2, none), s)
  | some l =>
    match e.mapRead l s l.data 16 with
    | (.error st, s) => (.error st, s)
    | (.ok (h, p), s) =>
      let nent := bits h 95 64
      let off := (x - l.text).toNat
      if bits h 127 96 != 0x50414D58 || nent == 0 then (.ok (0xFFFFFFFF, 2, p), s)
      else if x.toNat % 8 != 0 || x.toNat < l.text.toNat || 8 * l.textWords ≤ off then (.ok (0xFFFFFFFF, 1, p), s)
      else e.mapScan l (bits h 63 32) (off / 8) nent 0 none p s
/-- XLMAP lookup (R435). -/
def execXlmap (f : FA) (s : State) : Out :=
  issue (.xlmap f) f.pred f.pneg (some f.sbs.toNat) (fun e s =>
    match e.mapLookup s (e.r64 f.a) with
    | (.error st, s) => (s, some st)
    | (.ok (a, b, p), s) =>
      (e.addOp s f.sbs (destRegs f.d 8) (some [BitVec.ofNat 32 a, BitVec.ofNat 32 b]) p false .none, none)) s
/-- XLMAP raise (R436). -/
def execXlmapRaise (f : FA) (s : State) : Out :=
  issue (.xlmapRaise f) f.pred f.pneg none (fun e s =>
    match e.mapLookup s e.iaddr with
    | (.error st, s) => (s, some st)
    | (.ok (a, _, _), s) => (s, some (.trap (cCompatProfile + f.mf 1 7) (BitVec.ofNat 32 a) 0 false false))) s

end Sys2Proof.Machine
end

