-- ==== Sys2Proof/Machine/Dispatch.lean ====
section
/-! DEFINITION. The dispatch of every instruction and event to its meaning. -/

namespace Sys2Proof.Machine

/-- The meaning of every instruction and device event. -/
def exec (i : Instr) (s : State) : Host.Outcome State Fault Refusal :=
  match i with
  | .nop f => Sys2Proof.Machine.execNop f s
  | .mov f => Sys2Proof.Machine.execMov f s
  | .movi f => Sys2Proof.Machine.execMovi f s
  | .movk f => Sys2Proof.Machine.execMovk f s
  | .iadd f => Sys2Proof.Machine.execIadd f s
  | .iaddI f => Sys2Proof.Machine.execIaddI f s
  | .isub f => Sys2Proof.Machine.execIsub f s
  | .isubI f => Sys2Proof.Machine.execIsubI f s
  | .imul f => Sys2Proof.Machine.execImul f s
  | .imulI f => Sys2Proof.Machine.execImulI f s
  | .imulhi f => Sys2Proof.Machine.execImulhi f s
  | .imad f => Sys2Proof.Machine.execImad f s
  | .imadw f => Sys2Proof.Machine.execImadw f s
  | .iadd64 f => Sys2Proof.Machine.execIadd64 f s
  | .isub64 f => Sys2Proof.Machine.execIsub64 f s
  | .imin f => Sys2Proof.Machine.execImin f s
  | .iminI f => Sys2Proof.Machine.execIminI f s
  | .imax f => Sys2Proof.Machine.execImax f s
  | .imaxI f => Sys2Proof.Machine.execImaxI f s
  | .iabs f => Sys2Proof.Machine.execIabs f s
  | .ineg f => Sys2Proof.Machine.execIneg f s
  | .logt f => Sys2Proof.Machine.execLogt f s
  | .and f => Sys2Proof.Machine.execAnd f s
  | .andI f => Sys2Proof.Machine.execAndI f s
  | .or f => Sys2Proof.Machine.execOr f s
  | .orI f => Sys2Proof.Machine.execOrI f s
  | .xor f => Sys2Proof.Machine.execXor f s
  | .xorI f => Sys2Proof.Machine.execXorI f s
  | .not f => Sys2Proof.Machine.execNot f s
  | .shl f => Sys2Proof.Machine.execShl f s
  | .shlI f => Sys2Proof.Machine.execShlI f s
  | .shr f => Sys2Proof.Machine.execShr f s
  | .shrI f => Sys2Proof.Machine.execShrI f s
  | .sar f => Sys2Proof.Machine.execSar f s
  | .sarI f => Sys2Proof.Machine.execSarI f s
  | .shf f => Sys2Proof.Machine.execShf f s
  | .bfx f => Sys2Proof.Machine.execBfx f s
  | .bfi f => Sys2Proof.Machine.execBfi f s
  | .popc f => Sys2Proof.Machine.execPopc f s
  | .clz f => Sys2Proof.Machine.execClz f s
  | .ctz f => Sys2Proof.Machine.execCtz f s
  | .brev f => Sys2Proof.Machine.execBrev f s
  | .prmb f => Sys2Proof.Machine.execPrmb f s
  | .iset f => Sys2Proof.Machine.execIset f s
  | .isetI f => Sys2Proof.Machine.execIsetI f s
  | .iset64 f => Sys2Proof.Machine.execIset64 f s
  | .sel f => Sys2Proof.Machine.execSel f s
  | .lea f => Sys2Proof.Machine.execLea f s
  | .leaI f => Sys2Proof.Machine.execLeaI f s
  | .i2i f => Sys2Proof.Machine.execI2i f s
  | .plop f => Sys2Proof.Machine.execPlop f s
  | .pset f => Sys2Proof.Machine.execPset f s
  | .srd f => Sys2Proof.Machine.execSrd f s
  | .cyc f => Sys2Proof.Machine.execCyc f s
  | .gpoll f => Sys2Proof.Machine.execGpoll f s
  | .gxch f => Sys2Proof.Machine.execGxch f s
  | .gpeer f => Sys2Proof.Machine.execGpeer f s
  | .bra f => Sys2Proof.Machine.execBra f s
  | .brx f => Sys2Proof.Machine.execBrx f s
  | .call f => Sys2Proof.Machine.execCall f s
  | .ret f => Sys2Proof.Machine.execRet f s
  | .exit f => Sys2Proof.Machine.execExit f s
  | .jset f => Sys2Proof.Machine.execJset f s
  | .jwait f => Sys2Proof.Machine.execJwait f s
  | .yield f => Sys2Proof.Machine.execYield f s
  | .fadd f => Sys2Proof.Machine.execFadd f s
  | .faddI f => Sys2Proof.Machine.execFaddI f s
  | .fmul f => Sys2Proof.Machine.execFmul f s
  | .fmulI f => Sys2Proof.Machine.execFmulI f s
  | .ffma f => Sys2Proof.Machine.execFfma f s
  | .fmulz f => Sys2Proof.Machine.execFmulz f s
  | .fmin f => Sys2Proof.Machine.execFmin f s
  | .fmax f => Sys2Proof.Machine.execFmax f s
  | .fset f => Sys2Proof.Machine.execFset f s
  | .fsetI f => Sys2Proof.Machine.execFsetI f s
  | .fclass f => Sys2Proof.Machine.execFclass f s
  | .frnd f => Sys2Proof.Machine.execFrnd f s
  | .f2i f => Sys2Proof.Machine.execF2i f s
  | .i2f f => Sys2Proof.Machine.execI2f f s
  | .f2f f => Sys2Proof.Machine.execF2f f s
  | .fsf f => Sys2Proof.Machine.execFsf f s
  | .pkadd f => Sys2Proof.Machine.execPkadd f s
  | .pkmul f => Sys2Proof.Machine.execPkmul f s
  | .pkfma f => Sys2Proof.Machine.execPkfma f s
  | .pkdot f => Sys2Proof.Machine.execPkdot f s
  | .dadd f => Sys2Proof.Machine.execDadd f s
  | .dmul f => Sys2Proof.Machine.execDmul f s
  | .dfma f => Sys2Proof.Machine.execDfma f s
  | .ld f => Sys2Proof.Machine.execLd f s
  | .st f => Sys2Proof.Machine.execSt f s
  | .ldl f => Sys2Proof.Machine.execLdl f s
  | .stl f => Sys2Proof.Machine.execStl f s
  | .ldp f => Sys2Proof.Machine.execLdp f s
  | .stp f => Sys2Proof.Machine.execStp f s
  | .ldk f => Sys2Proof.Machine.execLdk f s
  | .atom f => Sys2Proof.Machine.execAtom f s
  | .red f => Sys2Proof.Machine.execRed f s
  | .atoml f => Sys2Proof.Machine.execAtoml f s
  | .acq f => Sys2Proof.Machine.execAcq f s
  | .rel f => Sys2Proof.Machine.execRel f s
  | .phase f => Sys2Proof.Machine.execPhase f s
  | .pref f => Sys2Proof.Machine.execPref f s
  | .cline f => Sys2Proof.Machine.execCline f s
  | .drainst f => Sys2Proof.Machine.execDrainst f s
  | .vcqry f => Sys2Proof.Machine.execVcqry f s
  | .bar f => Sys2Proof.Machine.execBar f s
  | .bararv f => Sys2Proof.Machine.execBararv f s
  | .barwait f => Sys2Proof.Machine.execBarwait f s
  | .boinit f => Sys2Proof.Machine.execBoinit f s
  | .boexp f => Sys2Proof.Machine.execBoexp f s
  | .boarv f => Sys2Proof.Machine.execBoarv f s
  | .bowait f => Sys2Proof.Machine.execBowait f s
  | .botest f => Sys2Proof.Machine.execBotest f s
  | .qdef f => Sys2Proof.Machine.execQdef f s
  | .qpush f => Sys2Proof.Machine.execQpush f s
  | .qpop f => Sys2Proof.Machine.execQpop f s
  | .qtry f => Sys2Proof.Machine.execQtry f s
  | .cpy f => Sys2Proof.Machine.execCpy f s
  | .cpyg f => Sys2Proof.Machine.execCpyg f s
  | .cpys f => Sys2Proof.Machine.execCpys f s
  | .cpyfill f => Sys2Proof.Machine.execCpyfill f s
  | .ctload f => Sys2Proof.Machine.execCtload f s
  | .decent f => Sys2Proof.Machine.execDecent f s
  | .decbr f => Sys2Proof.Machine.execDecbr f s
  | .mresv f => Sys2Proof.Machine.execMresv f s
  | .mrels f => Sys2Proof.Machine.execMrels f s
  | .mload f => Sys2Proof.Machine.execMload f s
  | .mcbl f => Sys2Proof.Machine.execMcbl f s
  | .mma f => Sys2Proof.Machine.execMma f s
  | .mmai f => Sys2Proof.Machine.execMmai f s
  | .mzero f => Sys2Proof.Machine.execMzero f s
  | .mstore f => Sys2Proof.Machine.execMstore f s
  | .mstat f => Sys2Proof.Machine.execMstat f s
  | .mchk f => Sys2Proof.Machine.execMchk f s
  | .rayq f => Sys2Proof.Machine.execRayq f s
  | .sqnop f => Sys2Proof.Machine.execSqnop f s
  | .sqloop f => Sys2Proof.Machine.execSqloop f s
  | .sqend f => Sys2Proof.Machine.execSqend f s
  | .sqwaitc f => Sys2Proof.Machine.execSqwaitc f s
  | .sqboarv f => Sys2Proof.Machine.execSqboarv f s
  | .sqbowait f => Sys2Proof.Machine.execSqbowait f s
  | .seqCpy f => Sys2Proof.Machine.execSeqCpy f s
  | .seqCpyg f => Sys2Proof.Machine.execSeqCpyg f s
  | .seqCpys f => Sys2Proof.Machine.execSeqCpys f s
  | .seqCpyfill f => Sys2Proof.Machine.execSeqCpyfill f s
  | .seqCtload f => Sys2Proof.Machine.execSeqCtload f s
  | .seqDecent f => Sys2Proof.Machine.execSeqDecent f s
  | .seqDecbr f => Sys2Proof.Machine.execSeqDecbr f s
  | .seqMresv f => Sys2Proof.Machine.execSeqMresv f s
  | .seqMrels f => Sys2Proof.Machine.execSeqMrels f s
  | .seqMload f => Sys2Proof.Machine.execSeqMload f s
  | .seqMcbl f => Sys2Proof.Machine.execSeqMcbl f s
  | .seqMma f => Sys2Proof.Machine.execSeqMma f s
  | .seqMmai f => Sys2Proof.Machine.execSeqMmai f s
  | .seqMzero f => Sys2Proof.Machine.execSeqMzero f s
  | .seqMstore f => Sys2Proof.Machine.execSeqMstore f s
  | .seqMstat f => Sys2Proof.Machine.execSeqMstat f s
  | .seqMchk f => Sys2Proof.Machine.execSeqMchk f s
  | .paypush f => Sys2Proof.Machine.execPaypush f s
  | .paypop f => Sys2Proof.Machine.execPaypop f s
  | .mcount f => Sys2Proof.Machine.execMcount f s
  | .mvert f => Sys2Proof.Machine.execMvert f s
  | .mprim f => Sys2Proof.Machine.execMprim f s
  | .mdone f => Sys2Proof.Machine.execMdone f s
  | .vispop f => Sys2Proof.Machine.execVispop f s
  | .visget f => Sys2Proof.Machine.execVisget f s
  | .rgnacq f => Sys2Proof.Machine.execRgnacq f s
  | .rgnrel f => Sys2Proof.Machine.execRgnrel f s
  | .rtblend f => Sys2Proof.Machine.execRtblend f s
  | .tex f => Sys2Proof.Machine.execTex f s
  | .tld f => Sys2Proof.Machine.execTld f s
  | .tqry f => Sys2Proof.Machine.execTqry f s
  | .trap f => Sys2Proof.Machine.execTrap f s
  | .tret f => Sys2Proof.Machine.execTret f s
  | .frginfo f => Sys2Proof.Machine.execFrginfo f s
  | .sfqpop f => Sys2Proof.Machine.execSfqpop f s
  | .killf f => Sys2Proof.Machine.execKillf f s
  | .bpt f => Sys2Proof.Machine.execBpt f s
  | .launch f => Sys2Proof.Machine.execLaunch f s
  | .fork f => Sys2Proof.Machine.execFork f s
  | .rdv f => Sys2Proof.Machine.execRdv f s
  | .setprio f => Sys2Proof.Machine.execSetprio f s
  | .tmode f => Sys2Proof.Machine.execTmode f s
  | .xldec f => Sys2Proof.Machine.execXldec f s
  | .xlmap f => Sys2Proof.Machine.execXlmap f s
  | .xlmapRaise f => Sys2Proof.Machine.execXlmapRaise f s
  | .vcdef f => Sys2Proof.Machine.execVcdef f s
  | .vcsize f => Sys2Proof.Machine.execVcsize f s
  | .vcmove f => Sys2Proof.Machine.execVcmove f s
  | .vcflush f => Sys2Proof.Machine.execVcflush f s
  | .biasflip f => Sys2Proof.Machine.execBiasflip f s
  | .qfeat f => Sys2Proof.Machine.execQfeat f s
  | .clauseIssue blk tl => Sys2Proof.Machine.execClauseIssue blk tl s
  | .descheduleExpiry blk tl => Sys2Proof.Machine.execDescheduleExpiry blk tl s
  | .yieldExpiry blk tl => Sys2Proof.Machine.execYieldExpiry blk tl s
  | .stallExpiry blk tl => Sys2Proof.Machine.execStallExpiry blk tl s
  | .slotLanding blk tl op => Sys2Proof.Machine.execSlotLanding blk tl op s
  | .homeRelease req => Sys2Proof.Machine.execHomeRelease req s
  | .homeAcquire req => Sys2Proof.Machine.execHomeAcquire req s
  | .homeAtomic req => Sys2Proof.Machine.execHomeAtomic req s
  | .homeFill req => Sys2Proof.Machine.execHomeFill req s
  | .demandWriteBack core gen => Sys2Proof.Machine.execDemandWriteBack core gen s
  | .writeBackArrival core granule => Sys2Proof.Machine.execWriteBackArrival core granule s
  | .writeBackAck req => Sys2Proof.Machine.execWriteBackAck req s
  | .boostNotice core granule prio => Sys2Proof.Machine.execBoostNotice core granule prio s
  | .pageMoveSweepStep ctx idx frame => Sys2Proof.Machine.execPageMoveSweepStep ctx idx frame s
  | .vcCommandLanding cmd => Sys2Proof.Machine.execVcCommandLanding cmd s
  | .biasflipComplete cmd => Sys2Proof.Machine.execBiasflipComplete cmd s
  | .engineDelivery op => Sys2Proof.Machine.execEngineDelivery op s
  | .matrixOpStart op => Sys2Proof.Machine.execMatrixOpStart op s
  | .sqwaitcExpiry core kind => Sys2Proof.Machine.execSqwaitcExpiry core kind s
  | .frontEndRequest die => Sys2Proof.Machine.execFrontEndRequest die s
  | .paypushLanding blk => Sys2Proof.Machine.execPaypushLanding blk s
  | .packetArrival ctx p => Sys2Proof.Machine.execPacketArrival ctx p s
  | .watermarkFlit ctx gdie owner wm => Sys2Proof.Machine.execWatermarkFlit ctx gdie owner wm s
  | .launchHead ctx queue => Sys2Proof.Machine.execLaunchHead ctx queue s
  | .blockPlace launch => Sys2Proof.Machine.execBlockPlace launch s
  | .completionRecord launch => Sys2Proof.Machine.execCompletionRecord launch s
  | .preempt core => Sys2Proof.Machine.execPreempt core s
  | .graceExpiry core => Sys2Proof.Machine.execGraceExpiry core s
  | .engineDrainExpiry core => Sys2Proof.Machine.execEngineDrainExpiry core s
  | .blockRestore blk core => Sys2Proof.Machine.execBlockRestore blk core s
  | .fixedClockChange die quad => Sys2Proof.Machine.execFixedClockChange die quad s
  | .blockRelaunch blk core => Sys2Proof.Machine.execBlockRelaunch blk core s
  | .billingSend pkg ctx => Sys2Proof.Machine.execBillingSend pkg ctx s
  | .bootStep ok => Sys2Proof.Machine.execBootStep ok s
  | .create slot arg ptr => Sys2Proof.Machine.execCreate slot arg ptr s
  | .destroy slot arg ptr => Sys2Proof.Machine.execDestroy slot arg ptr s
  | .inval slot arg ptr => Sys2Proof.Machine.execInval slot arg ptr s
  | .frmopen slot arg ptr => Sys2Proof.Machine.execFrmopen slot arg ptr s
  | .frmclose slot arg ptr => Sys2Proof.Machine.execFrmclose slot arg ptr s
  | .frmrel slot arg ptr => Sys2Proof.Machine.execFrmrel slot arg ptr s
  | .resans slot arg ptr => Sys2Proof.Machine.execResans slot arg ptr s
  | .qbind slot arg ptr => Sys2Proof.Machine.execQbind slot arg ptr s
  | .migout slot arg ptr => Sys2Proof.Machine.execMigout slot arg ptr s
  | .migin slot arg ptr => Sys2Proof.Machine.execMigin slot arg ptr s
  | .hostCommandComplete => Sys2Proof.Machine.execHostCommandComplete s
  | .waitTimeout w => Sys2Proof.Machine.execWaitTimeout w s
  | .eviction core granule => Sys2Proof.Machine.execEviction core granule s
  | .directoryRecall granule => Sys2Proof.Machine.execDirectoryRecall granule s
  | .dirtyNotice granule pkg => Sys2Proof.Machine.execDirtyNotice granule pkg s
  | .hostSnoop pa inval => Sys2Proof.Machine.execHostSnoop pa inval s
  | .hostMemAccess pa data => Sys2Proof.Machine.execHostMemAccess pa data s
  | .bankSleep die bank => Sys2Proof.Machine.execBankSleep die bank s
  | .l2DectedSwitch die => Sys2Proof.Machine.execL2DectedSwitch die s
  | .mresvPartnerTimeout op => Sys2Proof.Machine.execMresvPartnerTimeout op s
  | .tokenTimeout ctx region => Sys2Proof.Machine.execTokenTimeout ctx region s
  | .frameTimeout ctx => Sys2Proof.Machine.execFrameTimeout ctx s
  | .pipelineEvaluation launch => Sys2Proof.Machine.execPipelineEvaluation launch s
  | .quadGate die quad => Sys2Proof.Machine.execQuadGate die quad s
  | .uncorrectableError site => Sys2Proof.Machine.execUncorrectableError site s
  | .corrected site => Sys2Proof.Machine.execCorrected site s
  | .scrub found => Sys2Proof.Machine.execScrub found s
  | .dieLost die => Sys2Proof.Machine.execDieLost die s
  | .heartbeatSend => Sys2Proof.Machine.execHeartbeatSend s
  | .silenceNotice pkg plane => Sys2Proof.Machine.execSilenceNotice pkg plane s
  | .linkLaneLoss link lane => Sys2Proof.Machine.execLinkLaneLoss link lane s
  | .linkRetrainDone link lanes => Sys2Proof.Machine.execLinkRetrainDone link lanes s
  | .remoteRequest q => Sys2Proof.Machine.execRemoteRequest q s
  | .podArrivalFlit gid src => Sys2Proof.Machine.execPodArrivalFlit gid src s
  | .podReleaseFlit gid => Sys2Proof.Machine.execPodReleaseFlit gid s
  | .billingFlit src ctx pj => Sys2Proof.Machine.execBillingFlit src ctx pj s
  | .fabricEnable digestsMatch => Sys2Proof.Machine.execFabricEnable digestsMatch s
  | .lostMarkClear pkg => Sys2Proof.Machine.execLostMarkClear pkg s
  | .powerEvaluation die m => Sys2Proof.Machine.execPowerEvaluation die m s
  | .energyAccounting die quad nj shares => Sys2Proof.Machine.execEnergyAccounting die quad nj shares s
  | .thermalReading die quad temp base => Sys2Proof.Machine.execThermalReading die quad temp base s
  | .droopDetect die quad => Sys2Proof.Machine.execDroopDetect die quad s
  | .droopLimit die quad => Sys2Proof.Machine.execDroopLimit die quad s
  | .droopRecover die quad => Sys2Proof.Machine.execDroopRecover die quad s
  | .droopFloorExpiry die quad => Sys2Proof.Machine.execDroopFloorExpiry die quad s
  | .regFailed die reg => Sys2Proof.Machine.execRegFailed die reg s
  | .pwrlimWrite v => Sys2Proof.Machine.execPwrlimWrite v s
  | .packageReset => Sys2Proof.Machine.execPackageReset s
  | .pkgctlRst v => Sys2Proof.Machine.execPkgctlRst v s
  | .tailReread ctx queue => Sys2Proof.Machine.execTailReread ctx queue s
  | .registerWrite off v => Sys2Proof.Machine.execRegisterWrite off v s
  | .stretchedCycle die quad stillLow => Sys2Proof.Machine.execStretchedCycle die quad stillLow s
  | .shuntClamp die quad => Sys2Proof.Machine.execShuntClamp die quad s
  | .way7ReturnToVc1 die => Sys2Proof.Machine.execWay7ReturnToVc1 die s

end Sys2Proof.Machine
end

