-- ==== Sys2Proof/Machine/Timing.lean ====
section
/-! DEFINITION. Constant times: the issue intervals of fixed-timing contexts, and which event of a clock comes first
(spec/10_distributor.md R290, R294; spec/11_copy.md R321; spec/12_matrix.md R345, R347; notes/assumptions/4.md). -/

namespace Sys2Proof.Machine

/-- Cycles from the issue of an instruction to the next of the same group or sequencer in a fixed-timing context (R294). -/
def interval : Instr → Option Nat
  | .nop _ | .mov _ | .movi _ | .movk _ | .iadd _ | .iaddI _ | .isub _ | .isubI _ | .imin _ | .iminI _ | .imax _ | .imaxI _ | .iabs _
  | .ineg _ | .logt _ | .and _ | .andI _ | .or _ | .orI _ | .xor _ | .xorI _ | .not _ | .shl _ | .shlI _ | .shr _ | .shrI _ | .sar _
  | .sarI _ | .shf _ | .bfx _ | .bfi _ | .popc _ | .clz _ | .ctz _ | .brev _ | .prmb _ | .iset _ | .isetI _ | .sel _ | .lea _ | .leaI _
  | .i2i _ | .plop _ | .pset _ | .srd _ | .cyc _ | .bra _ | .brx _ | .call _ | .ret _ | .jset _ | .fork _ | .sqloop _ => some 2
  | .imul _ | .imulI _ | .imulhi _ | .imad _ | .imadw _ | .iadd64 _ | .isub64 _ | .iset64 _ | .fadd _ | .faddI _ | .fmul _ | .fmulI _
  | .ffma _ | .fmulz _ | .fmin _ | .fmax _ | .fset _ | .fsetI _ | .fclass _ | .frnd _ | .f2i _ | .i2f _ | .f2f _ | .pkadd _ | .pkmul _
  | .pkfma _ => some 4
  | .pkdot _ | .gpoll _ | .gxch _ | .gpeer _ => some 6
  | .fsf _ => some 12
  | .dadd _ | .dmul _ | .dfma _ => some 16
  | .ldl _ | .stl _ | .ldp _ | .stp _ | .atoml _ | .sqnop _ | .sqboarv _ | .sqwaitc _ | .sqbowait _ | .seqCpy _ | .seqCpyg _ | .seqCpys _
  | .seqCpyfill _ | .seqCtload _ | .seqDecent _ | .seqDecbr _ | .seqMresv _ | .seqMrels _ | .seqMload _ | .seqMcbl _ | .seqMma _
  | .seqMmai _ | .seqMzero _ | .seqMstore _ | .seqMstat _ | .seqMchk _ => some 1
  | _ => none

/-! ### What is due

The quads that run the pinned reference count one time (R294), domain 0; every other quad counts its own. -/

def State.domain (s : State) (key : Nat) : Nat := if (s.quadAt key).clock.isPinned then 0 else key + 1
/-- What is due on a quad at a cycle: its domain, and the cycles left until then. -/
def State.dueAt (s : State) (key n : Nat) : Nat × Nat := (s.domain key, n - (s.quadAt key).cyc)
/-- A matrix operation may start: it starts in this cycle (R345). -/
def State.startable (s : State) (o : EngOp) : Bool :=
  !o.saved && o.kind.unit == 1 && !o.started && o.cause == 0 && !s.queued o
/-- The sequencer's owner is of a fixed-timing context. -/
def State.seqFixed (s : State) (q : Sequencer) : Bool := ((s.block q.owner).map fun k => s.blockFixed k).getD false
/-- Everything that happens at a constant time. -/
def State.dues (s : State) : List (Nat × Nat) :=
  (s.opens.filterMap fun o => match o with
    | .grp g => (s.block g.blk).bind fun k => g.due.map (s.dueAt (s.quadKeyOf k.core))
    | .seq c kd => let q := s.sq c kd; if s.seqMayIssue c q then q.due.map (s.dueAt (s.quadKeyOf c)) else none) ++
    (s.cores.map fun p => ([p.2.cseq, p.2.mseq].filterMap fun q =>
      if q.running && p.2.drain < 2 && s.seqFixed q then
        q.holdT.map fun t => s.dueAt (s.quadKeyOf (coreOfKey p.1)) (q.scyc0 + t).toNat else none)).flatten ++
    (s.later.map fun x => s.dueAt (s.quadKeyOf x.core) x.due) ++
    (s.engs.filterMap fun o =>
      if s.startable o then some (s.domain (s.quadKeyOf o.core), 0)
      else if o.saved then none else o.due.map (s.dueAt (s.quadKeyOf o.core))) ++
    ((s.blocks.filter fun k => !k.saved && s.blockFixed k).map fun k => (k.threads.map fun t =>
      t.ops.filterMap fun (o : SlotOp) => if o.val.isSome then o.due.map (s.dueAt (s.quadKeyOf k.core)) else none).flatten).flatten
/-- Nothing of the quad's clock is due before cycle n. -/
def State.mayReach (s : State) (ds : List (Nat × Nat)) (key n : Nat) : Bool :=
  let d := s.dueAt key n
  ds.all fun x => x.1 != d.1 || decide (d.2 ≤ x.2)
/-- What is due at a constant time may happen now; without one, at any time. -/
def State.dueNow (s : State) (ds : List (Nat × Nat)) (key : Nat) (d : Option Nat) : Bool :=
  match d with
  | some n => s.mayReach ds key n
  | none => true
/-- Cycles that may pass on a quad before what is due next. -/
def State.atMost (s : State) (ds : List (Nat × Nat)) (key n : Nat) : Nat :=
  let d := s.domain key
  ds.foldl (fun n x => if x.1 == d then min n x.2 else n) n

/-! ### Issue at a constant time -/

/-- The front group without its constant time, as its instruction issues. -/
def State.clearDue (s : State) : State :=
  match s.opens with
  | .grp g :: rest => { s with opens := .grp { g with due := none } :: rest }
  | _ => s
/-- The clause of a group ended at cycle n for the threads that go on. -/
def State.clauseEnds (s : State) (g : Group) (n : Nat) : State :=
  s.modBlock g.blk fun k => { k with threads := k.threads.zipIdx.map fun (p : Thread × Nat) =>
    if p.1.status.isReady && g.lanes.any (fun l => l.2 == p.2) then { p.1 with clauseEnd := n } else p.1 }
/-- After the instruction i of group g issued in a fixed-timing context: the next one has a constant time, or the clause ended when
its interval had passed (R294). -/
def State.pace (s : State) (g : Group) (k : Block) (i : Instr) : State :=
  if !s.blockFixed k then s
  else
    let cyc := (s.quad k.core).cyc
    match s.opens, interval i with
    | .grp h :: rest, some n =>
      if h.blk == g.blk && h.hdr == g.hdr && h.idx == g.idx + 1 then { s with opens := .grp { h with due := some (cyc + n) } :: rest }
      else s.clauseEnds g (cyc + n)
    | _, some n => s.clauseEnds g (cyc + n)
    | _, none => s
/-- After a sequencer's instruction i. -/
def State.paceSeq (s : State) (c : CoreRef) (kd : SeqKind) (was : Sequencer) (i : Instr) : State :=
  let q := s.sq c kd
  if s.seqFixed q && q.running && q.bowait.isNone && q.holdT.isNone && q != was then
    s.setSq c kd { q with due := (interval i).map ((s.quad c).cyc + ·) }
  else s

end Sys2Proof.Machine
end

