-- ==== Sys2Proof/Machine/Schedule.lean ====
section
/-! DEFINITION. What a step does around an instruction or an event: which one comes next, what follows at once, and the passing of time
(notes/assumptions/4.md, notes/assumptions/8.md). -/

namespace Sys2Proof.Machine

/-! ### Time and what follows at once -/

/-- Cycles that pass on a quad in a step: none while it is gated (spec/05_core_integer.md R148, spec/10_distributor.md R294). -/
def Quad.passes (q : Quad) (free key : Nat) : Nat :=
  if q.gated then 0 else if q.clock.isPinned then Config.elapsedPinned free else Config.elapsedCycles free key
/-- Time passes: on no quad beyond what is due at a constant time. -/
def State.tick (s : State) : State :=
  let f := s.clock.free
  let ds := s.dues
  { s.useFree with
    coal := []
    clock := { s.useFree.clock with ns := s.clock.ns + Config.elapsedNs f }
    quads := s.quads.map fun p => (p.1, { p.2 with cyc := p.2.cyc + s.atMost ds p.1 (p.2.passes f p.1) }) }
/-- What follows at once. -/
def State.settle (s : State) : State :=
  s.settleLater.settleSeqs.settleThreads.settleSaves.settleDrains.settleEnds.settleNarrows.settlePower.settleRings.settleCaches.settleLinks
/-- The end of every step. -/
def State.after (s : State) : State := s.settle.tick

/-! ### Events that the device itself may bring about next -/

/-- Blocks on their cores. -/
def State.residents (s : State) : List Block := s.blocks.filter fun k => !k.saved && !k.relaunch
/-- Landings of slot operations whose words are known (spec/04_encoding.md R118). -/
def State.landings (s : State) (ds : List (Nat × Nat)) : List Instr :=
  (s.blocks.map fun k => (k.threads.zipIdx.map fun t =>
    (t.1.ops.filter fun (o : SlotOp) => o.val.isSome && s.dueNow ds (s.quadKeyOf k.core) o.due).map fun o => Instr.slotLanding k.id t.2 o.id).flatten).flatten
/-- The event of a request. -/
def HomeReq.event (q : HomeReq) : Instr :=
  match q.kind with
  | .fill => .homeFill q.id
  | .acquire => .homeAcquire q.id
  | .atomic => .homeAtomic q.id
  | .release => .homeRelease q.id
/-- Requests, write-backs, demands, acknowledgements and boost notices. -/
def State.homeEvents (s : State) : List Instr :=
  ((s.reqs.filter fun q => (s.bunch q).all fun p => s.reqReady p && !p.stage.waits).map HomeReq.event) ++
    ((s.fences.filter fun f => s.fenceDone f && f.remote.isNone).map fun f => Instr.writeBackAck f.id) ++
    ((s.cores.map fun c => (c.2.dirty.filter fun d => d.2.wb && s.reachable (d.1 * 128) && !s.flitWaits 9 d.1).map fun d => Instr.writeBackArrival (coreOfKey c.1) d.1).flatten) ++
    (s.fences.filterMap fun f => f.who.demanded.bind fun r =>
        let c : CoreRef := ⟨r.rdie.toNat, r.rcore.toNat⟩
        if f.lines.any fun l => ((tget (s.core c).dirty l.2).map fun d => !d.wb && !s.movingFrame (l.2 / 32)) == some true then
          some (Instr.demandWriteBack c r.rgen) else none) ++
    (s.notices.map fun n => Instr.boostNotice n.1 n.2.1 n.2.2)
/-- Commands of the memory-cache engine. -/
def State.vcEvents (s : State) : List Instr :=
  (s.vcCmds.filterMap fun c => match c.cmd with
    | .resize i _ _ => if c.window then c.left.head?.map fun f => .pageMoveSweepStep c.ctx i f.1 else none
    | .move i _ _ => if c.window then c.left.head?.map fun f => .pageMoveSweepStep c.ctx i f.1 else none
    | .bias _ _ true fr n => if s.pendingOn fr n then none else some (.biasflipComplete c.id)
    | _ => none) ++
    (s.vcCmds.filter fun c => match c.cmd with
      | .bias _ _ b fr _ => !b && !s.movingFrame fr
      | .flush i _ => !c.window && !s.vcBefore c i
      | .define i _ _ => !s.vcBefore c i
      | .resize i _ _ => if c.window then c.left.isEmpty else !s.vcBefore c i
      | .move i _ _ => if c.window then c.left.isEmpty else !s.vcBefore c i).map fun c => Instr.vcCommandLanding c.id
/-- An engine operation may deliver. -/
def State.engReady (s : State) (ds : List (Nat × Nat)) (o : EngOp) : Bool :=
  !o.saved && s.dueNow ds (s.quadKeyOf o.core) o.due && (o.cause != 0 || (match o.kind.unit with
    | 0 => o.kind.eng != 2 || s.decodeTurn o
    | 1 => o.started && o.due.isSome
    | _ => true))
/-- Engines, sequencers, payloads, the front end and the Narrows. -/
def State.engineEvents (s : State) (ds : List (Nat × Nat)) : List Instr :=
  ((s.engs.filter fun (o : EngOp) => s.startable o).map fun o => Instr.matrixOpStart o.id) ++
    ((s.pushes.filter fun p => p.ready).map fun p => Instr.paypushLanding p.blk) ++
    (s.fronts.map fun r => Instr.frontEndRequest r.die) ++
    (s.narrows.map fun m => match m.flit with
      | .packet p => Instr.packetArrival m.ctx p
      | .watermark w => Instr.watermarkFlit m.ctx m.gdie m.owner (BitVec.ofNat 48 w)) ++
    ((s.engs.filter fun o => s.engReady ds o).map fun o => Instr.engineDelivery o.id) ++
    ((s.cores.map fun c => ([SeqKind.copy, SeqKind.matrix].filter fun k =>
      let q := s.sq (coreOfKey c.1) k
      q.running && c.2.drain < 2 && (match q.holdT with
        | some t => s.mayReach ds (s.quadKeyOf (coreOfKey c.1)) (q.scyc0 + t).toNat
        | none => false)).map fun k => Instr.sqwaitcExpiry (coreOfKey c.1) k).flatten)
/-- A launch has a block to place and no core can take it now. -/
def State.waitsForCores (s : State) (l : Launch) : Bool :=
  l.state == .running && l.outState == 0 &&
    (if !l.stageK.isEmpty then (List.range l.stageK.length).any (fun i => (l.nextOf (i + 1)).isSome) && (s.choices l).isEmpty
     else if l.coop then l.placed == 0 && (match lget l.kernels l.kidx with
       | some k => !s.coopFits l k (coopPlan l (s.rectOf l))
       | none => false)
     else decide (l.placed < l.nblk) && (s.choices l).isEmpty)
/-- A launch is of priority at least 16 higher than the victim of a core that it waits for (spec/10_distributor.md R296). -/
def State.preempts (s : State) (l : Launch) : List Instr :=
  if !s.waitsForCores l then []
  else ((s.rectOf l).filter fun c => (s.core c).drain == 0 && (match (s.victim c).bind s.launch with
    | some v => v.prio.toNat + 16 ≤ l.prio.toNat
    | none => false)).map Instr.preempt
/-- The work distributor: heads of queues, placing, completion, saving and restoring, clocks. -/
def State.distEvents (s : State) : List Instr :=
  ((s.ctxs.map fun c => (c.2.queues.filter fun q => (!q.2.entries.isEmpty && s.headFirst c.1 q.1) ||
      s.launches.any fun l => l.ctx == c.1 && l.queue == q.1 && l.state == .resident && l.awaits.isNone && !s.mustWait l).map fun q => Instr.launchHead c.1 q.1).flatten) ++
    ((s.launches.filter fun l => l.state == .running && l.outState == 0 && (if l.coop then l.placed == 0 else !(s.choices l).isEmpty)).map fun l => Instr.blockPlace l.id) ++
    ((s.launches.filter fun l => l.state == .ended).map fun l => Instr.completionRecord l.id) ++
    ((s.cores.filter fun c => c.2.drain == 1).map fun c => Instr.graceExpiry (coreOfKey c.1)) ++
    ((s.cores.filter fun c => c.2.drain == 2 && ((s.saveCores (coreOfKey c.1)).map fun x => s.victims x).flatten.all fun k => s.canSave k).map fun c =>
      Instr.engineDrainExpiry (coreOfKey c.1)) ++
    ((s.blocks.filter fun k => k.saved).filterMap fun k => (((s.launch k.launch).map fun l => s.rectOf l).getD []).find? (fun c => s.canRestore k c) |>.map fun c =>
      Instr.blockRestore k.id c) ++
    ((s.blocks.filter fun k => k.relaunch).filterMap fun k => (((s.launch k.launch).map fun l => s.rectOf l).getD []).find? (fun c => s.canRelaunch k c) |>.map fun c =>
      Instr.blockRelaunch k.id c) ++
    ((s.quads.filter fun q => (q.2.clock == .toPinned || q.2.clock == .toElastic) && !s.quadIssuing q.1).map fun q => Instr.fixedClockChange (q.1 / 64) (q.1 % 64)) ++
    (s.launches.map fun l => s.preempts l).flatten
/-- The event that performs a host command. -/
def HostCmd.event (c : HostCmd) : Option Instr :=
  let a := BitVec.ofNat 10 c.slot
  let b := BitVec.ofNat 46 c.arg
  let p := BitVec.ofNat 64 c.ptr
  match c.op with
  | 1 => some (.create a b p)
  | 2 => some (.destroy a b p)
  | 3 => some (.inval a b p)
  | 4 => some (.frmopen a b p)
  | 5 => some (.frmclose a b p)
  | 6 => some (.frmrel a b p)
  | 7 => some (.resans a b p)
  | 8 => some (.qbind a b p)
  | 9 => some (.migout a b p)
  | 10 => some (.migin a b p)
  | _ => none
/-- Boot, the host command in progress, billing. -/
def State.hostEvents (s : State) : List Instr :=
  (if s.host.done || s.host.fail then [] else [.bootStep true]) ++
    (match s.host.busy with
      | some c => if c.ready then [.hostCommandComplete] else c.event.toList
      | none => []) ++
    ((s.fab.billing.filter fun b => 2 ^ 20 ≤ b.2 && s.fab.en).map fun b => Instr.billingSend (BitVec.ofNat 14 (b.1 / 1024)) (BitVec.ofNat 10 b.1))
/-- A ready group as its core ranks it: priority, order of its oldest thread's previous issue, block number, first linear index, block
(R36). Its priority is the highest of its threads, which R36 does not settle where they differ; a tie of two launches' blocks of
one number goes on to the first linear index and then to the block placed first (notes/assumptions/45.md). -/
structure Rank where
  prio : Nat
  last : Nat
  num : Nat
  first : Nat
  blk : Nat
  deriving DecidableEq, Repr
/-- The rank of a group of a block. -/
def Block.rank (k : Block) (tls : List Nat) : Rank :=
  let ts := tls.map k.thread
  ⟨(ts.map (·.nextPrio)).foldl max 0, ((ts.map (·.lastIssue)).min?).getD 0, k.num, tls.headD 0, k.id⟩
/-- a issues before b on one core (R36). -/
def issuesBefore (a b : Rank) : Bool :=
  if a.prio != b.prio then decide (b.prio < a.prio)
  else if a.last != b.last then decide (a.last < b.last)
  else if a.num != b.num then decide (a.num < b.num)
  else decide (a.first < b.first)
/-- The clause that each core with a free slot issues next (R36). -/
def State.issueEvents (s : State) : List Instr :=
  let gs := (s.residents.map fun k => (s.readyGroups k).map fun g => (k.core, k.rank g)).flatten
  ((nub (gs.map (·.1))).filterMap fun c =>
    let mine := (gs.filter fun x => x.1 == c).map (·.2)
    if (s.freeSlot c).isNone then none else mine.find? fun a => mine.all fun b => a == b || !issuesBefore b a).map fun r =>
      Instr.clauseIssue r.blk r.first
/-- Clauses already open: another group may go on first. -/
def State.openEvents (s : State) (ds : List (Nat × Nat)) : List Instr :=
  s.opens.filterMap fun o => match o with
    | .grp g => (s.block g.blk).bind fun k =>
      if s.dueNow ds (s.quadKeyOf k.core) g.due then g.lanes.head?.map fun l => .clauseIssue g.blk l.2 else none
    | .seq _ _ => none
/-- Expiries of short waits. -/
def State.idleEvents (s : State) (ds : List (Nat × Nat)) : List Instr :=
  (s.residents.map fun k => (k.threads.zipIdx.filterMap fun t => match t.1.status with
    | .ready => if !t.1.stallDone && s.mayReach ds (s.quadKeyOf k.core) (t.1.clauseEnd + 15) then some (Instr.stallExpiry k.id t.2) else none
    | .yielded _ => if s.mayReach ds (s.quadKeyOf k.core) (t.1.waitFrom + (256 - t.1.waitBase)) then some (.yieldExpiry k.id t.2) else none
    | .descheduled => if s.mayReach ds (s.quadKeyOf k.core) (t.1.waitFrom + (65536 - t.1.waitBase)) then some (.descheduleExpiry k.id t.2) else none
    | _ => none)).flatten
/-- Everything that the device may do next of itself. -/
def State.candidates (s : State) : List Instr :=
  let ds := s.dues
  s.hostEvents ++ s.landings ds ++ s.homeEvents ++ s.vcEvents ++ s.engineEvents ds ++ s.distEvents ++ s.issueEvents ++ s.idleEvents ds ++ s.openEvents ds
/-- The device event that happens next: a free choice among those that may (notes/assumptions/8.md). -/
def State.autonomous (s : State) : Option Instr :=
  let l := s.candidates
  lget l (s.freeVal.toNat % l.length)

end Sys2Proof.Machine
end

