-- ==== Sys2Proof/Machine/Step.lean ====
section
/-! DEFINITION. One step of the machine, and the placing of one instruction where the next step fetches it. -/

namespace Sys2Proof.Machine

/-- What a next state goes on with. -/
def andThen (f : State → State) (o : Host.Outcome State Fault Refusal) : Host.Outcome State Fault Refusal :=
  match o with
  | .next s => .next (f s)
  | r => r

/-- End a step: a next state settles and time passes. -/
def finish (o : Host.Outcome State Fault Refusal) : Host.Outcome State Fault Refusal := andThen State.after o

/-- The clause at the front issues its next instruction (spec/04_encoding.md R122 steps 4 and 5), at its constant time if it has one
(spec/10_distributor.md R294). -/
def issueFront (s : State) : Host.Outcome State Fault Refusal :=
  match s.opens with
  | .grp g :: rest =>
    match s.block g.blk with
    | none => .next { s with opens := rest }
    | some k =>
      let key := s.quadKeyOf k.core
      if !s.dueNow s.dues key g.due then .next s.rotate
      else
        let s := (s.reachDue key g.due).clearDue
        match g.instr k.regsN with
        | .ok i => andThen (fun t => t.pace g k i) (exec i s)
        | .error c => .next (s.groupTrap g c)
  | .seq c kd :: rest =>
    let q := s.sq c kd
    if !q.running || q.bowait.isSome || q.holdT.isSome then .next { s with opens := rest }
    else if !s.seqMayIssue c q then .next s.rotate
    else if q.head.isNone then .next (s.seqFetch c kd q)
    else if !s.dueNow s.dues (s.quadKeyOf c) q.due then .next s.rotate
    else
      let q := { q with due := none }
      let s := (s.reachDue (s.quadKeyOf c) (s.sq c kd).due).setSq c kd q
      match q.instr kd with
      | .ok i => andThen (fun t => t.paceSeq c kd q i) (exec i s)
      | .error cause => .next (s.endProgram c kd q cause)
  | [] => .next s

/-- One step (notes/assumptions/8.md): the next event of the agenda; else, when it is the device's turn or no clause is open, the event
that the device chooses; else the clause at the front issues. -/
def step (s : State) : Host.Outcome State Fault Refusal :=
  match s.agenda with
  | i :: rest => if i.isEvent then finish (exec i { s with agenda := rest }) else .next { s with agenda := rest }
  | [] =>
    match (if s.turn || s.opens.isEmpty then s.autonomous else none) with
    | some i => finish (exec i { s with turn := false })
    | none => finish (issueFront { s with turn := true })

/-- A context that withFetchWord makes when there is none. -/
def probeCtx : Ctx := ⟨0, 0, 0, 127, false, false, false, 0, 0, 0, 0, 0, [], 0, [], [], 0, [], none, none⟩

/-- An opcode of class SEQ that only a matrix sequencer issues (spec/10_distributor.md R289). -/
def matrixOpcode (w : DWord) : Bool := 0x50 ≤ (w.extractLsb' 56 8).toNat
/-- A sequencer that has fetched one clause of one word. -/
def probeSeq (b : Nat) (head : Header) (w : DWord) : Sequencer :=
  { running := true, owner := b, pc := 0x1000, hdr := 0x1000, head := some head, words := [w], a := List.replicate 8 0,
    st := List.replicate 8 0, n := List.replicate 4 0, c := List.replicate 4 0 }
/-- Place one instruction where the next step issues it: a block of one thread whose clause of that one instruction has been
fetched; an instruction of class SEQ is placed in a sequencer of the block's core (notes/assumptions/5.md, notes/assumptions/8.md). -/
def State.withFetchWord (s : State) (_nbits w : Nat) : State :=
  let cw := tableWord w
  let b := s.nextId
  let core : CoreRef := ⟨0, 0⟩
  let hdr : DWord := 0x1000
  let head : Header := ⟨cw.1, 0, 0, false, 0⟩
  let l : Launch :=
    { id := b, ctx := 0, queue := 0, sub := 0, coop := false, mesh := false, prio := 0, row0 := 0, col0 := 0, rows := 1, cols := 1,
      profile := 0, nblk := 1, podgrp := 0, cbank := 0, cbsize := 0, args := [], cplptr := 0, image := 0, text := 0x1000, textWords := 2, data := 0, imgSize := 2 ^ 32,
      kernels := [⟨0x1000, 1, 1, 1, 255, 4096, 0, 0, 0, 0, [], [], [], false, false⟩], kidx := 0, handler := none }
  let seq := cw.1 == .seq
  let kind : SeqKind := if matrixOpcode cw.2 then .matrix else .copy
  let k : Block :=
    { id := b, ctx := 0, launch := b, num := 0, core := core, kernel := 0, nx := 1, ny := 1, nz := 1, regsN := 255, localSize := 4096,
      privSize := 0, kregs := List.replicate 64 0
      threads := [if seq then {} else { status := .issuing, pc := 0x1010, hdr := 0x1000 }] }
  let s := { s with
    ctxs := if (tget s.ctxs 0).isSome then s.ctxs else tput s.ctxs 0 probeCtx
    launches := s.launches ++ [l]
    blocks := s.blocks ++ [k]
    nextId := b + 1
    agenda := []
    turn := false }
  if seq then { s.setSq core kind (probeSeq b head cw.2) with opens := .seq core kind :: s.opens }
  else { s with opens := .grp ⟨b, hdr, head, [cw.2], 0, [(0, 0)], 0, [], none, 0⟩ :: s.opens }

end Sys2Proof.Machine
end

