-- ==== Sys2Proof/Safety.lean ====
section
/-! DEFINITION. What counts as a safe run, and the words that the statements use: a clause being issued, the lanes that take part, the
state an instruction leaves, and what of it the flow of control may change. -/

set_option Elab.async false

namespace Sys2Proof.Safety

open Sys2Proof.Machine

/-- A state from which the next step goes on. -/
def StepsOn (s : State) : Prop := ∃ t, step s = .next t
/-- The memory at the homes stands in its one canonical form. -/
def Canonical (s : State) : Prop := Memory.wf s.mem = true

/-! ### The flow of control

The end of an instruction moves its group on, or ends the clause (spec/02_execution.md R34, spec/04_encoding.md R101): that touches the
schedule, the number of the next free value, and, of threads that run, where they stand. `still` leaves these out. -/

/-- A thread but for where it stands, if it runs; a thread that waits stands as it is. -/
def stillThread (t : Thread) : Thread :=
  match t.status with
  | .issuing => { t with status := .ready, pc := 0, hdr := 0, stallDone := false, clauseEnd := 0, waitBase := 0 }
  | .ready => { t with status := .ready, pc := 0, hdr := 0, stallDone := false, clauseEnd := 0, waitBase := 0 }
  | .waiting (.killf _) => { t with status := .ready, pc := 0, hdr := 0, stallDone := false, clauseEnd := 0, waitBase := 0 }
  | _ => t
def stillBlock (k : Block) : Block := { k with threads := k.threads.map stillThread }
/-- A state but for the flow of control. -/
def still (s : State) : State :=
  { s with opens := [], clock := { s.clock with free := 0 }, blocks := s.blocks.map stillBlock }
/-- A state but for the flow of control and the threads. -/
def apart (s : State) : State :=
  { s with opens := [], clock := { s.clock with free := 0 }, blocks := s.blocks.map fun k => { k with threads := [] } }

/-! ### A clause being issued (spec/02_execution.md R33, spec/04_encoding.md R108, R122) -/

/-- Group g of block k issues next: its threads are threads of the block, each at one position, being issued. -/
structure Issuing (s : State) (g : Group) (k : Block) : Prop where
  front : s.opens.head? = some (.grp g)
  block : s.block g.blk = some k
  inBlock : ∀ p ∈ g.lanes, p.2 < k.threads.length
  once : (g.lanes.map (·.2)).Nodup
  issuing : ∀ p ∈ g.lanes, (k.thread p.2).status = .issuing
/-- As Issuing; every lane whose guard is true may read its sources (spec/04_encoding.md R122 step 6; spec/20_reliability.md R489), and no
thread of the group has been ended by a KILLF (spec/09_core_traps.md R269). -/
structure Ready (i : Instr) (pred : BitVec 3) (pneg : Bool) (s : State) (g : Group) (k : Block) : Prop extends Issuing s g k where
  clean : ∀ p ∈ activeLanes k g pred pneg, srcStop s k i p.2 = none
  unkilled : ∀ p ∈ g.lanes, (k.thread p.2).kill = false
/-- What lane p of an instruction reads. -/
def laneEnv (pred : BitVec 3) (pneg : Bool) (s : State) (g : Group) (k : Block) (p : Nat × Nat) : Env :=
  ⟨s, g, k, p.1, p.2, k.thread p.2, activeLanes k g pred pneg⟩
/-- The instruction completes at issue; of every lane whose guard is true the thread becomes `eff`, its last-use registers freed before
(spec/04_encoding.md R117); no other thread and nothing else of the machine changes. -/
def Computes (i : Instr) (pred : BitVec 3) (pneg : Bool) (eff : Env → Thread → Thread) : Prop :=
  ∀ s g k, Ready i pred pneg s g k →
    ∃ t, exec i s = .next t ∧
      (∀ p ∈ activeLanes k g pred pneg,
        stillThread (t.thread g.blk p.2) = stillThread (eff (laneEnv pred pneg s g k p) (freeLast i (k.thread p.2)))) ∧
      (∀ b tl, (b ≠ g.blk ∨ tl ∉ (activeLanes k g pred pneg).map (·.2)) → stillThread (t.thread b tl) = stillThread (s.thread b tl)) ∧
      apart t = apart s
/-- The state in which lane p of an instruction acts: its last-use registers are free (spec/04_encoding.md R117). -/
def atIssue (i : Instr) (s : State) (k : Block) (p : Nat × Nat) : State := s.modThread k.id p.2 (freeLast i)
/-- The lanes act in ascending position, each with its effect (R33). -/
def afterLanes (i : Instr) (k : Block) (env : Nat × Nat → Env) (eff : Env → State → State) (l : List (Nat × Nat)) (s : State) : State :=
  l.foldl (fun s p => eff (env p) (atIssue i s k p)) s
/-- Every lane meets `ok` in the state in which it acts, the lanes before it having acted. -/
def LanesOk (i : Instr) (k : Block) (env : Nat × Nat → Env) (ok : Env → State → Prop) (eff : Env → State → State) :
    List (Nat × Nat) → State → Prop
  | [], _ => True
  | p :: r, s => ok (env p) (atIssue i s k p) ∧ LanesOk i k env ok eff r (eff (env p) (atIssue i s k p))
/-- The slot that the instruction sets has room in every lane (spec/04_encoding.md R118). -/
def Room (sb : Option Nat) (k : Block) (l : List (Nat × Nat)) : Prop := ∀ n, sb = some n → ∀ p ∈ l, (k.thread p.2).slotCount n < 15
/-- When every lane whose guard is true meets `ok`, the instruction completes: it leaves what `eff` makes of those lanes one after
another, and the group goes on (R34). -/
def Completes (i : Instr) (pred : BitVec 3) (pneg : Bool) (sb : Option Nat) (ok : Env → State → Prop) (eff : Env → State → State) : Prop :=
  ∀ s g k, Ready i pred pneg s g k → Room sb k (activeLanes k g pred pneg) →
    LanesOk i k (laneEnv pred pneg s g k) ok eff (activeLanes k g pred pneg) s →
      exec i s = .next (finishInstr (afterLanes i k (laneEnv pred pneg s g k) eff (activeLanes k g pred pneg) s) g [])
/-- A store fault that an instruction's own commits have found for lane p: t is the state after its lanes, k the block before it. A thread
that goes on traps for it after the instruction, with the pointer of the store and its width as a write; one that waits keeps it pending
(spec/09_core_traps.md R258, R259, R261). -/
def faultOf (k : Block) (t : State) (p : Nat × Nat) : Option ((Nat × Nat) × Stop) :=
  if k.faulted (((t.block k.id).map (·.sbuf)).getD []) p.2 = true ∧ (t.thread k.id p.2).status = .issuing then
    (t.thread k.id p.2).pendSf.map fun x => (p, .trap 0x088 x.2.2 x.1 true true)
  else none
/-- The store faults of the lanes, in ascending position. -/
def faultsOf (k : Block) (t : State) (l : List (Nat × Nat)) : List ((Nat × Nat) × Stop) :=
  (l.filterMap (faultOf k t)).foldl (fun l x => insStop x l) []
/-- As Completes, for an instruction that commits stores: a lane for which its commit finds a store fault traps after it (R261). -/
def CompletesCommit (i : Instr) (pred : BitVec 3) (pneg : Bool) (sb : Option Nat) (ok : Env → State → Prop) (eff : Env → State → State) :
    Prop :=
  ∀ s g k, Ready i pred pneg s g k → Room sb k (activeLanes k g pred pneg) →
    LanesOk i k (laneEnv pred pneg s g k) ok eff (activeLanes k g pred pneg) s →
      let t := afterLanes i k (laneEnv pred pneg s g k) eff (activeLanes k g pred pneg) s
      exec i s = .next (finishInstr t g (faultsOf k t (activeLanes k g pred pneg)))
/-- Every lane whose guard is true stops after the instruction, as `st` says (spec/09_core_traps.md R259). -/
def StopsAfter (i : Instr) (pred : BitVec 3) (pneg : Bool) (st : Env → Stop) : Prop :=
  ∀ s g k, Ready i pred pneg s g k →
    exec i s = .next (finishInstr (afterLanes i k (laneEnv pred pneg s g k) (fun _ s => s) (activeLanes k g pred pneg) s) g
      ((activeLanes k g pred pneg).map fun p => (p, st (laneEnv pred pneg s g k p))))
/-- As Ready, with one lane whose guard is true. -/
structure Alone (i : Instr) (pred : BitVec 3) (pneg : Bool) (s : State) (g : Group) (k : Block) (p : Nat × Nat) : Prop extends
    Ready i pred pneg s g k where
  alone : activeLanes k g pred pneg = [p]
/-- With one lane whose guard is true, under the condition `ok`, that lane stops as `st` says, in the state `eff`; its registers are as
before the instruction unless the stop follows it (spec/09_core_traps.md R259). -/
def StopsOne (i : Instr) (pred : BitVec 3) (pneg : Bool) (sb : Option Nat) (ok : Env → State → Prop) (st : Env → State → Stop)
    (eff : Env → State → State) : Prop :=
  ∀ s g k p, Alone i pred pneg s g k p → Room sb k [p] →
    ok (laneEnv pred pneg s g k p) (atIssue i s k p) →
      exec i s = .next (finishInstr ((eff (laneEnv pred pneg s g k p) (atIssue i s k p)).modThread k.id p.2 fun t =>
        { t with regs := (k.thread p.2).regs }) g [(p, st (laneEnv pred pneg s g k p) (atIssue i s k p))])

/-- As StopsOne, for a stop that follows the instruction: what it has done stands. -/
def StopsDone (i : Instr) (pred : BitVec 3) (pneg : Bool) (sb : Option Nat) (ok : Env → State → Prop) (st : Env → State → Stop)
    (eff : Env → State → State) : Prop :=
  ∀ s g k p, Alone i pred pneg s g k p → Room sb k [p] →
    ok (laneEnv pred pneg s g k p) (atIssue i s k p) →
      exec i s = .next (finishInstr (eff (laneEnv pred pneg s g k p) (atIssue i s k p)) g
        [(p, st (laneEnv pred pneg s g k p) (atIssue i s k p))])

/-! ### Values, as the rules of spec/05_core_integer.md write them -/

/-- x kept between two bounds. -/
def clampTo (lo hi x : Int) : Int := if x < lo then lo else if hi < x then hi else x
/-- A word read under U (R153). -/
def asInt (u : Bool) (w : Word) : Int := if u then w.toNat else w.toInt
def asInt64 (u : Bool) (w : DWord) : Int := if u then w.toNat else w.toInt
/-- The low 32 bits of an exact integer, saturated once with SAT (R154). -/
def fit32 (sat u : Bool) (x : Int) : Word :=
  BitVec.ofInt 32 (if !sat then x else if u then clampTo 0 4294967295 x else clampTo (-2147483648) 2147483647 x)
/-- The low 64 bits of an exact integer, saturated once with SAT (R154). -/
def fit64 (sat u : Bool) (x : Int) : DWord :=
  BitVec.ofInt 64 (if !sat then x else if u then clampTo 0 18446744073709551615 x
    else clampTo (-9223372036854775808) 9223372036854775807 x)
/-- The word whose bit i is f i. -/
def wordBits (f : Nat → Bool) : Word := (List.range 32).foldl (fun w i => if f i then w ||| 1#32 <<< i else w) 0
/-- The amount s of R157 and R158. -/
def shiftBy (wrap : Bool) (b : Word) : Nat := if wrap then b.toNat % 32 else if b.toNat < 32 then b.toNat else 32
/-- Bit j of g(A) as BFX reads it: above bit 31 the extension under U (R159). -/
def bfxBit (u : Bool) (a : Word) (j : Nat) : Bool := if j < 32 then a.getLsbD j else !u && a.msb
/-- Byte n of opB ‖ g(A), or its sign spread over the byte (R160). -/
def permByte (a b : Word) (n : Nat) : BitVec 8 :=
  let y := (b ++ a).extractLsb' (8 * (n % 8)) 8
  if 8 ≤ n then (if y.msb then 0xFF else 0) else y
/-- The relation that CMP names (R151). -/
def related {n : Nat} (cmp : Nat) (a b : BitVec n) : Bool :=
  match cmp with
  | 0 => a == b
  | 1 => a != b
  | 2 => a.slt b
  | 3 => a.sle b
  | 4 => b.slt a
  | 5 => b.sle a
  | 6 => a.ult b
  | 7 => a.ule b
  | 8 => b.ult a
  | _ => b.ule a
/-- BOP combines the result r with the predicate c (R161). -/
def combine (bop : Nat) (r c : Bool) : Bool :=
  if bop = 0 then r else if bop = 1 then r && c else if bop = 2 then r || c else r ^^ c
/-- An integer of type code ty in the low bits of a value (R166). -/
def typed (ty : Nat) (v : DWord) : Int :=
  match ty with
  | 0 => (v.setWidth 8).toInt
  | 1 => (v.setWidth 16).toInt
  | 2 => (v.setWidth 32).toInt
  | 3 => v.toInt
  | 4 => (v.setWidth 8).toNat
  | 5 => (v.setWidth 16).toNat
  | 6 => (v.setWidth 32).toNat
  | _ => v.toNat
/-- x saturated to type code ty (R143, R166). -/
def typedClamp (ty : Nat) (x : Int) : Int :=
  match ty with
  | 0 => clampTo (-128) 127 x
  | 1 => clampTo (-32768) 32767 x
  | 2 => clampTo (-2147483648) 2147483647 x
  | 3 => clampTo (-9223372036854775808) 9223372036854775807 x
  | 4 => clampTo 0 255 x
  | 5 => clampTo 0 65535 x
  | 6 => clampTo 0 4294967295 x
  | _ => clampTo 0 18446744073709551615 x
/-- A thread with an integer of type code ty written to its register, or to its pair for a 64-bit type (R166). -/
def putTyped (t : Thread) (d : BitVec 8) (ty : Nat) (x : Int) : Thread :=
  match ty with
  | 0 => t.setReg d.toNat ((BitVec.ofInt 8 x).signExtend 32)
  | 1 => t.setReg d.toNat ((BitVec.ofInt 16 x).signExtend 32)
  | 2 => t.setReg d.toNat (BitVec.ofInt 32 x)
  | 3 => t.setReg64 d.toNat (BitVec.ofInt 64 x)
  | 4 => t.setReg d.toNat ((BitVec.ofInt 8 x).setWidth 32)
  | 5 => t.setReg d.toNat ((BitVec.ofInt 16 x).setWidth 32)
  | 6 => t.setReg d.toNat (BitVec.ofInt 32 x)
  | _ => t.setReg64 d.toNat (BitVec.ofInt 64 x)
/-- An integer source of type code ty: a register, or a pair for a 64-bit type (R166). -/
def typedSrc (e : Env) (a : BitVec 8) (ty : Nat) : Int :=
  typed ty (if ty % 4 = 3 then e.r64 a else (e.r a).setWidth 64)
/-- Format A: of every lane whose guard is true, g(D) becomes v of g(A), opB and g(C) (R150). -/
def WritesA (c : FA → Instr) (v : FA → Word → Word → Word → Word) : Prop :=
  ∀ f : FA, Computes (c f) f.pred f.pneg fun e t => t.setReg f.d.toNat (v f (e.r f.a) (e.opB f) (e.r f.c))
/-- Format I: g(D) becomes v of g(A) and IMM32 (R152). -/
def WritesI (c : FI → Instr) (v : FI → Word → Word → Word) : Prop :=
  ∀ f : FI, Computes (c f) f.pred f.pneg fun e t => t.setReg f.d.toNat (v f (e.r f.a) f.imm)
/-- The mask of the positions of lanes (R145, R174). -/
def posMask (l : List (Nat × Nat)) : Word := wordBits fun n => l.any fun p => p.1 == n

/-! ### Floating-point values (spec/06_core_float.md) -/

/-- The magnitude of a finite value of a format (R177). -/
def magOf (f : Fmt) (v : Nat) : Rat :=
  match fpDec f v with
  | .fin _ m e => m * (2 : Rat) ^ e
  | _ => 0
/-- A 32-bit pattern that is a NaN (R177). -/
def isNan32 (a : Word) : Bool := a.extractLsb' 23 8 == 255 && a.extractLsb' 0 23 != 0
/-- Infinity of either sign (R177). -/
def isInf32 (a : Word) : Bool := a.extractLsb' 0 31 == 0x7F800000
/-- A zero of either sign. -/
def isZero32 (a : Word) : Bool := a.extractLsb' 0 31 == 0
/-- A subnormal of FP32. -/
def isSub32 (a : Word) : Bool := a.extractLsb' 23 8 == 0 && a.extractLsb' 0 23 != 0
/-- The NaN that a NaN operand gives under a profile (R185, R187). -/
def nanResult (prof : Nat) (a : Word) : Word := if prof = 1 then 0x7FFFFFFF else a ||| 0x00400000
/-- The result of an invalid operation (R178, R185, R187). -/
def invalidResult (prof : Nat) : Word := if prof = 1 then 0x7FFFFFFF else 0x7FC00000
/-- FADD and FMUL of two operands without modifiers and without SAT (R193). -/
def sum32 (prof r : Nat) (a b : Word) : Word := faddVal prof false r (fpOp prof false false a) (fpOp prof false false b)
def product32 (prof : Nat) (zr : Bool) (r : Nat) (a b : Word) : Word :=
  fmulVal prof zr false r (fpOp prof false false a) (fpOp prof false false b)
/-- The operands that format A's modifiers give FADD, FMUL, FMULZ, FMIN and FMAX (R190, R191). -/
def opA (e : Env) (f : FA) : Fv := fpOp e.prof (f.mb 3) (f.mb 6) (e.r f.a)
def opBm (e : Env) (f : FA) : Fv := fpOp e.prof (f.mb 4) (f.mb 7) (e.opB f)
/-- A pair of FP64 with its modifiers (R205). -/
def dOpA (e : Env) (f : FA) : Fv := fpOp64 (f.mb 3) (f.mb 6) (e.r64 f.a)
def dOpB (e : Env) (f : FA) : Fv := fpOp64 (f.mb 4) (f.mb 7) (e.r64 f.b)
/-- Both halves of a packed operation (R203): `op` of the halves' values, clamped with SAT. -/
def halves (f : FA) (op : Nat → Nat) : Word :=
  let ty := if f.mb 6 then bf16 else fp16
  let one := fun h => BitVec.ofNat 16 (if f.mb 2 then clamp01 ty (op h) else op h)
  one 1 ++ one 0

/-! ### Control flow and traps -/

/-- Thread tl of block b stands ready at the clause header a. -/
def StandsAt (s : State) (b tl : Nat) (a : DWord) : Prop :=
  (s.thread b tl).status = .ready ∧ (s.thread b tl).pc = a ∧ (s.thread b tl).hdr = a
/-- The word fetched at an indirect target, relocated as the loader left it (spec/05_core_integer.md R168). -/
def fetchedAt (s : State) (k : Block) (a : DWord) : Option (Except Nat DWord) :=
  (s.fetchWord k.core k.ctx (((s.launch k.launch).map (·.reloc)).getD []) a).1
/-- An indirect target passes its check: a multiple of 8 whose word is a header, or whose fetch faults (R168). -/
def goodTarget (s : State) (k : Block) (a : DWord) : Prop :=
  a.toNat % 8 = 0 ∧ ∃ r, fetchedAt s k a = some r ∧ ∀ w, r = .ok w → w.extractLsb' 60 4 = 0b1010
/-- An indirect target fails its check (R168). -/
def badTarget (s : State) (k : Block) (a : DWord) : Prop :=
  a.toNat % 8 ≠ 0 ∨ ∃ w, fetchedAt s k a = some (.ok w) ∧ w.extractLsb' 60 4 ≠ 0b1010
/-- The word at an indirect target cannot be fetched now: its page moves (R168; spec/07_core_memory.md R217). -/
def waitingTarget (s : State) (k : Block) (a : DWord) : Prop := a.toNat % 8 = 0 ∧ fetchedAt s k a = none
/-- The state after the check of an indirect target: only a cached translation may differ. -/
def afterTarget (s : State) (k : Block) (a : DWord) : State := (s.target k a).2
/-- The clause header after the group's clause (R101). -/
def nextClause (g : Group) : DWord := g.hdr + BitVec.ofNat 64 (8 * (g.head.count + 2))
/-- The executing thread as it stands. -/
def me (e : Env) (s : State) : Thread := s.thread e.k.id e.tl
/-- The executing thread waits at its instruction: its wait is counted from this cycle, and it is the last to have blocked
(spec/02_execution.md R62; spec/08_core_sync.md R246, R248). -/
def waits (e : Env) (s : State) (w : Wait) : State :=
  { s.modThread e.k.id e.tl (fun t => { t with
      status := .waiting w, pc := e.iaddr, hdr := e.g.hdr, waitBase := 0, waitFrom := (s.quad e.k.core).cyc, waitSeq := s.nextId }) with
    nextId := s.nextId + 1 }
/-- The executing thread may end at an EXIT: no operation of it is outstanding, and no arrival of it is uncounted (spec/05_core_integer.md
R170; spec/08_core_sync.md R235). -/
def mayEnd (e : Env) (s : State) : Prop := (me e s).ops = [] ∧ s.arriving e.k.id e.tl = false
/-- No other thread of its fragment is trapping. -/
def trapsAlone (k : Block) (tl : Nat) : Prop :=
  ∀ n t, lget k.threads n = some t → n ≠ tl → t.fid = (k.thread tl).fid → ∀ i, t.status ≠ .trapping i
/-- TW0 as R258 lays it out. -/
def tw0Word (cause : Nat) (dfl sfp hdr wt : Bool) (pos : Nat) (preds : BitVec 7) (detail : Word) : Nat :=
  cause % 1024 * 2 ^ 54 + dfl.toNat * 2 ^ 53 + sfp.toNat * 2 ^ 52 + hdr.toNat * 2 ^ 51 + wt.toNat * 2 ^ 50 + pos % 32 * 2 ^ 45 +
    preds.toNat * 2 ^ 38 + detail.toNat
/-- A launch has a handler, at this entry (spec/09_core_traps.md R255). -/
def HandlerAt (s : State) (k : Block) (a : DWord) : Prop :=
  ∃ l n h, s.launch k.launch = some l ∧ l.handler = some n ∧ lget l.kernels n = some h ∧ h.entry = a
/-- The thread as the handler begins, if it was in no wait (R256 to R259). -/
def inTrap (k : Block) (tl : Nat) (a : DWord) (cyc : Nat) (i : TrapInfo) (t : Thread) : Thread :=
  { t with
    status := .ready, pc := a, hdr := a, stallDone := false, clauseEnd := cyc, waitBase := 0, inHandler := true, pendSf := none
    savedWait := none
    tw0 := BitVec.ofNat 64 (tw0Word i.cause i.dfl (k.sfq.any fun r => r.tl == tl) i.hdr i.wt i.pos t.preds i.detail)
    tw1 := i.ipc, tw2 := i.rpc, tw3 := i.addr, rhdr := i.rhdr }

/-! ### Memory -/

/-- A new outstanding operation of the executing thread: the state's next number (spec/04_encoding.md R118). -/
def newOp (e : Env) (s : State) (slot : Nat) (regs : List Nat) (val : Option (List Word)) (poison : Option DWord) (acq : Bool)
    (due : Option Nat) : State :=
  { s.modThread e.k.id e.tl (fun t => { t with ops := t.ops ++ [⟨s.nextId, slot, regs, val, poison, acq, .none, due, []⟩] }) with
    nextId := s.nextId + 1 }
/-- As newOp, with what its landing does besides. -/
def newOpAct (e : Env) (s : State) (slot : Nat) (regs : List Nat) (val : Option (List Word)) (poison : Option DWord) (acq : Bool)
    (act : LandAct) : State :=
  { s.modThread e.k.id e.tl (fun t => { t with ops := t.ops ++ [⟨s.nextId, slot, regs, val, poison, acq, act, none, []⟩] }) with
    nextId := s.nextId + 1 }
/-- The cycle n after issue in a fixed-timing context; no constant time in another (spec/10_distributor.md R294). -/
def fixedAt (e : Env) (s : State) (n : Nat) : Option Nat := if s.blockFixed e.k then some ((s.quad e.k.core).cyc + n) else none
/-- w bytes at a lie within a space and are aligned (spec/07_core_memory.md R208, R209). -/
def fits (a : Int) (w size : Nat) : Prop := 0 ≤ a ∧ a + w ≤ size ∧ a.toNat % w = 0
/-- The words that a load of w bytes lands, narrow ones extended by SX (R210). -/
def loadWords (w : Nat) (sx : Bool) (v : Nat) : List Word :=
  if w = 1 then [if sx then (BitVec.ofNat 8 v).signExtend 32 else (BitVec.ofNat 8 v).setWidth 32]
  else if w = 2 then [if sx then (BitVec.ofNat 16 v).signExtend 32 else (BitVec.ofNat 16 v).setWidth 32]
  else (List.range (w / 4)).map fun i => BitVec.ofNat 32 (v / 2 ^ (32 * i))
/-- w bytes of the block's local memory, and of the thread's own memory. -/
def localVal (e : Env) (s : State) (a w : Nat) : Nat := ((s.block e.k.id).map fun k => mread k.lmem a w).getD 0
def ownVal (e : Env) (s : State) (a w : Nat) : Nat := ((s.block e.k.id).map fun k => mread (k.thread e.tl).pmem a w).getD 0
/-- The state with w bytes of local memory written: they are poisoned no longer (spec/20_reliability.md R490). -/
def putLocal (e : Env) (s : State) (a w v : Nat) : State :=
  s.modBlock e.k.id fun k => { k with lmem := mwrite k.lmem a w v, lpoison := k.lpoison.filter fun x => decide (x < a ∨ a + w ≤ x) }
/-- The state with w bytes of the thread's own memory written. -/
def putOwn (e : Env) (s : State) (a w v : Nat) : State := s.modThread e.k.id e.tl fun t => { t with pmem := mwrite t.pmem a w v }
/-- The bytes an access moves (spec/04_encoding.md R111). -/
def accessBytes (f : FM) : Nat := 2 ^ f.width.toNat
/-- Region and offset of a generic pointer (spec/03_memory_model.md R66). -/
def regionOf (p : DWord) : Nat := p.toNat / 2 ^ 56
def offsetOf (p : DWord) : Nat := p.toNat % 2 ^ 56
/-- The cause, DETAIL and address that a failed check of a pointer gives (spec/09_core_traps.md R258). -/
def memStop (c : Nat) (wr : Bool) (f : FM) (p : DWord) : Stop :=
  if c < 0x100 then .trap c ((if wr then 8 else 0) + f.width.setWidth 32) p false false else .trap c 0 0 false false
/-- What a lane whose checks did not pass does: it traps, or parks on a page that moves (spec/07_core_memory.md R217, R218). -/
def refused (c : Chk) (wr : Bool) (f : FM) (p : DWord) : Option Stop :=
  match c with
  | .trap c => some (memStop c wr f p)
  | .park g => some (.park g p)
  | .ok _ => none
/-- The result of the checks of a pointer of the executing thread (spec/03_memory_model.md R69; spec/07_core_memory.md R217). -/
def chk (e : Env) (s : State) (p : DWord) (w : Nat) (ak : AKind) : Chk := (s.check e.k p w w ak).1
/-- The state after those checks: only a cached translation may differ. -/
def chkState (e : Env) (s : State) (p : DWord) (w : Nat) (ak : AKind) : State := (s.check e.k p w w ak).2
/-- The pointer is of neither local nor own memory, for which some instructions have no meaning (R224, R222, R463). -/
def notLocal (p : DWord) : Prop := regionOf p ≠ 1 ∧ regionOf p ≠ 2
/-- The access reaches global memory. -/
def reachesGlobal (c : Chk) : Prop := ∃ pa en w, c = .ok (.glob pa en w)
/-- What is done with the place that the checks found in global memory. -/
def atGlobal {α : Sort _} (c : Chk) (other : α) (f : Nat → TlbEntry → Bool → α) : α :=
  match c with
  | .ok (.glob pa en w) => f pa en w
  | _ => other
/-- A request of the executing thread goes to the home. -/
def asks (s : State) (q : HomeReq) : State := { s with reqs := s.reqs ++ [q], nextId := s.nextId + 1 }
/-- The address from which LDK reads: a replay reads the bytes of its patch from its slot (spec/10_distributor.md R286). -/
def constFrom (l : Launch) (a : Int) : DWord :=
  if l.pslot.isSome ∧ 0 ≤ a ∧ a < l.patch.length then l.pslotVa + BitVec.ofInt 64 a else l.cbank + BitVec.ofInt 64 a
/-- That address for the executing block, and the place in the constant bank that its trap and its poison name (R210, R258). -/
def constAddr (e : Env) (s : State) (a : Int) : DWord := ((s.launch e.k.launch).map fun l => constFrom l a).getD 0
def constVa (e : Env) (s : State) (a : Int) : DWord := ((s.launch e.k.launch).map (·.cbank)).getD 0 + BitVec.ofInt 64 a
/-- The entry that a store of the executing thread makes (R211, R219; spec/09_core_traps.md R263). -/
def storeEntry (e : Env) (s : State) (f : FM) (pa : Nat) (en : TlbEntry) (w nl1 low : Bool) : SbEntry :=
  ⟨s.nextId, e.tl, e.ptr f, pa, accessBytes f, e.data f.d (accessBytes f), en.vc.toNat, en.trk, en.hb, !w, nl1, e.textWord s, f.width, low,
    (en.page, en.pages)⟩
/-- The oldest entries of a block's store buffer that have to commit before another enters it (spec/03_memory_model.md R78). -/
def overfull (k : Block) : List SbEntry := k.sbuf.take (k.sbuf.length - 255)
/-- A store enters the block's store buffer (spec/07_core_memory.md R211). -/
def buffers (e : Env) (s : State) (en : SbEntry) : State :=
  { s.modBlock e.k.id (fun k => { k with sbuf := k.sbuf ++ [en] }) with nextId := s.nextId + 1 }
/-- The block's stores commit. -/
def commits (e : Env) (s : State) : State := (s.commitBlock e.k.id).1
/-- The block acts irrevocably from a scope on (spec/20_reliability.md R492). -/
def irrevocableFrom (n : Nat) (f : FM) (e : Env) (s : State) : State :=
  if n ≤ f.scope.toNat then s.modBlock e.k.id fun k => { k with nonRollback := true } else s
/-- The mark of the granule and the boost end at a releasing access (spec/08_core_sync.md R251). -/
def unmark (g : Nat) (t : Thread) : Thread := if t.mark = some g then { t with mark := none, boost := none, boostNew := none } else t
/-- The integer atomics on n-bit values (spec/07_core_memory.md R221); none for a compare that fails. -/
def atomResult (n op : Nat) (old v cmp : BitVec n) : Option (BitVec n) :=
  match op with
  | 0 => some (old + v)
  | 1 => some (if v.slt old then v else old)
  | 2 => some (if old.slt v then v else old)
  | 3 => some (if v.ult old then v else old)
  | 4 => some (if old.ult v then v else old)
  | 5 => some (old &&& v)
  | 6 => some (old ||| v)
  | 7 => some (old ^^^ v)
  | 8 => some v
  | 9 => if old = cmp then some v else none
  | 10 => some (if v.ule old then 0 else old + 1)
  | _ => some (if old = 0 ∨ v.ult old = true then v else old - 1)

/-! ### Synchronisation -/

/-- A barrier object's address: in local memory, 16-byte aligned (spec/08_core_sync.md R240). -/
def boAt (a : Int) (size : Nat) : Prop := 0 ≤ a ∧ a + 16 ≤ size ∧ a.toNat % 16 = 0
/-- The object that an instruction names, as it stands. -/
def boNow (e : Env) (s : State) (a : Nat) : Bo := ((s.block e.k.id).getD e.k).bo a
/-- A barrier of the scope is allowed in the block's launch (spec/02_execution.md R52, R53). -/
def barAllowed (s : State) (k : Block) (scope : Nat) : Prop :=
  scope ≤ 1 ∨ ∃ l, s.launch k.launch = some l ∧ l.coop = true ∧ (scope = 5 → l.podgrp ≠ 0)
/-- The thread's arrival at a barrier that it has not yet left (R234). -/
def arrived (t : Thread) (scope bid : Nat) : Option BarArr := t.bars.find? fun a => a.scope == scope && a.bid == bid
/-- The arrival part of BAR and BARARV (R235): it counts at once at scope 1 when the thread has no older request, and else when the requests,
and from scope 2 on the write-backs of the core's dirty lines, are done (spec/03_memory_model.md R80, R94). -/
def barArrives (e : Env) (s : State) (scope bid : Nat) : State :=
  let u := commits e s
  let i := u.barInst e.k scope
  let ph := (u.barOf scope i.1 i.2 bid).phase
  let v := u.modThread e.k.id e.tl fun t => { t with bars := t.bars ++ [⟨scope, bid, ph, false⟩] }
  if scope = 0 then v
  else if scope = 1 then
    if v.older e.k.id e.tl = [] then v.arrive e.k.id e.tl scope bid
    else v.fence (.barrier e.k.id e.tl scope bid ph) [e.k.core] (fun _ _ => false) (v.older e.k.id e.tl)
  else (v.irrevocable e.k.id).fence (.barrier e.k.id e.tl scope bid ph) [e.k.core] (fun _ _ => true) (v.older e.k.id e.tl)
/-- The waiting part of BAR and BARWAIT (R235): a phase that has completed is left, with its acquire part; another is waited for. -/
def barWaits (e : Env) (s : State) (scope bid : Nat) : State :=
  match arrived (me e s) scope bid with
  | none => s
  | some a =>
    if s.barDone e.k a then
      (if 2 ≤ scope then s.acquireInval e.k.core (4 ≤ scope) (scope == 5) else s).modThread e.k.id e.tl fun t =>
        { t with bars := t.bars.filter fun a => !(a.scope == scope && a.bid == bid) }
    else waits e s (.bar scope bid)
/-- A defined queue's header: the block's table binds it and V is set (R245). -/
def QueueAt (e : Env) (s : State) (q h : Nat) : Prop :=
  ∃ k, s.block e.k.id = some k ∧ tget k.qtable q = some h ∧ (k.que h).v = true
/-- Where the block's table binds a queue. -/
def queueOf (e : Env) (s : State) (q : Nat) : Nat := (tget ((s.block e.k.id).getD e.k).qtable q).getD 0
/-- A queue header is as QDEF leaves it and pushes and pops keep it (R243, R244). -/
def goodQueue (q : Que) : Prop := q.v = true ∧ 0 < q.alw ∧ q.alw ≤ q.cap ∧ q.cap ≤ 256 ∧ q.head < 2 * q.cap ∧ q.tail < 2 * q.cap

/-! ### Handlers, fragments, sequencers -/

/-- A thread that a TRET has sent to pc in the clause with header hdr: predicates as TW0 keeps them (spec/09_core_traps.md R258, R267). -/
def returned (t : Thread) (pc hdr : DWord) (cyc : Nat) : Thread :=
  { t with
    status := .ready, pc := pc, hdr := hdr, stallDone := false, clauseEnd := cyc, waitBase := 0, inHandler := false
    preds := t.tw0.extractLsb' 38 7 }
/-- The wait that a TRET re-enters: TW0.WT is set and the device kept it (R267). -/
def keptWait (t : Thread) : Option Wait := if t.tw0.getLsbD 50 then t.savedWait else none
/-- The block of the executing thread, as it stands. -/
def blockNow (e : Env) (s : State) : Block := (s.block e.k.id).getD e.k
/-- The cause with which QDEF refuses its configuration, if it does, in the order of its checks (spec/08_core_sync.md R244). -/
def qdefCause (e : Env) (s : State) (f : FM) : Option Nat :=
  let g := (e.r f.d).toNat
  let a := e.offs f
  let old := (blockNow e s).que a.toNat
  let cap := g % 512
  let alw := g / 2 ^ 16 % 512
  let only := 2 ^ 31 ≤ g
  if a % 8 ≠ 0 then some 0x082
  else if ¬ only ∧ (g / 2 ^ 25 ≠ 0 ∨ g / 2 ^ 9 % 2 ^ 7 ≠ 0 ∨ cap = 0 ∨ 256 < cap ∨ alw = 0 ∨ cap < alw) then some 0x106
  else if a < 0 ∨ (e.k.localSize : Int) < a + 8 + 4 * (if only then old.cap else cap : Nat) then some 0x080
  else if only ∧ old.v = false then some 0x107
  else if only ∧ (alw = 0 ∨ old.cap < alw) then some 0x106
  else none
/-- The four words that SFQPOP writes for a record of a thread (R263). -/
def popWords (r : Option SfRec) (lost : BitVec 16) : List Word :=
  match r with
  | some r => [r.va.extractLsb' 0 32, r.va.extractLsb' 32 32, BitVec.ofNat 32 (0x088 * 2 ^ 22 + 2 ^ 21 + r.wfield.toNat * 2 ^ 18 + lost.toNat), r.word]
  | none => [0, 0, lost.setWidth 32, 0]
/-- The fragment that a KILLF names (R269). -/
def killed (e : Env) (f : FA) : BitVec 16 := if f.md.getLsbD 0 then e.th.fid else (e.r f.a).extractLsb' 0 16
/-- A live thread of the block is in fragment x. -/
def fragmentLives (k : Block) (x : BitVec 16) : Prop := ∃ t ∈ k.threads, t.alive = true ∧ t.fid = x
/-- An index that the virtual-cache instructions take: a software VC (spec/18_cache.md R450, R451). -/
def softVc (i : Word) : Prop := 4 ≤ i.toNat ∧ i.toNat < 256
/-- The lane's command stands with the memory-cache engine, its result outstanding under the slot: the block has acted irrevocably
(spec/18_cache.md R450; spec/20_reliability.md R492). -/
def commands (e : Env) (s : State) (f : FA) (cmd : VcCmd) : State :=
  let u := newOp e (s.modBlock e.k.id fun k => { k with nonRollback := true }) f.sbs.toNat [f.d.toNat] none none false none
  { u with vcCmds := u.vcCmds ++ [{ id := u.nextId, ctx := e.k.ctx, cmd := cmd, blk := e.k.id, tl := e.tl, op := s.nextId }], nextId := u.nextId + 1 }
/-- A record of 64 bytes at a pointer can be read, and is these eight words. -/
def reads64 (e : Env) (s : State) (p : DWord) (ws : List Nat) : Prop := ∃ bs, (e.readRecord s p 64 64).1 = .ok bs ∧ words64 bs = ws
/-- A barrier object's offset passes the checks of spec/08_core_sync.md R240. -/
def goodBo (n size : Nat) : Prop := n + 16 ≤ size ∧ n % 16 = 0
/-- The programs that a FORK names: kind, entry, start record (spec/10_distributor.md R291). -/
def forkNames (e : Env) (f : FX) : List (SeqKind × DWord × Nat) :=
  [(.copy, e.rN64 f.a 0, (e.rN f.a 4).toNat), (.matrix, e.rN64 f.a 2, (e.rN f.a 5).toNat)].filter fun p => p.2.1 != 0
/-- A core that RDV may name: its own, or the partner that it shades (R293). -/
def rdvTarget (s : State) (k : Block) (t : CoreRef) : Prop := t = k.core ∨ (s.isShading k.core = true ∧ t = CoreRef.partner k.core)

/-! ### Engines and sequencers -/

/-- The operation that a thread's engine command makes: its descriptor is read from eight registers (spec/11_copy.md R305). -/
def threadOp (e : Env) (s : State) (f : FX) (kind : EngKind) : EngOp :=
  { id := s.nextId, kind := kind, core := e.k.core, ctx := e.k.ctx, blk := e.k.id, seq := none, bo := (e.r f.b).toNat,
    desc := (List.range 8).map fun i => (e.rN f.a i).toNat, md := f.md.toNat, cyc := (s.quad e.k.core).cyc, view := s.viewOf e.k.core }
/-- The operation that a sequencer's engine command makes: its descriptor is read from local memory (spec/10_distributor.md R289). -/
def seqOp (s : State) (c : CoreRef) (k : SeqKind) (b : Block) (f : FS) (kind : EngKind) : EngOp :=
  let q := s.sq c k
  { id := s.nextId, kind := kind, core := c, ctx := b.ctx, blk := b.id, seq := some k, bo := q.addr f.br.toNat f.boff.toNat,
    desc := (List.range 8).map fun i => mread b.lmem (q.addr f.ar.toNat f.doff.toNat + 4 * i) 4, md := f.mf 0 14, cyc := (s.quad c).cyc
    view := s.viewOf b.core }
/-- The lanes that an engine command has still to serve: the others were served before its issue was held (spec/11_copy.md R302). -/
def unserved (k : Block) (g : Group) (pred : BitVec 3) (pneg : Bool) : List (Nat × Nat) :=
  (activeLanes k g pred pneg).filter fun p => !g.part.contains p.2
/-- The core has the unit that the command uses (spec/13_geometry.md R351). -/
def hasUnit (s : State) (c : CoreRef) (kind : EngKind) : Prop := kind.unit ≠ 0 → s.dieMap.isGd c.die = false
/-- An engine command of a thread completes: each lane still to be served has a good barrier object, room in the unit and the unit itself,
and the engine accepts its operation, told whether the target that the instruction names is the thread's own core (spec/11_copy.md R302,
R305). -/
def Accepts (c : FX → Instr) (kind : EngKind) (accept : Bool → State → EngOp → State) : Prop :=
  ∀ (f : FX) (s : State) (g : Group) (k : Block), Ready (c f) f.pred f.pneg s g k →
    let eff := fun (e : Env) (s : State) =>
      accept (s.dieMap.target e.k.core f == some e.k.core) { s with nextId := s.nextId + 1 } (threadOp e s f kind)
    LanesOk (c f) k (laneEnv f.pred f.pneg s g k)
      (fun e s => hasUnit s e.k.core kind ∧ goodBo (e.r f.b).toNat e.k.localSize ∧ s.engFull e.k.core kind = false) eff
      (unserved k g f.pred f.pneg) s →
    exec (c f) s = .next (finishInstr (afterLanes (c f) k (laneEnv f.pred f.pneg s g k) eff (unserved k g f.pred f.pneg) s) g [])
/-- While the unit is full, a command whose first lane to be served has a good barrier object is held: another open clause goes on (R302). -/
def HeldWhileFull (c : FX → Instr) (kind : EngKind) : Prop :=
  ∀ (f : FX) (s : State) (g : Group) (k : Block) (p : Nat × Nat) (r : List (Nat × Nat)), Ready (c f) f.pred f.pneg s g k →
    unserved k g f.pred f.pneg = p :: r → hasUnit s k.core kind → goodBo ((laneEnv f.pred f.pneg s g k p).r f.b).toNat k.localSize →
    s.engFull k.core kind = true → exec (c f) s = .next { s with opens := s.opens.tail ++ [.grp g] }
/-- A lane traps with 0x080 on a barrier object outside local memory, with 0x082 on one that is misaligned, at its address, and with 0x002
on a core without the unit (R305; spec/08_core_sync.md R240). -/
def TrapsEngine (c : FX → Instr) (kind : EngKind) : Prop :=
  ∀ f : FX, StopsOne (c f) f.pred f.pneg none
    (fun e s => e.g.part.contains e.tl = false ∧ (¬ hasUnit s e.k.core kind ∨ ¬ goodBo (e.r f.b).toNat e.k.localSize))
    (fun e s => if kind.unit ≠ 0 ∧ s.dieMap.isGd e.k.core.die = true then .trap 0x002 0 0 false false
      else .trap (if e.k.localSize < (e.r f.b).toNat + 16 then 0x080 else 0x082) 0 (1#8 ++ (e.r f.b).setWidth 56) false false)
    (fun _ s => s)
/-- What an engine command of a thread does: accepted, held or trapped. -/
def Commands (c : FX → Instr) (kind : EngKind) (accept : Bool → State → EngOp → State) : Prop :=
  Accepts c kind accept ∧ HeldWhileFull c kind ∧ TrapsEngine c kind
/-- The clause of a sequencer issues next. -/
def SeqFront (s : State) (c : CoreRef) (k : SeqKind) : Prop := s.opens.head? = some (.seq c k)
/-- The sequencer's instruction is issued: its registers become q, and another open clause may go on (spec/10_distributor.md R290). -/
def seqGoes (s : State) (c : CoreRef) (k : SeqKind) (q : Sequencer) : State := { s.setSq c k q with opens := s.opens.tail ++ [.seq c k] }
/-- The sequencer's instruction has been taken, and it is blocked. -/
def seqBlocks (s : State) (c : CoreRef) (k : SeqKind) (q : Sequencer) : State := { s.setSq c k q with opens := s.opens.tail }
/-- The engine is the sequencer's own, and the core has it (R289, R292; spec/13_geometry.md R351). -/
def ownEngine (s : State) (c : CoreRef) (k : SeqKind) (kind : EngKind) : Prop :=
  (kind.unit = 0 ↔ k = .copy) ∧ (kind.unit = 1 → s.dieMap.isGd c.die = false)
/-- Descriptor and barrier object of a sequencer's command lie in its owner's local memory, 16-byte aligned (R289). -/
def seqRanges (q : Sequencer) (b : Block) (f : FS) : Prop :=
  (let d := q.addr f.ar.toNat f.doff.toNat; d % 16 = 0 ∧ d + 32 ≤ b.localSize) ∧ goodBo (q.addr f.br.toNat f.boff.toNat) b.localSize
/-- An engine command of a sequencer is accepted where the engine is its own, the ranges are good and the engine has room; it is held while
the engine is full; it ends the program with 0x002 on a wrong engine, and else with 0x313 on a bad range (R289, R292). -/
def SeqCommands (c : FS → Instr) (kind : EngKind) (accept : Bool → State → EngOp → State) : Prop :=
  ∀ (f : FS) (s : State) (cr : CoreRef) (k : SeqKind) (b : Block), SeqFront s cr k → s.block (s.sq cr k).owner = some b →
    (ownEngine s cr k kind → seqRanges (s.sq cr k) b f → s.engFull cr kind = false →
      exec (c f) s =
        .next (seqGoes (accept true { s with nextId := s.nextId + 1 } (seqOp s cr k b f kind)) cr k (s.sq cr k).advance)) ∧
    (ownEngine s cr k kind → seqRanges (s.sq cr k) b f → s.engFull cr kind = true →
      exec (c f) s = .next { s with opens := s.opens.tail ++ [.seq cr k] }) ∧
    (¬ ownEngine s cr k kind → exec (c f) s = .next (s.endProgram cr k (s.sq cr k) 0x002)) ∧
    (ownEngine s cr k kind → ¬ seqRanges (s.sq cr k) b f → exec (c f) s = .next (s.endProgram cr k (s.sq cr k) 0x313))
/-- The operation of a number that an engine holds. -/
def HasOp (s : State) (n : Nat) (o : EngOp) : Prop := s.engs.find? (fun x => x.id == n && !x.saved) = some o
/-- The state at an operation's constant time, where it has one (spec/11_copy.md R321; spec/12_matrix.md R347). -/
def atDue (s : State) (o : EngOp) : State := s.reachDue (s.quadKeyOf o.core) o.due
/-- The operation as its start leaves it: with what it finds in its memories then, its cause and the cycle of its end (spec/12_matrix.md R345
to R347). -/
def startAs (s : State) (o : EngOp) (both : Bool) (bad : Nat × Nat) (due : Option Nat) : EngOp :=
  { o with
    started := true, both := both, cause := bad.1, detail := bad.2, due := due, lold := ((s.block o.blk).map (·.lmem)).getD []
    obold := [(s.core o.core).obuf, (s.core (CoreRef.partner o.core)).obuf] }
/-- What fails the operation at its start, if anything does. -/
def startCause (s : State) (o : EngOp) : Option (Nat × Nat) := (s.startBad o).1.or (s.runBad o (s.startBad o).2)
/-- Nothing has been loaded into the buffer of core c since the operation began, and no load into it runs (spec/12_matrix.md R346). -/
def unchanged (s : State) (c : CoreRef) (old : Mem) : Prop := old = (s.core c).obuf ∧ s.loadedBuf c = (s.core c).obuf
/-- The arrays that an operation acts on, its own and in a live pair its partner's, changed by g (spec/12_matrix.md R326). -/
def arrays (s : State) (o : EngOp) (g : Core → Core) : State :=
  let u := s.setCore o.core (g (s.core o.core))
  if o.both then u.setCore (CoreRef.partner o.core) (g (s.core (CoreRef.partner o.core))) else u
/-- Element (m, n) of A times B over the first 32 kc elements, exactly, for integer formats (spec/12_matrix.md R340). -/
def dot (c : Core) (a b : ORec) (kc m n : Nat) : Int :=
  ((List.range (32 * kc)).map fun k => (c.val a m k).int * (c.val b n k).int).sum

/-! ### Pipelines, the Narrows and textures -/

/-- The block is in a stage that hands payloads on, whose slots have sb bytes (spec/13_geometry.md R358). -/
def pushesTo (s : State) (k : Block) (sb : Nat) : Prop :=
  k.stage ≠ 0 ∧ ((s.launch k.launch).bind fun l => l.slotBytes (k.stage + 1)) = some sb
/-- A local range that the payload instructions may use (R358, R359). -/
def goodPayload (a n size : Nat) : Prop := a % 16 = 0 ∧ a + n - 1 < size
/-- A local range that an instruction names traps with 0x082 where it is misaligned, and else, outlying, with 0x080, at its address; DETAIL
is 8 where the instruction writes it (spec/09_core_traps.md R258). -/
def rangeStop (n : Nat) (wr : Bool) (a : Word) : Stop :=
  .trap (if a.toNat % n ≠ 0 then 0x082 else 0x080) (if wr then 8 else 0) (1#8 ++ a.setWidth 56) false false
/-- The block's payload of n blocks is committed and stands to be published when the thread's older requests have been performed and the
core's write-backs are acknowledged (R358). -/
def handsOver (e : Env) (s : State) (f : FA) : State :=
  let c := commits e s
  let u := (newOp e c f.sbs.toNat [f.d.toNat] none none false none).modBlock e.k.id fun k => { k with pushed := true, nonRollback := true }
  let v := u.fence (.paypush e.k.id) [e.k.core] (fun _ _ => true) (u.older e.k.id e.tl)
  { v with pushes := v.pushes ++ [⟨e.k.id, e.tl, c.nextId, (e.r f.a).toNat, (e.opB f).toNat, false⟩] }
/-- A mesh instruction is legal in the block (R361). -/
def meshOk (e : Env) (s : State) : Prop := s.meshLegal e.k = true
/-- Words as bytes, lowest first. -/
def wordBytes (l : List Word) : List Byte := (l.map fun w => leBytes 4 w.toNat).flatten
/-- The open frame of the executing block's context, on a core that may work on regions (spec/14_narrows.md R384). -/
def InFrame (e : Env) (s : State) (fr : Frame) : Prop :=
  s.dieMap.isGd e.k.core.die = false ∧ (s.ctx e.k.ctx).bind (·.frame) = some fr
/-- The executing block holds a region of the frame (R384). -/
def HoldsRegion (e : Env) (s : State) (fr : Frame) (rid : Nat) : Prop := InFrame e s fr ∧ (blockNow e s).region = some rid
/-- What is done with the open frame and the region held. -/
def atRegion {α : Sort _} (e : Env) (s : State) (other : α) (f : Frame → Nat → α) : α :=
  match (s.ctx e.k.ctx).bind (·.frame), (blockNow e s).region with
  | some fr, some rid => f fr rid
  | _, _ => other
/-- A region id's columns and rows (R385). -/
def regionId (a : Word) : Nat := a.toNat / 512 % 512 * 512 + a.toNat % 512
/-- The request for a packet of the held region, or for any region, waits at its die (R385, R387). -/
def asksRegion (e : Env) (s : State) (f : FA) (regs : List Nat) (acq pop : Bool) : State :=
  let u := newOp e s f.sbs.toNat regs none none acq none
  { u with rgnReqs := u.rgnReqs ++ [⟨e.k.id, e.tl, s.nextId, pop⟩] }
/-- A cause found at a pointer that is to be written (spec/09_core_traps.md R258). -/
def writeStop (c : Nat) (p : DWord) : Stop := if c < 0x100 then .trap c 8 p false false else .trap c 0 0 false false
/-- The pixel of a region that RTBLEND names, and where it lies (R389). -/
def rtX (rid : Nat) (a : Word) : Nat := 32 * (rid % 512) + a.toNat % 32
def rtY (rid : Nat) (a : Word) : Nat := 32 * (rid / 512) + a.toNat / 256 % 32
def rtVa (fr : Frame) (rid : Nat) (a : Word) : Nat := fr.rtbase.toNat + fr.rtpitch * rtY rid a + fr.pixelSize * rtX rid a
/-- g(A) names a pixel (R389). -/
def rtNames (a : Word) : Prop := a.toNat / 32 % 8 = 0 ∧ a.toNat < 2 ^ 13
/-- The pixel lies on the target. -/
def onTarget (fr : Frame) (rid : Nat) (a : Word) : Prop := rtX rid a < fr.rtw ∧ rtY rid a < fr.rth
/-- The page checks of a pixel, and the state after them: only a cached translation may differ (R389; spec/07_core_memory.md R217). -/
def rtCheck (e : Env) (s : State) (fr : Frame) (rid : Nat) (a : Word) : Chk × State :=
  s.checkGlobal (blockNow e s).core (blockNow e s).ctx [⟨2, 0, 2 ^ 56⟩] (rtVa fr rid a % 2 ^ 56) fr.pixelSize .flip
/-- How they stop the lane, if they do: W is required, and a page that moves parks it. -/
def rtStop (p : DWord) (r : Chk × State) : Option Stop :=
  match r.1 with
  | .trap c => some (writeStop c p)
  | .park g => some (.park g p)
  | .ok (.glob _ en w) => if w = false then some (writeStop 0x088 p) else if r.2.isMoving en = true then some (.park en.page p) else none
  | .ok _ => none
/-- The pixel's bytes at pa blended and written for the core, outside the store buffer (R389); from a poisoned granule it reads free bytes
(notes/assumptions/3.md). -/
def blends (e : Env) (v : State) (k : Block) (f : FA) (fr : Frame) (pa : Nat) (en : TlbEntry) : State :=
  let n := fr.pixelSize
  let old := if v.poisoned (pa / 128) then v.freeBytes n else (v.engBytes k.core pa n, v)
  let c := [(e.rN f.b 0).toNat, (e.rN f.b 1).toNat, (e.rN f.b 2).toNat, (e.rN f.b 3).toNat]
  let bs := (blendPixel fr.rtfmt (f.md.toNat % 8) (leVal old.1) c).zipIdx.map fun b => (pa % 128 + b.2, b.1)
  let w := old.2.modBlock k.id fun j => { j with nonRollback := true }
  if w.writesThrough k.ctx en.vc.toNat then w.homeWrite (some k.core) (pa / 128) bs en.trk
  else w.putDirty k.core (pa / 128) bs en.trk en.hb k.ctx en.vc.toNat false false (en.page, en.pages)
/-- The core has a sampler unit (R393, R405). -/
def hasTexUnit (s : State) (e : Env) : Prop := s.dieMap.isGd e.k.core.die = false ∧ s.hasSampler e.k.core = true
/-- The pointers of the two descriptors that an instruction names (R393). -/
def texPtr (e : Env) (f : FA) : Nat := (e.theap + 32 * ((e.opB f).toNat % 2 ^ 20)) % 2 ^ 64
def sampPtr (e : Env) (f : FA) : Nat := (e.sheap + 16 * ((e.opB f).toNat / 2 ^ 20)) % 2 ^ 64
/-- The texture descriptor as the sampler reads it, and whether it lies in a poisoned granule (R393, R402). -/
def texRead (e : Env) (s : State) (f : FA) : Except Stop (Nat × Bool) × State := e.sampRead true s (texPtr e f) 32
/-- It is to be read: the core has the unit, and the heap is aligned; TLD names no sampler. -/
def ReadsTex (i : Instr) (e : Env) (s : State) (f : FA) : Prop :=
  hasTexUnit s e ∧ e.theap % 32 = 0 ∧ (i = .tld f → (e.opB f).toNat < 2 ^ 20)
/-- It is read, lies in no poisoned granule, and is valid. -/
def TexOk (i : Instr) (e : Env) (s : State) (f : FA) (d : TexDesc) : Prop :=
  ReadsTex i e s f ∧ (texRead e s f).1 = .ok (d.v, false) ∧ d.bad = false
/-- The sampler descriptor likewise. -/
def sampRead (e : Env) (s : State) (f : FA) : Except Stop (Nat × Bool) × State := e.sampRead true (texRead e s f).2 (sampPtr e f) 16
def SampOk (e : Env) (s : State) (f : FA) (d : SampDesc) : Prop :=
  e.sheap % 16 = 0 ∧ (sampRead e s f).1 = .ok (d.v, false) ∧ d.bad = false
/-- The instruction reads a sampler descriptor: TEX, and TQRY for the level of detail (R403). -/
def wantsSamp (i : Instr) (f : FA) : Prop := i = .tex f ∨ (i = .tqry f ∧ f.md.getLsbD 0 = true)
/-- How a read stops the lane. -/
def errOf {α : Type _} (r : Except Stop α) : Stop :=
  match r with
  | .error st => st
  | .ok _ => .hold
/-- What was read came from a poisoned granule. -/
def badOf (r : Except Stop (Nat × Bool)) : Bool :=
  match r with
  | .ok v => v.2
  | .error _ => false
/-- The descriptors read; 0 where they cannot be. -/
def texOf (r : Except Stop (Nat × Bool)) : Nat :=
  match r with
  | .ok v => v.1
  | .error _ => 0
/-- Four words land under the slot, or poison where they come from a poisoned granule (R404). -/
def lands4 (e : Env) (s : State) (f : FA) (ws : List Word) (bad : Option Nat) : State :=
  newOp e s f.sbs.toNat (destRegs f.d 16) (some ws) (bad.map (BitVec.ofNat 64 ·)) false none
/-- The texel that TLD names (R403). -/
def tldAt (e : Env) (f : FA) : TexPos := ⟨(e.rN f.a 3).toNat, (e.rN f.a 0).toNat, (e.rN f.a 1).toNat, (e.rN f.a 2).toNat⟩
/-- It lies in the image (R398, R403). -/
def inImage (d : TexDesc) (p : TexPos) : Prop := p.l ≤ d.lm1 ∧ p.x < d.wl p.l ∧ p.y < d.hl p.l ∧ p.z < d.zl p.l
/-- It as read. -/
def tldRead (e : Env) (s : State) (f : FA) (d : TexDesc) : Except Stop (Nat × Bool) × State :=
  e.sampRead false (texRead e s f).2 (d.ptr (tldAt e f)) (texelSize d.fmt)
/-- Its words: an integer as it is, the channels of any other format rounded to FP32, swizzled (R396, R402, R403). -/
def texelWords (d : TexDesc) (v : Nat) (p : TexPos) : List Word :=
  if d.fmt = 11 then d.swizzle 1 [v, 0, 0, 1]
  else d.swizzle 0x3F800000 ((texelVals d.fmt v (4 * (p.y % 4) + p.x % 4)).map fun c => blendTex [(1, c)])
/-- λ of a TEX: explicit from g(A+3), or implicit from the quad's differences (R400). -/
def lodFor (e : Env) (f : FA) (d : TexDesc) (sm : SampDesc) : Lod :=
  if f.md.getLsbD 0 then lodOf sm (e.rN f.a 3) else e.lodImplicit d sm f.a e.freeLod
/-- The weighted texels that a TEX takes (R399, R401). -/
def texelsFor (e : Env) (f : FA) (d : TexDesc) (sm : SampDesc) : List (Rat × Option TexPos) :=
  ((lodLevels d sm ((lodFor e f d sm).clamp sm d.lm1)).2.map fun x =>
    (d.texels sm x.1 x.2.1 (texCoord (e.rN f.a 0)) (texCoord (e.rN f.a 1)) (texCoord (e.rN f.a 2))).map fun t => (t.1 * x.2.2, t.2)).flatten

/-- The texels of a TEX, as they are read. -/
def texelsRead (e : Env) (s : State) (f : FA) (d : TexDesc) (sm : SampDesc) :
    Except Stop (List (Rat × List TexVal) × Option Nat) × State :=
  e.readTexels d sm.border (texelsFor e f d sm) (sampRead e s f).2

/-! ### Clauses, slots and homes -/

/-- The clause at address a can be fetched for block k: its header and its words; u is the state after the fetch, in which only a cached
translation may differ (spec/04_encoding.md R105, R122). -/
def FetchesClause (s : State) (k : Block) (a : DWord) (h : Header) (ws : List DWord) (u : State) : Prop :=
  ∃ w v, let reloc := ((s.launch k.launch).map (·.reloc)).getD []
    s.fetchWord k.core k.ctx reloc a = (some (.ok w), v) ∧ w.extractLsb' 60 4 = 0b1010 ∧ decodeHeader w = some h ∧
      v.fetchWords k.core k.ctx reloc (a + 8) (bits w.toNat 56 53 + 1) = (some (.ok ws), u)
/-- A request of this kind stands at its home, which may perform it now with those that are performed together with it
(spec/03_memory_model.md R75, R80, R85; spec/07_core_memory.md R211). -/
structure Served (s : State) (n : Nat) (kind : ReqKind) (q : HomeReq) : Prop where
  here : s.findReq n kind = some q
  free : ∀ p ∈ s.bunch q, s.reqReady p = true ∧ p.stage.waits = false
/-- What precedes the performance of a request has been done: the core's part of a release, and the demanded write-backs (R85, R86). -/
def Prepared (s : State) (q : HomeReq) : Prop :=
  (q.rel = true → 2 ≤ q.scope → q.stage ≠ .fresh) ∧
    (q.rel = true ∨ q.acq = true → 2 ≤ q.scope → s.needsDemand (granule q.pa) q.core = false)
/-- The response has come back: a response from a remote home carries the width at its end (spec/19_fabric.md R477). -/
def answered (t : State) (q : HomeReq) : State := if t.reqs.any fun x => x.id == q.id then t else t.learnWidth q.pa
/-- The bytes of a request lie in one granule. -/
def oneGranule (q : HomeReq) : Prop := q.pa % 128 + q.width ≤ 128
/-- A dirty line holds each of its bytes once, inside its granule (R76). -/
def goodLine (d : DirtyLine) : Prop := (d.bytes.map (·.1)).Nodup ∧ ∀ p ∈ d.bytes, p.1 < 128
/-- The line of a core's granule as it stands. -/
def lineOf (s : State) (c : CoreRef) (g : Nat) : Option DirtyLine := tget (s.core c).dirty g
/-- No core but c holds dirty bytes of a granule. -/
def soleLine (s : State) (c : CoreRef) (g : Nat) : Prop := ∀ k ∈ s.cores, k.1 ≠ coreKey c → tget k.2.dirty g = none
/-- No core but that of the request holds dirty bytes of its granule, if it is tracked. -/
def ownOnly (s : State) (q : HomeReq) : Prop :=
  q.tracked = true → soleLine s q.core (granule q.pa)
/-- No core holds dirty bytes of a granule. -/
def cleanEverywhere (s : State) (g : Nat) : Prop := ∀ c, lineOf s c g = none
/-- No core holds a clean copy of a granule. -/
def uncached (s : State) (g : Nat) : Prop := ∀ c, tget (s.core c).copies g = none
/-- A command with the memory-cache engine. -/
def VcFound (s : State) (n : Nat) (c : VcPending) : Prop := s.vcCmds.find? (fun c => c.id == n) = some c
/-- The index to which a command is given; a bias flip has none. -/
def toIndex : VcCmd → Option Nat
  | .define i _ _ => some i
  | .resize i _ _ => some i
  | .move i _ _ => some i
  | .flush i _ => some i
  | .bias .. => none
/-- The result word of a command: ST, and COUNT when ST is 0 (spec/18_cache.md R450). -/
def vcWord (st count : Nat) : Word := BitVec.ofNat 32 (st * 2 ^ 28 + (if st = 0 then count % 2 ^ 28 else 0))

/-! ### Launches -/

/-- The bytes that LAUNCH reads; none where they cannot be read. -/
def readOf (r : Except Stop (List Byte)) : List Byte :=
  match r with
  | .ok bs => bs
  | .error _ => []
/-- A submission is queued, and its number lands under the slot; the block has acted irrevocably (spec/10_distributor.md R282). -/
def submits (e : Env) (s : State) (f : FA) (bs : List Byte) (patch : Option (List Byte)) : State :=
  let q := e.submit (s.modBlock e.k.id fun k => { k with nonRollback := true }) (e.opB f).toNat bs patch (e.r64 f.a)
  newOp e q.2 f.sbs.toNat [f.d.toNat] (some [q.1]) none false none
/-- Bytes of the parameter patch that a record names (R276). -/
def patchBytes (bs : List Byte) : Nat := leVal bs / 2 ^ (64 * 14 + 48) % 2 ^ 16
/-- The head of a queue has been taken: its launch stands, and its completion record is zeroed (R277, R280). -/
def taken (s : State) (c q : Nat) (e : Submission) (prot : Bool) : State :=
  let l := mkLaunch s.nextId c q e ⟨e.record⟩ prot
  (({ s with nextId := s.nextId + 1, launches := s.launches ++ [l] }).setQueue c q
    { s.queue c q with entries := (s.queue c q).entries.drop 1 }).clearCpl l
/-- The state once the launches of a queue that wait have been tried (R279). -/
def triedAgain (s : State) (c q : Nat) : State :=
  (s.launches.filter fun l => l.ctx == c && l.queue == q).foldl (fun s l => s.startLaunch l) s
/-- The kernels that a record asks to run: its kernel, or those of its pipeline's stages (spec/13_geometry.md R353). -/
def runsOf (u : State) (c : Nat) (r : LRec) : List Nat × List Nat :=
  let st := if r.pipe then r.kidx :: stageIndexes ((u.dirEntries c r.image).getD []) r.kidx 8 2 else []
  (st, if r.pipe then st else [r.kidx])
/-- The loader's answer for a record (R280; spec/04_encoding.md R136). -/
def loads (u : State) (c : Nat) (r : LRec) : Except Nat Loaded :=
  u.load c r.image (r.mesh, r.row0, r.col0, r.rows, r.cols) r.hidx (runsOf u c r).2
/-- The queue's launches run protected: its bit of the mask PQMASK (spec/20_reliability.md R491; spec/22_host.md R521). -/
def protOf (x : Ctx) (q : Nat) : Bool := q < 16 && bit x.pqmask.toNat q
/-- A launch whose lease step and bindings succeed now (R281; spec/18_cache.md R464): the state after the bindings. -/
def Startable (s : State) (l : Launch) (u : State) : Prop :=
  l.state = .resident ∧ l.awaits = none ∧ s.firstMissing l = none ∧ s.mustWait l = false ∧ s.goesFirst l.prio.toNat l.seq = true ∧
    s.routeLost l = false ∧ s.bindVcs l l.bindings = (none, u)
/-- Words 0 to 6 of a completion record (R277). -/
def recordBytes (s : State) (l : Launch) : List Byte :=
  let tw := (List.range 4).map fun (i : Nat) => ((lget l.tw i).map fun (w : DWord) => w.toNat).getD 0
  (([l.cause * 2 ^ 54 + l.outState * 2 ^ 52 + l.detail % 2 ^ 32] ++ tw ++ [s.clock.ns % 2 ^ 64, 0]).map fun w => leBytes 8 w).flatten
/-- No dirty byte stands in any core. -/
def quiet (s : State) : Prop := ∀ c ∈ s.cores, c.2.dirty = []

/-! ### The host -/

/-- The host's command stands, and its effect is not complete (spec/22_host.md R519). -/
def Commanded (s : State) (op : Nat) (slot : BitVec 10) (arg : BitVec 46) (ptr : BitVec 64) : Prop :=
  ∃ c, s.host.busy = some c ∧ c.ready = false ∧ c.op = op ∧ c.slot = slot.toNat ∧ c.arg = arg.toNat ∧ c.ptr = ptr.toNat
/-- The command's effect is complete with a result and a cause. -/
def answers (s : State) (res cause : Nat) : State :=
  { s with host := { s.host with busy := s.host.busy.map fun c => { c with res := res, cause := cause, ready := true } } }
/-- The registers of a context record are legal for this device, and its floor is none (spec/10_distributor.md R271, R272). -/
def goodCtxRec (s : State) (ptr : BitVec 64) : Prop :=
  ptr.toNat % 64 = 0 ∧ ctxRecBad (s.physWords ptr.toNat 8) (((lget s.ownFloor 1).map (·.getLsbD 0)).getD false) = false

/-! ### Power -/

/-- A quad of a die, as the power controller holds it, and as it runs. -/
def powerOf (s : State) (die q : Nat) : QuadPower := s.quadPower (quadKey die q)
def quadOf (s : State) (die q : Nat) : Quad := s.quadAt (quadKey die q)

/-! ### Errors and the fabric -/

/-- The error ring is not set up: records are not kept (spec/20_reliability.md R499). -/
def noRing (s : State) : Prop := s.errs.elbase.toNat % 32 < 7
/-- No reservation of block b is one of a live matrix pair (spec/12_matrix.md R324). -/
def unpaired (s : State) (b : Nat) : Prop := ∀ p ∈ s.cores, ∀ r, p.2.res = some r → r.blk = b → s.pairLive (coreOfKey p.1) = false
/-- The fabric is enabled, and the package is not fenced (spec/19_fabric.md R471, R481). -/
def onFabric (s : State) : Prop := s.fab.en = true ∧ s.fab.fenced = false
/-- The links that are up, in ascending order (R474). -/
def upLinks (s : State) : List Nat := (s.fab.lnksts.zipIdx.filter fun l => l.1.toNat / 2 ^ 62 == 2).map (·.2)
/-- The base of the export window (R470). -/
def exportBase (s : State) : Nat := s.fab.expwin.toNat / 2 ^ 12 % 2 ^ 40 * 4096
/-- The bytes it exports. -/
def exportSize (s : State) : Nat := s.fab.expwin.toNat / 2 ^ 56 * 2 ^ 30

/-! ### Steps and words -/

/-- The instruction at which a group stands (spec/04_encoding.md R122 steps 4 and 5): the word decodes under the clause's class, an
instruction that must be last is last, and its registers lie below the kernel's .regs. -/
structure StandsAtInstr (g : Group) (k : Block) (i : Instr) : Prop where
  word : ∃ w, lget g.words g.idx = some w ∧ decodeWord g.head.cls w = .ok i
  cls : g.head.cls ≠ .seq
  last : i.mustBeLast = true → g.isLast = true
  regs : ∀ o ∈ i.operands, ∀ r ∈ o.regs, r = 255 ∨ r < k.regsN
/-- A group is at the front and it is its turn: no event is to come first, and its constant time, if it has one, has come
(spec/10_distributor.md R294; notes/assumptions/8.md). -/
structure GroupTurn (s : State) (g : Group) (k : Block) : Prop where
  agenda : s.agenda = []
  turn : s.turn = false ∨ s.autonomous = none
  front : s.opens.head? = some (.grp g)
  block : s.block g.blk = some k
  due : s.dueNow s.dues (s.quadKeyOf k.core) g.due = true
/-- Likewise a sequencer that has fetched its clause. -/
structure SeqTurn (s : State) (c : CoreRef) (kd : SeqKind) : Prop where
  agenda : s.agenda = []
  turn : s.turn = false ∨ s.autonomous = none
  front : s.opens.head? = some (.seq c kd)
  running : (s.sq c kd).running = true
  free : (s.sq c kd).bowait = none ∧ (s.sq c kd).holdT = none
  may : s.seqMayIssue c (s.sq c kd) = true
  fetched : (s.sq c kd).head.isSome = true
  due : s.dueNow s.dues (s.quadKeyOf c) (s.sq c kd).due = true
/-- The value a thread reads in a register, at any free choice, where no landing is known. -/
def readsAs (t : Thread) (r : Nat) (v : Word) : Prop := ∀ ctr tl, t.reg ctr tl r = v

end Sys2Proof.Safety
end

