-- ==== Sys2Proof/Certificates/Slice0/Obligations.lean ====
section
/-! DEFINITION. The statements for the provers: each is a property of the machine that a rule of the spec states, or that the spec's
rules give together. -/

set_option Elab.async false

open Sys2Proof Sys2Proof.Machine Sys2Proof.Safety

/-! ### Integer instructions of class ALU -/

/-- R154, R155: the exact integer x, saturated once with SAT, or its low bits; |a| and −a of the signed operand, 0x8000_0000 mapped to itself
without SAT; of every lane whose guard is true, and nothing else. -/
def Obligations.IntegerArithmetic : Prop :=
  WritesA .iadd (fun f a b _ => fit32 (f.mb 1) (f.mb 0) (asInt (f.mb 0) a + asInt (f.mb 0) b)) ∧
  WritesI .iaddI (fun f a b => fit32 (f.mb 1) (f.mb 0) (asInt (f.mb 0) a + asInt (f.mb 0) b)) ∧
  WritesA .isub (fun f a b _ => fit32 (f.mb 1) (f.mb 0) (asInt (f.mb 0) a - asInt (f.mb 0) b)) ∧
  WritesI .isubI (fun f a b => fit32 (f.mb 1) (f.mb 0) (asInt (f.mb 0) a - asInt (f.mb 0) b)) ∧
  WritesA .imul (fun f a b _ => fit32 (f.mb 1) (f.mb 0) (asInt (f.mb 0) a * asInt (f.mb 0) b)) ∧
  WritesI .imulI (fun f a b => fit32 (f.mb 1) (f.mb 0) (asInt (f.mb 0) a * asInt (f.mb 0) b)) ∧
  WritesA .imad (fun f a b c => fit32 (f.mb 1) (f.mb 0) (asInt (f.mb 0) a * asInt (f.mb 0) b + asInt (f.mb 0) c)) ∧
  WritesA .imulhi (fun f a b _ => BitVec.ofInt 32 ((asInt (f.mb 0) a * asInt (f.mb 0) b).fdiv 4294967296)) ∧
  WritesA .imin (fun f a b _ => if asInt (f.mb 0) a ≤ asInt (f.mb 0) b then a else b) ∧
  WritesI .iminI (fun f a b => if asInt (f.mb 0) a ≤ asInt (f.mb 0) b then a else b) ∧
  WritesA .imax (fun f a b _ => if asInt (f.mb 0) a ≤ asInt (f.mb 0) b then b else a) ∧
  WritesI .imaxI (fun f a b => if asInt (f.mb 0) a ≤ asInt (f.mb 0) b then b else a) ∧
  (∀ f : FA, Computes (.imadw f) f.pred f.pneg fun e t => t.setReg64 f.d.toNat
    (fit64 (f.mb 1) (f.mb 0) (asInt (f.mb 0) (e.r f.a) * asInt (f.mb 0) (e.opB f) + asInt64 (f.mb 0) (e.r64 f.c)))) ∧
  (∀ f : FA, Computes (.iadd64 f) f.pred f.pneg fun e t => t.setReg64 f.d.toNat
    (fit64 (f.mb 1) (f.mb 0) (asInt64 (f.mb 0) (e.r64 f.a) + asInt64 (f.mb 0) (e.r64 f.b)))) ∧
  (∀ f : FA, Computes (.isub64 f) f.pred f.pneg fun e t => t.setReg64 f.d.toNat
    (fit64 (f.mb 1) (f.mb 0) (asInt64 (f.mb 0) (e.r64 f.a) - asInt64 (f.mb 0) (e.r64 f.b)))) ∧
  WritesA .iabs (fun f a _ _ => if a.msb then (if f.mb 1 && a == 0x80000000 then 0x7FFFFFFF else -a) else a) ∧
  WritesA .ineg (fun f a _ _ => if f.mb 1 && a == 0x80000000 then 0x7FFFFFFF else -a)

/-- R156 to R158: the bitwise operations, and LOGT's table with the bit of g(A) least significant in the index; shifts, whose amount wraps
under W and else stops at 32; SHF shifts the 64-bit value opB ‖ g(A) and keeps one word. -/
def Obligations.LogicAndShifts : Prop :=
  WritesA .and (fun _ a b _ => a &&& b) ∧ WritesI .andI (fun _ a b => a &&& b) ∧
  WritesA .or (fun _ a b _ => a ||| b) ∧ WritesI .orI (fun _ a b => a ||| b) ∧
  WritesA .xor (fun _ a b _ => a ^^^ b) ∧ WritesI .xorI (fun _ a b => a ^^^ b) ∧
  WritesA .not (fun _ a _ _ => ~~~a) ∧
  WritesA .logt (fun f a b c => wordBits fun i =>
    (f.mf 0 8).testBit ((a.getLsbD i).toNat + 2 * (b.getLsbD i).toNat + 4 * (c.getLsbD i).toNat)) ∧
  WritesA .shl (fun f a b _ => a <<< shiftBy (f.mb 0) b) ∧ WritesI .shlI (fun f a b => a <<< shiftBy (f.mb 0) b) ∧
  WritesA .shr (fun f a b _ => a >>> shiftBy (f.mb 0) b) ∧ WritesI .shrI (fun f a b => a >>> shiftBy (f.mb 0) b) ∧
  WritesA .sar (fun f a b _ => a.sshiftRight (shiftBy (f.mb 0) b)) ∧
  WritesI .sarI (fun f a b => a.sshiftRight (shiftBy (f.mb 0) b)) ∧
  WritesA .shf (fun f a b c =>
    let s := shiftBy (f.mb 1) c
    if f.mb 0 then b <<< s ||| a >>> (32 - s) else a >>> s ||| b <<< (32 - s))

/-- R159, R160: fields, counts, bit order and bytes. -/
def Obligations.FieldsAndBits : Prop :=
  WritesA .bfx (fun f a b _ =>
    let pos := b.toNat % 256
    let len := min (b.toNat / 256 % 256) 32
    wordBits fun i => decide (0 < len) &&
      (if i < len then bfxBit (f.mb 0) a (pos + i) else !f.mb 0 && bfxBit (f.mb 0) a (pos + len - 1))) ∧
  WritesA .bfi (fun _ a b c =>
    let pos := b.toNat % 256
    let len := min (b.toNat / 256 % 256) 32
    wordBits fun i => if pos ≤ i ∧ i < pos + len then a.getLsbD (i - pos) else c.getLsbD i) ∧
  WritesA .popc (fun _ a _ _ => BitVec.ofNat 32 ((List.range 32).map fun i => (a.getLsbD i).toNat).sum) ∧
  WritesA .clz (fun _ a _ _ => a.clz) ∧ WritesA .ctz (fun _ a _ _ => a.reverse.clz) ∧
  WritesA .brev (fun _ a _ _ => a.reverse) ∧
  WritesA .prmb (fun _ a b c =>
    permByte a b (c.toNat / 4096 % 16) ++ permByte a b (c.toNat / 256 % 16) ++ permByte a b (c.toNat / 16 % 16) ++
      permByte a b (c.toNat % 16))

/-- R161 to R163: compares write the predicate Q, combined under BOP; SEL, PLOP and PSET. -/
def Obligations.ComparesAndPredicates : Prop :=
  (∀ f : FA, Computes (.iset f) f.pred f.pneg fun e t => t.setPred (f.d.toNat % 8)
    (combine (f.mf 0 2) (related (f.d.toNat / 16) (e.r f.a) (e.opB f)) (e.th.pred (f.mf 2 3) ^^ f.mb 5))) ∧
  (∀ f : FI, Computes (.isetI f) f.pred f.pneg fun e t => t.setPred (f.d.toNat % 8)
    (combine (f.md.toNat % 4) (related (f.d.toNat / 16) (e.r f.a) f.imm) (e.th.pred (f.d.toNat % 8) ^^ f.mb 2))) ∧
  (∀ f : FA, Computes (.iset64 f) f.pred f.pneg fun e t => t.setPred (f.d.toNat % 8)
    (combine (f.mf 0 2) (related (f.d.toNat / 16) (e.r64 f.a) (e.r64 f.b)) (e.th.pred (f.mf 2 3) ^^ f.mb 5))) ∧
  (∀ f : FA, Computes (.sel f) f.pred f.pneg fun e t => t.setReg f.d.toNat
    (if e.th.pred (f.c.toNat % 8) ^^ f.c.getLsbD 3 then e.r f.a else e.opB f)) ∧
  (∀ f : FA, Computes (.plop f) f.pred f.pneg fun e t => t.setPred f.d.toNat
    ((f.mf 0 8).testBit ((e.th.pred (f.a.toNat % 8) ^^ f.a.getLsbD 3).toNat +
      2 * (e.th.pred (f.b.toNat % 8) ^^ f.b.getLsbD 3).toNat + 4 * (e.th.pred (f.c.toNat % 8) ^^ f.c.getLsbD 3).toNat))) ∧
  (∀ f : FA, f.mb 0 = false → Computes (.pset f) f.pred f.pneg fun e t => t.setReg f.d.toNat (e.th.preds.setWidth 32)) ∧
  (∀ f : FA, f.mb 0 = true → Computes (.pset f) f.pred f.pneg fun e t =>
    (List.range 7).foldl (fun t n => if (f.mf 4 7).testBit n then t.setPred n ((e.r f.a).getLsbD n) else t) t)

/-- R164 to R166: moves, addresses and integer conversions; a narrow result fills its register, extended by the sign of its type. -/
def Obligations.MovesAndAddresses : Prop :=
  (∀ f : FA, Computes (.nop f) f.pred f.pneg fun _ t => t) ∧
  (∀ f : FA, f.mb 0 = false → Computes (.mov f) f.pred f.pneg fun e t => t.setReg f.d.toNat (e.r f.a)) ∧
  (∀ f : FA, f.mb 0 = true → Computes (.mov f) f.pred f.pneg fun e t => t.setReg64 f.d.toNat (e.r64 f.a)) ∧
  WritesI .movi (fun _ _ b => b) ∧
  (∀ f : FA, Computes (.movk f) f.pred f.pneg fun e t => t.setReg f.d.toNat ((lget e.k.kregs f.b.toNat).getD 0)) ∧
  (∀ f : FA, f.mb 4 = false → Computes (.lea f) f.pred f.pneg fun e t =>
    t.setReg f.d.toNat (e.r f.a + e.opB f <<< f.mf 0 3)) ∧
  (∀ f : FA, f.mb 4 = true → Computes (.lea f) f.pred f.pneg fun e t =>
    t.setReg64 f.d.toNat (e.r64 f.a + (if f.mb 3 then (e.opB f).signExtend 64 else (e.opB f).setWidth 64) <<< f.mf 0 3)) ∧
  (∀ f : FI, f.mb 0 = false → Computes (.leaI f) f.pred f.pneg fun e t => t.setReg f.d.toNat (e.r f.a + f.imm)) ∧
  (∀ f : FI, f.mb 0 = true → Computes (.leaI f) f.pred f.pneg fun e t =>
    t.setReg64 f.d.toNat (e.r64 f.a + f.imm.signExtend 64)) ∧
  (∀ f : FA, f.mf 0 4 < 8 → f.mf 4 4 < 8 → Computes (.i2i f) f.pred f.pneg fun e t =>
    putTyped t f.d (f.mf 4 4)
      (if f.mb 8 then typedClamp (f.mf 4 4) (typedSrc e f.a (f.mf 0 4)) else typedSrc e f.a (f.mf 0 4)))

/-- R173 to R176: the group operations read what every participant held before the instruction; a position without a participant
contributes nothing. R145 to R148: SRD writes the system register of its index and CYC the clock of the quad, or the package time, to a
pair. -/
def Obligations.GroupsAndSystemRegisters : Prop :=
  (∀ f : FA, Computes (.gpoll f) f.pred f.pneg fun e t =>
    let v := fun (p : Nat × Nat) => (e.k.thread p.2).pred (f.a.toNat % 8) ^^ f.a.getLsbD 3
    if f.mf 0 2 = 0 then t.setReg f.d.toNat (wordBits fun n => e.parts.any fun p => p.1 == n && v p)
    else t.setPred f.d.toNat (if f.mf 0 2 = 1 then e.parts.all v else if f.mf 0 2 = 2 then e.parts.any v
      else decide (∃ b, ∀ p ∈ e.parts, v p = b))) ∧
  (∀ f : FA, f.mf 2 3 ≤ 5 → Computes (.gxch f) f.pred f.pneg fun e t =>
    let w := 32 >>> f.mf 2 3
    let base := e.pos / w * w
    let b := (e.opB f).toNat
    let src : Int := if f.mf 0 2 = 0 then ((base + b % w : Nat) : Int) else if f.mf 0 2 = 1 then (e.pos : Int) - b
      else if f.mf 0 2 = 2 then (e.pos : Int) + b else ((base + ((e.pos % w) ^^^ (b % w)) : Nat) : Int)
    t.setReg f.d.toNat (match e.parts.find? fun p => decide ((p.1 : Int) = src ∧ base ≤ p.1 ∧ p.1 < base + w) with
      | some p => (e.k.thread p.2).reg e.ctr p.2 f.a.toNat
      | none => e.r f.a)) ∧
  (∀ f : FA, Computes (.gpeer f) f.pred f.pneg fun e t =>
    let like := fun (tl : Nat) => if f.mb 1 then (e.k.thread tl).reg64 e.ctr tl f.a.toNat = e.th.reg64 e.ctr e.tl f.a.toNat
      else (e.k.thread tl).reg e.ctr tl f.a.toNat = e.th.reg e.ctr e.tl f.a.toNat
    t.setReg f.d.toNat (if f.mb 0 && !decide (∀ p ∈ e.parts, like p.2) then 0
      else posMask (e.parts.filter fun p => decide (like p.2)))) ∧
  (∀ f : FA, Computes (.cyc f) f.pred f.pneg fun e t => t.setReg64 f.d.toNat
    (if f.mb 0 then BitVec.ofNat 64 e.s0.clock.ns else BitVec.ofNat 64 (e.s0.quad e.k.core).cyc)) ∧
  (∀ f : FA, Computes (.srd f) f.pred f.pneg fun e t => t.setReg f.d.toNat
    (let n := fun (x : Nat) => BitVec.ofNat 32 x
     let k := e.k
     ([n e.pos, posMask e.g.lanes, n (e.tl % k.nx), n (e.tl / k.nx % k.ny), n (e.tl / (k.nx * k.ny)), n e.tl, n k.nx, n k.ny, n k.nz,
       n k.num, n k.nblk,
       n ((((((k.core.die % 16 * 16 + e.s0.dieMap.row k.core % 16) * 16 + e.s0.dieMap.col k.core % 16) * 32 +
         e.s0.dieMap.quad k.core % 32) * 16 + e.s0.dieMap.mrow k.core % 16) * 128 + e.s0.dieMap.mcol k.core % 128) * 16),
       e.g.pass,
       n ((e.th.lprio.toNat * 2 + e.th.boost.isSome.toNat) * 128 + e.th.iprio.toNat),
       n k.launch, n k.ctx, n k.stage, n ((e.s0.ctx k.ctx).map (·.fixed) == some true).toNat,
       n (((e.s0.launch k.launch).map (·.profile)).getD 0)].getD (f.mf 0 8) 0)))
/-! ### Floating point -/

/-- R193, R203 to R205: the arithmetic instructions write the rounded result of their exact sum or product, clamped with SAT; the zero
rule holds for FMULZ always and for the other products under FP-L9. -/
def Obligations.FloatArithmetic : Prop :=
  let sat := fun (f : FA) (x : Nat) => BitVec.ofNat 32 (if f.mb 2 then clamp01 fp32 x else x)
  let satI := fun (f : FI) (x : Nat) => BitVec.ofNat 32 (if f.mb 2 then clamp01 fp32 x else x)
  (∀ f : FA, Computes (.fadd f) f.pred f.pneg fun e t => t.setReg f.d.toNat
    (sat f (addBits fp32 e.prof (rndOf (f.mf 0 2)) (opA e f) (opBm e f)))) ∧
  (∀ f : FI, Computes (.faddI f) f.pred f.pneg fun e t => t.setReg f.d.toNat
    (satI f (addBits fp32 e.prof (rndOf (f.md.toNat % 4)) (fpOp e.prof false false (e.r f.a)) (fpOp e.prof false false f.imm)))) ∧
  (∀ f : FA, Computes (.fmul f) f.pred f.pneg fun e t => t.setReg f.d.toNat
    (sat f (mulBits fp32 e.prof (rndOf (f.mf 0 2)) (e.prof == 1) (opA e f) (opBm e f)))) ∧
  (∀ f : FI, Computes (.fmulI f) f.pred f.pneg fun e t => t.setReg f.d.toNat
    (satI f (mulBits fp32 e.prof (rndOf (f.md.toNat % 4)) (e.prof == 1) (fpOp e.prof false false (e.r f.a))
      (fpOp e.prof false false f.imm)))) ∧
  (∀ f : FA, Computes (.fmulz f) f.pred f.pneg fun e t => t.setReg f.d.toNat
    (sat f (mulBits fp32 e.prof (rndOf (f.mf 0 2)) true (opA e f) (opBm e f)))) ∧
  (∀ f : FA, Computes (.ffma f) f.pred f.pneg fun e t => t.setReg f.d.toNat
    (sat f (fmaBits fp32 e.prof (rndOf (f.mf 0 2)) (e.prof == 1) (opA e f) (opBm e f)
      (fpOp e.prof (f.mb 5) (f.mb 8) (e.r f.c))))) ∧
  (∀ f : FA, Computes (.pkadd f) f.pred f.pneg fun e t => t.setReg f.d.toNat (halves f fun h =>
    addBits (pkType f) e.prof (rndOf (f.mf 0 2)) (halfOp e.prof (pkType f) (f.mb 3) (e.r f.a) h)
      (halfOp e.prof (pkType f) (f.mb 4) (e.opB f) h))) ∧
  (∀ f : FA, Computes (.pkmul f) f.pred f.pneg fun e t => t.setReg f.d.toNat (halves f fun h =>
    mulBits (pkType f) e.prof (rndOf (f.mf 0 2)) (e.prof == 1) (halfOp e.prof (pkType f) (f.mb 3) (e.r f.a) h)
      (halfOp e.prof (pkType f) (f.mb 4) (e.opB f) h))) ∧
  (∀ f : FA, Computes (.pkfma f) f.pred f.pneg fun e t => t.setReg f.d.toNat (halves f fun h =>
    fmaBits (pkType f) e.prof (rndOf (f.mf 0 2)) (e.prof == 1) (halfOp e.prof (pkType f) (f.mb 3) (e.r f.a) h)
      (halfOp e.prof (pkType f) (f.mb 4) (e.opB f) h) (halfOp e.prof (pkType f) (f.mb 5) (e.r f.c) h))) ∧
  (∀ f : FA, Computes (.pkdot f) f.pred f.pneg fun e t => t.setReg f.d.toNat
    (sat f (pkdotBits (pkType f) e.prof (rndOf (f.mf 0 2))
      (halfOp e.prof (pkType f) (f.mb 3) (e.r f.a) 0) (halfOp e.prof (pkType f) (f.mb 3) (e.r f.a) 1)
      (halfOp e.prof (pkType f) (f.mb 4) (e.opB f) 0) (halfOp e.prof (pkType f) (f.mb 4) (e.opB f) 1)
      (fpOp e.prof (f.mb 5) false (e.r f.c))))) ∧
  (∀ f : FA, Computes (.dadd f) f.pred f.pneg fun e t => t.setReg64 f.d.toNat (BitVec.ofNat 64
    (addBits fp64 0 (rndOf (f.mf 0 2)) (dOpA e f) (dOpB e f)))) ∧
  (∀ f : FA, Computes (.dmul f) f.pred f.pneg fun e t => t.setReg64 f.d.toNat (BitVec.ofNat 64
    (mulBits fp64 0 (rndOf (f.mf 0 2)) false (dOpA e f) (dOpB e f)))) ∧
  (∀ f : FA, Computes (.dfma f) f.pred f.pneg fun e t => t.setReg64 f.d.toNat (BitVec.ofNat 64
    (fmaBits fp64 0 (rndOf (f.mf 0 2)) false (dOpA e f) (dOpB e f) (fpOp64 (f.mb 5) (f.mb 8) (e.r64 f.c)))))

/-- R195 to R202: minimum and maximum, comparison, classes, conversions and the special functions. -/
def Obligations.FloatConversions : Prop :=
  (∀ f : FA, Computes (.fmin f) f.pred f.pneg fun e t => t.setReg f.d.toNat
    (BitVec.ofNat 32 (minMaxBits e.prof (f.mb 0) false (opA e f) (opBm e f)))) ∧
  (∀ f : FA, Computes (.fmax f) f.pred f.pneg fun e t => t.setReg f.d.toNat
    (BitVec.ofNat 32 (minMaxBits e.prof (f.mb 0) true (opA e f) (opBm e f)))) ∧
  (∀ f : FA, Computes (.fset f) f.pred f.pneg fun e t => t.setPred (f.d.toNat % 8)
    (combine (f.mf 0 2) (cmpF (f.d.toNat / 16) (fpOp e.prof (f.mb 6) (f.mb 8) (e.r f.a)) (fpOp e.prof (f.mb 7) (f.mb 9) (e.opB f)))
      (e.th.pred (f.mf 2 3) ^^ f.mb 5))) ∧
  (∀ f : FI, Computes (.fsetI f) f.pred f.pneg fun e t => t.setPred (f.d.toNat % 8)
    (combine (f.md.toNat % 4) (cmpF (f.d.toNat / 16) (fpOp e.prof false false (e.r f.a)) (fpOp e.prof false false f.imm))
      (e.th.pred (f.d.toNat % 8) ^^ f.mb 2))) ∧
  (∀ f : FA, Computes (.fclass f) f.pred f.pneg fun e t => t.setReg f.d.toNat
    (1#32 <<< classOf (fmtOf (f.mf 0 2)) (e.fsrc f.a (f.mf 0 2) (f.mb 2)))) ∧
  (∀ f : FA, f.mb 2 = false → Computes (.frnd f) f.pred f.pneg fun e t => t.setReg f.d.toNat
    (BitVec.ofNat 32 (frndBits fp32 e.prof (rndOf (f.mf 0 2)) (fpOp e.prof false false (e.r f.a))))) ∧
  (∀ f : FA, f.mb 2 = true → Computes (.frnd f) f.pred f.pneg fun e t => t.setReg64 f.d.toNat
    (BitVec.ofNat 64 (frndBits fp64 0 (rndOf (f.mf 0 2)) (fpOp64 false false (e.r64 f.a))))) ∧
  (∀ f : FA, f.mf 5 4 < 8 → Computes (.f2i f) f.pred f.pneg fun e t => putTyped t f.d (f.mf 5 4)
    (f2iVal (rndOf (f.mf 0 2)) (f.mf 5 4) (flushIn e.prof (fmtOf (f.mf 2 3)) (fpDec (fmtOf (f.mf 2 3)) (e.fsrc f.a (f.mf 2 3) (f.mb 9)))))) ∧
  (∀ f : FA, f.mf 2 4 < 8 → Computes (.i2f f) f.pred f.pneg fun e t =>
    let x := typedSrc e f.a (f.mf 2 4)
    let v := roundFp (fmtOf (f.mf 6 3)) (rndOf (f.mf 0 2)) false (decide (x < 0)) x.natAbs 1 0
    if f.mf 6 3 = 1 then t.setReg64 f.d.toNat (BitVec.ofNat 64 v) else t.setReg f.d.toNat (BitVec.ofNat 32 v)) ∧
  (∀ f : FA, f.mf 6 3 ≤ 1 → Computes (.f2f f) f.pred f.pneg fun e t =>
    let src := fmtOf (f.mf 3 3)
    let r := if f.mf 0 3 = 4 then Rnd.sr ((e.r f.b).toNat % 65536) else rndOf (f.mf 0 3)
    let x := if f.mf 3 3 = 1 then (e.r64 f.a).toNat else if f.mf 3 3 = 0 then (e.r f.a).toNat
      else (e.r f.a).toNat / 2 ^ (src.width * f.mf 9 3) % 2 ^ src.width
    let y := f2fBits e.prof src (fmtOf (f.mf 6 3)) r x
    if f.mf 6 3 = 1 then t.setReg64 f.d.toNat (BitVec.ofNat 64 y) else t.setReg f.d.toNat (BitVec.ofNat 32 y)) ∧
  (∀ f : FA, 2 ≤ f.mf 6 3 → Computes (.f2f f) f.pred f.pneg fun e t =>
    let src := fmtOf (f.mf 3 3)
    let dst := fmtOf (f.mf 6 3)
    let r := if f.mf 0 3 = 4 then Rnd.sr ((e.r f.b).toNat % 65536) else rndOf (f.mf 0 3)
    let x := (if f.mf 3 3 = 1 then (e.r64 f.a).toNat else (e.r f.a).toNat) % 2 ^ src.width
    let y := f2fBits e.prof src dst r x
    let c := (e.r f.c).toNat
    let lo := dst.width * f.mf 9 3
    t.setReg f.d.toNat (BitVec.ofNat 32 (c / 2 ^ (lo + dst.width) * 2 ^ (lo + dst.width) + y * 2 ^ lo + c % 2 ^ lo))) ∧
  (∀ f : FA, Computes (.fsf f) f.pred f.pneg fun e t => t.setReg f.d.toNat
    (BitVec.ofNat 32 (fsfBits e.prof e.s0.dieMap.stepping (f.mf 0 3) (fpOp e.prof (f.mb 3) (f.mb 4) (e.r f.a)))))

/-- R185 to R187 for FADD and FMUL on FP32: the first NaN operand with its quiet bit set, the invalid operations, the sign of a sum
that is exactly zero, flushed operands, and the zero rule. -/
def Obligations.FloatSpecials : Prop :=
  ∀ (prof r : Nat) (a b : Word), r < 4 → prof < 4 →
    (isNan32 a = true → sum32 prof r a b = nanResult prof a ∧ product32 prof false r a b = nanResult prof a) ∧
    (isNan32 a = false → isNan32 b = true → sum32 prof r a b = nanResult prof b ∧ product32 prof false r a b = nanResult prof b) ∧
    (isInf32 a = true → b = a ^^^ 0x80000000 → sum32 prof r a b = invalidResult prof) ∧
    (isInf32 a = true → isZero32 b = true →
      product32 prof false r a b = invalidResult prof ∧ product32 prof false r b a = invalidResult prof) ∧
    (isNan32 a = false → isInf32 a = false → isZero32 a = false → b = a ^^^ 0x80000000 →
      sum32 prof r a b = if r = 3 then 0x80000000 else 0) ∧
    (isZero32 a = true → isZero32 b = true → sum32 prof r a b = if a = b then a else if r = 3 then 0x80000000 else 0) ∧
    (1 ≤ prof → isSub32 a = true → isZero32 b = true → a.msb = b.msb → sum32 prof r a b = b) ∧
    (isZero32 b = true → product32 prof true r a b = (a ^^^ b) &&& 0x80000000)

/-- R183: a result that stays in range is, under rz, the largest representable magnitude not above the exact one; under ru the smallest
not below it; under rn none is nearer. -/
def Obligations.RoundingIsCorrect : Prop :=
  ∀ f ∈ [fp64, fp32, fp16, bf16, e4m3, e5m2, e2m1], ∀ (n d : Nat) (e : Int), 0 < n → 0 < d →
    let x : Rat := (n : Rat) / d * (2 : Rat) ^ e
    let at_ := fun (r : Rnd) => roundFp f r false false n d e
    (x ≤ magOf f f.maxBits → at_ .rz ≤ f.maxBits ∧ at_ .ru ≤ f.maxBits ∧ at_ .rn ≤ f.maxBits ∧
      magOf f (at_ .rz) ≤ x ∧ x ≤ magOf f (at_ .ru) ∧
      ∀ v ≤ f.maxBits, (magOf f v ≤ x → magOf f v ≤ magOf f (at_ .rz)) ∧ (x ≤ magOf f v → magOf f (at_ .ru) ≤ magOf f v) ∧
        |magOf f (at_ .rn) - x| ≤ |magOf f v - x|)

/-! ### The flow of control -/

/-- R34, R101: after an instruction that stops no thread, the group goes on to the clause's next instruction; after the last one every
thread of the group that still issues stands ready where its program counter says. Nothing else changes but the flow of control (still)
and the number of the next free value. No KILLF has marked a thread of the group. -/
def Obligations.InstructionEnds : Prop :=
  ∀ (s : State) (g : Group) (k : Block) (rest : List Open), s.opens = .grp g :: rest → s.block g.blk = some k →
    (∀ p ∈ g.lanes, p.2 < k.threads.length ∧ (k.thread p.2).status = .issuing ∧ (k.thread p.2).kill = false) →
    (g.lanes.map (·.2)).Nodup → g.lanes ≠ [] →
    still (finishInstr s g []) = still s ∧
    (g.idx < g.head.count →
      (finishInstr s g []).opens = .grp { g with idx := g.idx + 1, part := [] } :: rest ∧
      ∀ b tl, (finishInstr s g []).thread b tl = s.thread b tl) ∧
    (g.head.count ≤ g.idx →
      (finishInstr s g []).opens = rest ∧ ∀ p ∈ g.lanes, StandsAt (finishInstr s g []) g.blk p.2 (k.thread p.2).pc)

/-- R168, R169: after a BRA, which is the last instruction of its clause, a lane whose guard is true stands ready at the target, any other
lane of the group at its program counter; when a clause opens, its threads' program counters become the next clause. BRX, RET and CALL
with IND = 1 go on at the address in g64(A) when it passes its check, trap at the branch with 0x005 and that address when it fails, and are
held while its word cannot be fetched. CALL writes the link, the next clause, to g64(A). -/
def Obligations.Branches : Prop :=
  (∀ (f : FB) (s : State) (g : Group) (k : Block), Ready (.bra f) f.pred f.pneg s g k → g.isLast = true →
    ∃ t, exec (.bra f) s = .next t ∧ still t = still s ∧ ∀ p ∈ g.lanes, StandsAt t g.blk p.2
      (if p ∈ activeLanes k g f.pred f.pneg then g.hdr + 8 * f.off.signExtend 64 else (k.thread p.2).pc)) ∧
  (∀ (s : State) (b : Nat) (k : Block) (tls : List Nat) (g : Group) (ws : List DWord) (idx slot x : Nat), s.block b = some k → tls.Nodup →
    x ∈ tls → x < k.threads.length → ((s.openGroup b tls g.hdr g.head ws idx slot).thread b x).pc = nextClause g) ∧
  (∀ f : FB, Completes (.brx f) f.pred f.pneg none (fun e s => goodTarget s e.k (e.r64 f.a))
    (fun e s => e.upd (afterTarget s e.k (e.r64 f.a)) fun t => { t with pc := e.r64 f.a })) ∧
  (∀ f : FB, Completes (.ret f) f.pred f.pneg none (fun e s => goodTarget s e.k (e.r64 f.a))
    (fun e s => e.upd (afterTarget s e.k (e.r64 f.a)) fun t => { t with pc := e.r64 f.a })) ∧
  (∀ f : FB, f.md.getLsbD 0 = false → Completes (.call f) f.pred f.pneg none (fun _ _ => True)
    (fun e s => e.upd s fun t => { t.setReg64 f.a.toNat (nextClause e.g) with pc := e.g.hdr + 8 * f.off.signExtend 64 })) ∧
  (∀ f : FB, f.md.getLsbD 0 = true → Completes (.call f) f.pred f.pneg none (fun e s => goodTarget s e.k (e.r64 f.a))
    (fun e s => e.upd (afterTarget s e.k (e.r64 f.a)) fun t => { t.setReg64 f.a.toNat (nextClause e.g) with pc := e.r64 f.a })) ∧
  (∀ f : FB, StopsOne (.brx f) f.pred f.pneg none (fun e s => badTarget s e.k (e.r64 f.a))
    (fun e _ => .trap 0x005 0 (e.r64 f.a) false false) (fun e s => afterTarget s e.k (e.r64 f.a))) ∧
  (∀ f : FB, StopsOne (.ret f) f.pred f.pneg none (fun e s => badTarget s e.k (e.r64 f.a))
    (fun e _ => .trap 0x005 0 (e.r64 f.a) false false) (fun e s => afterTarget s e.k (e.r64 f.a))) ∧
  (∀ f : FB, f.md.getLsbD 0 = true → StopsOne (.call f) f.pred f.pneg none (fun e s => badTarget s e.k (e.r64 f.a))
    (fun e _ => .trap 0x005 0 (e.r64 f.a) false false) (fun e s => afterTarget s e.k (e.r64 f.a))) ∧
  (∀ f : FB, StopsOne (.brx f) f.pred f.pneg none (fun e s => waitingTarget s e.k (e.r64 f.a))
    (fun _ _ => .hold) (fun e s => afterTarget s e.k (e.r64 f.a))) ∧
  (∀ f : FB, StopsOne (.ret f) f.pred f.pneg none (fun e s => waitingTarget s e.k (e.r64 f.a))
    (fun _ _ => .hold) (fun e s => afterTarget s e.k (e.r64 f.a))) ∧
  (∀ f : FB, f.md.getLsbD 0 = true → StopsOne (.call f) f.pred f.pneg none (fun e s => waitingTarget s e.k (e.r64 f.a))
    (fun _ _ => .hold) (fun e s => afterTarget s e.k (e.r64 f.a)))

/-- R46, R47, R170, R171: an EXIT commits the thread's stores and ends the thread when no operation of it is outstanding and no arrival of
it uncounted; it waits until then; a store fault that its commit finds traps at the EXIT with 0x088. JSET replaces what any participant
expects of the barrier by one barrier of the participants with the identity of their fragment. JWAIT blocks a thread that the barrier
expects, and the barrier is then checked. YIELD ends the clause with the thread unready while another thread of the core is ready at its
priority or a higher one, and else does nothing. -/
def Obligations.ThreadControl : Prop :=
  (∀ f : FB, Completes (.exit f) f.pred f.pneg none
    (fun e s => mayEnd e s → (s.commitThread e.k.id e.tl).2 = true ∧ (me e (s.commitThread e.k.id e.tl).1).pendSf = none)
    (fun e s => if (me e s).ops.isEmpty && !s.arriving e.k.id e.tl then (s.commitThread e.k.id e.tl).1.endThread e.k.id e.tl
      else e.upd s fun t => { t with status := .exiting, pc := e.iaddr, hdr := e.g.hdr })) ∧
  (∀ (f : FB) (va : DWord) (d : Word), StopsOne (.exit f) f.pred f.pneg none
    (fun e s => mayEnd e s ∧ (s.commitThread e.k.id e.tl).2 = true ∧
      ∃ n, (me e (s.commitThread e.k.id e.tl).1).pendSf = some (va, n, d))
    (fun _ _ => .trap 0x088 d va false true) (fun e s => (s.commitThread e.k.id e.tl).1)) ∧
  (∀ (s : State) (b tl : Nat) (k : Block), s.block b = some k → tl < k.threads.length →
    ((s.endThread b tl).thread b tl).status = .ended) ∧
  (∀ (s : State) (b tl : Nat), (s.thread b tl).status = .exiting → (s.thread b tl).ops = [] → s.arriving b tl = false →
    (s.commitThread b tl).2 = true → ((s.commitThread b tl).1.thread b tl).pendSf = none →
    s.tryExit b tl = (s.commitThread b tl).1.endThread b tl) ∧
  (∀ f : FB, Completes (.jset f) f.pred f.pneg none (fun _ _ => True) (fun e s =>
    if e.parts.head?.map (·.2) = some e.tl then
      s.modBlock e.k.id fun k => k.jset f.j.toNat (e.parts.map (·.2)) e.th (s.quad e.k.core).cyc else s)) ∧
  (∀ (k : Block) (j : Nat) (parts : List Nat) (t : Thread) (cyc : Nat), parts ≠ [] →
    (k.jset j parts t cyc).joins = (k.joins.filter fun b => !(b.j == j && b.expected.any fun x => parts.contains x)) ++
      [⟨j, parts, [], t.fid, t.parent, t.sib⟩] ∧
    ((∀ b ∈ k.joins, b.j = j → ∀ x ∈ b.expected, x ∉ parts) → (k.jset j parts t cyc).threads = k.threads)) ∧
  (∀ (f : FB) (s : State) (g : Group) (k : Block), Ready (.jwait f) f.pred f.pneg s g k →
    exec (.jwait f) s = .next ((finishInstr (afterLanes (.jwait f) k (laneEnv f.pred f.pneg s g k) (fun e s =>
      if e.k.joins.any (fun b => b.j == f.j.toNat && b.expected.contains e.tl) then
        (waits e s (.jwait f.j.toNat)).modBlock e.k.id fun k => k.jarrive f.j.toNat e.tl
      else s) (activeLanes k g f.pred f.pneg) s) g []).joinCheck g.blk)) ∧
  (∀ f : FB, Completes (.yield f) f.pred f.pneg none (fun _ _ => True) (fun e s =>
    if (e.s0.yieldOthers e).isEmpty then s
    else e.upd s fun t => { t with
      status := .yielded (e.s0.yieldOthers e), pc := nextClause e.g, hdr := nextClause e.g, stallDone := false
      clauseEnd := (s.quad e.k.core).cyc, waitBase := 0, waitSeq := s.nextId, waitFrom := (s.quad e.k.core).cyc })) ∧
  (∀ (s : State) (e : Env) (b x : Nat), (b, x) ∈ s.yieldOthers e → ∃ k ∈ s.blocks, k.id = b ∧ k.core = e.k.core ∧
    (k.thread x).status = .ready ∧ e.th.iprio.toNat ≤ (k.thread x).nextPrio)

/-! ### Traps -/

/-- R256 to R259: a thread that traps alone in its fragment, in no wait, its slots idle and its block's store buffer empty, saves cause,
position, predicates and detail in TW0, the instruction's address in TW1, the resume address in TW2 and the address in TW3, and stands
ready at its handler's entry, if the cause is one that a handler takes. R255: without a handler, in the handler, or with a cause that fails
the launch, the launch fails with the cause, or with 0x012 in the handler. R122, R489: a lane of an IADD whose A is unmapped in a context
with STRICT traps with 0x004, and one whose A is poisoned with 0x200 and the poison's pointer, and does nothing else. -/
def Obligations.TrapEntry : Prop :=
  (∀ (s : State) (b tl : Nat) (k : Block) (i : TrapInfo) (a : DWord), s.block b = some k → tl < k.threads.length →
    HandlerAt s k a → i.cause ∉ [0x083, 0x084, 0x085, 0x086, 0x380, 0x381, 0x382] →
    (k.thread tl).inHandler = false → (k.thread tl).ops = [] → k.sbuf = [] → s.noticing k.core = false → trapsAlone k tl →
    (∀ w, (k.thread tl).status ≠ .waiting w) →
    s.takeTrap b tl i = s.modThread b tl (inTrap k tl a (s.quad k.core).cyc i)) ∧
  (∀ (s : State) (b tl : Nat) (k : Block) (l : Launch) (i : TrapInfo), s.block b = some k → s.launch k.launch = some l →
    l.outState = 0 → l.cause = 0 → i.cause ∉ [0x381, 0x382] →
    (i.cause ∈ [0x083, 0x084, 0x085, 0x086, 0x380] ∨ (k.thread tl).inHandler = true ∨ l.handler = none) →
    ∃ x, (s.takeTrap b tl i).launch k.launch = some x ∧ x.outState = 1 ∧
      x.cause = (if i.cause ∈ [0x083, 0x084, 0x085, 0x086, 0x380] then i.cause else if (k.thread tl).inHandler then 0x012 else i.cause)) ∧
  (∀ (f : FA) (s : State) (g : Group) (k : Block) (p : Nat × Nat), Issuing s g k → activeLanes k g f.pred f.pneg = [p] → f.a ≠ 255 →
    s.blockStrict k = true → tget (k.thread p.2).regs f.a.toNat = none →
    exec (.iadd f) s = .next (finishInstr s g [(p, .trap 0x004 0 0 false false)])) ∧
  (∀ (f : FA) (s : State) (g : Group) (k : Block) (p : Nat × Nat) (v : Word) (x : DWord), Issuing s g k →
    activeLanes k g f.pred f.pneg = [p] → f.a ≠ 255 → s.blockStrict k = false →
    tget (k.thread p.2).regs f.a.toNat = some ⟨v, some x⟩ →
    exec (.iadd f) s = .next (finishInstr s g [(p, .trap 0x200 0 x false false)]))

/-! ### Memory instructions -/

/-- R210: a load whose checks pass sets its slot with an operation on its destination registers: the words are known at once for local
and own memory. A load of global memory that is one single-copy access reads its bytes at the core's view, or asks the home: always for a
page of VC 0, and while a thread of the instruction has an acquiring access or a request to the granule outstanding. One of 16 bytes is
two accesses, one of the constant bank an access for each word, each read in the same way. ACQ reads at the core's view at thread and
block scope, and asks the home at a wider one; on local or own memory it traps with 0x081. -/
def Obligations.Loads : Prop :=
  (∀ f : FM, Completes (.ldl f) f.pred f.pneg (some f.sbs.toNat) (fun e _ => fits (e.offs f) (accessBytes f) e.k.localSize) (fun e s =>
    newOp e s f.sbs.toNat (destRegs f.d (accessBytes f))
      (some (loadWords (accessBytes f) (f.md.getLsbD 0) (localVal e s (e.offs f).toNat (accessBytes f)))) none false (fixedAt e s 24))) ∧
  (∀ f : FM, Completes (.ldp f) f.pred f.pneg (some f.sbs.toNat) (fun e _ => fits (e.offs f) (accessBytes f) e.k.privSize) (fun e s =>
    newOp e s f.sbs.toNat (destRegs f.d (accessBytes f))
      (some (loadWords (accessBytes f) (f.md.getLsbD 0) (ownVal e s (e.offs f).toNat (accessBytes f)))) none false (fixedAt e s 24))) ∧
  (∀ f : FM, Completes (.ld f) f.pred f.pneg (some f.sbs.toNat)
    (fun e _ => regionOf (e.ptr f) = 1 ∧ fits (offsetOf (e.ptr f)) (accessBytes f) e.k.localSize) (fun e s =>
      newOp e s f.sbs.toNat (destRegs f.d (accessBytes f))
        (some (loadWords (accessBytes f) (f.md.getLsbD 0) (localVal e s (offsetOf (e.ptr f)) (accessBytes f)))) none false none)) ∧
  (∀ f : FM, Completes (.ld f) f.pred f.pneg (some f.sbs.toNat)
    (fun e _ => regionOf (e.ptr f) = 2 ∧ fits (offsetOf (e.ptr f)) (accessBytes f) e.k.privSize) (fun e s =>
      newOp e s f.sbs.toNat (destRegs f.d (accessBytes f))
        (some (loadWords (accessBytes f) (f.md.getLsbD 0) (ownVal e s (offsetOf (e.ptr f)) (accessBytes f)))) none false none)) ∧
  (∀ f : FM, Completes (.ld f) f.pred f.pneg (some f.sbs.toNat)
    (fun e s => reachesGlobal (chk e s (e.ptr f) (accessBytes f) .load)) (fun e s =>
      atGlobal (chk e s (e.ptr f) (accessBytes f) .load) s fun pa en _ =>
        let u := chkState e s (e.ptr f) (accessBytes f) .load
        let nl1 := f.md.extractLsb' 2 2 == 2
        let low := f.md.extractLsb' 2 2 == 1
        if accessBytes f = 16 then e.loadParts u f.sbs f.d 2 8 pa (e.ptr f) en nl1 low
        else e.load u f.sbs f.d (accessBytes f) (f.md.getLsbD 0) pa (e.ptr f) en nl1 false low)) ∧
  (∀ f : FM, Completes (.ldk f) f.pred f.pneg (some f.sbs.toNat)
    (fun e s => (∃ l, s.launch e.k.launch = some l ∧ fits (e.offs f) (accessBytes f) l.cbsize) ∧
      reachesGlobal (s.checkConst e.k (constAddr e s (e.offs f))).1) (fun e s =>
        atGlobal (s.checkConst e.k (constAddr e s (e.offs f))).1 s fun pa en _ =>
          let u := (s.checkConst e.k (constAddr e s (e.offs f))).2
          let va := constVa e s (e.offs f)
          if 4 < accessBytes f then e.loadParts u f.sbs f.d (accessBytes f / 4) 4 pa va en false
          else e.load u f.sbs f.d (accessBytes f) false pa va en false false)) ∧
  (∀ f : FM, f.scope.toNat < 2 → Completes (.acq f) f.pred f.pneg (some f.sbs.toNat)
    (fun e s => notLocal (e.ptr f) ∧ reachesGlobal (chk e s (e.ptr f) (accessBytes f) .load)) (fun e s =>
      atGlobal (chk e s (e.ptr f) (accessBytes f) .load) s fun pa en _ =>
        e.load (chkState e s (e.ptr f) (accessBytes f) .load) f.sbs f.d (accessBytes f) false pa (e.ptr f) en false true)) ∧
  (∀ f : FM, 2 ≤ f.scope.toNat → Completes (.acq f) f.pred f.pneg (some f.sbs.toNat)
    (fun e s => notLocal (e.ptr f) ∧ reachesGlobal (chk e s (e.ptr f) (accessBytes f) .load)) (fun e s =>
      atGlobal (chk e s (e.ptr f) (accessBytes f) .load) s fun pa en _ =>
        let u := chkState e s (e.ptr f) (accessBytes f) .load
        let v := newOp e u f.sbs.toNat (destRegs f.d (accessBytes f)) none none true none
        asks v { e.req v .acquire (some u.nextId) pa (e.ptr f) en (accessBytes f) with acq := true, scope := f.scope.toNat })) ∧
  (∀ f : FM, StopsOne (.acq f) f.pred f.pneg (some f.sbs.toNat) (fun e _ => ¬ notLocal (e.ptr f))
    (fun e _ => memStop 0x081 false f (e.ptr f)) (fun _ s => s)) ∧
  (∀ (e : Env) (s : State) (sb : BitVec 3) (d : BitVec 8) (w : Nat) (sx : Bool) (pa : Nat) (va : DWord) (en : TlbEntry)
    (nl1 acq low : Bool), w ∈ [1, 2, 4, 8, 16] →
    let seen := s.viewBytes ((s.block e.k.id).getD e.k) e.tl s.nextId pa w
    let here := en.vc ≠ 0 ∧ ∀ p ∈ e.parts, (s.thread e.k.id p.2).acquiring = false ∧ s.pendingAt e.k.id p.2 (pa / 128) = false
    (∀ bs, here → seen = some bs →
      e.load s sb d w sx pa va en nl1 acq low = newOpAct e (s.touch ((s.block e.k.id).getD e.k).core (pa / 128) nl1) sb.toNat (destRegs d w)
        (some (loadWords w sx (leVal bs))) (if (s.touch ((s.block e.k.id).getD e.k).core (pa / 128) nl1).poisoned (pa / 128) then some va else none)
        acq (if acq then .acquire (pa / 128) (leVal bs) false false false false else .none)) ∧
    (¬ here ∨ seen = none →
      let v := newOp e s sb.toNat (destRegs d w) none none acq none
      e.load s sb d w sx pa va en nl1 acq low = asks v
        { e.req v .fill (some s.nextId) pa va en w with sx := sx, level := if nl1 then 1 else 0, acq := acq, low := low })) ∧
  (∀ (e : Env) (s : State) (sb : BitVec 3) (d : BitVec 8) (n w : Nat) (pa : Nat) (va : DWord) (en : TlbEntry) (nl1 low : Bool),
    e.loadParts s sb d n w pa va en nl1 low = (List.range n).foldl (fun u i => e.loadPart s.nextId nl1 en pa va w low u (i * (w / 4)))
      (newOp e s sb.toNat (destRegs d (n * w)) none none false none)) ∧
  (∀ (e : Env) (s : State) (op : Nat) (w : Nat) (pa : Nat) (va : DWord) (en : TlbEntry) (nl1 low : Bool) (i : Nat),
    let seen := s.viewBytes ((s.block e.k.id).getD e.k) e.tl op (pa + 4 * i) w
    let here := en.vc ≠ 0 ∧ ∀ p ∈ e.parts, (s.thread e.k.id p.2).acquiring = false ∧ s.pendingAt e.k.id p.2 (pa / 128) = false
    (∀ bs, here → seen = some bs → e.loadPart op nl1 en pa va w low s i = s.modOp e.k.id e.tl op fun x =>
      ({ x with poison := if s.poisoned (pa / 128) then some va else x.poison } : SlotOp).addPart i (wordsOf (w / 4) (leVal bs))) ∧
    (¬ here ∨ seen = none → e.loadPart op nl1 en pa va w low s i =
      asks s { e.req s .fill (some op) (pa + 4 * i) va en w with level := if nl1 then 1 else 0, low := low, wofs := some i }))

/-- R211, R219, R224, R226, R230: stores to local and own memory are performed at once. A store to global memory enters the store
buffer; where that is full its oldest entry commits first, and the block can no longer be rolled back; while that commit cannot be made the
store waits. REL, DRAINST and PHASE commit the buffer first, and wait while it cannot be; REL then asks the home, or, on a page without
write right, traps after it with 0x088; at local or own memory it traps with 0x081. PHASE awaits the write-back of the core's dirty lines and
the performance of the thread's older requests. While DRAINST's commit waits, the whole group does. -/
def Obligations.Stores : Prop :=
  (∀ f : FM, Completes (.stl f) f.pred f.pneg none (fun e _ => fits (e.offs f) (accessBytes f) e.k.localSize)
    (fun e s => putLocal e s (e.offs f).toNat (accessBytes f) (e.data f.d (accessBytes f)))) ∧
  (∀ f : FM, Completes (.stp f) f.pred f.pneg none (fun e _ => fits (e.offs f) (accessBytes f) e.k.privSize)
    (fun e s => putOwn e s (e.offs f).toNat (accessBytes f) (e.data f.d (accessBytes f)))) ∧
  (∀ f : FM, CompletesCommit (.st f) f.pred f.pneg none
    (fun e _ => regionOf (e.ptr f) = 1 ∧ fits (offsetOf (e.ptr f)) (accessBytes f) e.k.localSize)
    (fun e s => putLocal e s (offsetOf (e.ptr f)) (accessBytes f) (e.data f.d (accessBytes f)))) ∧
  (∀ f : FM, CompletesCommit (.st f) f.pred f.pneg none
    (fun e _ => regionOf (e.ptr f) = 2 ∧ fits (offsetOf (e.ptr f)) (accessBytes f) e.k.privSize)
    (fun e s => putOwn e s (offsetOf (e.ptr f)) (accessBytes f) (e.data f.d (accessBytes f)))) ∧
  (∀ f : FM, CompletesCommit (.st f) f.pred f.pneg none
    (fun e s => reachesGlobal (chk e s (e.ptr f) (accessBytes f) .store) ∧
      ∃ k, (chkState e s (e.ptr f) (accessBytes f) .store).block e.k.id = some k ∧ k.sbuf.length < 256)
    (fun e s => atGlobal (chk e s (e.ptr f) (accessBytes f) .store) s fun pa en w =>
      let u := chkState e s (e.ptr f) (accessBytes f) .store
      buffers e u (storeEntry e u f pa en w (f.md.extractLsb' 2 2 == 2) (f.md.extractLsb' 2 2 == 1)))) ∧
  (∀ f : FM, CompletesCommit (.st f) f.pred f.pneg none
    (fun e s => reachesGlobal (chk e s (e.ptr f) (accessBytes f) .store) ∧ (let u := chkState e s (e.ptr f) (accessBytes f) .store
      ∃ k, u.block e.k.id = some k ∧ 256 ≤ k.sbuf.length ∧ (u.commitList e.k.id (fun _ => true) (overfull k)).2 = true))
    (fun e s => atGlobal (chk e s (e.ptr f) (accessBytes f) .store) s fun pa en w =>
      let u := chkState e s (e.ptr f) (accessBytes f) .store
      let v := (u.commitList e.k.id (fun _ => true) (overfull (blockNow e u))).1
      buffers e (v.modBlock e.k.id fun k => { k with nonRollback := true })
        (storeEntry e u f pa en w (f.md.extractLsb' 2 2 == 2) (f.md.extractLsb' 2 2 == 1)))) ∧
  (∀ f : FM, StopsOne (.st f) f.pred f.pneg none
    (fun e s => reachesGlobal (chk e s (e.ptr f) (accessBytes f) .store) ∧ (let u := chkState e s (e.ptr f) (accessBytes f) .store
      ∃ k, u.block e.k.id = some k ∧ 256 ≤ k.sbuf.length ∧ (u.commitList e.k.id (fun _ => true) (overfull k)).2 = false))
    (fun _ _ => .hold) (fun e s => let u := chkState e s (e.ptr f) (accessBytes f) .store
      (u.commitList e.k.id (fun _ => true) (overfull (blockNow e u))).1)) ∧
  (∀ f : FM, CompletesCommit (.rel f) f.pred f.pneg none
    (fun e s => notLocal (e.ptr f) ∧ (∃ pa en, chk e s (e.ptr f) (accessBytes f) .store = .ok (.glob pa en true)) ∧
      ((chkState e s (e.ptr f) (accessBytes f) .store).commitBlock e.k.id).2 = true)
    (fun e s => atGlobal (chk e s (e.ptr f) (accessBytes f) .store) s fun pa en _ =>
      let u := commits e (chkState e s (e.ptr f) (accessBytes f) .store)
      let v := if 2 ≤ f.scope.toNat then (irrevocableFrom 2 f e u).modThread e.k.id e.tl (unmark (pa / 128)) else u
      asks v { e.req v .release none pa (e.ptr f) en (accessBytes f) with
        data := e.data f.d (accessBytes f), rel := true, scope := f.scope.toNat })) ∧
  (∀ f : FM, StopsOne (.rel f) f.pred f.pneg none (fun e _ => ¬ notLocal (e.ptr f))
    (fun e _ => memStop 0x081 true f (e.ptr f)) (fun _ s => s)) ∧
  (∀ (f : FM) (pa : Nat) (en : TlbEntry) (va : DWord) (d : Word), StopsDone (.rel f) f.pred f.pneg none
    (fun e s => notLocal (e.ptr f) ∧ chk e s (e.ptr f) (accessBytes f) .store = .ok (.glob pa en false) ∧
      (let u := chkState e s (e.ptr f) (accessBytes f) .store
       (u.commitBlock e.k.id).2 = true ∧ ∃ n, (me e ((commits e u).modBlock e.k.id fun k =>
        k.storeFault (storeEntry e (commits e u) f pa en false false false))).pendSf = some (va, n, d)))
    (fun _ _ => .trap 0x088 d va true true)
    (fun e s => let u := commits e (chkState e s (e.ptr f) (accessBytes f) .store)
      u.modBlock e.k.id fun k => k.storeFault (storeEntry e u f pa en false false false))) ∧
  (∀ f : FM, StopsOne (.rel f) f.pred f.pneg none
    (fun e s => notLocal (e.ptr f) ∧ reachesGlobal (chk e s (e.ptr f) (accessBytes f) .store) ∧
      ((chkState e s (e.ptr f) (accessBytes f) .store).commitBlock e.k.id).2 = false)
    (fun _ _ => .hold) (fun e s => commits e (chkState e s (e.ptr f) (accessBytes f) .store))) ∧
  (∀ f : FM, CompletesCommit (.drainst f) f.pred f.pneg none (fun e s => (s.commitBlock e.k.id).2 = true) (fun e s => commits e s)) ∧
  (∀ (f : FM) (s : State) (g : Group) (k : Block) (p : Nat × Nat), Alone (.drainst f) f.pred f.pneg s g k p →
    ((atIssue (.drainst f) s k p).commitBlock k.id).2 = false →
    exec (.drainst f) s = .next (finishInstr (((atIssue (.drainst f) s k p).commitBlock k.id).1.modThread k.id p.2 fun t =>
      { t with regs := (k.thread p.2).regs }) g (holdAll g [(p, .hold)]))) ∧
  (∀ (g : Group) (p q : Nat × Nat), q ∈ g.lanes → (q, Stop.hold) ∈ holdAll g [(p, .hold)]) ∧
  (∀ f : FM, CompletesCommit (.phase f) f.pred f.pneg none (fun e s => (s.commitBlock e.k.id).2 = true) (fun e s =>
    let u := (irrevocableFrom 2 f e (commits e s)).modThread e.k.id e.tl fun t => { t with phases := t.phases + 1 }
    u.fence (.phase e.k.id e.tl f.scope.toNat) [e.k.core] (fun _ _ => true) (u.older e.k.id e.tl))) ∧
  (∀ f : FM, StopsOne (.phase f) f.pred f.pneg none (fun e s => (s.commitBlock e.k.id).2 = false)
    (fun _ _ => .hold) (fun e s => commits e s))

/-- R220 to R222: an atomic on local or own memory stores its result and gives the old value; one on global memory asks the home, a
release part committing the block's stores first, and waiting while they cannot be, and drops the core's clean copies. ORD on local or own
memory traps with 0x081. The integer operations on values of 32 and 64 bits are those of R221. -/
def Obligations.Atomics : Prop :=
  (∀ f : FM, Completes (.atoml f) f.pred f.pneg (some f.sbs.toNat) (fun e _ => fits (e.aoffs f) (accessBytes f) e.k.localSize) (fun e s =>
    let w := accessBytes f
    let a := (e.aoffs f).toNat
    let old := localVal e s a w
    let u := match atomNew f.md.toNat (8 * w) old (e.atomOps f).1 (e.atomOps f).2 with
      | some v => putLocal e s a w v
      | none => s
    newOp e u f.sbs.toNat (destRegs f.d w) (some (wordsOf (w / 4) old)) none false (fixedAt e u 32))) ∧
  (∀ f : FM, f.off.extractLsb' 18 2 = 0 → CompletesCommit (.atom f) f.pred f.pneg (some f.sbs.toNat)
    (fun e _ => regionOf (e.aptr f) = 1 ∧ fits (offsetOf (e.aptr f)) (accessBytes f) e.k.localSize) (fun e s =>
      let w := accessBytes f
      let a := offsetOf (e.aptr f)
      let old := localVal e s a w
      newOp e (match atomNew f.md.toNat (8 * w) old (e.atomOps f).1 (e.atomOps f).2 with
        | some v => putLocal e s a w v
        | none => s) f.sbs.toNat (destRegs f.d w) (some (wordsOf (w / 4) old)) none false none)) ∧
  (∀ f : FM, f.off.extractLsb' 18 2 = 0 → CompletesCommit (.atom f) f.pred f.pneg (some f.sbs.toNat)
    (fun e _ => regionOf (e.aptr f) = 2 ∧ fits (offsetOf (e.aptr f)) (accessBytes f) e.k.privSize) (fun e s =>
      let w := accessBytes f
      let a := offsetOf (e.aptr f)
      let old := ownVal e s a w
      newOp e (match atomNew f.md.toNat (8 * w) old (e.atomOps f).1 (e.atomOps f).2 with
        | some v => putOwn e s a w v
        | none => s) f.sbs.toNat (destRegs f.d w) (some (wordsOf (w / 4) old)) none false none)) ∧
  (∀ f : FM, f.off.extractLsb' 18 2 = 0 → CompletesCommit (.red f) f.pred f.pneg none
    (fun e _ => regionOf (e.aptr f) = 1 ∧ fits (offsetOf (e.aptr f)) (accessBytes f) e.k.localSize) (fun e s =>
      let w := accessBytes f
      let a := offsetOf (e.aptr f)
      match atomNew f.md.toNat (8 * w) (localVal e s a w) (e.atomOps f).1 (e.atomOps f).2 with
      | some v => putLocal e s a w v
      | none => s)) ∧
  (∀ f : FM, f.off.extractLsb' 18 2 = 0 → CompletesCommit (.red f) f.pred f.pneg none
    (fun e _ => regionOf (e.aptr f) = 2 ∧ fits (offsetOf (e.aptr f)) (accessBytes f) e.k.privSize) (fun e s =>
      let w := accessBytes f
      let a := offsetOf (e.aptr f)
      match atomNew f.md.toNat (8 * w) (ownVal e s a w) (e.atomOps f).1 (e.atomOps f).2 with
      | some v => putOwn e s a w v
      | none => s)) ∧
  (∀ (f : FM) (lands : Bool), f.off.extractLsb' 18 2 ≠ 0 →
    StopsOne (if lands then .atom f else .red f) f.pred f.pneg (if lands then some f.sbs.toNat else none)
      (fun e _ => ¬ notLocal (e.aptr f)) (fun e _ => memStop 0x081 true f (e.aptr f)) (fun _ s => s)) ∧
  (∀ (f : FM) (lands : Bool), CompletesCommit (if lands then .atom f else .red f) f.pred f.pneg (if lands then some f.sbs.toNat else none)
    (fun e s => notLocal (e.aptr f) ∧ reachesGlobal (chk e s (e.aptr f) (accessBytes f) .atomic) ∧
      (f.off.getLsbD 19 = true → ((chkState e s (e.aptr f) (accessBytes f) .atomic).commitBlock e.k.id).2 = true))
    (fun e s => atGlobal (chk e s (e.aptr f) (accessBytes f) .atomic) s fun pa en _ =>
      let u := chkState e s (e.aptr f) (accessBytes f) .atomic
      let u := if f.off.getLsbD 19 then commits e u else u
      let u := u.modBlock e.k.id fun k => { k with nonRollback := true }
      let u := if f.off.getLsbD 19 ∧ 2 ≤ f.scope.toNat then u.modThread e.k.id e.tl (unmark (pa / 128)) else u
      let u := (u.dropCopy e.k.core (pa / 128)).dropL2 e.k.core.die (pa / 128)
      let v := if lands then newOp e u f.sbs.toNat (destRegs f.d (accessBytes f)) none none (f.off.getLsbD 18) none else u
      asks v { e.req v .atomic (if lands then some u.nextId else none) pa (e.aptr f) en (accessBytes f) with
        data := (e.atomOps f).1, cmp := (e.atomOps f).2, aop := f.md.toNat, acq := f.off.getLsbD 18, rel := f.off.getLsbD 19
        scope := f.scope.toNat })) ∧
  (∀ (f : FM) (lands : Bool), f.off.getLsbD 19 = true →
    StopsOne (if lands then .atom f else .red f) f.pred f.pneg (if lands then some f.sbs.toNat else none)
      (fun e s => notLocal (e.aptr f) ∧ reachesGlobal (chk e s (e.aptr f) (accessBytes f) .atomic) ∧
        ((chkState e s (e.aptr f) (accessBytes f) .atomic).commitBlock e.k.id).2 = false)
      (fun _ _ => .hold) (fun e s => commits e (chkState e s (e.aptr f) (accessBytes f) .atomic))) ∧
  (∀ n ∈ [32, 64], ∀ op ≤ 11, ∀ old v cmp : BitVec n,
    atomNew op n old.toNat v.toNat cmp.toNat = (atomResult n op old v cmp).map (·.toNat))

/-- R228, R229, R463: PREF asks for the granule, and is dropped on a page of VC 0, outside global memory or where a check fails; CLINE writes
back or invalidates, and at local or own memory does nothing (the model's choice: notes/assumptions/50.md); VCQRY lands a VC table entry, a
sync record or a directory entry, traps with 0x090 on an index of 256 or more, and with 0x081 at local or own memory. -/
def Obligations.CacheControl : Prop :=
  (∀ f : FM, Completes (.pref f) f.pred f.pneg none (fun _ _ => True) (fun e s =>
    let u := (s.check e.k (e.ptr f) 1 1 .pref).2
    atGlobal (s.check e.k (e.ptr f) 1 1 .pref).1 u fun pa en _ =>
      if en.vc = 0 then u
      else asks u { e.req u .fill none (pa / 128 * 128) (e.ptr f) en 1 with level := f.md.toNat })) ∧
  (∀ f : FM, Completes (.cline f) f.pred f.pneg none (fun e s => reachesGlobal (s.check e.k (e.ptr f) 1 1 .cline).1) (fun e s =>
    atGlobal (s.check e.k (e.ptr f) 1 1 .cline).1 s fun pa _ _ =>
      let u := (s.check e.k (e.ptr f) 1 1 .cline).2
      let w := if f.md = 0 ∨ f.md = 2 then u.arriveWb e.k.core (pa / 128) else u
      if f.md = 0 then w
      else if f.md = 1 ∨ f.md = 2 then (w.dropCopy e.k.core (pa / 128)).dropL2 e.k.core.die (pa / 128)
      else w.setCore e.k.core { w.core e.k.core with copies := [] })) ∧
  (∀ f : FM, Completes (.cline f) f.pred f.pneg none
    (fun e _ => (regionOf (e.ptr f) = 1 ∧ offsetOf (e.ptr f) < e.k.localSize) ∨ (regionOf (e.ptr f) = 2 ∧ offsetOf (e.ptr f) < e.k.privSize))
    (fun _ s => s)) ∧
  (∀ f : FM, f.md = 0 → Completes (.vcqry f) f.pred f.pneg (some f.sbs.toNat) (fun e _ => (e.r f.a).toNat < 256) (fun e s =>
    let v := (s.ctx e.k.ctx).bind fun c => tget c.vcs (e.r f.a).toNat
    let w0 : DWord := (v.map (·.w0)).getD 0
    let w2 : DWord := (v.map (·.word2)).getD 0
    newOp e s f.sbs.toNat (destRegs f.d 16)
      (some [w0.setWidth 32, (w0 >>> 32).setWidth 32, w2.setWidth 32, (w2 >>> 32).setWidth 32]) none false none)) ∧
  (∀ f : FM, f.md ≠ 0 → Completes (.vcqry f) f.pred f.pneg (some f.sbs.toNat)
    (fun e s => notLocal (e.ptr f) ∧ reachesGlobal (chk e s (e.ptr f) 8 .query)) (fun e s =>
      atGlobal (chk e s (e.ptr f) 8 .query) s fun pa en _ =>
        let u := chkState e s (e.ptr f) 8 .query
        let w : DWord := if f.md = 1 then (u.srec (pa / 128)).word else u.dirWord (pa / 128) en.trk
        newOp e u f.sbs.toNat (destRegs f.d 8) (some [w.setWidth 32, (w >>> 32).setWidth 32]) none false none)) ∧
  (∀ f : FM, f.md = 0 → StopsOne (.vcqry f) f.pred f.pneg (some f.sbs.toNat) (fun e _ => 256 ≤ (e.r f.a).toNat)
    (fun _ _ => .trap 0x090 0 0 false false) (fun _ s => s)) ∧
  (∀ f : FM, f.md ≠ 0 → StopsOne (.vcqry f) f.pred f.pneg (some f.sbs.toNat) (fun e _ => ¬ notLocal (e.ptr f))
    (fun e _ => memStop 0x081 false f (e.ptr f)) (fun _ s => s))

/-- R69, R208, R209, R217: the order of the checks of a pointer, and the cause each one gives; a page that moves parks a load, a store or
an atomic. R258: at a failed check a lane traps, with the width in DETAIL, 8 more for a write, at the pointer of the access; an offset
outside its space gives 0x080, a misaligned one 0x082. A lane whose checks fail does nothing else. -/
def Obligations.AccessChecks : Prop :=
  (∀ (s : State) (k : Block) (p : DWord) (w align : Nat) (ak : AKind), 0 < w →
     let r := regionOf p
     let a := offsetOf p
     let c := (s.check k p w align ak).1
     let bt := ((s.ctx k.ctx).map (·.btbase)).getD 0 + 16 * r
     let inBounds := r = 0 ∨ boundsOk (mread s.mem bt 8) (mread s.mem (bt + 8) 8) a w ak = true
     let reads := ak = .load ∨ ak = .query ∨ ak = .atomic
     let waits := ak = .load ∨ ak = .store ∨ ak = .atomic
     (r = 1 → k.localSize < a + w → c = .trap 0x080) ∧
     (r = 2 → k.privSize < a + w → c = .trap 0x080) ∧
     (3 ≤ r → ¬inBounds → c = .trap 0x080) ∧
     (r = 1 → a + w ≤ k.localSize → c = if a % align = 0 then .ok (.loc a) else .trap 0x082) ∧
     (r = 2 → a + w ≤ k.privSize → c = if a % align = 0 then .ok (.prv a) else .trap 0x082) ∧
     (r ≠ 1 → r ≠ 2 → inBounds → a % align ≠ 0 → c = .trap 0x082) ∧
     (r ≠ 1 → r ≠ 2 → inBounds → a % align = 0 →
       (leaseOk (s.leases k) a w ak = false → c = .trap 0x083) ∧
       (leaseOk (s.leases k) a w ak = true →
         (∀ x u, s.lookup k.core k.ctx a = (.bad x, u) → c = .trap x) ∧
         (∀ e u, s.lookup k.core k.ctx a = (.ok e, u) →
           (∀ x, u.paCause (e.frame * 4096 + a % 4096) = some x → c = .trap x) ∧
           (u.paCause (e.frame * 4096 + a % 4096) = none →
             (u.vc k.ctx e.vc.toNat = none → c = .trap 0x086) ∧
             (∀ v, u.vc k.ctx e.vc.toNat = some v →
               let wr := e.w && v.wpol != 3
               (reads → e.rd = false → c = .trap 0x087) ∧
               ((reads → e.rd = true) → ak = .atomic → wr = false → c = .trap 0x088) ∧
               ((reads → e.rd = true) → (ak = .atomic → wr = true) →
                 (waits → u.isMoving e = true → c = .park e.page) ∧
                 (¬ waits ∨ u.isMoving e = false → c = .ok (.glob (u.localPa (e.frame * 4096 + a % 4096)) e wr))))))))) ∧
  (let bad := fun (a : Int) (w size : Nat) => if a < 0 ∨ (size : Int) < a + w then 0x080 else 0x082
   (∀ f : FM, StopsOne (.ldl f) f.pred f.pneg (some f.sbs.toNat) (fun e _ => ¬ fits (e.offs f) (accessBytes f) e.k.localSize)
     (fun e _ => memStop (bad (e.offs f) (accessBytes f) e.k.localSize) false f (1#8 ++ BitVec.ofInt 56 (e.offs f))) (fun _ s => s)) ∧
   (∀ f : FM, StopsOne (.stl f) f.pred f.pneg none (fun e _ => ¬ fits (e.offs f) (accessBytes f) e.k.localSize)
     (fun e _ => memStop (bad (e.offs f) (accessBytes f) e.k.localSize) true f (1#8 ++ BitVec.ofInt 56 (e.offs f))) (fun _ s => s)) ∧
   (∀ f : FM, StopsOne (.ldp f) f.pred f.pneg (some f.sbs.toNat) (fun e _ => ¬ fits (e.offs f) (accessBytes f) e.k.privSize)
     (fun e _ => memStop (bad (e.offs f) (accessBytes f) e.k.privSize) false f (2#8 ++ BitVec.ofInt 56 (e.offs f))) (fun _ s => s)) ∧
   (∀ f : FM, StopsOne (.stp f) f.pred f.pneg none (fun e _ => ¬ fits (e.offs f) (accessBytes f) e.k.privSize)
     (fun e _ => memStop (bad (e.offs f) (accessBytes f) e.k.privSize) true f (2#8 ++ BitVec.ofInt 56 (e.offs f))) (fun _ s => s)) ∧
   (∀ f : FM, StopsOne (.atoml f) f.pred f.pneg (some f.sbs.toNat) (fun e _ => ¬ fits (e.aoffs f) (accessBytes f) e.k.localSize)
     (fun e _ => memStop (bad (e.aoffs f) (accessBytes f) e.k.localSize) true f (1#8 ++ BitVec.ofInt 56 (e.aoffs f))) (fun _ s => s)) ∧
   (∀ (f : FM) (n : Nat), StopsOne (.ldk f) f.pred f.pneg (some f.sbs.toNat)
     (fun e s => (((s.launch e.k.launch).map (·.cbsize)).getD 0 = n) ∧ ¬ fits (e.offs f) (accessBytes f) n)
     (fun e s => memStop (bad (e.offs f) (accessBytes f) n) false f (constVa e s (e.offs f))) (fun _ s => s))) ∧
  (∀ (f : FM) (st : Stop), StopsOne (.ld f) f.pred f.pneg (some f.sbs.toNat)
    (fun e s => refused (chk e s (e.ptr f) (accessBytes f) .load) false f (e.ptr f) = some st) (fun _ _ => st)
    (fun e s => chkState e s (e.ptr f) (accessBytes f) .load)) ∧
  (∀ (f : FM) (st : Stop), StopsOne (.st f) f.pred f.pneg none
    (fun e s => refused (chk e s (e.ptr f) (accessBytes f) .store) true f (e.ptr f) = some st) (fun _ _ => st)
    (fun e s => chkState e s (e.ptr f) (accessBytes f) .store)) ∧
  (∀ (f : FM) (st : Stop), StopsOne (.acq f) f.pred f.pneg (some f.sbs.toNat)
    (fun e s => notLocal (e.ptr f) ∧ refused (chk e s (e.ptr f) (accessBytes f) .load) false f (e.ptr f) = some st) (fun _ _ => st)
    (fun e s => chkState e s (e.ptr f) (accessBytes f) .load)) ∧
  (∀ (f : FM) (st : Stop), StopsOne (.rel f) f.pred f.pneg none
    (fun e s => notLocal (e.ptr f) ∧ refused (chk e s (e.ptr f) (accessBytes f) .store) true f (e.ptr f) = some st) (fun _ _ => st)
    (fun e s => chkState e s (e.ptr f) (accessBytes f) .store)) ∧
  (∀ (f : FM) (lands : Bool) (st : Stop),
    StopsOne (if lands then .atom f else .red f) f.pred f.pneg (if lands then some f.sbs.toNat else none)
      (fun e s => (f.off.extractLsb' 18 2 = 0 ∨ notLocal (e.aptr f)) ∧
        refused (chk e s (e.aptr f) (accessBytes f) .atomic) true f (e.aptr f) = some st) (fun _ _ => st)
      (fun e s => chkState e s (e.aptr f) (accessBytes f) .atomic)) ∧
  (∀ (f : FM) (x : Nat), StopsOne (.cline f) f.pred f.pneg none (fun e s => (s.check e.k (e.ptr f) 1 1 .cline).1 = .trap x)
    (fun e _ => memStop x false f (e.ptr f)) (fun e s => (s.check e.k (e.ptr f) 1 1 .cline).2)) ∧
  (∀ (f : FM) (x : Nat), f.md ≠ 0 → StopsOne (.vcqry f) f.pred f.pneg (some f.sbs.toNat)
    (fun e s => notLocal (e.ptr f) ∧ chk e s (e.ptr f) 8 .query = .trap x)
    (fun e _ => memStop x false f (e.ptr f)) (fun e s => chkState e s (e.ptr f) 8 .query)) ∧
  (∀ (f : FM) (x : Nat) (n : Nat), StopsOne (.ldk f) f.pred f.pneg (some f.sbs.toNat)
    (fun e s => ((s.launch e.k.launch).map (·.cbsize)).getD 0 = n ∧ fits (e.offs f) (accessBytes f) n ∧
      (s.checkConst e.k (constAddr e s (e.offs f))).1 = .trap x)
    (fun e s => memStop x false f (constVa e s (e.offs f))) (fun e s => (s.checkConst e.k (constAddr e s (e.offs f))).2)) ∧
  (∀ (f : FM) (x : Nat) (n : Nat), StopsOne (.ldk f) f.pred f.pneg (some f.sbs.toNat)
    (fun e s => ((s.launch e.k.launch).map (·.cbsize)).getD 0 = n ∧ fits (e.offs f) (accessBytes f) n ∧
      (s.checkConst e.k (constAddr e s (e.offs f))).1 = .park x)
    (fun e s => .park x (constAddr e s (e.offs f))) (fun e s => (s.checkConst e.k (constAddr e s (e.offs f))).2))

/-- R76, R78, R211: when the one store of a block commits, it leaves the store buffer, and its bytes are the core's dirty bytes of the
granule; the home's where the page writes through. The commit is not complete while a dirty notice of the core is unanswered: neither where
one was, nor where these are the core's first dirty bytes of a granule of another package (spec/19_fabric.md R480). -/
def Obligations.CommittedStore : Prop :=
  ∀ (s : State) (b : Nat) (k : Block) (e : SbEntry), s.block b = some k → k.sbuf = [e] → s.entryHeld k e = false → e.faulting = false →
    e.pa % 128 + e.width ≤ 128 →
    let far := s.writesThrough k.ctx e.vc = false ∧ lineOf s k.core (e.pa / 128) = none ∧ s.homePkg (e.pa / 128 * 128) ≠ s.pkg.toNat
    ((s.commitBlock b).2 = true ↔ s.noticing k.core = false ∧ ¬ far) ∧
    ((s.commitBlock b).1.block b).map (·.sbuf) = some [] ∧
    (s.writesThrough k.ctx e.vc = false →
      (s.commitBlock b).1.mem = s.mem ∧
      ∀ i < e.width, ((s.commitBlock b).1.core k.core).dirtyByte (e.pa + i) = some (BitVec.ofNat 8 (e.data / 256 ^ i))) ∧
    (s.writesThrough k.ctx e.vc = true → e.tracked = false ∨ cleanEverywhere s (e.pa / 128) →
      (∀ i < e.width, mget (s.commitBlock b).1.mem (e.pa + i) = BitVec.ofNat 8 (e.data / 256 ^ i)) ∧
      ∀ a, a < e.pa ∨ e.pa + e.width ≤ a → mget (s.commitBlock b).1.mem a = mget s.mem a)

/-! ### Barriers, barrier objects, queues -/

/-- R234, R235: BARARV commits the stores, and waits while they cannot be committed, and arrives once in a phase; BARWAIT leaves a completed
phase and else waits; BAR does both. All three trap with 0x003 where the launch does not allow the barrier; a second arrival and a wait
without one trap with 0x104. A phase completes with its last live participant; at pod scope the package then reports to the root. -/
def Obligations.ScopedBarriers : Prop :=
  (∀ f : FM, CompletesCommit (.bararv f) f.pred f.pneg none
    (fun e s => barAllowed s e.k f.scope.toNat ∧ arrived (me e s) f.scope.toNat f.md.toNat = none ∧ (s.commitBlock e.k.id).2 = true)
    (fun e s => barArrives e s f.scope.toNat f.md.toNat)) ∧
  (∀ f : FM, Completes (.barwait f) f.pred f.pneg none
    (fun e s => barAllowed s e.k f.scope.toNat ∧ (arrived (me e s) f.scope.toNat f.md.toNat).isSome = true)
    (fun e s => barWaits e s f.scope.toNat f.md.toNat)) ∧
  (∀ f : FM, CompletesCommit (.bar f) f.pred f.pneg none
    (fun e s => barAllowed s e.k f.scope.toNat ∧ arrived (me e s) f.scope.toNat f.md.toNat = none ∧ (s.commitBlock e.k.id).2 = true ∧
      (arrived (me e (barArrives e s f.scope.toNat f.md.toNat)) f.scope.toNat f.md.toNat).isSome = true)
    (fun e s => barWaits e (barArrives e s f.scope.toNat f.md.toNat) f.scope.toNat f.md.toNat)) ∧
  (∀ c ∈ [Instr.bararv, .barwait, .bar], ∀ f : FM, StopsOne (c f) f.pred f.pneg none (fun e s => ¬ barAllowed s e.k f.scope.toNat)
    (fun _ _ => .trap 0x003 0 0 false false) (fun _ s => s)) ∧
  (∀ c ∈ [Instr.bararv, .bar], ∀ f : FM, StopsOne (c f) f.pred f.pneg none
    (fun e s => barAllowed s e.k f.scope.toNat ∧ (arrived (me e s) f.scope.toNat f.md.toNat).isSome = true)
    (fun _ _ => .trap 0x104 0 0 false false) (fun _ s => s)) ∧
  (∀ c ∈ [Instr.bararv, .bar], ∀ f : FM, StopsOne (c f) f.pred f.pneg none
    (fun e s => barAllowed s e.k f.scope.toNat ∧ arrived (me e s) f.scope.toNat f.md.toNat = none ∧ (s.commitBlock e.k.id).2 = false)
    (fun _ _ => .hold) (fun e s => commits e s)) ∧
  (∀ f : FM, StopsOne (.barwait f) f.pred f.pneg none
    (fun e s => barAllowed s e.k f.scope.toNat ∧ arrived (me e s) f.scope.toNat f.md.toNat = none)
    (fun _ _ => .trap 0x104 0 0 false false) (fun _ s => s)) ∧
  (∀ (s : State) (scope owner inst bid : Nat), (s.barOf scope owner inst bid).arrived ≠ [] →
    (∀ p ∈ s.participants scope owner inst, p ∈ (s.barOf scope owner inst bid).arrived) →
    (scope ≠ 5 → (s.barCheck scope owner inst bid).barOf scope owner inst bid =
      { s.barOf scope owner inst bid with phase := (s.barOf scope owner inst bid).phase + 1, arrived := [] }) ∧
    (scope = 5 → (0, 0) ∉ (s.barOf scope owner inst bid).arrived → s.barCheck scope owner inst bid =
      (s.setBar { s.barOf scope owner inst bid with arrived := (0, 0) :: (s.barOf scope owner inst bid).arrived }).podArrive owner s.pkg.toNat)) ∧
  (∀ (s : State) (scope owner inst bid : Nat), (s.barOf scope owner inst bid).arrived = [] ∨
    (∃ p ∈ s.participants scope owner inst, p ∉ (s.barOf scope owner inst bid).arrived) → s.barCheck scope owner inst bid = s)

/-- R236 to R241: BOINIT sets a count and the open phase; BOEXP announces bytes; BOARV counts an arrival; the phase flips when the count
and the bytes are zero; BOWAIT goes on once the phase differs from its operand's and else waits; BOTEST sets a predicate; these two look at
the object's completion too. An object outside local memory traps with 0x080, a misaligned one with 0x082, an invalid one with 0x101, a
count out of range with 0x102, an arrival too many with 0x103. -/
def Obligations.BarrierObjects : Prop :=
  (∀ f : FM, Completes (.boinit f) f.pred f.pneg none
    (fun e _ => boAt (e.offs f) e.k.localSize ∧ 0 < (e.r f.d).toNat ∧ (e.r f.d).toNat ≤ 4095) (fun e s =>
      (s.stPut e.k.id (e.offs f).toNat 0).boPut e.k.id (e.offs f).toNat ⟨false, true, (e.r f.d).toNat, (e.r f.d).toNat, 0⟩)) ∧
  (∀ f : FM, Completes (.boexp f) f.pred f.pneg none
    (fun e s => boAt (e.offs f) e.k.localSize ∧ (boNow e s (e.offs f).toNat).v = true ∧
      (boNow e s (e.offs f).toNat).tx + (e.r f.d).toNat ≤ 2147483647 ∧ (f.md.getLsbD 0 = true → 0 < (boNow e s (e.offs f).toNat).pend))
    (fun e s =>
      let o := boNow e s (e.offs f).toNat
      s.boPut e.k.id (e.offs f).toNat { o with
        tx := o.tx + (e.r f.d).toNat, pend := if f.md.getLsbD 0 then o.pend - 1 else o.pend })) ∧
  (∀ f : FM, Completes (.boarv f) f.pred f.pneg none
    (fun e s => boAt (e.offs f) e.k.localSize ∧ (boNow e s (e.offs f).toNat).v = true ∧ 0 < (boNow e s (e.offs f).toNat).pend)
    (fun e s =>
      let o := boNow e s (e.offs f).toNat
      s.boPut e.k.id (e.offs f).toNat { o with pend := o.pend - 1 })) ∧
  (∀ f : FM, Completes (.bowait f) f.pred f.pneg none
    (fun e s => boAt (e.offs f) e.k.localSize ∧ (boNow e s (e.offs f).toNat).v = true) (fun e s =>
      (if (boNow e s (e.offs f).toNat).ph = (e.r f.d).getLsbD 0 then waits e s (.bowait (e.offs f).toNat ((e.r f.d).getLsbD 0))
        else s).boLook e.k.id (e.offs f).toNat)) ∧
  (∀ f : FM, Completes (.botest f) f.pred f.pneg none
    (fun e s => boAt (e.offs f) e.k.localSize ∧ (boNow e s (e.offs f).toNat).v = true) (fun e s =>
      (e.upd s fun t => t.setPred (f.md.toNat % 8) ((boNow e s (e.offs f).toNat).ph ^^ (e.r f.d).getLsbD 0)).boLook
        e.k.id (e.offs f).toNat)) ∧
  (∀ p ∈ [(Instr.boinit, true), (.boexp, true), (.boarv, true), (.bowait, false), (.botest, false)], ∀ f : FM,
    StopsOne (p.1 f) f.pred f.pneg none (fun e _ => ¬ boAt (e.offs f) e.k.localSize)
      (fun e _ => memStop (if e.offs f < 0 ∨ (e.k.localSize : Int) < e.offs f + 16 then 0x080 else 0x082) p.2 f
        (1#8 ++ BitVec.ofInt 56 (e.offs f))) (fun _ s => s)) ∧
  (∀ c ∈ [Instr.boexp, .boarv, .bowait, .botest], ∀ f : FM, StopsOne (c f) f.pred f.pneg none
    (fun e s => boAt (e.offs f) e.k.localSize ∧ (boNow e s (e.offs f).toNat).v = false)
    (fun _ _ => .trap 0x101 0 0 false false) (fun _ s => s)) ∧
  (∀ f : FM, StopsOne (.boinit f) f.pred f.pneg none
    (fun e _ => boAt (e.offs f) e.k.localSize ∧ ((e.r f.d).toNat = 0 ∨ 4095 < (e.r f.d).toNat))
    (fun _ _ => .trap 0x102 0 0 false false) (fun _ s => s)) ∧
  (∀ f : FM, StopsOne (.boexp f) f.pred f.pneg none
    (fun e s => boAt (e.offs f) e.k.localSize ∧ (boNow e s (e.offs f).toNat).v = true ∧
      (2147483647 < (boNow e s (e.offs f).toNat).tx + (e.r f.d).toNat ∨ (f.md.getLsbD 0 = true ∧ (boNow e s (e.offs f).toNat).pend = 0)))
    (fun _ _ => .trap 0x102 0 0 false false) (fun _ s => s)) ∧
  (∀ f : FM, StopsOne (.boarv f) f.pred f.pneg none
    (fun e s => boAt (e.offs f) e.k.localSize ∧ (boNow e s (e.offs f).toNat).v = true ∧ (boNow e s (e.offs f).toNat).pend = 0)
    (fun _ _ => .trap 0x103 0 0 false false) (fun _ s => s)) ∧
  (∀ (s : State) (b a : Nat) (k : Block) (o : Bo), s.block b = some k →
    let flips := o.v = true ∧ o.pend = 0 ∧ o.tx = 0
    ∃ j, (s.boPut b a o).block b = some j ∧
      mread j.lmem a 8 = (if flips then ({ o with ph := !o.ph, pend := o.init } : Bo) else o).word.toNat ∧
      ∀ tl < k.threads.length, ∀ p, (k.thread tl).status = .waiting (.bowait a p) →
        (j.thread tl).status = if (j.bo a).ph = p then .waiting (.bowait a p) else .ready) ∧
  (∀ (s : State) (b a : Nat) (k : Block), s.block b = some k →
    let flips := (k.bo a).v = true ∧ (k.bo a).pend = 0 ∧ (k.bo a).tx = 0
    (flips → s.boLook b a = s.boPut b a (k.bo a)) ∧ (¬ flips → s.boLook b a = s.modBlock b fun k => k.boWake a (s.quad k.core).cyc))

/-- R243 to R246: QDEF binds and clears a queue, and with AO changes only the allowance of one; QPUSH and QPOP act at once where there is
room, or an entry, and else wait; QTRY tells by its predicate. What is pushed into an empty queue is what is popped. QDEF traps, in this
order, with 0x082 on a misaligned header, 0x106 on a bad configuration, 0x080 outside local memory, 0x107 on a queue that is not valid and
0x106 on a bad allowance; the others with 0x105 on a number that is bound to no queue, and 0x107 on one that is not valid. -/
def Obligations.Queues : Prop :=
  (∀ f : FM, Completes (.qdef f) f.pred f.pneg none
    (fun e _ =>
      let g := (e.r f.d).toNat
      g / 2 ^ 25 = 0 ∧ g / 2 ^ 9 % 2 ^ 7 = 0 ∧ 0 < g % 512 ∧ g % 512 ≤ 256 ∧ 0 < g / 2 ^ 16 % 512 ∧ g / 2 ^ 16 % 512 ≤ g % 512 ∧
      0 ≤ e.offs f ∧ (e.offs f).toNat % 8 = 0 ∧ e.offs f + 8 + 4 * (g % 512 : Nat) ≤ e.k.localSize)
    (fun e s =>
      let g := (e.r f.d).toNat
      let q : Que := ⟨0, 0, true, g / 2 ^ 16 % 512, g % 512⟩
      (s.modBlock e.k.id fun k => { k with
        lmem := mwrite k.lmem (e.offs f).toNat 8 q.word, qtable := tput k.qtable f.md.toNat (e.offs f).toNat }).qserve e.k.id (e.offs f).toNat)) ∧
  (∀ f : FM, Completes (.qdef f) f.pred f.pneg none
    (fun e s =>
      let g := (e.r f.d).toNat
      let old := (blockNow e s).que (e.offs f).toNat
      2 ^ 31 ≤ g ∧ old.v = true ∧ 0 < g / 2 ^ 16 % 512 ∧ g / 2 ^ 16 % 512 ≤ old.cap ∧
      0 ≤ e.offs f ∧ (e.offs f).toNat % 8 = 0 ∧ e.offs f + 8 + 4 * old.cap ≤ e.k.localSize)
    (fun e s =>
      let old := (blockNow e s).que (e.offs f).toNat
      let q : Que := { old with alw := (e.r f.d).toNat / 2 ^ 16 % 512 }
      (s.modBlock e.k.id fun k => { k with
        lmem := mwrite k.lmem (e.offs f).toNat 8 q.word, qtable := tput k.qtable f.md.toNat (e.offs f).toNat }).qserve e.k.id (e.offs f).toNat)) ∧
  (∀ (f : FM) (c : Nat), StopsOne (.qdef f) f.pred f.pneg none
    (fun e s => qdefCause e s f = some c)
    (fun e _ => if c < 0x100 then .trap c 8 (1#8 ++ BitVec.ofInt 56 (e.offs f)) false false else .trap c 0 0 false false) (fun _ s => s)) ∧
  (∀ f : FM, Completes (.qpush f) f.pred f.pneg none (fun e s => ∃ h, QueueAt e s f.md.toNat h) (fun e s =>
    match (blockNow e s).qpush (queueOf e s f.md.toNat) (e.r f.d) with
    | some k => (s.setBlock k).qserve e.k.id (queueOf e s f.md.toNat)
    | none => waits e s (.qpush f.md.toNat (e.r f.d)))) ∧
  (∀ f : FM, Completes (.qpop f) f.pred f.pneg none (fun e s => ∃ h, QueueAt e s f.md.toNat h) (fun e s =>
    match (blockNow e s).qpop (queueOf e s f.md.toNat) with
    | some p => (e.upd (s.setBlock p.2) fun t => t.setReg f.d.toNat p.1).qserve e.k.id (queueOf e s f.md.toNat)
    | none => waits e s (.qpop f.md.toNat f.d.toNat))) ∧
  (∀ f : FM, f.off.getLsbD 3 = false → Completes (.qtry f) f.pred f.pneg none (fun e s => ∃ h, QueueAt e s f.md.toNat h) (fun e s =>
    match (blockNow e s).qpush (queueOf e s f.md.toNat) (e.r f.d) with
    | some k => e.upd ((s.setBlock k).qserve e.k.id (queueOf e s f.md.toNat)) fun t => t.setPred (f.off.toNat % 8) true
    | none => e.upd s fun t => t.setPred (f.off.toNat % 8) false)) ∧
  (∀ f : FM, f.off.getLsbD 3 = true → Completes (.qtry f) f.pred f.pneg none (fun e s => ∃ h, QueueAt e s f.md.toNat h) (fun e s =>
    match (blockNow e s).qpop (queueOf e s f.md.toNat) with
    | some p => e.upd ((s.setBlock p.2).qserve e.k.id (queueOf e s f.md.toNat)) fun t =>
        (t.setReg f.d.toNat p.1).setPred (f.off.toNat % 8) true
    | none => e.upd s fun t => t.setPred (f.off.toNat % 8) false)) ∧
  (∀ c ∈ [Instr.qpush, .qpop, .qtry], ∀ f : FM, StopsOne (c f) f.pred f.pneg none
    (fun e s => tget (blockNow e s).qtable f.md.toNat = none)
    (fun _ _ => .trap 0x105 0 0 false false) (fun _ s => s)) ∧
  (∀ c ∈ [Instr.qpush, .qpop, .qtry], ∀ f : FM, StopsOne (c f) f.pred f.pneg none
    (fun e s => ∃ h, tget (blockNow e s).qtable f.md.toNat = some h ∧ ((blockNow e s).que h).v = false)
    (fun _ _ => .trap 0x107 0 0 false false) (fun _ s => s)) ∧
  (∀ (k : Block) (h : Nat), goodQueue (k.que h) →
    (∀ v, (k.que h).count < (k.que h).alw → ∃ j, k.qpush h v = some j ∧ goodQueue (j.que h) ∧ (j.que h).count = (k.que h).count + 1 ∧
      ((k.que h).count = 0 → (j.qpop h).map (·.1) = some v)) ∧
    ((k.que h).alw ≤ (k.que h).count → ∀ v, k.qpush h v = none) ∧ ((k.que h).count = 0 → k.qpop h = none))

/-! ### Handlers and fragments -/

/-- R265, R267: TRAP and BPT trap after the instruction with their cause and IMM32 as detail. TRET leaves the handler: it restores the
predicates of TW0 and goes on at TW2 in the clause of the header kept with it, at the target of TRET.to, or in the wait that the trap
interrupted; outside a handler it traps with 0x011, on a target that fails its check with 0x005, and while the target cannot be fetched it
waits. -/
def Obligations.TrapsAndReturns : Prop :=
  (∀ f : FI, StopsAfter (.trap f) f.pred f.pneg fun _ => .trap (0x040 + f.imm.toNat % 64) f.imm 0 true false) ∧
  (∀ f : FI, StopsAfter (.bpt f) f.pred f.pneg fun _ => .trap 0x010 f.imm 0 true false) ∧
  (∀ f : FA, f.md.getLsbD 0 = false → Completes (.tret f) f.pred f.pneg none
    (fun e _ => e.th.inHandler = true ∧ keptWait e.th = none)
    (fun e s => e.upd s fun t => returned t t.tw2 t.rhdr (s.quad e.k.core).cyc)) ∧
  (∀ f : FA, f.md.getLsbD 0 = false → Completes (.tret f) f.pred f.pneg none
    (fun e _ => e.th.inHandler = true ∧ (keptWait e.th).isSome = true)
    (fun e s => ({ e.upd s (fun t => { returned t t.tw2 t.rhdr (s.quad e.k.core).cyc with
      status := .waiting ((keptWait e.th).getD (.jwait 0)), waitFrom := (s.quad e.k.core).cyc, waitSeq := s.nextId }) with
        nextId := s.nextId + 1 }).retryWait e.k.id e.tl)) ∧
  (∀ f : FA, f.md.getLsbD 0 = true → Completes (.tret f) f.pred f.pneg none
    (fun e s => e.th.inHandler = true ∧ goodTarget s e.k (e.r64 f.a))
    (fun e s => e.upd (afterTarget s e.k (e.r64 f.a)) fun t =>
      returned t (e.r64 f.a) (e.r64 f.a) (s.quad e.k.core).cyc)) ∧
  (∀ f : FA, StopsOne (.tret f) f.pred f.pneg none (fun e _ => e.th.inHandler = false)
    (fun _ _ => .trap 0x011 0 0 false false) (fun _ s => s)) ∧
  (∀ f : FA, f.md.getLsbD 0 = true → StopsOne (.tret f) f.pred f.pneg none
    (fun e s => e.th.inHandler = true ∧ badTarget s e.k (e.r64 f.a))
    (fun e _ => .trap 0x005 0 (e.r64 f.a) false false) (fun e s => afterTarget s e.k (e.r64 f.a))) ∧
  (∀ f : FA, f.md.getLsbD 0 = true → StopsOne (.tret f) f.pred f.pneg none
    (fun e s => e.th.inHandler = true ∧ waitingTarget s e.k (e.r64 f.a))
    (fun _ _ => .hold) (fun e s => afterTarget s e.k (e.r64 f.a)))

/-- R263, R266, R268, R269: FRGINFO gives the fragment's identity, or in a handler a trap record word; SFQPOP takes the thread's oldest
record and its lost count; KILLF ends the threads of a fragment, marks those that issue, and waits for these: a marked thread ends with its
clause, and as soon as it issues no longer. -/
def Obligations.Fragments : Prop :=
  (∀ f : FA, f.md.toNat % 8 = 0 → Completes (.frginfo f) f.pred f.pneg none (fun _ _ => True)
    (fun e s => e.upd s fun t => t.setReg64 f.d.toNat (e.th.fid ++ e.th.parent ++ e.th.sib))) ∧
  (∀ f : FA, 1 ≤ f.md.toNat % 8 → f.md.toNat % 8 ≤ 4 → Completes (.frginfo f) f.pred f.pneg none (fun e _ => e.th.inHandler = true)
    (fun e s => e.upd s fun t => t.setReg64 f.d.toNat
      ((lget [e.th.tw0, e.th.tw1, e.th.tw2, e.th.tw3] (f.md.toNat % 8 - 1)).getD 0))) ∧
  (∀ f : FA, f.md.toNat % 8 ≠ 0 → StopsOne (.frginfo f) f.pred f.pneg none (fun e _ => e.th.inHandler = false)
    (fun _ _ => .trap 0x011 0 0 false false) (fun _ s => s)) ∧
  (∀ f : FA, Completes (.sfqpop f) f.pred f.pneg none (fun _ _ => True) (fun e s =>
    let k := blockNow e s
    e.upd (s.modBlock e.k.id fun j => { j with sfq := k.sfq.eraseP fun r => r.tl == e.tl }) fun t =>
      { t.setRegs f.d.toNat (popWords (k.sfq.find? fun r => r.tl == e.tl) (k.thread e.tl).lost) with lost := 0 })) ∧
  (∀ f : FA, Completes (.killf f) f.pred f.pneg none
    (fun e s => killed e f = e.th.fid ∨ ¬ fragmentLives (blockNow e (s.killFragment e.k.id (killed e f))) (killed e f))
    (fun e s => s.killFragment e.k.id (killed e f))) ∧
  (∀ f : FA, Completes (.killf f) f.pred f.pneg none
    (fun e s => killed e f ≠ e.th.fid ∧ fragmentLives (blockNow e (s.killFragment e.k.id (killed e f))) (killed e f))
    (fun e s => waits e (s.killFragment e.k.id (killed e f)) (.killf (killed e f)))) ∧
  (∀ (s : State) (b tl : Nat) (k : Block), s.block b = some k → tl < k.threads.length →
    ∃ j, (s.killThread b tl).block b = some j ∧ (j.thread tl).status = .ended ∧ (j.thread tl).ops = [] ∧ (j.thread tl).lost = 0 ∧
      (j.thread tl).pendSf = none ∧ (∀ x ∈ j.sbuf, x.tl ≠ tl) ∧ ∀ x ∈ j.sfq, x.tl ≠ tl) ∧
  (∀ (s : State) (b tl : Nat) (k : Block), s.block b = some k → tl < k.threads.length → (k.thread tl).status = .issuing →
    (∀ n t, lget k.threads n = some t → t.alive = true → t.fid = (k.thread tl).fid → n = tl) →
    s.killFragment b (k.thread tl).fid = s.modThread b tl fun t => { t with kill := true }) ∧
  (∀ (s : State) (g : Group) (p : Nat × Nat), (s.thread g.blk p.2).kill = true → endClause s g [p] = s.killThread g.blk p.2) ∧
  (∀ (s : State) (b tl : Nat) (k : Block), s.block b = some k → (k.thread tl).kill = true → (k.thread tl).alive = true →
    (k.thread tl).status ≠ .issuing → s.settleThread b tl = s.killThread b tl)

/-- R147, R283, R284, R433, R435, R436, R450 to R453, R462, R524: SETPRIO sets the priority that the thread's next clause takes, at most
its launch's; TMODE and QFEAT give the device's words. XLDEC lays out its word in four registers, with 0x3FF for a word that breaks the
word checks; XLMAP lands what the image's map gives for its address; its raise traps with 0x280 + N and the index found for its own address;
a map that cannot be read stops both. The virtual-cache instructions leave a command with the engine and its result outstanding under their
slot; an index that is no software VC, and a definition, counts or a placement that break R445, trap with 0x090; a definition that cannot be
read stops; BIASFLIP traps as its pointer's checks say, and with 0x081 at local or own memory. -/
def Obligations.ServiceInstructions : Prop :=
  (∀ f : FI, Computes (.setprio f) f.pred f.pneg fun e t =>
    let v := if f.md.getLsbD 0 then (e.r f.a).toNat % 128 else f.imm.toNat % 128
    { t with lprioNew := some (BitVec.ofNat 7 (min v (((e.s0.launch e.k.launch).map fun l => l.prio.toNat).getD 0))) }) ∧
  (∀ (t : Thread) (pos id : Nat) (next : DWord), (t.start pos next id).lprio = t.lprioNew.getD t.lprio ∧ (t.start pos next id).lprioNew = none) ∧
  (∀ t : Thread, t.nextPrio = max (t.lprioNew.getD t.lprio).toNat (((t.boostNew.or t.boost).map (·.toNat)).getD 0)) ∧
  (∀ f : FI, f.imm = 0 → Computes (.tmode f) f.pred f.pneg fun e t =>
    let pin := (e.s0.quad e.k.core).clock.isPinned
    t.setReg f.d.toNat (BitVec.ofNat 32 ((if pin then 2100 else 2500) * 2 ^ 16 + pin.toNat * 2 + (e.s0.blockFixed e.k).toNat))) ∧
  (∀ f : FI, f.imm = 1 → Computes (.tmode f) f.pred f.pneg fun _ t => t.setReg f.d.toNat 1) ∧
  (∀ f : FI, Computes (.qfeat f) f.pred f.pneg fun e t => t.setReg64 f.d.toNat (e.s0.featWord e.k f.imm.toNat)) ∧
  (∀ (s : State) (k : Block) (c : Ctx) (n : Nat), s.ctx k.ctx = some c → n ≤ 4 → s.featWord k n = (lget c.floor n).getD 0) ∧
  (∀ (s : State) (k : Block), s.featWord k 20 = BitVec.ofNat 64 s.clock.ns ∧
    s.featWord k 16 = if (s.quad k.core).clock.isPinned then 2100 else 2500) ∧
  (∀ (s : State) (k : Block) (n : Nat), (5 ≤ n ∧ n ≤ 15) ∨ 20 < n → s.featWord k n = 0) ∧
  (∀ f : FA, Computes (.xldec f) f.pred f.pneg fun e t =>
    t.setRegs f.d.toNat (xldecWords (e.r64 f.a).toNat ((e.opB f).toNat % 4) (Config.freeValue (e.ctr + e.tl)).toNat)) ∧
  (∀ w p x : Nat, ∃ a b c d : Word, xldecWords w p x = [a, b, c, d] ∧ a.toNat / 2 ^ 20 = w / 2 ^ 52 % 2 ^ 12 ∧
    a.toNat % 2 ^ 10 = ciushCause w p % 2 ^ 10 ∧ b.toNat = w / 2 ^ 48 % 2 ^ 4 * 2 ^ 28 + w / 2 ^ 28 % 2 ^ 10 * 2 ^ 16 + w / 2 ^ 38 % 2 ^ 10 ∧
    c.toNat = w / 2 ^ 8 % 2 ^ 10 * 2 ^ 16 + w / 2 ^ 18 % 2 ^ 10 ∧ d.toNat = w % 2 ^ 32) ∧
  (∀ w p : Nat, ciushCause w p = (if ciushBad w then 0x3FF
    else if (w / 2 ^ 56 % 256 = 0x1B ∨ w / 2 ^ 56 % 256 = 0x1C) ∧ p ≠ 1 then 0x280
    else if w / 2 ^ 56 % 256 = 0x3F then 0x2C0 + w % 64 else 0)) ∧
  (∀ f : FA, Completes (.xlmap f) f.pred f.pneg (some f.sbs.toNat)
    (fun e s => ∃ a b p, (e.mapLookup s (e.r64 f.a)).1 = .ok (a, b, p)) (fun e s =>
      match e.mapLookup s (e.r64 f.a) with
      | (.ok (a, b, p), u) => newOp e u f.sbs.toNat (destRegs f.d 8) (some [BitVec.ofNat 32 a, BitVec.ofNat 32 b]) p false none
      | (.error _, u) => u)) ∧
  (∀ (f : FA) (st : Stop), StopsOne (.xlmap f) f.pred f.pneg (some f.sbs.toNat) (fun e s => (e.mapLookup s (e.r64 f.a)).1 = .error st)
    (fun _ _ => st) (fun e s => (e.mapLookup s (e.r64 f.a)).2)) ∧
  (∀ f : FA, StopsOne (.xlmapRaise f) f.pred f.pneg none (fun e s => ∃ a b p, (e.mapLookup s e.iaddr).1 = .ok (a, b, p))
    (fun e s => .trap (0x280 + f.mf 1 7) (match (e.mapLookup s e.iaddr).1 with
      | .ok (a, _, _) => BitVec.ofNat 32 a
      | .error _ => 0) 0 false false) (fun e s => (e.mapLookup s e.iaddr).2)) ∧
  (∀ (f : FA) (st : Stop), StopsOne (.xlmapRaise f) f.pred f.pneg none (fun e s => (e.mapLookup s e.iaddr).1 = .error st)
    (fun _ _ => st) (fun e s => (e.mapLookup s e.iaddr).2)) ∧
  (∀ (e : Env) (s : State) (x : DWord) (a b : Nat) (p : Option DWord), (e.mapLookup s x).1 = .ok (a, b, p) →
    b ≤ 2 ∧ (b ≠ 0 → a = 0xFFFFFFFF) ∧
    (b = 0 → ∃ l, s.launch e.k.launch = some l ∧ x.toNat % 8 = 0 ∧ l.text.toNat ≤ x.toNat ∧ (x - l.text).toNat < 8 * l.textWords)) ∧
  (∀ f : FA, Completes (.vcdef f) f.pred f.pneg (some f.sbs.toNat)
    (fun e s => softVc (e.opB f) ∧ ∃ ws, reads64 e s (e.r64 f.a) ws ∧ (e.readRecord s (e.r64 f.a) 64 64).2.dieMap.cdrBad ws = false)
    (fun e s =>
      let r := e.readRecord s (e.r64 f.a) 64 64
      let w := fun i => match r.1 with
        | .ok bs => BitVec.ofNat 64 ((lget (words64 bs) i).getD 0)
        | .error _ => 0
      commands e r.2 f (.define (e.opB f).toNat (w 0) (w 1)))) ∧
  (∀ f : FA, Completes (.vcsize f) f.pred f.pneg (some f.sbs.toNat)
    (fun e s => softVc (e.opB f) ∧
      let v := s.vcEntry e.k.ctx (e.opB f).toNat
      (v.v = true → s.dieMap.countsBad v.w0.toNat v.w1.toNat (e.r f.a).toNat (e.r f.c).toNat = false))
    (fun e s => commands e s f (.resize (e.opB f).toNat (e.r f.a).toNat (e.r f.c).toNat))) ∧
  (∀ f : FA, Completes (.vcmove f) f.pred f.pneg (some f.sbs.toNat)
    (fun e s => softVc (e.opB f) ∧ s.dieMap.placeBad (s.vcEntry e.k.ctx (e.opB f).toNat).w0.toNat (e.r64 f.a).toNat = false)
    (fun e s => commands e s f (.move (e.opB f).toNat (e.r64 f.a) (f.md.getLsbD 0)))) ∧
  (∀ f : FA, Completes (.vcflush f) f.pred f.pneg (some f.sbs.toNat) (fun e _ => softVc (e.opB f))
    (fun e s => commands e s f (.flush (e.opB f).toNat (f.md.toNat % 4)))) ∧
  (∀ f : FA, Completes (.biasflip f) f.pred f.pneg (some f.sbs.toNat)
    (fun e s => notLocal (e.r64 f.a) ∧ ∀ c, (s.check e.k (e.r64 f.a) 1 1 .flip).1 ≠ .trap c)
    (fun e s => commands e (s.check e.k (e.r64 f.a) 1 1 .flip).2 f (.bias (e.r64 f.a) ((e.opB f).getLsbD 0) false 0 0))) ∧
  (∀ c ∈ [Instr.vcdef, .vcsize, .vcmove, .vcflush], ∀ f : FA, StopsOne (c f) f.pred f.pneg (some f.sbs.toNat)
    (fun e _ => ¬ softVc (e.opB f)) (fun _ _ => .trap 0x090 0 0 false false) (fun _ s => s)) ∧
  (∀ (f : FA) (st : Stop), StopsOne (.vcdef f) f.pred f.pneg (some f.sbs.toNat)
    (fun e s => softVc (e.opB f) ∧ (e.readRecord s (e.r64 f.a) 64 64).1 = .error st)
    (fun _ _ => st) (fun e s => (e.readRecord s (e.r64 f.a) 64 64).2)) ∧
  (∀ f : FA, StopsOne (.vcdef f) f.pred f.pneg (some f.sbs.toNat)
    (fun e s => softVc (e.opB f) ∧ ∃ ws, reads64 e s (e.r64 f.a) ws ∧ (e.readRecord s (e.r64 f.a) 64 64).2.dieMap.cdrBad ws = true)
    (fun _ _ => .trap 0x090 0 0 false false) (fun e s => (e.readRecord s (e.r64 f.a) 64 64).2)) ∧
  (∀ f : FA, StopsOne (.vcsize f) f.pred f.pneg (some f.sbs.toNat)
    (fun e s => softVc (e.opB f) ∧
      let v := s.vcEntry e.k.ctx (e.opB f).toNat
      v.v = true ∧ s.dieMap.countsBad v.w0.toNat v.w1.toNat (e.r f.a).toNat (e.r f.c).toNat = true)
    (fun _ _ => .trap 0x090 0 0 false false) (fun _ s => s)) ∧
  (∀ f : FA, StopsOne (.vcmove f) f.pred f.pneg (some f.sbs.toNat)
    (fun e s => softVc (e.opB f) ∧ s.dieMap.placeBad (s.vcEntry e.k.ctx (e.opB f).toNat).w0.toNat (e.r64 f.a).toNat = true)
    (fun _ _ => .trap 0x090 0 0 false false) (fun _ s => s)) ∧
  (∀ f : FA, StopsOne (.biasflip f) f.pred f.pneg (some f.sbs.toNat) (fun e _ => ¬ notLocal (e.r64 f.a))
    (fun e _ => .trap 0x081 0 (e.r64 f.a) false false) (fun _ s => s)) ∧
  (∀ (f : FA) (x : Nat), StopsOne (.biasflip f) f.pred f.pneg (some f.sbs.toNat)
    (fun e s => notLocal (e.r64 f.a) ∧ (s.check e.k (e.r64 f.a) 1 1 .flip).1 = .trap x)
    (fun e _ => if x < 0x100 then .trap x 0 (e.r64 f.a) false false else .trap x 0 0 false false)
    (fun e s => (s.check e.k (e.r64 f.a) 1 1 .flip).2))

/-! ### Sequencers as threads command them -/

/-- R291, R293: FORK whose checks pass starts the named sequencers of its targets; refused, it delivers its cause once for every
sequencer it names; a barrier object outside local memory traps with 0x080, a misaligned one with 0x082. A started sequencer has its
registers from its start record; in a fixed-timing context it issues, and counts its cycles, from 8 cycles later on (R294). RDV goes on when
the sequencers it selects are idle, and else waits; a target that it may not name traps with 0x311. -/
def Obligations.ForkAndRdv : Prop :=
  (∀ f : FX, Completes (.fork f) f.pred f.pneg none
    (fun e s => goodBo (e.r f.b).toNat e.k.localSize ∧ e.forkBad s f (forkNames e f) (s.forkTargets e.k f) = 0)
    (fun e s => { ((s.forkTargets e.k f).getD []).foldl (fun u t => (forkNames e f).foldl (fun v p =>
      v.startSeq t.1 p.1 t.2 p.2.1 p.2.2 (e.r f.b).toNat s.nextId) u) s with nextId := s.nextId + 1 })) ∧
  (∀ f : FX, Completes (.fork f) f.pred f.pneg none
    (fun e s => goodBo (e.r f.b).toNat e.k.localSize ∧ e.forkBad s f (forkNames e f) (s.forkTargets e.k f) ≠ 0)
    (fun e s => (List.replicate ((forkNames e f).length * (if f.md.getLsbD 0 then 2 else 1)) ()).foldl (fun u _ =>
      u.deliver e.k.id (e.r f.b).toNat 0 true true 5 (e.forkBad s f (forkNames e f) (s.forkTargets e.k f)) (e.textWord u).toNat) s)) ∧
  (∀ f : FX, StopsOne (.fork f) f.pred f.pneg none (fun e _ => ¬ goodBo (e.r f.b).toNat e.k.localSize)
    (fun e _ => .trap (if e.k.localSize < (e.r f.b).toNat + 16 then 0x080 else 0x082) 0 (1#8 ++ (e.r f.b).setWidth 56) false false)
    (fun _ s => s)) ∧
  (∀ f : FX, Completes (.rdv f) f.pred f.pneg none (fun e s => ∃ t, s.dieMap.target e.k.core f = some t ∧ rdvTarget s e.k t) (fun e s =>
    let t := (s.dieMap.target e.k.core f).getD e.k.core
    if s.rdvDone t (f.md.getLsbD 0) (f.md.getLsbD 1) (f.md.getLsbD 2) then s
    else waits e s (.rdv t.die t.num (f.md.getLsbD 0) (f.md.getLsbD 1) (f.md.getLsbD 2)))) ∧
  (∀ f : FX, StopsOne (.rdv f) f.pred f.pneg none
    (fun e s => ∀ t, s.dieMap.target e.k.core f = some t → ¬ rdvTarget s e.k t)
    (fun _ _ => .trap 0x311 0 0 false false) (fun _ s => s)) ∧
  (∀ (s : State) (c : CoreRef) (kind : SeqKind) (owner : Nat) (b : Block) (entry : DWord) (r p id : Nat), s.block owner = some b →
    let q := (s.startSeq c kind owner entry r p id).sq c kind
    q.running = true ∧ q.owner = owner ∧ q.pc = entry ∧ q.pbo = BitVec.ofNat 32 p ∧ q.c = [0, 0, 0, 0] ∧
    q.due = (if s.blockFixed b then some ((s.quad c).cyc + 8) else none) ∧
    q.scyc0 = (s.quad c).cyc + (if s.blockFixed b then 8 else 0) ∧
    (∀ i < 8, lget q.a i = some (BitVec.ofNat 32 (mread b.lmem (r + 4 * i) 4))) ∧
    (∀ i < 8, lget q.st i = some (BitVec.ofNat 16 (mread b.lmem (r + 32 + 2 * i) 2))) ∧
    (∀ i < 4, lget q.n i = some (BitVec.ofNat 32 (mread b.lmem (r + 48 + 4 * i) 4))))

/-! ### Engines -/

/-- R302, R305: every engine command, with a good barrier object and room in the unit, is accepted for every lane still to be served; with
the unit full it is held; a barrier object outside local memory or misaligned traps, as does a core without the unit. An accepted operation
stands with its engine, its descriptor read from eight registers; the copy and matrix engines keep one whose target is another core with
its cause, 0x182 or 0x1A3. The ray unit keeps none that fails: its arrival is delivered at once, with 0x141 for another core
(spec/16_ray.md R413). -/
def Obligations.EngineCommands : Prop :=
  Commands .cpy .cpy acceptCopy ∧ Commands .cpyg .cpyg acceptCopy ∧ Commands .cpys .cpys acceptCopy ∧
  Commands .cpyfill .cpyfill acceptCopy ∧ Commands .ctload .ctload acceptCopy ∧ Commands .decent .decent acceptCopy ∧
  Commands .decbr .decbr acceptCopy ∧ Commands .mresv .mresv acceptMat ∧ Commands .mrels .mrels acceptMat ∧
  Commands .mload .mload acceptMat ∧ Commands .mcbl .mcbl acceptMat ∧ Commands .mma .mma acceptMat ∧
  Commands .mmai .mmai acceptMat ∧ Commands .mzero .mzero acceptMat ∧ Commands .mstore .mstore acceptMat ∧
  Commands .mstat .mstat acceptMat ∧ Commands .mchk .mchk acceptMat ∧ Commands .rayq .rayq acceptRay ∧
  (∀ (s : State) (self : Bool) (o : EngOp) (k : Block) (accept : Bool → State → EngOp → State), s.block o.blk = some k →
    accept ∈ [acceptCopy, acceptMat] →
      ∃ q, (accept self s o).engs = s.engs ++ [q] ∧ q.id = o.id ∧ q.kind = o.kind ∧ q.desc = o.desc ∧ q.bo = o.bo ∧ q.blk = o.blk ∧
        q.md = o.md ∧ (accept self s o).mem = s.mem ∧ (self = false → q.cause ∈ [0x182, 0x1A3] ∧ q.detail = 0)) ∧
  (∀ (s : State) (o : EngOp) (k : Block), s.block o.blk = some k →
    acceptRay false s o = s.engDone o 0 0x141 0 ∧ (∀ b, rayChk k o = some b → acceptRay true s o = s.engDone o 0 b.1 b.2) ∧
    (rayChk k o = none → (acceptRay true s o).engs = s.engs ++ [{ o with lold := k.lmem }] ∧ (acceptRay true s o).mem = s.mem))

/-- R239, R319, R345 to R347: a matrix operation starts when no earlier one stands in its queues, for its number of cycles, or for 2 if it
fails at its start. One that failed delivers its cause: a copy operation with what it has not delivered, a matrix operation after what its
failure leaves, which is nothing but for MCBL, MCHK and a loss of data. MLOAD writes its bytes into the operand buffer, MZERO clears its tiles,
MMA and MMAI compute, with operands that nothing has changed since the start; each then delivers its arrival. A keyed MRESV whose partner
does not come gives its reservation back with 0x1A2. -/
def Obligations.EngineDeliveries : Prop :=
  (∀ (s : State) (n : Nat) (o : EngOp), HasOp s n o → o.cause ≠ 0 → o.kind.unit = 1 →
    exec (.engineDelivery n) s = .next ((if o.started then (atDue s o).matFail o else atDue s o).engDone o 0 o.cause o.detail)) ∧
  (∀ (s : State) (o : EngOp), o.cause ∉ [0x1A6, 0x1A9, 0x200] → s.matFail o = s) ∧
  (∀ (s : State) (n : Nat) (o : EngOp), HasOp s n o → o.cause ≠ 0 → o.kind.unit = 0 → (o.kind.eng = 2 → (atDue s o).decodeTurn o = true) →
    exec (.engineDelivery n) s = .next ((atDue s o).engFail o o.cause o.detail)) ∧
  (∀ (s : State) (n : Nat) (o : EngOp) (k : Block) (bs : List Byte), HasOp s n o → o.kind = .mload → o.cause = 0 → o.started = true →
    o.due.isSome = true → (atDue s o).block o.blk = some k → k.lload (o.reg 0) (o.reg 2) = .ok bs → mbytes o.lold (o.reg 0) (o.reg 2) = bs →
    let c := (atDue s o).core o.core
    let a := 4096 * ((c.res.map (·.base)).getD 0) + 64 * o.reg 1
    exec (.engineDelivery n) s = .next (((atDue s o).setCore o.core { c with
      obuf := mputs c.obuf a bs, obPoison := c.obPoison.filter fun x => decide (x < a ∨ a + bs.length ≤ x) }).engDone o 0 0 0)) ∧
  (∀ (s : State) (n : Nat) (o : EngOp) (k : Block), HasOp s n o → o.kind = .mzero → o.cause = 0 → o.started = true → o.due.isSome = true →
    (atDue s o).block o.blk = some k →
    exec (.engineDelivery n) s = .next ((arrays (atDue s o) o fun c => { c with
      acc0 := if o.reg 0 % 2 = 1 then [] else c.acc0, acc1 := if o.reg 0 / 2 % 2 = 1 then [] else c.acc1
      tilePoison := c.tilePoison.filter fun i => decide (o.reg 0 / 2 ^ (i / 8192) % 2 = 0) }).engDone o 0 0 0)) ∧
  (∀ (s : State) (n : Nat) (o : EngOp) (k : Block), HasOp s n o → (o.kind = .mma ∨ o.kind = .mmai) → o.cause = 0 → o.started = true →
    o.due.isSome = true → (atDue s o).block o.blk = some k → unchanged (atDue s o) o.core (o.obold.headD []) →
    (o.both = true → unchanged (atDue s o) (CoreRef.partner o.core) ((lget o.obold 1).getD [])) →
    let u := arrays (atDue s o) o fun c => { c.mma (orec (o.ptr 0)) (orec (o.ptr 2)) (o.kind == .mmai) (o.reg 4) with
      tilePoison := c.tilePoison.filter fun i => decide (i / 8192 ≠ o.reg 4 / 16 % 2) }
    exec (.engineDelivery n) s = .next (({ u with
      clock := { u.clock with free := u.clock.free + (if o.both then 6 else 3) * 262144 } }).engDone o 0 0 0)) ∧
  (∀ (s : State) (n : Nat) (o : EngOp), s.engs.find? (fun x => x.id == n && !x.saved && x.kind.unit == 1 && !x.started && x.cause == 0) = some o →
    (s.queued o = true → exec (.matrixOpStart n) s = .next s) ∧
    (s.queued o = false →
      (∀ b, startCause s o = some b →
        exec (.matrixOpStart n) s = .next (s.useFree.setEng (startAs s o o.both b (some ((s.quad o.core).cyc + 2))))) ∧
      (startCause s o = none →
        let due := some ((s.quad o.core).cyc + o.cycles (2 ^ (s.quad o.core).pass.toNat))
        let u := fun due => s.useFree.setEng (startAs s o (s.startBad o).2 (0, 0) due)
        (o.kind ≠ .mresv → o.kind ≠ .mrels → exec (.matrixOpStart n) s = .next (u due)) ∧
        (o.kind = .mrels → exec (.matrixOpStart n) s = .next ((u due).setCore o.core { (u due).core o.core with res := none })) ∧
        (∀ r, o.kind = .mresv → o.reg 2 = 0 → (s.core o.core).res = some r →
          exec (.matrixOpStart n) s = .next ((u due).setCore o.core (((u due).core o.core).clearRes r))) ∧
        (∀ r, o.kind = .mresv → o.reg 2 ≠ 0 → (s.core o.core).res = some r → exec (.matrixOpStart n) s =
          .next (((u none).setCore o.core (((u none).core o.core).clearRes r)).pairDue (startAs s o (s.startBad o).2 (0, 0) none)))))) ∧
  (∀ (s : State) (n : Nat) (o : EngOp), s.engs.find? (fun x => x.id == n && !x.saved && x.kind == .mresv && x.cause == 0 && x.reg 2 != 0) = some o →
    (s.core (CoreRef.partner o.core)).res = none → ∀ c, s.ctx o.ctx = some c → c.wto ≠ 63 →
    let u := s.reachCyc (s.quadKeyOf o.core) (o.cyc + 2 ^ (if c.wto = 0 then 30 else c.wto))
    exec (.mresvPartnerTimeout n) s = .next ((u.setCore o.core { u.core o.core with res := none }).engDone o 0 0x1A2 0))

/-- R237 to R239: a delivery to a valid object takes its bytes from the count of bytes and its arrival from the pending count; the final
one records its cause; one that finds no arrival pending records 0x103. R312, R321: a CPYFILL of local memory at its constant time writes
its pattern over its bytes and nothing else but its object. R340: MMAI without SAT leaves in every element of its tile the old element, or
zero with ZA, plus the products of its row and column, modulo 2^32. -/
def Obligations.EngineResults : Prop :=
  (∀ (s : State) (b a bytes : Nat) (k : Block) (arr final : Bool) (eng cause detail : Nat), s.block b = some k → (k.bo a).v = true →
    (arr = true → 0 < (k.bo a).pend) → -(2 ^ 31 : Int) ≤ (k.bo a).tx - bytes →
    s.deliver b a bytes arr final eng cause detail =
      (s.stPut b a (if final then stRecord (mread k.lmem (a + 8) 8) (k.bo a).ph true cause eng (if cause = 0 then 0 else detail)
        else mread k.lmem (a + 8) 8)).boPut b a
        { k.bo a with pend := if arr then (k.bo a).pend - 1 else (k.bo a).pend, tx := (k.bo a).tx - bytes }) ∧
  (∀ (s : State) (b a : Nat) (k : Block) (eng detail : Nat), s.block b = some k → (k.bo a).v = true → (k.bo a).pend = 0 →
    -(2 ^ 31 : Int) ≤ (k.bo a).tx →
    s.deliver b a 0 true true eng 0 detail =
      (s.stPut b a (stRecord (mread k.lmem (a + 8) 8) (k.bo a).ph true 0x103 eng 0)).boPut b a (k.bo a)) ∧
  (∀ (st eng cause detail : Nat) (ph : Bool), st < 2 ^ 64 → cause < 2 ^ 10 → cause ≠ 0 → eng < 8 → (st / 2 ^ 63 = 1) = (ph = true) →
    st / 2 ^ 53 % 2 ^ 10 = 0 →
    let r := stRecord st ph true cause eng detail
    r / 2 ^ 53 % 2 ^ 10 = cause ∧ r / 2 ^ 50 % 2 ^ 3 = eng ∧ r % 2 ^ 32 = detail % 2 ^ 32 ∧
      r / 2 ^ 34 % 2 ^ 16 = (st / 2 ^ 34 + 1) % 2 ^ 16) ∧
  (∀ (c : Core) (a b : ORec) (ctl m n : Nat), ctl / 64 % 2 = 0 → m < 64 → n < 128 →
     let t := if ctl / 16 % 2 = 0 then 0 else 1
     tileAt ((c.mma a b true ctl).tile t) (128 * m + n) =
       (if ctl / 32 % 2 = 1 then 0 else tileAt (c.tile t) (128 * m + n)) + BitVec.ofInt 32 (dot c a b (ctl % 16 + 1) m n)) ∧
  (∀ (s : State) (n : Nat) (o : EngOp) (k : Block), HasOp s n o → o.kind = .cpyfill → o.cause = 0 → o.md % 2 = 0 → o.due.isSome = true →
     o.prog = 0 → 0 < o.bytes → o.bytes % fillP o = 0 → s.block o.blk = some k → (o.bo + 16 ≤ o.reg 0 ∨ o.reg 0 + o.bytes ≤ o.bo) →
     ∃ t j, exec (.engineDelivery n) s = .next t ∧ t.block o.blk = some j ∧ t.mem = s.mem ∧
       (∀ i < o.bytes, mread j.lmem (o.reg 0 + i) 1 = o.ptr 4 / 2 ^ (8 * (i % fillP o)) % 256) ∧
       ∀ a, (a < o.reg 0 ∨ o.reg 0 + o.bytes ≤ a) → (a < o.bo ∨ o.bo + 16 ≤ a) → mread j.lmem a 1 = mread k.lmem a 1)

/-! ### Sequencers -/

/-- R290, R292: SQNOP goes on; SQLOOP counts its loop, stepping its address registers, and goes back while the count is not zero; with both
counts zero it ends the program with 0x312; SQWAITC goes on at its cycle, absolute or counted from its mark, and else waits; SQBOARV arrives
on its object, announcing bytes before with its X bit; SQBOWAIT goes on once the phase differs from its tracker and else waits; an object
outside local memory, misaligned or invalid, a count out of range and an arrival too many end the program with their cause; SQEND ends it
with an arrival that bears its first cause. In a fixed-timing context these updates are performed 6 cycles later (R294). -/
def Obligations.SequencerControl : Prop :=
  (∀ (f : FS) (s : State) (c : CoreRef) (k : SeqKind), SeqFront s c k →
    exec (.sqnop f) s = .next (seqGoes s c k (s.sq c k).advance)) ∧
  (∀ (f : FS) (s : State) (c : CoreRef) (k : SeqKind), SeqFront s c k → exec (.sqend f) s = .next (s.endProgram c k (s.sq c k) 0)) ∧
  (∀ (s : State) (c : CoreRef) (k : SeqKind) (q : Sequencer) (cause : Nat),
    let first := if q.cause = 0 then cause else q.cause
    let detail := if q.cause = 0 ∧ cause ≠ 0 then s.seqWord q else q.detail
    let u := s.setSq c k { q with
      running := false, draining := true, bowait := none, holdT := none, head := none, words := [], idx := 0, cause := first, detail := detail }
    s.endProgram c k q cause = ({ u with opens := u.opens.filter fun o => o != Open.seq c k }).actLater c q.owner
      (.program q.pbo.toNat first detail.toNat)) ∧
  (∀ (s : State) (c : CoreRef) (b : Block) (act : LaterAct), s.block b.id = some b →
    s.actLater c b.id act = if s.blockFixed b then { s with later := s.later ++ [⟨c, (s.quad c).cyc + 6, b.id, act⟩] }
      else s.performLater b.id act) ∧
  (∀ (s : State) (b : Block) (a n cause detail : Nat), s.block b.id = some b →
    s.performLater b.id (.program a cause detail) = s.deliver b.id a 0 true true 5 cause detail ∧
    ((b.bo a).v = true → 0 < (b.bo a).pend → s.performLater b.id (.arrive a) = s.boPut b.id a { b.bo a with pend := (b.bo a).pend - 1 }) ∧
    ((b.bo a).v = true → 0 < (b.bo a).pend → (b.bo a).tx + n ≤ 2147483647 →
      s.performLater b.id (.expect a n) = s.boPut b.id a { b.bo a with pend := (b.bo a).pend - 1, tx := (b.bo a).tx + n })) ∧
  (∀ (f : FS) (s : State) (c : CoreRef) (k : SeqKind) (n m : BitVec 32), SeqFront s c k →
    lget (s.sq c k).n (f.mf 14 2) = some n → lget (s.sq c k).c (f.mf 14 2) = some m →
    (m = 0 ∧ n = 0 → exec (.sqloop f) s = .next (s.endProgram c k (s.sq c k) 0x312)) ∧
    (m ≠ 0 ∨ n ≠ 0 →
      let left := if m = 0 then n - 1 else m - 1
      let q := { s.sq c k with c := lset (s.sq c k).c (f.mf 14 2) left }
      exec (.sqloop f) s = .next (if left ≠ 0 then
          { s.setSq c k { q.stepA (f.mf 6 8) 1 with
              pc := (s.sq c k).hdr - BitVec.ofNat 64 (8 * f.doff.toNat), head := none, words := [], idx := 0 } with
            opens := s.opens.tail ++ [.seq c k] }
        else seqGoes s c k (q.stepA (f.mf 6 8) (-((n.toNat : Int) - 1))).advance))) ∧
  (∀ (f : FS) (s : State) (c : CoreRef) (k : SeqKind), SeqFront s c k →
    let w := (f.boff ++ f.smod).setWidth 64
    let t := if f.doff.getLsbD 0 then (s.sq c k).mark + w else w
    let q := if f.doff.getLsbD 0 then { s.sq c k with mark := t } else s.sq c k
    exec (.sqwaitc f) s = .next (if t.toNat ≤ s.scyc c q then
        seqGoes s c k (if (q.head.map (·.fixed)).getD false then s.seqRecord q 0x314 else q).advance
      else seqBlocks s c k { q with holdT := some t.toNat })) ∧
  (∀ (s : State) (q : Sequencer) (f : FS) (b : Block), s.block q.owner = some b →
    let a := q.addr f.br.toNat f.boff.toNat
    (b.localSize < a + 16 → s.seqBo q f = .error 0x080) ∧ (a + 16 ≤ b.localSize → a % 16 ≠ 0 → s.seqBo q f = .error 0x082) ∧
    (goodBo a b.localSize → (b.bo a).v = false → s.seqBo q f = .error 0x101) ∧
    (goodBo a b.localSize → (b.bo a).v = true → s.seqBo q f = .ok (a, b.bo a))) ∧
  (∀ c ∈ [Instr.sqboarv, .sqbowait], ∀ (f : FS) (s : State) (cr : CoreRef) (k : SeqKind) (x : Nat), SeqFront s cr k →
    s.seqBo (s.sq cr k) f = .error x → exec (c f) s = .next (s.endProgram cr k (s.sq cr k) x)) ∧
  (∀ (f : FS) (s : State) (c : CoreRef) (k : SeqKind) (a : Nat) (o : Bo), SeqFront s c k → s.seqBo (s.sq c k) f = .ok (a, o) →
    o.v = true → f.smod.getLsbD 0 = false →
    exec (.sqboarv f) s = .next (if o.pend = 0 then s.endProgram c k (s.sq c k) 0x103
      else seqGoes (s.actLater c (s.sq c k).owner (.arrive a)) c k (s.sq c k).advance)) ∧
  (∀ (f : FS) (s : State) (c : CoreRef) (k : SeqKind) (a : Nat) (o : Bo), SeqFront s c k → s.seqBo (s.sq c k) f = .ok (a, o) →
    o.v = true → f.smod.getLsbD 0 = true →
    exec (.sqboarv f) s = .next (if o.pend = 0 ∨ 2147483647 < o.tx + 16 * f.doff.toNat then s.endProgram c k (s.sq c k) 0x102
      else seqGoes (s.actLater c (s.sq c k).owner (.expect a (16 * f.doff.toNat))) c k (s.sq c k).advance)) ∧
  (∀ (f : FS) (s : State) (c : CoreRef) (k : SeqKind) (a : Nat) (o : Bo), SeqFront s c k → s.seqBo (s.sq c k) f = .ok (a, o) →
    let n := f.mf 0 3
    exec (.sqbowait f) s = .next (if o.ph = (s.sq c k).t.getLsbD n then
        seqBlocks s c k { s.sq c k with bowait := some (a, n), waitFrom := (s.quad c).cyc }
      else seqGoes s c k { s.sq c k with t :=
        if o.ph then (s.sq c k).t ||| 1#8 <<< n else (s.sq c k).t &&& ~~~(1#8 <<< n) }.advance))

/-- R289, R292: every engine command of a sequencer, with descriptor and barrier object in its owner's local memory, is accepted by the
sequencer's own engine while that has room, and held while it has none; a command for the other engine, or for a matrix engine that a
geometry die does not have, ends the program with 0x002, a bad range with 0x313. -/
def Obligations.SequencerCommands : Prop :=
  SeqCommands .seqCpy .cpy acceptCopy ∧ SeqCommands .seqCpyg .cpyg acceptCopy ∧ SeqCommands .seqCpys .cpys acceptCopy ∧
  SeqCommands .seqCpyfill .cpyfill acceptCopy ∧ SeqCommands .seqCtload .ctload acceptCopy ∧ SeqCommands .seqDecent .decent acceptCopy ∧
  SeqCommands .seqDecbr .decbr acceptCopy ∧ SeqCommands .seqMresv .mresv acceptMat ∧ SeqCommands .seqMrels .mrels acceptMat ∧
  SeqCommands .seqMload .mload acceptMat ∧ SeqCommands .seqMcbl .mcbl acceptMat ∧ SeqCommands .seqMma .mma acceptMat ∧
  SeqCommands .seqMmai .mmai acceptMat ∧ SeqCommands .seqMzero .mzero acceptMat ∧ SeqCommands .seqMstore .mstore acceptMat ∧
  SeqCommands .seqMstat .mstat acceptMat ∧ SeqCommands .seqMchk .mchk acceptMat

/-- R248, R290: a sequencer held by SQWAITC goes on when its cycle is reached, in a fixed-timing context at just that cycle (R294); a wait
that has lasted for its context's wait-timeout ends in a trap with 0x100 for a thread, but in JWAIT and KILLF, which nothing bounds, and ends
a sequencer's program with that cause. -/
def Obligations.WaitsExpire : Prop :=
  (∀ (s : State) (c : CoreRef) (k : SeqKind) (t : Nat), (s.sq c k).running = true → (s.core c).drain < 2 → (s.sq c k).holdT = some t →
    exec (.sqwaitcExpiry c k) s = .next ((s.reachCyc (s.quadKeyOf c) ((s.sq c k).scyc0 + t).toNat).setSq c k
      { (s.sq c k).advance with holdT := none, due :=
        if (s.block (s.sq c k).owner).any (fun b => s.blockFixed b) then some ((s.sq c k).scyc0 + t).toNat else none })) ∧
  (∀ (s : State) (b tl : Nat) (k : Block) (w : Wait) (n : Nat), s.block b = some k → k.saved = false → s.timeout k.ctx = some n →
    (k.thread tl).status = .waiting w → (∀ j, w ≠ .jwait j) → (∀ x, w ≠ .killf x) →
    let t := k.thread tl
    exec (.waitTimeout (.thread b tl)) s = .next ((s.reachCyc (s.quadKeyOf k.core) (t.waitFrom + (n - t.waitBase) + 1)).takeTrap b tl
      ⟨0x100, 0, t.pc, t.pc, t.hdr, 0, false, false, true, t.pos⟩)) ∧
  (∀ (s : State) (b tl : Nat) (k : Block), s.block b = some k →
    (∃ x, (k.thread tl).status = .waiting (.jwait x)) ∨ (∃ x, (k.thread tl).status = .waiting (.killf x)) →
    exec (.waitTimeout (.thread b tl)) s = .next s) ∧
  (∀ (s : State) (c : CoreRef) (k : SeqKind) (b : Block) (n : Nat), s.block (s.sq c k).owner = some b → s.timeout b.ctx = some n →
    (s.sq c k).running = true → (s.sq c k).bowait.isSome = true →
    exec (.waitTimeout (.sequencer c k)) s =
      .next ((s.reachCyc (s.quadKeyOf c) ((s.sq c k).waitFrom + n + 1).toNat).endProgram c k (s.sq c k) 0x100)) ∧
  (∀ (s : State) (c : Ctx) (i : Nat), s.ctx i = some c →
    s.timeout i = if c.wto = 63 then none else some (2 ^ (if c.wto = 0 then 30 else c.wto)))

/-! ### Geometry -/

/-- R358, R359: PAYPUSH commits the block's stores, waiting while they cannot be committed, and hands its payload on once its write-backs are
acknowledged: the payload then stands in the next stage's slot, and the slot's number lands; PAYPOP copies the payload that the block was
started from. Both trap with 0x1C1 without a queue, 0x082 on a misaligned and 0x080 on an outlying range; then PAYPUSH with 0x1C3 on more
than 1024 blocks, and with 0x1C2 a second time. -/
def Obligations.PayloadHandOff : Prop :=
  (∀ f : FA, CompletesCommit (.paypush f) f.pred f.pneg (some f.sbs.toNat)
    (fun e s => ∃ sb, pushesTo s e.k sb ∧ goodPayload (e.r f.a).toNat sb e.k.localSize ∧ (e.opB f).toNat ≤ 1024 ∧
      (blockNow e s).pushed = false ∧ (s.commitBlock e.k.id).2 = true)
    (fun e s => handsOver e s f)) ∧
  (∀ f : FA, StopsOne (.paypush f) f.pred f.pneg (some f.sbs.toNat) (fun e s => ∀ sb, ¬ pushesTo s e.k sb)
    (fun _ _ => .trap 0x1C1 0 0 false false) (fun _ s => s)) ∧
  (∀ f : FA, StopsOne (.paypush f) f.pred f.pneg (some f.sbs.toNat)
    (fun e s => ∃ sb, pushesTo s e.k sb ∧ ¬ goodPayload (e.r f.a).toNat sb e.k.localSize)
    (fun e _ => rangeStop 16 false (e.r f.a)) (fun _ s => s)) ∧
  (∀ f : FA, StopsOne (.paypush f) f.pred f.pneg (some f.sbs.toNat)
    (fun e s => ∃ sb, pushesTo s e.k sb ∧ goodPayload (e.r f.a).toNat sb e.k.localSize ∧
      (1024 < (e.opB f).toNat ∨ ((blockNow e s).pushed = true ∧ s.block e.k.id = some (blockNow e s))))
    (fun e _ => .trap (if 1024 < (e.opB f).toNat then 0x1C3 else 0x1C2) 0 0 false false) (fun _ s => s)) ∧
  (∀ f : FA, StopsOne (.paypush f) f.pred f.pneg (some f.sbs.toNat)
    (fun e s => ∃ sb, pushesTo s e.k sb ∧ goodPayload (e.r f.a).toNat sb e.k.localSize ∧ (e.opB f).toNat ≤ 1024 ∧
      (blockNow e s).pushed = false ∧ (s.commitBlock e.k.id).2 = false)
    (fun _ _ => .hold) (fun e s => commits e s)) ∧
  (∀ f : FA, Completes (.paypop f) f.pred f.pneg (some f.sbs.toNat)
    (fun e s => ∃ i bs, s.inEntry e.k = some (i, bs) ∧ goodPayload (e.r f.a).toNat bs.length e.k.localSize)
    (fun e s =>
      let x := (s.inEntry e.k).getD (0, [])
      newOp e (s.lstore e.k.id (e.r f.a).toNat x.2) f.sbs.toNat [f.d.toNat] (some [BitVec.ofNat 32 x.1]) none false none)) ∧
  (∀ f : FA, StopsOne (.paypop f) f.pred f.pneg (some f.sbs.toNat) (fun e s => s.inEntry e.k = none)
    (fun _ _ => .trap 0x1C1 0 0 false false) (fun _ s => s)) ∧
  (∀ f : FA, StopsOne (.paypop f) f.pred f.pneg (some f.sbs.toNat)
    (fun e s => ∃ i bs, s.inEntry e.k = some (i, bs) ∧ ¬ goodPayload (e.r f.a).toNat bs.length e.k.localSize)
    (fun e _ => rangeStop 16 true (e.r f.a)) (fun _ s => s)) ∧
  (∀ (s : State) (b sb : Nat) (p : PendPush) (k : Block), s.pushes.find? (fun p => p.blk == b && p.ready) = some p → s.block b = some k →
    ((s.launch k.launch).bind fun l => l.slotBytes (k.stage + 1)) = some sb →
    exec (.paypushLanding b) s = .next
      ((({ s with pushes := s.pushes.filter fun x => x.blk != b, nextId := s.nextId + 1 }).modLaunch k.launch
        (publishSlot k p.n s.nextId (mbytes k.lmem p.addr sb))).landOn b p.tl p.op [BitVec.ofNat 32 (k.outSlot.getD 0)])) ∧
  (∀ (k : Block) (n order : Nat) (bs : List Byte) (l : Launch) (sl : List StageSlot) (i : Nat) (x : StageSlot), 0 < n →
    tget l.stages (k.stage + 1) = some sl → lget sl i = some x → x.reserved = some k.id →
    ((tget (publishSlot k n order bs l).stages (k.stage + 1)).bind fun q => lget q i) = some { entry := some (n, k.root, bs), landed := order })

/-- R361 to R364: MCOUNT announces a block's mesh, the same for every thread that executes it; MVERT and MPRIM write it to local memory at
the addresses that the counts give; MDONE hands it to the front end of the die, and holds its issue while that has 64 requests. In a wrong
stage they trap with 0x1C0, out of sequence with 0x1C6; on other counts or too large ones with 0x1C4, on an index past them with 0x1C5; MCOUNT
on a misaligned area with 0x082 and an outlying one with 0x080; MDONE on an invalid state record with 0x1C7. R366, R369: the front end takes
the oldest request of its die, sends its packets in order unless the pipeline has broken the order of draws, and lands their number with the
number of their triangles; a header flit holds each field of its packet. R382: a packet of a region that no die owns is counted. -/
def Obligations.MeshOutput : Prop :=
  (∀ f : FA, Completes (.mcount f) f.pred f.pneg none
    (fun e s => meshOk e s ∧
      let nv := (e.r f.a).toNat
      let np := (e.opB f).toNat
      let k := blockNow e s
      nv ≤ 256 ∧ np ≤ 256 ∧ (e.r f.c).toNat % 16 = 0 ∧
      (e.r f.c).toNat + (16 + 4 * (f.md.toNat % 32)) * nv + 4 * np ≤ k.localSize ∧
      (k.ms = 0 ∨ (k.ms = 1 ∧ k.nv = nv ∧ k.np = np ∧ k.aw = f.md.toNat % 32 ∧ k.out = e.r f.c)))
    (fun e s => if (blockNow e s).ms = 0 then s.modBlock (blockNow e s).id fun k =>
        { k with nv := (e.r f.a).toNat, np := (e.opB f).toNat, aw := f.md.toNat % 32, out := e.r f.c, ms := 1 } else s)) ∧
  (∀ f : FA, StopsOne (.mcount f) f.pred f.pneg none
    (fun e s => meshOk e s ∧ (blockNow e s).ms ≠ 2 ∧ (e.r f.a).toNat ≤ 256 ∧ (e.opB f).toNat ≤ 256 ∧
      ((e.r f.c).toNat % 16 ≠ 0 ∨
        (blockNow e s).localSize < (e.r f.c).toNat + (16 + 4 * (f.md.toNat % 32)) * (e.r f.a).toNat + 4 * (e.opB f).toNat))
    (fun e _ => rangeStop 16 true (e.r f.c)) (fun _ s => s)) ∧
  (∀ f : FA, StopsOne (.mcount f) f.pred f.pneg none
    (fun e s => meshOk e s ∧
      let nv := (e.r f.a).toNat
      let np := (e.opB f).toNat
      let k := blockNow e s
      k.ms = 2 ∨ 256 < nv ∨ 256 < np ∨
        ((e.r f.c).toNat % 16 = 0 ∧ (e.r f.c).toNat + (16 + 4 * (f.md.toNat % 32)) * nv + 4 * np ≤ k.localSize ∧ k.ms ≠ 0 ∧
          ¬ (k.nv = nv ∧ k.np = np ∧ k.aw = f.md.toNat % 32 ∧ k.out = e.r f.c)))
    (fun e s => .trap (if (blockNow e s).ms = 2 then 0x1C6 else 0x1C4) 0 0 false false) (fun _ s => s)) ∧
  (∀ f : FA, StopsOne (.mvert f) f.pred f.pneg none
    (fun e s => meshOk e s ∧ ((blockNow e s).ms ≠ 1 ∨ (blockNow e s).nv ≤ (e.r f.a).toNat ∨
      (1 ≤ f.md.toNat % 8 ∧ (blockNow e s).aw ≤ 4 * (f.md.toNat % 8 - 1))))
    (fun e s => .trap (if (blockNow e s).ms ≠ 1 then 0x1C6 else 0x1C5) 0 0 false false) (fun _ s => s)) ∧
  (∀ f : FA, StopsOne (.mprim f) f.pred f.pneg none
    (fun e s => meshOk e s ∧ ((blockNow e s).ms ≠ 1 ∨ (blockNow e s).np ≤ (e.r f.a).toNat ∨ primOk (blockNow e s).nv (e.opB f).toNat = false))
    (fun e s => .trap (if (blockNow e s).ms ≠ 1 then 0x1C6 else 0x1C5) 0 0 false false) (fun _ s => s)) ∧
  (∀ f : FA, f.md.toNat % 8 = 0 → Completes (.mvert f) f.pred f.pneg none
    (fun e s => meshOk e s ∧ (blockNow e s).ms = 1 ∧ (e.r f.a).toNat < (blockNow e s).nv)
    (fun e s =>
      let k := blockNow e s
      s.lstore k.id (k.out.toNat + (16 + 4 * k.aw) * (e.r f.a).toNat) (wordBytes [e.rN f.b 0, e.rN f.b 1, e.rN f.b 2, e.rN f.b 3]))) ∧
  (∀ f : FA, 1 ≤ f.md.toNat % 8 → Completes (.mvert f) f.pred f.pneg none
    (fun e s => meshOk e s ∧ (blockNow e s).ms = 1 ∧ (e.r f.a).toNat < (blockNow e s).nv ∧ 4 * (f.md.toNat % 8 - 1) < (blockNow e s).aw)
    (fun e s =>
      let k := blockNow e s
      let j := 4 * (f.md.toNat % 8 - 1)
      s.lstore k.id (k.out.toNat + (16 + 4 * k.aw) * (e.r f.a).toNat + 16 + 4 * j)
        (wordBytes ((List.range (min 4 (k.aw - j))).map fun i => e.rN f.b i)))) ∧
  (∀ f : FA, Completes (.mprim f) f.pred f.pneg none
    (fun e s => meshOk e s ∧ (blockNow e s).ms = 1 ∧ (e.r f.a).toNat < (blockNow e s).np ∧ primOk (blockNow e s).nv (e.opB f).toNat = true)
    (fun e s =>
      let k := blockNow e s
      s.lstore k.id (k.out.toNat + (16 + 4 * k.aw) * k.nv + 4 * (e.r f.a).toNat) (wordBytes [e.opB f]))) ∧
  (∀ (f : FA) (s : State) (g : Group) (k : Block) (p : Nat × Nat), Alone (.mdone f) f.pred f.pneg s g k p → Room (some f.sbs.toNat) k [p] →
    s.meshLegal k = true → k.ms = 1 ∨ k.mdHold = some p.2 → k.gsr.bad = false → s.frontFull k.core.die = false →
    exec (.mdone f) s = .next (finishInstr
      (let e := laneEnv f.pred f.pneg s g k p
       let u := (newOp e (atIssue (.mdone f) s k p) f.sbs.toNat [f.d.toNat] none none false none).modBlock k.id fun j =>
         { j with ms := 2, mdHold := none, nonRollback := true }
       { u with fronts := u.fronts ++ [⟨k.core.die, k.id, p.2, s.nextId⟩] }) g [])) ∧
  (∀ (f : FA) (s : State) (g : Group) (k : Block) (p : Nat × Nat) (r : List (Nat × Nat)), Ready (.mdone f) f.pred f.pneg s g k →
    activeLanes k g f.pred f.pneg = p :: r → Room (some f.sbs.toNat) k (p :: r) → s.meshLegal k = true → k.gsr.bad = false →
    s.frontFull k.core.die = true → k.ms = 1 →
    exec (.mdone f) s = .next (let u := s.modBlock g.blk fun j => { j with ms := 2, mdHold := some p.2 }
      { u with opens := s.opens.tail ++ [.grp g] })) ∧
  (∀ f : FA, StopsOne (.mdone f) f.pred f.pneg (some f.sbs.toNat)
    (fun e s => meshOk e s ∧
      ((blockNow e s).ms ≠ 1 ∧ (blockNow e s).mdHold ≠ some e.tl ∨ (blockNow e s).gsr.bad = true))
    (fun e s => .trap (if (blockNow e s).ms ≠ 1 ∧ (blockNow e s).mdHold ≠ some e.tl then 0x1C6 else 0x1C7) 0 0 false false)
    (fun _ s => s)) ∧
  (∀ c ∈ [Instr.mcount, .mvert, .mprim], ∀ f : FA, StopsOne (c f) f.pred f.pneg none (fun e s => ¬ meshOk e s)
    (fun _ _ => .trap 0x1C0 0 0 false false) (fun _ s => s)) ∧
  (∀ f : FA, StopsOne (.mdone f) f.pred f.pneg (some f.sbs.toNat) (fun e s => ¬ meshOk e s)
    (fun _ _ => .trap 0x1C0 0 0 false false) (fun _ s => s)) ∧
  (∀ (s : State) (d : Nat) (r : MdReq) (k : Block) (l : Launch), s.fronts.find? (fun r => r.die == d) = some r → s.block r.blk = some k →
    s.launch k.launch = some l →
    let ps : List Packet := k.emitted d (s.freeVal.extractLsb' 0 32).toInt
    let u : State := { s.useFree with fronts := s.fronts.eraseP fun x => x.die == d }
    exec (.frontEndRequest d) s = .next ((if l.badDraw then u else ps.foldl (fun (t : State) (p : Packet) => t.emit k.ctx p) u).landOn
      r.blk r.tl r.op [BitVec.ofNat 32 (ps.length % 65536 * 65536 + (ps.map fun p => p.nprim).sum % 65536)])) ∧
  (∀ p : Packet, p.rgx < 512 → p.rgy < 512 → p.gdie < 16 → p.part < 16 → p.nvert < 512 → p.nprim < 512 → p.aw < 32 →
    pktOf (pktHeader p).toNat p.payload = p ∧ bits (pktHeader p).toNat 155 146 = pktFlits p % 1024) ∧
  (∀ (s : State) (c : Nat) (p : Packet), (s.ctx c).bind (·.frame) = none → s.emit c p = s) ∧
  (∀ (s : State) (c : Nat) (p : Packet) (f : Frame) (o : Nat), (s.ctx c).bind (·.frame) = some f → f.owner p.rgx p.rgy = some o →
    s.emit c p = { s with narrows := s.narrows ++ [⟨c, p.gdie, o, .packet p⟩] }) ∧
  (∀ (s : State) (c : Nat) (p : Packet) (f : Frame), (s.ctx c).bind (·.frame) = some f → f.owner p.rgx p.rgy = none →
    s.emit c p = s.modFrame c fun f => { f with ndisc := min 0xFFFF (f.ndisc + 1) })

/-! ### Regions -/

/-- R384 to R387: RGNACQ of a region that its die owns lands its state, and takes it when it is free; of any region it waits; RGNREL commits
the stores, waiting while they cannot be committed, and gives the region back when the thread's older requests are performed and the core's
dirty lines acknowledged; VISPOP waits for a packet of the held region, the packets popped before it being given up. The five instructions
of a region trap with 0x002 on a geometry die, with 0x1E5 without an open frame; the four on the held region with 0x1E1 without one; RGNACQ
with 0x1E2 while a region is held, and with 0x1E0 on one that its die does not own. -/
def Obligations.FrameRegions : Prop :=
  (∀ f : FA, Completes (.rgnacq f) f.pred f.pneg (some f.sbs.toNat)
    (fun e s => ∃ fr, InFrame e s fr ∧ (blockNow e s).region = none ∧ (e.r f.a).toNat < 2 ^ 18 ∧
      fr.owner ((e.r f.a).toNat % 512) ((e.r f.a).toNat / 512 % 512) = some (blockNow e s).core.die)
    (fun e s =>
      let rid := regionId (e.r f.a)
      let r := (((s.ctx e.k.ctx).bind (·.frame)).map fun fr => fr.region rid).getD {}
      let st : Nat := if r.poisoned then 2 else if r.holder.isSome then 3 else 0
      newOp e (if st = 0 then s.takeRegion (blockNow e s) rid else s) f.sbs.toNat [f.d.toNat]
        (some [BitVec.ofNat 32 (st * 2 ^ 30 + rid)]) none true none)) ∧
  (∀ f : FA, Completes (.rgnacq f) f.pred f.pneg (some f.sbs.toNat)
    (fun e s => (∃ fr, InFrame e s fr) ∧ (blockNow e s).region = none ∧ e.r f.a = 0xFFFFFFFF)
    (fun e s => asksRegion e s f [f.d.toNat] true false)) ∧
  (∀ f : FA, CompletesCommit (.rgnrel f) f.pred f.pneg none
    (fun e s => (∃ fr rid, HoldsRegion e s fr rid) ∧ (s.commitBlock (blockNow e s).id).2 = true)
    (fun e s =>
      let k := blockNow e s
      let u := ((s.commitBlock k.id).1.modBlock k.id fun j => { j with nonRollback := true, packets := [] }).modThread e.k.id e.tl
        fun t => { t with phases := t.phases + 1 }
      u.fence (.region k.id e.tl (k.region.getD 0)) [k.core] (fun _ _ => true) (u.older k.id e.tl))) ∧
  (∀ f : FA, StopsOne (.rgnrel f) f.pred f.pneg none
    (fun e s => (∃ fr rid, HoldsRegion e s fr rid) ∧ (s.commitBlock (blockNow e s).id).2 = false)
    (fun _ _ => .hold) (fun e s => (s.commitBlock (blockNow e s).id).1)) ∧
  (∀ (s : State) (b tl rid : Nat) (k : Block), s.block b = some k →
    ∃ u, s.ackFence (.region b tl rid) = (u.modFrame k.ctx fun f => f.freeRegion b rid).giveBack b rid ∧
      u = (s.modThread b tl fun t => { t with phases := t.phases - 1 }).phaseEnd b) ∧
  (∀ f : FA, Completes (.vispop f) f.pred f.pneg (some f.sbs.toNat) (fun e s => ∃ fr rid, HoldsRegion e s fr rid)
    (fun e s => asksRegion e
      (if e.parts.head?.map (·.2) = some e.tl then s.modBlock (blockNow e s).id fun k => { k with packets := [] } else s) f
      (destRegs f.d 16) false true)) ∧
  (∀ c ∈ [(Instr.rgnacq, true), (.vispop, true), (.visget, true), (.rgnrel, false), (.rtblend, false)], ∀ f : FA,
    StopsOne (c.1 f) f.pred f.pneg (if c.2 then some f.sbs.toNat else none)
      (fun e s => s.dieMap.isGd e.k.core.die = true ∨ (s.ctx e.k.ctx).bind (·.frame) = none)
      (fun e s => .trap (if s.dieMap.isGd e.k.core.die = true then 0x002 else 0x1E5) 0 0 false false) (fun _ s => s)) ∧
  (∀ c ∈ [(Instr.vispop, true), (.visget, true), (.rgnrel, false), (.rtblend, false)], ∀ f : FA,
    StopsOne (c.1 f) f.pred f.pneg (if c.2 then some f.sbs.toNat else none)
      (fun e s => (∃ fr, InFrame e s fr) ∧ (blockNow e s).region = none) (fun _ _ => .trap 0x1E1 0 0 false false) (fun _ s => s)) ∧
  (∀ f : FA, StopsOne (.rgnacq f) f.pred f.pneg (some f.sbs.toNat)
    (fun e s => ∃ fr, InFrame e s fr ∧ ((blockNow e s).region ≠ none ∨ (e.r f.a ≠ 0xFFFFFFFF ∧ (2 ^ 18 ≤ (e.r f.a).toNat ∨
      fr.owner ((e.r f.a).toNat % 512) ((e.r f.a).toNat / 512 % 512) ≠ some (blockNow e s).core.die))))
    (fun e s => .trap (if (blockNow e s).region ≠ none then 0x1E2 else 0x1E0) 0 0 false false) (fun _ s => s))

/-- R384, R388, R389: VISGET copies a packet's payload to local memory; RTBLEND blends a pixel of the region, and writes it for its core; off
the target it has no effect. Both trap with 0x1E3 on a poisoned region; VISGET with 0x1E4 on a packet that the block does not hold, 0x082 on a
misaligned and 0x080 on an outlying range; RTBLEND with 0x1E6 on a word that names no pixel, and with the cause of a failed check. -/
def Obligations.RegionPixels : Prop :=
  (∀ f : FA, Completes (.visget f) f.pred f.pneg (some f.sbs.toNat)
    (fun e s => ∃ fr rid x, HoldsRegion e s fr rid ∧ (fr.region rid).poisoned = false ∧
      (blockNow e s).packets.find? (fun x => x.stamp % 65536 == (e.r f.b).toNat) = some x ∧
      (e.r f.a).toNat % 32 = 0 ∧ (e.r f.a).toNat + x.p.payload.length ≤ (blockNow e s).localSize)
    (fun e s =>
      let bs := (((blockNow e s).packets.find? fun x => x.stamp % 65536 == (e.r f.b).toNat).map (·.p.payload)).getD []
      newOp e (s.lstore (blockNow e s).id (e.r f.a).toNat bs) f.sbs.toNat [f.d.toNat] (some [BitVec.ofNat 32 bs.length]) none false none)) ∧
  (∀ f : FA, StopsOne (.visget f) f.pred f.pneg (some f.sbs.toNat)
    (fun e s => ∃ fr rid, HoldsRegion e s fr rid ∧ (fr.region rid).poisoned = false ∧
      (blockNow e s).packets.find? (fun x => x.stamp % 65536 == (e.r f.b).toNat) = none)
    (fun _ _ => .trap 0x1E4 0 0 false false) (fun _ s => s)) ∧
  (∀ f : FA, StopsOne (.visget f) f.pred f.pneg (some f.sbs.toNat)
    (fun e s => ∃ fr rid x, HoldsRegion e s fr rid ∧ (fr.region rid).poisoned = false ∧
      (blockNow e s).packets.find? (fun x => x.stamp % 65536 == (e.r f.b).toNat) = some x ∧
      ((e.r f.a).toNat % 32 ≠ 0 ∨ (blockNow e s).localSize < (e.r f.a).toNat + x.p.payload.length))
    (fun e _ => rangeStop 32 true (e.r f.a)) (fun _ s => s)) ∧
  (∀ c ∈ [(Instr.visget, true), (.rtblend, false)], ∀ f : FA, StopsOne (c.1 f) f.pred f.pneg (if c.2 then some f.sbs.toNat else none)
    (fun e s => ∃ fr rid, HoldsRegion e s fr rid ∧ (fr.region rid).poisoned = true)
    (fun _ _ => .trap 0x1E3 0 0 false false) (fun _ s => s)) ∧
  (∀ f : FA, StopsOne (.rtblend f) f.pred f.pneg none
    (fun e s => ∃ fr rid, HoldsRegion e s fr rid ∧ (fr.region rid).poisoned = false ∧ ¬ rtNames (e.r f.a))
    (fun _ _ => .trap 0x1E6 0 0 false false) (fun _ s => s)) ∧
  (∀ f : FA, Completes (.rtblend f) f.pred f.pneg none
    (fun e s => ∃ fr rid, HoldsRegion e s fr rid ∧ (fr.region rid).poisoned = false ∧ rtNames (e.r f.a) ∧ ¬ onTarget fr rid (e.r f.a))
    (fun _ s => s)) ∧
  (∀ f : FA, Completes (.rtblend f) f.pred f.pneg none
    (fun e s => ∃ fr rid, HoldsRegion e s fr rid ∧ (fr.region rid).poisoned = false ∧ rtNames (e.r f.a) ∧ onTarget fr rid (e.r f.a) ∧
      reachesGlobal (rtCheck e s fr rid (e.r f.a)).1 ∧ rtStop 0 (rtCheck e s fr rid (e.r f.a)) = none)
    (fun e s => atRegion e s s fun fr rid => atGlobal (rtCheck e s fr rid (e.r f.a)).1 s fun pa en _ =>
      blends e (rtCheck e s fr rid (e.r f.a)).2 (blockNow e s) f fr pa en)) ∧
  (∀ f : FA, StopsOne (.rtblend f) f.pred f.pneg none
    (fun e s => ∃ fr rid, HoldsRegion e s fr rid ∧ (fr.region rid).poisoned = false ∧ rtNames (e.r f.a) ∧ onTarget fr rid (e.r f.a) ∧
      rtStop 0 (rtCheck e s fr rid (e.r f.a)) ≠ none)
    (fun e s => atRegion e s .hold fun fr rid =>
      (rtStop (BitVec.ofNat 64 (rtVa fr rid (e.r f.a))) (rtCheck e s fr rid (e.r f.a))).getD .hold)
    (fun e s => atRegion e s s fun fr rid => (rtCheck e s fr rid (e.r f.a)).2)) ∧
  (∀ (old : Nat) (c : List Nat) (a : Nat), c.head? = some a → blendPixel 2 0 old c = leBytes 4 a)

/-- R377, R379 to R382, R387: a packet that arrives in order at the owner of its region is held there; one for which the buffer has no room is
written to the spill area, and with no room there either the frame ends with FRAME_SPILL; one out of order is discarded, with KEY_ORDER; a
watermark raises what its owner knows; a held packet is released exactly when every die has reached its key, the least of those held, part by
part; a pop takes the oldest packet released, read back from the spill area; after the timeouts the regions that hold a held packet are
poisoned. -/
def Obligations.PacketOrder : Prop :=
  (∀ (s : State) (c : Nat) (p : Packet) (m : NMsg) (rest : List NMsg) (f : Frame),
    takeMsg (fun m => m.ctx == c && m.flit == .packet p) s.narrows = some (m, rest) → (s.ctx c).bind (·.frame) = some f →
    let rid := p.rgy * 512 + p.rgx
    let r := f.region rid
    let u : State := { s with narrows := rest }
    let inOrder := (r.op = true ∨ ∀ t, r.tk = some t → t < pktKey p) ∧
      p.part = (r.held.filter fun x => pktKey x.p == pktKey p).length + (if r.op && r.tk == some (pktKey p) then r.tp else 0)
    let put := fun (o : Option Nat) => f.setRegion rid { r with held := r.held ++ [⟨p, s.clock.ns, o, 0⟩] }
    f.owner p.rgx p.rgy = some m.owner →
    (r.poisoned = true → exec (.packetArrival c p) s = .next u) ∧
    (r.poisoned = false → ¬ inOrder → exec (.packetArrival c p) s = .next (u.modFrame c fun f => f.record 0x1EC)) ∧
    (r.poisoned = false → inOrder → u.bufferFlits m.owner + pktFlits p ≤ 8192 →
      exec (.packetArrival c p) s = .next (u.modFrame c fun _ => (put none).evaluate m.owner)) ∧
    (r.poisoned = false → inOrder → 8192 < u.bufferFlits m.owner + pktFlits p →
      (∀ o, f.spillRoom (32 * pktFlits p) = some o →
        exec (.packetArrival c p) s = .next ((u.spillWrite c f o p).modFrame c fun _ => (put (some o)).evaluate m.owner)) ∧
      (f.spillRoom (32 * pktFlits p) = none →
        exec (.packetArrival c p) s = .next (u.modFrame c fun _ => ((put none).record 0x1EB).poisonHeld.close)))) ∧
  (∀ (s : State) (c g o : Nat) (w : BitVec 48) (m : NMsg) (rest : List NMsg),
    takeMsg (fun m => m.ctx == c && m.gdie == g && m.owner == o && m.flit == .watermark w.toNat) s.narrows = some (m, rest) →
    exec (.watermarkFlit c g o w) s = .next (({ s with narrows := rest } : State).modFrame c fun f =>
      ({ f with wm := tput f.wm (g * 64 + o) (max ((tget f.wm (g * 64 + o)).getD 0) w.toNat) }).evaluate o)) ∧
  (∀ (f : Frame) (o : Nat) (r : Region),
    let mayGo := fun (x : VisPkt) => (r.op = true → r.tk = some (pktKey x.p) ∧ x.p.part = r.tp) ∧
      (r.op = false → x.p.part = 0 ∧ (∀ y ∈ r.held, pktKey x.p ≤ pktKey y.p) ∧ (∀ t, r.tk = some t → t < pktKey x.p) ∧
        ∀ g < 16, f.gdmask / 2 ^ g % 2 = 1 → pktKey x.p ≤ (tget f.wm (g * 64 + o)).getD 0)
    (∀ x, f.next o r = some x → x ∈ r.held ∧ mayGo x) ∧ (f.next o r = none → ∀ x ∈ r.held, ¬ mayGo x)) ∧
  (∀ (f : Frame) (o rid n : Nat) (x : VisPkt), f.dropPassed rid = f → f.next o (f.region rid) = some x →
    f.release o rid (n + 1) = (({ f with nextStamp := f.nextStamp + 1 } : Frame).setRegion rid { f.region rid with
      tk := some (pktKey x.p), tp := x.p.part + 1, op := !x.p.lastp, held := (f.region rid).held.erase x
      released := (f.region rid).released ++ [{ x with stamp := f.nextStamp }] }).release o rid n) ∧
  (∀ (s : State) (q : RgnReq) (k : Block) (f : Frame) (rid : Nat) (x : VisPkt) (l : List VisPkt), s.block q.blk = some k → q.pop = true →
    s.opLive q.blk q.tl q.op = true → (s.ctx k.ctx).bind (·.frame) = some f → k.region = some rid → (f.region rid).poisoned = false →
    (f.region rid).released = x :: l →
    let y := s.readBack k.ctx f x
    s.serveRgn q = some (((s.modFrame k.ctx fun f => f.setRegion rid { (f.region rid) with released := l }).modBlock q.blk fun j =>
      { j with packets := j.packets ++ [y], nonRollback := true }).landOn q.blk q.tl q.op y.words)) ∧
  (∀ (s : State) (c rid t : Nat) (f : Frame), (s.ctx c).bind (·.frame) = some f → ((f.region rid).held.map (·.came)).min? = some t →
    exec (.tokenTimeout c rid) s = .next ((s.reachNs (t + f.fto)).modFrame c fun f => f.poisonHeld.record 0x1EA)) ∧
  (∀ (s : State) (c : Nat) (f : Frame), (s.ctx c).bind (·.frame) = some f →
    exec (.frameTimeout c) s = .next ((s.reachNs (f.opened + f.fto)).modFrame c fun f => (f.poisonHeld.record 0x1ED).close)) ∧
  (∀ (f : Frame) (rid : Nat), (f.region rid).poisoned = false →
    (f.poison rid).region rid = { f.region rid with held := [], released := [], poisoned := true })

/-! ### Textures -/

/-- R393 to R404: TEX lands the weighted texels of its levels, blended channel by channel and swizzled; TLD lands one texel, or zeros outside
the image; TQRY lands the size of a level or the level of detail; what comes from a poisoned granule poisons the registers. The three trap
with 0x002 on a geometry die, 0x123 on a core without the unit, 0x120 on a bad heap or texture descriptor, 0x121 on a bad sampler descriptor,
0x122 on a format that they do not take; and a lane stops as a failed check of a read says. -/
def Obligations.Textures : Prop :=
  (∀ f : FA, Completes (.tex f) f.pred f.pneg (some f.sbs.toNat)
    (fun e s => ∃ d sm vs, TexOk (.tex f) e s f d ∧ SampOk e s f sm ∧ d.fmt ≠ 11 ∧ (texelsRead e s f d sm).1 = .ok vs)
    (fun e s =>
      let d : TexDesc := ⟨texOf (texRead e s f).1⟩
      let sm : SampDesc := ⟨texOf (sampRead e s f).1⟩
      match texelsRead e s f d sm with
      | (.ok (vs, bad), u) => lands4 e u f (d.swizzle 0x3F800000 ((List.range 4).map fun i =>
          blendTex (vs.map fun v => (v.1, (lget v.2 i).getD .nan)))) bad
      | (.error _, u) => u)) ∧
  (∀ f : FA, Completes (.tld f) f.pred f.pneg (some f.sbs.toNat)
    (fun e s => ∃ d, TexOk (.tld f) e s f d ∧ ¬ inImage d (tldAt e f))
    (fun e s => lands4 e (texRead e s f).2 f [0, 0, 0, 0] none)) ∧
  (∀ f : FA, Completes (.tld f) f.pred f.pneg (some f.sbs.toNat)
    (fun e s => ∃ d v, TexOk (.tld f) e s f d ∧ inImage d (tldAt e f) ∧ (tldRead e s f d).1 = .ok v)
    (fun e s =>
      let d : TexDesc := ⟨texOf (texRead e s f).1⟩
      let q := tldRead e s f d
      lands4 e q.2 f (texelWords d (texOf q.1) (tldAt e f)) (if badOf q.1 then some (d.ptr (tldAt e f)) else none))) ∧
  (∀ f : FA, f.md.getLsbD 0 = false → Completes (.tqry f) f.pred f.pneg (some f.sbs.toNat) (fun e s => ∃ d, TexOk (.tqry f) e s f d)
    (fun e s =>
      let d : TexDesc := ⟨texOf (texRead e s f).1⟩
      let l := (e.r f.a).toNat
      lands4 e (texRead e s f).2 f (if d.lm1 < l then [0, 0, 0, BitVec.ofNat 32 (d.lm1 + 1)]
        else [BitVec.ofNat 32 (d.wl l), BitVec.ofNat 32 (d.hl l), BitVec.ofNat 32 (d.zl l), BitVec.ofNat 32 (d.lm1 + 1)]) none)) ∧
  (∀ f : FA, f.md.getLsbD 0 = true → Completes (.tqry f) f.pred f.pneg (some f.sbs.toNat)
    (fun e s => ∃ d sm, TexOk (.tqry f) e s f d ∧ SampOk e s f sm) (fun e s =>
      let d : TexDesc := ⟨texOf (texRead e s f).1⟩
      let sm : SampDesc := ⟨texOf (sampRead e s f).1⟩
      let l := e.lodImplicit d sm f.a e.freeLod
      lands4 e (sampRead e s f).2 f [(Lod.val (l.clamp sm d.lm1)).bits, l.bits, BitVec.ofNat 32 (lodLevels d sm (l.clamp sm d.lm1)).1, 0]
        none)) ∧
  (∀ c ∈ [Instr.tex, .tld, .tqry], ∀ f : FA, Completes (c f) f.pred f.pneg (some f.sbs.toNat)
    (fun e s => ReadsTex (c f) e s f ∧ ∃ v, (texRead e s f).1 = .ok (v, true))
    (fun e s => lands4 e (texRead e s f).2 f [0, 0, 0, 0] (some (texPtr e f)))) ∧
  (∀ c ∈ [Instr.tex, .tqry], ∀ f : FA, wantsSamp (c f) f → Completes (c f) f.pred f.pneg (some f.sbs.toNat)
    (fun e s => (∃ d, TexOk (c f) e s f d) ∧ e.sheap % 16 = 0 ∧ ∃ v, (sampRead e s f).1 = .ok (v, true))
    (fun e s => lands4 e (sampRead e s f).2 f [0, 0, 0, 0] (some (sampPtr e f)))) ∧
  (∀ c ∈ [Instr.tex, .tld, .tqry], ∀ f : FA, StopsOne (c f) f.pred f.pneg (some f.sbs.toNat) (fun e s => ¬ hasTexUnit s e)
    (fun e s => .trap (if s.dieMap.isGd e.k.core.die = true then 0x002 else 0x123) 0 0 false false) (fun _ s => s)) ∧
  (∀ f : FA, StopsOne (.tld f) f.pred f.pneg (some f.sbs.toNat) (fun e s => hasTexUnit s e ∧ 2 ^ 20 ≤ (e.opB f).toNat)
    (fun _ _ => .trap 0x122 0 0 false false) (fun _ s => s)) ∧
  (∀ c ∈ [Instr.tex, .tld, .tqry], ∀ f : FA, StopsOne (c f) f.pred f.pneg (some f.sbs.toNat)
    (fun e s => hasTexUnit s e ∧ (c f = .tld f → (e.opB f).toNat < 2 ^ 20) ∧ e.theap % 32 ≠ 0)
    (fun _ _ => .trap 0x120 0 0 false false) (fun _ s => s)) ∧
  (∀ c ∈ [Instr.tex, .tld, .tqry], ∀ f : FA, StopsOne (c f) f.pred f.pneg (some f.sbs.toNat)
    (fun e s => ReadsTex (c f) e s f ∧ ∃ st, (texRead e s f).1 = .error st)
    (fun e s => errOf (texRead e s f).1) (fun e s => (texRead e s f).2)) ∧
  (∀ c ∈ [Instr.tex, .tld, .tqry], ∀ f : FA, StopsOne (c f) f.pred f.pneg (some f.sbs.toNat)
    (fun e s => ReadsTex (c f) e s f ∧ ∃ d : TexDesc, (texRead e s f).1 = .ok (d.v, false) ∧ d.bad = true)
    (fun _ _ => .trap 0x120 0 0 false false) (fun e s => (texRead e s f).2)) ∧
  (∀ c ∈ [Instr.tex, .tqry], ∀ f : FA, wantsSamp (c f) f → StopsOne (c f) f.pred f.pneg (some f.sbs.toNat)
    (fun e s => (∃ d, TexOk (c f) e s f d) ∧ e.sheap % 16 ≠ 0)
    (fun _ _ => .trap 0x120 0 0 false false) (fun e s => (texRead e s f).2)) ∧
  (∀ c ∈ [Instr.tex, .tqry], ∀ f : FA, wantsSamp (c f) f → StopsOne (c f) f.pred f.pneg (some f.sbs.toNat)
    (fun e s => (∃ d, TexOk (c f) e s f d) ∧ e.sheap % 16 = 0 ∧
      ((∃ st, (sampRead e s f).1 = .error st) ∨ ∃ d : SampDesc, (sampRead e s f).1 = .ok (d.v, false) ∧ d.bad = true))
    (fun e s => match (sampRead e s f).1 with
      | .error st => st
      | .ok _ => .trap 0x121 0 0 false false) (fun e s => (sampRead e s f).2)) ∧
  (∀ f : FA, StopsOne (.tex f) f.pred f.pneg (some f.sbs.toNat)
    (fun e s => ∃ d sm, TexOk (.tex f) e s f d ∧ SampOk e s f sm ∧ d.fmt = 11)
    (fun _ _ => .trap 0x122 0 0 false false) (fun e s => (sampRead e s f).2)) ∧
  (∀ f : FA, StopsOne (.tex f) f.pred f.pneg (some f.sbs.toNat)
    (fun e s => ∃ d sm st, TexOk (.tex f) e s f d ∧ SampOk e s f sm ∧ d.fmt ≠ 11 ∧ (texelsRead e s f d sm).1 = .error st)
    (fun e s => errOf (texelsRead e s f ⟨texOf (texRead e s f).1⟩ ⟨texOf (sampRead e s f).1⟩).1)
    (fun e s => (texelsRead e s f ⟨texOf (texRead e s f).1⟩ ⟨texOf (sampRead e s f).1⟩).2)) ∧
  (∀ f : FA, StopsOne (.tld f) f.pred f.pneg (some f.sbs.toNat)
    (fun e s => ∃ d st, TexOk (.tld f) e s f d ∧ inImage d (tldAt e f) ∧ (tldRead e s f d).1 = .error st)
    (fun e s => errOf (tldRead e s f ⟨texOf (texRead e s f).1⟩).1) (fun e s => (tldRead e s f ⟨texOf (texRead e s f).1⟩).2))

/-! ### Clauses and slots -/

/-- R32, R33, R36, R105, R122: the threads of a block that can issue make groups by fragment and clause, up to the width, in ascending order;
on a core with a free slot of its four the group ranked first opens its clause there; a word without MARK traps with 0x001, and so does a
clause that is none; a word that cannot be fetched traps at the header with its cause; a pending store fault is reported there (R261). R103,
R171, R252: a thread whose STALL, YIELD or descheduling has passed is ready. (The rank of a group whose threads differ in priority, and the
cycles of a YIELD, are the model's choice: notes/assumptions/45.md.) -/
def Obligations.ClausesOpen : Prop :=
  (∀ (s : State) (b tl slot : Nat) (tls : List Nat) (k : Block), s.block b = some k → (k.thread tl).status = .ready →
    s.freeSlot k.core = some slot → (s.readyGroups k).find? (fun g => g.contains tl) = some tls →
    let t := k.thread tl
    let reloc := ((s.launch k.launch).map (·.reloc)).getD []
    let idx := (t.pc - t.hdr).toNat / 8 - 1
    (t.faultsHere = true → exec (.clauseIssue b tl) s = .next (s.headerFault b tls t.fid)) ∧
    (t.faultsHere = false →
      (∀ h ws u, FetchesClause s k t.hdr h ws u →
        exec (.clauseIssue b tl) s = .next (if h.count < idx then u.headerTrap b tls 0x001 0 else
          match clauseCause h ws (u.blockFixed k) with
          | some c => u.headerTrap b tls c 0
          | none => u.openGroup b tls t.hdr h ws idx slot)) ∧
      (∀ c u, s.fetchWord k.core k.ctx reloc t.hdr = (some (.error c), u) →
        exec (.clauseIssue b tl) s = .next (u.headerTrap b tls c t.hdr)) ∧
      (∀ w u, s.fetchWord k.core k.ctx reloc t.hdr = (some (.ok w), u) → w.extractLsb' 60 4 ≠ 0b1010 →
        exec (.clauseIssue b tl) s = .next (u.headerTrap b tls 0x001 0)) ∧
      (∀ w v r u, s.fetchWord k.core k.ctx reloc t.hdr = (some (.ok w), v) → w.extractLsb' 60 4 = 0b1010 →
        v.fetchWords k.core k.ctx reloc (t.hdr + 8) (bits w.toNat 56 53 + 1) = (r, u) →
        (r = none → exec (.clauseIssue b tl) s = .next u) ∧
        (∀ c, r = some (.error c) → exec (.clauseIssue b tl) s = .next (u.headerTrap b tls c t.hdr)) ∧
        (∀ ws, r = some (.ok ws) → decodeHeader w = none → exec (.clauseIssue b tl) s = .next (u.headerTrap b tls 0x001 0))))) ∧
  (∀ (s : State) (k : Block), (∀ g ∈ s.readyGroups k, g ≠ [] ∧ g.length ≤ s.width k ∧ g.Pairwise (· < ·) ∧
      ∀ x ∈ g, x < k.threads.length ∧ s.canIssue k x = true ∧ ∀ y ∈ g, (k.thread x).fid = (k.thread y).fid ∧
        (k.thread x).pc = (k.thread y).pc ∧ (k.thread x).hdr = (k.thread y).hdr) ∧
    ∀ x < k.threads.length, s.canIssue k x = true → ∃ g ∈ s.readyGroups k, x ∈ g) ∧
  (∀ (s : State) (k : Block) (x : Nat) (w : DWord) (h : Header) (u : State),
    s.fetchWord k.core k.ctx (((s.launch k.launch).map (·.reloc)).getD []) (k.thread x).hdr = (some (.ok w), u) →
    w.extractLsb' 60 4 = 0b1010 → decodeHeader w = some h → (k.thread x).pendSf = none →
    (s.canIssue k x = true ↔ (k.thread x).status = .ready ∧ s.mayIssue k = true ∧ (k.thread x).fails.2 < 64 ∧
      (∀ o ∈ (k.thread x).ops, h.sbwait.getLsbD o.slot = false) ∧
      (h.stall = 0 ∨ (k.thread x).stallDone = true ∨ (k.thread x).clauseEnd + h.stall ≤ (s.quad k.core).cyc) ∧
      (Cls.waitsAcquire h.cls = true → (k.thread x).acquiring = false))) ∧
  (∀ (s : State) (k : Block) (x : Nat) (u : State), (k.thread x).pendSf = none →
    s.fetchWord k.core k.ctx (((s.launch k.launch).map (·.reloc)).getD []) (k.thread x).hdr = (none, u) → s.canIssue k x = false) ∧
  (∀ (s : State) (b tl : Nat), Instr.clauseIssue b tl ∈ s.issueEvents → ∃ k ∈ s.residents, ∃ g ∈ s.readyGroups k,
    k.id = b ∧ g.head? = some tl ∧ s.freeSlot k.core ≠ none ∧
      ∀ j ∈ s.residents, j.core = k.core → ∀ x ∈ s.readyGroups j, issuesBefore (j.rank x) (k.rank g) = false) ∧
  (∀ (s : State) (c : CoreRef) (n : Nat), s.freeSlot c = some n →
    n < 4 ∧ ∀ g k, Open.grp g ∈ s.opens → s.block g.blk = some k → k.core = c → g.slot ≠ n) ∧
  (∀ (u : State) (b slot : Nat) (k : Block) (tls : List Nat) (a : DWord) (h : Header) (ws : List DWord) (idx : Nat), u.block b = some k →
    tls.Nodup → (∀ x ∈ tls, x < k.threads.length) →
    let v := u.openGroup b tls a h ws idx slot
    (∃ g, v.opens = .grp g :: u.opens ∧ g.blk = b ∧ g.hdr = a ∧ g.head = h ∧ g.words = ws ∧ g.idx = idx ∧ g.slot = slot ∧
      g.lanes = tls.zipIdx.map fun p => (p.2, p.1)) ∧
    (∀ n x, lget tls n = some x → (v.thread b x).status = .issuing ∧ (v.thread b x).pos = n ∧ (v.thread b x).regs = (k.thread x).regs) ∧
    (∀ x, x ∉ tls → v.thread b x = u.thread b x) ∧ v.mem = u.mem) ∧
  (∀ (s : State) (b tl : Nat) (k : Block) (w : DWord) (u : State), s.block b = some k → (k.thread tl).status = .ready →
    (k.thread tl).stallDone = false →
    s.fetchWord k.core k.ctx (((s.launch k.launch).map (·.reloc)).getD []) (k.thread tl).hdr = (some (.ok w), u) →
    exec (.stallExpiry b tl) s = .next ((u.reachCyc (u.quadKeyOf k.core) ((k.thread tl).clauseEnd + w.toNat / 2 ^ 40 % 16)).modThread b tl
      fun t => { t with stallDone := true })) ∧
  (∀ (s : State) (b tl : Nat) (k : Block) (l : List (Nat × Nat)), s.block b = some k → (k.thread tl).status = .yielded l →
    exec (.yieldExpiry b tl) s = .next ((s.reachCyc (s.quadKeyOf k.core)
      ((k.thread tl).waitFrom + (256 - (k.thread tl).waitBase))).modBlock b fun k => k.unyield (k.thread tl).waitSeq)) ∧
  (∀ (k : Block) (q x : Nat),
    (∀ l, (k.thread x).status = .yielded l → (k.thread x).waitSeq = q → (k.unyield q).thread x = { k.thread x with status := .ready }) ∧
    ((∀ l, (k.thread x).status ≠ .yielded l) ∨ (k.thread x).waitSeq ≠ q → (k.unyield q).thread x = k.thread x)) ∧
  (∀ (s : State) (b tl : Nat) (k : Block), s.block b = some k → (k.thread tl).status = .descheduled →
    exec (.descheduleExpiry b tl) s = .next ((s.reachCyc (s.quadKeyOf k.core)
      ((k.thread tl).waitFrom + (65536 - (k.thread tl).waitBase))).modThread b tl fun t => { t with status := .ready, fails := (t.fails.1, 0) }))

/-- R118: the words of an outstanding operation land in its registers, or poison them, and they are guarded no longer. R87, R88, R250, R252: an
acquiring access that its home answered marks its granule when it succeeds, and counts when it fails. R251, R283: a boost notice raises the
boost that the holders of the granule take at their next clause boundary, and so does a new priority take effect. -/
def Obligations.SlotsLand : Prop :=
  (∀ (s : State) (b tl n : Nat) (k : Block) (o : SlotOp) (vs : List Word), s.block b = some k →
    (k.thread tl).ops.find? (fun o => o.id == n) = some o → o.val = some vs → o.poison = none → o.act = .none →
    exec (.slotLanding b tl n) s = .next ((s.reachDue (s.quadKeyOf k.core) o.due).modThread b tl fun t =>
      let u := (o.regs.zip vs).foldl (fun t p => t.setReg p.1 p.2) t
      { u with ops := u.ops.filter fun x => x.id != n })) ∧
  (∀ (s : State) (b tl n : Nat) (k : Block) (o : SlotOp) (vs : List Word) (r : Nat) (p : DWord), s.block b = some k →
    tl < k.threads.length → (k.thread tl).ops.find? (fun o => o.id == n) = some o → o.val = some vs → o.poison = some p → o.act = .none →
    r ∈ (o.regs.zip vs).map (·.1) → r < 255 →
    ∃ t, exec (.slotLanding b tl n) s = .next t ∧ ((tget (t.thread b tl).regs r).bind (·.poison)) = some p) ∧
  (∀ (s : State) (b tl n g v : Nat) (failed offDie offGroup atHome : Bool) (k : Block) (o : SlotOp) (vs : List Word), s.block b = some k →
    (k.thread tl).ops.find? (fun o => o.id == n) = some o → o.val = some vs →
    o.act = .acquire g v failed offDie offGroup atHome →
    let u := (s.reachDue (s.quadKeyOf k.core) o.due).modThread b tl fun t => t.landOp s.clock.free tl o vs
    exec (.slotLanding b tl n) s = .next ((if atHome then u.acquireInval k.core offDie offGroup else u).modThread b tl fun t =>
      t.acquired g v failed atHome)) ∧
  (∀ (t : Thread) (g v : Nat) (home : Bool), (t.acquired g v false true).mark = some g ∧ (t.acquired g v false false).mark = t.mark ∧
    (t.acquired g v false home).fails = (g, 0) ∧ (t.acquired g v true home).mark = t.mark ∧
    (t.acquired g v true home).fails = (g, if t.fails.1 = g then t.fails.2 + 1 else 1) ∧
    (t.mark ≠ some g → (t.acquired g v false true).boost = none ∧ (t.acquired g v false true).boostNew = none) ∧
    (∀ f, (t.acquired g v f home).regs = t.regs ∧ (t.acquired g v f home).heldVal = some (g, v))) ∧
  (∀ (s : State) (c : CoreRef) (g : Nat) (p : BitVec 7), ∃ t, exec (.boostNotice c g p) s = .next t ∧ t.mem = s.mem ∧
    t.notices = s.notices.erase (c, g, p) ∧
    (∀ b tl k, s.block b = some k → k.core = c → k.saved = false → k.relaunch = false → (k.thread tl).alive = true →
      tl < k.threads.length → (k.thread tl).mark = some g →
      ∃ x, (t.thread b tl).boostNew = some x ∧ p.toNat ≤ x.toNat ∧ (t.thread b tl).boost = (k.thread tl).boost) ∧
    (∀ b tl k, s.block b = some k → (k.core ≠ c ∨ (k.thread tl).mark ≠ some g) → t.thread b tl = k.thread tl)) ∧
  (∀ (t : Thread) (pos id : Nat) (next : DWord), (t.start pos next id).boost = t.boostNew.orElse (fun _ => t.boost) ∧
    (t.start pos next id).lprio = t.lprioNew.getD t.lprio)

/-! ### Homes -/

/-- R85, R86, R91, R92, R211, R250, R461: the home of a request performs it, and the lanes of one load or acquire on its bytes together, when
nothing stands before it, and not sooner; a release first waits for its core's write-backs, and a release or an acquire for the write-backs
that the recorded releaser owes. A release leaves its bytes at the home, its core in the record, and its core's next generation; an atomic
leaves its new value and lands the old one; an acquire lands the value and leaves its core as the holder, or, if it fails, its priority in the
record. (The order in which other cores' dirty bytes of a tracked granule follow a write is the model's choice: notes/assumptions/44.md.) -/
def Obligations.HomeOperations : Prop :=
  (∀ (s : State) (n : Nat) (q : HomeReq), Served s n .release q → Prepared s q →
    exec (.homeRelease n) s = .next (answered ((s.bunch q).foldl State.performRelease s) q)) ∧
  (∀ (s : State) (n : Nat) (q : HomeReq), Served s n .acquire q → Prepared s q →
    exec (.homeAcquire n) s = .next (answered ((s.bunch q).foldl State.performAcquire s) q)) ∧
  (∀ (s : State) (n : Nat) (q : HomeReq), Served s n .atomic q → Prepared s q →
    exec (.homeAtomic n) s = .next (answered ((s.bunch q).foldl State.performAtomic s) q)) ∧
  (∀ (s : State) (n : Nat) (q : HomeReq), Served s n .fill q → Prepared s q →
    exec (.homeFill n) s = .next (answered ((s.bunch q).foldl State.performFill s) q)) ∧
  (∀ c ∈ [(Instr.homeRelease, ReqKind.release), (.homeAcquire, .acquire), (.homeAtomic, .atomic), (.homeFill, .fill)],
    ∀ (s : State) (n : Nat) (q : HomeReq), s.findReq n c.2 = some q →
    ((∃ p ∈ s.bunch q, s.reqReady p = false ∨ p.stage.waits = true) → exec (c.1 n) s = .next s) ∧
    (Served s n c.2 q → q.rel = true → 2 ≤ q.scope → q.stage = .fresh → exec (c.1 n) s = .next
      ((s.fence (.req q.id) [q.core] fun g d => d.hostBias || d.gen == (s.core q.core).gen + 1 || g == granule q.pa).setStage q.id
        (.fenced s.nextId))) ∧
    (Served s n c.2 q → q.rel = true ∨ q.acq = true → 2 ≤ q.scope → (q.rel = true → q.stage ≠ .fresh) →
      s.needsDemand (granule q.pa) q.core = true → exec (c.1 n) s = .next (s.demand q.id (granule q.pa)))) ∧
  (∀ (s : State) (g : Nat) (c : CoreRef), s.needsDemand g c = true ↔
    (s.srec g).sv = true ∧ (s.srec g).fl = false ∧ ¬ ((s.srec g).rdie.toNat = c.die ∧ (s.srec g).rcore.toNat = c.num ∧ (s.srec g).rpkg = s.pkg)) ∧
  (∀ (s : State) (q p : HomeReq), p ∈ s.bunch q → p = q ∨ (p ∈ s.reqs ∧ p.ins = q.ins ∧ p.blk = q.blk ∧ p.kind = q.kind ∧ p.pa = q.pa ∧
    (q.kind = .acquire ∨ (q.kind = .fill ∧ q.op.isSome = true)))) ∧
  (∀ (s : State) (q : HomeReq), 2 ≤ q.scope → oneGranule q → ownOnly s q →
    let t := s.performRelease q
    let r := t.srec (granule q.pa)
    mread t.mem q.pa q.width = q.data % 2 ^ (8 * q.width) ∧ r.sv = true ∧ r.fl = false ∧ r.rpkg = s.pkg ∧
      r.rdie = BitVec.ofNat 4 q.core.die ∧ r.rcore = BitVec.ofNat 7 q.core.num ∧ r.rgen = (s.core q.core).gen ∧ r.bv = false ∧
      (t.core q.core).gen = (s.core q.core).gen + 1 ∧ ∀ a, a < q.pa ∨ q.pa + q.width ≤ a → mget t.mem a = mget s.mem a) ∧
  (∀ (s : State) (q : HomeReq), oneGranule q → ownOnly s q →
    let t := s.performAtomic q
    (∀ v, atomNew q.aop (8 * q.width) (mread s.mem q.pa q.width) q.data q.cmp = some v → mread t.mem q.pa q.width = v % 2 ^ (8 * q.width) ∧
      ∀ a, a < q.pa ∨ q.pa + q.width ≤ a → mget t.mem a = mget s.mem a) ∧
    (atomNew q.aop (8 * q.width) (mread s.mem q.pa q.width) q.data q.cmp = none → t.mem = s.mem)) ∧
  (∀ (s : State) (q : HomeReq) (o : Nat) (k : Block) (x : SlotOp), s.block q.blk = some k → q.tl < k.threads.length → q.op = some o →
    q.wofs = none → (k.thread q.tl).ops.find? (fun x => x.id == o) = some x →
    ∃ y, ((s.performAtomic q).thread q.blk q.tl).ops.find? (fun x => x.id == o) = some y ∧ y.regs = x.regs ∧
      y.poison = (if s.poisoned (granule q.pa) then some q.va else x.poison) ∧
      y.val = some (wordsOf (q.width / 4) (mread s.mem q.pa q.width))) ∧
  (∀ (s : State) (q : HomeReq) (o : Nat) (k : Block) (x : SlotOp), s.block q.blk = some k → q.tl < k.threads.length → q.op = some o →
    q.wofs = none → (k.thread q.tl).ops.find? (fun x => x.id == o) = some x →
    let t := s.performAcquire q
    let g := granule q.pa
    let r := s.srec g
    ∃ y v, (t.thread q.blk q.tl).ops.find? (fun x => x.id == o) = some y ∧ y.val = some (landWords q.width v false) ∧ t.mem = s.mem ∧
      ((k.thread q.tl).heldVal ≠ some (g, v) →
        t.srec g = { r with hdie := BitVec.ofNat 4 q.core.die, hcore := BitVec.ofNat 7 q.core.num, hpkg := s.pkg, holder := true }) ∧
      ((k.thread q.tl).heldVal = some (g, v) →
        t.srec g = if r.bv = true ∧ q.prio.toNat ≤ r.boost.toNat then r else { r with bv := true, boost := q.prio }))

/-! ### Write-backs, recalls, the host's memory accesses, sleeping banks -/

/-- R76, R77, R85, R86, R89, R90, R99, R443, R455, R459, R460, R465, R466, R480, R503, R516: a demanded or evicted line sets out for its home
with its bytes, a pinned one not; on its arrival its bytes are merged and it is dirty no longer; a fence without lines and requests is
acknowledged. A recall waits for a sweep, for the packages that wrote the granule and for a releaser in another package, and then leaves no
copy; a snoop and the host's accesses find and leave the newest bytes at the home; a sleeping bank and a changed L2 lose no dirty byte. -/
def Obligations.WriteBacks : Prop :=
  (∀ (s : State) (c : CoreRef) (g : BitVec 4), ∃ t, exec (.demandWriteBack c g) s = .next t ∧ t.mem = s.mem ∧
    (∀ n d, lineOf s c n = some d → lineOf t c n = some { d with wb := d.wb ||
      (decide (((s.core c).gen - g).toNat ≤ ((s.core c).gen - d.gen).toNat) && !s.movingFrame (n / 32)) }) ∧
    ∀ e n, coreKey e ≠ coreKey c → lineOf t e n = lineOf s e n) ∧
  (∀ (s : State) (c : CoreRef) (g : Nat),
    (∀ d, lineOf s c g = some d → d.wb = true → s.reachable (g * 128) = true → s.flitWaits 9 g = false →
      exec (.writeBackArrival c g) s = .next (s.arriveWb c g)) ∧
    ((∀ d, lineOf s c g = some d → d.wb = true → s.reachable (g * 128) = true → s.flitWaits 9 g = true) →
      exec (.writeBackArrival c g) s = .next s)) ∧
  (∀ (s : State) (c : CoreRef) (g : Nat) (d : DirtyLine), lineOf s c g = some d → goodLine d → (d.tracked = true → soleLine s c g) →
    let t := s.arriveWb c g
    lineOf t c g = none ∧ (∀ i < 128, mget t.mem (g * 128 + i) = (tget d.bytes i).getD (mget s.mem (g * 128 + i))) ∧
      (∀ a, granule a ≠ g → mget t.mem a = mget s.mem a) ∧ ∀ f ∈ t.fences, (c, g) ∉ f.lines) ∧
  (∀ (s : State) (n : Nat) (f : Fence), s.fences.find? (fun f => f.id == n) = some f →
    let done := f.lines = [] ∧ ∀ i ∈ f.reqs, ∀ q ∈ s.reqs, q.id ≠ i
    (done → exec (.writeBackAck n) s = .next (({ s with fences := s.fences.filter fun x => x.id != n }).ackFence f.who)) ∧
    (¬ done → exec (.writeBackAck n) s = .next s)) ∧
  (∀ (s : State) (n : Nat), s.ackFence (.req n) = s.setStage n .ready) ∧
  (∀ (s : State) (n g : Nat) (r : SyncRec), s.srec g = r → (s.ackFence (.demand n g r)).srec g = { r with fl := true }) ∧
  (∀ (s : State) (b tl sc : Nat) (k : Block), s.block b = some k → s.ackFence (.phase b tl sc) =
    (s.modThread b tl fun t => { t with phases := t.phases - 1 }).acquireInval k.core true (sc == 5)) ∧
  (∀ (s : State) (c : CoreRef) (g : Nat),
    let pinned := (∃ x, tget (s.core c).copies g = some x ∧ x.vc = 2) ∨ ∃ d, lineOf s c g = some d ∧ d.vc = 2
    (pinned → exec (.eviction c g) s = .next s) ∧
    (¬ pinned → ∃ t, exec (.eviction c g) s = .next t ∧ t.mem = s.mem ∧ tget (t.core c).copies g = none ∧
      (∀ d, lineOf s c g = some d → lineOf t c g = some { d with wb := true }) ∧ ∀ n ≠ g, lineOf t c n = lineOf s c n)) ∧
  (∀ (s : State) (g : Nat),
    let writers := (tget s.fab.remoteDirty g).getD []
    let owes := (s.srec g).sv = true ∧ (s.srec g).fl = false ∧ (s.srec g).rpkg ≠ s.pkg
    let waits := s.movingFrame (g / 32) = true ∨ s.granuleBusy g = true
    (waits → exec (.directoryRecall g) s = .next s) ∧
    (¬ waits → writers ≠ [] → exec (.directoryRecall g) s = .next (writers.foldl (fun s p => s.recallFrom p g) s)) ∧
    (¬ waits → writers = [] → owes → exec (.directoryRecall g) s = .next (s.demandFor (.recall g (s.srec g)) g)) ∧
    (¬ waits → writers = [] → ¬ owes → ∃ t, exec (.directoryRecall g) s = .next t ∧ t.srec g = {} ∧ cleanEverywhere t g ∧ uncached t g ∧
      (cleanEverywhere s g → (s.srec g).sv = false → t.mem = s.mem))) ∧
  (∀ (s : State) (pa : Nat) (inval : Option (List Byte)), ∃ t, exec (.hostSnoop pa inval) s = .next t ∧ cleanEverywhere t (granule pa) ∧
    (inval.isSome = true → uncached t (granule pa)) ∧
    ((∀ c ∈ s.cores, tget c.2.dirty (granule pa) = none) →
      let bs := inval.getD []
      let n := min bs.length (128 - pa % 128)
      (∀ i < n, mget t.mem (pa + i) = (lget bs i).getD 0) ∧ ∀ a, a < pa ∨ pa + n ≤ a → mget t.mem a = mget s.mem a)) ∧
  (∀ (s : State) (pa : Nat) (bs : List Byte),
    (s.dieMap.capacity < pa + max 1 bs.length → exec (.hostMemAccess pa bs) s = .next s) ∧
    (pa + max 1 bs.length ≤ s.dieMap.capacity → ∃ t, exec (.hostMemAccess pa bs) s = .next t ∧
      (∀ a, pa ≤ a → a < pa + bs.length → uncached t (granule a)) ∧
      ((∀ c ∈ s.cores, c.2.dirty = []) → mbytes t.mem pa bs.length = bs ∧
        ∀ a, (a < pa ∨ pa + bs.length ≤ a) → mget t.mem a = mget s.mem a))) ∧
  (∀ (s : State) (g : Nat) (p : BitVec 14),
    let hears := s.fab.en = true ∧ s.fab.fenced = false ∧ p ∉ s.fab.lost ∧ s.homePkg (g * 128) = s.pkg.toNat
    (¬ hears → exec (.dirtyNotice g p) s = .next s) ∧
    (hears → ∃ t, exec (.dirtyNotice g p) s = .next t ∧ (∃ l, tget t.fab.remoteDirty g = some l ∧ p ∈ l) ∧ t.mem = s.mem ∧
      t.fab.sent = (11, p.toNat, g) :: s.fab.sent ∧ t.fab.out = s.fab.out ++ [(11, p.toNat, g)])) ∧
  (∀ (s : State) (die bank : Nat),
    let may := s.bankBusy die bank = false ∧ (die, bank) ∉ s.asleep ∧
      (s.dieMap.isSd die = true ∨ s.dieMap.nsd + s.dieMap.ngd ≤ die)
    (¬ may → exec (.bankSleep die bank) s = .next s) ∧
    (may → ∃ t, exec (.bankSleep die bank) s = .next t ∧ t.asleep = s.asleep ++ [(die, bank)] ∧ t.mem = s.mem ∧
      ∀ c g, (lineOf s c g).isSome = (lineOf t c g).isSome)) ∧
  (∀ (s : State) (die : Nat),
    (s.dieMap.isSd die = false ∨ (s.diePower die).dected = true → exec (.l2DectedSwitch die) s = .next s) ∧
    (s.dieMap.isSd die = true → (s.diePower die).dected = false →
      ∃ t, exec (.l2DectedSwitch die) s = .next t ∧ (t.diePower die).dected = true ∧ t.mem = s.mem ∧
        600 ≤ (t.diePower die).vnow.toNat ∧ (t.diePower die).vnow.toNat ≤ 800 ∧
        ∀ c g, (lineOf s c g).isSome = (lineOf t c g).isSome)) ∧
  (∀ (s : State) (die : Nat), ((s.diePower die).dected = false → exec (.way7ReturnToVc1 die) s = .next s) ∧
    ((s.diePower die).dected = true → ∃ t, exec (.way7ReturnToVc1 die) s = .next t ∧ (t.diePower die).dected = false ∧ t.mem = s.mem ∧
      ((s.diePower die).vdt.toNat < 4095 → (t.diePower die).vdt.toNat < (t.diePower die).vnow.toNat)))

/-! ### The memory-cache engine -/

/-- R447, R450 to R455, R457, R462: a command is performed when no earlier one to its index stands before it, and its status lands: 2 while a
window or a flush is open, 3 for an index already defined, 4 for one not defined, 1 for shares that cannot be granted; shares granted are
free ones, as many as asked. A new size or place opens a window, which ends when every page of the old map has been swept: one page at a time
is marked, and its mark is cleared once the accesses translated before have been performed. A flush ends when its write-backs have arrived. A
bias flip marks its page, lands 5 where it changes nothing or must not, and ends by the demands of R89 and by writing back and dropping every
copy of its page. -/
def Obligations.CacheEngine : Prop :=
  (∀ (s : State) (n i : Nat) (c : VcPending), VcFound s n c → toIndex c.cmd = some i → c.window = false → s.vcBefore c i = true →
    exec (.vcCommandLanding n) s = .next s) ∧
  (∀ (s : State) (n i : Nat) (c : VcPending) (w0 w1 : DWord), VcFound s n c → c.cmd = .define i w0 w1 → s.vcBefore c i = false →
    let held := llHeld (s.vcEntry c.ctx i).shares
    exec (.vcCommandLanding n) s = .next (if s.vcWindow c.ctx i = true ∨ s.vcFlushing c.ctx i = true then s.landVc c 2 held
      else if (s.vcEntry c.ctx i).v = true then s.landVc c 3 held
      else match s.grant c.ctx i w0.toNat w1.toNat with
        | none => s.landVc c 1 held
        | some sh => (s.putVc c.ctx i ⟨true, w0, w1, false, 0, sh, none⟩).landVc c 0
            (llHeld ((s.putVc c.ctx i ⟨true, w0, w1, false, 0, sh, none⟩).vcEntry c.ctx i).shares))) ∧
  (∀ (s : State) (n i : Nat) (c : VcPending) (w0 w1 : DWord), VcFound s n c →
    ((∃ l2 ll, c.cmd = .resize i l2 ll ∧ w0 = cdrWithCounts (s.vcEntry c.ctx i).w0.toNat l2 ll ∧ w1 = (s.vcEntry c.ctx i).w1) ∨
      ∃ far, c.cmd = .move i w1 far ∧ w0 = cdrWithFar (s.vcEntry c.ctx i).w0.toNat far) →
    (c.window = false → s.vcBefore c i = false →
      exec (.vcCommandLanding n) s = .next (if s.vcWindow c.ctx i = true ∨ s.vcFlushing c.ctx i = true then s.landVc c 2 0
        else if (s.vcEntry c.ctx i).v = false then s.landVc c 4 0
        else match s.grant c.ctx i w0.toNat w1.toNat with
          | none => s.landVc c 1 0
          | some sh => ((s.agedLines c.ctx i).putVc c.ctx i { s.vcEntry c.ctx i with
              w0 := w0, w1 := w1, shares := sh, old := some (s.vcEntry c.ctx i).shares }).setCmd
              { c with window := true, left := s.vcPages c.ctx i })) ∧
    (c.window = true → c.left ≠ [] → exec (.vcCommandLanding n) s = .next s) ∧
    (c.window = true → c.left = [] → exec (.vcCommandLanding n) s =
      .next ((s.putVc c.ctx i { s.vcEntry c.ctx i with old := none }).landVc c 0 (llHeld (s.vcEntry c.ctx i).shares)))) ∧
  (∀ (s : State) (ctx i w0 w1 : Nat) (sh : List Share), s.grant ctx i w0 w1 = some sh →
    (∀ x ∈ sh, x ∉ s.usedShares ctx i ∧ x.2.2.2 < 7) ∧ (sh.filter fun x => !x.1).length = cdrLl w0) ∧
  (∀ (s : State) (n i op : Nat) (c : VcPending), VcFound s n c → c.cmd = .flush i op →
    (c.window = true → exec (.vcCommandLanding n) s = .next s) ∧
    (c.window = false → s.vcBefore c i = false →
      exec (.vcCommandLanding n) s = .next (if s.vcFlushing c.ctx i = true ∨ (op = 2 ∧ s.vcWindow c.ctx i = true) then s.landVc c 2 0
        else if (s.vcEntry c.ctx i).v = false then s.landVc c 4 0 else (s.vcFence c i op).setCmd { c with window := true })) ∧
    (op ≠ 2 → s.ackFence (.vc n) =
      (if 1 ≤ op then s.dropCopies fun _ x => x.ctx == c.ctx && x.vc == i else s).landVc c 0 (llHeld (s.vcEntry c.ctx i).shares)) ∧
    (op = 2 → s.vcBuffered c.ctx i = [] → s.vcRequests c.ctx i = [] →
      (∀ x ∈ s.cores, ∀ d ∈ x.2.dirty, ¬ (d.2.ctx = c.ctx ∧ d.2.vc = i)) → s.ackFence (.vc n) =
      ((s.dropCopies fun _ x => x.ctx == c.ctx && x.vc == i).putVc c.ctx i { s.vcEntry c.ctx i with
        v := false, w0 := cdrWithCounts (s.vcEntry c.ctx i).w0.toNat 0 0, shares := [] }).landVc c 0 0)) ∧
  (∀ (s : State) (c : VcPending) (st count : Nat) (k : Block) (o : SlotOp), s.block c.blk = some k → c.tl < k.threads.length →
    (k.thread c.tl).ops.find? (fun o => o.id == c.op) = some o →
    (∃ x, ((s.landVc c st count).thread c.blk c.tl).ops.find? (fun o => o.id == c.op) = some x ∧ x.val = some [vcWord st count]) ∧
      ∀ x ∈ (s.landVc c st count).vcCmds, x.id ≠ c.id) ∧
  (∀ (s : State) (x i : Nat) (c : VcPending) (page : Nat × Nat) (rest : List (Nat × Nat)),
    s.vcCmds.find? (fun c => c.ctx == x && c.window && (match c.cmd with
      | .resize j _ _ => j == i
      | .move j _ _ => j == i
      | _ => false)) = some c → c.left = page :: rest →
    (page ∉ s.moving → s.movingFrame page.1 = true → exec (.pageMoveSweepStep x i page.1) s = .next s) ∧
    (page ∉ s.moving → s.movingFrame page.1 = false →
      exec (.pageMoveSweepStep x i page.1) s = .next { s with moving := s.moving ++ [page] }) ∧
    (page ∈ s.moving → s.pendingOn page.1 page.2 = true → exec (.pageMoveSweepStep x i page.1) s = .next s) ∧
    (page ∈ s.moving → s.pendingOn page.1 page.2 = false →
      exec (.pageMoveSweepStep x i page.1) s =
        .next (({ s.moveLines x i page with moving := s.moving.filter (· != page) } : State).setCmd { c with left := rest }) ∧
      (s.moveLines x i page).mem = s.mem)) ∧
  (∀ (s : State) (n fr m : Nat) (c : VcPending) (va : DWord) (host : Bool), VcFound s n c → c.cmd = .bias va host false fr m →
    (s.ctx c.ctx = none → exec (.vcCommandLanding n) s = .next (s.landVc c 5 0)) ∧
    (∀ x, s.ctx c.ctx = some x → (∀ e, walkFrom s.mem c.ctx (va.toNat % 2 ^ 56) 4 x.ptroot ≠ .ok e) →
      exec (.vcCommandLanding n) s = .next (s.landVc c 5 0)) ∧
    (∀ x e, s.ctx c.ctx = some x → walkFrom s.mem c.ctx (va.toNat % 2 ^ 56) 4 x.ptroot = .ok e →
      let base := e.frame - e.vpn % e.pages
      let hostMem := (e.frame * 4096).testBit 50 = true ∧ (e.frame * 4096).testBit 51 = false
      exec (.vcCommandLanding n) s = .next (if e.hb ≠ host ∨ (host = false ∧ hostMem) then s.landVc c 5 0
        else if s.movingFrame e.frame = true then s.setCmd { c with cmd := .bias va host false fr m }
        else ({ s with moving := s.moving ++ [(base, e.pages)] } : State).setCmd { c with cmd := .bias va host true base e.pages }))) ∧
  (∀ (s : State) (n fr m : Nat) (c : VcPending) (va : DWord) (host : Bool), VcFound s n c → c.cmd = .bias va host true fr m →
    (s.pendingOn fr m = true ∨ s.flipDemanded fr m = true → exec (.biasflipComplete n) s = .next s) ∧
    (s.pendingOn fr m = false → s.flipDemanded fr m = false → host = true → s.farOwed fr m ≠ [] →
      exec (.biasflipComplete n) s = .next ((s.farOwed fr m).foldl (fun s p => s.demandFor (.flip p.1 p.2) p.1) s)) ∧
    (s.pendingOn fr m = false → s.flipDemanded fr m = false → (host = true → s.farOwed fr m = []) →
      ∃ u : State, let t := u.landVc c 0 (if host then (s.wbFrames fr m).1.length else 0)
        exec (.biasflipComplete n) s = .next t ∧ (fr, m) ∉ t.moving ∧ (host = false → t.mem = s.mem ∧ t.sync = s.sync) ∧
        (∀ g, fr ≤ g / 32 → g / 32 < fr + m → uncached t g ∧ (host = true → cleanEverywhere t g ∧ t.srec g = {})) ∧
        ∀ e, ∀ b ∈ (t.core e).tlb, ¬ (b.page < fr + m ∧ fr < b.page + b.pages)))

/-! ### Launches -/

/-- R279 to R282: LAUNCH reads its record, and with .replay its patch, submits it, and lands the submission's number; a queue that does
not exist answers 0xFFFFFFFE and a full one 0xFFFFFFFF; a record or patch that cannot be read stops the lane as its checks say. Launches that
wait go on when they can, and the head that goes before every other is taken; the first failing check of R280 refuses it, in order: its
record, its priority, its dependences, its image, its place; then its leases, for which it waits, its routes and its bindings; then it runs,
its pages pinned. R523: a reread TAIL is the descriptor's. -/
def Obligations.LaunchesAreChecked : Prop :=
  (∀ f : FA, f.md.getLsbD 0 = false → Completes (.launch f) f.pred f.pneg (some f.sbs.toNat)
    (fun e s => ∃ bs, (e.readSpan s (e.r64 f.a) 128).1 = .ok bs)
    (fun e s => let r := e.readSpan s (e.r64 f.a) 128
      submits e r.2 f (readOf r.1) none)) ∧
  (∀ f : FA, f.md.getLsbD 0 = true → Completes (.launch f) f.pred f.pneg (some f.sbs.toNat)
    (fun e s => ∃ bs ps, (e.readSpan s (e.r64 f.a) 128).1 = .ok bs ∧ (patchBytes bs ≠ 0 →
      (e.readSpan (e.readSpan s (e.r64 f.a) 128).2 (e.r64 f.c) (patchBytes bs)).1 = .ok ps))
    (fun e s => let r := e.readSpan s (e.r64 f.a) 128
      let n := patchBytes (readOf r.1)
      if n = 0 then submits e r.2 f (readOf r.1) (some [])
      else let p := e.readSpan r.2 (e.r64 f.c) n
        submits e p.2 f (readOf r.1) (some (readOf p.1)))) ∧
  (∀ f : FA, StopsOne (.launch f) f.pred f.pneg (some f.sbs.toNat) (fun e s => ∃ st, (e.readSpan s (e.r64 f.a) 128).1 = .error st)
    (fun e s => errOf (e.readSpan s (e.r64 f.a) 128).1) (fun e s => (e.readSpan s (e.r64 f.a) 128).2)) ∧
  (∀ f : FA, f.md.getLsbD 0 = true → StopsOne (.launch f) f.pred f.pneg (some f.sbs.toNat)
    (fun e s => ∃ bs st, (e.readSpan s (e.r64 f.a) 128).1 = .ok bs ∧ patchBytes bs ≠ 0 ∧
      (e.readSpan (e.readSpan s (e.r64 f.a) 128).2 (e.r64 f.c) (patchBytes bs)).1 = .error st)
    (fun e s => let r := e.readSpan s (e.r64 f.a) 128
      errOf (e.readSpan r.2 (e.r64 f.c) (patchBytes (readOf r.1))).1)
    (fun e s => let r := e.readSpan s (e.r64 f.a) 128
      (e.readSpan r.2 (e.r64 f.c) (patchBytes (readOf r.1))).2)) ∧
  (∀ (e : Env) (s : State) (a : DWord) (n : Nat), a.toNat / 2 ^ 56 = 1 ∨ a.toNat / 2 ^ 56 = 2 →
    e.readSpan s a n = (.error (.trap 0x081 0 a false false), s)) ∧
  (∀ (e : Env) (s : State) (q : Nat) (bs : List Byte) (p : Option (List Byte)) (a : DWord), 64 ≤ q →
    e.submit s q bs p a = (0xFFFFFFFE, s)) ∧
  (∀ (e : Env) (s : State) (q : Nat) (bs : List Byte) (p : Option (List Byte)) (a : DWord), q < 64 →
    256 ≤ (s.queue e.k.ctx q).entries.length → e.submit s q bs p a = (0xFFFFFFFF, s)) ∧
  (∀ (e : Env) (s : State) (q : Nat) (bs : List Byte) (p : Option (List Byte)) (a : DWord) (c : Ctx), q < 64 →
    s.ctx e.k.ctx = some c → (s.queue e.k.ctx q).entries.length < 256 →
    let r := e.submit s q bs p a
    r.1 = (s.queue e.k.ctx q).next ∧
      (r.2.queue e.k.ctx q).next = (if (s.queue e.k.ctx q).next = 0xFFFFFFEF then 0 else (s.queue e.k.ctx q).next + 1) ∧
      (∃ x, (r.2.queue e.k.ctx q).entries = (s.queue e.k.ctx q).entries ++ [x] ∧ x.num = r.1 ∧ x.record = leVal bs ∧ x.patch = p ∧
        x.recAddr = a) ∧ tget (r.2.queue e.k.ctx q).ended r.1.toNat = none ∧ r.2.mem = s.mem) ∧
  (∀ (s : State) (c q : Nat),
    let u := triedAgain s c q
    (∀ x e, u.ctx c = some x → (u.queue c q).entries.head? = some e → u.headFirst c q = true →
      exec (.launchHead c q) s = .next (u.takeHead c q e (protOf x q) x.priomax)) ∧
    (u.ctx c = none ∨ (u.queue c q).entries = [] ∨ u.headFirst c q = false → exec (.launchHead c q) s = .next u)) ∧
  (∀ (s : State) (c q : Nat), s.headFirst c q = true ↔ ∃ p n, s.headReady c q = some (p, n) ∧
    ∀ y ∈ s.contenders, y.1 < p ∨ (y.1 = p ∧ n ≤ y.2)) ∧
  (∀ (s : State) (c q pm : Nat) (e : Submission) (prot : Bool),
    let u := taken s c q e prot
    let r : LRec := ⟨e.record⟩
    let bad := launchBad e r (u.dirEntries c r.image)
    (∀ i, bad = some i → s.takeHead c q e prot pm = u.refuse s.nextId 0x300 i) ∧
    (bad = none → pm < r.prio → s.takeHead c q e prot pm = u.refuse s.nextId 0x308 0) ∧
    (bad = none → r.prio ≤ pm → u.depOf c r = .fail → s.takeHead c q e prot pm = u.refuse s.nextId 0x307 0) ∧
    (bad = none → r.prio ≤ pm → u.depOf c r ≠ .fail →
      (∀ x, loads u c r = .error x → s.takeHead c q e prot pm = u.refuse s.nextId 0x305 x) ∧
      ∀ ld, loads u c r = .ok ld → u.placeCause r ld (runsOf u c r).1 ≠ 0 →
        s.takeHead c q e prot pm = u.refuse s.nextId (u.placeCause r ld (runsOf u c r).1) 0)) ∧
  (∀ (e : Submission) (r : LRec) (ds : Option (List DirEnt)), e.recAddr.toNat % 128 ≠ 0 ∨ r.w 0 / 2 ^ 48 % 32 ≠ 0 ∨ r.w 0 % 256 ≠ 0 ∨
    r.rows = 0 ∨ r.cols = 0 ∨ 2 ≤ r.kind ∨ 8 < r.argn → launchBad e r ds = some 0) ∧
  (∀ (s : State) (l : Nat) (x : Launch) (cause detail : Nat), s.launch l = some x →
    (s.refuse l cause detail).launch l = some { x with cause := cause, outState := 2, detail := detail, state := .ended }) ∧
  (∀ (s : State) (l : Launch), l.state = .resident → l.awaits = none →
    (∀ b n i, s.firstMissing l = some (b, n, i) → (∀ c, s.ctx l.ctx = some c → c.rring = 0) → s.startLaunch l = s.refuse l.id 0x306 i) ∧
    (∀ b n i c, s.firstMissing l = some (b, n, i) → s.ctx l.ctx = some c → c.rring ≠ 0 → s.startLaunch l =
      (s.modLaunch l.id fun x => { x with awaits := some (b, n) }).requestRes l.ctx ⟨none, b, n, l.queue, l.sub, i⟩) ∧
    (s.firstMissing l = none → s.mustWait l = true ∨ s.goesFirst l.prio.toNat l.seq = false → s.startLaunch l = s) ∧
    (s.firstMissing l = none → s.mustWait l = false → s.goesFirst l.prio.toNat l.seq = true →
      (s.routeLost l = true → s.startLaunch l = s.refuse l.id 0x303 0) ∧
      ∀ i u, s.routeLost l = false → s.bindVcs l l.bindings = (some i, u) → s.startLaunch l = u.refuse l.id 0x093 i)) ∧
  (∀ (s u : State) (l : Launch), Startable s l u → l.stageK = [] → s.startLaunch l =
    (u.modLaunch l.id fun x => { x with state := .running, started := u.clock.ns, coreStage := [], stages := [] }).pinLeases l) ∧
  (∀ (s u : State) (l x : Launch), Startable s l u → u.launch l.id = some x → ∃ y, (s.startLaunch l).launch l.id = some y ∧
    y.state = .running ∧ y.started = u.clock.ns) ∧
  (∀ (s : State) (c q : Nat), (∀ d h t, (s.queue c q).ring = some (d, h, t) →
      exec (.tailReread c q) s = .next (s.setQueue c q { s.queue c q with ring := some (d, h, mread s.mem (d + 128) 4) })) ∧
    ((s.queue c q).ring = none → exec (.tailReread c q) s = .next s))

/-- R54 to R56, R276: a block is placed on a core of its launch's rectangle that can hold it; its threads begin at the entry with the
launch's arguments. A cooperative launch places all its blocks at once; a launch none of whose blocks has been placed is refused with 0x303
when a core of its routes is lost. R277, R278: the completion record tells the outcome, and its last word counts one more. R285: a pipeline
moves one core at most. -/
def Obligations.BlocksAndRecords : Prop :=
  (∀ (s : State) (n : Nat) (l : Launch), s.launch n = some l →
    let runs := l.state = .running ∧ l.outState = 0
    let lost := l.placed = 0 ∧ s.routeLost l = true
    (¬ runs → exec (.blockPlace n) s = .next s) ∧
    (runs → lost → exec (.blockPlace n) s = .next (s.refuse l.id 0x303 0)) ∧
    (runs → ¬ lost → l.coop = false → s.choices l = [] → exec (.blockPlace n) s = .next s) ∧
    (runs → ¬ lost → l.coop = false → s.choices l ≠ [] →
      ∃ p ∈ s.choices l, exec (.blockPlace n) s = .next (s.useFree.startBlock l p.1 p.2)) ∧
    (∀ k, runs → ¬ lost → l.coop = true → lget l.kernels l.kidx = some k →
      let plan := coopPlan l (s.rectOf l)
      (l.placed ≠ 0 ∨ s.coopFits l k plan = false → exec (.blockPlace n) s = .next s) ∧
      (l.placed = 0 → s.coopFits l k plan = true →
        exec (.blockPlace n) s = .next (plan.foldl (fun u p => match u.launch l.id with
          | some x => u.startBlock x p.1 p.2
          | none => u) s)))) ∧
  (∀ (s : State) (l : Launch) (k : Kernel), l.stageK = [] → lget l.kernels l.kidx = some k → ∀ p ∈ s.choices l,
    p.2 ∈ s.rectOf l ∧ s.coreOpen p.2 (s.launchFixed l) k.samp k.pair = true ∧ p.1.num = l.placed ∧ p.1.kernel = l.kidx ∧ l.placed < l.nblk ∧
      ((s.onCore p.2).map Block.sram).sum + k.sram ≤ 458752 ∧ ((s.onCore p.2).map Block.regBytes).sum + k.regBytes ≤ 262144 ∧
      (s.onCore p.2).length < 16 ∧ ((s.onCore p.2).map Block.nthreads).sum + k.threads ≤ 2048) ∧
  (∀ (s : State) (c : CoreRef) (fixed samp pair : Bool), s.coreOpen c fixed samp pair = true → s.coreUsable c = true ∧ (s.core c).drain = 0 ∧
    s.quadDown c = false ∧ (fixed = true → (s.quad c).pass = 0) ∧
    (samp = true → (s.dieMap.word c.die 3).testBit (s.dieMap.quad c) = true) ∧ (pair = true → s.coreUsable (CoreRef.partner c) = true)) ∧
  (∀ (s : State) (l : Launch) (st : Start) (c : CoreRef) (k : Kernel), lget l.kernels st.kernel = some k →
    ∃ b, (s.startBlock l st c).blocks = s.blocks ++ [b] ∧ b.id = s.nextId ∧ b.launch = l.id ∧ b.ctx = l.ctx ∧ b.core = c ∧
      b.num = st.num ∧ b.threads.length = k.nx * k.ny * k.nz ∧ ∀ t ∈ b.threads, t.status = .ready ∧ t.pc = k.entry ∧ t.hdr = k.entry ∧
        t.preds = 0 ∧ t.ops = [] ∧ t.lprio = l.prio ∧ (∀ i, (tget t.regs i).map (·.val) = lget l.args i)) ∧
  (∀ (s : State) (n : Nat), (∀ l, s.launch n = some l → l.state ≠ .ended) → exec (.completionRecord n) s = .next s) ∧
  (∀ (s : State) (n : Nat) (l : Launch) (c : Ctx), s.launch n = some l → l.state = .ended → s.ctx l.ctx = some c →
    ∃ t, exec (.completionRecord n) s = .next t ∧ t.launch n = none ∧ tget (t.queue l.ctx l.queue).ended l.sub = some l.outState ∧
      ∀ pa, s.vtrans l.ctx l.cplptr.toNat = some pa → pa % 64 = 0 → quiet s → l.cause < 2 ^ 10 → l.outState < 4 →
        ((s.srec (granule pa)).sv = true → (s.srec (granule pa)).fl = true ∨ (s.srec (granule pa)).rpkg = s.pkg) →
        (s.agentWrite pa (recordBytes s l) true).vtrans l.ctx (l.cplptr.toNat + 56) = some (pa + 56) →
        mread t.mem pa 8 = l.cause * 2 ^ 54 + l.outState * 2 ^ 52 + l.detail % 2 ^ 32 ∧
        mread t.mem (pa + 40) 8 = s.clock.ns % 2 ^ 64 ∧ mread t.mem (pa + 56) 8 = (mread s.mem (pa + 56) 8 + 1) % 2 ^ 64 ∧
        (t.srec (granule pa)).sv = true ∧ (t.srec (granule pa)).fl = true) ∧
  (∀ (s : State) (n : Nat), (∀ l, s.launch n = some l → l.stageK = [] ∨ l.state ≠ .running) → exec (.pipelineEvaluation n) s = .next s) ∧
  (∀ (s : State) (n : Nat) (l : Launch), s.launch n = some l → l.stageK ≠ [] → l.state = .running →
    ∃ t x, exec (.pipelineEvaluation n) s = .next t ∧ t.launch n = some x ∧ t.blocks = s.blocks ∧ t.mem = s.mem ∧
      (∀ y, y ∈ x.prevHigh ↔ 1 ≤ y ∧ y ≤ l.stageK.length ∧ 3 * (l.occupancy y).2 ≤ 4 * (l.occupancy y).1) ∧
      (x.coreNext = l.coreNext ∨ ∃ k y, x.coreNext = tput l.coreNext k y ∧ y ∈ l.prevHigh ∧ y ∈ x.prevHigh))

/-! ### Pre-emption, saving, restoring -/

/-- R296, R298, R300, R348: a drain begins on the victim's core, and on the partner's while both are half of a live pair, if the context's
save area has room; after GRACE the sequencers of its blocks stop; when nothing of them issues or lands any more they are saved, engine
operations that are still in flight after T_drain being captured, and the context's copies leave the core. A saved block keeps its threads,
registers, memory and uncommitted stores; it is restored as it was, onto a core that can hold it, with its mate if it was half of a pair, a
fixed-timing block only onto a quad on the pinned clock. R494: a rolled-back block begins again. R295, R300: the clock of a quad changes,
and a quad is gated, only while no clause issues on it and, for the gate, its claim bit is clear. -/
def Obligations.SavesAndRestores : Prop :=
  (∀ (s : State) (c : CoreRef), s.victim c = none → exec (.preempt c) s = .next s) ∧
  (∀ (s : State) (c : CoreRef) (l : Nat), s.victim c = some l →
    let cs := s.saveCores c
    let need := (((cs.map fun x => (s.onCore x).filter fun k => k.launch == l).flatten).map fun k => s.saveNeed k).sum
    let room := s.saveRoom (((s.launch l).map (·.ctx)).getD 0)
    ((∀ x ∈ cs, (s.core x).drain = 0) → need ≤ room → ∃ t, exec (.preempt c) s = .next t ∧ t.blocks = s.blocks ∧ t.mem = s.mem ∧
      ∀ x ∈ cs, t.core x = { s.core x with drain := 1, drainLaunch := l, drainFrom := s.clock.ns, drainAge := none }) ∧
    ((∃ x ∈ cs, (s.core x).drain ≠ 0) ∨ room < need → exec (.preempt c) s = .next s)) ∧
  (∀ (s : State) (c : CoreRef), s.saveCores c = if s.pairLive c then [c, CoreRef.partner c] else [c]) ∧
  (∀ (s : State) (c : CoreRef) (l : Nat), s.victim c = some l → ∃ x, s.launch l = some x ∧
    ∀ k ∈ s.onCore c, ∀ y, s.launch k.launch = some y → x.prio.toNat ≤ y.prio.toNat) ∧
  (∀ (s : State) (c : CoreRef), (s.core c).drain = 1 → ∃ t, exec (.graceExpiry c) s = .next t ∧
    t.core c = { s.core c with drain := 2 } ∧ (s.core c).drainFrom + s.graceOf (s.core c).drainLaunch ≤ t.clock.ns ∧ t.blocks = s.blocks) ∧
  (∀ (s : State) (c : CoreRef), (s.core c).drain ≠ 1 → exec (.graceExpiry c) s = .next s) ∧
  (∀ (s : State) (c : CoreRef),
    let cs := s.saveCores c
    let ks := (cs.map fun x => s.victims x).flatten
    ((∀ x ∈ c :: cs, (s.core x).drain = 2) → (∀ k ∈ ks, s.canSave k = true) →
      ((∀ o ∈ s.engs, ∀ k ∈ ks, o.blk ≠ k.id) → exec (.engineDrainExpiry c) s = .next (s.saveAll cs)) ∧
      ((∃ o ∈ s.engs, ∃ k ∈ ks, o.blk = k.id) → exec (.engineDrainExpiry c) s =
        .next ((s.reachNs ((s.core c).drainFrom + s.graceOf (s.core c).drainLaunch + 20000)).saveAll cs))) ∧
    ((∃ x ∈ c :: cs, (s.core x).drain ≠ 2) ∨ (∃ k ∈ ks, s.canSave k = false) → exec (.engineDrainExpiry c) s = .next s)) ∧
  (∀ (s : State) (k : Block), s.block k.id = some k → ∃ x, (s.saveBlock k).block k.id = some x ∧ x.saved = true ∧ x.lmem = k.lmem ∧
    x.threads.length = k.threads.length ∧ x.sbuf = k.sbuf ∧ x.sfq = k.sfq ∧ x.seqs = s.ownSeqs k ∧ (s.saveBlock k).mem = s.mem ∧
    x.mats = (s.ownRes k).map (fun r => (r.1, savedMat (s.core (k.coreAt r.1)) r.2)) ∧
    x.conts = (s.engs.filter fun o => o.blk == k.id).map EngOp.contRec ∧
    (∀ o ∈ (s.saveBlock k).engs, o.blk = k.id → o.saved = true ∧ o.started = false) ∧
    ∀ n t, lget k.threads n = some t → ∃ u, lget x.threads n = some u ∧ u.regs = t.regs ∧ u.preds = t.preds ∧ u.pc = t.pc ∧
      u.status = t.status ∧ u.pmem = t.pmem ∧ u.bars = t.bars) ∧
  (∀ (s : State) (c : CoreRef) (x : Nat), ∀ p ∈ ((s.flushCore c x).core c).copies, p.2.ctx ≠ x) ∧
  (∀ (s : State) (b : Nat) (c : CoreRef), (∀ k, s.block b = some k → k.saved = false ∨ s.canRestore k c = false) →
    exec (.blockRestore b c) s = .next s) ∧
  (∀ (s : State) (b : Nat) (c : CoreRef) (k : Block), s.block b = some k → k.saved = true → s.canRestore k c = true →
    let key := s.quadKeyOf c
    (s.blockFixed k = true → (s.quadAt key).clock ≠ .pinned →
      exec (.blockRestore b c) s = .next (s.setQuad key ((s.quadAt key).dispatch true))) ∧
    (s.blockFixed k = false ∨ (s.quadAt key).clock = .pinned →
      (s.savedMate k = none → exec (.blockRestore b c) s = .next ((s.restoreOn k c).rewake b)) ∧
      (∀ m, s.savedMate k = some m → s.canRestore m (CoreRef.partner c) = true →
        exec (.blockRestore b c) s = .next ((((s.restoreOn k c).restoreOn m (CoreRef.partner c)).rewake b).rewake m.id)) ∧
      (∀ m, s.savedMate k = some m → s.canRestore m (CoreRef.partner c) = false → exec (.blockRestore b c) s = .next s))) ∧
  (∀ (s : State) (k : Block) (c : CoreRef), s.canRestore k c = true → ∃ l, s.launch k.launch = some l ∧ c ∈ s.rectOf l ∧
    s.coreUsable c = true ∧ (s.core c).drain = 0 ∧ (s.launchFixed l = true → (s.quad c).pass = 0) ∧
    ((s.onCore c).map Block.sram).sum + k.sram ≤ 458752 ∧ ((s.onCore c).map Block.regBytes).sum + k.regBytes ≤ 262144 ∧
    (s.onCore c).length < 16 ∧ ((s.onCore c).map Block.nthreads).sum + k.nthreads ≤ 2048) ∧
  (∀ (s : State) (k : Block) (c : CoreRef), s.block k.id = some k → ∃ x, (s.restoreOn k c).block k.id = some x ∧ x.saved = false ∧
    x.core = c ∧ x.lmem = k.lmem ∧ x.sbuf = k.sbuf ∧ (s.restoreOn k c).mem = s.mem ∧
    (∀ o ∈ (s.restoreOn k c).engs, o.blk = k.id → o.saved = false) ∧
    ∀ n t, lget k.threads n = some t → ∃ u, lget x.threads n = some u ∧ u.regs = t.regs ∧ u.preds = t.preds ∧ u.pc = t.pc ∧
      u.pmem = t.pmem ∧ (u.status = t.status ∨ ∃ p a, t.status = .parked p a ∧ u.status = .ready)) ∧
  (∀ (s : State) (b : Nat) (c : CoreRef) (k : Block), s.block b = some k → s.canRelaunch k c = true →
    exec (.blockRelaunch b c) s = .next (s.relaunch k c)) ∧
  (∀ (s : State) (b : Nat) (c : CoreRef), (∀ k, s.block b = some k → s.canRelaunch k c = false) →
    exec (.blockRelaunch b c) s = .next s) ∧
  (∀ (s : State) (k : Block) (c : CoreRef) (l : Launch) (x : Kernel), s.block k.id = some k → s.launch k.launch = some l →
    lget l.kernels k.kernel = some x → ∃ j, (s.relaunch k c).block k.id = some j ∧ j.relaunch = false ∧ j.core = c ∧
      j.threads.length = x.nx * x.ny * x.nz ∧ ∀ t ∈ j.threads, t.status = .ready ∧ t.pc = x.entry ∧ t.hdr = x.entry ∧ t.ops = [] ∧
        ∀ i, (tget t.regs i).map (·.val) = lget l.args i) ∧
  (∀ (s : State) (d q : Nat),
    let x := quadOf s d q
    (s.quadIssuing (quadKey d q) = false → x.clock = .toPinned →
      exec (.fixedClockChange d q) s = .next (s.setQuad (quadKey d q) { x with clock := .pinned })) ∧
    (s.quadIssuing (quadKey d q) = false → x.clock = .toElastic →
      exec (.fixedClockChange d q) s = .next (s.setQuad (quadKey d q) { x with clock := .elastic })) ∧
    (s.quadIssuing (quadKey d q) = true ∨ x.clock = .pinned ∨ x.clock = .elastic → exec (.fixedClockChange d q) s = .next s)) ∧
  (∀ (s : State) (d q : Nat),
    let held := ∃ k ∈ s.blocks, k.saved = false ∧ k.relaunch = false ∧ s.quadKeyOf k.core = quadKey d q
    ((quadOf s d q).claim = false → s.quadIssuing (quadKey d q) = false → ¬held →
      exec (.quadGate d q) s = .next (s.setQuad (quadKey d q) { quadOf s d q with gated := true })) ∧
    ((quadOf s d q).claim = true ∨ s.quadIssuing (quadKey d q) = true ∨ held → exec (.quadGate d q) s = .next s))

/-! ### Reset, boot and the host's commands -/

/-- R519, R520: package reset leaves no context, launch, block or clause, and every register at its reset value; boot goes through its five
steps or fails, and the last writes the die map. A write of a 64-bit register changes its writable fields; a write of HCMD2 issues the
command, unless one is in progress. R6, R7, R518: a read-only register ignores writes, a write-only field reads as zero. The offsets of the
registers within their blocks, and the rule that only aligned accesses count, are the model's choice (notes/assumptions/22.md). -/
def Obligations.ResetAndRegisters : Prop :=
  (∀ s : State, ∃ t, exec .packageReset s = .next t ∧ t.ctxs = [] ∧ t.launches = [] ∧ t.blocks = [] ∧ t.cores = [] ∧ t.quads = [] ∧
    t.sync = [] ∧ t.engs = [] ∧ t.opens = [] ∧ t.reqs = [] ∧ t.host = {} ∧ t.errs = {} ∧ t.fab = {} ∧ t.power = {} ∧ t.poison = [] ∧
    t.dieMap = State.reset.dieMap ∧ (Canonical s → Canonical t)) ∧
  (∀ (s : State) (v : BitVec 64), v.getLsbD 0 = true → exec (.pkgctlRst v) s = exec .packageReset s) ∧
  (∀ (s : State) (v : BitVec 64), v.getLsbD 0 = false → exec (.pkgctlRst v) s = .next s) ∧
  (∀ s : State, s.host.done = false → s.host.fail = false → s.host.step.toNat < 4 →
    exec (.bootStep true) s = .next { s with host := { s.host with step := s.host.step + 1 } }) ∧
  (∀ s : State, s.host.done = false → s.host.fail = false → 4 ≤ s.host.step.toNat →
    ∃ t, exec (.bootStep true) s = .next t ∧ t.host = { s.host with step := 5, done := true } ∧ t.dieMap = bootMap ∧ t.mem = s.mem) ∧
  (∀ s : State, s.host.done = false → s.host.fail = false →
    exec (.bootStep false) s = .next { s with host := { s.host with fail := true } }) ∧
  (∀ (s : State) (ok : Bool), s.host.done = true ∨ s.host.fail = true → exec (.bootStep ok) s = .next s) ∧
  (∀ (s : State) (off : BitVec 20) (v : BitVec 64), off.toNat % 8 ≠ 0 → exec (.registerWrite off v) s = .next s) ∧
  (∀ (s : State) (off : BitVec 20) (v : BitVec 64), off.toNat < 0x1000 ∨ off = 0x1008 → exec (.registerWrite off v) s = .next s) ∧
  (∀ (s : State) (v : BitVec 64), exec (.registerWrite 0x1000 v) s = exec (.pkgctlRst v) s) ∧
  (∀ (s : State) (v : BitVec 64), exec (.registerWrite 0x1010 v) s = .next { s with host := { s.host with hcmd0 := v } }) ∧
  (∀ (s : State) (v : BitVec 64), exec (.registerWrite 0x1018 v) s = .next { s with host := { s.host with hcmd1 := v } }) ∧
  (∀ (s : State) (v : BitVec 64), s.host.busy.isSome = true →
    exec (.registerWrite 0x1020 v) s = .next { s with host := { s.host with lost := true } }) ∧
  (∀ (s : State) (v : BitVec 64), s.host.busy = none →
    let op := s.host.hcmd0.toNat / 2 ^ 56
    let known := 1 ≤ op ∧ op ≤ 10
    ∃ c : HostCmd, exec (.registerWrite 0x1020 v) s = .next { s with host := { s.host with busy := some c } } ∧
      c.op = op ∧ c.slot = s.host.hcmd0.toNat / 2 ^ 46 % 2 ^ 10 ∧ c.arg = s.host.hcmd0.toNat % 2 ^ 46 ∧ c.ptr = s.host.hcmd1.toNat ∧
      (known → c.ready = false) ∧ (¬known → c.ready = true ∧ c.res = 1)) ∧
  (∀ (s : State) (v : BitVec 64), v.getLsbD 62 = true →
    exec (.registerWrite 0x1028 v) s = .next { s with host := { s.host with lost := false } }) ∧
  (∀ (s : State) (v : BitVec 64), v.getLsbD 62 = false → exec (.registerWrite 0x1028 v) s = .next s) ∧
  (∀ (s : State) (v : BitVec 64), exec (.registerWrite 0x1030 v) s = .next { s with host := { s.host with msixmap := v &&& 0xFFFF } }) ∧
  (∀ (s : State) (c : HostCmd), s.host.busy = some c → c.ready = true →
    let h := { s.host with busy := none, res := BitVec.ofNat 8 c.res, cause := BitVec.ofNat 10 c.cause }
    exec .hostCommandComplete s = .next (({ s with host := h }).signal 3)) ∧
  (∀ s : State, (∀ c, s.host.busy = some c → c.ready = false) → exec .hostCommandComplete s = .next s) ∧
  (∀ (s : State) (n : Nat), (s.signal n).host.signals = s.host.msixmap.toNat / 2 ^ (4 * n) % 16 :: s.host.signals) ∧
  (∀ s : State, s.readReg 0x1000 = 0 ∧ s.readReg 0x1010 = s.host.hcmd0 ∧ s.readReg 0x1018 = s.host.hcmd1 ∧ s.readReg 0x1020 = 0 ∧
    s.readReg 0x1030 = s.host.msixmap ∧ s.readReg 0x2000 = s.fab.fabid ∧ s.readReg 0x3000 = s.errs.elbase ∧
    s.readReg 0x10000 = s.power.pwrlim ∧ (s.readReg 0x1028).getLsbD 63 = s.host.busy.isSome ∧ (s.readReg 0x1028).getLsbD 62 = s.host.lost) ∧
  (∀ (s : State) (off : Nat), off < 0x1000 → s.host.done = false → s.readReg off = 0)

/-- R271, R442, R461, R521: CREATE makes the slot live with the fields of its record and the fixed VCs, or answers 1 with 0x309 for a bad
record and 2 for a live slot; DESTROY leaves nothing of the context; INVAL drops the range's translations and ends once the accesses that
used them are done; FRMREL clears the alias bits. A command to a context that is not live answers 2. R376, R377, R522, R523, R525: FRMOPEN
opens a frame whose record passes its checks once its ranges are resident, and refuses it otherwise; FRMCLOSE closes it; RESANS answers a
residency record, and what waits for its range waits no more; QBIND binds and unbinds a ring; MIGOUT leaves the context as an image, and
MIGIN makes a context of it. An event for a command that is not in progress changes nothing. -/
def Obligations.HostCommands : Prop :=
  (∀ (s : State) (slot : BitVec 10) (arg : BitVec 46) (ptr : BitVec 64), Commanded s 1 slot arg ptr → (s.ctx slot.toNat).isSome = true →
    exec (.create slot arg ptr) s = .next (answers s 2 0)) ∧
  (∀ (s : State) (slot : BitVec 10) (arg : BitVec 46) (ptr : BitVec 64), Commanded s 1 slot arg ptr → s.ctx slot.toNat = none →
    ¬ goodCtxRec s ptr → exec (.create slot arg ptr) s = .next (answers s 1 0x309)) ∧
  (∀ (s : State) (slot : BitVec 10) (arg : BitVec 46) (ptr : BitVec 64), Commanded s 1 slot arg ptr → s.ctx slot.toNat = none →
    goodCtxRec s ptr → mread s.mem (ptr.toNat + 48) 8 = 0 →
    let w := fun i => mread s.mem (ptr.toNat + 8 * i) 8
    ∃ t c, exec (.create slot arg ptr) s = .next t ∧ t.host = (answers s 0 0).host ∧ t.ctx slot.toNat = some c ∧
      c.ptroot = w 0 ∧ c.btbase = w 1 ∧ c.vctbase = w 2 ∧ c.priomax = w 3 / 2 ^ 49 % 2 ^ 7 ∧ c.fixed = (w 3).testBit 48 ∧
      c.strict = (w 3).testBit 47 ∧ c.mergef = (w 3).testBit 46 ∧ c.wto = w 3 / 2 ^ 40 % 2 ^ 6 ∧ c.grace = w 3 / 2 ^ 16 % 2 ^ 16 ∧
      c.savebase = w 4 ∧ c.savesize = w 5 ∧ c.rring = w 7 ∧ c.queues = [] ∧ c.floor = s.ownFloor ∧
      (∀ i < 4, tget c.vcs i = some ⟨true, 0, 0, true, 0, [], none⟩) ∧ (∀ i, 4 ≤ i → tget c.vcs i = none) ∧
      tget t.power.eloc slot.toNat = none ∧ tget t.power.erem slot.toNat = none) ∧
  (∀ (s : State) (slot : BitVec 10) (arg : BitVec 46) (ptr : BitVec 64), s.ctx slot.toNat = none →
    (Commanded s 2 slot arg ptr → exec (.destroy slot arg ptr) s = .next (answers s 2 0)) ∧
    (Commanded s 3 slot arg ptr → exec (.inval slot arg ptr) s = .next (answers s 2 0)) ∧
    (Commanded s 4 slot arg ptr → exec (.frmopen slot arg ptr) s = .next (answers s 2 0)) ∧
    (Commanded s 5 slot arg ptr → exec (.frmclose slot arg ptr) s = .next (answers s 2 0)) ∧
    (Commanded s 7 slot arg ptr → exec (.resans slot arg ptr) s = .next (answers s 2 0)) ∧
    (Commanded s 8 slot arg ptr → exec (.qbind slot arg ptr) s = .next (answers s 2 0)) ∧
    (Commanded s 9 slot arg ptr → exec (.migout slot arg ptr) s = .next (answers s 2 0))) ∧
  (∀ (s : State) (slot : BitVec 10) (arg : BitVec 46) (ptr : BitVec 64), Commanded s 2 slot arg ptr → (s.ctx slot.toNat).isSome = true →
    exec (.destroy slot arg ptr) s = .next (answers (s.destroy slot.toNat) 0 0)) ∧
  (∀ (s : State) (n : Nat), (s.destroy n).ctx n = none ∧ (∀ k ∈ (s.destroy n).blocks, k.ctx ≠ n) ∧
    (∀ l ∈ (s.destroy n).launches, l.ctx ≠ n) ∧ (∀ q ∈ (s.destroy n).reqs, q.ctx ≠ n) ∧ ∀ o ∈ (s.destroy n).engs, o.ctx ≠ n) ∧
  (∀ (s : State) (slot : BitVec 10) (arg : BitVec 46) (ptr : BitVec 64), Commanded s 3 slot arg ptr → (s.ctx slot.toNat).isSome = true →
    (arg.toNat / 2 ^ 40 < 12 ∨ 48 < arg.toNat / 2 ^ 40 ∨ ptr.toNat % 2 ^ (arg.toNat / 2 ^ 40) ≠ 0) →
    exec (.inval slot arg ptr) s = .next (answers s 1 0)) ∧
  (∀ (s : State) (slot : BitVec 10) (arg : BitVec 46) (ptr : BitVec 64), Commanded s 3 slot arg ptr → (s.ctx slot.toNat).isSome = true →
    12 ≤ arg.toNat / 2 ^ 40 → arg.toNat / 2 ^ 40 ≤ 48 → ptr.toNat % 2 ^ (arg.toNat / 2 ^ 40) = 0 → ptr.toNat < 2 ^ 56 →
    let last := ptr.toNat + 2 ^ (arg.toNat / 2 ^ 40)
    let hit := fun (e : TlbEntry) => e.ctx = slot.toNat ∧ e.vpn / e.pages * e.pages * 4096 < last ∧
      ptr.toNat < (e.vpn / e.pages * e.pages + e.pages) * 4096
    let used := fun (va : DWord) => ptr.toNat ≤ va.toNat % 2 ^ 56 ∧ va.toNat % 2 ^ 56 < last
    let busy := (∃ q ∈ s.reqs, q.ctx = slot.toNat ∧ used q.va) ∨ ∃ k ∈ s.blocks, k.ctx = slot.toNat ∧ ∃ e ∈ k.sbuf, used e.va
    ∃ t, exec (.inval slot arg ptr) s = .next t ∧ t.mem = s.mem ∧ (∀ c, ∀ e ∈ (t.core c).tlb, ¬hit e) ∧
      (∀ p ∈ t.tlb2, ∀ e ∈ p.2, ¬hit e) ∧ (¬busy → t.host = (answers s 0 0).host) ∧ (busy → t.host = s.host)) ∧
  (∀ (s : State) (slot : BitVec 10) (arg : BitVec 46) (ptr : BitVec 64), Commanded s 6 slot arg ptr →
    exec (.frmrel slot arg ptr) s = .next (answers { s with alias2 := tdel s.alias2 (ptr.toNat / 4096) } 0 0)) ∧
  (∀ (s : State) (slot : BitVec 10) (arg : BitVec 46) (ptr : BitVec 64) (c : Ctx), s.ctx slot.toNat = some c → Commanded s 4 slot arg ptr →
    (ptr.toNat % 64 ≠ 0 → exec (.frmopen slot arg ptr) s = .next (answers s 1 0)) ∧
    (ptr.toNat % 64 = 0 →
      let u := s.agentWord (ptr.toNat + 48) 0
      (u.parseFrame ptr.toNat = none → exec (.frmopen slot arg ptr) s = .next (answers (u.frameReport ptr.toNat 2 0x1E8 0 0) 0 0)) ∧
      ∀ f, u.parseFrame ptr.toNat = some f →
        (c.frame ≠ none ∨ c.opening ≠ none → exec (.frmopen slot arg ptr) s = .next (answers (u.frameReport ptr.toNat 2 0x1E9 0 0) 0 0)) ∧
        (c.frame = none → c.opening = none → exec (.frmopen slot arg ptr) s = .next (answers (u.tryOpen slot.toNat f) 0 0)))) ∧
  (∀ (s : State) (pa : Nat) (f : Frame), s.parseFrame pa = some f →
    f.rec_ = pa ∧ f.rtbase.toNat = mread s.mem (pa + 8) 8 ∧ f.rtbase.toNat % 256 = 0 ∧ f.rtw = mread s.mem (pa + 16) 8 % 2 ^ 15 ∧
      f.rth = mread s.mem (pa + 16) 8 / 2 ^ 16 % 2 ^ 15 ∧ 1 ≤ f.rtw ∧ f.rtw ≤ 16384 ∧ 1 ≤ f.rth ∧ f.rth ≤ 16384 ∧
      f.rtpitch % 256 = 0 ∧ f.rtw * f.pixelSize ≤ f.rtpitch ∧ f.gdmask ≠ 0 ∧ f.closing = false ∧ f.regions = []) ∧
  (∀ (s : State) (n : Nat) (f : Frame) (c : Ctx), s.ctx n = some c →
    let gone := fun (b z : Nat) => s.missing n b z = true
    let waits := fun (u : State) (g : Frame) (b z : Nat) =>
      (c.rring = 0 → u = s.refuseFrame n g.rec_ 0x1E8) ∧ (c.rring ≠ 0 → ∃ x, u.ctx n = some x ∧ x.opening = some (g, b, z) ∧ x.frame = c.frame)
    (gone f.ownptr.toNat f.tableSize → waits (s.tryOpen n f) f f.ownptr.toNat f.tableSize) ∧
    (¬gone f.ownptr.toNat f.tableSize → s.readOwners n f = none → s.tryOpen n f = s.refuseFrame n f.rec_ 0x1E8) ∧
    (¬gone f.ownptr.toNat f.tableSize → ∀ g, s.readOwners n f = some g →
      (gone g.rtbase.toNat g.targetSize → waits (s.tryOpen n f) g g.rtbase.toNat g.targetSize) ∧
      (¬gone g.rtbase.toNat g.targetSize → gone g.spillptr.toNat g.spill → waits (s.tryOpen n f) g g.spillptr.toNat g.spill) ∧
      (¬gone g.rtbase.toNat g.targetSize → ¬gone g.spillptr.toNat g.spill → ∃ x y, (s.tryOpen n f).ctx n = some x ∧ x.opening = none ∧
        x.frame = some y ∧ y.owners = g.owners ∧ y.rec_ = f.rec_ ∧ y.rtbase = f.rtbase ∧ y.regions = f.regions ∧ y.closing = f.closing))) ∧
  (∀ (s : State) (n : Nat) (f g : Frame), s.readOwners n f = some g → g.owners.length = f.tableSize ∧ g.rtbase = f.rtbase ∧
    ∀ o ∈ g.owners, o = 255 ∨ (s.dieMap.isSd o = true ∧ s.dieHere o = true)) ∧
  (∀ (s : State) (slot : BitVec 10) (arg : BitVec 46) (ptr : BitVec 64), Commanded s 5 slot arg ptr → (s.ctx slot.toNat).isSome = true →
    exec (.frmclose slot arg ptr) s = .next (answers (s.modFrame slot.toNat Frame.close) 0 0)) ∧
  (∀ (s : State) (slot : BitVec 10) (arg : BitVec 46) (ptr : BitVec 64) (c : Ctx), Commanded s 7 slot arg ptr → s.ctx slot.toNat = some c →
    (∀ r ∈ c.resRecs, ∀ n, r.n = some n → c.rring + 32 * (n % 128) ≠ ptr.toNat) →
    exec (.resans slot arg ptr) s = .next (answers s 1 0)) ∧
  (∀ (s : State) (slot : BitVec 10) (arg : BitVec 46) (ptr : BitVec 64) (c : Ctx) (r : ResRec) (n : Nat), Commanded s 7 slot arg ptr →
    s.ctx slot.toNat = some c → r ∈ c.resRecs → r.n = some n → c.rring + 32 * (n % 128) = ptr.toNat →
    ∃ u, exec (.resans slot arg ptr) s = .next (answers u 0 0)) ∧
  (∀ (s : State) (slot : BitVec 10) (arg : BitVec 46) (ptr : BitVec 64) (c : Ctx) (r : ResRec) (n : Nat), Commanded s 7 slot arg ptr →
    s.ctx slot.toNat = some c → c.resRecs = [r] → r.n = some n → c.rring + 32 * (n % 128) = ptr.toNat → c.opening = none →
    (arg.getLsbD 0 = true → ∃ t x, exec (.resans slot arg ptr) s = .next t ∧ t.host = (answers s 0 0).host ∧ t.ctx slot.toNat = some x ∧
      x.resRecs = [] ∧ (∀ l ∈ t.launches, l.ctx = slot.toNat → l.awaits ≠ some (r.base, r.size)) ∧ t.mem = s.mem) ∧
    (arg.getLsbD 0 = false → ∀ l, s.launches = [l] → l.ctx = slot.toNat → l.awaits = some (r.base, r.size) → l.state = .resident →
      ∃ u : State, exec (.resans slot arg ptr) s = .next (answers (u.refuse l.id 0x306 r.lidx) 0 0) ∧ u.launches = [{ l with awaits := none }])) ∧
  (∀ (s : State) (slot : BitVec 10) (arg : BitVec 46) (ptr : BitVec 64), Commanded s 8 slot arg ptr → (s.ctx slot.toNat).isSome = true →
    let q := arg.toNat % 64
    exec (.qbind slot arg ptr) s = .next (if ptr = 0 then answers (s.setQueue slot.toNat q { s.queue slot.toNat q with ring := none }) 0 0
      else if ptr.toNat % 256 ≠ 0 ∨ s.ringBad ptr.toNat = true then answers s 1 0
      else answers (s.setQueue slot.toNat q { s.queue slot.toNat q with
        ring := some (ptr.toNat, mread s.mem (ptr.toNat + 8) 4, mread s.mem (ptr.toNat + 128) 4) }) 0 0)) ∧
  (∀ (s : State) (slot : BitVec 10) (arg : BitVec 46) (ptr : BitVec 64) (c : Ctx), Commanded s 9 slot arg ptr → s.ctx slot.toNat = some c →
    (s.freeVal.getLsbD 0 = true → exec (.migout slot arg ptr) s = .next (answers s.useFree 4 0)) ∧
    (s.freeVal.getLsbD 0 = false → (s.stopCtx slot.toNat).migReady slot.toNat = false →
      exec (.migout slot arg ptr) s = .next (s.stopCtx slot.toNat)) ∧
    (s.freeVal.getLsbD 0 = false → (s.stopCtx slot.toNat).migReady slot.toNat = true →
      ∃ t i, exec (.migout slot arg ptr) s = .next t ∧ t.ctx slot.toNat = none ∧ tget t.images ptr.toNat = some i ∧ i.ctx = c ∧
        (∀ k ∈ i.blocks, k.ctx = slot.toNat) ∧ t.host.busy = (answers s 0 0).host.busy)) ∧
  (∀ (s : State) (slot : BitVec 10) (arg : BitVec 46) (ptr : BitVec 64), Commanded s 10 slot arg ptr →
    ((s.ctx slot.toNat).isSome = true → exec (.migin slot arg ptr) s = .next (answers s 2 0)) ∧
    (s.ctx slot.toNat = none → tget s.images ptr.toNat = none → exec (.migin slot arg ptr) s = .next (answers s 1 0)) ∧
    (s.ctx slot.toNat = none → ∀ i, tget s.images ptr.toNat = some i →
      (meetsFloor s.ownFloor i.ctx.floor = false → exec (.migin slot arg ptr) s = .next (answers s 3 0)) ∧
      (meetsFloor s.ownFloor i.ctx.floor = true → ∃ u r, exec (.migin slot arg ptr) s = .next (answers u r 0)) ∧
      (meetsFloor s.ownFloor i.ctx.floor = true → (∀ v ∈ s.vcTable i.ctx.vctbase, v.2.fix = true) →
        (∀ l ∈ s.launches ++ i.launches, l.state ≠ .running) →
        ∃ t c, exec (.migin slot arg ptr) s = .next t ∧ t.ctx slot.toNat = some c ∧ c.ptroot = i.ctx.ptroot ∧ c.queues = i.ctx.queues ∧
          c.floor = i.ctx.floor ∧ c.vcs = s.vcTable i.ctx.vctbase ∧ (∀ k ∈ i.blocks, { k with ctx := slot.toNat } ∈ t.blocks) ∧
          tget t.images ptr.toNat = none ∧ t.host = (answers s 0 0).host))) ∧
  (∀ (s : State) (slot : BitVec 10) (arg : BitVec 46) (ptr : BitVec 64),
    (¬Commanded s 1 slot arg ptr → exec (.create slot arg ptr) s = .next s) ∧
    (¬Commanded s 2 slot arg ptr → exec (.destroy slot arg ptr) s = .next s) ∧
    (¬Commanded s 3 slot arg ptr → exec (.inval slot arg ptr) s = .next s) ∧
    (¬Commanded s 4 slot arg ptr → exec (.frmopen slot arg ptr) s = .next s) ∧
    (¬Commanded s 5 slot arg ptr → exec (.frmclose slot arg ptr) s = .next s) ∧
    (¬Commanded s 6 slot arg ptr → exec (.frmrel slot arg ptr) s = .next s) ∧
    (¬Commanded s 7 slot arg ptr → exec (.resans slot arg ptr) s = .next s) ∧
    (¬Commanded s 8 slot arg ptr → exec (.qbind slot arg ptr) s = .next s) ∧
    (¬Commanded s 9 slot arg ptr → exec (.migout slot arg ptr) s = .next s) ∧
    (¬Commanded s 10 slot arg ptr → exec (.migin slot arg ptr) s = .next s))

/-! ### Errors and their containment -/

/-- R487, R488, R493, R494, R496: an uncorrectable error of a block rolls it back, to begin again, unless it has acted irrevocably or has
been rolled back twice: then its launch fails; the two blocks of a live matrix pair are rolled back together; a block that is saved, or is
to begin again, runs nothing that an error could strike. One of a dirty line or of memory poisons the granule; a corrected one changes nothing
that a program reads. A lost die takes its dirty lines with it: their granules are poisoned. -/
def Obligations.ErrorsAreContained : Prop :=
  (∀ (s : State) (b tl : Nat), exec (.uncorrectableError (.blockState b tl)) s = .next (s.strike b tl 0x201 0 0 0)) ∧
  (∀ (s : State) (b tl : Nat),
    let prot := ((s.block b).bind fun k => (s.launch k.launch).map (·.prot)) = some true
    (prot → exec (.uncorrectableError (.lanePair b tl)) s = .next (s.strike b tl 0x202 0 0 0)) ∧
    (¬prot → exec (.uncorrectableError (.lanePair b tl)) s = .next s)) ∧
  (∀ (s : State) (b tl cause unit uidx addr : Nat), (∀ k, s.block b = some k → k.saved = true ∨ k.relaunch = true) →
    s.strike b tl cause unit uidx addr = s) ∧
  (∀ (s : State) (b tl cause unit uidx addr : Nat) (k : Block), noRing s → s.block b = some k → unpaired s b →
    k.nonRollback = false → k.rollbacks < 2 → k.relaunch = false → k.saved = false →
    ∃ j, (s.strike b tl cause unit uidx addr).block b = some j ∧ j.relaunch = true ∧ j.rollbacks = k.rollbacks + 1 ∧ j.sbuf = [] ∧
      (∀ t ∈ j.threads, t.regs = [] ∧ t.ops = []) ∧ j.threads.length = k.threads.length ∧
      (s.strike b tl cause unit uidx addr).mem = s.mem) ∧
  (∀ (s : State) (b tl cause unit uidx addr : Nat) (k : Block) (l : Launch), noRing s → s.block b = some k → unpaired s b →
    k.nonRollback = true → k.relaunch = false → k.saved = false → s.launch k.launch = some l → l.outState = 0 → l.cause = 0 →
    ∃ x, (s.strike b tl cause unit uidx addr).launch k.launch = some x ∧ x.outState = 1 ∧ x.cause = cause) ∧
  (∀ (s : State) (b tl cause unit uidx addr : Nat) (k : Block) (l : Launch), noRing s → s.block b = some k → unpaired s b →
    k.nonRollback = false → 2 ≤ k.rollbacks → k.relaunch = false → k.saved = false → s.launch k.launch = some l → l.outState = 0 → l.cause = 0 →
    ∃ x, (s.strike b tl cause unit uidx addr).launch k.launch = some x ∧ x.outState = 1 ∧ x.cause = 0x203) ∧
  (∀ (s : State) (b o cause : Nat) (tw : List DWord) (k j : Block), s.pairBlock b = some o → s.block b = some k → s.block o = some j →
    k.nonRollback = false → j.nonRollback = false → k.rollbacks < 2 → j.rollbacks < 2 → k.relaunch = false → j.relaunch = false →
    ∃ x y, (s.rollback b cause tw).block b = some x ∧ (s.rollback b cause tw).block o = some y ∧ x.relaunch = true ∧ y.relaunch = true) ∧
  (∀ (s : State) (g : Nat), ∃ t, exec (.uncorrectableError (.memory g)) s = .next t ∧ t.blocks = s.blocks ∧
    (noRing s → t.poisoned g = true ∧ t.mem = s.mem)) ∧
  (∀ (s : State) (c : CoreRef) (g b tl : Nat), (lineOf s c g).isSome = true → (s.block b).map (·.core) ≠ some c → noRing s →
    ∃ t, exec (.uncorrectableError (.dirtyLine c g b tl)) s = .next t ∧ lineOf t c g = none ∧ t.poisoned g = true ∧ t.mem = s.mem) ∧
  (∀ (s : State) (c : CoreRef) (g b tl : Nat), lineOf s c g = none → exec (.uncorrectableError (.dirtyLine c g b tl)) s = .next s) ∧
  (∀ (s : State) (g : Nat), noRing s → ∃ t, exec (.uncorrectableError (.tagEntry g)) s = .next t ∧ t.poisoned g = true ∧ t.srec g = {} ∧
    cleanEverywhere t g ∧ uncached t g ∧ t.mem = s.mem) ∧
  (∀ (s : State) (e : ErrSite), ∃ t, exec (.corrected e) s = .next t ∧ t.blocks = s.blocks ∧ t.ctxs = s.ctxs ∧ t.launches = s.launches ∧
    t.host = s.host ∧ (noRing s → t.mem = s.mem ∧ t.cores = s.cores ∧ t.poison = s.poison)) ∧
  (∀ s : State, exec (.scrub []) s = .next s) ∧
  (∀ (s : State) (g : Nat) (r : List ErrSite), exec (.scrub (.memory g :: r)) s =
    exec (.scrub r) ((s.poisonGranule g).siteRecord (.memory g) 0x201 1 (g * 128))) ∧
  (∀ (s : State) (die : Nat), die ∈ s.lostDies ∨ s.dieMap.ndie ≤ die → exec (.dieLost die) s = .next s) ∧
  (∀ (s : State) (die : Nat), die ∉ s.lostDies → die < s.dieMap.ndie → (s.dieMap.isSd die = true ∨ s.dieMap.isGd die = true) →
    ∃ t, exec (.dieLost die) s = .next t ∧ die ∈ t.lostDies ∧
      (noRing s → (∀ k ∈ s.blocks, k.core.die ≠ die) → t.blocks = s.blocks ∧ t.mem = s.mem ∧
        ∀ n < 128, ∀ g, (lineOf s ⟨die, n⟩ g).isSome = true → lineOf t ⟨die, n⟩ g = none ∧ t.poisoned g = true)) ∧
  (∀ (s : State) (die : Nat), die ∉ s.lostDies → die < s.dieMap.ndie → s.dieMap.isSd die = false → s.dieMap.isGd die = false →
    ∃ t, exec (.dieLost die) s = .next t ∧ die ∈ t.lostDies ∧ t.fab.fenced = true)

/-! ### The fabric -/

/-- R471, R472, R474, R475, R478, R481, R482: enabling checks the package's own entry; a link that loses a lane trains again, counts the
flits it retries, and comes up with four or two lanes or goes down; a slot of a link goes to a class that has a flit and a credit, to class 3
once fifteen slots have passed; a heartbeat goes out on every link that is up; a package that every plane reports silent is lost: the granules
it held dirty are poisoned, its requests are dropped, its releases need no demand; clearing its mark forgets that. That a link retries the
flits without a credit is the model's choice (notes/assumptions/59.md). -/
def Obligations.LinksAndLoss : Prop :=
  (∀ s : State, s.fab.selfOk = true → exec (.fabricEnable true) s = .next (s.fabricEnable true) ∧ (s.fabricEnable true).fab.en = true ∧
    (s.fabricEnable true).fab.cfgerr = false ∧ (s.fabricEnable true).mem = s.mem ∧
    ∀ k w, lget s.fab.lnksts k = some w → lget (s.fabricEnable true).fab.lnksts k =
      some (if w.toNat / 2 ^ 62 = 0 ∧ s.dieMap.linkPresent k = true then linkWith w 1 0 0 0 else w)) ∧
  (∀ (s : State) (m : Bool), (s.fab.selfOk = false ∨ m = false) → ∃ t, exec (.fabricEnable m) s = .next t ∧ t.fab.en = false ∧
    t.fab.cfgerr = true) ∧
  (∀ (s : State) (k lane : Nat) (w : DWord), lget s.fab.lnksts k = some w → w.toNat / 2 ^ 62 = 2 → lane < 4 →
    w.toNat / 2 ^ (56 + lane) % 2 = 1 →
    exec (.linkLaneLoss k lane) s = .next { s with fab := { s.fab with
      lnksts := lset s.fab.lnksts k (linkWith w 1 (w.toNat / 2 ^ 60 % 4) (w.toNat / 2 ^ 56 % 16 - 2 ^ lane) 0) } }) ∧
  (∀ (s : State) (k : Nat) (w : DWord) (n : BitVec 4), lget s.fab.lnksts k = some w → w.toNat / 2 ^ 62 = 1 →
    let v := linkRetry w (((tget s.fab.links k).map fun l => l.owed.sum).getD 0)
    ∃ t, exec (.linkRetrainDone k n) s = .next t ∧ lget t.fab.lnksts k = some (
      if n = 15 then linkWith v 2 2 15 0
      else if n.toNat % 4 = 3 ∨ n.toNat / 4 = 3 then linkWith v 2 1 n.toNat 0 else linkWith v 0 0 n.toNat 1)) ∧
  (∀ (s : State) (k lane : Nat) (n : BitVec 4),
    let st := (lget s.fab.lnksts k).map fun w => w.toNat / 2 ^ 62
    let lost := 4 ≤ lane ∨ ∀ w, lget s.fab.lnksts k = some w → w.toNat / 2 ^ (56 + lane) % 2 = 0
    (st ≠ some 1 → exec (.linkRetrainDone k n) s = .next s) ∧ (st ≠ some 2 ∨ lost → exec (.linkLaneLoss k lane) s = .next s)) ∧
  (∀ (w : DWord) (n : Nat), let v := (linkRetry w n).toNat
    v / 2 ^ 56 = w.toNat / 2 ^ 56 ∧ v / 2 ^ 40 % 2 ^ 16 = (w.toNat / 2 ^ 40 % 2 ^ 16 + n) % 2 ^ 16 ∧ v % 2 ^ 40 = w.toNat % 2 ^ 40) ∧
  (∀ (l : LinkOut) (wt : DWord),
    (∀ c, l.pick wt = some c → l.class c ≠ [] ∧ (lget l.owed c).getD 0 < 256) ∧
    (l.can 3 = true → 15 ≤ l.since → l.pick wt = some 3) ∧
    ((l.can 0 = true ∨ l.can 1 = true) → l.since < 15 → ∃ c < 3, l.pick wt = some c) ∧
    (l.since < 15 → l.can 2 = true → l.class 0 ≠ [] → wt.toNat / 2 ^ 16 % 2 ^ 8 = 0 → l.pick wt ≠ some 2) ∧
    (∀ c, c < 4 → l.pick wt = some c → (l.slot wt 0).sent = (l.class c).take 1 ++ l.sent ∧
      (c < l.waiting.length → (l.slot wt 0).class c = (l.class c).drop 1))) ∧
  (∀ (w : DWord) (st wd ln d : Nat), st < 4 → wd < 4 → ln < 16 →
    let v := (linkWith w st wd ln d).toNat
    v / 2 ^ 62 = st ∧ v / 2 ^ 60 % 4 = wd ∧ v / 2 ^ 56 % 16 = ln ∧ v / 2 ^ 40 % 2 ^ 16 = w.toNat / 2 ^ 40 % 2 ^ 16 ∧
      v / 2 ^ 32 % 2 ^ 8 = (w.toNat / 2 ^ 32 % 2 ^ 8 + d) % 2 ^ 8) ∧
  (∀ s : State, s.fab.fenced = false → ∃ t, exec .heartbeatSend s = .next t ∧
    t.fab.sent = ((upLinks s).map fun l => (5, l, 0)).reverse ++ s.fab.sent ∧ t.fab.lnksts = s.fab.lnksts) ∧
  (∀ s : State, s.fab.fenced = true → exec .heartbeatSend s = .next s) ∧
  (∀ (s : State) (p : BitVec 14) (n : Nat), 36 ≤ n ∨ ¬onFabric s ∨ p = s.pkg → exec (.silenceNotice p n) s = .next s) ∧
  (∀ (s : State) (p : BitVec 14) (n : Nat), onFabric s → p ≠ s.pkg → n < 36 →
    let set := (tget s.fab.silence p.toNat).getD 0 ||| 1#36 <<< n
    let u := { s with fab := { s.fab with silence := tput s.fab.silence p.toNat set } }
    exec (.silenceNotice p n) s = .next (if set = BitVec.allOnes 36 then u.losePkg p else u)) ∧
  (∀ (s : State) (p : BitVec 14), p ∈ s.fab.lost → s.losePkg p = s) ∧
  (∀ (s : State) (p : BitVec 14), p ∉ s.fab.lost → noRing s → (∀ f ∈ s.fences, f.remote ≠ some p) →
    (∀ q ∈ s.reqs, s.homePkg q.pa ≠ p.toNat) → (∀ w ∈ s.fab.pbgtab, s.podHas w p = false) →
    let t := s.losePkg p
    t.fab.lost = s.fab.lost ++ [p] ∧ t.mem = s.mem ∧ (∀ x ∈ t.remotes, x.2.1.src ≠ p) ∧
      (∀ g l, tget t.fab.remoteDirty g = some l → p ∉ l) ∧ (∀ g l, tget s.fab.remoteDirty g = some l → p ∈ l → t.poisoned g = true) ∧
      (∀ g l, tget t.fab.sharers g = some l → p ∉ l) ∧ (∀ g, (t.srec g).sv = true → (t.srec g).rpkg = p → (t.srec g).fl = true) ∧
      ∀ c g, s.homePkg (g * 128) = p.toNat → lineOf t c g = none ∧ tget (t.core c).copies g = none) ∧
  (∀ (s : State) (p : BitVec 14), ∃ t, exec (.lostMarkClear p) s = .next t ∧ p ∉ t.fab.lost ∧ tget t.fab.silence p.toNat = none ∧
    (∀ x ≠ p, x ∈ t.fab.lost ↔ x ∈ s.fab.lost) ∧ t.mem = s.mem)

/-- R470, R476, R479, R480, R483, R484, R514: a request of another package reaches the exported memory and is answered, or is refused with
0x380 outside it; one that acquires or releases where another core's release is still to be flushed waits for that; a release leaves its
record, an acquire its holder; the root of a pod barrier releases it when all its packages have arrived, and the release ends the phase; what
another package's work costs is billed to it, and a bill adds whole nanojoules to its context. -/
def Obligations.RemoteTraffic : Prop :=
  (∀ (s : State) (q : RemoteReq), onFabric s → q.src ∉ s.fab.lost → exportSize s ≤ q.off →
    exec (.remoteRequest q) s = .next (s.respond q 0 0x380)) ∧
  (∀ (s : State) (q : RemoteReq), onFabric s → q.src ∉ s.fab.lost → q.off < exportSize s →
    exec (.remoteRequest q) s = .next (s.takeRemote q (exportBase s + q.off))) ∧
  (∀ (s : State) (q : RemoteReq), ¬onFabric s ∨ q.src ∈ s.fab.lost → exec (.remoteRequest q) s = .next s) ∧
  (∀ (s : State) (q : RemoteReq) (pa : Nat),
    let r := s.srec (granule pa)
    let orders := q.kind = .acquire ∨ q.kind = .release ∨ ∃ op a b, q.kind = .atomic op a b ∧ (a = true ∨ b = true)
    let waits := orders ∧ r.sv = true ∧ r.fl = false ∧ ¬(r.rpkg = q.src ∧ r.rdie = q.srcDie ∧ r.rcore = q.srcCore)
    (¬waits → s.takeRemote q pa = s.serveRemote q pa) ∧
    (waits → (s.takeRemote q pa).remotes = s.remotes ++ [(s.nextId, q, pa)] ∧ (s.takeRemote q pa).mem = s.mem ∧
      ∃ f, (s.takeRemote q pa).fences = s.fences ++ [f] ∧ f.who = .remoteReq s.nextId (granule pa) r)) ∧
  (∀ (s : State) (q : RemoteReq) (pa : Nat), q.kind = .load → (s.serveRemote q pa).mem = s.mem ∧
    (s.serveRemote q pa).fab.sent.head? = some (7, q.src.toNat, mread s.mem pa q.width)) ∧
  (∀ (s : State) (q : RemoteReq) (pa : Nat), q.kind = .acquire → (s.serveRemote q pa).mem = s.mem ∧
    (s.serveRemote q pa).fab.sent.head? = some (7, q.src.toNat, mread s.mem pa q.width) ∧
    (q.data = [] → ((s.serveRemote q pa).srec (granule pa)).holder = true ∧ ((s.serveRemote q pa).srec (granule pa)).hpkg = q.src)) ∧
  (∀ (s : State) (q : RemoteReq) (pa : Nat), q.kind = .release → let r := (s.serveRemote q pa).srec (granule pa)
    r.sv = true ∧ r.fl = false ∧ r.rpkg = q.src ∧ r.rdie = q.srcDie ∧ r.rcore = q.srcCore ∧ r.rgen = q.gen) ∧
  (∀ (s : State) (q : RemoteReq) (pa : Nat), (q.kind = .writeBack ∨ q.kind = .release) → quiet s → 0 < q.data.length →
    pa % 128 + q.data.length ≤ 128 →
    mbytes (s.serveRemote q pa).mem pa q.data.length = q.data ∧
      (∀ a, (a < pa ∨ pa + q.data.length ≤ a) → mget (s.serveRemote q pa).mem a = mget s.mem a) ∧
      (q.kind = .writeBack → ∀ l, tget (s.serveRemote q pa).fab.remoteDirty (granule pa) = some l → q.src ∉ l)) ∧
  (∀ (s : State) (q : RemoteReq) (pa : Nat) (op : BitVec 4) (acq rel : Bool) (v : Nat), q.kind = .atomic op acq rel → quiet s → 0 < q.width →
    pa % 128 + q.width ≤ 128 →
    atomNew op.toNat (8 * q.width) (mread s.mem pa q.width) (leVal (q.data.take q.width)) (leVal (q.data.drop q.width)) = some v →
    mread (s.serveRemote q pa).mem pa q.width = v % 2 ^ (8 * q.width) ∧
      (s.serveRemote q pa).fab.sent.head? = some (7, q.src.toNat, mread s.mem pa q.width)) ∧
  (∀ (s : State) (gid : BitVec 32) (p : BitVec 14) (w : DWord), onFabric s → p ∉ s.fab.lost →
    s.fab.pbgtab.find? (fun w => w.toNat % 2 == 1 && w.toNat / 2 ^ 32 == gid.toNat) = some w → w.toNat / 2 ^ 18 % 2 ^ 14 = s.pkg.toNat →
    let l := (tget s.fab.podArr gid.toNat).getD [] ++ [p]
    ∃ t, exec (.podArrivalFlit gid p) s = .next t ∧ t.mem = s.mem ∧
      (l.length < w.toNat / 2 ^ 4 % 2 ^ 14 + 1 → tget t.fab.podArr gid.toNat = some l ∧ t.fab.sent = s.fab.sent) ∧
      (w.toNat / 2 ^ 4 % 2 ^ 14 + 1 ≤ l.length → tget t.fab.podArr gid.toNat = none ∧
        t.fab.sent = (l.map fun x => (2, x.toNat, gid.toNat)).reverse ++ s.fab.sent)) ∧
  (∀ (s : State) (gid : BitVec 32) (v : BarInst),
    s.bars.find? (fun v => v.scope == 5 && v.owner == gid.toNat && v.arrived.contains (0, 0)) = some v →
    exec (.podReleaseFlit gid) s = .next ((s.setBar { v with phase := v.phase + 1, arrived := [] }).releaseBar v v.phase)) ∧
  (∀ (s : State) (gid : BitVec 32) (p : BitVec 14),
    (¬onFabric s ∨ p ∈ s.fab.lost ∨ (∀ w ∈ s.fab.pbgtab, ¬(w.toNat % 2 = 1 ∧ w.toNat / 2 ^ 32 = gid.toNat ∧
      w.toNat / 2 ^ 18 % 2 ^ 14 = s.pkg.toNat)) → exec (.podArrivalFlit gid p) s = .next s) ∧
    ((∀ v ∈ s.bars, ¬(v.scope = 5 ∧ v.owner = gid.toNat ∧ (0, 0) ∈ v.arrived)) → exec (.podReleaseFlit gid) s = .next s)) ∧
  (∀ (s : State) (p : BitVec 14) (c : BitVec 10), (tget s.fab.billing (p.toNat * 1024 + c.toNat) = none ∨ ¬onFabric s) →
    exec (.billingSend p c) s = .next s) ∧
  (∀ (s : State) (p : BitVec 14) (c : BitVec 10) (pj : BitVec 64), ¬onFabric s ∨ p ∈ s.fab.lost → exec (.billingFlit p c pj) s = .next s) ∧
  (∀ (a b : BitVec 14) (c : BitVec 10) (pj : Nat), let f := billingFlit a b c pj
    f.extractLsb' 254 2 = 2 ∧ f.extractLsb' 240 14 = a ∧ f.extractLsb' 226 14 = b ∧ f.extractLsb' 216 10 = c ∧
      f.extractLsb' 128 64 = BitVec.ofNat 64 pj) ∧
  (∀ (s : State) (p : BitVec 14) (c : BitVec 10) (pj : Nat), onFabric s → tget s.fab.billing (p.toNat * 1024 + c.toNat) = some pj →
    ∃ t, exec (.billingSend p c) s = .next t ∧ t.fab.sent = (6, p.toNat, (billingFlit s.pkg p c pj).toNat) :: s.fab.sent ∧
      tget t.fab.billing (p.toNat * 1024 + c.toNat) = none) ∧
  (∀ (s : State) (p : BitVec 14) (c : BitVec 10) (pj : BitVec 64), onFabric s → p ∉ s.fab.lost →
    let n := (tget s.power.remPj c.toNat).getD 0 + pj.toNat
    ∃ t, exec (.billingFlit p c pj) s = .next t ∧ tget t.power.remPj c.toNat = some (n % 1000) ∧
      tget t.power.erem c.toNat = some ((tget s.power.erem c.toNat).getD 0 + BitVec.ofNat 64 (n / 1000)) ∧
      t.power.eloc = s.power.eloc ∧ t.mem = s.mem)

/-! ### Power -/

/-- R503 to R515: the floor of a quad follows its droops, its regulators, its temperature and its current; the evaluation raises passes
while the die is above its budget and lowers them while it is well below; energy is shared by issue cycles; a hot quad is slowed, and one
beyond the trip point stops and its blocks are struck; a stretch request is served in the first permitted slot, a new pattern counting from
the next slot 0; two neighbouring regulators that fail darken their quads. R40: P does not rise while a fixed-timing block is on the quad, or
is saved for it. -/
def Obligations.PowerEvents : Prop :=
  (∀ (s : State) (die : Nat) (m : PowerReading), ∃ t, exec (.powerEvaluation die m) s = .next t ∧
    t.power.pkgw = BitVec.ofNat 16 (m.packageMw / 1000) ∧ t.mem = s.mem ∧ t.blocks = s.blocks ∧
    (∀ q < s.dieMap.nquads die, (powerOf t die q).over12 = m.overCurrent.contains q) ∧
    (s.budget die < m.dieMw → ∀ q < s.dieMap.nquads die, (quadOf s die q).p ≤ (quadOf t die q).p) ∧
    (m.dieMw ≤ s.budget die → ∀ q < s.dieMap.nquads die, (quadOf t die q).p ≤ (quadOf s die q).p) ∧
    (m.dieMw ≤ s.budget die → m.below90For1ms = false → t.quads = s.quads)) ∧
  (∀ (s : State) (die quad nj : Nat) (c n : Nat),
    let total := max n (quadOf s die quad).window
    let part := nj * n / total
    let got := (tget s.power.eloc c).getD 0 + BitVec.ofNat 64 part
    ∃ t, exec (.energyAccounting die quad nj [(c, n)]) s = .next t ∧
      t.power.eloc = (if part = 0 then s.power.eloc else tput s.power.eloc c got) ∧
      t.power.eidle = s.power.eidle + BitVec.ofNat 64 (nj - part) ∧ t.quads = s.quads ∧ t.mem = s.mem) ∧
  (∀ (s : State) (die q : Nat) (temp base : Int), q < s.dieMap.nquads die → temp < s.power.tlim - 10 → temp - base < s.power.glim →
    ∃ t, exec (.thermalReading die q temp base) s = .next t ∧ (powerOf t die q).temp = temp ∧ (powerOf t die q).thermal = 1 ∧
      (powerOf t die q).stopped = false ∧ (powerOf t die q).base = (if 95 < base then 2 else 1) ∧ t.blocks = s.blocks ∧ t.mem = s.mem) ∧
  (∀ (s : State) (die q : Nat) (temp base : Int), q < s.dieMap.nquads die → s.blocks = [] →
    let hot := s.power.tlim - 5 ≤ temp ∨ s.power.glim ≤ temp - base
    ∃ t, exec (.thermalReading die q temp base) s = .next t ∧ (powerOf t die q).temp = temp ∧ (powerOf t die q).grad = temp - base ∧
      (s.power.tlim ≤ temp → (powerOf t die q).thermal = 4) ∧ (temp < s.power.tlim → hot → (powerOf t die q).thermal = 2) ∧
      (s.power.tlim + 10 ≤ temp → (powerOf t die q).stopped = true) ∧
      (s.power.tlim - 10 ≤ temp → temp < s.power.tlim + 10 → (powerOf t die q).stopped = (powerOf s die q).stopped)) ∧
  (∀ (s : State) (die q : Nat) (temp base : Int), s.dieMap.nquads die ≤ q → exec (.thermalReading die q temp base) s = .next s) ∧
  (∀ (s : State) (die q : Nat), (powerOf s die q).thermal ≤ s.floorOf die q ∧
    ((s.quadReg die q = true ∨ (powerOf s die q).droopUntil.isSome = true ∨ (powerOf s die q).over12 = true ∨ s.baseHot die = true) →
      2 ≤ s.floorOf die q)) ∧
  (∀ (s : State) (die q : Nat), exec (.droopDetect die q) s = .next (s.setQuadPower (quadKey die q)
    { powerOf s die q with stretch := !(quadOf s die q).clock.isPinned, stretchFrom := (quadOf s die q).cyc + 1, boost := true })) ∧
  (∀ (s : State) (die q : Nat), exec (.droopRecover die q) s = .next (s.setQuadPower (quadKey die q)
    { powerOf s die q with stretch := false, boost := false })) ∧
  (∀ (s : State) (die q : Nat), ∃ t, exec (.droopLimit die q) s = .next t ∧ (powerOf t die q).droopUntil = some (s.clock.ns + 1000000) ∧
    (powerOf t die q).boost = false ∧ t.blocks = s.blocks) ∧
  (∀ (s : State) (die q n : Nat), (powerOf s die q).droopUntil = some n → ∃ t, exec (.droopFloorExpiry die q) s = .next t ∧
    (powerOf t die q).droopUntil = none ∧ n ≤ t.clock.ns ∧ t.blocks = s.blocks) ∧
  (∀ (s : State) (die q : Nat), (powerOf s die q).droopUntil = none → exec (.droopFloorExpiry die q) s = .next s) ∧
  (∀ (s : State) (die q n : Nat) (low : Bool), (powerOf s die q).stretch = true →
    s.nextSlot die q (max (powerOf s die q).stretchFrom (quadOf s die q).cyc) = some n →
    ∃ t, exec (.stretchedCycle die q low) s = .next t ∧ n + 1 ≤ (quadOf t die q).cyc ∧ (powerOf t die q).stretch = low ∧
      (powerOf t die q).stretchFrom = n + 1 ∧ t.blocks = s.blocks) ∧
  (∀ (s : State) (die q : Nat) (low : Bool), (powerOf s die q).stretch = false ∨
    s.nextSlot die q (max (powerOf s die q).stretchFrom (quadOf s die q).cyc) = none → exec (.stretchedCycle die q low) s = .next s) ∧
  (∀ (s : State) (die q m n : Nat), s.nextSlot die q m = some n →
    let ok := fun i => s.patAt (quadKey die q) i / 2 ^ ((i % 16 + 16 - q % 8) % 16) % 2 = 1
    m ≤ n ∧ n < m + 32 ∧ ok n ∧ ∀ i, m ≤ i → i < n → ¬ok i) ∧
  (∀ (s : State) (die q : Nat), exec (.shuntClamp die q) s = .next s) ∧
  (∀ (s : State) (die r : Nat), s.dieMap.isSd die = true → r < 48 → (s.diePower die).regfail.getLsbD r = false →
    (∀ x ∈ s.dieMap.regNear die r, (s.diePower die).regfail.getLsbD x = false) →
    ∃ t, exec (.regFailed die r) s = .next t ∧ (t.diePower die).regfail = (s.diePower die).regfail ||| 1#48 <<< r ∧
      (t.diePower die).dark = (s.diePower die).dark ∧ t.blocks = s.blocks ∧ 2 ≤ t.floorOf die (s.dieMap.regQuad die r)) ∧
  (∀ (s : State) (die r x : Nat), s.dieMap.isSd die = true → r < 48 → (s.diePower die).regfail.getLsbD r = false →
    x ∈ s.dieMap.regNear die r → (s.diePower die).regfail.getLsbD x = true →
    ∃ t, exec (.regFailed die r) s = .next t ∧ (s.blocks = [] → (t.diePower die).dark.getLsbD (s.dieMap.regQuad die r) = true ∧
      (t.diePower die).dark.getLsbD (s.dieMap.regQuad die x) = true)) ∧
  (∀ (s : State) (die r : Nat), (s.diePower die).regfail.getLsbD r = true ∨ 48 ≤ r ∨ s.dieMap.nquads die = 0 →
    exec (.regFailed die r) s = .next s) ∧
  (∀ (s : State) (key n : Nat), (s.mayRaise key = true → s.raisePass key n = s.setPass key n) ∧
    (s.mayRaise key = false → (s.raisePass key n).quads = s.quads) ∧
    (s.mayRaise key = true ↔ ∀ k ∈ s.blocks, (k.saved = true → k.evicted ≠ some key) ∧
      (k.saved = false → k.relaunch = false → s.quadKeyOf k.core = key → s.blockFixed k = false))) ∧
  (∀ (s : State) (v : BitVec 64), ∃ t, exec (.pwrlimWrite v) s = .next t ∧
    ∀ d < s.dieMap.nsd + s.dieMap.ngd, ∀ q < s.dieMap.nquads d, let n := (quadOf s d q).cyc
      t.patAt (quadKey d q) n = s.patAt (quadKey d q) n ∧ ∀ m, 16 * (n / 16 + 1) ≤ m → t.patAt (quadKey d q) m = t.power.swpat) ∧
  (∀ (s : State) (v : BitVec 64), ∃ t, exec (.pwrlimWrite v) s = .next t ∧ t.mem = s.mem ∧
    500 ≤ t.power.plim ∧ t.power.plim ≤ 3600 ∧ (500 ≤ v.toNat / 2 ^ 48 → v.toNat / 2 ^ 48 ≤ 3600 → t.power.plim = v.toNat / 2 ^ 48) ∧
    (70 ≤ v.toNat / 2 ^ 40 % 256 → t.power.tlim = (min 105 (v.toNat / 2 ^ 40 % 256) : Nat)) ∧
    5 ≤ t.power.glim ∧ t.power.glim ≤ 30 ∧
    t.power.swpat = (if ((List.range 16).filter fun i => v.getLsbD i).length ≤ 2 then v.toNat % 2 ^ 16 else s.power.swpat))

/-! ### Words -/

/-- R101 to R120: the encoder writes a word for every well-formed instruction, and the decoder reads that instruction from it, with every
operand; the decoder accepts only words that the encoder writes. Headers likewise. -/
def Obligations.DecodeEncodeAgree : Prop :=
  (∀ i : Instr, i.isEvent = false → i.wellFormed = true → ∃ c w, encode i = some (c, w) ∧ decodeWord c w = .ok i) ∧
  (∀ (c : Cls) (w : DWord) (i : Instr), decodeWord c w = .ok i → i.isEvent = false ∧ i.wellFormed = true ∧ encode i = some (c, w)) ∧
  (∀ h : Header, h.count < 16 → h.stall < 16 → decodeHeader (encodeHeader h) = some h) ∧
  (∀ (w : DWord) (h : Header), decodeHeader w = some h → encodeHeader h = w)

/-- Words that the examples of the spec derive field by field: R140, and the examples of chapters 04 to 12 (spec/04_encoding.md,
spec/05_core_integer.md, spec/06_core_float.md, spec/07_core_memory.md, spec/08_core_sync.md, spec/09_core_traps.md,
spec/10_distributor.md, spec/12_matrix.md). A word without a legal opcode or with a reserved field is rejected. -/
def Obligations.SpecWords : Prop :=
  decodeHeader 0xA040020000000000 = some ⟨.alu, 2, 0, false, 2⟩ ∧
  decodeWord .alu 0x05E0707000000010 = .ok (.iaddI ⟨7, false, 7, 7, false, 0, 16⟩) ∧
  decodeWord .alu 0x01E0405000080000 = .ok (.mov ⟨7, false, 4, 5, 0, 0, true, false, false, false, 0, false, 0⟩) ∧
  decodeWord .alu 0x4004000000000006 = .ok (.bra ⟨0, false, 1, 0, 0, 0, 6⟩) ∧
  decodeWord .alu 0x44E0000000000000 = .ok (.exit ⟨7, false, 0, 0, 0, 0, 0⟩) ∧
  decodeWord .alu 0x2CE2102000000008 = .ok (.isetI ⟨7, false, 0x21, 2, false, 0, 8⟩) ∧
  decodeWord .alu 0x6440405060480000 = .ok (.ffma ⟨2, false, 4, 5, 6, 4, true, false, false, false, 0, false, 0⟩) ∧
  decodeWord .mem 0x01E0408002000040 = .ok (.st ⟨7, false, 4, 8, false, false, 0, 0, false, 2, 0, 0x40⟩) ∧
  decodeWord .mem 0x07E0C1421A940000 = .ok (.atom ⟨7, false, 12, 20, false, false, 4, 1, true, 2, 9, 0x40000⟩) ∧
  decodeWord .sync 0x06E0502000000010 = .ok (.bowait ⟨7, false, 5, 2, false, false, 0, 0, false, 0, 0, 0x10⟩) ∧
  decodeWord .sys 0x00E0000000000005 = .ok (.trap ⟨7, false, 0, 0, false, 0, 5⟩) ∧
  decodeWord .sys 0x11E10183FFFFC000 = .ok (.fork ⟨7, false, 16, 24, false, false, 0xFF, 0xFF, 0xF, 0⟩) ∧
  decodeWord .eng 0x14E10083FFFFC000 = .ok (.mma ⟨7, false, 16, 8, false, false, 0xFF, 0xFF, 0xF, 0⟩) ∧
  decodeWord .seq 0x0100000000000080 = .ok (.sqloop ⟨0, 0, 0, 0, 0x80⟩) ∧
  decodeWord .seq 0x404C000400000000 = .ok (.seqCpy ⟨2, 3, 4, 0, 0⟩) ∧
  decodeWord .alu 0xFFE0000000000000 = .error .unassigned ∧
  decodeWord .alu 0x44E0000000000001 = .error .illegalEncoding ∧
  decodeHeader 0x0040020000000000 = none

/-! ### Steps -/

/-- A step performs the next event of the agenda; else, when a clause is open and it is its turn, it executes the instruction at which the
front group, or the front sequencer, stands, and then settles and lets time pass; a word that decodes to no instruction traps its group or
ends its program (notes/assumptions/8.md; R101, R122, R258, R294). -/
def Obligations.StepRunsDecoded : Prop :=
  (∀ (s : State) (g : Group) (k : Block), GroupTurn s g k →
    let u := (({ s with turn := true } : State).reachDue (s.quadKeyOf k.core) g.due).clearDue
    (∀ i, StandsAtInstr g k i → step s = finish (andThen (fun t => t.pace g k i) (exec i u))) ∧
    (∀ c, g.instr k.regsN = .error c → step s = finish (.next (u.groupTrap g c)))) ∧
  (∀ (s : State) (c : CoreRef) (kd : SeqKind), SeqTurn s c kd →
    let q := { s.sq c kd with due := none }
    let u := (({ s with turn := true } : State).reachDue (s.quadKeyOf c) (s.sq c kd).due).setSq c kd q
    (∀ i, (s.sq c kd).instr kd = .ok i → step s = finish (andThen (fun t => t.paceSeq c kd q i) (exec i u))) ∧
    (∀ x, (s.sq c kd).instr kd = .error x → step s = finish (.next (u.endProgram c kd q x)))) ∧
  (∀ (s : State) (i : Instr) (r : List Instr), s.agenda = i :: r →
    step s = if i.isEvent then finish (exec i { s with agenda := r }) else .next { s with agenda := r }) ∧
  (∀ (s : State) (i : Instr), s.agenda = [] → (s.turn = true ∨ s.opens = []) → s.autonomous = some i →
    step s = finish (exec i { s with turn := false })) ∧
  (∀ t : State, finish (.next t) = .next t.settle.tick) ∧
  (∀ (s : State) (k : Block) (g : Group), s.block g.blk = some k → s.blockFixed k = false →
    ∀ (t : State) (i : Instr), t.ctxs = s.ctxs → t.pace g k i = t) ∧
  (∀ (g : Group) (k : Block) (w : DWord), lget g.words g.idx = some w → g.head.cls ≠ .seq →
    (decodeWord g.head.cls w = .error .unassigned → g.instr k.regsN = .error (0x002, 0)) ∧
    (decodeWord g.head.cls w = .error .illegalEncoding → g.instr k.regsN = .error (0x003, 0x06)) ∧
    (∀ i, decodeWord g.head.cls w = .ok i → i.mustBeLast = true → g.isLast = false → g.instr k.regsN = .error (0x003, 0x07)) ∧
    (∀ i, decodeWord g.head.cls w = .ok i → (i.mustBeLast = false ∨ g.isLast = true) →
      (∃ o ∈ i.operands, ∃ r ∈ o.regs, r ≠ 255 ∧ k.regsN ≤ r) → g.instr k.regsN = .error (0x003, 0x0A)))

/-- Every step goes on: whatever state the machine is in, the next step answers a next state. -/
def Obligations.EveryStepGoesOn : Prop := ∀ s : State, StepsOn s

/-- The memory at the homes keeps its one canonical form in every step. -/
def Obligations.MemoryStaysCanonical : Prop := ∀ s t : State, Canonical s → step s = .next t → Canonical t

/-- R22, R84, R471, R474, R499, R504, R519, R520: what reset leaves. The values that the spec does not state are the model's choice: what
memory that nothing has written reads as (notes/assumptions/1.md), and the registers that notes/assumptions/2.md names. -/
def Obligations.ResetState : Prop :=
  Canonical State.reset ∧ State.reset.ctxs = [] ∧ State.reset.blocks = [] ∧ State.reset.launches = [] ∧ State.reset.opens = [] ∧
  (∀ a, mget State.reset.mem a = 0) ∧ (∀ g, State.reset.srec g = {}) ∧ (∀ c, (State.reset.core c).gen = 0) ∧
  State.reset.power.pwrlim = 0x0E10690F00140101 ∧ (∀ w ∈ State.reset.fab.lnkwt, w = 0x080404) ∧ State.reset.fab.lnkwt.length = 36 ∧
  State.reset.fab.en = false ∧ State.reset.host.done = false ∧ State.reset.host.fail = false ∧ State.reset.host.busy = none ∧
  State.reset.errs.head = 0 ∧ State.reset.errs.tail = 0 ∧ State.reset.dieMap.hdr = 0x0100000000000200

/-! ### Registers and memory -/

/-- R4, R28, R30, R115: gz reads 0 and a write to it is discarded; pt is true and a write to it is discarded; a register reads what was
last written, a pair its two registers, and no other register changes; n bytes written read back, lowest first, and no other byte changes. -/
def Obligations.RegistersAndMemory : Prop :=
  (∀ t : Thread, readsAs t 255 0 ∧ (∀ v, t.setReg 255 v = t) ∧ (∀ v, t.setReg64 255 v = t) ∧ t.pred 7 = true ∧ ∀ b, t.setPred 7 b = t) ∧
  (∀ (t : Thread) (r : Nat) (v : Word), r < 255 → t.landing r = none → readsAs (t.setReg r v) r v) ∧
  (∀ (t : Thread) (r q : Nat) (v : Word) (ctr tl : Nat), q ≠ r → (t.setReg r v).reg ctr tl q = t.reg ctr tl q) ∧
  (∀ (t : Thread) (r : Nat) (v : DWord) (ctr tl : Nat), r < 254 → t.ops = [] → (t.setReg64 r v).reg64 ctr tl r = v) ∧
  (∀ (t : Thread) (n m : Nat) (b : Bool), n < 7 → (t.setPred n b).pred m = if m = n then b else t.pred m) ∧
  (∀ (m : Mem) (a n v : Nat), mread (mwrite m a n v) a n = v % 2 ^ (8 * n)) ∧
  (∀ (m : Mem) (a n v x : Nat), (x < a ∨ a + n ≤ x) → mget (mwrite m a n v) x = mget m x) ∧
  (∀ (m : Mem) (a n : Nat), mread m a (n + 1) = (mget m a).toNat + 256 * mread m (a + 1) n) ∧
  (∀ (m : Mem) (a n v : Nat), Memory.wf m = true → Memory.wf (mwrite m a n v) = true) ∧
  (∀ m₁ m₂ : Mem, Memory.wf m₁ = true → Memory.wf m₂ = true → (∀ a, mget m₁ a = mget m₂ a) → m₁ = m₂)
end

