-- ==== Sys2Proof/Laws/Tables.lean ====
section
/-! SUPPORT. Tables and memory: reading after writing, and the canonical form of memory. -/

set_option Elab.async false

namespace Sys2Proof.Machine

/-! ### Tables -/

@[simp] theorem tget_nil {α : Type} (k : Nat) : tget ([] : Tbl α) k = none := rfl
@[simp] theorem tget_tput_same {α : Type} (t : Tbl α) (k : Nat) (v : α) : tget (tput t k v) k = some v := by
  induction t with
  | nil => simp [tput, tget]
  | cons p r ih => grind [tput, tget]
theorem tget_tput_other {α : Type} (t : Tbl α) (k j : Nat) (v : α) (h : j ≠ k) : tget (tput t k v) j = tget t j := by
  induction t with
  | nil => grind [tput, tget]
  | cons p r ih => grind [tput, tget]
theorem tget_tput {α : Type} (t : Tbl α) (k j : Nat) (v : α) : tget (tput t k v) j = if j = k then some v else tget t j := by
  split
  · simp [*]
  · exact tget_tput_other t k j v ‹_›
@[simp] theorem tget_tdel_same {α : Type} (t : Tbl α) (k : Nat) : tget (tdel t k) k = none := by
  induction t with
  | nil => rfl
  | cons p r ih => grind [tdel, tget]
theorem tget_tdel_other {α : Type} (t : Tbl α) (k j : Nat) (h : j ≠ k) : tget (tdel t k) j = tget t j := by
  induction t with
  | nil => rfl
  | cons p r ih => grind [tdel, tget]
theorem tget_tdel {α : Type} (t : Tbl α) (k j : Nat) : tget (tdel t k) j = if j = k then none else tget t j := by
  split
  · simp [*]
  · exact tget_tdel_other t k j ‹_›
theorem tget_tmap {α : Type} (f : α → α) (t : Tbl α) (k : Nat) : tget (tmap f t) k = (tget t k).map f := by
  induction t with
  | nil => rfl
  | cons p r ih => grind [tmap, tget]

/-! ### Lists by position -/

theorem lget_lset_same {α : Type} (l : List α) (n : Nat) (v : α) (h : n < l.length) : lget (lset l n v) n = some v := by
  induction l generalizing n with
  | nil => simp at h
  | cons x r ih => cases n <;> grind [lget, lset]
theorem lget_lset_other {α : Type} (l : List α) (n m : Nat) (v : α) (h : m ≠ n) : lget (lset l n v) m = lget l m := by
  induction l generalizing n m with
  | nil => rfl
  | cons x r ih => cases n <;> cases m <;> grind [lget, lset]
@[simp] theorem length_lset {α : Type} (l : List α) (n : Nat) (v : α) : (lset l n v).length = l.length := by
  induction l generalizing n with
  | nil => rfl
  | cons x r ih => cases n <;> grind [lset]
theorem lget_eq_getElem? {α : Type} (l : List α) (n : Nat) : lget l n = l[n]? := by
  fun_induction lget l n <;> simp_all

/-! ### Memory -/

@[simp] theorem mget_nil (a : Nat) : mget [] a = memDefault := rfl
theorem mget_tput (m : Mem) (a b : Nat) (v : Byte) : mget (tput m a v) b = if b = a then v else mget m b := by
  induction m with
  | nil => grind [tput, mget]
  | cons p r ih => grind [tput, mget]
theorem mget_tdel (m : Mem) (a b : Nat) : mget (tdel m a) b = if b = a then memDefault else mget m b := by
  induction m with
  | nil => grind [tdel, mget]
  | cons p r ih => grind [tdel, mget]
/-- Reading one byte after writing one byte. -/
theorem mget_mset (m : Mem) (a b : Nat) (v : Byte) : mget (mset m a v) b = if b = a then v else mget m b := by
  unfold mset
  split
  · rw [mget_tdel]; grind
  · rw [mget_tput]
/-- Reading one byte after writing several. -/
theorem mget_mputs (m : Mem) (a : Nat) (bs : List Byte) (b : Nat) :
    mget (mputs m a bs) b = if a ≤ b ∧ b < a + bs.length then (bs[b - a]?).getD 0 else mget m b := by
  induction bs generalizing m a with
  | nil => grind [mputs]
  | cons x r ih =>
    rw [mputs, ih, mget_mset]
    by_cases h : b = a
    · grind
    · by_cases h2 : a + 1 ≤ b ∧ b < a + 1 + r.length
      · have e : b - a = (b - (a + 1)) + 1 := by omega
        grind
      · grind
theorem mget_mputs_outside (m : Mem) (a : Nat) (bs : List Byte) (b : Nat) (h : b < a ∨ a + bs.length ≤ b) :
    mget (mputs m a bs) b = mget m b := by
  rw [mget_mputs]; grind
@[simp] theorem length_mbytes (m : Mem) (a n : Nat) : (mbytes m a n).length = n := by
  induction n generalizing a with
  | zero => rfl
  | succ n ih => simp [mbytes, ih]
theorem mbytes_getElem? (m : Mem) (a n i : Nat) (h : i < n) : (mbytes m a n)[i]? = some (mget m (a + i)) := by
  induction n generalizing a i with
  | zero => omega
  | succ n ih =>
    cases i with
    | zero => simp [mbytes]
    | succ i => simp only [mbytes, List.getElem?_cons_succ]; rw [ih (a + 1) i (by omega)]; congr 2; omega
@[simp] theorem length_leBytes (n v : Nat) : (leBytes n v).length = n := by
  induction n generalizing v with
  | zero => rfl
  | succ n ih => simp [leBytes, ih]
/-- The bytes just written are read back. -/
theorem mbytes_mputs_same (m : Mem) (a : Nat) (bs : List Byte) : mbytes (mputs m a bs) a bs.length = bs := by
  apply List.ext_getElem?
  intro i
  by_cases h : i < bs.length
  · rw [mbytes_getElem? _ _ _ _ h, mget_mputs]
    simp only [Nat.le_add_right, Nat.add_lt_add_iff_left, h, and_self, if_true, Nat.add_sub_cancel_left]
    simp [List.getElem?_eq_getElem h]
  · rw [List.getElem?_eq_none (by simpa using h), List.getElem?_eq_none (by simpa using h)]
/-- A little-endian value of n bytes is the value modulo 2^(8n). -/
theorem leVal_leBytes (n v : Nat) : leVal (leBytes n v) = v % 256 ^ n := by
  induction n generalizing v with
  | zero => simp [leBytes, leVal, Nat.mod_one]
  | succ n ih =>
    rw [leBytes, leVal, ih, Nat.pow_succ, Nat.mul_comm (256 ^ n), Nat.mod_mul]
    simp
/-- A value written is read back, modulo its width. -/
theorem mread_mwrite_same (m : Mem) (a n v : Nat) : mread (mwrite m a n v) a n = v % 256 ^ n := by
  have h := mbytes_mputs_same m a (leBytes n v)
  rw [length_leBytes] at h
  rw [mread, mwrite, h, leVal_leBytes]
/-- A write elsewhere leaves a byte alone. -/
theorem mget_mwrite_outside (m : Mem) (a n v b : Nat) (h : b < a ∨ a + n ≤ b) : mget (mwrite m a n v) b = mget m b :=
  mget_mputs_outside m a _ b (by simpa using h)

/-! ### The canonical form -/

theorem memWfFrom_weaken {lo lo' : Nat} {m : Mem} (h : memWfFrom lo m = true) (hl : lo' ≤ lo) : memWfFrom lo' m = true := by
  cases m <;> grind [memWfFrom]
theorem memWfFrom_tput {lo a : Nat} {m : Mem} {v : Byte} (h : memWfFrom lo m = true) (hl : lo ≤ a) (hv : v ≠ memDefault) :
    memWfFrom lo (tput m a v) = true := by
  induction m generalizing lo with
  | nil => grind [memWfFrom, tput]
  | cons p r ih => grind [memWfFrom, tput]
theorem memWfFrom_tdel {lo a : Nat} {m : Mem} (h : memWfFrom lo m = true) : memWfFrom lo (tdel m a) = true := by
  induction m generalizing lo with
  | nil => rfl
  | cons p r ih =>
    have w := ih (lo := p.1 + 1)
    have e : tdel (p :: r) a = if p.1 = a then tdel r a else p :: tdel r a := by grind [tdel]
    rw [e]
    split
    · exact memWfFrom_weaken (w (by grind [memWfFrom])) (by grind [memWfFrom])
    · grind [memWfFrom]
/-- A byte write keeps the canonical form. -/
theorem Memory.wf_mset {m : Mem} (a : Nat) (v : Byte) (h : Memory.wf m = true) : Memory.wf (mset m a v) = true := by
  unfold mset
  split
  · exact memWfFrom_tdel h
  · exact memWfFrom_tput h (Nat.zero_le _) (by grind)
/-- A write keeps the canonical form. -/
theorem Memory.wf_mputs {m : Mem} (a : Nat) (bs : List Byte) (h : Memory.wf m = true) : Memory.wf (mputs m a bs) = true := by
  induction bs generalizing m a with
  | nil => exact h
  | cons b r ih => exact ih _ (Memory.wf_mset a b h)
theorem Memory.wf_mwrite {m : Mem} (a n v : Nat) (h : Memory.wf m = true) : Memory.wf (mwrite m a n v) = true :=
  Memory.wf_mputs a _ h

theorem memWfFrom_mget {lo a : Nat} {m : Mem} (h : memWfFrom lo m = true) (hl : a < lo) : mget m a = memDefault := by
  induction m generalizing lo with
  | nil => rfl
  | cons p r ih =>
    have := @ih (p.1 + 1)
    grind [memWfFrom, mget]
theorem memWfFrom_ext {lo lo' : Nat} {m n : Mem} (h : memWfFrom lo m = true) (k : memWfFrom lo' n = true)
    (e : ∀ a, mget m a = mget n a) : m = n := by
  induction m generalizing lo lo' n with
  | nil =>
    cases n with
    | nil => rfl
    | cons q t => have := e q.1; grind [memWfFrom, mget]
  | cons p r ih =>
    cases n with
    | nil => have := e p.1; grind [memWfFrom, mget]
    | cons q t =>
      have e1 := e p.1
      have e2 := e q.1
      have m1 := @memWfFrom_mget (p.1 + 1) q.1 r
      have m2 := @memWfFrom_mget (q.1 + 1) p.1 t
      have hp : p.1 = q.1 := by grind [memWfFrom, mget]
      have hv : p.2 = q.2 := by grind [memWfFrom, mget]
      have : r = t := by
        refine ih (lo := p.1 + 1) (lo' := q.1 + 1) (by grind [memWfFrom]) (by grind [memWfFrom]) fun a => ?_
        have ea := e a
        have n1 := @memWfFrom_mget (p.1 + 1) a r (by grind [memWfFrom])
        have n2 := @memWfFrom_mget (q.1 + 1) a t (by grind [memWfFrom])
        grind [mget]
      grind
/-- Memories in canonical form that read the same are equal. -/
theorem Memory.wf_ext {m n : Mem} (h : Memory.wf m = true) (k : Memory.wf n = true) (e : ∀ a, mget m a = mget n a) : m = n :=
  memWfFrom_ext h k e

end Sys2Proof.Machine
end

