-- ==== Sys2Proof/Laws/State.lean ====
section
/-! SUPPORT. What each plain update of the state leaves alone: one lemma for each field; and how blocks and threads read after an
update. -/

set_option Elab.async false

namespace Sys2Proof.Machine

/-! ### State.useFree -/

@[simp] theorem State.useFree_mem (s : State) : (s.useFree).mem = s.mem := rfl
@[simp] theorem State.useFree_poison (s : State) : (s.useFree).poison = s.poison := rfl
@[simp] theorem State.useFree_sync (s : State) : (s.useFree).sync = s.sync := rfl
@[simp] theorem State.useFree_alias2 (s : State) : (s.useFree).alias2 = s.alias2 := rfl
@[simp] theorem State.useFree_llc (s : State) : (s.useFree).llc = s.llc := rfl
@[simp] theorem State.useFree_l2 (s : State) : (s.useFree).l2 = s.l2 := rfl
@[simp] theorem State.useFree_tracked (s : State) : (s.useFree).tracked = s.tracked := rfl
@[simp] theorem State.useFree_cores (s : State) : (s.useFree).cores = s.cores := rfl
@[simp] theorem State.useFree_tlb2 (s : State) : (s.useFree).tlb2 = s.tlb2 := rfl
@[simp] theorem State.useFree_coal (s : State) : (s.useFree).coal = s.coal := rfl
@[simp] theorem State.useFree_quads (s : State) : (s.useFree).quads = s.quads := rfl
@[simp] theorem State.useFree_dieMap (s : State) : (s.useFree).dieMap = s.dieMap := rfl
@[simp] theorem State.useFree_ctxs (s : State) : (s.useFree).ctxs = s.ctxs := rfl
@[simp] theorem State.useFree_launches (s : State) : (s.useFree).launches = s.launches := rfl
@[simp] theorem State.useFree_blocks (s : State) : (s.useFree).blocks = s.blocks := rfl
@[simp] theorem State.useFree_bars (s : State) : (s.useFree).bars = s.bars := rfl
@[simp] theorem State.useFree_reqs (s : State) : (s.useFree).reqs = s.reqs := rfl
@[simp] theorem State.useFree_fences (s : State) : (s.useFree).fences = s.fences := rfl
@[simp] theorem State.useFree_remotes (s : State) : (s.useFree).remotes = s.remotes := rfl
@[simp] theorem State.useFree_notices (s : State) : (s.useFree).notices = s.notices := rfl
@[simp] theorem State.useFree_moving (s : State) : (s.useFree).moving = s.moving := rfl
@[simp] theorem State.useFree_vcCmds (s : State) : (s.useFree).vcCmds = s.vcCmds := rfl
@[simp] theorem State.useFree_fab (s : State) : (s.useFree).fab = s.fab := rfl
@[simp] theorem State.useFree_narrows (s : State) : (s.useFree).narrows = s.narrows := rfl
@[simp] theorem State.useFree_pushes (s : State) : (s.useFree).pushes = s.pushes := rfl
@[simp] theorem State.useFree_fronts (s : State) : (s.useFree).fronts = s.fronts := rfl
@[simp] theorem State.useFree_rgnReqs (s : State) : (s.useFree).rgnReqs = s.rgnReqs := rfl
@[simp] theorem State.useFree_images (s : State) : (s.useFree).images = s.images := rfl
@[simp] theorem State.useFree_engs (s : State) : (s.useFree).engs = s.engs := rfl
@[simp] theorem State.useFree_later (s : State) : (s.useFree).later = s.later := rfl
@[simp] theorem State.useFree_errs (s : State) : (s.useFree).errs = s.errs := rfl
@[simp] theorem State.useFree_power (s : State) : (s.useFree).power = s.power := rfl
@[simp] theorem State.useFree_host (s : State) : (s.useFree).host = s.host := rfl
@[simp] theorem State.useFree_badShares (s : State) : (s.useFree).badShares = s.badShares := rfl
@[simp] theorem State.useFree_lostDies (s : State) : (s.useFree).lostDies = s.lostDies := rfl
@[simp] theorem State.useFree_asleep (s : State) : (s.useFree).asleep = s.asleep := rfl
@[simp] theorem State.useFree_nextId (s : State) : (s.useFree).nextId = s.nextId := rfl
@[simp] theorem State.useFree_opens (s : State) : (s.useFree).opens = s.opens := rfl
@[simp] theorem State.useFree_agenda (s : State) : (s.useFree).agenda = s.agenda := rfl
@[simp] theorem State.useFree_turn (s : State) : (s.useFree).turn = s.turn := rfl

/-! ### State.setCore -/

@[simp] theorem State.setCore_mem (s : State) (c : CoreRef) (k : Core) : (s.setCore c k).mem = s.mem := rfl
@[simp] theorem State.setCore_poison (s : State) (c : CoreRef) (k : Core) : (s.setCore c k).poison = s.poison := rfl
@[simp] theorem State.setCore_sync (s : State) (c : CoreRef) (k : Core) : (s.setCore c k).sync = s.sync := rfl
@[simp] theorem State.setCore_alias2 (s : State) (c : CoreRef) (k : Core) : (s.setCore c k).alias2 = s.alias2 := rfl
@[simp] theorem State.setCore_llc (s : State) (c : CoreRef) (k : Core) : (s.setCore c k).llc = s.llc := rfl
@[simp] theorem State.setCore_l2 (s : State) (c : CoreRef) (k : Core) : (s.setCore c k).l2 = s.l2 := rfl
@[simp] theorem State.setCore_tracked (s : State) (c : CoreRef) (k : Core) : (s.setCore c k).tracked = s.tracked := rfl
@[simp] theorem State.setCore_tlb2 (s : State) (c : CoreRef) (k : Core) : (s.setCore c k).tlb2 = s.tlb2 := rfl
@[simp] theorem State.setCore_coal (s : State) (c : CoreRef) (k : Core) : (s.setCore c k).coal = s.coal := rfl
@[simp] theorem State.setCore_quads (s : State) (c : CoreRef) (k : Core) : (s.setCore c k).quads = s.quads := rfl
@[simp] theorem State.setCore_dieMap (s : State) (c : CoreRef) (k : Core) : (s.setCore c k).dieMap = s.dieMap := rfl
@[simp] theorem State.setCore_ctxs (s : State) (c : CoreRef) (k : Core) : (s.setCore c k).ctxs = s.ctxs := rfl
@[simp] theorem State.setCore_launches (s : State) (c : CoreRef) (k : Core) : (s.setCore c k).launches = s.launches := rfl
@[simp] theorem State.setCore_blocks (s : State) (c : CoreRef) (k : Core) : (s.setCore c k).blocks = s.blocks := rfl
@[simp] theorem State.setCore_bars (s : State) (c : CoreRef) (k : Core) : (s.setCore c k).bars = s.bars := rfl
@[simp] theorem State.setCore_reqs (s : State) (c : CoreRef) (k : Core) : (s.setCore c k).reqs = s.reqs := rfl
@[simp] theorem State.setCore_fences (s : State) (c : CoreRef) (k : Core) : (s.setCore c k).fences = s.fences := rfl
@[simp] theorem State.setCore_remotes (s : State) (c : CoreRef) (k : Core) : (s.setCore c k).remotes = s.remotes := rfl
@[simp] theorem State.setCore_notices (s : State) (c : CoreRef) (k : Core) : (s.setCore c k).notices = s.notices := rfl
@[simp] theorem State.setCore_moving (s : State) (c : CoreRef) (k : Core) : (s.setCore c k).moving = s.moving := rfl
@[simp] theorem State.setCore_vcCmds (s : State) (c : CoreRef) (k : Core) : (s.setCore c k).vcCmds = s.vcCmds := rfl
@[simp] theorem State.setCore_fab (s : State) (c : CoreRef) (k : Core) : (s.setCore c k).fab = s.fab := rfl
@[simp] theorem State.setCore_narrows (s : State) (c : CoreRef) (k : Core) : (s.setCore c k).narrows = s.narrows := rfl
@[simp] theorem State.setCore_pushes (s : State) (c : CoreRef) (k : Core) : (s.setCore c k).pushes = s.pushes := rfl
@[simp] theorem State.setCore_fronts (s : State) (c : CoreRef) (k : Core) : (s.setCore c k).fronts = s.fronts := rfl
@[simp] theorem State.setCore_rgnReqs (s : State) (c : CoreRef) (k : Core) : (s.setCore c k).rgnReqs = s.rgnReqs := rfl
@[simp] theorem State.setCore_images (s : State) (c : CoreRef) (k : Core) : (s.setCore c k).images = s.images := rfl
@[simp] theorem State.setCore_engs (s : State) (c : CoreRef) (k : Core) : (s.setCore c k).engs = s.engs := rfl
@[simp] theorem State.setCore_later (s : State) (c : CoreRef) (k : Core) : (s.setCore c k).later = s.later := rfl
@[simp] theorem State.setCore_errs (s : State) (c : CoreRef) (k : Core) : (s.setCore c k).errs = s.errs := rfl
@[simp] theorem State.setCore_power (s : State) (c : CoreRef) (k : Core) : (s.setCore c k).power = s.power := rfl
@[simp] theorem State.setCore_host (s : State) (c : CoreRef) (k : Core) : (s.setCore c k).host = s.host := rfl
@[simp] theorem State.setCore_badShares (s : State) (c : CoreRef) (k : Core) : (s.setCore c k).badShares = s.badShares := rfl
@[simp] theorem State.setCore_lostDies (s : State) (c : CoreRef) (k : Core) : (s.setCore c k).lostDies = s.lostDies := rfl
@[simp] theorem State.setCore_asleep (s : State) (c : CoreRef) (k : Core) : (s.setCore c k).asleep = s.asleep := rfl
@[simp] theorem State.setCore_clock (s : State) (c : CoreRef) (k : Core) : (s.setCore c k).clock = s.clock := rfl
@[simp] theorem State.setCore_nextId (s : State) (c : CoreRef) (k : Core) : (s.setCore c k).nextId = s.nextId := rfl
@[simp] theorem State.setCore_opens (s : State) (c : CoreRef) (k : Core) : (s.setCore c k).opens = s.opens := rfl
@[simp] theorem State.setCore_agenda (s : State) (c : CoreRef) (k : Core) : (s.setCore c k).agenda = s.agenda := rfl
@[simp] theorem State.setCore_turn (s : State) (c : CoreRef) (k : Core) : (s.setCore c k).turn = s.turn := rfl

/-! ### State.setQuad -/

@[simp] theorem State.setQuad_mem (s : State) (n : Nat) (q : Quad) : (s.setQuad n q).mem = s.mem := rfl
@[simp] theorem State.setQuad_poison (s : State) (n : Nat) (q : Quad) : (s.setQuad n q).poison = s.poison := rfl
@[simp] theorem State.setQuad_sync (s : State) (n : Nat) (q : Quad) : (s.setQuad n q).sync = s.sync := rfl
@[simp] theorem State.setQuad_alias2 (s : State) (n : Nat) (q : Quad) : (s.setQuad n q).alias2 = s.alias2 := rfl
@[simp] theorem State.setQuad_llc (s : State) (n : Nat) (q : Quad) : (s.setQuad n q).llc = s.llc := rfl
@[simp] theorem State.setQuad_l2 (s : State) (n : Nat) (q : Quad) : (s.setQuad n q).l2 = s.l2 := rfl
@[simp] theorem State.setQuad_tracked (s : State) (n : Nat) (q : Quad) : (s.setQuad n q).tracked = s.tracked := rfl
@[simp] theorem State.setQuad_cores (s : State) (n : Nat) (q : Quad) : (s.setQuad n q).cores = s.cores := rfl
@[simp] theorem State.setQuad_tlb2 (s : State) (n : Nat) (q : Quad) : (s.setQuad n q).tlb2 = s.tlb2 := rfl
@[simp] theorem State.setQuad_coal (s : State) (n : Nat) (q : Quad) : (s.setQuad n q).coal = s.coal := rfl
@[simp] theorem State.setQuad_dieMap (s : State) (n : Nat) (q : Quad) : (s.setQuad n q).dieMap = s.dieMap := rfl
@[simp] theorem State.setQuad_ctxs (s : State) (n : Nat) (q : Quad) : (s.setQuad n q).ctxs = s.ctxs := rfl
@[simp] theorem State.setQuad_launches (s : State) (n : Nat) (q : Quad) : (s.setQuad n q).launches = s.launches := rfl
@[simp] theorem State.setQuad_blocks (s : State) (n : Nat) (q : Quad) : (s.setQuad n q).blocks = s.blocks := rfl
@[simp] theorem State.setQuad_bars (s : State) (n : Nat) (q : Quad) : (s.setQuad n q).bars = s.bars := rfl
@[simp] theorem State.setQuad_reqs (s : State) (n : Nat) (q : Quad) : (s.setQuad n q).reqs = s.reqs := rfl
@[simp] theorem State.setQuad_fences (s : State) (n : Nat) (q : Quad) : (s.setQuad n q).fences = s.fences := rfl
@[simp] theorem State.setQuad_remotes (s : State) (n : Nat) (q : Quad) : (s.setQuad n q).remotes = s.remotes := rfl
@[simp] theorem State.setQuad_notices (s : State) (n : Nat) (q : Quad) : (s.setQuad n q).notices = s.notices := rfl
@[simp] theorem State.setQuad_moving (s : State) (n : Nat) (q : Quad) : (s.setQuad n q).moving = s.moving := rfl
@[simp] theorem State.setQuad_vcCmds (s : State) (n : Nat) (q : Quad) : (s.setQuad n q).vcCmds = s.vcCmds := rfl
@[simp] theorem State.setQuad_fab (s : State) (n : Nat) (q : Quad) : (s.setQuad n q).fab = s.fab := rfl
@[simp] theorem State.setQuad_narrows (s : State) (n : Nat) (q : Quad) : (s.setQuad n q).narrows = s.narrows := rfl
@[simp] theorem State.setQuad_pushes (s : State) (n : Nat) (q : Quad) : (s.setQuad n q).pushes = s.pushes := rfl
@[simp] theorem State.setQuad_fronts (s : State) (n : Nat) (q : Quad) : (s.setQuad n q).fronts = s.fronts := rfl
@[simp] theorem State.setQuad_rgnReqs (s : State) (n : Nat) (q : Quad) : (s.setQuad n q).rgnReqs = s.rgnReqs := rfl
@[simp] theorem State.setQuad_images (s : State) (n : Nat) (q : Quad) : (s.setQuad n q).images = s.images := rfl
@[simp] theorem State.setQuad_engs (s : State) (n : Nat) (q : Quad) : (s.setQuad n q).engs = s.engs := rfl
@[simp] theorem State.setQuad_later (s : State) (n : Nat) (q : Quad) : (s.setQuad n q).later = s.later := rfl
@[simp] theorem State.setQuad_errs (s : State) (n : Nat) (q : Quad) : (s.setQuad n q).errs = s.errs := rfl
@[simp] theorem State.setQuad_power (s : State) (n : Nat) (q : Quad) : (s.setQuad n q).power = s.power := rfl
@[simp] theorem State.setQuad_host (s : State) (n : Nat) (q : Quad) : (s.setQuad n q).host = s.host := rfl
@[simp] theorem State.setQuad_badShares (s : State) (n : Nat) (q : Quad) : (s.setQuad n q).badShares = s.badShares := rfl
@[simp] theorem State.setQuad_lostDies (s : State) (n : Nat) (q : Quad) : (s.setQuad n q).lostDies = s.lostDies := rfl
@[simp] theorem State.setQuad_asleep (s : State) (n : Nat) (q : Quad) : (s.setQuad n q).asleep = s.asleep := rfl
@[simp] theorem State.setQuad_clock (s : State) (n : Nat) (q : Quad) : (s.setQuad n q).clock = s.clock := rfl
@[simp] theorem State.setQuad_nextId (s : State) (n : Nat) (q : Quad) : (s.setQuad n q).nextId = s.nextId := rfl
@[simp] theorem State.setQuad_opens (s : State) (n : Nat) (q : Quad) : (s.setQuad n q).opens = s.opens := rfl
@[simp] theorem State.setQuad_agenda (s : State) (n : Nat) (q : Quad) : (s.setQuad n q).agenda = s.agenda := rfl
@[simp] theorem State.setQuad_turn (s : State) (n : Nat) (q : Quad) : (s.setQuad n q).turn = s.turn := rfl

/-! ### State.modBlock -/

@[simp] theorem State.modBlock_mem (s : State) (b : Nat) (f : Block → Block) : (s.modBlock b f).mem = s.mem := rfl
@[simp] theorem State.modBlock_poison (s : State) (b : Nat) (f : Block → Block) : (s.modBlock b f).poison = s.poison := rfl
@[simp] theorem State.modBlock_sync (s : State) (b : Nat) (f : Block → Block) : (s.modBlock b f).sync = s.sync := rfl
@[simp] theorem State.modBlock_alias2 (s : State) (b : Nat) (f : Block → Block) : (s.modBlock b f).alias2 = s.alias2 := rfl
@[simp] theorem State.modBlock_llc (s : State) (b : Nat) (f : Block → Block) : (s.modBlock b f).llc = s.llc := rfl
@[simp] theorem State.modBlock_l2 (s : State) (b : Nat) (f : Block → Block) : (s.modBlock b f).l2 = s.l2 := rfl
@[simp] theorem State.modBlock_tracked (s : State) (b : Nat) (f : Block → Block) : (s.modBlock b f).tracked = s.tracked := rfl
@[simp] theorem State.modBlock_cores (s : State) (b : Nat) (f : Block → Block) : (s.modBlock b f).cores = s.cores := rfl
@[simp] theorem State.modBlock_tlb2 (s : State) (b : Nat) (f : Block → Block) : (s.modBlock b f).tlb2 = s.tlb2 := rfl
@[simp] theorem State.modBlock_coal (s : State) (b : Nat) (f : Block → Block) : (s.modBlock b f).coal = s.coal := rfl
@[simp] theorem State.modBlock_quads (s : State) (b : Nat) (f : Block → Block) : (s.modBlock b f).quads = s.quads := rfl
@[simp] theorem State.modBlock_dieMap (s : State) (b : Nat) (f : Block → Block) : (s.modBlock b f).dieMap = s.dieMap := rfl
@[simp] theorem State.modBlock_ctxs (s : State) (b : Nat) (f : Block → Block) : (s.modBlock b f).ctxs = s.ctxs := rfl
@[simp] theorem State.modBlock_launches (s : State) (b : Nat) (f : Block → Block) : (s.modBlock b f).launches = s.launches := rfl
@[simp] theorem State.modBlock_bars (s : State) (b : Nat) (f : Block → Block) : (s.modBlock b f).bars = s.bars := rfl
@[simp] theorem State.modBlock_reqs (s : State) (b : Nat) (f : Block → Block) : (s.modBlock b f).reqs = s.reqs := rfl
@[simp] theorem State.modBlock_fences (s : State) (b : Nat) (f : Block → Block) : (s.modBlock b f).fences = s.fences := rfl
@[simp] theorem State.modBlock_remotes (s : State) (b : Nat) (f : Block → Block) : (s.modBlock b f).remotes = s.remotes := rfl
@[simp] theorem State.modBlock_notices (s : State) (b : Nat) (f : Block → Block) : (s.modBlock b f).notices = s.notices := rfl
@[simp] theorem State.modBlock_moving (s : State) (b : Nat) (f : Block → Block) : (s.modBlock b f).moving = s.moving := rfl
@[simp] theorem State.modBlock_vcCmds (s : State) (b : Nat) (f : Block → Block) : (s.modBlock b f).vcCmds = s.vcCmds := rfl
@[simp] theorem State.modBlock_fab (s : State) (b : Nat) (f : Block → Block) : (s.modBlock b f).fab = s.fab := rfl
@[simp] theorem State.modBlock_narrows (s : State) (b : Nat) (f : Block → Block) : (s.modBlock b f).narrows = s.narrows := rfl
@[simp] theorem State.modBlock_pushes (s : State) (b : Nat) (f : Block → Block) : (s.modBlock b f).pushes = s.pushes := rfl
@[simp] theorem State.modBlock_fronts (s : State) (b : Nat) (f : Block → Block) : (s.modBlock b f).fronts = s.fronts := rfl
@[simp] theorem State.modBlock_rgnReqs (s : State) (b : Nat) (f : Block → Block) : (s.modBlock b f).rgnReqs = s.rgnReqs := rfl
@[simp] theorem State.modBlock_images (s : State) (b : Nat) (f : Block → Block) : (s.modBlock b f).images = s.images := rfl
@[simp] theorem State.modBlock_engs (s : State) (b : Nat) (f : Block → Block) : (s.modBlock b f).engs = s.engs := rfl
@[simp] theorem State.modBlock_later (s : State) (b : Nat) (f : Block → Block) : (s.modBlock b f).later = s.later := rfl
@[simp] theorem State.modBlock_errs (s : State) (b : Nat) (f : Block → Block) : (s.modBlock b f).errs = s.errs := rfl
@[simp] theorem State.modBlock_power (s : State) (b : Nat) (f : Block → Block) : (s.modBlock b f).power = s.power := rfl
@[simp] theorem State.modBlock_host (s : State) (b : Nat) (f : Block → Block) : (s.modBlock b f).host = s.host := rfl
@[simp] theorem State.modBlock_badShares (s : State) (b : Nat) (f : Block → Block) : (s.modBlock b f).badShares = s.badShares := rfl
@[simp] theorem State.modBlock_lostDies (s : State) (b : Nat) (f : Block → Block) : (s.modBlock b f).lostDies = s.lostDies := rfl
@[simp] theorem State.modBlock_asleep (s : State) (b : Nat) (f : Block → Block) : (s.modBlock b f).asleep = s.asleep := rfl
@[simp] theorem State.modBlock_clock (s : State) (b : Nat) (f : Block → Block) : (s.modBlock b f).clock = s.clock := rfl
@[simp] theorem State.modBlock_nextId (s : State) (b : Nat) (f : Block → Block) : (s.modBlock b f).nextId = s.nextId := rfl
@[simp] theorem State.modBlock_opens (s : State) (b : Nat) (f : Block → Block) : (s.modBlock b f).opens = s.opens := rfl
@[simp] theorem State.modBlock_agenda (s : State) (b : Nat) (f : Block → Block) : (s.modBlock b f).agenda = s.agenda := rfl
@[simp] theorem State.modBlock_turn (s : State) (b : Nat) (f : Block → Block) : (s.modBlock b f).turn = s.turn := rfl

/-! ### State.setBlock -/

@[simp] theorem State.setBlock_mem (s : State) (k : Block) : (s.setBlock k).mem = s.mem := rfl
@[simp] theorem State.setBlock_poison (s : State) (k : Block) : (s.setBlock k).poison = s.poison := rfl
@[simp] theorem State.setBlock_sync (s : State) (k : Block) : (s.setBlock k).sync = s.sync := rfl
@[simp] theorem State.setBlock_alias2 (s : State) (k : Block) : (s.setBlock k).alias2 = s.alias2 := rfl
@[simp] theorem State.setBlock_llc (s : State) (k : Block) : (s.setBlock k).llc = s.llc := rfl
@[simp] theorem State.setBlock_l2 (s : State) (k : Block) : (s.setBlock k).l2 = s.l2 := rfl
@[simp] theorem State.setBlock_tracked (s : State) (k : Block) : (s.setBlock k).tracked = s.tracked := rfl
@[simp] theorem State.setBlock_cores (s : State) (k : Block) : (s.setBlock k).cores = s.cores := rfl
@[simp] theorem State.setBlock_tlb2 (s : State) (k : Block) : (s.setBlock k).tlb2 = s.tlb2 := rfl
@[simp] theorem State.setBlock_coal (s : State) (k : Block) : (s.setBlock k).coal = s.coal := rfl
@[simp] theorem State.setBlock_quads (s : State) (k : Block) : (s.setBlock k).quads = s.quads := rfl
@[simp] theorem State.setBlock_dieMap (s : State) (k : Block) : (s.setBlock k).dieMap = s.dieMap := rfl
@[simp] theorem State.setBlock_ctxs (s : State) (k : Block) : (s.setBlock k).ctxs = s.ctxs := rfl
@[simp] theorem State.setBlock_launches (s : State) (k : Block) : (s.setBlock k).launches = s.launches := rfl
@[simp] theorem State.setBlock_bars (s : State) (k : Block) : (s.setBlock k).bars = s.bars := rfl
@[simp] theorem State.setBlock_reqs (s : State) (k : Block) : (s.setBlock k).reqs = s.reqs := rfl
@[simp] theorem State.setBlock_fences (s : State) (k : Block) : (s.setBlock k).fences = s.fences := rfl
@[simp] theorem State.setBlock_remotes (s : State) (k : Block) : (s.setBlock k).remotes = s.remotes := rfl
@[simp] theorem State.setBlock_notices (s : State) (k : Block) : (s.setBlock k).notices = s.notices := rfl
@[simp] theorem State.setBlock_moving (s : State) (k : Block) : (s.setBlock k).moving = s.moving := rfl
@[simp] theorem State.setBlock_vcCmds (s : State) (k : Block) : (s.setBlock k).vcCmds = s.vcCmds := rfl
@[simp] theorem State.setBlock_fab (s : State) (k : Block) : (s.setBlock k).fab = s.fab := rfl
@[simp] theorem State.setBlock_narrows (s : State) (k : Block) : (s.setBlock k).narrows = s.narrows := rfl
@[simp] theorem State.setBlock_pushes (s : State) (k : Block) : (s.setBlock k).pushes = s.pushes := rfl
@[simp] theorem State.setBlock_fronts (s : State) (k : Block) : (s.setBlock k).fronts = s.fronts := rfl
@[simp] theorem State.setBlock_rgnReqs (s : State) (k : Block) : (s.setBlock k).rgnReqs = s.rgnReqs := rfl
@[simp] theorem State.setBlock_images (s : State) (k : Block) : (s.setBlock k).images = s.images := rfl
@[simp] theorem State.setBlock_engs (s : State) (k : Block) : (s.setBlock k).engs = s.engs := rfl
@[simp] theorem State.setBlock_later (s : State) (k : Block) : (s.setBlock k).later = s.later := rfl
@[simp] theorem State.setBlock_errs (s : State) (k : Block) : (s.setBlock k).errs = s.errs := rfl
@[simp] theorem State.setBlock_power (s : State) (k : Block) : (s.setBlock k).power = s.power := rfl
@[simp] theorem State.setBlock_host (s : State) (k : Block) : (s.setBlock k).host = s.host := rfl
@[simp] theorem State.setBlock_badShares (s : State) (k : Block) : (s.setBlock k).badShares = s.badShares := rfl
@[simp] theorem State.setBlock_lostDies (s : State) (k : Block) : (s.setBlock k).lostDies = s.lostDies := rfl
@[simp] theorem State.setBlock_asleep (s : State) (k : Block) : (s.setBlock k).asleep = s.asleep := rfl
@[simp] theorem State.setBlock_clock (s : State) (k : Block) : (s.setBlock k).clock = s.clock := rfl
@[simp] theorem State.setBlock_nextId (s : State) (k : Block) : (s.setBlock k).nextId = s.nextId := rfl
@[simp] theorem State.setBlock_opens (s : State) (k : Block) : (s.setBlock k).opens = s.opens := rfl
@[simp] theorem State.setBlock_agenda (s : State) (k : Block) : (s.setBlock k).agenda = s.agenda := rfl
@[simp] theorem State.setBlock_turn (s : State) (k : Block) : (s.setBlock k).turn = s.turn := rfl

/-! ### State.modThread -/

@[simp] theorem State.modThread_mem (s : State) (b tl : Nat) (f : Thread → Thread) : (s.modThread b tl f).mem = s.mem := rfl
@[simp] theorem State.modThread_poison (s : State) (b tl : Nat) (f : Thread → Thread) : (s.modThread b tl f).poison = s.poison := rfl
@[simp] theorem State.modThread_sync (s : State) (b tl : Nat) (f : Thread → Thread) : (s.modThread b tl f).sync = s.sync := rfl
@[simp] theorem State.modThread_alias2 (s : State) (b tl : Nat) (f : Thread → Thread) : (s.modThread b tl f).alias2 = s.alias2 := rfl
@[simp] theorem State.modThread_llc (s : State) (b tl : Nat) (f : Thread → Thread) : (s.modThread b tl f).llc = s.llc := rfl
@[simp] theorem State.modThread_l2 (s : State) (b tl : Nat) (f : Thread → Thread) : (s.modThread b tl f).l2 = s.l2 := rfl
@[simp] theorem State.modThread_tracked (s : State) (b tl : Nat) (f : Thread → Thread) : (s.modThread b tl f).tracked = s.tracked := rfl
@[simp] theorem State.modThread_cores (s : State) (b tl : Nat) (f : Thread → Thread) : (s.modThread b tl f).cores = s.cores := rfl
@[simp] theorem State.modThread_tlb2 (s : State) (b tl : Nat) (f : Thread → Thread) : (s.modThread b tl f).tlb2 = s.tlb2 := rfl
@[simp] theorem State.modThread_coal (s : State) (b tl : Nat) (f : Thread → Thread) : (s.modThread b tl f).coal = s.coal := rfl
@[simp] theorem State.modThread_quads (s : State) (b tl : Nat) (f : Thread → Thread) : (s.modThread b tl f).quads = s.quads := rfl
@[simp] theorem State.modThread_dieMap (s : State) (b tl : Nat) (f : Thread → Thread) : (s.modThread b tl f).dieMap = s.dieMap := rfl
@[simp] theorem State.modThread_ctxs (s : State) (b tl : Nat) (f : Thread → Thread) : (s.modThread b tl f).ctxs = s.ctxs := rfl
@[simp] theorem State.modThread_launches (s : State) (b tl : Nat) (f : Thread → Thread) : (s.modThread b tl f).launches = s.launches := rfl
@[simp] theorem State.modThread_bars (s : State) (b tl : Nat) (f : Thread → Thread) : (s.modThread b tl f).bars = s.bars := rfl
@[simp] theorem State.modThread_reqs (s : State) (b tl : Nat) (f : Thread → Thread) : (s.modThread b tl f).reqs = s.reqs := rfl
@[simp] theorem State.modThread_fences (s : State) (b tl : Nat) (f : Thread → Thread) : (s.modThread b tl f).fences = s.fences := rfl
@[simp] theorem State.modThread_remotes (s : State) (b tl : Nat) (f : Thread → Thread) : (s.modThread b tl f).remotes = s.remotes := rfl
@[simp] theorem State.modThread_notices (s : State) (b tl : Nat) (f : Thread → Thread) : (s.modThread b tl f).notices = s.notices := rfl
@[simp] theorem State.modThread_moving (s : State) (b tl : Nat) (f : Thread → Thread) : (s.modThread b tl f).moving = s.moving := rfl
@[simp] theorem State.modThread_vcCmds (s : State) (b tl : Nat) (f : Thread → Thread) : (s.modThread b tl f).vcCmds = s.vcCmds := rfl
@[simp] theorem State.modThread_fab (s : State) (b tl : Nat) (f : Thread → Thread) : (s.modThread b tl f).fab = s.fab := rfl
@[simp] theorem State.modThread_narrows (s : State) (b tl : Nat) (f : Thread → Thread) : (s.modThread b tl f).narrows = s.narrows := rfl
@[simp] theorem State.modThread_pushes (s : State) (b tl : Nat) (f : Thread → Thread) : (s.modThread b tl f).pushes = s.pushes := rfl
@[simp] theorem State.modThread_fronts (s : State) (b tl : Nat) (f : Thread → Thread) : (s.modThread b tl f).fronts = s.fronts := rfl
@[simp] theorem State.modThread_rgnReqs (s : State) (b tl : Nat) (f : Thread → Thread) : (s.modThread b tl f).rgnReqs = s.rgnReqs := rfl
@[simp] theorem State.modThread_images (s : State) (b tl : Nat) (f : Thread → Thread) : (s.modThread b tl f).images = s.images := rfl
@[simp] theorem State.modThread_engs (s : State) (b tl : Nat) (f : Thread → Thread) : (s.modThread b tl f).engs = s.engs := rfl
@[simp] theorem State.modThread_later (s : State) (b tl : Nat) (f : Thread → Thread) : (s.modThread b tl f).later = s.later := rfl
@[simp] theorem State.modThread_errs (s : State) (b tl : Nat) (f : Thread → Thread) : (s.modThread b tl f).errs = s.errs := rfl
@[simp] theorem State.modThread_power (s : State) (b tl : Nat) (f : Thread → Thread) : (s.modThread b tl f).power = s.power := rfl
@[simp] theorem State.modThread_host (s : State) (b tl : Nat) (f : Thread → Thread) : (s.modThread b tl f).host = s.host := rfl
@[simp] theorem State.modThread_badShares (s : State) (b tl : Nat) (f : Thread → Thread) : (s.modThread b tl f).badShares = s.badShares := rfl
@[simp] theorem State.modThread_lostDies (s : State) (b tl : Nat) (f : Thread → Thread) : (s.modThread b tl f).lostDies = s.lostDies := rfl
@[simp] theorem State.modThread_asleep (s : State) (b tl : Nat) (f : Thread → Thread) : (s.modThread b tl f).asleep = s.asleep := rfl
@[simp] theorem State.modThread_clock (s : State) (b tl : Nat) (f : Thread → Thread) : (s.modThread b tl f).clock = s.clock := rfl
@[simp] theorem State.modThread_nextId (s : State) (b tl : Nat) (f : Thread → Thread) : (s.modThread b tl f).nextId = s.nextId := rfl
@[simp] theorem State.modThread_opens (s : State) (b tl : Nat) (f : Thread → Thread) : (s.modThread b tl f).opens = s.opens := rfl
@[simp] theorem State.modThread_agenda (s : State) (b tl : Nat) (f : Thread → Thread) : (s.modThread b tl f).agenda = s.agenda := rfl
@[simp] theorem State.modThread_turn (s : State) (b tl : Nat) (f : Thread → Thread) : (s.modThread b tl f).turn = s.turn := rfl

/-! ### State.irrevocable -/

@[simp] theorem State.irrevocable_mem (s : State) (b : Nat) : (s.irrevocable b).mem = s.mem := rfl
@[simp] theorem State.irrevocable_poison (s : State) (b : Nat) : (s.irrevocable b).poison = s.poison := rfl
@[simp] theorem State.irrevocable_sync (s : State) (b : Nat) : (s.irrevocable b).sync = s.sync := rfl
@[simp] theorem State.irrevocable_alias2 (s : State) (b : Nat) : (s.irrevocable b).alias2 = s.alias2 := rfl
@[simp] theorem State.irrevocable_llc (s : State) (b : Nat) : (s.irrevocable b).llc = s.llc := rfl
@[simp] theorem State.irrevocable_l2 (s : State) (b : Nat) : (s.irrevocable b).l2 = s.l2 := rfl
@[simp] theorem State.irrevocable_tracked (s : State) (b : Nat) : (s.irrevocable b).tracked = s.tracked := rfl
@[simp] theorem State.irrevocable_cores (s : State) (b : Nat) : (s.irrevocable b).cores = s.cores := rfl
@[simp] theorem State.irrevocable_tlb2 (s : State) (b : Nat) : (s.irrevocable b).tlb2 = s.tlb2 := rfl
@[simp] theorem State.irrevocable_coal (s : State) (b : Nat) : (s.irrevocable b).coal = s.coal := rfl
@[simp] theorem State.irrevocable_quads (s : State) (b : Nat) : (s.irrevocable b).quads = s.quads := rfl
@[simp] theorem State.irrevocable_dieMap (s : State) (b : Nat) : (s.irrevocable b).dieMap = s.dieMap := rfl
@[simp] theorem State.irrevocable_ctxs (s : State) (b : Nat) : (s.irrevocable b).ctxs = s.ctxs := rfl
@[simp] theorem State.irrevocable_launches (s : State) (b : Nat) : (s.irrevocable b).launches = s.launches := rfl
@[simp] theorem State.irrevocable_bars (s : State) (b : Nat) : (s.irrevocable b).bars = s.bars := rfl
@[simp] theorem State.irrevocable_reqs (s : State) (b : Nat) : (s.irrevocable b).reqs = s.reqs := rfl
@[simp] theorem State.irrevocable_fences (s : State) (b : Nat) : (s.irrevocable b).fences = s.fences := rfl
@[simp] theorem State.irrevocable_remotes (s : State) (b : Nat) : (s.irrevocable b).remotes = s.remotes := rfl
@[simp] theorem State.irrevocable_notices (s : State) (b : Nat) : (s.irrevocable b).notices = s.notices := rfl
@[simp] theorem State.irrevocable_moving (s : State) (b : Nat) : (s.irrevocable b).moving = s.moving := rfl
@[simp] theorem State.irrevocable_vcCmds (s : State) (b : Nat) : (s.irrevocable b).vcCmds = s.vcCmds := rfl
@[simp] theorem State.irrevocable_fab (s : State) (b : Nat) : (s.irrevocable b).fab = s.fab := rfl
@[simp] theorem State.irrevocable_narrows (s : State) (b : Nat) : (s.irrevocable b).narrows = s.narrows := rfl
@[simp] theorem State.irrevocable_pushes (s : State) (b : Nat) : (s.irrevocable b).pushes = s.pushes := rfl
@[simp] theorem State.irrevocable_fronts (s : State) (b : Nat) : (s.irrevocable b).fronts = s.fronts := rfl
@[simp] theorem State.irrevocable_rgnReqs (s : State) (b : Nat) : (s.irrevocable b).rgnReqs = s.rgnReqs := rfl
@[simp] theorem State.irrevocable_images (s : State) (b : Nat) : (s.irrevocable b).images = s.images := rfl
@[simp] theorem State.irrevocable_engs (s : State) (b : Nat) : (s.irrevocable b).engs = s.engs := rfl
@[simp] theorem State.irrevocable_later (s : State) (b : Nat) : (s.irrevocable b).later = s.later := rfl
@[simp] theorem State.irrevocable_errs (s : State) (b : Nat) : (s.irrevocable b).errs = s.errs := rfl
@[simp] theorem State.irrevocable_power (s : State) (b : Nat) : (s.irrevocable b).power = s.power := rfl
@[simp] theorem State.irrevocable_host (s : State) (b : Nat) : (s.irrevocable b).host = s.host := rfl
@[simp] theorem State.irrevocable_badShares (s : State) (b : Nat) : (s.irrevocable b).badShares = s.badShares := rfl
@[simp] theorem State.irrevocable_lostDies (s : State) (b : Nat) : (s.irrevocable b).lostDies = s.lostDies := rfl
@[simp] theorem State.irrevocable_asleep (s : State) (b : Nat) : (s.irrevocable b).asleep = s.asleep := rfl
@[simp] theorem State.irrevocable_clock (s : State) (b : Nat) : (s.irrevocable b).clock = s.clock := rfl
@[simp] theorem State.irrevocable_nextId (s : State) (b : Nat) : (s.irrevocable b).nextId = s.nextId := rfl
@[simp] theorem State.irrevocable_opens (s : State) (b : Nat) : (s.irrevocable b).opens = s.opens := rfl
@[simp] theorem State.irrevocable_agenda (s : State) (b : Nat) : (s.irrevocable b).agenda = s.agenda := rfl
@[simp] theorem State.irrevocable_turn (s : State) (b : Nat) : (s.irrevocable b).turn = s.turn := rfl

/-! ### State.modLaunch -/

@[simp] theorem State.modLaunch_mem (s : State) (l : Nat) (f : Launch → Launch) : (s.modLaunch l f).mem = s.mem := rfl
@[simp] theorem State.modLaunch_poison (s : State) (l : Nat) (f : Launch → Launch) : (s.modLaunch l f).poison = s.poison := rfl
@[simp] theorem State.modLaunch_sync (s : State) (l : Nat) (f : Launch → Launch) : (s.modLaunch l f).sync = s.sync := rfl
@[simp] theorem State.modLaunch_alias2 (s : State) (l : Nat) (f : Launch → Launch) : (s.modLaunch l f).alias2 = s.alias2 := rfl
@[simp] theorem State.modLaunch_llc (s : State) (l : Nat) (f : Launch → Launch) : (s.modLaunch l f).llc = s.llc := rfl
@[simp] theorem State.modLaunch_l2 (s : State) (l : Nat) (f : Launch → Launch) : (s.modLaunch l f).l2 = s.l2 := rfl
@[simp] theorem State.modLaunch_tracked (s : State) (l : Nat) (f : Launch → Launch) : (s.modLaunch l f).tracked = s.tracked := rfl
@[simp] theorem State.modLaunch_cores (s : State) (l : Nat) (f : Launch → Launch) : (s.modLaunch l f).cores = s.cores := rfl
@[simp] theorem State.modLaunch_tlb2 (s : State) (l : Nat) (f : Launch → Launch) : (s.modLaunch l f).tlb2 = s.tlb2 := rfl
@[simp] theorem State.modLaunch_coal (s : State) (l : Nat) (f : Launch → Launch) : (s.modLaunch l f).coal = s.coal := rfl
@[simp] theorem State.modLaunch_quads (s : State) (l : Nat) (f : Launch → Launch) : (s.modLaunch l f).quads = s.quads := rfl
@[simp] theorem State.modLaunch_dieMap (s : State) (l : Nat) (f : Launch → Launch) : (s.modLaunch l f).dieMap = s.dieMap := rfl
@[simp] theorem State.modLaunch_ctxs (s : State) (l : Nat) (f : Launch → Launch) : (s.modLaunch l f).ctxs = s.ctxs := rfl
@[simp] theorem State.modLaunch_blocks (s : State) (l : Nat) (f : Launch → Launch) : (s.modLaunch l f).blocks = s.blocks := rfl
@[simp] theorem State.modLaunch_bars (s : State) (l : Nat) (f : Launch → Launch) : (s.modLaunch l f).bars = s.bars := rfl
@[simp] theorem State.modLaunch_reqs (s : State) (l : Nat) (f : Launch → Launch) : (s.modLaunch l f).reqs = s.reqs := rfl
@[simp] theorem State.modLaunch_fences (s : State) (l : Nat) (f : Launch → Launch) : (s.modLaunch l f).fences = s.fences := rfl
@[simp] theorem State.modLaunch_remotes (s : State) (l : Nat) (f : Launch → Launch) : (s.modLaunch l f).remotes = s.remotes := rfl
@[simp] theorem State.modLaunch_notices (s : State) (l : Nat) (f : Launch → Launch) : (s.modLaunch l f).notices = s.notices := rfl
@[simp] theorem State.modLaunch_moving (s : State) (l : Nat) (f : Launch → Launch) : (s.modLaunch l f).moving = s.moving := rfl
@[simp] theorem State.modLaunch_vcCmds (s : State) (l : Nat) (f : Launch → Launch) : (s.modLaunch l f).vcCmds = s.vcCmds := rfl
@[simp] theorem State.modLaunch_fab (s : State) (l : Nat) (f : Launch → Launch) : (s.modLaunch l f).fab = s.fab := rfl
@[simp] theorem State.modLaunch_narrows (s : State) (l : Nat) (f : Launch → Launch) : (s.modLaunch l f).narrows = s.narrows := rfl
@[simp] theorem State.modLaunch_pushes (s : State) (l : Nat) (f : Launch → Launch) : (s.modLaunch l f).pushes = s.pushes := rfl
@[simp] theorem State.modLaunch_fronts (s : State) (l : Nat) (f : Launch → Launch) : (s.modLaunch l f).fronts = s.fronts := rfl
@[simp] theorem State.modLaunch_rgnReqs (s : State) (l : Nat) (f : Launch → Launch) : (s.modLaunch l f).rgnReqs = s.rgnReqs := rfl
@[simp] theorem State.modLaunch_images (s : State) (l : Nat) (f : Launch → Launch) : (s.modLaunch l f).images = s.images := rfl
@[simp] theorem State.modLaunch_engs (s : State) (l : Nat) (f : Launch → Launch) : (s.modLaunch l f).engs = s.engs := rfl
@[simp] theorem State.modLaunch_later (s : State) (l : Nat) (f : Launch → Launch) : (s.modLaunch l f).later = s.later := rfl
@[simp] theorem State.modLaunch_errs (s : State) (l : Nat) (f : Launch → Launch) : (s.modLaunch l f).errs = s.errs := rfl
@[simp] theorem State.modLaunch_power (s : State) (l : Nat) (f : Launch → Launch) : (s.modLaunch l f).power = s.power := rfl
@[simp] theorem State.modLaunch_host (s : State) (l : Nat) (f : Launch → Launch) : (s.modLaunch l f).host = s.host := rfl
@[simp] theorem State.modLaunch_badShares (s : State) (l : Nat) (f : Launch → Launch) : (s.modLaunch l f).badShares = s.badShares := rfl
@[simp] theorem State.modLaunch_lostDies (s : State) (l : Nat) (f : Launch → Launch) : (s.modLaunch l f).lostDies = s.lostDies := rfl
@[simp] theorem State.modLaunch_asleep (s : State) (l : Nat) (f : Launch → Launch) : (s.modLaunch l f).asleep = s.asleep := rfl
@[simp] theorem State.modLaunch_clock (s : State) (l : Nat) (f : Launch → Launch) : (s.modLaunch l f).clock = s.clock := rfl
@[simp] theorem State.modLaunch_nextId (s : State) (l : Nat) (f : Launch → Launch) : (s.modLaunch l f).nextId = s.nextId := rfl
@[simp] theorem State.modLaunch_opens (s : State) (l : Nat) (f : Launch → Launch) : (s.modLaunch l f).opens = s.opens := rfl
@[simp] theorem State.modLaunch_agenda (s : State) (l : Nat) (f : Launch → Launch) : (s.modLaunch l f).agenda = s.agenda := rfl
@[simp] theorem State.modLaunch_turn (s : State) (l : Nat) (f : Launch → Launch) : (s.modLaunch l f).turn = s.turn := rfl

/-! ### State.setRec -/

@[simp] theorem State.setRec_mem (s : State) (g : Nat) (r : SyncRec) : (s.setRec g r).mem = s.mem := rfl
@[simp] theorem State.setRec_poison (s : State) (g : Nat) (r : SyncRec) : (s.setRec g r).poison = s.poison := rfl
@[simp] theorem State.setRec_alias2 (s : State) (g : Nat) (r : SyncRec) : (s.setRec g r).alias2 = s.alias2 := rfl
@[simp] theorem State.setRec_llc (s : State) (g : Nat) (r : SyncRec) : (s.setRec g r).llc = s.llc := rfl
@[simp] theorem State.setRec_l2 (s : State) (g : Nat) (r : SyncRec) : (s.setRec g r).l2 = s.l2 := rfl
@[simp] theorem State.setRec_tracked (s : State) (g : Nat) (r : SyncRec) : (s.setRec g r).tracked = s.tracked := rfl
@[simp] theorem State.setRec_cores (s : State) (g : Nat) (r : SyncRec) : (s.setRec g r).cores = s.cores := rfl
@[simp] theorem State.setRec_tlb2 (s : State) (g : Nat) (r : SyncRec) : (s.setRec g r).tlb2 = s.tlb2 := rfl
@[simp] theorem State.setRec_coal (s : State) (g : Nat) (r : SyncRec) : (s.setRec g r).coal = s.coal := rfl
@[simp] theorem State.setRec_quads (s : State) (g : Nat) (r : SyncRec) : (s.setRec g r).quads = s.quads := rfl
@[simp] theorem State.setRec_dieMap (s : State) (g : Nat) (r : SyncRec) : (s.setRec g r).dieMap = s.dieMap := rfl
@[simp] theorem State.setRec_ctxs (s : State) (g : Nat) (r : SyncRec) : (s.setRec g r).ctxs = s.ctxs := rfl
@[simp] theorem State.setRec_launches (s : State) (g : Nat) (r : SyncRec) : (s.setRec g r).launches = s.launches := rfl
@[simp] theorem State.setRec_blocks (s : State) (g : Nat) (r : SyncRec) : (s.setRec g r).blocks = s.blocks := rfl
@[simp] theorem State.setRec_bars (s : State) (g : Nat) (r : SyncRec) : (s.setRec g r).bars = s.bars := rfl
@[simp] theorem State.setRec_reqs (s : State) (g : Nat) (r : SyncRec) : (s.setRec g r).reqs = s.reqs := rfl
@[simp] theorem State.setRec_fences (s : State) (g : Nat) (r : SyncRec) : (s.setRec g r).fences = s.fences := rfl
@[simp] theorem State.setRec_remotes (s : State) (g : Nat) (r : SyncRec) : (s.setRec g r).remotes = s.remotes := rfl
@[simp] theorem State.setRec_notices (s : State) (g : Nat) (r : SyncRec) : (s.setRec g r).notices = s.notices := rfl
@[simp] theorem State.setRec_moving (s : State) (g : Nat) (r : SyncRec) : (s.setRec g r).moving = s.moving := rfl
@[simp] theorem State.setRec_vcCmds (s : State) (g : Nat) (r : SyncRec) : (s.setRec g r).vcCmds = s.vcCmds := rfl
@[simp] theorem State.setRec_fab (s : State) (g : Nat) (r : SyncRec) : (s.setRec g r).fab = s.fab := rfl
@[simp] theorem State.setRec_narrows (s : State) (g : Nat) (r : SyncRec) : (s.setRec g r).narrows = s.narrows := rfl
@[simp] theorem State.setRec_pushes (s : State) (g : Nat) (r : SyncRec) : (s.setRec g r).pushes = s.pushes := rfl
@[simp] theorem State.setRec_fronts (s : State) (g : Nat) (r : SyncRec) : (s.setRec g r).fronts = s.fronts := rfl
@[simp] theorem State.setRec_rgnReqs (s : State) (g : Nat) (r : SyncRec) : (s.setRec g r).rgnReqs = s.rgnReqs := rfl
@[simp] theorem State.setRec_images (s : State) (g : Nat) (r : SyncRec) : (s.setRec g r).images = s.images := rfl
@[simp] theorem State.setRec_engs (s : State) (g : Nat) (r : SyncRec) : (s.setRec g r).engs = s.engs := rfl
@[simp] theorem State.setRec_later (s : State) (g : Nat) (r : SyncRec) : (s.setRec g r).later = s.later := rfl
@[simp] theorem State.setRec_errs (s : State) (g : Nat) (r : SyncRec) : (s.setRec g r).errs = s.errs := rfl
@[simp] theorem State.setRec_power (s : State) (g : Nat) (r : SyncRec) : (s.setRec g r).power = s.power := rfl
@[simp] theorem State.setRec_host (s : State) (g : Nat) (r : SyncRec) : (s.setRec g r).host = s.host := rfl
@[simp] theorem State.setRec_badShares (s : State) (g : Nat) (r : SyncRec) : (s.setRec g r).badShares = s.badShares := rfl
@[simp] theorem State.setRec_lostDies (s : State) (g : Nat) (r : SyncRec) : (s.setRec g r).lostDies = s.lostDies := rfl
@[simp] theorem State.setRec_asleep (s : State) (g : Nat) (r : SyncRec) : (s.setRec g r).asleep = s.asleep := rfl
@[simp] theorem State.setRec_clock (s : State) (g : Nat) (r : SyncRec) : (s.setRec g r).clock = s.clock := rfl
@[simp] theorem State.setRec_nextId (s : State) (g : Nat) (r : SyncRec) : (s.setRec g r).nextId = s.nextId := rfl
@[simp] theorem State.setRec_opens (s : State) (g : Nat) (r : SyncRec) : (s.setRec g r).opens = s.opens := rfl
@[simp] theorem State.setRec_agenda (s : State) (g : Nat) (r : SyncRec) : (s.setRec g r).agenda = s.agenda := rfl
@[simp] theorem State.setRec_turn (s : State) (g : Nat) (r : SyncRec) : (s.setRec g r).turn = s.turn := rfl

/-! ### State.poisonGranule -/

@[simp] theorem State.poisonGranule_mem (s : State) (g : Nat) : (s.poisonGranule g).mem = s.mem := rfl
@[simp] theorem State.poisonGranule_sync (s : State) (g : Nat) : (s.poisonGranule g).sync = s.sync := rfl
@[simp] theorem State.poisonGranule_alias2 (s : State) (g : Nat) : (s.poisonGranule g).alias2 = s.alias2 := rfl
@[simp] theorem State.poisonGranule_llc (s : State) (g : Nat) : (s.poisonGranule g).llc = s.llc := rfl
@[simp] theorem State.poisonGranule_l2 (s : State) (g : Nat) : (s.poisonGranule g).l2 = s.l2 := rfl
@[simp] theorem State.poisonGranule_tracked (s : State) (g : Nat) : (s.poisonGranule g).tracked = s.tracked := rfl
@[simp] theorem State.poisonGranule_cores (s : State) (g : Nat) : (s.poisonGranule g).cores = s.cores := rfl
@[simp] theorem State.poisonGranule_tlb2 (s : State) (g : Nat) : (s.poisonGranule g).tlb2 = s.tlb2 := rfl
@[simp] theorem State.poisonGranule_coal (s : State) (g : Nat) : (s.poisonGranule g).coal = s.coal := rfl
@[simp] theorem State.poisonGranule_quads (s : State) (g : Nat) : (s.poisonGranule g).quads = s.quads := rfl
@[simp] theorem State.poisonGranule_dieMap (s : State) (g : Nat) : (s.poisonGranule g).dieMap = s.dieMap := rfl
@[simp] theorem State.poisonGranule_ctxs (s : State) (g : Nat) : (s.poisonGranule g).ctxs = s.ctxs := rfl
@[simp] theorem State.poisonGranule_launches (s : State) (g : Nat) : (s.poisonGranule g).launches = s.launches := rfl
@[simp] theorem State.poisonGranule_blocks (s : State) (g : Nat) : (s.poisonGranule g).blocks = s.blocks := rfl
@[simp] theorem State.poisonGranule_bars (s : State) (g : Nat) : (s.poisonGranule g).bars = s.bars := rfl
@[simp] theorem State.poisonGranule_reqs (s : State) (g : Nat) : (s.poisonGranule g).reqs = s.reqs := rfl
@[simp] theorem State.poisonGranule_fences (s : State) (g : Nat) : (s.poisonGranule g).fences = s.fences := rfl
@[simp] theorem State.poisonGranule_remotes (s : State) (g : Nat) : (s.poisonGranule g).remotes = s.remotes := rfl
@[simp] theorem State.poisonGranule_notices (s : State) (g : Nat) : (s.poisonGranule g).notices = s.notices := rfl
@[simp] theorem State.poisonGranule_moving (s : State) (g : Nat) : (s.poisonGranule g).moving = s.moving := rfl
@[simp] theorem State.poisonGranule_vcCmds (s : State) (g : Nat) : (s.poisonGranule g).vcCmds = s.vcCmds := rfl
@[simp] theorem State.poisonGranule_fab (s : State) (g : Nat) : (s.poisonGranule g).fab = s.fab := rfl
@[simp] theorem State.poisonGranule_narrows (s : State) (g : Nat) : (s.poisonGranule g).narrows = s.narrows := rfl
@[simp] theorem State.poisonGranule_pushes (s : State) (g : Nat) : (s.poisonGranule g).pushes = s.pushes := rfl
@[simp] theorem State.poisonGranule_fronts (s : State) (g : Nat) : (s.poisonGranule g).fronts = s.fronts := rfl
@[simp] theorem State.poisonGranule_rgnReqs (s : State) (g : Nat) : (s.poisonGranule g).rgnReqs = s.rgnReqs := rfl
@[simp] theorem State.poisonGranule_images (s : State) (g : Nat) : (s.poisonGranule g).images = s.images := rfl
@[simp] theorem State.poisonGranule_engs (s : State) (g : Nat) : (s.poisonGranule g).engs = s.engs := rfl
@[simp] theorem State.poisonGranule_later (s : State) (g : Nat) : (s.poisonGranule g).later = s.later := rfl
@[simp] theorem State.poisonGranule_errs (s : State) (g : Nat) : (s.poisonGranule g).errs = s.errs := rfl
@[simp] theorem State.poisonGranule_power (s : State) (g : Nat) : (s.poisonGranule g).power = s.power := rfl
@[simp] theorem State.poisonGranule_host (s : State) (g : Nat) : (s.poisonGranule g).host = s.host := rfl
@[simp] theorem State.poisonGranule_badShares (s : State) (g : Nat) : (s.poisonGranule g).badShares = s.badShares := rfl
@[simp] theorem State.poisonGranule_lostDies (s : State) (g : Nat) : (s.poisonGranule g).lostDies = s.lostDies := rfl
@[simp] theorem State.poisonGranule_asleep (s : State) (g : Nat) : (s.poisonGranule g).asleep = s.asleep := rfl
@[simp] theorem State.poisonGranule_clock (s : State) (g : Nat) : (s.poisonGranule g).clock = s.clock := rfl
@[simp] theorem State.poisonGranule_nextId (s : State) (g : Nat) : (s.poisonGranule g).nextId = s.nextId := rfl
@[simp] theorem State.poisonGranule_opens (s : State) (g : Nat) : (s.poisonGranule g).opens = s.opens := rfl
@[simp] theorem State.poisonGranule_agenda (s : State) (g : Nat) : (s.poisonGranule g).agenda = s.agenda := rfl
@[simp] theorem State.poisonGranule_turn (s : State) (g : Nat) : (s.poisonGranule g).turn = s.turn := rfl

/-! ### State.sendFlit -/

@[simp] theorem State.sendFlit_mem (s : State) (kind dst payload : Nat) : (s.sendFlit kind dst payload).mem = s.mem := rfl
@[simp] theorem State.sendFlit_poison (s : State) (kind dst payload : Nat) : (s.sendFlit kind dst payload).poison = s.poison := rfl
@[simp] theorem State.sendFlit_sync (s : State) (kind dst payload : Nat) : (s.sendFlit kind dst payload).sync = s.sync := rfl
@[simp] theorem State.sendFlit_alias2 (s : State) (kind dst payload : Nat) : (s.sendFlit kind dst payload).alias2 = s.alias2 := rfl
@[simp] theorem State.sendFlit_llc (s : State) (kind dst payload : Nat) : (s.sendFlit kind dst payload).llc = s.llc := rfl
@[simp] theorem State.sendFlit_l2 (s : State) (kind dst payload : Nat) : (s.sendFlit kind dst payload).l2 = s.l2 := rfl
@[simp] theorem State.sendFlit_tracked (s : State) (kind dst payload : Nat) : (s.sendFlit kind dst payload).tracked = s.tracked := rfl
@[simp] theorem State.sendFlit_cores (s : State) (kind dst payload : Nat) : (s.sendFlit kind dst payload).cores = s.cores := rfl
@[simp] theorem State.sendFlit_tlb2 (s : State) (kind dst payload : Nat) : (s.sendFlit kind dst payload).tlb2 = s.tlb2 := rfl
@[simp] theorem State.sendFlit_coal (s : State) (kind dst payload : Nat) : (s.sendFlit kind dst payload).coal = s.coal := rfl
@[simp] theorem State.sendFlit_quads (s : State) (kind dst payload : Nat) : (s.sendFlit kind dst payload).quads = s.quads := rfl
@[simp] theorem State.sendFlit_dieMap (s : State) (kind dst payload : Nat) : (s.sendFlit kind dst payload).dieMap = s.dieMap := rfl
@[simp] theorem State.sendFlit_ctxs (s : State) (kind dst payload : Nat) : (s.sendFlit kind dst payload).ctxs = s.ctxs := rfl
@[simp] theorem State.sendFlit_launches (s : State) (kind dst payload : Nat) : (s.sendFlit kind dst payload).launches = s.launches := rfl
@[simp] theorem State.sendFlit_blocks (s : State) (kind dst payload : Nat) : (s.sendFlit kind dst payload).blocks = s.blocks := rfl
@[simp] theorem State.sendFlit_bars (s : State) (kind dst payload : Nat) : (s.sendFlit kind dst payload).bars = s.bars := rfl
@[simp] theorem State.sendFlit_reqs (s : State) (kind dst payload : Nat) : (s.sendFlit kind dst payload).reqs = s.reqs := rfl
@[simp] theorem State.sendFlit_fences (s : State) (kind dst payload : Nat) : (s.sendFlit kind dst payload).fences = s.fences := rfl
@[simp] theorem State.sendFlit_remotes (s : State) (kind dst payload : Nat) : (s.sendFlit kind dst payload).remotes = s.remotes := rfl
@[simp] theorem State.sendFlit_notices (s : State) (kind dst payload : Nat) : (s.sendFlit kind dst payload).notices = s.notices := rfl
@[simp] theorem State.sendFlit_moving (s : State) (kind dst payload : Nat) : (s.sendFlit kind dst payload).moving = s.moving := rfl
@[simp] theorem State.sendFlit_vcCmds (s : State) (kind dst payload : Nat) : (s.sendFlit kind dst payload).vcCmds = s.vcCmds := rfl
@[simp] theorem State.sendFlit_narrows (s : State) (kind dst payload : Nat) : (s.sendFlit kind dst payload).narrows = s.narrows := rfl
@[simp] theorem State.sendFlit_pushes (s : State) (kind dst payload : Nat) : (s.sendFlit kind dst payload).pushes = s.pushes := rfl
@[simp] theorem State.sendFlit_fronts (s : State) (kind dst payload : Nat) : (s.sendFlit kind dst payload).fronts = s.fronts := rfl
@[simp] theorem State.sendFlit_rgnReqs (s : State) (kind dst payload : Nat) : (s.sendFlit kind dst payload).rgnReqs = s.rgnReqs := rfl
@[simp] theorem State.sendFlit_images (s : State) (kind dst payload : Nat) : (s.sendFlit kind dst payload).images = s.images := rfl
@[simp] theorem State.sendFlit_engs (s : State) (kind dst payload : Nat) : (s.sendFlit kind dst payload).engs = s.engs := rfl
@[simp] theorem State.sendFlit_later (s : State) (kind dst payload : Nat) : (s.sendFlit kind dst payload).later = s.later := rfl
@[simp] theorem State.sendFlit_errs (s : State) (kind dst payload : Nat) : (s.sendFlit kind dst payload).errs = s.errs := rfl
@[simp] theorem State.sendFlit_power (s : State) (kind dst payload : Nat) : (s.sendFlit kind dst payload).power = s.power := rfl
@[simp] theorem State.sendFlit_host (s : State) (kind dst payload : Nat) : (s.sendFlit kind dst payload).host = s.host := rfl
@[simp] theorem State.sendFlit_badShares (s : State) (kind dst payload : Nat) : (s.sendFlit kind dst payload).badShares = s.badShares := rfl
@[simp] theorem State.sendFlit_lostDies (s : State) (kind dst payload : Nat) : (s.sendFlit kind dst payload).lostDies = s.lostDies := rfl
@[simp] theorem State.sendFlit_asleep (s : State) (kind dst payload : Nat) : (s.sendFlit kind dst payload).asleep = s.asleep := rfl
@[simp] theorem State.sendFlit_clock (s : State) (kind dst payload : Nat) : (s.sendFlit kind dst payload).clock = s.clock := rfl
@[simp] theorem State.sendFlit_nextId (s : State) (kind dst payload : Nat) : (s.sendFlit kind dst payload).nextId = s.nextId := rfl
@[simp] theorem State.sendFlit_opens (s : State) (kind dst payload : Nat) : (s.sendFlit kind dst payload).opens = s.opens := rfl
@[simp] theorem State.sendFlit_agenda (s : State) (kind dst payload : Nat) : (s.sendFlit kind dst payload).agenda = s.agenda := rfl
@[simp] theorem State.sendFlit_turn (s : State) (kind dst payload : Nat) : (s.sendFlit kind dst payload).turn = s.turn := rfl

/-! ### State.reachNs -/

@[simp] theorem State.reachNs_mem (s : State) (n : Nat) : (s.reachNs n).mem = s.mem := rfl
@[simp] theorem State.reachNs_poison (s : State) (n : Nat) : (s.reachNs n).poison = s.poison := rfl
@[simp] theorem State.reachNs_sync (s : State) (n : Nat) : (s.reachNs n).sync = s.sync := rfl
@[simp] theorem State.reachNs_alias2 (s : State) (n : Nat) : (s.reachNs n).alias2 = s.alias2 := rfl
@[simp] theorem State.reachNs_llc (s : State) (n : Nat) : (s.reachNs n).llc = s.llc := rfl
@[simp] theorem State.reachNs_l2 (s : State) (n : Nat) : (s.reachNs n).l2 = s.l2 := rfl
@[simp] theorem State.reachNs_tracked (s : State) (n : Nat) : (s.reachNs n).tracked = s.tracked := rfl
@[simp] theorem State.reachNs_cores (s : State) (n : Nat) : (s.reachNs n).cores = s.cores := rfl
@[simp] theorem State.reachNs_tlb2 (s : State) (n : Nat) : (s.reachNs n).tlb2 = s.tlb2 := rfl
@[simp] theorem State.reachNs_coal (s : State) (n : Nat) : (s.reachNs n).coal = s.coal := rfl
@[simp] theorem State.reachNs_quads (s : State) (n : Nat) : (s.reachNs n).quads = s.quads := rfl
@[simp] theorem State.reachNs_dieMap (s : State) (n : Nat) : (s.reachNs n).dieMap = s.dieMap := rfl
@[simp] theorem State.reachNs_ctxs (s : State) (n : Nat) : (s.reachNs n).ctxs = s.ctxs := rfl
@[simp] theorem State.reachNs_launches (s : State) (n : Nat) : (s.reachNs n).launches = s.launches := rfl
@[simp] theorem State.reachNs_blocks (s : State) (n : Nat) : (s.reachNs n).blocks = s.blocks := rfl
@[simp] theorem State.reachNs_bars (s : State) (n : Nat) : (s.reachNs n).bars = s.bars := rfl
@[simp] theorem State.reachNs_reqs (s : State) (n : Nat) : (s.reachNs n).reqs = s.reqs := rfl
@[simp] theorem State.reachNs_fences (s : State) (n : Nat) : (s.reachNs n).fences = s.fences := rfl
@[simp] theorem State.reachNs_remotes (s : State) (n : Nat) : (s.reachNs n).remotes = s.remotes := rfl
@[simp] theorem State.reachNs_notices (s : State) (n : Nat) : (s.reachNs n).notices = s.notices := rfl
@[simp] theorem State.reachNs_moving (s : State) (n : Nat) : (s.reachNs n).moving = s.moving := rfl
@[simp] theorem State.reachNs_vcCmds (s : State) (n : Nat) : (s.reachNs n).vcCmds = s.vcCmds := rfl
@[simp] theorem State.reachNs_fab (s : State) (n : Nat) : (s.reachNs n).fab = s.fab := rfl
@[simp] theorem State.reachNs_narrows (s : State) (n : Nat) : (s.reachNs n).narrows = s.narrows := rfl
@[simp] theorem State.reachNs_pushes (s : State) (n : Nat) : (s.reachNs n).pushes = s.pushes := rfl
@[simp] theorem State.reachNs_fronts (s : State) (n : Nat) : (s.reachNs n).fronts = s.fronts := rfl
@[simp] theorem State.reachNs_rgnReqs (s : State) (n : Nat) : (s.reachNs n).rgnReqs = s.rgnReqs := rfl
@[simp] theorem State.reachNs_images (s : State) (n : Nat) : (s.reachNs n).images = s.images := rfl
@[simp] theorem State.reachNs_engs (s : State) (n : Nat) : (s.reachNs n).engs = s.engs := rfl
@[simp] theorem State.reachNs_later (s : State) (n : Nat) : (s.reachNs n).later = s.later := rfl
@[simp] theorem State.reachNs_errs (s : State) (n : Nat) : (s.reachNs n).errs = s.errs := rfl
@[simp] theorem State.reachNs_power (s : State) (n : Nat) : (s.reachNs n).power = s.power := rfl
@[simp] theorem State.reachNs_host (s : State) (n : Nat) : (s.reachNs n).host = s.host := rfl
@[simp] theorem State.reachNs_badShares (s : State) (n : Nat) : (s.reachNs n).badShares = s.badShares := rfl
@[simp] theorem State.reachNs_lostDies (s : State) (n : Nat) : (s.reachNs n).lostDies = s.lostDies := rfl
@[simp] theorem State.reachNs_asleep (s : State) (n : Nat) : (s.reachNs n).asleep = s.asleep := rfl
@[simp] theorem State.reachNs_nextId (s : State) (n : Nat) : (s.reachNs n).nextId = s.nextId := rfl
@[simp] theorem State.reachNs_opens (s : State) (n : Nat) : (s.reachNs n).opens = s.opens := rfl
@[simp] theorem State.reachNs_agenda (s : State) (n : Nat) : (s.reachNs n).agenda = s.agenda := rfl
@[simp] theorem State.reachNs_turn (s : State) (n : Nat) : (s.reachNs n).turn = s.turn := rfl

/-! ### State.setBar -/

@[simp] theorem State.setBar_mem (s : State) (v : BarInst) : (s.setBar v).mem = s.mem := rfl
@[simp] theorem State.setBar_poison (s : State) (v : BarInst) : (s.setBar v).poison = s.poison := rfl
@[simp] theorem State.setBar_sync (s : State) (v : BarInst) : (s.setBar v).sync = s.sync := rfl
@[simp] theorem State.setBar_alias2 (s : State) (v : BarInst) : (s.setBar v).alias2 = s.alias2 := rfl
@[simp] theorem State.setBar_llc (s : State) (v : BarInst) : (s.setBar v).llc = s.llc := rfl
@[simp] theorem State.setBar_l2 (s : State) (v : BarInst) : (s.setBar v).l2 = s.l2 := rfl
@[simp] theorem State.setBar_tracked (s : State) (v : BarInst) : (s.setBar v).tracked = s.tracked := rfl
@[simp] theorem State.setBar_cores (s : State) (v : BarInst) : (s.setBar v).cores = s.cores := rfl
@[simp] theorem State.setBar_tlb2 (s : State) (v : BarInst) : (s.setBar v).tlb2 = s.tlb2 := rfl
@[simp] theorem State.setBar_coal (s : State) (v : BarInst) : (s.setBar v).coal = s.coal := rfl
@[simp] theorem State.setBar_quads (s : State) (v : BarInst) : (s.setBar v).quads = s.quads := rfl
@[simp] theorem State.setBar_dieMap (s : State) (v : BarInst) : (s.setBar v).dieMap = s.dieMap := rfl
@[simp] theorem State.setBar_ctxs (s : State) (v : BarInst) : (s.setBar v).ctxs = s.ctxs := rfl
@[simp] theorem State.setBar_launches (s : State) (v : BarInst) : (s.setBar v).launches = s.launches := rfl
@[simp] theorem State.setBar_blocks (s : State) (v : BarInst) : (s.setBar v).blocks = s.blocks := rfl
@[simp] theorem State.setBar_reqs (s : State) (v : BarInst) : (s.setBar v).reqs = s.reqs := rfl
@[simp] theorem State.setBar_fences (s : State) (v : BarInst) : (s.setBar v).fences = s.fences := rfl
@[simp] theorem State.setBar_remotes (s : State) (v : BarInst) : (s.setBar v).remotes = s.remotes := rfl
@[simp] theorem State.setBar_notices (s : State) (v : BarInst) : (s.setBar v).notices = s.notices := rfl
@[simp] theorem State.setBar_moving (s : State) (v : BarInst) : (s.setBar v).moving = s.moving := rfl
@[simp] theorem State.setBar_vcCmds (s : State) (v : BarInst) : (s.setBar v).vcCmds = s.vcCmds := rfl
@[simp] theorem State.setBar_fab (s : State) (v : BarInst) : (s.setBar v).fab = s.fab := rfl
@[simp] theorem State.setBar_narrows (s : State) (v : BarInst) : (s.setBar v).narrows = s.narrows := rfl
@[simp] theorem State.setBar_pushes (s : State) (v : BarInst) : (s.setBar v).pushes = s.pushes := rfl
@[simp] theorem State.setBar_fronts (s : State) (v : BarInst) : (s.setBar v).fronts = s.fronts := rfl
@[simp] theorem State.setBar_rgnReqs (s : State) (v : BarInst) : (s.setBar v).rgnReqs = s.rgnReqs := rfl
@[simp] theorem State.setBar_images (s : State) (v : BarInst) : (s.setBar v).images = s.images := rfl
@[simp] theorem State.setBar_engs (s : State) (v : BarInst) : (s.setBar v).engs = s.engs := rfl
@[simp] theorem State.setBar_later (s : State) (v : BarInst) : (s.setBar v).later = s.later := rfl
@[simp] theorem State.setBar_errs (s : State) (v : BarInst) : (s.setBar v).errs = s.errs := rfl
@[simp] theorem State.setBar_power (s : State) (v : BarInst) : (s.setBar v).power = s.power := rfl
@[simp] theorem State.setBar_host (s : State) (v : BarInst) : (s.setBar v).host = s.host := rfl
@[simp] theorem State.setBar_badShares (s : State) (v : BarInst) : (s.setBar v).badShares = s.badShares := rfl
@[simp] theorem State.setBar_lostDies (s : State) (v : BarInst) : (s.setBar v).lostDies = s.lostDies := rfl
@[simp] theorem State.setBar_asleep (s : State) (v : BarInst) : (s.setBar v).asleep = s.asleep := rfl
@[simp] theorem State.setBar_clock (s : State) (v : BarInst) : (s.setBar v).clock = s.clock := rfl
@[simp] theorem State.setBar_nextId (s : State) (v : BarInst) : (s.setBar v).nextId = s.nextId := rfl
@[simp] theorem State.setBar_opens (s : State) (v : BarInst) : (s.setBar v).opens = s.opens := rfl
@[simp] theorem State.setBar_agenda (s : State) (v : BarInst) : (s.setBar v).agenda = s.agenda := rfl
@[simp] theorem State.setBar_turn (s : State) (v : BarInst) : (s.setBar v).turn = s.turn := rfl

/-! ### State.homeBytes -/

@[simp] theorem State.homeBytes_sync (s : State) (g : Nat) (bs : Tbl Byte) : (s.homeBytes g bs).sync = s.sync := rfl
@[simp] theorem State.homeBytes_alias2 (s : State) (g : Nat) (bs : Tbl Byte) : (s.homeBytes g bs).alias2 = s.alias2 := rfl
@[simp] theorem State.homeBytes_l2 (s : State) (g : Nat) (bs : Tbl Byte) : (s.homeBytes g bs).l2 = s.l2 := rfl
@[simp] theorem State.homeBytes_tracked (s : State) (g : Nat) (bs : Tbl Byte) : (s.homeBytes g bs).tracked = s.tracked := rfl
@[simp] theorem State.homeBytes_cores (s : State) (g : Nat) (bs : Tbl Byte) : (s.homeBytes g bs).cores = s.cores := rfl
@[simp] theorem State.homeBytes_tlb2 (s : State) (g : Nat) (bs : Tbl Byte) : (s.homeBytes g bs).tlb2 = s.tlb2 := rfl
@[simp] theorem State.homeBytes_coal (s : State) (g : Nat) (bs : Tbl Byte) : (s.homeBytes g bs).coal = s.coal := rfl
@[simp] theorem State.homeBytes_quads (s : State) (g : Nat) (bs : Tbl Byte) : (s.homeBytes g bs).quads = s.quads := rfl
@[simp] theorem State.homeBytes_dieMap (s : State) (g : Nat) (bs : Tbl Byte) : (s.homeBytes g bs).dieMap = s.dieMap := rfl
@[simp] theorem State.homeBytes_ctxs (s : State) (g : Nat) (bs : Tbl Byte) : (s.homeBytes g bs).ctxs = s.ctxs := rfl
@[simp] theorem State.homeBytes_launches (s : State) (g : Nat) (bs : Tbl Byte) : (s.homeBytes g bs).launches = s.launches := rfl
@[simp] theorem State.homeBytes_blocks (s : State) (g : Nat) (bs : Tbl Byte) : (s.homeBytes g bs).blocks = s.blocks := rfl
@[simp] theorem State.homeBytes_bars (s : State) (g : Nat) (bs : Tbl Byte) : (s.homeBytes g bs).bars = s.bars := rfl
@[simp] theorem State.homeBytes_reqs (s : State) (g : Nat) (bs : Tbl Byte) : (s.homeBytes g bs).reqs = s.reqs := rfl
@[simp] theorem State.homeBytes_fences (s : State) (g : Nat) (bs : Tbl Byte) : (s.homeBytes g bs).fences = s.fences := rfl
@[simp] theorem State.homeBytes_remotes (s : State) (g : Nat) (bs : Tbl Byte) : (s.homeBytes g bs).remotes = s.remotes := rfl
@[simp] theorem State.homeBytes_notices (s : State) (g : Nat) (bs : Tbl Byte) : (s.homeBytes g bs).notices = s.notices := rfl
@[simp] theorem State.homeBytes_moving (s : State) (g : Nat) (bs : Tbl Byte) : (s.homeBytes g bs).moving = s.moving := rfl
@[simp] theorem State.homeBytes_vcCmds (s : State) (g : Nat) (bs : Tbl Byte) : (s.homeBytes g bs).vcCmds = s.vcCmds := rfl
@[simp] theorem State.homeBytes_fab (s : State) (g : Nat) (bs : Tbl Byte) : (s.homeBytes g bs).fab = s.fab := rfl
@[simp] theorem State.homeBytes_narrows (s : State) (g : Nat) (bs : Tbl Byte) : (s.homeBytes g bs).narrows = s.narrows := rfl
@[simp] theorem State.homeBytes_pushes (s : State) (g : Nat) (bs : Tbl Byte) : (s.homeBytes g bs).pushes = s.pushes := rfl
@[simp] theorem State.homeBytes_fronts (s : State) (g : Nat) (bs : Tbl Byte) : (s.homeBytes g bs).fronts = s.fronts := rfl
@[simp] theorem State.homeBytes_rgnReqs (s : State) (g : Nat) (bs : Tbl Byte) : (s.homeBytes g bs).rgnReqs = s.rgnReqs := rfl
@[simp] theorem State.homeBytes_images (s : State) (g : Nat) (bs : Tbl Byte) : (s.homeBytes g bs).images = s.images := rfl
@[simp] theorem State.homeBytes_engs (s : State) (g : Nat) (bs : Tbl Byte) : (s.homeBytes g bs).engs = s.engs := rfl
@[simp] theorem State.homeBytes_later (s : State) (g : Nat) (bs : Tbl Byte) : (s.homeBytes g bs).later = s.later := rfl
@[simp] theorem State.homeBytes_errs (s : State) (g : Nat) (bs : Tbl Byte) : (s.homeBytes g bs).errs = s.errs := rfl
@[simp] theorem State.homeBytes_power (s : State) (g : Nat) (bs : Tbl Byte) : (s.homeBytes g bs).power = s.power := rfl
@[simp] theorem State.homeBytes_host (s : State) (g : Nat) (bs : Tbl Byte) : (s.homeBytes g bs).host = s.host := rfl
@[simp] theorem State.homeBytes_badShares (s : State) (g : Nat) (bs : Tbl Byte) : (s.homeBytes g bs).badShares = s.badShares := rfl
@[simp] theorem State.homeBytes_lostDies (s : State) (g : Nat) (bs : Tbl Byte) : (s.homeBytes g bs).lostDies = s.lostDies := rfl
@[simp] theorem State.homeBytes_asleep (s : State) (g : Nat) (bs : Tbl Byte) : (s.homeBytes g bs).asleep = s.asleep := rfl
@[simp] theorem State.homeBytes_clock (s : State) (g : Nat) (bs : Tbl Byte) : (s.homeBytes g bs).clock = s.clock := rfl
@[simp] theorem State.homeBytes_nextId (s : State) (g : Nat) (bs : Tbl Byte) : (s.homeBytes g bs).nextId = s.nextId := rfl
@[simp] theorem State.homeBytes_opens (s : State) (g : Nat) (bs : Tbl Byte) : (s.homeBytes g bs).opens = s.opens := rfl
@[simp] theorem State.homeBytes_agenda (s : State) (g : Nat) (bs : Tbl Byte) : (s.homeBytes g bs).agenda = s.agenda := rfl
@[simp] theorem State.homeBytes_turn (s : State) (g : Nat) (bs : Tbl Byte) : (s.homeBytes g bs).turn = s.turn := rfl

/-! ### State.dropAll -/

@[simp] theorem State.dropAll_mem (s : State) (g : Nat) : (s.dropAll g).mem = s.mem := rfl
@[simp] theorem State.dropAll_poison (s : State) (g : Nat) : (s.dropAll g).poison = s.poison := rfl
@[simp] theorem State.dropAll_sync (s : State) (g : Nat) : (s.dropAll g).sync = s.sync := rfl
@[simp] theorem State.dropAll_alias2 (s : State) (g : Nat) : (s.dropAll g).alias2 = s.alias2 := rfl
@[simp] theorem State.dropAll_tracked (s : State) (g : Nat) : (s.dropAll g).tracked = s.tracked := rfl
@[simp] theorem State.dropAll_tlb2 (s : State) (g : Nat) : (s.dropAll g).tlb2 = s.tlb2 := rfl
@[simp] theorem State.dropAll_coal (s : State) (g : Nat) : (s.dropAll g).coal = s.coal := rfl
@[simp] theorem State.dropAll_quads (s : State) (g : Nat) : (s.dropAll g).quads = s.quads := rfl
@[simp] theorem State.dropAll_dieMap (s : State) (g : Nat) : (s.dropAll g).dieMap = s.dieMap := rfl
@[simp] theorem State.dropAll_ctxs (s : State) (g : Nat) : (s.dropAll g).ctxs = s.ctxs := rfl
@[simp] theorem State.dropAll_launches (s : State) (g : Nat) : (s.dropAll g).launches = s.launches := rfl
@[simp] theorem State.dropAll_blocks (s : State) (g : Nat) : (s.dropAll g).blocks = s.blocks := rfl
@[simp] theorem State.dropAll_bars (s : State) (g : Nat) : (s.dropAll g).bars = s.bars := rfl
@[simp] theorem State.dropAll_reqs (s : State) (g : Nat) : (s.dropAll g).reqs = s.reqs := rfl
@[simp] theorem State.dropAll_fences (s : State) (g : Nat) : (s.dropAll g).fences = s.fences := rfl
@[simp] theorem State.dropAll_remotes (s : State) (g : Nat) : (s.dropAll g).remotes = s.remotes := rfl
@[simp] theorem State.dropAll_notices (s : State) (g : Nat) : (s.dropAll g).notices = s.notices := rfl
@[simp] theorem State.dropAll_moving (s : State) (g : Nat) : (s.dropAll g).moving = s.moving := rfl
@[simp] theorem State.dropAll_vcCmds (s : State) (g : Nat) : (s.dropAll g).vcCmds = s.vcCmds := rfl
@[simp] theorem State.dropAll_fab (s : State) (g : Nat) : (s.dropAll g).fab = s.fab := rfl
@[simp] theorem State.dropAll_narrows (s : State) (g : Nat) : (s.dropAll g).narrows = s.narrows := rfl
@[simp] theorem State.dropAll_pushes (s : State) (g : Nat) : (s.dropAll g).pushes = s.pushes := rfl
@[simp] theorem State.dropAll_fronts (s : State) (g : Nat) : (s.dropAll g).fronts = s.fronts := rfl
@[simp] theorem State.dropAll_rgnReqs (s : State) (g : Nat) : (s.dropAll g).rgnReqs = s.rgnReqs := rfl
@[simp] theorem State.dropAll_images (s : State) (g : Nat) : (s.dropAll g).images = s.images := rfl
@[simp] theorem State.dropAll_engs (s : State) (g : Nat) : (s.dropAll g).engs = s.engs := rfl
@[simp] theorem State.dropAll_later (s : State) (g : Nat) : (s.dropAll g).later = s.later := rfl
@[simp] theorem State.dropAll_errs (s : State) (g : Nat) : (s.dropAll g).errs = s.errs := rfl
@[simp] theorem State.dropAll_power (s : State) (g : Nat) : (s.dropAll g).power = s.power := rfl
@[simp] theorem State.dropAll_host (s : State) (g : Nat) : (s.dropAll g).host = s.host := rfl
@[simp] theorem State.dropAll_badShares (s : State) (g : Nat) : (s.dropAll g).badShares = s.badShares := rfl
@[simp] theorem State.dropAll_lostDies (s : State) (g : Nat) : (s.dropAll g).lostDies = s.lostDies := rfl
@[simp] theorem State.dropAll_asleep (s : State) (g : Nat) : (s.dropAll g).asleep = s.asleep := rfl
@[simp] theorem State.dropAll_clock (s : State) (g : Nat) : (s.dropAll g).clock = s.clock := rfl
@[simp] theorem State.dropAll_nextId (s : State) (g : Nat) : (s.dropAll g).nextId = s.nextId := rfl
@[simp] theorem State.dropAll_opens (s : State) (g : Nat) : (s.dropAll g).opens = s.opens := rfl
@[simp] theorem State.dropAll_agenda (s : State) (g : Nat) : (s.dropAll g).agenda = s.agenda := rfl
@[simp] theorem State.dropAll_turn (s : State) (g : Nat) : (s.dropAll g).turn = s.turn := rfl

/-! ### State.addReq -/

@[simp] theorem State.addReq_mem (s : State) (q : HomeReq) : (s.addReq q).mem = s.mem := rfl
@[simp] theorem State.addReq_poison (s : State) (q : HomeReq) : (s.addReq q).poison = s.poison := rfl
@[simp] theorem State.addReq_sync (s : State) (q : HomeReq) : (s.addReq q).sync = s.sync := rfl
@[simp] theorem State.addReq_alias2 (s : State) (q : HomeReq) : (s.addReq q).alias2 = s.alias2 := rfl
@[simp] theorem State.addReq_llc (s : State) (q : HomeReq) : (s.addReq q).llc = s.llc := rfl
@[simp] theorem State.addReq_l2 (s : State) (q : HomeReq) : (s.addReq q).l2 = s.l2 := rfl
@[simp] theorem State.addReq_tracked (s : State) (q : HomeReq) : (s.addReq q).tracked = s.tracked := rfl
@[simp] theorem State.addReq_cores (s : State) (q : HomeReq) : (s.addReq q).cores = s.cores := rfl
@[simp] theorem State.addReq_tlb2 (s : State) (q : HomeReq) : (s.addReq q).tlb2 = s.tlb2 := rfl
@[simp] theorem State.addReq_coal (s : State) (q : HomeReq) : (s.addReq q).coal = s.coal := rfl
@[simp] theorem State.addReq_quads (s : State) (q : HomeReq) : (s.addReq q).quads = s.quads := rfl
@[simp] theorem State.addReq_dieMap (s : State) (q : HomeReq) : (s.addReq q).dieMap = s.dieMap := rfl
@[simp] theorem State.addReq_ctxs (s : State) (q : HomeReq) : (s.addReq q).ctxs = s.ctxs := rfl
@[simp] theorem State.addReq_launches (s : State) (q : HomeReq) : (s.addReq q).launches = s.launches := rfl
@[simp] theorem State.addReq_blocks (s : State) (q : HomeReq) : (s.addReq q).blocks = s.blocks := rfl
@[simp] theorem State.addReq_bars (s : State) (q : HomeReq) : (s.addReq q).bars = s.bars := rfl
@[simp] theorem State.addReq_fences (s : State) (q : HomeReq) : (s.addReq q).fences = s.fences := rfl
@[simp] theorem State.addReq_remotes (s : State) (q : HomeReq) : (s.addReq q).remotes = s.remotes := rfl
@[simp] theorem State.addReq_notices (s : State) (q : HomeReq) : (s.addReq q).notices = s.notices := rfl
@[simp] theorem State.addReq_moving (s : State) (q : HomeReq) : (s.addReq q).moving = s.moving := rfl
@[simp] theorem State.addReq_vcCmds (s : State) (q : HomeReq) : (s.addReq q).vcCmds = s.vcCmds := rfl
@[simp] theorem State.addReq_fab (s : State) (q : HomeReq) : (s.addReq q).fab = s.fab := rfl
@[simp] theorem State.addReq_narrows (s : State) (q : HomeReq) : (s.addReq q).narrows = s.narrows := rfl
@[simp] theorem State.addReq_pushes (s : State) (q : HomeReq) : (s.addReq q).pushes = s.pushes := rfl
@[simp] theorem State.addReq_fronts (s : State) (q : HomeReq) : (s.addReq q).fronts = s.fronts := rfl
@[simp] theorem State.addReq_rgnReqs (s : State) (q : HomeReq) : (s.addReq q).rgnReqs = s.rgnReqs := rfl
@[simp] theorem State.addReq_images (s : State) (q : HomeReq) : (s.addReq q).images = s.images := rfl
@[simp] theorem State.addReq_engs (s : State) (q : HomeReq) : (s.addReq q).engs = s.engs := rfl
@[simp] theorem State.addReq_later (s : State) (q : HomeReq) : (s.addReq q).later = s.later := rfl
@[simp] theorem State.addReq_errs (s : State) (q : HomeReq) : (s.addReq q).errs = s.errs := rfl
@[simp] theorem State.addReq_power (s : State) (q : HomeReq) : (s.addReq q).power = s.power := rfl
@[simp] theorem State.addReq_host (s : State) (q : HomeReq) : (s.addReq q).host = s.host := rfl
@[simp] theorem State.addReq_badShares (s : State) (q : HomeReq) : (s.addReq q).badShares = s.badShares := rfl
@[simp] theorem State.addReq_lostDies (s : State) (q : HomeReq) : (s.addReq q).lostDies = s.lostDies := rfl
@[simp] theorem State.addReq_asleep (s : State) (q : HomeReq) : (s.addReq q).asleep = s.asleep := rfl
@[simp] theorem State.addReq_clock (s : State) (q : HomeReq) : (s.addReq q).clock = s.clock := rfl
@[simp] theorem State.addReq_opens (s : State) (q : HomeReq) : (s.addReq q).opens = s.opens := rfl
@[simp] theorem State.addReq_agenda (s : State) (q : HomeReq) : (s.addReq q).agenda = s.agenda := rfl
@[simp] theorem State.addReq_turn (s : State) (q : HomeReq) : (s.addReq q).turn = s.turn := rfl

/-! ### Blocks and threads -/

theorem find_bmod (b c : Nat) (f : Block → Block) (hf : ∀ k, k.id = b → (f k).id = b) (l : List Block) :
    (bmod b f l).find? (·.id == c) = if c = b then (l.find? (·.id == b)).map f else l.find? (·.id == c) := by
  induction l <;> grind [bmod]
/-- A block is read back as the update left it. -/
theorem State.block_modBlock_same (s : State) (b : Nat) (f : Block → Block) (hf : ∀ k, (f k).id = k.id) :
    (s.modBlock b f).block b = (s.block b).map f := by
  simp [State.block, State.modBlock, find_bmod b b f (fun k e => (hf k).trans e)]
/-- Another block is not touched. -/
theorem State.block_modBlock_other (s : State) (b c : Nat) (f : Block → Block) (hf : ∀ k, (f k).id = k.id) (h : c ≠ b) :
    (s.modBlock b f).block c = s.block c := by
  simp [State.block, State.modBlock, find_bmod b c f (fun k e => (hf k).trans e), h]
theorem State.block_id {s : State} {b : Nat} {k : Block} (h : s.block b = some k) : k.id = b := by
  have := List.find?_some h
  simpa using this
theorem State.block_setBlock (s : State) (k : Block) (c : Nat) :
    (s.setBlock k).block c = if c = k.id then (s.block k.id).map fun _ => k else s.block c :=
  find_bmod k.id c (fun _ => k) (fun _ _ => rfl) s.blocks
theorem State.block_setBlock_same {s : State} {k j : Block} (h : s.block k.id = some j) : (s.setBlock k).block k.id = some k := by
  simp [State.block_setBlock, h]
theorem State.block_setBlock_other (s : State) (k : Block) (c : Nat) (h : c ≠ k.id) : (s.setBlock k).block c = s.block c := by
  simp [State.block_setBlock, h]
@[simp] theorem Block.modThread_id (k : Block) (tl : Nat) (f : Thread → Thread) : (k.modThread tl f).id = k.id := rfl
@[simp] theorem Block.modThread_lmem (k : Block) (tl : Nat) (f : Thread → Thread) : (k.modThread tl f).lmem = k.lmem := rfl
@[simp] theorem Block.modThread_length (k : Block) (tl : Nat) (f : Thread → Thread) :
    (k.modThread tl f).threads.length = k.threads.length := by simp [Block.modThread]
theorem Block.thread_modThread_same (k : Block) (tl : Nat) (f : Thread → Thread) (h : tl < k.threads.length) :
    (k.modThread tl f).thread tl = f (k.thread tl) := by
  simp [Block.modThread, Block.thread, lget_lset_same _ _ _ h]
theorem Block.thread_modThread_other (k : Block) (tl u : Nat) (f : Thread → Thread) (h : u ≠ tl) :
    (k.modThread tl f).thread u = k.thread u := by
  simp [Block.modThread, Block.thread, lget_lset_other _ _ _ _ h]
theorem State.thread_of_block {s : State} {b tl : Nat} {k : Block} (h : s.block b = some k) : s.thread b tl = k.thread tl := by
  simp [State.thread, h]
theorem State.block_modThread_same (s : State) (b tl : Nat) (f : Thread → Thread) :
    (s.modThread b tl f).block b = (s.block b).map fun k => k.modThread tl f :=
  State.block_modBlock_same s b _ fun _ => rfl
theorem State.block_modThread_other (s : State) (b c tl : Nat) (f : Thread → Thread) (h : c ≠ b) :
    (s.modThread b tl f).block c = s.block c := State.block_modBlock_other s b c _ (fun _ => rfl) h
theorem State.thread_modThread_same {s : State} {b tl : Nat} {k : Block} (f : Thread → Thread) (h : s.block b = some k)
    (hl : tl < k.threads.length) : (s.modThread b tl f).thread b tl = f (k.thread tl) := by
  rw [State.thread, State.block_modThread_same, h]
  exact Block.thread_modThread_same k tl f hl
theorem State.thread_modThread_other (s : State) (b c tl u : Nat) (f : Thread → Thread) (h : c ≠ b ∨ u ≠ tl) :
    (s.modThread b tl f).thread c u = s.thread c u := by
  by_cases hc : c = b
  · subst hc
    rw [State.thread, State.block_modThread_same, State.thread]
    cases s.block c with
    | none => rfl
    | some k => exact Block.thread_modThread_other k tl u f (h.resolve_left fun x => x rfl)
  · rw [State.thread, State.block_modThread_other _ _ _ _ _ hc, State.thread]


end Sys2Proof.Machine
end

