-- ==== Sys2Proof/Laws/CanonOps.lean ====
section
/-! SUPPORT. What the operations of Machine/Ops.lean do to memory: nothing, or they keep its canonical form. -/

set_option Elab.async false

namespace Sys2Proof.Machine

theorem foldl_mem {α : Type} (f : State → α → State) (h : ∀ s x, (f s x).mem = s.mem) (l : List α) (s : State) :
    (l.foldl f s).mem = s.mem := by
  induction l generalizing s <;> simp_all
theorem foldl_canon {α : Type} (f : State → α → State) (h : ∀ s x, Memory.wf s.mem = true → Memory.wf (f s x).mem = true)
    (l : List α) (s : State) (hs : Memory.wf s.mem = true) : Memory.wf (l.foldl f s).mem = true := by
  induction l generalizing s <;> simp_all

theorem State.freeBytes_mem (s : State) (n : Nat) : (State.freeBytes s n).2.mem = s.mem := by
  unfold State.freeBytes
  grind []
theorem State.reachCyc_mem (s : State) (k n : Nat) : (State.reachCyc s k n).mem = s.mem := by
  unfold State.reachCyc
  grind [State.setQuad_mem]
theorem State.reachDue_mem (s : State) (k : Nat) (d : Option Nat) : (State.reachDue s k d).mem = s.mem := by
  unfold State.reachDue
  grind [State.reachCyc_mem]
theorem State.modCtx_mem (s : State) (c : Nat) (f : Ctx → Ctx) : (State.modCtx s c f).mem = s.mem := by
  unfold State.modCtx
  grind []
theorem State.take_mem (s : State) : (State.take s).2.mem = s.mem := by
  unfold State.take
  grind []
theorem State.rotate_mem (s : State) : (State.rotate s).mem = s.mem := by
  unfold State.rotate
  grind []
theorem State.dropCopy_mem (s : State) (c : CoreRef) (g : Nat) : (State.dropCopy s c g).mem = s.mem := by
  unfold State.dropCopy
  grind [State.setCore_mem]
theorem State.dropL2_mem (s : State) (die g : Nat) : (State.dropL2 s die g).mem = s.mem := by
  unfold State.dropL2
  grind []
theorem State.dropFar_mem (s : State) (g : Nat) : (State.dropFar s g).mem = s.mem := by
  unfold State.dropFar
  grind [State.sendFlit_mem, foldl_canon, foldl_mem]
theorem State.homeBytes_canon (s : State) (g : Nat) (bs : Tbl Byte) (h : Memory.wf s.mem = true) : Memory.wf (State.homeBytes s g bs).mem = true := by
  unfold State.homeBytes
  simp only
  induction bs generalizing s with
  | nil => exact h
  | cons b r ih => exact ih { s with mem := mset s.mem (g * 128 + b.1) b.2 } (Memory.wf_mset _ _ h)
theorem State.homeWrite_canon (s : State) (by_ : Option CoreRef) (g : Nat) (bs : Tbl Byte) (tracked : Bool) (h : Memory.wf s.mem = true) : Memory.wf (State.homeWrite s by_ g bs tracked).mem = true := by
  unfold State.homeWrite
  grind [State.dropAll_mem, State.dropCopy_mem, State.dropFar_mem, State.dropL2_mem, State.homeBytes_canon, foldl_canon, foldl_mem]
theorem State.arriveWb_canon (s : State) (c : CoreRef) (g : Nat) (h : Memory.wf s.mem = true) : Memory.wf (State.arriveWb s c g).mem = true := by
  unfold State.arriveWb
  grind [State.dropL2_mem, State.homeWrite_canon, State.setCore_mem]
theorem State.sendWb_mem (s : State) (c : CoreRef) (p : Nat → DirtyLine → Bool) : (State.sendWb s c p).mem = s.mem := by
  unfold State.sendWb
  grind [State.setCore_mem]
theorem State.fence_mem (s : State) (who : FenceFor) (cs : List CoreRef) (p : Nat → DirtyLine → Bool) (reqs : List Nat := []) : (State.fence s who cs p reqs).mem = s.mem := by
  unfold State.fence
  grind [State.sendWb_mem, foldl_canon, foldl_mem]
theorem State.acquireInval_mem (s : State) (c : CoreRef) (offDie offGroup : Bool) : (State.acquireInval s c offDie offGroup).mem = s.mem := by
  unfold State.acquireInval
  grind [State.setCore_mem]
theorem State.keepTlb_mem (s : State) (c : CoreRef) (e : TlbEntry) : (State.keepTlb s c e).mem = s.mem := by
  unfold State.keepTlb
  grind [State.setCore_mem, State.take_mem]
theorem State.forgetTlb_mem (s : State) (c : CoreRef) (ctx vpn : Nat) : (State.forgetTlb s c ctx vpn).mem = s.mem := by
  unfold State.forgetTlb
  grind [State.setCore_mem]
theorem State.lookup_mem (s : State) (c : CoreRef) (ctx va : Nat) : (State.lookup s c ctx va).2.mem = s.mem := by
  unfold State.lookup
  grind [State.forgetTlb_mem, State.keepTlb_mem, State.useFree_mem]
theorem State.checkGlobal_mem (s : State) (c : CoreRef) (ctx : Nat) (ls : List Lease) (addr w : Nat) (k : AKind) : (State.checkGlobal s c ctx ls addr w k).2.mem = s.mem := by
  unfold State.checkGlobal
  grind [State.lookup_mem]
theorem State.check_mem (s : State) (k : Block) (ptr : DWord) (w align : Nat) (ak : AKind) : (State.check s k ptr w align ak).2.mem = s.mem := by
  unfold State.check
  grind [State.checkGlobal_mem]
theorem State.fetchWord_mem (s : State) (c : CoreRef) (ctx : Nat) (reloc : Tbl DWord) (va : DWord) : (State.fetchWord s c ctx reloc va).2.mem = s.mem := by
  unfold State.fetchWord
  grind [State.lookup_mem]
theorem State.fetchWords_mem (s : State) (c : CoreRef) (ctx : Nat) (reloc : Tbl DWord) (va : DWord) (n : Nat) : (State.fetchWords s c ctx reloc va n).2.mem = s.mem := by
  fun_induction State.fetchWords s c ctx reloc va n <;> grind [State.fetchWord_mem]
theorem State.sendNotice_mem (s : State) (c : CoreRef) (g far : Nat) : (State.sendNotice s c g far).mem = s.mem := by
  unfold State.sendNotice
  grind [State.sendFlit_mem]
theorem State.putDirty_mem (s : State) (c : CoreRef) (g : Nat) (bs : Tbl Byte) (tracked hb : Bool) (ctx vc : Nat) (nl1 low : Bool := false) (page : Nat × Nat := (0, 1)) : (State.putDirty s c g bs tracked hb ctx vc nl1 low page).mem = s.mem := by
  unfold State.putDirty
  grind [State.sendNotice_mem, State.setCore_mem, foldl_canon, foldl_mem]
theorem State.commitEntry_canon (s : State) (c : CoreRef) (ctx : Nat) (e : SbEntry) (h : Memory.wf s.mem = true) : Memory.wf (State.commitEntry s c ctx e).mem = true := by
  unfold State.commitEntry
  grind [State.homeWrite_canon, State.putDirty_mem]
theorem State.commitList_canon (s : State) (b : Nat) (p : SbEntry → Bool) (x0 : List SbEntry) (h : Memory.wf s.mem = true) : Memory.wf (State.commitList s b p x0).1.mem = true := by
  fun_induction State.commitList s b p x0 <;> grind [State.commitEntry_canon, State.modBlock_mem]
theorem State.wholeStores_mem (s : State) (ctx : Nat) (es : List SbEntry) : (State.wholeStores s ctx es).mem = s.mem := by
  unfold State.wholeStores
  grind []
theorem State.commitWhere_canon (s : State) (b : Nat) (p : SbEntry → Bool) (h : Memory.wf s.mem = true) : Memory.wf (State.commitWhere s b p).1.mem = true := by
  unfold State.commitWhere
  grind [State.commitList_canon, State.wholeStores_mem]
theorem State.commitBlock_canon (s : State) (b : Nat) (h : Memory.wf s.mem = true) : Memory.wf (State.commitBlock s b).1.mem = true := by
  unfold State.commitBlock
  grind [State.commitWhere_canon]
theorem State.commitThread_canon (s : State) (b tl : Nat) (h : Memory.wf s.mem = true) : Memory.wf (State.commitThread s b tl).1.mem = true := by
  unfold State.commitThread
  grind [State.commitWhere_canon]
theorem State.joinCheck_mem (s : State) (b : Nat) : (State.joinCheck s b).mem = s.mem := by
  unfold State.joinCheck
  grind [State.setBlock_mem]
theorem State.leaveBar_mem (s : State) (b tl scope bid : Nat) : (State.leaveBar s b tl scope bid).mem = s.mem := by
  unfold State.leaveBar
  grind [State.acquireInval_mem, State.modThread_mem]
theorem State.releaseBar_mem (s : State) (v : BarInst) (ph : Nat) : (State.releaseBar s v ph).mem = s.mem := by
  unfold State.releaseBar
  grind [State.leaveBar_mem, foldl_canon, foldl_mem]
theorem State.podArrive_mem (s : State) (gid src : Nat) : (State.podArrive s gid src).mem = s.mem := by
  unfold State.podArrive
  grind [State.sendFlit_mem, foldl_canon, foldl_mem]
theorem State.barCheck_mem (s : State) (scope owner inst bid : Nat) : (State.barCheck s scope owner inst bid).mem = s.mem := by
  unfold State.barCheck
  grind [State.podArrive_mem, State.releaseBar_mem, State.setBar_mem]
theorem State.barCheckAll_mem (s : State) (owner podgrp : Nat) : (State.barCheckAll s owner podgrp).mem = s.mem := by
  unfold State.barCheckAll
  grind [State.barCheck_mem, foldl_canon, foldl_mem]
theorem State.endThread_mem (s : State) (b tl : Nat) : (State.endThread s b tl).mem = s.mem := by
  unfold State.endThread
  grind [State.barCheckAll_mem, State.joinCheck_mem, State.modBlock_mem, State.modThread_mem]
theorem State.killThread_mem (s : State) (b tl : Nat) : (State.killThread s b tl).mem = s.mem := by
  unfold State.killThread
  grind [State.endThread_mem, State.modBlock_mem, State.modThread_mem]
theorem State.killWake_mem (s : State) (b : Nat) : (State.killWake s b).mem = s.mem := by
  unfold State.killWake
  grind [State.modBlock_mem]
theorem State.endBlocks_mem (s : State) (l : Nat) : (State.endBlocks s l).mem = s.mem := by
  unfold State.endBlocks
  grind [State.barCheckAll_mem]
theorem State.failLaunch_mem (s : State) (l cause : Nat) (tw : List DWord) : (State.failLaunch s l cause tw).mem = s.mem := by
  unfold State.failLaunch
  grind [State.endBlocks_mem, State.modLaunch_mem]
theorem State.freeRegions_mem (s : State) (b : Nat) : (State.freeRegions s b).mem = s.mem := by
  unfold State.freeRegions
  grind []
theorem State.rollbackOne_mem (s : State) (b cause : Nat) (tw : List DWord) : (State.rollbackOne s b cause tw).mem = s.mem := by
  unfold State.rollbackOne
  grind [State.failLaunch_mem, State.freeRegions_mem, State.modBlock_mem]
theorem State.rollback_mem (s : State) (b cause : Nat) (tw : List DWord) : (State.rollback s b cause tw).mem = s.mem := by
  unfold State.rollback
  grind [State.failLaunch_mem, State.rollbackOne_mem]
theorem State.tryTrap_canon (s : State) (b tl : Nat) (h : Memory.wf s.mem = true) : Memory.wf (State.tryTrap s b tl).mem = true := by
  unfold State.tryTrap
  dsimp only
  repeat' split
  all_goals grind [State.commitBlock_canon, State.modBlock_mem, foldl_canon, foldl_mem]
theorem State.beginTrap_mem (s : State) (b tl : Nat) (i : TrapInfo) : (State.beginTrap s b tl i).mem = s.mem := by
  unfold State.beginTrap
  grind [State.failLaunch_mem, State.modThread_mem, State.rollback_mem]
theorem State.takeTrap_canon (s : State) (b tl : Nat) (i : TrapInfo) (h : Memory.wf s.mem = true) : Memory.wf (State.takeTrap s b tl i).mem = true := by
  unfold State.takeTrap
  grind [State.beginTrap_mem, State.tryTrap_canon]
theorem State.sfReport_canon (s : State) (b tl : Nat) (h : Memory.wf s.mem = true) : Memory.wf (State.sfReport s b tl).mem = true := by
  unfold State.sfReport
  grind [State.takeTrap_canon]
theorem State.sfReportAll_canon (s : State) (b : Nat) (h : Memory.wf s.mem = true) : Memory.wf (State.sfReportAll s b).mem = true := by
  unfold State.sfReportAll
  grind [State.sfReport_canon, foldl_canon, foldl_mem]

end Sys2Proof.Machine
end

