-- ==== Sys2Proof/Laws/CanonOperands.lean ====
section
/-! SUPPORT. What the operations of Machine/Operands.lean do to memory: nothing, or they keep its canonical form. -/

set_option Elab.async false

namespace Sys2Proof.Machine

theorem Env.upd_mem (e : Env) (s : State) (f : Thread → Thread) : (Env.upd e s f).mem = s.mem := by
  unfold Env.upd
  grind [State.modThread_mem]
theorem splitGroup_mem (s : State) (g : Group) (stops : List ((Nat × Nat) × Stop)) : (splitGroup s g stops).mem = s.mem := by
  unfold splitGroup
  grind [State.modBlock_mem, foldl_canon, foldl_mem]
theorem applyStop_canon (g : Group) (s : State) (p : (Nat × Nat) × Stop) (h : Memory.wf s.mem = true) : Memory.wf (applyStop g s p).mem = true := by
  unfold applyStop
  grind [State.beginTrap_mem, State.modThread_mem, State.sfReport_canon]
theorem enterTraps_canon (s : State) (b : Nat) (tls : List Nat) (h : Memory.wf s.mem = true) : Memory.wf (enterTraps s b tls).mem = true := by
  unfold enterTraps
  grind [State.tryTrap_canon, foldl_canon, foldl_mem]
theorem endClause_mem (s : State) (g : Group) (lanes : List (Nat × Nat)) : (endClause s g lanes).mem = s.mem := by
  unfold endClause
  grind [State.killThread_mem, State.modThread_mem, foldl_canon, foldl_mem]
theorem finishInstr_canon (s : State) (g : Group) (stops : List ((Nat × Nat) × Stop)) (h : Memory.wf s.mem = true) : Memory.wf (finishInstr s g stops).mem = true := by
  unfold finishInstr
  grind [State.killWake_mem, State.useFree_mem, applyStop_canon, endClause_mem, enterTraps_canon, splitGroup_mem, foldl_canon, foldl_mem]
theorem runLanes_canon (i : Instr) (s0 : State) (g : Group) (k : Block) (parts : List (Nat × Nat)) (lane : Env → State → LaneOut) (x0 : List (Nat × Nat)) (x1 : State) (hlane : ∀ y0 y1, Memory.wf y1.mem = true → Memory.wf (lane y0 y1).1.mem = true) (h : Memory.wf x1.mem = true) : Memory.wf (runLanes i s0 g k parts lane x0 x1).1.mem = true := by
  fun_induction runLanes i s0 g k parts lane x0 x1 <;> grind [State.modThread_mem]
theorem issue_canon (i : Instr) (pred : BitVec 3) (pneg : Bool) (sb : Option Nat) (lane : Env → State → LaneOut) (s : State) (hlane : ∀ y0 y1, Memory.wf y1.mem = true → Memory.wf (lane y0 y1).1.mem = true) (h : Memory.wf s.mem = true) {t : State} (ht : issue i pred pneg sb lane s = .next t) : Memory.wf t.mem = true := by
  unfold issue at ht
  grind [State.rotate_mem, finishInstr_canon, runLanes_canon, foldl_canon, foldl_mem]
theorem issueAlu_canon (i : Instr) (pred : BitVec 3) (pneg : Bool) (f : Env → Thread → Thread) (s : State) (h : Memory.wf s.mem = true) {t : State} (ht : issueAlu i pred pneg f s = .next t) : Memory.wf t.mem = true := by
  unfold issueAlu at ht
  grind [State.setBlock_mem, finishInstr_canon]
theorem Env.block_mem (e : Env) (s : State) (w : Wait) : (Env.block e s w).mem = s.mem := by
  unfold Env.block
  grind [Env.upd_mem]
theorem Env.addOp_mem (e : Env) (s : State) (slot : BitVec 3) (regs : List Nat) (val : Option (List Word)) (poison : Option DWord) (acq : Bool) (act : LandAct) (due : Option Nat := none) : (Env.addOp e s slot regs val poison acq act due).mem = s.mem := by
  unfold Env.addOp
  grind [Env.upd_mem]

end Sys2Proof.Machine
end

