-- ==== Sys2Proof/Laws/CanonAlu.lean ====
section
/-! SUPPORT. What the operations of Machine/Alu.lean do to memory: nothing, or they keep its canonical form. -/

set_option Elab.async false

namespace Sys2Proof.Machine

theorem alu3_canon (i : Instr) (f : FA) (v : Word → Word → Word → Word) (s : State) (h : Memory.wf s.mem = true) {t : State} (ht : alu3 i f v s = .next t) : Memory.wf t.mem = true := by
  unfold alu3 at ht
  grind [issueAlu_canon]
theorem alu2_canon (i : Instr) (f : FA) (v : Word → Word → Word) (s : State) (h : Memory.wf s.mem = true) {t : State} (ht : alu2 i f v s = .next t) : Memory.wf t.mem = true := by
  unfold alu2 at ht
  grind [issueAlu_canon]
theorem alu1_canon (i : Instr) (f : FA) (v : Word → Word) (s : State) (h : Memory.wf s.mem = true) {t : State} (ht : alu1 i f v s = .next t) : Memory.wf t.mem = true := by
  unfold alu1 at ht
  grind [issueAlu_canon]
theorem aluI_canon (i : Instr) (f : FI) (v : Word → Word → Word) (s : State) (h : Memory.wf s.mem = true) {t : State} (ht : aluI i f v s = .next t) : Memory.wf t.mem = true := by
  unfold aluI at ht
  grind [issueAlu_canon]
theorem execNop_canon (f : FA) (s : State) (h : Memory.wf s.mem = true) {t : State} (ht : execNop f s = .next t) : Memory.wf t.mem = true := by
  unfold execNop at ht
  grind [issueAlu_canon]
theorem execMov_canon (f : FA) (s : State) (h : Memory.wf s.mem = true) {t : State} (ht : execMov f s = .next t) : Memory.wf t.mem = true := by
  unfold execMov at ht
  grind [issueAlu_canon]
theorem execMovi_canon (f : FI) (s : State) (h : Memory.wf s.mem = true) {t : State} (ht : execMovi f s = .next t) : Memory.wf t.mem = true := by
  unfold execMovi at ht
  grind [issueAlu_canon]
theorem execMovk_canon (f : FA) (s : State) (h : Memory.wf s.mem = true) {t : State} (ht : execMovk f s = .next t) : Memory.wf t.mem = true := by
  unfold execMovk at ht
  grind [issueAlu_canon]
theorem execIadd_canon (f : FA) (s : State) (h : Memory.wf s.mem = true) {t : State} (ht : execIadd f s = .next t) : Memory.wf t.mem = true := by
  unfold execIadd at ht
  grind [alu2_canon]
theorem execIaddI_canon (f : FI) (s : State) (h : Memory.wf s.mem = true) {t : State} (ht : execIaddI f s = .next t) : Memory.wf t.mem = true := by
  unfold execIaddI at ht
  grind [aluI_canon]
theorem execIsub_canon (f : FA) (s : State) (h : Memory.wf s.mem = true) {t : State} (ht : execIsub f s = .next t) : Memory.wf t.mem = true := by
  unfold execIsub at ht
  grind [alu2_canon]
theorem execIsubI_canon (f : FI) (s : State) (h : Memory.wf s.mem = true) {t : State} (ht : execIsubI f s = .next t) : Memory.wf t.mem = true := by
  unfold execIsubI at ht
  grind [aluI_canon]
theorem execImul_canon (f : FA) (s : State) (h : Memory.wf s.mem = true) {t : State} (ht : execImul f s = .next t) : Memory.wf t.mem = true := by
  unfold execImul at ht
  grind [alu2_canon]
theorem execImulI_canon (f : FI) (s : State) (h : Memory.wf s.mem = true) {t : State} (ht : execImulI f s = .next t) : Memory.wf t.mem = true := by
  unfold execImulI at ht
  grind [aluI_canon]
theorem execImulhi_canon (f : FA) (s : State) (h : Memory.wf s.mem = true) {t : State} (ht : execImulhi f s = .next t) : Memory.wf t.mem = true := by
  unfold execImulhi at ht
  grind [alu2_canon]
theorem execImad_canon (f : FA) (s : State) (h : Memory.wf s.mem = true) {t : State} (ht : execImad f s = .next t) : Memory.wf t.mem = true := by
  unfold execImad at ht
  grind [alu3_canon]
theorem execImadw_canon (f : FA) (s : State) (h : Memory.wf s.mem = true) {t : State} (ht : execImadw f s = .next t) : Memory.wf t.mem = true := by
  unfold execImadw at ht
  grind [issueAlu_canon]
theorem execIadd64_canon (f : FA) (s : State) (h : Memory.wf s.mem = true) {t : State} (ht : execIadd64 f s = .next t) : Memory.wf t.mem = true := by
  unfold execIadd64 at ht
  grind [issueAlu_canon]
theorem execIsub64_canon (f : FA) (s : State) (h : Memory.wf s.mem = true) {t : State} (ht : execIsub64 f s = .next t) : Memory.wf t.mem = true := by
  unfold execIsub64 at ht
  grind [issueAlu_canon]
theorem execImin_canon (f : FA) (s : State) (h : Memory.wf s.mem = true) {t : State} (ht : execImin f s = .next t) : Memory.wf t.mem = true := by
  unfold execImin at ht
  grind [alu2_canon]
theorem execIminI_canon (f : FI) (s : State) (h : Memory.wf s.mem = true) {t : State} (ht : execIminI f s = .next t) : Memory.wf t.mem = true := by
  unfold execIminI at ht
  grind [aluI_canon]
theorem execImax_canon (f : FA) (s : State) (h : Memory.wf s.mem = true) {t : State} (ht : execImax f s = .next t) : Memory.wf t.mem = true := by
  unfold execImax at ht
  grind [alu2_canon]
theorem execImaxI_canon (f : FI) (s : State) (h : Memory.wf s.mem = true) {t : State} (ht : execImaxI f s = .next t) : Memory.wf t.mem = true := by
  unfold execImaxI at ht
  grind [aluI_canon]
theorem execIabs_canon (f : FA) (s : State) (h : Memory.wf s.mem = true) {t : State} (ht : execIabs f s = .next t) : Memory.wf t.mem = true := by
  unfold execIabs at ht
  grind [alu1_canon]
theorem execIneg_canon (f : FA) (s : State) (h : Memory.wf s.mem = true) {t : State} (ht : execIneg f s = .next t) : Memory.wf t.mem = true := by
  unfold execIneg at ht
  grind [alu1_canon]
theorem execLogt_canon (f : FA) (s : State) (h : Memory.wf s.mem = true) {t : State} (ht : execLogt f s = .next t) : Memory.wf t.mem = true := by
  unfold execLogt at ht
  grind [alu3_canon]
theorem execAnd_canon (f : FA) (s : State) (h : Memory.wf s.mem = true) {t : State} (ht : execAnd f s = .next t) : Memory.wf t.mem = true := by
  unfold execAnd at ht
  grind [alu2_canon]
theorem execAndI_canon (f : FI) (s : State) (h : Memory.wf s.mem = true) {t : State} (ht : execAndI f s = .next t) : Memory.wf t.mem = true := by
  unfold execAndI at ht
  grind [aluI_canon]
theorem execOr_canon (f : FA) (s : State) (h : Memory.wf s.mem = true) {t : State} (ht : execOr f s = .next t) : Memory.wf t.mem = true := by
  unfold execOr at ht
  grind [alu2_canon]
theorem execOrI_canon (f : FI) (s : State) (h : Memory.wf s.mem = true) {t : State} (ht : execOrI f s = .next t) : Memory.wf t.mem = true := by
  unfold execOrI at ht
  grind [aluI_canon]
theorem execXor_canon (f : FA) (s : State) (h : Memory.wf s.mem = true) {t : State} (ht : execXor f s = .next t) : Memory.wf t.mem = true := by
  unfold execXor at ht
  grind [alu2_canon]
theorem execXorI_canon (f : FI) (s : State) (h : Memory.wf s.mem = true) {t : State} (ht : execXorI f s = .next t) : Memory.wf t.mem = true := by
  unfold execXorI at ht
  grind [aluI_canon]
theorem execNot_canon (f : FA) (s : State) (h : Memory.wf s.mem = true) {t : State} (ht : execNot f s = .next t) : Memory.wf t.mem = true := by
  unfold execNot at ht
  grind [alu1_canon]
theorem execShl_canon (f : FA) (s : State) (h : Memory.wf s.mem = true) {t : State} (ht : execShl f s = .next t) : Memory.wf t.mem = true := by
  unfold execShl at ht
  grind [alu2_canon]
theorem execShlI_canon (f : FI) (s : State) (h : Memory.wf s.mem = true) {t : State} (ht : execShlI f s = .next t) : Memory.wf t.mem = true := by
  unfold execShlI at ht
  grind [aluI_canon]
theorem execShr_canon (f : FA) (s : State) (h : Memory.wf s.mem = true) {t : State} (ht : execShr f s = .next t) : Memory.wf t.mem = true := by
  unfold execShr at ht
  grind [alu2_canon]
theorem execShrI_canon (f : FI) (s : State) (h : Memory.wf s.mem = true) {t : State} (ht : execShrI f s = .next t) : Memory.wf t.mem = true := by
  unfold execShrI at ht
  grind [aluI_canon]
theorem execSar_canon (f : FA) (s : State) (h : Memory.wf s.mem = true) {t : State} (ht : execSar f s = .next t) : Memory.wf t.mem = true := by
  unfold execSar at ht
  grind [alu2_canon]
theorem execSarI_canon (f : FI) (s : State) (h : Memory.wf s.mem = true) {t : State} (ht : execSarI f s = .next t) : Memory.wf t.mem = true := by
  unfold execSarI at ht
  grind [aluI_canon]
theorem execShf_canon (f : FA) (s : State) (h : Memory.wf s.mem = true) {t : State} (ht : execShf f s = .next t) : Memory.wf t.mem = true := by
  unfold execShf at ht
  grind [alu3_canon]
theorem execBfx_canon (f : FA) (s : State) (h : Memory.wf s.mem = true) {t : State} (ht : execBfx f s = .next t) : Memory.wf t.mem = true := by
  unfold execBfx at ht
  grind [alu2_canon]
theorem execBfi_canon (f : FA) (s : State) (h : Memory.wf s.mem = true) {t : State} (ht : execBfi f s = .next t) : Memory.wf t.mem = true := by
  unfold execBfi at ht
  grind [alu3_canon]
theorem execPopc_canon (f : FA) (s : State) (h : Memory.wf s.mem = true) {t : State} (ht : execPopc f s = .next t) : Memory.wf t.mem = true := by
  unfold execPopc at ht
  grind [alu1_canon]
theorem execClz_canon (f : FA) (s : State) (h : Memory.wf s.mem = true) {t : State} (ht : execClz f s = .next t) : Memory.wf t.mem = true := by
  unfold execClz at ht
  grind [alu1_canon]
theorem execCtz_canon (f : FA) (s : State) (h : Memory.wf s.mem = true) {t : State} (ht : execCtz f s = .next t) : Memory.wf t.mem = true := by
  unfold execCtz at ht
  grind [alu1_canon]
theorem execBrev_canon (f : FA) (s : State) (h : Memory.wf s.mem = true) {t : State} (ht : execBrev f s = .next t) : Memory.wf t.mem = true := by
  unfold execBrev at ht
  grind [alu1_canon]
theorem execPrmb_canon (f : FA) (s : State) (h : Memory.wf s.mem = true) {t : State} (ht : execPrmb f s = .next t) : Memory.wf t.mem = true := by
  unfold execPrmb at ht
  grind [alu3_canon]
theorem execIset_canon (f : FA) (s : State) (h : Memory.wf s.mem = true) {t : State} (ht : execIset f s = .next t) : Memory.wf t.mem = true := by
  unfold execIset at ht
  grind [issueAlu_canon]
theorem execIsetI_canon (f : FI) (s : State) (h : Memory.wf s.mem = true) {t : State} (ht : execIsetI f s = .next t) : Memory.wf t.mem = true := by
  unfold execIsetI at ht
  grind [issueAlu_canon]
theorem execIset64_canon (f : FA) (s : State) (h : Memory.wf s.mem = true) {t : State} (ht : execIset64 f s = .next t) : Memory.wf t.mem = true := by
  unfold execIset64 at ht
  grind [issueAlu_canon]
theorem execSel_canon (f : FA) (s : State) (h : Memory.wf s.mem = true) {t : State} (ht : execSel f s = .next t) : Memory.wf t.mem = true := by
  unfold execSel at ht
  grind [issueAlu_canon]
theorem execLea_canon (f : FA) (s : State) (h : Memory.wf s.mem = true) {t : State} (ht : execLea f s = .next t) : Memory.wf t.mem = true := by
  unfold execLea at ht
  grind [issueAlu_canon]
theorem execLeaI_canon (f : FI) (s : State) (h : Memory.wf s.mem = true) {t : State} (ht : execLeaI f s = .next t) : Memory.wf t.mem = true := by
  unfold execLeaI at ht
  grind [issueAlu_canon]
theorem execI2i_canon (f : FA) (s : State) (h : Memory.wf s.mem = true) {t : State} (ht : execI2i f s = .next t) : Memory.wf t.mem = true := by
  unfold execI2i at ht
  grind [issueAlu_canon]
theorem execPlop_canon (f : FA) (s : State) (h : Memory.wf s.mem = true) {t : State} (ht : execPlop f s = .next t) : Memory.wf t.mem = true := by
  unfold execPlop at ht
  grind [issueAlu_canon]
theorem execPset_canon (f : FA) (s : State) (h : Memory.wf s.mem = true) {t : State} (ht : execPset f s = .next t) : Memory.wf t.mem = true := by
  unfold execPset at ht
  grind [issueAlu_canon]
theorem execSrd_canon (f : FA) (s : State) (h : Memory.wf s.mem = true) {t : State} (ht : execSrd f s = .next t) : Memory.wf t.mem = true := by
  unfold execSrd at ht
  grind [issueAlu_canon]
theorem execCyc_canon (f : FA) (s : State) (h : Memory.wf s.mem = true) {t : State} (ht : execCyc f s = .next t) : Memory.wf t.mem = true := by
  unfold execCyc at ht
  grind [issueAlu_canon]
theorem execGpoll_canon (f : FA) (s : State) (h : Memory.wf s.mem = true) {t : State} (ht : execGpoll f s = .next t) : Memory.wf t.mem = true := by
  unfold execGpoll at ht
  grind [issueAlu_canon]
theorem execGxch_canon (f : FA) (s : State) (h : Memory.wf s.mem = true) {t : State} (ht : execGxch f s = .next t) : Memory.wf t.mem = true := by
  unfold execGxch at ht
  grind [issueAlu_canon]
theorem execGpeer_canon (f : FA) (s : State) (h : Memory.wf s.mem = true) {t : State} (ht : execGpeer f s = .next t) : Memory.wf t.mem = true := by
  unfold execGpeer at ht
  grind [issueAlu_canon]

end Sys2Proof.Machine
end

