-- ==== Sys2Proof/Laws/CanonFloat.lean ====
section
/-! SUPPORT. What the operations of Machine/Float.lean do to memory: nothing, or they keep its canonical form. -/

set_option Elab.async false

namespace Sys2Proof.Machine

theorem execFadd_canon (f : FA) (s : State) (h : Memory.wf s.mem = true) {t : State} (ht : execFadd f s = .next t) : Memory.wf t.mem = true := by
  unfold execFadd at ht
  grind [issueAlu_canon]
theorem execFaddI_canon (f : FI) (s : State) (h : Memory.wf s.mem = true) {t : State} (ht : execFaddI f s = .next t) : Memory.wf t.mem = true := by
  unfold execFaddI at ht
  grind [issueAlu_canon]
theorem execFmul_canon (f : FA) (s : State) (h : Memory.wf s.mem = true) {t : State} (ht : execFmul f s = .next t) : Memory.wf t.mem = true := by
  unfold execFmul at ht
  grind [issueAlu_canon]
theorem execFmulI_canon (f : FI) (s : State) (h : Memory.wf s.mem = true) {t : State} (ht : execFmulI f s = .next t) : Memory.wf t.mem = true := by
  unfold execFmulI at ht
  grind [issueAlu_canon]
theorem execFfma_canon (f : FA) (s : State) (h : Memory.wf s.mem = true) {t : State} (ht : execFfma f s = .next t) : Memory.wf t.mem = true := by
  unfold execFfma at ht
  grind [issueAlu_canon]
theorem execFmulz_canon (f : FA) (s : State) (h : Memory.wf s.mem = true) {t : State} (ht : execFmulz f s = .next t) : Memory.wf t.mem = true := by
  unfold execFmulz at ht
  grind [issueAlu_canon]
theorem execFmin_canon (f : FA) (s : State) (h : Memory.wf s.mem = true) {t : State} (ht : execFmin f s = .next t) : Memory.wf t.mem = true := by
  unfold execFmin at ht
  grind [issueAlu_canon]
theorem execFmax_canon (f : FA) (s : State) (h : Memory.wf s.mem = true) {t : State} (ht : execFmax f s = .next t) : Memory.wf t.mem = true := by
  unfold execFmax at ht
  grind [issueAlu_canon]
theorem execFset_canon (f : FA) (s : State) (h : Memory.wf s.mem = true) {t : State} (ht : execFset f s = .next t) : Memory.wf t.mem = true := by
  unfold execFset at ht
  grind [issueAlu_canon]
theorem execFsetI_canon (f : FI) (s : State) (h : Memory.wf s.mem = true) {t : State} (ht : execFsetI f s = .next t) : Memory.wf t.mem = true := by
  unfold execFsetI at ht
  grind [issueAlu_canon]
theorem execFclass_canon (f : FA) (s : State) (h : Memory.wf s.mem = true) {t : State} (ht : execFclass f s = .next t) : Memory.wf t.mem = true := by
  unfold execFclass at ht
  grind [issueAlu_canon]
theorem execFrnd_canon (f : FA) (s : State) (h : Memory.wf s.mem = true) {t : State} (ht : execFrnd f s = .next t) : Memory.wf t.mem = true := by
  unfold execFrnd at ht
  grind [issueAlu_canon]
theorem execF2i_canon (f : FA) (s : State) (h : Memory.wf s.mem = true) {t : State} (ht : execF2i f s = .next t) : Memory.wf t.mem = true := by
  unfold execF2i at ht
  grind [issueAlu_canon]
theorem execI2f_canon (f : FA) (s : State) (h : Memory.wf s.mem = true) {t : State} (ht : execI2f f s = .next t) : Memory.wf t.mem = true := by
  unfold execI2f at ht
  grind [issueAlu_canon]
theorem execF2f_canon (f : FA) (s : State) (h : Memory.wf s.mem = true) {t : State} (ht : execF2f f s = .next t) : Memory.wf t.mem = true := by
  unfold execF2f at ht
  grind [issueAlu_canon]
theorem execFsf_canon (f : FA) (s : State) (h : Memory.wf s.mem = true) {t : State} (ht : execFsf f s = .next t) : Memory.wf t.mem = true := by
  unfold execFsf at ht
  grind [issueAlu_canon]
theorem execPkadd_canon (f : FA) (s : State) (h : Memory.wf s.mem = true) {t : State} (ht : execPkadd f s = .next t) : Memory.wf t.mem = true := by
  unfold execPkadd at ht
  grind [issueAlu_canon]
theorem execPkmul_canon (f : FA) (s : State) (h : Memory.wf s.mem = true) {t : State} (ht : execPkmul f s = .next t) : Memory.wf t.mem = true := by
  unfold execPkmul at ht
  grind [issueAlu_canon]
theorem execPkfma_canon (f : FA) (s : State) (h : Memory.wf s.mem = true) {t : State} (ht : execPkfma f s = .next t) : Memory.wf t.mem = true := by
  unfold execPkfma at ht
  grind [issueAlu_canon]
theorem execPkdot_canon (f : FA) (s : State) (h : Memory.wf s.mem = true) {t : State} (ht : execPkdot f s = .next t) : Memory.wf t.mem = true := by
  unfold execPkdot at ht
  grind [issueAlu_canon]
theorem execDadd_canon (f : FA) (s : State) (h : Memory.wf s.mem = true) {t : State} (ht : execDadd f s = .next t) : Memory.wf t.mem = true := by
  unfold execDadd at ht
  grind [issueAlu_canon]
theorem execDmul_canon (f : FA) (s : State) (h : Memory.wf s.mem = true) {t : State} (ht : execDmul f s = .next t) : Memory.wf t.mem = true := by
  unfold execDmul at ht
  grind [issueAlu_canon]
theorem execDfma_canon (f : FA) (s : State) (h : Memory.wf s.mem = true) {t : State} (ht : execDfma f s = .next t) : Memory.wf t.mem = true := by
  unfold execDfma at ht
  grind [issueAlu_canon]

end Sys2Proof.Machine
end

