-- ==== Sys2Proof/Laws/CanonControl.lean ====
section
/-! SUPPORT. What the operations of Machine/Control.lean do to memory: nothing, or they keep its canonical form. -/

set_option Elab.async false

namespace Sys2Proof.Machine

theorem State.target_mem (s : State) (k : Block) (t : DWord) : (State.target s k t).2.mem = s.mem := by
  unfold State.target
  grind [State.fetchWord_mem]
theorem Env.jump_mem (e : Env) (s : State) (t : DWord) (f : Thread → Thread) : (Env.jump e s t f).1.mem = s.mem := by
  unfold Env.jump
  grind [Env.upd_mem, State.target_mem]
theorem execBra_canon (f : FB) (s : State) (h : Memory.wf s.mem = true) {t : State} (ht : execBra f s = .next t) : Memory.wf t.mem = true := by
  unfold execBra at ht
  grind [issueAlu_canon]
theorem execBrx_canon (f : FB) (s : State) (h : Memory.wf s.mem = true) {t : State} (ht : execBrx f s = .next t) : Memory.wf t.mem = true := by
  unfold execBrx at ht
  grind [Env.jump_mem, issue_canon]
theorem execCall_canon (f : FB) (s : State) (h : Memory.wf s.mem = true) {t : State} (ht : execCall f s = .next t) : Memory.wf t.mem = true := by
  unfold execCall at ht
  grind [Env.jump_mem, Env.upd_mem, issue_canon]
theorem execRet_canon (f : FB) (s : State) (h : Memory.wf s.mem = true) {t : State} (ht : execRet f s = .next t) : Memory.wf t.mem = true := by
  unfold execRet at ht
  grind [Env.jump_mem, issue_canon]
theorem State.tryExit_canon (s : State) (b tl : Nat) (h : Memory.wf s.mem = true) : Memory.wf (State.tryExit s b tl).mem = true := by
  unfold State.tryExit
  grind [State.commitThread_canon, State.endThread_mem, State.takeTrap_canon]
theorem execExit_canon (f : FB) (s : State) (h : Memory.wf s.mem = true) {t : State} (ht : execExit f s = .next t) : Memory.wf t.mem = true := by
  unfold execExit at ht
  grind [Env.upd_mem, State.commitThread_canon, State.endThread_mem, issue_canon]
theorem execJset_canon (f : FB) (s : State) (h : Memory.wf s.mem = true) {t : State} (ht : execJset f s = .next t) : Memory.wf t.mem = true := by
  unfold execJset at ht
  grind [State.modBlock_mem, issue_canon]
theorem execJwait_canon (f : FB) (s : State) (h : Memory.wf s.mem = true) {t : State} (ht : execJwait f s = .next t) : Memory.wf t.mem = true := by
  unfold execJwait at ht
  grind [Env.block_mem, State.joinCheck_mem, State.modBlock_mem, issue_canon]
theorem execYield_canon (f : FB) (s : State) (h : Memory.wf s.mem = true) {t : State} (ht : execYield f s = .next t) : Memory.wf t.mem = true := by
  unfold execYield at ht
  grind [Env.upd_mem, issue_canon]

end Sys2Proof.Machine
end

