-- ==== Sys2Proof/Laws/CanonCache.lean ====
section
/-! SUPPORT. What the operations of Machine/Cache.lean do to memory: nothing, or they keep its canonical form. -/

set_option Elab.async false

namespace Sys2Proof.Machine

theorem State.signal_mem (s : State) (v : Nat) : (State.signal s v).mem = s.mem := by
  unfold State.signal
  grind []
theorem State.agentWrite_canon (s : State) (pa : Nat) (bs : List Byte) (tracked : Bool) (h : Memory.wf s.mem = true) : Memory.wf (State.agentWrite s pa bs tracked).mem = true := by
  unfold State.agentWrite
  grind [State.homeWrite_canon, foldl_canon, foldl_mem]
theorem State.agentWord_canon (s : State) (pa : Nat) (v : Nat) (h : Memory.wf s.mem = true) : Memory.wf (State.agentWord s pa v).mem = true := by
  unfold State.agentWord
  grind [State.agentWrite_canon]
theorem State.errRecord_canon (s : State) (e : ErrInfo) (h : Memory.wf s.mem = true) : Memory.wf (State.errRecord s e).mem = true := by
  unfold State.errRecord
  grind [State.agentWrite_canon, State.signal_mem]
theorem State.aliasFill_canon (s : State) (pa ctx : Nat) (tracked : Bool) (h : Memory.wf s.mem = true) : Memory.wf (State.aliasFill s pa ctx tracked).mem = true := by
  unfold State.aliasFill
  grind [State.errRecord_canon]
theorem State.fillCopies_mem (s : State) (q : HomeReq) (keep : Bool) : (State.fillCopies s q keep).mem = s.mem := by
  unfold State.fillCopies
  grind [State.setCore_mem]
theorem State.touch_mem (s : State) (c : CoreRef) (g : Nat) (nl1 : Bool) : (State.touch s c g nl1).mem = s.mem := by
  unfold State.touch
  grind [State.setCore_mem]
theorem State.dropReq_mem (s : State) (id : Nat) : (State.dropReq s id).mem = s.mem := by
  unfold State.dropReq
  grind []
theorem State.setStage_mem (s : State) (id : Nat) (st : ReqStage) : (State.setStage s id st).mem = s.mem := by
  unfold State.setStage
  grind []
theorem State.demandFor_mem (s : State) (who : FenceFor) (g : Nat) : (State.demandFor s who g).mem = s.mem := by
  unfold State.demandFor
  grind [State.sendFlit_mem]
theorem State.demand_mem (s : State) (id g : Nat) : (State.demand s id g).mem = s.mem := by
  unfold State.demand
  grind [State.demandFor_mem, State.setStage_mem]
theorem State.flushRecord_canon (s : State) (g : Nat) (h : Memory.wf s.mem = true) : Memory.wf (State.flushRecord s g).mem = true := by
  unfold State.flushRecord
  grind [State.arriveWb_canon, foldl_canon, foldl_mem]
theorem State.doneNow_canon (s : State) (pa : Nat) (h : Memory.wf s.mem = true) : Memory.wf (State.doneNow s pa).mem = true := by
  unfold State.doneNow
  grind [State.agentWord_canon, State.setRec_mem]
theorem State.addDone_canon (s : State) (pa : Nat) (h : Memory.wf s.mem = true) : Memory.wf (State.addDone s pa).mem = true := by
  unfold State.addDone
  grind [State.demandFor_mem, State.doneNow_canon, State.flushRecord_canon]
theorem State.beginRelease_mem (s : State) (q : HomeReq) : (State.beginRelease s q).mem = s.mem := by
  unfold State.beginRelease
  grind [State.fence_mem, State.setStage_mem]
theorem State.endRelease_mem (s : State) (c : CoreRef) (g : Nat) : (State.endRelease s c g).mem = s.mem := by
  unfold State.endRelease
  grind [State.setCore_mem, State.setRec_mem]
theorem State.notify_mem (s : State) (g : Nat) : (State.notify s g).mem = s.mem := by
  unfold State.notify
  grind [State.sendFlit_mem]
theorem State.acquireFrom_mem (s : State) (die : BitVec 4) (core : BitVec 7) (pkg : BitVec 14) (g : Nat) (failed : Bool) (prio : BitVec 7) : (State.acquireFrom s die core pkg g failed prio).mem = s.mem := by
  unfold State.acquireFrom
  grind [State.notify_mem, State.setRec_mem]
theorem State.acquireRec_mem (s : State) (c : CoreRef) (g : Nat) (failed : Bool) (prio : BitVec 7) : (State.acquireRec s c g failed prio).mem = s.mem := by
  unfold State.acquireRec
  grind [State.acquireFrom_mem]
theorem State.modOp_mem (s : State) (b tl op : Nat) (f : SlotOp → SlotOp) : (State.modOp s b tl op f).mem = s.mem := by
  unfold State.modOp
  grind [State.modThread_mem]
theorem State.landVal_mem (s : State) (q : HomeReq) (v : List Word) (poison : Bool) (act : LandAct) : (State.landVal s q v poison act).mem = s.mem := by
  unfold State.landVal
  grind [State.modOp_mem]
theorem State.seen_mem (s : State) (c : CoreRef) (g : Nat) : (State.seen s c g).mem = s.mem := by
  unfold State.seen
  grind [State.dropCopy_mem, State.dropL2_mem]
theorem State.performFill_canon (s : State) (q : HomeReq) (h : Memory.wf s.mem = true) : Memory.wf (State.performFill s q).mem = true := by
  unfold State.performFill
  grind [Env.block_mem, State.aliasFill_canon, State.dropReq_mem, State.fillCopies_mem, State.landVal_mem, State.seen_mem]
theorem State.performAcquire_mem (s : State) (q : HomeReq) : (State.performAcquire s q).mem = s.mem := by
  unfold State.performAcquire
  grind [Env.block_mem, State.acquireRec_mem, State.dropReq_mem, State.landVal_mem, State.seen_mem]
theorem State.performAtomic_canon (s : State) (q : HomeReq) (h : Memory.wf s.mem = true) : Memory.wf (State.performAtomic s q).mem = true := by
  unfold State.performAtomic
  grind [State.acquireRec_mem, State.dropReq_mem, State.endRelease_mem, State.homeWrite_canon, State.landVal_mem, State.seen_mem]
theorem State.performRelease_canon (s : State) (q : HomeReq) (h : Memory.wf s.mem = true) : Memory.wf (State.performRelease s q).mem = true := by
  unfold State.performRelease
  grind [State.dropCopy_mem, State.dropL2_mem, State.dropReq_mem, State.endRelease_mem, State.homeWrite_canon, State.putDirty_mem]
theorem State.serve_canon (s : State) (q : HomeReq) (perform : State → HomeReq → State) (hperform : ∀ y0 y1, Memory.wf y0.mem = true → Memory.wf (perform y0 y1).mem = true) (h : Memory.wf s.mem = true) : Memory.wf (State.serve s q perform).mem = true := by
  unfold State.serve
  grind [State.beginRelease_mem, State.demand_mem, foldl_canon, foldl_mem]

end Sys2Proof.Machine
end

