-- ==== Sys2Proof/Laws/CanonMem.lean ====
section
/-! SUPPORT. What the operations of Machine/Mem.lean do to memory: nothing, or they keep its canonical form. -/

set_option Elab.async false

namespace Sys2Proof.Machine

theorem State.sramWrite_mem (s : State) (b tl : Nat) (p : Place) (n v : Nat) : (State.sramWrite s b tl p n v).mem = s.mem := by
  unfold State.sramWrite
  grind [State.modBlock_mem, State.modThread_mem]
theorem Env.loadPart_mem (e : Env) (op : Nat) (nl1 : Bool) (en : TlbEntry) (pa : Nat) (va : DWord) (w : Nat) (low : Bool) (s : State) (i : Nat) : (Env.loadPart e op nl1 en pa va w low s i).mem = s.mem := by
  unfold Env.loadPart
  grind [Env.block_mem, State.addReq_mem, State.modOp_mem]
theorem Env.loadParts_mem (e : Env) (s : State) (sb : BitVec 3) (d : BitVec 8) (n w : Nat) (pa : Nat) (va : DWord) (en : TlbEntry) (nl1 : Bool) (low : Bool := false) : (Env.loadParts e s sb d n w pa va en nl1 low).mem = s.mem := by
  unfold Env.loadParts
  grind [Env.addOp_mem, Env.loadPart_mem, foldl_canon, foldl_mem]
theorem Env.load_mem (e : Env) (s : State) (sb : BitVec 3) (d : BitVec 8) (w : Nat) (sx : Bool) (pa : Nat) (va : DWord) (en : TlbEntry) (nl1 acq : Bool) (low : Bool := false) : (Env.load e s sb d w sx pa va en nl1 acq low).mem = s.mem := by
  unfold Env.load
  grind [Env.addOp_mem, Env.block_mem, State.addReq_mem, State.touch_mem]
theorem Env.land_mem (e : Env) (s : State) (sb : BitVec 3) (d : BitVec 8) (w : Nat) (v : List Word) : (Env.land e s sb d w v).mem = s.mem := by
  unfold Env.land
  grind [Env.addOp_mem]
theorem Env.landAt_mem (e : Env) (s : State) (sb : BitVec 3) (d : BitVec 8) (w : Nat) (v : List Word) (n : Nat) : (Env.landAt e s sb d w v n).mem = s.mem := by
  unfold Env.landAt
  grind [Env.addOp_mem]
theorem State.pushStore_canon (s : State) (b : Nat) (en : SbEntry) (h : Memory.wf s.mem = true) : Memory.wf (State.pushStore s b en).1.mem = true := by
  unfold State.pushStore
  grind [Env.block_mem, State.commitList_canon, State.irrevocable_mem, State.modBlock_mem, State.take_mem]
theorem issueCommit_canon (i : Instr) (pred : BitVec 3) (pneg : Bool) (sb : Option Nat) (lane : Env → State → LaneOut) (s : State) (all : Bool := false) (hlane : ∀ y0 y1, Memory.wf y1.mem = true → Memory.wf (lane y0 y1).1.mem = true) (h : Memory.wf s.mem = true) {t : State} (ht : issueCommit i pred pneg sb lane s all = .next t) : Memory.wf t.mem = true := by
  unfold issueCommit at ht
  grind [Env.block_mem, State.rotate_mem, finishInstr_canon, runLanes_canon, foldl_canon, foldl_mem]
theorem execLd_canon (f : FM) (s : State) (h : Memory.wf s.mem = true) {t : State} (ht : execLd f s = .next t) : Memory.wf t.mem = true := by
  unfold execLd at ht
  grind [Env.land_mem, Env.loadParts_mem, Env.load_mem, State.check_mem, issue_canon]
theorem execSt_canon (f : FM) (s : State) (h : Memory.wf s.mem = true) {t : State} (ht : execSt f s = .next t) : Memory.wf t.mem = true := by
  unfold execSt at ht
  grind [State.check_mem, State.pushStore_canon, State.sramWrite_mem, issueCommit_canon]
theorem Env.sramLoad_mem (e : Env) (s : State) (f : FM) (region : BitVec 8) (size : Nat) (pl : Nat → Place) : (Env.sramLoad e s f region size pl).1.mem = s.mem := by
  unfold Env.sramLoad
  grind [Env.landAt_mem]
theorem Env.sramStore_mem (e : Env) (s : State) (f : FM) (region : BitVec 8) (size : Nat) (pl : Nat → Place) : (Env.sramStore e s f region size pl).1.mem = s.mem := by
  unfold Env.sramStore
  grind [State.sramWrite_mem]
theorem execLdl_canon (f : FM) (s : State) (h : Memory.wf s.mem = true) {t : State} (ht : execLdl f s = .next t) : Memory.wf t.mem = true := by
  unfold execLdl at ht
  grind [Env.sramLoad_mem, issue_canon]
theorem execStl_canon (f : FM) (s : State) (h : Memory.wf s.mem = true) {t : State} (ht : execStl f s = .next t) : Memory.wf t.mem = true := by
  unfold execStl at ht
  grind [Env.sramStore_mem, issue_canon]
theorem execLdp_canon (f : FM) (s : State) (h : Memory.wf s.mem = true) {t : State} (ht : execLdp f s = .next t) : Memory.wf t.mem = true := by
  unfold execLdp at ht
  grind [Env.sramLoad_mem, issue_canon]
theorem execStp_canon (f : FM) (s : State) (h : Memory.wf s.mem = true) {t : State} (ht : execStp f s = .next t) : Memory.wf t.mem = true := by
  unfold execStp at ht
  grind [Env.sramStore_mem, issue_canon]
theorem State.checkConst_mem (s : State) (k : Block) (va : DWord) : (State.checkConst s k va).2.mem = s.mem := by
  unfold State.checkConst
  grind [State.lookup_mem]
theorem execLdk_canon (f : FM) (s : State) (h : Memory.wf s.mem = true) {t : State} (ht : execLdk f s = .next t) : Memory.wf t.mem = true := by
  unfold execLdk at ht
  grind [Env.loadParts_mem, Env.load_mem, State.checkConst_mem, issue_canon]
theorem Env.sramAtom_mem (e : Env) (s : State) (f : FM) (pl : Place) : (Env.sramAtom e s f pl).1.mem = s.mem := by
  unfold Env.sramAtom
  grind [State.sramWrite_mem]
theorem Env.globalAtom_canon (e : Env) (s : State) (f : FM) (pa : Nat) (p : DWord) (en : TlbEntry) (lands : Bool) (h : Memory.wf s.mem = true) : Memory.wf (Env.globalAtom e s f pa p en lands).1.mem = true := by
  unfold Env.globalAtom
  grind [Env.addOp_mem, Env.upd_mem, State.addReq_mem, State.commitBlock_canon, State.dropCopy_mem, State.dropL2_mem, State.irrevocable_mem]
theorem Env.atomLane_canon (e : Env) (s : State) (f : FM) (lands : Bool) (h : Memory.wf s.mem = true) : Memory.wf (Env.atomLane e s f lands).1.mem = true := by
  unfold Env.atomLane
  grind [Env.globalAtom_canon, Env.land_mem, Env.sramAtom_mem, State.check_mem]
theorem execAtom_canon (f : FM) (s : State) (h : Memory.wf s.mem = true) {t : State} (ht : execAtom f s = .next t) : Memory.wf t.mem = true := by
  unfold execAtom at ht
  grind [Env.atomLane_canon, issueCommit_canon]
theorem execRed_canon (f : FM) (s : State) (h : Memory.wf s.mem = true) {t : State} (ht : execRed f s = .next t) : Memory.wf t.mem = true := by
  unfold execRed at ht
  grind [Env.atomLane_canon, issueCommit_canon]
theorem execAtoml_canon (f : FM) (s : State) (h : Memory.wf s.mem = true) {t : State} (ht : execAtoml f s = .next t) : Memory.wf t.mem = true := by
  unfold execAtoml at ht
  grind [Env.landAt_mem, Env.sramAtom_mem, issue_canon]
theorem execAcq_canon (f : FM) (s : State) (h : Memory.wf s.mem = true) {t : State} (ht : execAcq f s = .next t) : Memory.wf t.mem = true := by
  unfold execAcq at ht
  grind [Env.addOp_mem, Env.load_mem, State.addReq_mem, State.check_mem, issue_canon]
theorem execRel_canon (f : FM) (s : State) (h : Memory.wf s.mem = true) {t : State} (ht : execRel f s = .next t) : Memory.wf t.mem = true := by
  unfold execRel at ht
  grind [Env.upd_mem, State.addReq_mem, State.check_mem, State.commitBlock_canon, State.irrevocable_mem, State.modBlock_mem, issueCommit_canon]
theorem execPhase_canon (f : FM) (s : State) (h : Memory.wf s.mem = true) {t : State} (ht : execPhase f s = .next t) : Memory.wf t.mem = true := by
  unfold execPhase at ht
  grind [Env.upd_mem, State.commitBlock_canon, State.fence_mem, State.irrevocable_mem, issueCommit_canon]
theorem execPref_canon (f : FM) (s : State) (h : Memory.wf s.mem = true) {t : State} (ht : execPref f s = .next t) : Memory.wf t.mem = true := by
  unfold execPref at ht
  grind [State.addReq_mem, State.check_mem, issue_canon]
theorem State.cline_canon (s : State) (c : CoreRef) (g op : Nat) (h : Memory.wf s.mem = true) : Memory.wf (State.cline s c g op).mem = true := by
  unfold State.cline
  grind [State.arriveWb_canon, State.dropCopy_mem, State.dropL2_mem, State.setCore_mem]
theorem execCline_canon (f : FM) (s : State) (h : Memory.wf s.mem = true) {t : State} (ht : execCline f s = .next t) : Memory.wf t.mem = true := by
  unfold execCline at ht
  grind [State.check_mem, State.cline_canon, issue_canon]
theorem execDrainst_canon (f : FM) (s : State) (h : Memory.wf s.mem = true) {t : State} (ht : execDrainst f s = .next t) : Memory.wf t.mem = true := by
  unfold execDrainst at ht
  grind [State.commitBlock_canon, issueCommit_canon]
theorem execVcqry_canon (f : FM) (s : State) (h : Memory.wf s.mem = true) {t : State} (ht : execVcqry f s = .next t) : Memory.wf t.mem = true := by
  unfold execVcqry at ht
  grind [Env.land_mem, State.check_mem, issue_canon]

end Sys2Proof.Machine
end

