-- ==== Sys2Proof/Laws/CanonSync.lean ====
section
/-! SUPPORT. What the operations of Machine/Sync.lean do to memory: nothing, or they keep its canonical form. -/

set_option Elab.async false

namespace Sys2Proof.Machine

theorem State.arrive_mem (s : State) (b tl scope bid : Nat) : (State.arrive s b tl scope bid).mem = s.mem := by
  unfold State.arrive
  grind [Env.block_mem, State.barCheck_mem, State.setBar_mem]
theorem Env.barArrive_canon (e : Env) (s : State) (scope bid : Nat) (h : Memory.wf s.mem = true) : Memory.wf (Env.barArrive e s scope bid).1.mem = true := by
  unfold Env.barArrive
  grind [Env.upd_mem, State.arrive_mem, State.commitBlock_canon, State.fence_mem, State.irrevocable_mem]
theorem Env.barWait_mem (e : Env) (s : State) (scope bid : Nat) : (Env.barWait e s scope bid).1.mem = s.mem := by
  unfold Env.barWait
  grind [Env.block_mem, Env.upd_mem, State.acquireInval_mem]
theorem execBararv_canon (f : FM) (s : State) (h : Memory.wf s.mem = true) {t : State} (ht : execBararv f s = .next t) : Memory.wf t.mem = true := by
  unfold execBararv at ht
  grind [Env.barArrive_canon, issueCommit_canon]
theorem execBarwait_canon (f : FM) (s : State) (h : Memory.wf s.mem = true) {t : State} (ht : execBarwait f s = .next t) : Memory.wf t.mem = true := by
  unfold execBarwait at ht
  grind [Env.barWait_mem, issue_canon]
theorem execBar_canon (f : FM) (s : State) (h : Memory.wf s.mem = true) {t : State} (ht : execBar f s = .next t) : Memory.wf t.mem = true := by
  unfold execBar at ht
  grind [Env.barArrive_canon, Env.barWait_mem, issueCommit_canon]
theorem State.boPut_mem (s : State) (b a : Nat) (o : Bo) (lag : Nat := 0) : (State.boPut s b a o lag).mem = s.mem := by
  unfold State.boPut
  grind [Env.block_mem, State.check_mem, State.setBlock_mem]
theorem State.boLook_mem (s : State) (b a : Nat) : (State.boLook s b a).mem = s.mem := by
  unfold State.boLook
  grind [Env.block_mem, State.boPut_mem, State.check_mem, State.modBlock_mem]
theorem State.stPut_mem (s : State) (b a st : Nat) : (State.stPut s b a st).mem = s.mem := by
  unfold State.stPut
  grind [State.modBlock_mem]
theorem State.deliver_mem (s : State) (b a : Nat) (bytes : Nat) (arr final : Bool) (eng cause detail : Nat) (lag : Nat := 0) : (State.deliver s b a bytes arr final eng cause detail lag).mem = s.mem := by
  unfold State.deliver
  grind [Env.block_mem, State.boPut_mem, State.stPut_mem]
theorem Env.boLane_canon (e : Env) (s : State) (f : FM) (wr : Bool) (act : State → Nat → Bo → LaneOut) (hact : ∀ y0 y1 y2, Memory.wf y0.mem = true → Memory.wf (act y0 y1 y2).1.mem = true) (h : Memory.wf s.mem = true) : Memory.wf (Env.boLane e s f wr act).1.mem = true := by
  unfold Env.boLane
  grind [Env.block_mem]
theorem execBoinit_canon (f : FM) (s : State) (h : Memory.wf s.mem = true) {t : State} (ht : execBoinit f s = .next t) : Memory.wf t.mem = true := by
  unfold execBoinit at ht
  grind [Env.boLane_canon, State.boPut_mem, State.stPut_mem, issue_canon]
theorem execBoexp_canon (f : FM) (s : State) (h : Memory.wf s.mem = true) {t : State} (ht : execBoexp f s = .next t) : Memory.wf t.mem = true := by
  unfold execBoexp at ht
  grind [Env.boLane_canon, State.boPut_mem, issue_canon]
theorem execBoarv_canon (f : FM) (s : State) (h : Memory.wf s.mem = true) {t : State} (ht : execBoarv f s = .next t) : Memory.wf t.mem = true := by
  unfold execBoarv at ht
  grind [Env.boLane_canon, State.arrive_mem, State.boPut_mem, issue_canon]
theorem execBowait_canon (f : FM) (s : State) (h : Memory.wf s.mem = true) {t : State} (ht : execBowait f s = .next t) : Memory.wf t.mem = true := by
  unfold execBowait at ht
  grind [Env.block_mem, Env.boLane_canon, State.boLook_mem, issue_canon]
theorem execBotest_canon (f : FM) (s : State) (h : Memory.wf s.mem = true) {t : State} (ht : execBotest f s = .next t) : Memory.wf t.mem = true := by
  unfold execBotest at ht
  grind [Env.boLane_canon, Env.upd_mem, State.boLook_mem, issue_canon]
theorem State.qserve_mem (s : State) (b h : Nat) : (State.qserve s b h).mem = s.mem := by
  unfold State.qserve
  grind [Env.block_mem, State.setBlock_mem]
theorem execQdef_canon (f : FM) (s : State) (h : Memory.wf s.mem = true) {t : State} (ht : execQdef f s = .next t) : Memory.wf t.mem = true := by
  unfold execQdef at ht
  grind [Env.block_mem, State.modBlock_mem, State.qserve_mem, issue_canon]
theorem Env.qLane_canon (e : Env) (s : State) (q : Nat) (act : State → Block → Nat → LaneOut) (hact : ∀ y0 y1 y2, Memory.wf y0.mem = true → Memory.wf (act y0 y1 y2).1.mem = true) (h : Memory.wf s.mem = true) : Memory.wf (Env.qLane e s q act).1.mem = true := by
  unfold Env.qLane
  grind [Env.block_mem]
theorem execQpush_canon (f : FM) (s : State) (h : Memory.wf s.mem = true) {t : State} (ht : execQpush f s = .next t) : Memory.wf t.mem = true := by
  unfold execQpush at ht
  grind [Env.block_mem, Env.qLane_canon, State.qserve_mem, State.setBlock_mem, issue_canon]
theorem execQpop_canon (f : FM) (s : State) (h : Memory.wf s.mem = true) {t : State} (ht : execQpop f s = .next t) : Memory.wf t.mem = true := by
  unfold execQpop at ht
  grind [Env.block_mem, Env.qLane_canon, Env.upd_mem, State.qserve_mem, State.setBlock_mem, issue_canon]
theorem execQtry_canon (f : FM) (s : State) (h : Memory.wf s.mem = true) {t : State} (ht : execQtry f s = .next t) : Memory.wf t.mem = true := by
  unfold execQtry at ht
  grind [Env.qLane_canon, Env.upd_mem, State.qserve_mem, State.setBlock_mem, issue_canon]

end Sys2Proof.Machine
end

