-- ==== Sys2Proof/Laws/CanonSys.lean ====
section
/-! SUPPORT. What the operations of Machine/Sys.lean do to memory: nothing, or they keep its canonical form. -/

set_option Elab.async false

namespace Sys2Proof.Machine

theorem execTrap_canon (f : FI) (s : State) (h : Memory.wf s.mem = true) {t : State} (ht : execTrap f s = .next t) : Memory.wf t.mem = true := by
  unfold execTrap at ht
  grind [issue_canon]
theorem execBpt_canon (f : FI) (s : State) (h : Memory.wf s.mem = true) {t : State} (ht : execBpt f s = .next t) : Memory.wf t.mem = true := by
  unfold execBpt at ht
  grind [issue_canon]
theorem State.retryWait_mem (s : State) (b tl : Nat) : (State.retryWait s b tl).mem = s.mem := by
  unfold State.retryWait
  grind [Env.block_mem, State.joinCheck_mem, State.killWake_mem, State.leaveBar_mem, State.modThread_mem, State.qserve_mem]
theorem execTret_canon (f : FA) (s : State) (h : Memory.wf s.mem = true) {t : State} (ht : execTret f s = .next t) : Memory.wf t.mem = true := by
  unfold execTret at ht
  grind [Env.upd_mem, State.retryWait_mem, State.target_mem, issue_canon]
theorem execFrginfo_canon (f : FA) (s : State) (h : Memory.wf s.mem = true) {t : State} (ht : execFrginfo f s = .next t) : Memory.wf t.mem = true := by
  unfold execFrginfo at ht
  grind [Env.upd_mem, issue_canon]
theorem execSfqpop_canon (f : FA) (s : State) (h : Memory.wf s.mem = true) {t : State} (ht : execSfqpop f s = .next t) : Memory.wf t.mem = true := by
  unfold execSfqpop at ht
  grind [Env.block_mem, Env.upd_mem, State.modBlock_mem, issue_canon]
theorem State.killFragment_mem (s : State) (b : Nat) (f : BitVec 16) : (State.killFragment s b f).mem = s.mem := by
  unfold State.killFragment
  grind [Env.block_mem, State.killThread_mem, State.modThread_mem, foldl_canon, foldl_mem]
theorem execKillf_canon (f : FA) (s : State) (h : Memory.wf s.mem = true) {t : State} (ht : execKillf f s = .next t) : Memory.wf t.mem = true := by
  unfold execKillf at ht
  grind [Env.block_mem, State.killFragment_mem, issue_canon]
theorem execSetprio_canon (f : FI) (s : State) (h : Memory.wf s.mem = true) {t : State} (ht : execSetprio f s = .next t) : Memory.wf t.mem = true := by
  unfold execSetprio at ht
  grind [issueAlu_canon]
theorem execTmode_canon (f : FI) (s : State) (h : Memory.wf s.mem = true) {t : State} (ht : execTmode f s = .next t) : Memory.wf t.mem = true := by
  unfold execTmode at ht
  grind [issueAlu_canon]

end Sys2Proof.Machine
end

