-- ==== Sys2Proof/Laws/CanonVc.lean ====
section
/-! SUPPORT. What the operations of Machine/Vc.lean do to memory: nothing, or they keep its canonical form. -/

set_option Elab.async false

namespace Sys2Proof.Machine

theorem State.dropL2Line_mem (s : State) (die : Nat) (a : Line) : (State.dropL2Line s die a).mem = s.mem := by
  unfold State.dropL2Line
  grind [State.sendWb_mem, State.useFree_mem, foldl_canon, foldl_mem]
theorem State.dropLlLine_mem (s : State) (a : Line) : (State.dropLlLine s a).mem = s.mem := by
  unfold State.dropLlLine
  grind [State.useFree_mem]
theorem State.trimL2_mem (s : State) (die : Nat) (x0 : Nat) : (State.trimL2 s die x0).mem = s.mem := by
  fun_induction State.trimL2 s die x0 <;> grind [State.dropL2Line_mem]
theorem State.trimLl_mem (s : State) (x0 : Nat) : (State.trimLl s x0).mem = s.mem := by
  fun_induction State.trimLl s x0 <;> grind [State.dropLlLine_mem]
theorem State.trimL1_mem (s : State) (c : CoreRef) (x0 : Nat) : (State.trimL1 s c x0).mem = s.mem := by
  fun_induction State.trimL1 s c x0 <;> grind [State.dropCopy_mem, State.sendWb_mem]
theorem State.unpin_mem (s : State) (c : CoreRef) : (State.unpin s c).mem = s.mem := by
  unfold State.unpin
  grind [State.setCore_mem]
theorem State.unpinLl_mem (s : State) : (State.unpinLl s).mem = s.mem := by
  unfold State.unpinLl
  grind []
theorem State.settleCaches_mem (s : State) : (State.settleCaches s).mem = s.mem := by
  unfold State.settleCaches
  grind [State.trimL1_mem, State.trimL2_mem, State.trimLl_mem, State.unpinLl_mem, State.unpin_mem, foldl_canon, foldl_mem]
theorem State.putVc_canon (s : State) (ctx idx : Nat) (v : VcEntry) (h : Memory.wf s.mem = true) : Memory.wf (State.putVc s ctx idx v).mem = true := by
  unfold State.putVc
  grind [State.agentWrite_canon, State.modCtx_mem]
theorem State.vcDefine_canon (s : State) (ctx idx : Nat) (w0 w1 : DWord) (h : Memory.wf s.mem = true) : Memory.wf (State.vcDefine s ctx idx w0 w1).2.mem = true := by
  unfold State.vcDefine
  grind [State.putVc_canon]
theorem Env.readRecord_mem (e : Env) (s : State) (p : DWord) (n al : Nat) : (Env.readRecord e s p n al).2.mem = s.mem := by
  unfold Env.readRecord
  grind [Env.load_mem, State.check_mem]
theorem Env.vcCommand_mem (e : Env) (s : State) (f : FA) (cmd : VcCmd) : (Env.vcCommand e s f cmd).mem = s.mem := by
  unfold Env.vcCommand
  grind [Env.addOp_mem, State.irrevocable_mem]
theorem execVcdef_canon (f : FA) (s : State) (h : Memory.wf s.mem = true) {t : State} (ht : execVcdef f s = .next t) : Memory.wf t.mem = true := by
  unfold execVcdef at ht
  grind [Env.readRecord_mem, Env.vcCommand_mem, issue_canon]
theorem execVcsize_canon (f : FA) (s : State) (h : Memory.wf s.mem = true) {t : State} (ht : execVcsize f s = .next t) : Memory.wf t.mem = true := by
  unfold execVcsize at ht
  grind [Env.vcCommand_mem, issue_canon]
theorem execVcmove_canon (f : FA) (s : State) (h : Memory.wf s.mem = true) {t : State} (ht : execVcmove f s = .next t) : Memory.wf t.mem = true := by
  unfold execVcmove at ht
  grind [Env.vcCommand_mem, issue_canon]
theorem execVcflush_canon (f : FA) (s : State) (h : Memory.wf s.mem = true) {t : State} (ht : execVcflush f s = .next t) : Memory.wf t.mem = true := by
  unfold execVcflush at ht
  grind [Env.vcCommand_mem, issue_canon]
theorem execBiasflip_canon (f : FA) (s : State) (h : Memory.wf s.mem = true) {t : State} (ht : execBiasflip f s = .next t) : Memory.wf t.mem = true := by
  unfold execBiasflip at ht
  grind [Env.vcCommand_mem, State.check_mem, issue_canon]
theorem State.landVc_mem (s : State) (c : VcPending) (st count : Nat) : (State.landVc s c st count).mem = s.mem := by
  unfold State.landVc
  grind [State.modThread_mem]
theorem State.setCmd_mem (s : State) (c : VcPending) : (State.setCmd s c).mem = s.mem := by
  unfold State.setCmd
  grind []
theorem State.agedLines_mem (s : State) (ctx idx : Nat) : (State.agedLines s ctx idx).mem = s.mem := by
  unfold State.agedLines
  grind []
theorem State.openWindow_canon (s : State) (c : VcPending) (idx : Nat) (w0 w1 : DWord) (h : Memory.wf s.mem = true) : Memory.wf (State.openWindow s c idx w0 w1).mem = true := by
  unfold State.openWindow
  grind [State.agedLines_mem, State.landVc_mem, State.putVc_canon, State.setCmd_mem]
theorem State.dropCopies_mem (s : State) (p : Nat → Copy → Bool) : (State.dropCopies s p).mem = s.mem := by
  unfold State.dropCopies
  grind []
theorem State.vcFence_mem (s : State) (c : VcPending) (idx op : Nat) : (State.vcFence s c idx op).mem = s.mem := by
  unfold State.vcFence
  grind [State.fence_mem]
theorem State.vcFlushDone_canon (s : State) (c : VcPending) (idx op : Nat) (h : Memory.wf s.mem = true) : Memory.wf (State.vcFlushDone s c idx op).mem = true := by
  unfold State.vcFlushDone
  grind [State.commitBlock_canon, State.dropCopies_mem, State.landVc_mem, State.putVc_canon, State.vcFence_mem, foldl_canon, foldl_mem]
theorem State.vcStep_canon (s : State) (c : VcPending) (h : Memory.wf s.mem = true) : Memory.wf (State.vcStep s c).mem = true := by
  unfold State.vcStep
  grind [State.landVc_mem, State.openWindow_canon, State.putVc_canon, State.setCmd_mem, State.vcDefine_canon, State.vcFence_mem]
theorem State.wbFrames_canon (s : State) (fr n : Nat) (h : Memory.wf s.mem = true) : Memory.wf (State.wbFrames s fr n).2.mem = true := by
  unfold State.wbFrames
  grind [State.arriveWb_canon, foldl_canon, foldl_mem]
theorem State.moveLines_mem (s : State) (ctx idx : Nat) (page : Nat × Nat) : (State.moveLines s ctx idx page).mem = s.mem := by
  unfold State.moveLines
  grind []
theorem execPageMoveSweepStep_mem (ctx idx frame : Nat) (s : State) {t : State} (ht : execPageMoveSweepStep ctx idx frame s = .next t) : t.mem = s.mem := by
  unfold execPageMoveSweepStep at ht
  grind [State.moveLines_mem, State.setCmd_mem]
theorem execVcCommandLanding_canon (cmd : Nat) (s : State) (h : Memory.wf s.mem = true) {t : State} (ht : execVcCommandLanding cmd s = .next t) : Memory.wf t.mem = true := by
  unfold execVcCommandLanding at ht
  grind [State.vcStep_canon]
theorem execBiasflipComplete_canon (cmd : Nat) (s : State) (h : Memory.wf s.mem = true) {t : State} (ht : execBiasflipComplete cmd s = .next t) : Memory.wf t.mem = true := by
  unfold execBiasflipComplete at ht
  grind [State.arriveWb_canon, State.demandFor_mem, State.dropCopies_mem, State.landVc_mem, State.wbFrames_canon, foldl_canon, foldl_mem]

end Sys2Proof.Machine
end

