-- ==== Sys2Proof/Laws/CanonIssue.lean ====
section
/-! SUPPORT. What the operations of Machine/Issue.lean do to memory: nothing, or they keep its canonical form. -/

set_option Elab.async false

namespace Sys2Proof.Machine

theorem State.headerTrap_canon (s : State) (b : Nat) (tls : List Nat) (cause : Nat) (addr : DWord) (h : Memory.wf s.mem = true) : Memory.wf (State.headerTrap s b tls cause addr).mem = true := by
  unfold State.headerTrap
  grind [State.beginTrap_mem, enterTraps_canon, foldl_canon, foldl_mem]
theorem State.headerFault_canon (s : State) (b : Nat) (tls : List Nat) (fid : BitVec 16) (h : Memory.wf s.mem = true) : Memory.wf (State.headerFault s b tls fid).mem = true := by
  unfold State.headerFault
  grind [Env.block_mem, State.beginTrap_mem, State.modBlock_mem, enterTraps_canon, foldl_canon, foldl_mem]
theorem State.openGroup_mem (s : State) (b : Nat) (tls : List Nat) (hdr : DWord) (h : Header) (ws : List DWord) (idx slot : Nat) : (State.openGroup s b tls hdr h ws idx slot).mem = s.mem := by
  unfold State.openGroup
  grind [Env.block_mem, State.modThread_mem, foldl_canon, foldl_mem]
theorem State.fetchClause_canon (s : State) (k : Block) (tls : List Nat) (t : Thread) (slot : Nat) (h : Memory.wf s.mem = true) : Memory.wf (State.fetchClause s k tls t slot).mem = true := by
  unfold State.fetchClause
  dsimp only
  repeat' split
  all_goals grind [State.fetchWord_mem, State.fetchWords_mem, State.headerTrap_canon, State.openGroup_mem]
theorem State.clauseIssue_canon (s : State) (b tl : Nat) (h : Memory.wf s.mem = true) : Memory.wf (State.clauseIssue s b tl).mem = true := by
  unfold State.clauseIssue
  dsimp only
  repeat' split
  all_goals grind [Env.block_mem, State.fetchClause_canon, State.headerFault_canon]
theorem execClauseIssue_canon (blk tl : Nat) (s : State) (h : Memory.wf s.mem = true) {t : State} (ht : execClauseIssue blk tl s = .next t) : Memory.wf t.mem = true := by
  unfold execClauseIssue at ht
  grind [State.clauseIssue_canon]
theorem State.groupTrap_canon (s : State) (g : Group) (c : Nat × Word) (h : Memory.wf s.mem = true) : Memory.wf (State.groupTrap s g c).mem = true := by
  unfold State.groupTrap
  grind [finishInstr_canon]
theorem execStallExpiry_mem (blk tl : Nat) (s : State) {t : State} (ht : execStallExpiry blk tl s = .next t) : t.mem = s.mem := by
  unfold execStallExpiry at ht
  grind [Env.block_mem, State.fetchWord_mem, State.modThread_mem, State.reachCyc_mem]
theorem execYieldExpiry_mem (blk tl : Nat) (s : State) {t : State} (ht : execYieldExpiry blk tl s = .next t) : t.mem = s.mem := by
  unfold execYieldExpiry at ht
  grind [Env.block_mem, State.modBlock_mem, State.reachCyc_mem]
theorem execDescheduleExpiry_mem (blk tl : Nat) (s : State) {t : State} (ht : execDescheduleExpiry blk tl s = .next t) : t.mem = s.mem := by
  unfold execDescheduleExpiry at ht
  grind [Env.block_mem, State.modThread_mem, State.reachCyc_mem]
theorem execSlotLanding_mem (blk tl op : Nat) (s : State) {t : State} (ht : execSlotLanding blk tl op s = .next t) : t.mem = s.mem := by
  unfold execSlotLanding at ht
  dsimp only at ht
  repeat' split at ht
  all_goals grind [Env.block_mem, State.acquireInval_mem, State.modThread_mem, State.reachDue_mem]
theorem execBoostNotice_mem (core : CoreRef) (granule : Nat) (prio : BitVec 7) (s : State) {t : State} (ht : execBoostNotice core granule prio s = .next t) : t.mem = s.mem := by
  unfold execBoostNotice at ht
  grind []
theorem State.settleThread_canon (s : State) (b tl : Nat) (h : Memory.wf s.mem = true) : Memory.wf (State.settleThread s b tl).mem = true := by
  unfold State.settleThread
  dsimp only
  repeat' split
  all_goals grind [Env.block_mem, State.killThread_mem, State.modBlock_mem, State.modThread_mem, State.sfReport_canon, State.tryExit_canon, State.tryTrap_canon]
theorem State.settleBlock_canon (s : State) (b : Nat) (h : Memory.wf s.mem = true) : Memory.wf (State.settleBlock s b).mem = true := by
  unfold State.settleBlock
  grind [Env.block_mem, State.killWake_mem, State.settleThread_canon, foldl_canon, foldl_mem]
theorem State.settleThreads_canon (s : State) (h : Memory.wf s.mem = true) : Memory.wf (State.settleThreads s).mem = true := by
  unfold State.settleThreads
  grind [State.settleBlock_canon, foldl_canon, foldl_mem]

end Sys2Proof.Machine
end

