-- ==== Sys2Proof/Laws/CanonEngine.lean ====
section
/-! SUPPORT. What the operations of Machine/Engine.lean do to memory: nothing, or they keep its canonical form. -/

set_option Elab.async false

namespace Sys2Proof.Machine

theorem runEng_canon (i : Instr) (s0 : State) (g : Group) (k : Block) (parts : List (Nat × Nat)) (lane : Env → State → Option LaneOut) (x0 : List (Nat × Nat)) (x1 : State) (hlane : ∀ y0 y1 r, Memory.wf y1.mem = true → lane y0 y1 = some r → Memory.wf r.1.mem = true) (h : Memory.wf x1.mem = true) : Memory.wf (runEng i s0 g k parts lane x0 x1).1.mem = true := by
  fun_induction runEng i s0 g k parts lane x0 x1 <;> grind [State.modThread_mem]
theorem issueEng_canon (i : Instr) (pred : BitVec 3) (pneg : Bool) (lane : Env → State → Option LaneOut) (s : State) (hlane : ∀ y0 y1 r, Memory.wf y1.mem = true → lane y0 y1 = some r → Memory.wf r.1.mem = true) (h : Memory.wf s.mem = true) {t : State} (ht : issueEng i pred pneg lane s = .next t) : Memory.wf t.mem = true := by
  unfold issueEng at ht
  grind [Env.block_mem, finishInstr_canon, runEng_canon, foldl_canon, foldl_mem]
theorem Env.engLane_canon (e : Env) (f : FX) (kind : EngKind) (accept : Bool → State → EngOp → State) (s : State) (haccept : ∀ y0 y1 y2, Memory.wf y1.mem = true → Memory.wf (accept y0 y1 y2).mem = true) (h : Memory.wf s.mem = true) {t : LaneOut} (ht : Env.engLane e f kind accept s = some t) : Memory.wf t.1.mem = true := by
  unfold Env.engLane at ht
  grind [State.target_mem]
theorem engCommand_canon (i : Instr) (f : FX) (kind : EngKind) (accept : Bool → State → EngOp → State) (s : State) (haccept : ∀ y0 y1 y2, Memory.wf y1.mem = true → Memory.wf (accept y0 y1 y2).mem = true) (h : Memory.wf s.mem = true) {t : State} (ht : engCommand i f kind accept s = .next t) : Memory.wf t.mem = true := by
  unfold engCommand at ht
  refine issueEng_canon _ _ _ _ _ (fun e s r hs hr => ?_) h ht
  exact Env.engLane_canon _ _ _ _ _ haccept hs hr
theorem State.bulk_mem (s : State) (pa : Nat) : (State.bulk s pa).mem = s.mem := by
  unfold State.bulk
  grind [State.sendFlit_mem]
theorem State.mixBytes_mem (s : State) (unit : Nat) (a b : List Byte) : (State.mixBytes s unit a b).2.mem = s.mem := by
  unfold State.mixBytes
  grind []
theorem State.seenBytes_mem (s : State) (k : Block) (o : EngOp) (ptr pa w : Nat) : (State.seenBytes s k o ptr pa w).2.mem = s.mem := by
  unfold State.seenBytes
  grind [State.mixBytes_mem]
theorem State.gload_mem (s : State) (k : Block) (o : EngOp) (ptr w : Nat) : (State.gload s k o ptr w).2.mem = s.mem := by
  unfold State.gload
  grind [Env.load_mem, State.bulk_mem, State.check_mem, State.seenBytes_mem]
theorem State.shareBytes_mem (s : State) (o : EngOp) (pa : Nat) (bs : List Byte) : (State.shareBytes s o pa bs).mem = s.mem := by
  unfold State.shareBytes
  grind [foldl_canon, foldl_mem]
theorem State.gstore_canon (s : State) (k : Block) (o : EngOp) (ptr : Nat) (bs : List Byte) (h : Memory.wf s.mem = true) : Memory.wf (State.gstore s k o ptr bs).2.mem = true := by
  unfold State.gstore
  grind [State.arriveWb_canon, State.bulk_mem, State.check_mem, State.homeWrite_canon, State.lookup_mem, State.shareBytes_mem]
theorem State.lread_mem (s : State) (k : Block) (o : EngOp) (a n : Nat) : (State.lread s k o a n).2.mem = s.mem := by
  unfold State.lread
  grind [State.mixBytes_mem]
theorem State.lstore_mem (s : State) (b a : Nat) (bs : List Byte) : (State.lstore s b a bs).mem = s.mem := by
  unfold State.lstore
  grind [State.modBlock_mem]
theorem State.scramble_mem (s : State) (b a n : Nat) : (State.scramble s b a n).mem = s.mem := by
  unfold State.scramble
  grind [State.freeBytes_mem, State.lstore_mem]
theorem State.setEng_mem (s : State) (o : EngOp) : (State.setEng s o).mem = s.mem := by
  unfold State.setEng
  grind []
theorem State.engDone_mem (s : State) (o : EngOp) (bytes cause detail : Nat) : (State.engDone s o bytes cause detail).mem = s.mem := by
  unfold State.engDone
  grind [State.deliver_mem]
theorem State.engFail_mem (s : State) (o : EngOp) (cause detail : Nat) : (State.engFail s o cause detail).mem = s.mem := by
  unfold State.engFail
  grind [State.engDone_mem, State.scramble_mem]

end Sys2Proof.Machine
end

