-- ==== Sys2Proof/Laws/CanonCopy.lean ====
section
/-! SUPPORT. What the operations of Machine/Copy.lean do to memory: nothing, or they keep its canonical form. -/

set_option Elab.async false

namespace Sys2Proof.Machine

theorem acceptCopy_mem (self : Bool) (s : State) (o : EngOp) : (acceptCopy self s o).mem = s.mem := by
  unfold acceptCopy
  grind [Env.block_mem, State.irrevocable_mem]
theorem State.copyElem_canon (s : State) (k : Block) (o : EngOp) (e : Nat) (h : Memory.wf s.mem = true) : Memory.wf (State.copyElem s k o e).2.mem = true := by
  unfold State.copyElem
  grind [State.gload_mem, State.gstore_canon, State.lread_mem, State.lstore_mem]
theorem State.copyRun_canon (s : State) (o : EngOp) (e : Nat) (x0 : Nat) (h : Memory.wf s.mem = true) : Memory.wf (State.copyRun s o e x0).1.mem = true := by
  fun_induction State.copyRun s o e x0 <;> grind [Env.block_mem, State.copyElem_canon]
theorem State.copyStep_canon (s : State) (o : EngOp) (h : Memory.wf s.mem = true) : Memory.wf (State.copyStep s o).mem = true := by
  unfold State.copyStep
  grind [State.copyRun_canon, State.deliver_mem, State.engDone_mem, State.engFail_mem, State.setEng_mem, State.useFree_mem]
theorem State.ctloadRun_mem (s : State) (o : EngOp) : (State.ctloadRun s o).mem = s.mem := by
  unfold State.ctloadRun
  grind [Env.block_mem, State.engDone_mem, State.engFail_mem, State.modBlock_mem]
theorem State.srcByte_mem (s : State) (o : EngOp) (i : Nat) : (State.srcByte s o i).2.mem = s.mem := by
  unfold State.srcByte
  grind [Env.block_mem, State.gload_mem, State.lread_mem]
theorem State.decCode_mem (s : State) (L : List Nat) (o : EngOp) (len c k : Nat) (x0 : Nat) : (State.decCode s L o len c k x0).2.mem = s.mem := by
  fun_induction State.decCode s L o len c k x0 <;> grind [State.srcByte_mem]
theorem State.decentRun_mem (s : State) (L : List Nat) (o : EngOp) (n k : Nat) (x0 : Nat) : (State.decentRun s L o n k x0).2.2.2.mem = s.mem := by
  fun_induction State.decentRun s L o n k x0 <;> grind [State.decCode_mem, State.lstore_mem]
theorem State.srcBytes_mem (s : State) (o : EngOp) (i : Nat) (x0 : Nat) : (State.srcBytes s o i x0).2.mem = s.mem := by
  fun_induction State.srcBytes s o i x0 <;> grind [State.srcByte_mem]
theorem State.matchCopy_mem (s : State) (b a d : Nat) (x0 : Nat) {t : State} (ht : State.matchCopy s b a d x0 = some t) : t.mem = s.mem := by
  fun_induction State.matchCopy s b a d x0 <;> grind [Env.block_mem, State.lstore_mem]
theorem State.decbrCmd_mem (s : State) (o : EngOp) (p i : Nat) : (State.decbrCmd s o p i).2.2.mem = s.mem := by
  unfold State.decbrCmd
  grind [State.lstore_mem, State.matchCopy_mem, State.srcBytes_mem]
theorem State.decbrRun_mem (s : State) (o : EngOp) (p i : Nat) (x0 : Nat) : (State.decbrRun s o p i x0).2.2.2.mem = s.mem := by
  fun_induction State.decbrRun s o p i x0 <;> grind [State.decbrCmd_mem]
theorem State.decRes_mem (s : State) (o : EngOp) (n k : Nat) : (State.decRes s o n k).mem = s.mem := by
  unfold State.decRes
  grind [State.lstore_mem]
theorem State.decPart_mem (s : State) (o : EngOp) (n k : Nat) : (State.decPart s o n k).mem = s.mem := by
  unfold State.decPart
  grind [State.deliver_mem, State.setEng_mem]
theorem State.decEnd_mem (o : EngOp) (r : Dec × Nat × Nat × State) : (State.decEnd o r).mem = r.2.2.2.mem := by
  unfold State.decEnd
  grind [State.decRes_mem, State.decPart_mem, State.engDone_mem, State.scramble_mem]
theorem State.copyDelivery_canon (s : State) (o : EngOp) (h : Memory.wf s.mem = true) : Memory.wf (State.copyDelivery s o).mem = true := by
  unfold State.copyDelivery
  grind [Env.block_mem, State.copyStep_canon, State.ctloadRun_mem, State.decEnd_mem, State.decbrRun_mem, State.decentRun_mem, State.engFail_mem, State.useFree_mem]
theorem execCpy_canon (f : FX) (s : State) (h : Memory.wf s.mem = true) {t : State} (ht : execCpy f s = .next t) : Memory.wf t.mem = true := by
  unfold execCpy at ht
  grind [acceptCopy_mem, engCommand_canon]
theorem execCpyg_canon (f : FX) (s : State) (h : Memory.wf s.mem = true) {t : State} (ht : execCpyg f s = .next t) : Memory.wf t.mem = true := by
  unfold execCpyg at ht
  grind [acceptCopy_mem, engCommand_canon]
theorem execCpys_canon (f : FX) (s : State) (h : Memory.wf s.mem = true) {t : State} (ht : execCpys f s = .next t) : Memory.wf t.mem = true := by
  unfold execCpys at ht
  grind [acceptCopy_mem, engCommand_canon]
theorem execCpyfill_canon (f : FX) (s : State) (h : Memory.wf s.mem = true) {t : State} (ht : execCpyfill f s = .next t) : Memory.wf t.mem = true := by
  unfold execCpyfill at ht
  grind [acceptCopy_mem, engCommand_canon]
theorem execCtload_canon (f : FX) (s : State) (h : Memory.wf s.mem = true) {t : State} (ht : execCtload f s = .next t) : Memory.wf t.mem = true := by
  unfold execCtload at ht
  grind [acceptCopy_mem, engCommand_canon]
theorem execDecent_canon (f : FX) (s : State) (h : Memory.wf s.mem = true) {t : State} (ht : execDecent f s = .next t) : Memory.wf t.mem = true := by
  unfold execDecent at ht
  grind [acceptCopy_mem, engCommand_canon]
theorem execDecbr_canon (f : FX) (s : State) (h : Memory.wf s.mem = true) {t : State} (ht : execDecbr f s = .next t) : Memory.wf t.mem = true := by
  unfold execDecbr at ht
  grind [acceptCopy_mem, engCommand_canon]

end Sys2Proof.Machine
end

