-- ==== Sys2Proof/Laws/CanonMatrix.lean ====
section
/-! SUPPORT. What the operations of Machine/Matrix.lean do to memory: nothing, or they keep its canonical form. -/

set_option Elab.async false

namespace Sys2Proof.Machine

theorem acceptMat_mem (self : Bool) (s : State) (o : EngOp) : (acceptMat self s o).mem = s.mem := by
  unfold acceptMat
  grind [Env.block_mem, State.setCore_mem]
theorem State.pairDue_mem (s : State) (o : EngOp) : (State.pairDue s o).mem = s.mem := by
  unfold State.pairDue
  grind [State.setEng_mem]
theorem State.matStart_mem (s : State) (o : EngOp) : (State.matStart s o).mem = s.mem := by
  unfold State.matStart
  grind [Env.block_mem, State.pairDue_mem, State.setCore_mem, State.setEng_mem, State.useFree_mem]
theorem State.onArrays_mem (s : State) (o : EngOp) (f : Core → Core) : (State.onArrays s o f).mem = s.mem := by
  unfold State.onArrays
  grind [State.setCore_mem]
theorem State.scrambleTile_mem (s : State) (o : EngOp) (t : Nat) : (State.scrambleTile s o t).mem = s.mem := by
  unfold State.scrambleTile
  grind [State.onArrays_mem]
theorem State.mmaOn_mem (s : State) (o : EngOp) (c : CoreRef) (old : Mem) : (State.mmaOn s o c old).mem = s.mem := by
  unfold State.mmaOn
  grind [State.setCore_mem]
theorem State.mmaRun_mem (s : State) (o : EngOp) : (State.mmaRun s o).mem = s.mem := by
  unfold State.mmaRun
  grind [State.engDone_mem, State.mmaOn_mem]
theorem State.matFail_canon (s : State) (o : EngOp) (h : Memory.wf s.mem = true) : Memory.wf (State.matFail s o).mem = true := by
  unfold State.matFail
  grind [Env.block_mem, State.errRecord_canon, State.freeBytes_mem, State.onArrays_mem, State.scrambleTile_mem, State.scramble_mem, State.setCore_mem, foldl_canon, foldl_mem]
theorem State.mresvRun_mem (s : State) (o : EngOp) : (State.mresvRun s o).mem = s.mem := by
  unfold State.mresvRun
  grind [State.engDone_mem, State.setCore_mem]
theorem State.matDelivery_canon (s : State) (o : EngOp) (h : Memory.wf s.mem = true) : Memory.wf (State.matDelivery s o).mem = true := by
  unfold State.matDelivery
  grind [Env.block_mem, State.engDone_mem, State.lread_mem, State.lstore_mem, State.matFail_canon, State.mmaRun_mem, State.mresvRun_mem, State.onArrays_mem, State.setCore_mem, foldl_canon, foldl_mem]
theorem execMresv_canon (f : FX) (s : State) (h : Memory.wf s.mem = true) {t : State} (ht : execMresv f s = .next t) : Memory.wf t.mem = true := by
  unfold execMresv at ht
  grind [acceptMat_mem, engCommand_canon]
theorem execMrels_canon (f : FX) (s : State) (h : Memory.wf s.mem = true) {t : State} (ht : execMrels f s = .next t) : Memory.wf t.mem = true := by
  unfold execMrels at ht
  grind [acceptMat_mem, engCommand_canon]
theorem execMload_canon (f : FX) (s : State) (h : Memory.wf s.mem = true) {t : State} (ht : execMload f s = .next t) : Memory.wf t.mem = true := by
  unfold execMload at ht
  grind [acceptMat_mem, engCommand_canon]
theorem execMcbl_canon (f : FX) (s : State) (h : Memory.wf s.mem = true) {t : State} (ht : execMcbl f s = .next t) : Memory.wf t.mem = true := by
  unfold execMcbl at ht
  grind [acceptMat_mem, engCommand_canon]
theorem execMma_canon (f : FX) (s : State) (h : Memory.wf s.mem = true) {t : State} (ht : execMma f s = .next t) : Memory.wf t.mem = true := by
  unfold execMma at ht
  grind [acceptMat_mem, engCommand_canon]
theorem execMmai_canon (f : FX) (s : State) (h : Memory.wf s.mem = true) {t : State} (ht : execMmai f s = .next t) : Memory.wf t.mem = true := by
  unfold execMmai at ht
  grind [acceptMat_mem, engCommand_canon]
theorem execMzero_canon (f : FX) (s : State) (h : Memory.wf s.mem = true) {t : State} (ht : execMzero f s = .next t) : Memory.wf t.mem = true := by
  unfold execMzero at ht
  grind [acceptMat_mem, engCommand_canon]
theorem execMstore_canon (f : FX) (s : State) (h : Memory.wf s.mem = true) {t : State} (ht : execMstore f s = .next t) : Memory.wf t.mem = true := by
  unfold execMstore at ht
  grind [acceptMat_mem, engCommand_canon]
theorem execMstat_canon (f : FX) (s : State) (h : Memory.wf s.mem = true) {t : State} (ht : execMstat f s = .next t) : Memory.wf t.mem = true := by
  unfold execMstat at ht
  grind [acceptMat_mem, engCommand_canon]
theorem execMchk_canon (f : FX) (s : State) (h : Memory.wf s.mem = true) {t : State} (ht : execMchk f s = .next t) : Memory.wf t.mem = true := by
  unfold execMchk at ht
  grind [acceptMat_mem, engCommand_canon]
theorem execMatrixOpStart_mem (op : Nat) (s : State) {t : State} (ht : execMatrixOpStart op s = .next t) : t.mem = s.mem := by
  unfold execMatrixOpStart at ht
  grind [State.matStart_mem]
theorem execMresvPartnerTimeout_mem (op : Nat) (s : State) {t : State} (ht : execMresvPartnerTimeout op s = .next t) : t.mem = s.mem := by
  unfold execMresvPartnerTimeout at ht
  grind [State.engDone_mem, State.reachCyc_mem, State.setCore_mem]

end Sys2Proof.Machine
end

