-- ==== Sys2Proof/Laws/CanonRay.lean ====
section
/-! SUPPORT. What the operations of Machine/Ray.lean do to memory: nothing, or they keep its canonical form. -/

set_option Elab.async false

namespace Sys2Proof.Machine

theorem State.gloadPieces_mem (s : State) (k : Block) (o : EngOp) (a : Nat) (x0 : Nat) : (State.gloadPieces s k o a x0).2.mem = s.mem := by
  fun_induction State.gloadPieces s k o a x0 <;> grind [State.gload_mem]
theorem State.rayTri_mem (s : State) (k : Block) (o : EngOp) (r : Ray) (best : Option Hit) (a : Nat) : (State.rayTri s k o r best a).2.mem = s.mem := by
  unfold State.rayTri
  grind [State.gloadPieces_mem]
theorem State.rayWalk_mem (s : State) (k : Block) (o : EngOp) (r : Ray) (best : Option Hit) (nodes : Nat) (left : List Visit) (x0 : Nat) : (State.rayWalk s k o r best nodes left x0).2.mem = s.mem := by
  fun_induction State.rayWalk s k o r best nodes left x0 <;> grind [State.gload_mem, State.rayTri_mem, State.useFree_mem]
theorem acceptRay_mem (self : Bool) (s : State) (o : EngOp) : (acceptRay self s o).mem = s.mem := by
  unfold acceptRay
  grind [Env.block_mem, State.engDone_mem, State.scramble_mem]
theorem State.rayRun_mem (s : State) (o : EngOp) (x0 : Nat) : (State.rayRun s o x0).2.mem = s.mem := by
  fun_induction State.rayRun s o x0 <;> grind [Env.block_mem, State.lread_mem, State.lstore_mem, State.rayWalk_mem]
theorem State.rayDelivery_mem (s : State) (o : EngOp) : (State.rayDelivery s o).mem = s.mem := by
  unfold State.rayDelivery
  grind [State.engDone_mem, State.rayRun_mem, State.setEng_mem, State.useFree_mem]
theorem execRayq_canon (f : FX) (s : State) (h : Memory.wf s.mem = true) {t : State} (ht : execRayq f s = .next t) : Memory.wf t.mem = true := by
  unfold execRayq at ht
  grind [acceptRay_mem, engCommand_canon]
theorem execEngineDelivery_canon (op : Nat) (s : State) (h : Memory.wf s.mem = true) {t : State} (ht : execEngineDelivery op s = .next t) : Memory.wf t.mem = true := by
  unfold execEngineDelivery at ht
  grind [State.copyDelivery_canon, State.matDelivery_canon, State.rayDelivery_mem, State.reachDue_mem]

end Sys2Proof.Machine
end

