-- ==== Sys2Proof/Laws/CanonSeq.lean ====
section
/-! SUPPORT. What the operations of Machine/Seq.lean do to memory: nothing, or they keep its canonical form. -/

set_option Elab.async false

namespace Sys2Proof.Machine

theorem State.setSq_mem (s : State) (c : CoreRef) (k : SeqKind) (q : Sequencer) : (State.setSq s c k q).mem = s.mem := by
  unfold State.setSq
  grind [State.setCore_mem]
theorem State.performLater_mem (s : State) (b : Nat) (act : LaterAct) : (State.performLater s b act).mem = s.mem := by
  unfold State.performLater
  grind [Env.block_mem, State.arrive_mem, State.boPut_mem, State.deliver_mem]
theorem State.actLater_mem (s : State) (c : CoreRef) (b : Nat) (act : LaterAct) : (State.actLater s c b act).mem = s.mem := by
  unfold State.actLater
  grind [Env.block_mem, State.performLater_mem]
theorem State.settleLater_mem (s : State) : (State.settleLater s).mem = s.mem := by
  unfold State.settleLater
  grind [State.performLater_mem, foldl_canon, foldl_mem]
theorem State.endProgram_mem (s : State) (c : CoreRef) (k : SeqKind) (q : Sequencer) (cause : Nat) : (State.endProgram s c k q cause).mem = s.mem := by
  unfold State.endProgram
  grind [State.actLater_mem, State.setSq_mem]
theorem seqIssue_canon (act : State → CoreRef → SeqKind → Sequencer → State × SeqNext) (s : State) (hact : ∀ y0 y1 y2 y3, Memory.wf y0.mem = true → Memory.wf (act y0 y1 y2 y3).1.mem = true) (h : Memory.wf s.mem = true) {t : State} (ht : seqIssue act s = .next t) : Memory.wf t.mem = true := by
  unfold seqIssue at ht
  grind [Env.jump_mem, State.endProgram_mem, State.setSq_mem]
theorem execSqnop_canon (_f : FS) (s : State) (h : Memory.wf s.mem = true) {t : State} (ht : execSqnop _f s = .next t) : Memory.wf t.mem = true := by
  unfold execSqnop at ht
  grind [seqIssue_canon]
theorem execSqloop_canon (f : FS) (s : State) (h : Memory.wf s.mem = true) {t : State} (ht : execSqloop f s = .next t) : Memory.wf t.mem = true := by
  unfold execSqloop at ht
  grind [Env.jump_mem, seqIssue_canon]
theorem execSqend_canon (_f : FS) (s : State) (h : Memory.wf s.mem = true) {t : State} (ht : execSqend _f s = .next t) : Memory.wf t.mem = true := by
  unfold execSqend at ht
  grind [seqIssue_canon]
theorem execSqwaitc_canon (f : FS) (s : State) (h : Memory.wf s.mem = true) {t : State} (ht : execSqwaitc f s = .next t) : Memory.wf t.mem = true := by
  unfold execSqwaitc at ht
  grind [seqIssue_canon]
theorem execSqboarv_canon (f : FS) (s : State) (h : Memory.wf s.mem = true) {t : State} (ht : execSqboarv f s = .next t) : Memory.wf t.mem = true := by
  unfold execSqboarv at ht
  grind [State.actLater_mem, State.arrive_mem, seqIssue_canon]
theorem execSqbowait_canon (f : FS) (s : State) (h : Memory.wf s.mem = true) {t : State} (ht : execSqbowait f s = .next t) : Memory.wf t.mem = true := by
  unfold execSqbowait at ht
  grind [seqIssue_canon]
theorem seqCommand_canon (f : FS) (kind : EngKind) (accept : Bool → State → EngOp → State) (s : State) (haccept : ∀ y0 y1 y2, Memory.wf y1.mem = true → Memory.wf (accept y0 y1 y2).mem = true) (h : Memory.wf s.mem = true) {t : State} (ht : seqCommand f kind accept s = .next t) : Memory.wf t.mem = true := by
  unfold seqCommand at ht
  grind [Env.block_mem, seqIssue_canon]
theorem execSeqCpy_canon (f : FS) (s : State) (h : Memory.wf s.mem = true) {t : State} (ht : execSeqCpy f s = .next t) : Memory.wf t.mem = true := by
  unfold execSeqCpy at ht
  grind [acceptCopy_mem, seqCommand_canon]
theorem execSeqCpyg_canon (f : FS) (s : State) (h : Memory.wf s.mem = true) {t : State} (ht : execSeqCpyg f s = .next t) : Memory.wf t.mem = true := by
  unfold execSeqCpyg at ht
  grind [acceptCopy_mem, seqCommand_canon]
theorem execSeqCpys_canon (f : FS) (s : State) (h : Memory.wf s.mem = true) {t : State} (ht : execSeqCpys f s = .next t) : Memory.wf t.mem = true := by
  unfold execSeqCpys at ht
  grind [acceptCopy_mem, seqCommand_canon]
theorem execSeqCpyfill_canon (f : FS) (s : State) (h : Memory.wf s.mem = true) {t : State} (ht : execSeqCpyfill f s = .next t) : Memory.wf t.mem = true := by
  unfold execSeqCpyfill at ht
  grind [acceptCopy_mem, seqCommand_canon]
theorem execSeqCtload_canon (f : FS) (s : State) (h : Memory.wf s.mem = true) {t : State} (ht : execSeqCtload f s = .next t) : Memory.wf t.mem = true := by
  unfold execSeqCtload at ht
  grind [acceptCopy_mem, seqCommand_canon]
theorem execSeqDecent_canon (f : FS) (s : State) (h : Memory.wf s.mem = true) {t : State} (ht : execSeqDecent f s = .next t) : Memory.wf t.mem = true := by
  unfold execSeqDecent at ht
  grind [acceptCopy_mem, seqCommand_canon]
theorem execSeqDecbr_canon (f : FS) (s : State) (h : Memory.wf s.mem = true) {t : State} (ht : execSeqDecbr f s = .next t) : Memory.wf t.mem = true := by
  unfold execSeqDecbr at ht
  grind [acceptCopy_mem, seqCommand_canon]
theorem execSeqMresv_canon (f : FS) (s : State) (h : Memory.wf s.mem = true) {t : State} (ht : execSeqMresv f s = .next t) : Memory.wf t.mem = true := by
  unfold execSeqMresv at ht
  grind [acceptMat_mem, seqCommand_canon]
theorem execSeqMrels_canon (f : FS) (s : State) (h : Memory.wf s.mem = true) {t : State} (ht : execSeqMrels f s = .next t) : Memory.wf t.mem = true := by
  unfold execSeqMrels at ht
  grind [acceptMat_mem, seqCommand_canon]
theorem execSeqMload_canon (f : FS) (s : State) (h : Memory.wf s.mem = true) {t : State} (ht : execSeqMload f s = .next t) : Memory.wf t.mem = true := by
  unfold execSeqMload at ht
  grind [acceptMat_mem, seqCommand_canon]
theorem execSeqMcbl_canon (f : FS) (s : State) (h : Memory.wf s.mem = true) {t : State} (ht : execSeqMcbl f s = .next t) : Memory.wf t.mem = true := by
  unfold execSeqMcbl at ht
  grind [acceptMat_mem, seqCommand_canon]
theorem execSeqMma_canon (f : FS) (s : State) (h : Memory.wf s.mem = true) {t : State} (ht : execSeqMma f s = .next t) : Memory.wf t.mem = true := by
  unfold execSeqMma at ht
  grind [acceptMat_mem, seqCommand_canon]
theorem execSeqMmai_canon (f : FS) (s : State) (h : Memory.wf s.mem = true) {t : State} (ht : execSeqMmai f s = .next t) : Memory.wf t.mem = true := by
  unfold execSeqMmai at ht
  grind [acceptMat_mem, seqCommand_canon]
theorem execSeqMzero_canon (f : FS) (s : State) (h : Memory.wf s.mem = true) {t : State} (ht : execSeqMzero f s = .next t) : Memory.wf t.mem = true := by
  unfold execSeqMzero at ht
  grind [acceptMat_mem, seqCommand_canon]
theorem execSeqMstore_canon (f : FS) (s : State) (h : Memory.wf s.mem = true) {t : State} (ht : execSeqMstore f s = .next t) : Memory.wf t.mem = true := by
  unfold execSeqMstore at ht
  grind [acceptMat_mem, seqCommand_canon]
theorem execSeqMstat_canon (f : FS) (s : State) (h : Memory.wf s.mem = true) {t : State} (ht : execSeqMstat f s = .next t) : Memory.wf t.mem = true := by
  unfold execSeqMstat at ht
  grind [acceptMat_mem, seqCommand_canon]
theorem execSeqMchk_canon (f : FS) (s : State) (h : Memory.wf s.mem = true) {t : State} (ht : execSeqMchk f s = .next t) : Memory.wf t.mem = true := by
  unfold execSeqMchk at ht
  grind [acceptMat_mem, seqCommand_canon]
theorem State.startSeq_mem (s : State) (c : CoreRef) (kind : SeqKind) (owner : Nat) (entry : DWord) (rec_ pbo fork : Nat) : (State.startSeq s c kind owner entry rec_ pbo fork).mem = s.mem := by
  unfold State.startSeq
  grind [Env.block_mem, State.setSq_mem]
theorem execFork_canon (f : FX) (s : State) (h : Memory.wf s.mem = true) {t : State} (ht : execFork f s = .next t) : Memory.wf t.mem = true := by
  unfold execFork at ht
  grind [State.deliver_mem, State.startSeq_mem, issue_canon, foldl_canon, foldl_mem]
theorem execRdv_canon (f : FX) (s : State) (h : Memory.wf s.mem = true) {t : State} (ht : execRdv f s = .next t) : Memory.wf t.mem = true := by
  unfold execRdv at ht
  grind [Env.block_mem, State.target_mem, issue_canon]
theorem State.seqFetch_mem (s : State) (c : CoreRef) (kind : SeqKind) (q : Sequencer) : (State.seqFetch s c kind q).mem = s.mem := by
  unfold State.seqFetch
  dsimp only
  repeat' split
  all_goals grind [Env.block_mem, State.endProgram_mem, State.fetchWord_mem, State.fetchWords_mem, State.reachCyc_mem, State.rotate_mem, State.setSq_mem]
theorem execSqwaitcExpiry_mem (core : CoreRef) (kind : SeqKind) (s : State) {t : State} (ht : execSqwaitcExpiry core kind s = .next t) : t.mem = s.mem := by
  unfold execSqwaitcExpiry at ht
  grind [Env.block_mem, State.reachCyc_mem, State.setSq_mem]
theorem execWaitTimeout_canon (w : Waiter) (s : State) (h : Memory.wf s.mem = true) {t : State} (ht : execWaitTimeout w s = .next t) : Memory.wf t.mem = true := by
  unfold execWaitTimeout at ht
  grind [Env.block_mem, State.endProgram_mem, State.reachCyc_mem, State.takeTrap_canon]
theorem State.settleSeq_mem (s : State) (c : CoreRef) (kind : SeqKind) : (State.settleSeq s c kind).mem = s.mem := by
  unfold State.settleSeq
  grind [State.setSq_mem]
theorem State.settleSeqs_mem (s : State) : (State.settleSeqs s).mem = s.mem := by
  unfold State.settleSeqs
  grind [State.settleSeq_mem, foldl_canon, foldl_mem]

end Sys2Proof.Machine
end

