-- ==== Sys2Proof/Laws/CanonTranslate.lean ====
section
/-! SUPPORT. What the operations of Machine/Translate.lean do to memory: nothing, or they keep its canonical form. -/

set_option Elab.async false

namespace Sys2Proof.Machine

theorem execXldec_canon (f : FA) (s : State) (h : Memory.wf s.mem = true) {t : State} (ht : execXldec f s = .next t) : Memory.wf t.mem = true := by
  unfold execXldec at ht
  grind [issueAlu_canon]
theorem Env.mapRead_mem (e : Env) (l : Launch) (s : State) (va : DWord) (n : Nat) : (Env.mapRead e l s va n).2.mem = s.mem := by
  unfold Env.mapRead
  grind [State.checkConst_mem]
theorem Env.mapScan_mem (e : Env) (l : Launch) (nci w : Nat) (x0 : Nat) (x1 : Nat) (x2 : Option (Nat × Nat)) (x3 : Option DWord) (x4 : State) : (Env.mapScan e l nci w x0 x1 x2 x3 x4).2.mem = x4.mem := by
  fun_induction Env.mapScan e l nci w x0 x1 x2 x3 x4 <;> grind [Env.mapRead_mem]
theorem Env.mapLookup_mem (e : Env) (s : State) (x : DWord) : (Env.mapLookup e s x).2.mem = s.mem := by
  unfold Env.mapLookup
  grind [Env.mapRead_mem, Env.mapScan_mem]
theorem execXlmap_canon (f : FA) (s : State) (h : Memory.wf s.mem = true) {t : State} (ht : execXlmap f s = .next t) : Memory.wf t.mem = true := by
  unfold execXlmap at ht
  grind [Env.addOp_mem, Env.mapLookup_mem, issue_canon]
theorem execXlmapRaise_canon (f : FA) (s : State) (h : Memory.wf s.mem = true) {t : State} (ht : execXlmapRaise f s = .next t) : Memory.wf t.mem = true := by
  unfold execXlmapRaise at ht
  grind [Env.mapLookup_mem, issue_canon]

end Sys2Proof.Machine
end

