-- ==== Sys2Proof/Laws/CanonLoader.lean ====
section
/-! SUPPORT. What the operations of Machine/Loader.lean do to memory: nothing, or they keep its canonical form. -/

set_option Elab.async false

namespace Sys2Proof.Machine

theorem State.vwrite_canon (s : State) (ctx va : Nat) (bs : List Byte) (h : Memory.wf s.mem = true) : Memory.wf (State.vwrite s ctx va bs).mem = true := by
  unfold State.vwrite
  grind [State.agentWrite_canon]

end Sys2Proof.Machine
end

