-- ==== Sys2Proof/Laws/CanonDist.lean ====
section
/-! SUPPORT. What the operations of Machine/Dist.lean do to memory: nothing, or they keep its canonical form. -/

set_option Elab.async false

namespace Sys2Proof.Machine

theorem State.setQueue_mem (s : State) (ctx q : Nat) (v : SubQueue) : (State.setQueue s ctx q v).mem = s.mem := by
  unfold State.setQueue
  grind [State.modCtx_mem]
theorem State.submit_mem (s : State) (ctx q : Nat) (mk : Nat → BitVec 32 → Submission) : (State.submit s ctx q mk).2.mem = s.mem := by
  unfold State.submit
  grind [State.setQueue_mem]
theorem Env.readSpan_mem (e : Env) (s : State) (p : DWord) (n : Nat) : (Env.readSpan e s p n).2.mem = s.mem := by
  unfold Env.readSpan
  grind [Env.readRecord_mem]
theorem Env.submit_mem (e : Env) (s : State) (q : Nat) (rec_ : List Byte) (patch : Option (List Byte)) (addr : DWord) : (Env.submit e s q rec_ patch addr).2.mem = s.mem := by
  unfold Env.submit
  grind [State.submit_mem]
theorem execLaunch_canon (f : FA) (s : State) (h : Memory.wf s.mem = true) {t : State} (ht : execLaunch f s = .next t) : Memory.wf t.mem = true := by
  unfold execLaunch at ht
  grind [Env.addOp_mem, Env.readSpan_mem, Env.submit_mem, State.irrevocable_mem, State.submit_mem, issue_canon]
theorem State.clearCpl_canon (s : State) (l : Launch) (h : Memory.wf s.mem = true) : Memory.wf (State.clearCpl s l).mem = true := by
  unfold State.clearCpl
  grind [State.vwrite_canon]
theorem State.refuse_mem (s : State) (l cause detail : Nat) : (State.refuse s l cause detail).mem = s.mem := by
  unfold State.refuse
  grind [State.modLaunch_mem]
theorem State.settleLaunch_mem (s : State) (id : Nat) : (State.settleLaunch s id).mem = s.mem := by
  unfold State.settleLaunch
  grind [State.fence_mem, State.modLaunch_mem]
theorem execCompletionRecord_canon (launch : Nat) (s : State) (h : Memory.wf s.mem = true) {t : State} (ht : execCompletionRecord launch s = .next t) : Memory.wf t.mem = true := by
  unfold execCompletionRecord at ht
  grind [State.addDone_canon, State.setQueue_mem, State.vwrite_canon]
theorem State.writeRes_canon (s : State) (ctx : Nat) (x0 : List ResRec) (h : Memory.wf s.mem = true) : Memory.wf (State.writeRes s ctx x0).mem = true := by
  fun_induction State.writeRes s ctx x0 <;> grind [State.agentWrite_canon, State.modCtx_mem, State.signal_mem]
theorem State.requestRes_canon (s : State) (ctx : Nat) (r : ResRec) (h : Memory.wf s.mem = true) : Memory.wf (State.requestRes s ctx r).mem = true := by
  unfold State.requestRes
  grind [State.modCtx_mem, State.writeRes_canon]
theorem State.askRes_canon (s : State) (l : Launch) (base size lidx : Nat) (h : Memory.wf s.mem = true) : Memory.wf (State.askRes s l base size lidx).mem = true := by
  unfold State.askRes
  grind [State.modLaunch_mem, State.refuse_mem, State.requestRes_canon]
theorem State.bindVcs_canon (s : State) (l : Launch) (x0 : List (Nat × Nat × Nat)) (h : Memory.wf s.mem = true) : Memory.wf (State.bindVcs s l x0).2.mem = true := by
  fun_induction State.bindVcs s l x0 <;> grind [State.vcDefine_canon]
theorem State.modFrame_mem (s : State) (ctx : Nat) (g : Frame → Frame) : (State.modFrame s ctx g).mem = s.mem := by
  unfold State.modFrame
  grind [State.modCtx_mem]
theorem State.startDraw_mem (s : State) (l : Launch) : (State.startDraw s l).mem = s.mem := by
  unfold State.startDraw
  grind [State.modFrame_mem, State.modLaunch_mem]
theorem State.pinLeases_mem (s : State) (l : Launch) : (State.pinLeases s l).mem = s.mem := by
  unfold State.pinLeases
  grind [State.modLaunch_mem, State.take_mem, foldl_canon, foldl_mem]
theorem State.startLaunch_canon (s : State) (l : Launch) (h : Memory.wf s.mem = true) : Memory.wf (State.startLaunch s l).mem = true := by
  unfold State.startLaunch
  grind [State.askRes_canon, State.bindVcs_canon, State.modLaunch_mem, State.pinLeases_mem, State.refuse_mem, State.startDraw_mem, foldl_canon, foldl_mem]
theorem State.takeHead_canon (s : State) (ctx q : Nat) (e : Submission) (prot : Bool) (priomax : Nat) (h : Memory.wf s.mem = true) : Memory.wf (State.takeHead s ctx q e prot priomax).mem = true := by
  unfold State.takeHead
  grind [Env.load_mem, State.clearCpl_canon, State.modLaunch_mem, State.refuse_mem, State.setQueue_mem, State.startLaunch_canon, State.take_mem, State.vwrite_canon]
theorem execLaunchHead_canon (ctx queue : Nat) (s : State) (h : Memory.wf s.mem = true) {t : State} (ht : execLaunchHead ctx queue s = .next t) : Memory.wf t.mem = true := by
  unfold execLaunchHead at ht
  grind [State.startLaunch_canon, State.takeHead_canon, foldl_canon, foldl_mem]
theorem State.dispatch_mem (s : State) (l : Launch) (c : CoreRef) : (State.dispatch s l c).mem = s.mem := by
  unfold State.dispatch
  grind [State.acquireInval_mem, State.modLaunch_mem, State.setQuad_mem]
theorem State.startBlock_mem (s : State) (l : Launch) (st : Start) (c : CoreRef) : (State.startBlock s l st c).mem = s.mem := by
  unfold State.startBlock
  grind [State.dispatch_mem, State.modLaunch_mem]
theorem State.placeBlock_mem (s : State) (l : Launch) : (State.placeBlock s l).mem = s.mem := by
  unfold State.placeBlock
  grind [State.refuse_mem, State.startBlock_mem, State.useFree_mem, foldl_canon, foldl_mem]
theorem execBlockPlace_mem (launch : Nat) (s : State) {t : State} (ht : execBlockPlace launch s = .next t) : t.mem = s.mem := by
  unfold execBlockPlace at ht
  grind [State.placeBlock_mem]
theorem State.quadAfter_mem (s : State) (key : Nat) : (State.quadAfter s key).mem = s.mem := by
  unfold State.quadAfter
  grind [State.setQuad_mem]
theorem State.endBlock_mem (s : State) (k : Block) : (State.endBlock s k).mem = s.mem := by
  unfold State.endBlock
  grind [State.fence_mem, State.modLaunch_mem, State.quadAfter_mem]
theorem State.settleEnds_mem (s : State) : (State.settleEnds s).mem = s.mem := by
  unfold State.settleEnds
  grind [State.endBlock_mem, State.settleLaunch_mem, foldl_canon, foldl_mem]
theorem State.evaluate_mem (s : State) (l : Launch) : (State.evaluate s l).mem = s.mem := by
  unfold State.evaluate
  dsimp only
  repeat' split
  all_goals grind [State.modLaunch_mem]
theorem execPipelineEvaluation_mem (launch : Nat) (s : State) {t : State} (ht : execPipelineEvaluation launch s = .next t) : t.mem = s.mem := by
  unfold execPipelineEvaluation at ht
  grind [State.evaluate_mem]
theorem execFixedClockChange_mem (die quad : Nat) (s : State) {t : State} (ht : execFixedClockChange die quad s = .next t) : t.mem = s.mem := by
  unfold execFixedClockChange at ht
  grind [State.setQuad_mem]
theorem execQuadGate_mem (die quad : Nat) (s : State) {t : State} (ht : execQuadGate die quad s = .next t) : t.mem = s.mem := by
  unfold execQuadGate at ht
  grind [State.setQuad_mem]

end Sys2Proof.Machine
end

