-- ==== Sys2Proof/Laws/CanonSave.lean ====
section
/-! SUPPORT. What the operations of Machine/Save.lean do to memory: nothing, or they keep its canonical form. -/

set_option Elab.async false

namespace Sys2Proof.Machine

theorem State.drainFor_mem (s : State) (c : CoreRef) (l : Nat) (age : Option Nat) : (State.drainFor s c l age).mem = s.mem := by
  unfold State.drainFor
  grind [State.setCore_mem, foldl_canon, foldl_mem]
theorem State.preempt_mem (s : State) (c : CoreRef) : (State.preempt s c).mem = s.mem := by
  unfold State.preempt
  grind [State.drainFor_mem]
theorem execPreempt_mem (core : CoreRef) (s : State) {t : State} (ht : execPreempt core s = .next t) : t.mem = s.mem := by
  unfold execPreempt at ht
  grind [State.preempt_mem]
theorem execGraceExpiry_mem (core : CoreRef) (s : State) {t : State} (ht : execGraceExpiry core s = .next t) : t.mem = s.mem := by
  unfold execGraceExpiry at ht
  grind [State.reachNs_mem, State.setCore_mem]
theorem State.landRetry_mem (s : State) (b : Nat) : (State.landRetry s b).mem = s.mem := by
  unfold State.landRetry
  grind [State.modThread_mem, foldl_canon, foldl_mem]
theorem State.settleSaves_mem (s : State) : (State.settleSaves s).mem = s.mem := by
  unfold State.settleSaves
  grind [Env.block_mem, State.landRetry_mem, foldl_canon, foldl_mem]
theorem State.saveBlock_mem (s : State) (k : Block) : (State.saveBlock s k).mem = s.mem := by
  unfold State.saveBlock
  grind [State.modBlock_mem]
theorem State.flushCore_canon (s : State) (c : CoreRef) (ctx : Nat) (h : Memory.wf s.mem = true) : Memory.wf (State.flushCore s c ctx).mem = true := by
  unfold State.flushCore
  grind [State.arriveWb_canon, State.setCore_mem, foldl_canon, foldl_mem]
theorem State.saveAll_canon (s : State) (cs : List CoreRef) (h : Memory.wf s.mem = true) : Memory.wf (State.saveAll s cs).mem = true := by
  unfold State.saveAll
  grind [State.barCheckAll_mem, State.flushCore_canon, State.quadAfter_mem, State.saveBlock_mem, State.setCore_mem, foldl_canon, foldl_mem]
theorem execEngineDrainExpiry_canon (core : CoreRef) (s : State) (h : Memory.wf s.mem = true) {t : State} (ht : execEngineDrainExpiry core s = .next t) : Memory.wf t.mem = true := by
  unfold execEngineDrainExpiry at ht
  grind [State.reachNs_mem, State.saveAll_canon]
theorem State.settleDrains_mem (s : State) : (State.settleDrains s).mem = s.mem := by
  unfold State.settleDrains
  grind []
theorem State.carryArrival_mem (s : State) (k : Block) (c : CoreRef) (tl : Nat) (a : BarArr) : (State.carryArrival s k c tl a).mem = s.mem := by
  unfold State.carryArrival
  grind [State.modThread_mem, State.setBar_mem]
theorem State.carryArrivals_mem (s : State) (k : Block) (c : CoreRef) : (State.carryArrivals s k c).mem = s.mem := by
  unfold State.carryArrivals
  grind [State.carryArrival_mem, foldl_canon, foldl_mem]
theorem State.restoreOn_mem (s : State) (k : Block) (c : CoreRef) : (State.restoreOn s k c).mem = s.mem := by
  unfold State.restoreOn
  grind [State.carryArrivals_mem, State.dispatch_mem, State.modBlock_mem, State.setCore_mem, State.setSq_mem, foldl_canon, foldl_mem]
theorem State.rewake_mem (s : State) (b : Nat) : (State.rewake s b).mem = s.mem := by
  unfold State.rewake
  grind [Env.block_mem, State.barCheckAll_mem, State.retryWait_mem, foldl_canon, foldl_mem]
theorem State.restore_mem (s : State) (b : Nat) (c : CoreRef) : (State.restore s b c).mem = s.mem := by
  unfold State.restore
  grind [Env.block_mem, State.dispatch_mem, State.restoreOn_mem, State.rewake_mem, State.setQuad_mem]
theorem execBlockRestore_mem (blk : Nat) (core : CoreRef) (s : State) {t : State} (ht : execBlockRestore blk core s = .next t) : t.mem = s.mem := by
  unfold execBlockRestore at ht
  grind [State.restore_mem]

end Sys2Proof.Machine
end

