-- ==== Sys2Proof/Laws/CanonGeometry.lean ====
section
/-! SUPPORT. What the operations of Machine/Geometry.lean do to memory: nothing, or they keep its canonical form. -/

set_option Elab.async false

namespace Sys2Proof.Machine

theorem Env.payPush_canon (e : Env) (s : State) (f : FA) (h : Memory.wf s.mem = true) : Memory.wf (Env.payPush e s f).1.mem = true := by
  unfold Env.payPush
  grind [Env.addOp_mem, Env.block_mem, State.commitBlock_canon, State.fence_mem, State.modBlock_mem]
theorem execPaypush_canon (f : FA) (s : State) (h : Memory.wf s.mem = true) {t : State} (ht : execPaypush f s = .next t) : Memory.wf t.mem = true := by
  unfold execPaypush at ht
  grind [Env.payPush_canon, issueCommit_canon]
theorem execPaypop_canon (f : FA) (s : State) (h : Memory.wf s.mem = true) {t : State} (ht : execPaypop f s = .next t) : Memory.wf t.mem = true := by
  unfold execPaypop at ht
  grind [Env.addOp_mem, State.lstore_mem, issue_canon]
theorem State.landOn_mem (s : State) (b tl op : Nat) (v : List Word) : (State.landOn s b tl op v).mem = s.mem := by
  unfold State.landOn
  grind [State.modThread_mem]
theorem execPaypushLanding_mem (blk : Nat) (s : State) {t : State} (ht : execPaypushLanding blk s = .next t) : t.mem = s.mem := by
  unfold execPaypushLanding at ht
  grind [Env.block_mem, State.landOn_mem, State.modLaunch_mem]
theorem Env.mesh_canon (e : Env) (s : State) (act : State → Block → LaneOut) (hact : ∀ y0 y1, Memory.wf y0.mem = true → Memory.wf (act y0 y1).1.mem = true) (h : Memory.wf s.mem = true) : Memory.wf (Env.mesh e s act).1.mem = true := by
  unfold Env.mesh
  grind [Env.block_mem]
theorem execMcount_canon (f : FA) (s : State) (h : Memory.wf s.mem = true) {t : State} (ht : execMcount f s = .next t) : Memory.wf t.mem = true := by
  unfold execMcount at ht
  grind [Env.mesh_canon, State.modBlock_mem, issue_canon]
theorem execMvert_canon (f : FA) (s : State) (h : Memory.wf s.mem = true) {t : State} (ht : execMvert f s = .next t) : Memory.wf t.mem = true := by
  unfold execMvert at ht
  grind [Env.mesh_canon, State.lstore_mem, issue_canon]
theorem execMprim_canon (f : FA) (s : State) (h : Memory.wf s.mem = true) {t : State} (ht : execMprim f s = .next t) : Memory.wf t.mem = true := by
  unfold execMprim at ht
  grind [Env.mesh_canon, State.lstore_mem, issue_canon]
theorem Env.mdone_canon (e : Env) (s : State) (f : FA) (h : Memory.wf s.mem = true) : Memory.wf (Env.mdone e s f).1.mem = true := by
  unfold Env.mdone
  refine Env.mesh_canon e s _ (fun s k h => ?_) h
  generalize k.gsr.bad = b
  dsimp only
  repeat' split
  all_goals exact h
theorem execMdone_canon (f : FA) (s : State) (h : Memory.wf s.mem = true) {t : State} (ht : execMdone f s = .next t) : Memory.wf t.mem = true := by
  unfold execMdone at ht
  grind [Env.block_mem, Env.mdone_canon, State.modBlock_mem, State.rotate_mem, issue_canon]
theorem State.emit_mem (s : State) (ctx : Nat) (p : Packet) : (State.emit s ctx p).mem = s.mem := by
  unfold State.emit
  grind [State.modFrame_mem]
theorem execFrontEndRequest_mem (die : Nat) (s : State) {t : State} (ht : execFrontEndRequest die s = .next t) : t.mem = s.mem := by
  unfold execFrontEndRequest at ht
  grind [Env.block_mem, State.emit_mem, State.landOn_mem, State.useFree_mem, foldl_canon, foldl_mem]

end Sys2Proof.Machine
end

