-- ==== Sys2Proof/Laws/CanonNarrows.lean ====
section
/-! SUPPORT. What the operations of Machine/Narrows.lean do to memory: nothing, or they keep its canonical form. -/

set_option Elab.async false

namespace Sys2Proof.Machine

theorem State.sendWatermark_mem (s : State) (ctx g : Nat) : (State.sendWatermark s ctx g).mem = s.mem := by
  unfold State.sendWatermark
  grind [State.modFrame_mem]
theorem State.spillWrite_canon (s : State) (ctx : Nat) (f : Frame) (off : Nat) (p : Packet) (h : Memory.wf s.mem = true) : Memory.wf (State.spillWrite s ctx f off p).mem = true := by
  unfold State.spillWrite
  grind [State.agentWrite_canon, State.take_mem, foldl_canon, foldl_mem]
theorem State.arrivePacket_canon (s : State) (ctx owner : Nat) (p : Packet) (h : Memory.wf s.mem = true) : Memory.wf (State.arrivePacket s ctx owner p).mem = true := by
  unfold State.arrivePacket
  grind [State.evaluate_mem, State.modFrame_mem, State.spillWrite_canon]
theorem execPacketArrival_canon (ctx : Nat) (p : Packet) (s : State) (h : Memory.wf s.mem = true) {t : State} (ht : execPacketArrival ctx p s = .next t) : Memory.wf t.mem = true := by
  unfold execPacketArrival at ht
  grind [State.arrivePacket_canon]
theorem execWatermarkFlit_mem (ctx gdie owner : Nat) (wm : BitVec 48) (s : State) {t : State} (ht : execWatermarkFlit ctx gdie owner wm s = .next t) : t.mem = s.mem := by
  unfold execWatermarkFlit at ht
  grind [State.evaluate_mem, State.modFrame_mem]
theorem execTokenTimeout_mem (ctx region : Nat) (s : State) {t : State} (ht : execTokenTimeout ctx region s = .next t) : t.mem = s.mem := by
  unfold execTokenTimeout at ht
  grind [State.modFrame_mem, State.reachNs_mem]
theorem execFrameTimeout_mem (ctx : Nat) (s : State) {t : State} (ht : execFrameTimeout ctx s = .next t) : t.mem = s.mem := by
  unfold execFrameTimeout at ht
  grind [State.modFrame_mem, State.reachNs_mem]
theorem State.frameReport_canon (s : State) (rec_ state cause npois ndisc : Nat) (h : Memory.wf s.mem = true) : Memory.wf (State.frameReport s rec_ state cause npois ndisc).mem = true := by
  unfold State.frameReport
  grind [State.addDone_canon, State.agentWord_canon, State.signal_mem]
theorem State.endFrame_canon (s : State) (ctx : Nat) (h : Memory.wf s.mem = true) : Memory.wf (State.endFrame s ctx).mem = true := by
  unfold State.endFrame
  grind [State.frameReport_canon, State.modCtx_mem]
theorem State.takeRegion_mem (s : State) (k : Block) (rid : Nat) : (State.takeRegion s k rid).mem = s.mem := by
  unfold State.takeRegion
  grind [State.acquireInval_mem, State.modBlock_mem, State.modFrame_mem]
theorem State.serveRgn_mem (s : State) (q : RgnReq) {t : State} (ht : State.serveRgn s q = some t) : t.mem = s.mem := by
  unfold State.serveRgn at ht
  dsimp only at ht
  repeat' split at ht
  all_goals grind [Env.block_mem, State.landOn_mem, State.modBlock_mem, State.modFrame_mem, State.takeRegion_mem]
theorem State.serveRgns_mem (s : State) : (State.serveRgns s).mem = s.mem := by
  unfold State.serveRgns
  grind [State.serveRgn_mem, foldl_canon, foldl_mem]
theorem State.settleNarrows_canon (s : State) (h : Memory.wf s.mem = true) : Memory.wf (State.settleNarrows s).mem = true := by
  unfold State.settleNarrows
  grind [State.endFrame_canon, State.sendWatermark_mem, State.serveRgns_mem, foldl_canon, foldl_mem]
theorem Env.rgn_canon (e : Env) (s : State) (act : State → Block → Frame → LaneOut) (hact : ∀ y0 y1 y2, Memory.wf y0.mem = true → Memory.wf (act y0 y1 y2).1.mem = true) (h : Memory.wf s.mem = true) : Memory.wf (Env.rgn e s act).1.mem = true := by
  unfold Env.rgn
  grind [Env.block_mem]
theorem Env.held_canon (e : Env) (s : State) (alive : Bool) (act : State → Block → Frame → Nat → LaneOut) (hact : ∀ y0 y1 y2 y3, Memory.wf y0.mem = true → Memory.wf (act y0 y1 y2 y3).1.mem = true) (h : Memory.wf s.mem = true) : Memory.wf (Env.held e s alive act).1.mem = true := by
  unfold Env.held
  grind [Env.rgn_canon]
theorem execRgnacq_canon (f : FA) (s : State) (h : Memory.wf s.mem = true) {t : State} (ht : execRgnacq f s = .next t) : Memory.wf t.mem = true := by
  unfold execRgnacq at ht
  grind [Env.addOp_mem, Env.rgn_canon, State.takeRegion_mem, issue_canon]
theorem execRgnrel_canon (f : FA) (s : State) (h : Memory.wf s.mem = true) {t : State} (ht : execRgnrel f s = .next t) : Memory.wf t.mem = true := by
  unfold execRgnrel at ht
  grind [Env.held_canon, Env.upd_mem, State.commitBlock_canon, State.fence_mem, State.modBlock_mem, issueCommit_canon]
theorem execVispop_canon (f : FA) (s : State) (h : Memory.wf s.mem = true) {t : State} (ht : execVispop f s = .next t) : Memory.wf t.mem = true := by
  unfold execVispop at ht
  grind [Env.addOp_mem, Env.held_canon, State.modBlock_mem, issue_canon]
theorem execVisget_canon (f : FA) (s : State) (h : Memory.wf s.mem = true) {t : State} (ht : execVisget f s = .next t) : Memory.wf t.mem = true := by
  unfold execVisget at ht
  grind [Env.addOp_mem, Env.held_canon, State.lstore_mem, issue_canon]
theorem execRtblend_canon (f : FA) (s : State) (h : Memory.wf s.mem = true) {t : State} (ht : execRtblend f s = .next t) : Memory.wf t.mem = true := by
  unfold execRtblend at ht
  grind [Env.held_canon, State.checkGlobal_mem, State.freeBytes_mem, State.homeWrite_canon, State.irrevocable_mem, State.putDirty_mem, issue_canon]

end Sys2Proof.Machine
end

