-- ==== Sys2Proof/Laws/CanonSampler.lean ====
section
/-! SUPPORT. What the operations of Machine/Sampler.lean do to memory: nothing, or they keep its canonical form. -/

set_option Elab.async false

namespace Sys2Proof.Machine

theorem Env.sampRead_mem (e : Env) (own : Bool) (s : State) (p : Nat) (n : Nat) : (Env.sampRead e own s p n).2.mem = s.mem := by
  unfold Env.sampRead
  grind [Env.load_mem, State.check_mem]
theorem Env.readTexels_mem (e : Env) (d : TexDesc) (border : Nat) (x0 : List (Rat × Option TexPos)) (x1 : State) : (Env.readTexels e d border x0 x1).2.mem = x1.mem := by
  fun_induction Env.readTexels e d border x0 x1 <;> grind [Env.sampRead_mem]
theorem Env.landTex_mem (e : Env) (s : State) (f : FA) (v : List Word) (poison : Option Nat) : (Env.landTex e s f v poison).1.mem = s.mem := by
  unfold Env.landTex
  grind [Env.addOp_mem]
theorem Env.withTex_canon (e : Env) (s : State) (f : FA) (act : State → TexDesc → LaneOut) (hact : ∀ y0 y1, Memory.wf y0.mem = true → Memory.wf (act y0 y1).1.mem = true) (h : Memory.wf s.mem = true) : Memory.wf (Env.withTex e s f act).1.mem = true := by
  unfold Env.withTex
  grind [Env.landTex_mem, Env.sampRead_mem]
theorem Env.withSamp_canon (e : Env) (s : State) (f : FA) (act : State → SampDesc → LaneOut) (hact : ∀ y0 y1, Memory.wf y0.mem = true → Memory.wf (act y0 y1).1.mem = true) (h : Memory.wf s.mem = true) : Memory.wf (Env.withSamp e s f act).1.mem = true := by
  unfold Env.withSamp
  grind [Env.landTex_mem, Env.sampRead_mem]
theorem execTex_canon (f : FA) (s : State) (h : Memory.wf s.mem = true) {t : State} (ht : execTex f s = .next t) : Memory.wf t.mem = true := by
  unfold execTex at ht
  grind [Env.landTex_mem, Env.readTexels_mem, Env.withSamp_canon, Env.withTex_canon, issue_canon]
theorem execTld_canon (f : FA) (s : State) (h : Memory.wf s.mem = true) {t : State} (ht : execTld f s = .next t) : Memory.wf t.mem = true := by
  unfold execTld at ht
  grind [Env.landTex_mem, Env.sampRead_mem, Env.withTex_canon, issue_canon]
theorem execTqry_canon (f : FA) (s : State) (h : Memory.wf s.mem = true) {t : State} (ht : execTqry f s = .next t) : Memory.wf t.mem = true := by
  unfold execTqry at ht
  grind [Env.landTex_mem, Env.withSamp_canon, Env.withTex_canon, issue_canon]

end Sys2Proof.Machine
end

