-- ==== Sys2Proof/Laws/CanonLinks.lean ====
section
/-! SUPPORT. What the operations of Machine/Links.lean do to memory: nothing, or they keep its canonical form. -/

set_option Elab.async false

namespace Sys2Proof.Machine

theorem State.setFab_mem (s : State) (f : Fabric) : (State.setFab s f).mem = s.mem := by
  unfold State.setFab
  grind []
theorem State.replane_mem (s : State) : (State.replane s).mem = s.mem := by
  unfold State.replane
  grind [State.setFab_mem]
theorem State.learnWidth_mem (s : State) (pa : Nat) : (State.learnWidth s pa).mem = s.mem := by
  unfold State.learnWidth
  grind [State.replane_mem, State.setFab_mem, State.useFree_mem]
theorem State.outbound_mem (s : State) : (State.outbound s).mem = s.mem := by
  unfold State.outbound
  grind [State.sendFlit_mem, foldl_canon, foldl_mem]
theorem State.takeFlits_mem (s : State) : (State.takeFlits s).mem = s.mem := by
  unfold State.takeFlits
  grind [State.setFab_mem, foldl_canon, foldl_mem]
theorem State.linkSlot_mem (s : State) (k : Nat) : (State.linkSlot s k).mem = s.mem := by
  unfold State.linkSlot
  grind [State.setFab_mem, State.useFree_mem]
theorem State.settleLinks_mem (s : State) : (State.settleLinks s).mem = s.mem := by
  unfold State.settleLinks
  grind [State.linkSlot_mem, State.outbound_mem, State.takeFlits_mem, foldl_canon, foldl_mem]

end Sys2Proof.Machine
end

