-- ==== Sys2Proof/Laws/CanonRemote.lean ====
section
/-! SUPPORT. What the operations of Machine/Remote.lean do to memory: nothing, or they keep its canonical form. -/

set_option Elab.async false

namespace Sys2Proof.Machine

theorem State.outsideWrite_canon (s : State) (pa : Nat) (bs : List Byte) (all : Bool) (h : Memory.wf s.mem = true) : Memory.wf (State.outsideWrite s pa bs all).mem = true := by
  unfold State.outsideWrite
  grind [State.agentWrite_canon, State.dropAll_mem, foldl_canon, foldl_mem]
theorem State.charge_mem (s : State) (p : BitVec 14) (c : BitVec 10) (pj : Nat) : (State.charge s p c pj).mem = s.mem := by
  unfold State.charge
  grind [State.setFab_mem]
theorem State.remoteReleased_mem (s : State) (q : RemoteReq) (g : Nat) : (State.remoteReleased s q g).mem = s.mem := by
  unfold State.remoteReleased
  grind [State.setRec_mem]
theorem State.chargeGranule_mem (s : State) (q : RemoteReq) (g : Nat) (write : Bool) : (State.chargeGranule s q g write).mem = s.mem := by
  unfold State.chargeGranule
  grind [State.charge_mem]
theorem State.respond_mem (s : State) (q : RemoteReq) (n payload : Nat) : (State.respond s q n payload).mem = s.mem := by
  unfold State.respond
  grind [State.charge_mem, State.sendFlit_mem]
theorem State.shareFar_mem (s : State) (q : RemoteReq) (g : Nat) : (State.shareFar s q g).mem = s.mem := by
  unfold State.shareFar
  grind [State.setFab_mem]
theorem State.serveRemote_canon (s : State) (q : RemoteReq) (pa : Nat) (h : Memory.wf s.mem = true) : Memory.wf (State.serveRemote s q pa).mem = true := by
  unfold State.serveRemote
  grind [Env.load_mem, State.acquireFrom_mem, State.chargeGranule_mem, State.charge_mem, State.outsideWrite_canon, State.remoteReleased_mem, State.respond_mem, State.setFab_mem, State.shareFar_mem, State.take_mem]
theorem State.takeRemote_canon (s : State) (q : RemoteReq) (pa : Nat) (h : Memory.wf s.mem = true) : Memory.wf (State.takeRemote s q pa).mem = true := by
  unfold State.takeRemote
  grind [State.demandFor_mem, State.serveRemote_canon]
theorem State.resumeRemote_canon (s : State) (id : Nat) (h : Memory.wf s.mem = true) : Memory.wf (State.resumeRemote s id).mem = true := by
  unfold State.resumeRemote
  grind [State.takeRemote_canon]

end Sys2Proof.Machine
end

