-- ==== Sys2Proof/Laws/CanonHome.lean ====
section
/-! SUPPORT. What the operations of Machine/Home.lean do to memory: nothing, or they keep its canonical form. -/

set_option Elab.async false

namespace Sys2Proof.Machine

theorem State.home_canon (s : State) (q : HomeReq) (perform : State → HomeReq → State) (hperform : ∀ y0 y1, Memory.wf y0.mem = true → Memory.wf (perform y0 y1).mem = true) (h : Memory.wf s.mem = true) : Memory.wf (State.home s q perform).mem = true := by
  unfold State.home
  grind [State.learnWidth_mem, State.serve_canon]
theorem execHomeRelease_canon (req : Nat) (s : State) (h : Memory.wf s.mem = true) {t : State} (ht : execHomeRelease req s = .next t) : Memory.wf t.mem = true := by
  unfold execHomeRelease at ht
  grind [State.home_canon, State.performRelease_canon]
theorem execHomeAcquire_canon (req : Nat) (s : State) (h : Memory.wf s.mem = true) {t : State} (ht : execHomeAcquire req s = .next t) : Memory.wf t.mem = true := by
  unfold execHomeAcquire at ht
  grind [State.home_canon, State.performAcquire_mem]
theorem execHomeAtomic_canon (req : Nat) (s : State) (h : Memory.wf s.mem = true) {t : State} (ht : execHomeAtomic req s = .next t) : Memory.wf t.mem = true := by
  unfold execHomeAtomic at ht
  grind [State.home_canon, State.performAtomic_canon]
theorem execHomeFill_canon (req : Nat) (s : State) (h : Memory.wf s.mem = true) {t : State} (ht : execHomeFill req s = .next t) : Memory.wf t.mem = true := by
  unfold execHomeFill at ht
  grind [State.home_canon, State.performFill_canon]
theorem execDemandWriteBack_mem (core : CoreRef) (gen : BitVec 4) (s : State) {t : State} (ht : execDemandWriteBack core gen s = .next t) : t.mem = s.mem := by
  unfold execDemandWriteBack at ht
  grind [State.sendWb_mem]
theorem execWriteBackArrival_canon (core : CoreRef) (granule : Nat) (s : State) (h : Memory.wf s.mem = true) {t : State} (ht : execWriteBackArrival core granule s = .next t) : Memory.wf t.mem = true := by
  unfold execWriteBackArrival at ht
  grind [State.arriveWb_canon]
theorem State.phaseEnd_mem (s : State) (b : Nat) (pod : Bool := false) : (State.phaseEnd s b pod).mem = s.mem := by
  unfold State.phaseEnd
  grind [Env.block_mem, State.acquireInval_mem]
theorem State.flushed_mem (s : State) (g : Nat) (r : SyncRec) : (State.flushed s g r).mem = s.mem := by
  unfold State.flushed
  grind [State.setRec_mem]
theorem State.recallDirty_canon (s : State) (g : Nat) (h : Memory.wf s.mem = true) : Memory.wf (State.recallDirty s g).mem = true := by
  unfold State.recallDirty
  grind [State.arriveWb_canon, foldl_canon, foldl_mem]
theorem State.dropEntry_canon (s : State) (g : Nat) (h : Memory.wf s.mem = true) : Memory.wf (State.dropEntry s g).mem = true := by
  unfold State.dropEntry
  grind [State.dropAll_mem, State.dropFar_mem, State.recallDirty_canon]
theorem State.giveBack_mem (s : State) (b rid : Nat) : (State.giveBack s b rid).mem = s.mem := by
  unfold State.giveBack
  grind [State.modBlock_mem]
theorem State.ackFence_canon (s : State) (who : FenceFor) (h : Memory.wf s.mem = true) : Memory.wf (State.ackFence s who).mem = true := by
  unfold State.ackFence
  grind [Env.block_mem, State.arrive_mem, State.demand_mem, State.doneNow_canon, State.dropEntry_canon, State.flushed_mem, State.freeRegions_mem, State.giveBack_mem, State.modFrame_mem, State.modLaunch_mem, State.modThread_mem, State.phaseEnd_mem, State.resumeRemote_canon, State.setStage_mem, State.vcFlushDone_canon]
theorem execWriteBackAck_canon (req : Nat) (s : State) (h : Memory.wf s.mem = true) {t : State} (ht : execWriteBackAck req s = .next t) : Memory.wf t.mem = true := by
  unfold execWriteBackAck at ht
  grind [State.ackFence_canon]
theorem execEviction_mem (core : CoreRef) (granule : Nat) (s : State) {t : State} (ht : execEviction core granule s = .next t) : t.mem = s.mem := by
  unfold execEviction at ht
  grind [State.dropCopy_mem, State.dropL2_mem, State.sendWb_mem, State.useFree_mem]
theorem State.recallFrom_mem (s : State) (p : BitVec 14) (g : Nat) : (State.recallFrom s p g).mem = s.mem := by
  unfold State.recallFrom
  grind [State.sendFlit_mem]
theorem execDirectoryRecall_canon (granule : Nat) (s : State) (h : Memory.wf s.mem = true) {t : State} (ht : execDirectoryRecall granule s = .next t) : Memory.wf t.mem = true := by
  unfold execDirectoryRecall at ht
  grind [State.demandFor_mem, State.dropEntry_canon, State.flushRecord_canon, State.recallFrom_mem, foldl_canon, foldl_mem]
theorem execHostSnoop_canon (pa : Nat) (inval : Option (List Byte)) (s : State) (h : Memory.wf s.mem = true) {t : State} (ht : execHostSnoop pa inval s = .next t) : Memory.wf t.mem = true := by
  unfold execHostSnoop at ht
  grind [State.dropAll_mem, State.outsideWrite_canon, State.recallDirty_canon, State.take_mem]
theorem State.snoopRange_canon (s : State) (pa n : Nat) (h : Memory.wf s.mem = true) : Memory.wf (State.snoopRange s pa n).mem = true := by
  unfold State.snoopRange
  grind [State.arriveWb_canon, foldl_canon, foldl_mem]
theorem execHostMemAccess_canon (pa : Nat) (data : List Byte) (s : State) (h : Memory.wf s.mem = true) {t : State} (ht : execHostMemAccess pa data s = .next t) : Memory.wf t.mem = true := by
  unfold execHostMemAccess at ht
  split at ht
  · cases ht
    exact h
  · cases ht
    exact State.outsideWrite_canon _ _ _ _ (State.snoopRange_canon s _ _ h)
theorem State.dropBank_mem (s : State) (die : Nat) (p : Copy → Bool) (q : DirtyLine → Bool) : (State.dropBank s die p q).mem = s.mem := by
  unfold State.dropBank
  grind [State.sendWb_mem, foldl_canon, foldl_mem]
theorem execBankSleep_mem (die bank : Nat) (s : State) {t : State} (ht : execBankSleep die bank s = .next t) : t.mem = s.mem := by
  unfold execBankSleep at ht
  grind [State.dropBank_mem]
theorem State.setDiePower_mem (s : State) (die : Nat) (p : DiePower) : (State.setDiePower s die p).mem = s.mem := by
  unfold State.setDiePower
  grind []
theorem execL2DectedSwitch_mem (die : Nat) (s : State) {t : State} (ht : execL2DectedSwitch die s = .next t) : t.mem = s.mem := by
  unfold execL2DectedSwitch at ht
  grind [State.dropBank_mem, State.setDiePower_mem, State.useFree_mem]

end Sys2Proof.Machine
end

