-- ==== Sys2Proof/Laws/CanonFabric.lean ====
section
/-! SUPPORT. What the operations of Machine/Fabric.lean do to memory: nothing, or they keep its canonical form. -/

set_option Elab.async false

namespace Sys2Proof.Machine

theorem State.fabricEnable_canon (s : State) (digests : Bool) (h : Memory.wf s.mem = true) : Memory.wf (State.fabricEnable s digests).mem = true := by
  unfold State.fabricEnable
  grind [State.errRecord_canon, State.setFab_mem]
theorem execFabricEnable_canon (digestsMatch : Bool) (s : State) (h : Memory.wf s.mem = true) {t : State} (ht : execFabricEnable digestsMatch s = .next t) : Memory.wf t.mem = true := by
  unfold execFabricEnable at ht
  grind [State.fabricEnable_canon]
theorem State.clearLost_mem (s : State) (p : BitVec 14) : (State.clearLost s p).mem = s.mem := by
  unfold State.clearLost
  grind [State.setFab_mem]
theorem execLostMarkClear_mem (pkg : BitVec 14) (s : State) {t : State} (ht : execLostMarkClear pkg s = .next t) : t.mem = s.mem := by
  unfold execLostMarkClear at ht
  grind [State.clearLost_mem]
theorem execLinkLaneLoss_mem (link lane : Nat) (s : State) {t : State} (ht : execLinkLaneLoss link lane s = .next t) : t.mem = s.mem := by
  unfold execLinkLaneLoss at ht
  grind [State.setFab_mem]
theorem State.linkDone_canon (s : State) (link lanes : Nat) (h : Memory.wf s.mem = true) : Memory.wf (State.linkDone s link lanes).mem = true := by
  unfold State.linkDone
  grind [State.errRecord_canon, State.replane_mem, State.setFab_mem]
theorem execLinkRetrainDone_canon (link : Nat) (lanes : BitVec 4) (s : State) (h : Memory.wf s.mem = true) {t : State} (ht : execLinkRetrainDone link lanes s = .next t) : Memory.wf t.mem = true := by
  unfold execLinkRetrainDone at ht
  grind [State.linkDone_canon]
theorem execHeartbeatSend_mem (s : State) {t : State} (ht : execHeartbeatSend s = .next t) : t.mem = s.mem := by
  unfold execHeartbeatSend at ht
  grind [State.sendFlit_mem, foldl_canon, foldl_mem]
theorem State.podLost_canon (s : State) (g : Nat) (h : Memory.wf s.mem = true) : Memory.wf (State.podLost s g).mem = true := by
  unfold State.podLost
  grind [State.takeTrap_canon, foldl_canon, foldl_mem]
theorem State.dropWriter_mem (s : State) (p : BitVec 14) : (State.dropWriter s p).mem = s.mem := by
  unfold State.dropWriter
  grind [State.poisonGranule_mem, State.setFab_mem, foldl_canon, foldl_mem]
theorem State.dropLinesOf_mem (s : State) (p : BitVec 14) : (State.dropLinesOf s p).mem = s.mem := by
  unfold State.dropLinesOf
  grind []
theorem State.losePkg_canon (s : State) (p : BitVec 14) (h : Memory.wf s.mem = true) : Memory.wf (State.losePkg s p).mem = true := by
  unfold State.losePkg
  grind [State.ackFence_canon, State.dropLinesOf_mem, State.dropReq_mem, State.dropWriter_mem, State.errRecord_canon, State.landVal_mem, State.podLost_canon, State.setFab_mem, foldl_canon, foldl_mem]
theorem execSilenceNotice_canon (pkg : BitVec 14) (plane : Nat) (s : State) (h : Memory.wf s.mem = true) {t : State} (ht : execSilenceNotice pkg plane s = .next t) : Memory.wf t.mem = true := by
  unfold execSilenceNotice at ht
  grind [State.losePkg_canon, State.setFab_mem]
theorem execPodArrivalFlit_mem (gid : BitVec 32) (src : BitVec 14) (s : State) {t : State} (ht : execPodArrivalFlit gid src s = .next t) : t.mem = s.mem := by
  unfold execPodArrivalFlit at ht
  grind [State.podArrive_mem]
theorem execPodReleaseFlit_mem (gid : BitVec 32) (s : State) {t : State} (ht : execPodReleaseFlit gid s = .next t) : t.mem = s.mem := by
  unfold execPodReleaseFlit at ht
  grind [State.releaseBar_mem, State.setBar_mem]
theorem execBillingSend_mem (pkg : BitVec 14) (ctx : BitVec 10) (s : State) {t : State} (ht : execBillingSend pkg ctx s = .next t) : t.mem = s.mem := by
  unfold execBillingSend at ht
  grind [State.sendFlit_mem, State.setFab_mem]
theorem execBillingFlit_mem (src : BitVec 14) (ctx : BitVec 10) (pj : BitVec 64) (s : State) {t : State} (ht : execBillingFlit src ctx pj s = .next t) : t.mem = s.mem := by
  unfold execBillingFlit at ht
  grind []
theorem execRemoteRequest_canon (q : RemoteReq) (s : State) (h : Memory.wf s.mem = true) {t : State} (ht : execRemoteRequest q s = .next t) : Memory.wf t.mem = true := by
  unfold execRemoteRequest at ht
  grind [State.respond_mem, State.takeRemote_canon]
theorem execDirtyNotice_mem (granule : Nat) (pkg : BitVec 14) (s : State) {t : State} (ht : execDirtyNotice granule pkg s = .next t) : t.mem = s.mem := by
  unfold execDirtyNotice at ht
  grind [State.sendFlit_mem, State.setFab_mem]

end Sys2Proof.Machine
end

