-- ==== Sys2Proof/Laws/CanonReliab.lean ====
section
/-! SUPPORT. What the operations of Machine/Reliab.lean do to memory: nothing, or they keep its canonical form. -/

set_option Elab.async false

namespace Sys2Proof.Machine

theorem State.countStrike_mem (s : State) (c : CoreRef) : (State.countStrike s c).mem = s.mem := by
  unfold State.countStrike
  grind [State.setCore_mem]
theorem State.strike_canon (s : State) (b tl cause unit uidx addr : Nat) (h : Memory.wf s.mem = true) : Memory.wf (State.strike s b tl cause unit uidx addr).mem = true := by
  unfold State.strike
  grind [Env.block_mem, State.countStrike_mem, State.errRecord_canon, State.rollback_mem]
theorem State.siteRecord_canon (s : State) (e : ErrSite) (cause sev addr : Nat) (h : Memory.wf s.mem = true) : Memory.wf (State.siteRecord s e cause sev addr).mem = true := by
  unfold State.siteRecord
  grind [State.errRecord_canon, State.useFree_mem]
theorem State.loseLine_mem (s : State) (c : CoreRef) (g : Nat) : (State.loseLine s c g).mem = s.mem := by
  unfold State.loseLine
  grind [State.poisonGranule_mem, State.setCore_mem]
theorem State.loseEntry_mem (s : State) (g : Nat) : (State.loseEntry s g).mem = s.mem := by
  unfold State.loseEntry
  grind [State.dropAll_mem, State.loseLine_mem, State.poisonGranule_mem, foldl_canon, foldl_mem]
theorem State.dropShare_canon (s : State) (x : Bool × Nat × Nat × Nat) (h : Memory.wf s.mem = true) : Memory.wf (State.dropShare s x).mem = true := by
  unfold State.dropShare
  grind [State.putVc_canon, foldl_canon, foldl_mem]
theorem State.loseShare_canon (s : State) (l2 : Bool) (die bank way : Nat) (dirty : List Nat) (h : Memory.wf s.mem = true) : Memory.wf (State.loseShare s l2 die bank way dirty).mem = true := by
  unfold State.loseShare
  grind [State.dropBank_mem, State.dropShare_canon, State.errRecord_canon, State.loseLine_mem, State.poisonGranule_mem, foldl_canon, foldl_mem]
theorem State.engStruck_canon (s : State) (o : EngOp) (x : Nat) (h : Memory.wf s.mem = true) : Memory.wf (State.engStruck s o x).mem = true := by
  unfold State.engStruck
  grind [State.engDone_mem, State.engFail_mem, State.matFail_canon, State.setCore_mem]
theorem State.uncorrectable_canon (s : State) (e : ErrSite) (access : Bool) (h : Memory.wf s.mem = true) : Memory.wf (State.uncorrectable s e access).mem = true := by
  unfold State.uncorrectable
  grind [Env.block_mem, State.engStruck_canon, State.loseEntry_mem, State.loseLine_mem, State.loseShare_canon, State.poisonGranule_mem, State.siteRecord_canon, State.strike_canon]
theorem execUncorrectableError_canon (site : ErrSite) (s : State) (h : Memory.wf s.mem = true) {t : State} (ht : execUncorrectableError site s = .next t) : Memory.wf t.mem = true := by
  unfold execUncorrectableError at ht
  grind [State.uncorrectable_canon]
theorem execCorrected_canon (site : ErrSite) (s : State) (h : Memory.wf s.mem = true) {t : State} (ht : execCorrected site s = .next t) : Memory.wf t.mem = true := by
  unfold execCorrected at ht
  grind [State.siteRecord_canon]
theorem execScrub_canon (found : List ErrSite) (s : State) (h : Memory.wf s.mem = true) {t : State} (ht : execScrub found s = .next t) : Memory.wf t.mem = true := by
  unfold execScrub at ht
  grind [State.uncorrectable_canon, foldl_canon, foldl_mem]
theorem State.relaunch_mem (s : State) (k : Block) (c : CoreRef) : (State.relaunch s k c).mem = s.mem := by
  unfold State.relaunch
  grind [State.dispatch_mem, State.modBlock_mem]
theorem execBlockRelaunch_mem (blk : Nat) (core : CoreRef) (s : State) {t : State} (ht : execBlockRelaunch blk core s = .next t) : t.mem = s.mem := by
  unfold execBlockRelaunch at ht
  grind [Env.block_mem, State.relaunch_mem]
theorem State.loseDie_mem (s : State) (die : Nat) : (State.loseDie s die).mem = s.mem := by
  unfold State.loseDie
  grind [State.loseLine_mem, foldl_canon, foldl_mem]
theorem execDieLost_canon (die : Nat) (s : State) (h : Memory.wf s.mem = true) {t : State} (ht : execDieLost die s = .next t) : Memory.wf t.mem = true := by
  unfold execDieLost at ht
  grind [State.errRecord_canon, State.failLaunch_mem, State.loseDie_mem, State.relaunch_mem, State.rollback_mem, foldl_canon, foldl_mem]

end Sys2Proof.Machine
end

