-- ==== Sys2Proof/Laws/CanonPower.lean ====
section
/-! SUPPORT. What the operations of Machine/Power.lean do to memory: nothing, or they keep its canonical form. -/

set_option Elab.async false

namespace Sys2Proof.Machine

theorem State.setQuadPower_mem (s : State) (key : Nat) (q : QuadPower) : (State.setQuadPower s key q).mem = s.mem := by
  unfold State.setQuadPower
  grind []
theorem State.setPass_mem (s : State) (key p : Nat) : (State.setPass s key p).mem = s.mem := by
  unfold State.setPass
  grind [State.setQuad_mem]
theorem State.raisePass_mem (s : State) (key n : Nat) : (State.raisePass s key n).mem = s.mem := by
  unfold State.raisePass
  grind [State.drainFor_mem, State.modBlock_mem, State.setPass_mem, foldl_canon, foldl_mem]
theorem State.letBack_mem (s : State) (key : Nat) : (State.letBack s key).mem = s.mem := by
  unfold State.letBack
  grind []
theorem State.settlePower_mem (s : State) : (State.settlePower s).mem = s.mem := by
  unfold State.settlePower
  grind [State.letBack_mem, State.raisePass_mem, State.setPass_mem, State.setQuadPower_mem, foldl_canon, foldl_mem]
theorem State.quadRecord_canon (s : State) (die q cause sev : Nat) (h : Memory.wf s.mem = true) : Memory.wf (State.quadRecord s die q cause sev).mem = true := by
  unfold State.quadRecord
  grind [State.errRecord_canon]
theorem State.darken_canon (s : State) (key : Nat) (h : Memory.wf s.mem = true) : Memory.wf (State.darken s key).mem = true := by
  unfold State.darken
  grind [State.relaunch_mem, State.strike_canon, foldl_canon, foldl_mem]
theorem execPowerEvaluation_mem (die : Nat) (m : PowerReading) (s : State) {t : State} (ht : execPowerEvaluation die m s = .next t) : t.mem = s.mem := by
  unfold execPowerEvaluation at ht
  grind [State.setPass_mem, State.setQuadPower_mem, State.take_mem, foldl_canon, foldl_mem]
theorem execEnergyAccounting_mem (die quad nj : Nat) (shares : List (Nat × Nat)) (s : State) {t : State} (ht : execEnergyAccounting die quad nj shares s = .next t) : t.mem = s.mem := by
  unfold execEnergyAccounting at ht
  grind [foldl_canon, foldl_mem]
theorem State.dieTemps_mem (s : State) (die : Nat) : (State.dieTemps s die).mem = s.mem := by
  unfold State.dieTemps
  grind [State.setDiePower_mem, foldl_canon, foldl_mem]
theorem State.migrate_mem (s : State) (key : Nat) : (State.migrate s key).mem = s.mem := by
  unfold State.migrate
  grind [State.drainFor_mem, State.relaunch_mem, foldl_canon, foldl_mem]
theorem execThermalReading_canon (die quad : Nat) (temp base : Int) (s : State) (h : Memory.wf s.mem = true) {t : State} (ht : execThermalReading die quad temp base s = .next t) : Memory.wf t.mem = true := by
  unfold execThermalReading at ht
  grind [State.darken_canon, State.dieTemps_mem, State.migrate_mem, State.quadRecord_canon, State.setQuadPower_mem, foldl_canon, foldl_mem]
theorem execDroopDetect_mem (die quad : Nat) (s : State) {t : State} (ht : execDroopDetect die quad s = .next t) : t.mem = s.mem := by
  unfold execDroopDetect at ht
  grind [State.setQuadPower_mem]
theorem State.setPwrlim_mem (s : State) (v : DWord) : (State.setPwrlim s v).mem = s.mem := by
  unfold State.setPwrlim
  grind [State.setQuadPower_mem, foldl_canon, foldl_mem]
theorem execStretchedCycle_mem (die quad : Nat) (stillLow : Bool) (s : State) {t : State} (ht : execStretchedCycle die quad stillLow s = .next t) : t.mem = s.mem := by
  unfold execStretchedCycle at ht
  grind [State.reachCyc_mem, State.setQuadPower_mem]
theorem execDroopRecover_mem (die quad : Nat) (s : State) {t : State} (ht : execDroopRecover die quad s = .next t) : t.mem = s.mem := by
  unfold execDroopRecover at ht
  grind [State.setQuadPower_mem]
theorem execDroopLimit_canon (die quad : Nat) (s : State) (h : Memory.wf s.mem = true) {t : State} (ht : execDroopLimit die quad s = .next t) : Memory.wf t.mem = true := by
  unfold execDroopLimit at ht
  grind [State.quadRecord_canon, State.setQuadPower_mem]
theorem execDroopFloorExpiry_mem (die quad : Nat) (s : State) {t : State} (ht : execDroopFloorExpiry die quad s = .next t) : t.mem = s.mem := by
  unfold execDroopFloorExpiry at ht
  grind [State.reachNs_mem, State.setQuadPower_mem]
theorem execShuntClamp_mem (_die _quad : Nat) (s : State) {t : State} (ht : execShuntClamp _die _quad s = .next t) : t.mem = s.mem := by
  unfold execShuntClamp at ht
  grind []
theorem execRegFailed_canon (die reg : Nat) (s : State) (h : Memory.wf s.mem = true) {t : State} (ht : execRegFailed die reg s = .next t) : Memory.wf t.mem = true := by
  unfold execRegFailed at ht
  grind [State.darken_canon, State.errRecord_canon, State.setDiePower_mem, State.setQuadPower_mem, foldl_canon, foldl_mem]
theorem execPwrlimWrite_mem (v : BitVec 64) (s : State) {t : State} (ht : execPwrlimWrite v s = .next t) : t.mem = s.mem := by
  unfold execPwrlimWrite at ht
  grind [State.setPwrlim_mem, State.useFree_mem]
theorem execWay7ReturnToVc1_mem (die : Nat) (s : State) {t : State} (ht : execWay7ReturnToVc1 die s = .next t) : t.mem = s.mem := by
  unfold execWay7ReturnToVc1 at ht
  grind [State.setDiePower_mem, State.useFree_mem]

end Sys2Proof.Machine
end

