-- ==== Sys2Proof/Laws/CanonHost.lean ====
section
/-! SUPPORT. What the operations of Machine/Host.lean do to memory: nothing, or they keep its canonical form. -/

set_option Elab.async false

namespace Sys2Proof.Machine

theorem memWfFrom_freed (free n lo : Nat) (m : Mem) (h : memWfFrom lo m = true) :
    memWfFrom lo ((m.zipIdx n).filterMap fun p =>
      let b : Byte := (Config.freeValue (free + p.2)).setWidth 8
      if b == memDefault then none else some (p.1.1, b)) = true := by
  induction m generalizing lo n with
  | nil => rfl
  | cons p r ih =>
    have hr := ih (n + 1) (p.1 + 1) (by grind [memWfFrom])
    rw [List.zipIdx_cons, List.filterMap_cons]
    dsimp only at hr ⊢
    by_cases hb : (BitVec.setWidth 8 (Config.freeValue (free + n)) == memDefault) = true
    · simp only [hb, if_true]
      exact memWfFrom_weaken hr (by grind [memWfFrom])
    · rw [if_neg hb]
      grind [memWfFrom]
theorem State.packageReset_canon (s : State) (h : Memory.wf s.mem = true) : Memory.wf s.packageReset.mem = true :=
  memWfFrom_freed s.clock.free 0 0 s.mem h

theorem canon_ite {c : Prop} [Decidable c] {a b : State} (ha : Memory.wf a.mem = true) (hb : Memory.wf b.mem = true) :
    Memory.wf (if c then a else b).mem = true := by
  split <;> assumption

theorem execQfeat_canon (f : FI) (s : State) (h : Memory.wf s.mem = true) {t : State} (ht : execQfeat f s = .next t) : Memory.wf t.mem = true := by
  unfold execQfeat at ht
  grind [issueAlu_canon]
-- (State.packageReset_canon stands above)
theorem execPackageReset_canon (s : State) (h : Memory.wf s.mem = true) {t : State} (ht : execPackageReset s = .next t) : Memory.wf t.mem = true := by
  unfold execPackageReset at ht
  grind [State.packageReset_canon]
theorem execPkgctlRst_canon (v : BitVec 64) (s : State) (h : Memory.wf s.mem = true) {t : State} (ht : execPkgctlRst v s = .next t) : Memory.wf t.mem = true := by
  unfold execPkgctlRst at ht
  grind [State.packageReset_canon]
theorem execBootStep_mem (ok : Bool) (s : State) {t : State} (ht : execBootStep ok s = .next t) : t.mem = s.mem := by
  unfold execBootStep at ht
  grind []
theorem State.cmdDone_mem (s : State) (res cause : Nat) : (State.cmdDone s res cause).mem = s.mem := by
  unfold State.cmdDone
  grind []
theorem State.command_canon (s : State) (op : Nat) (slot : BitVec 10) (arg : BitVec 46) (ptr : BitVec 64) (act : State → Option (Nat × Nat) × State) (hact : ∀ y0, Memory.wf y0.mem = true → Memory.wf (act y0).2.mem = true) (h : Memory.wf s.mem = true) {t : State} (ht : State.command s op slot arg ptr act = .next t) : Memory.wf t.mem = true := by
  unfold State.command at ht
  grind [State.cmdDone_mem]
theorem State.live_canon (s : State) (slot : Nat) (act : Ctx → State → Option (Nat × Nat) × State) (hact : ∀ y0 y1, Memory.wf y1.mem = true → Memory.wf (act y0 y1).2.mem = true) (h : Memory.wf s.mem = true) : Memory.wf (State.live s slot act).2.mem = true := by
  unfold State.live
  grind []
theorem done_mem (s : State) : (done s).2.mem = s.mem := by
  unfold done
  grind []
theorem execHostCommandComplete_mem (s : State) {t : State} (ht : execHostCommandComplete s = .next t) : t.mem = s.mem := by
  unfold execHostCommandComplete at ht
  grind [State.signal_mem]
theorem State.create_canon (s : State) (slot arg ptr : Nat) (h : Memory.wf s.mem = true) : Memory.wf (State.create s slot arg ptr).2.mem = true := by
  unfold State.create
  grind [State.putVc_canon, State.take_mem, done_mem, foldl_canon, foldl_mem]
theorem execCreate_canon (slot : BitVec 10) (arg : BitVec 46) (ptr : BitVec 64) (s : State) (h : Memory.wf s.mem = true) {t : State} (ht : execCreate slot arg ptr s = .next t) : Memory.wf t.mem = true := by
  unfold execCreate at ht
  grind [State.command_canon, State.create_canon]
theorem State.evictCtx_canon (s : State) (slot : Nat) (h : Memory.wf s.mem = true) : Memory.wf (State.evictCtx s slot).mem = true := by
  unfold State.evictCtx
  grind [State.demand_mem, State.flushCore_canon, State.quadAfter_mem, foldl_canon, foldl_mem]
theorem State.cancelLaunch_canon (s : State) (l : Launch) (h : Memory.wf s.mem = true) : Memory.wf (State.cancelLaunch s l).mem = true := by
  unfold State.cancelLaunch
  grind [State.endBlocks_mem, State.flushCore_canon, State.modLaunch_mem, execCompletionRecord_canon, foldl_canon, foldl_mem]
theorem State.cancelQueue_canon (s : State) (slot q : Nat) (h : Memory.wf s.mem = true) : Memory.wf (State.cancelQueue s slot q).mem = true := by
  unfold State.cancelQueue
  grind [State.cancelLaunch_canon, State.clearCpl_canon, State.setQueue_mem, foldl_canon, foldl_mem]
theorem State.destroy_canon (s : State) (slot : Nat) (h : Memory.wf s.mem = true) : Memory.wf (State.destroy s slot).mem = true := by
  unfold State.destroy
  grind [State.cancelLaunch_canon, State.cancelQueue_canon, State.evictCtx_canon, foldl_canon, foldl_mem]
theorem execDestroy_canon (slot : BitVec 10) (arg : BitVec 46) (ptr : BitVec 64) (s : State) (h : Memory.wf s.mem = true) {t : State} (ht : execDestroy slot arg ptr s = .next t) : Memory.wf t.mem = true := by
  unfold execDestroy at ht
  grind [State.command_canon, State.destroy_canon, State.live_canon, done_mem]
theorem State.inval_mem (s : State) (slot arg ptr : Nat) : (State.inval s slot arg ptr).2.mem = s.mem := by
  unfold State.inval
  grind []
theorem execInval_canon (slot : BitVec 10) (arg : BitVec 46) (ptr : BitVec 64) (s : State) (h : Memory.wf s.mem = true) {t : State} (ht : execInval slot arg ptr s = .next t) : Memory.wf t.mem = true := by
  unfold execInval at ht
  grind [State.command_canon, State.inval_mem, State.live_canon]
theorem execFrmrel_canon (slot : BitVec 10) (arg : BitVec 46) (ptr : BitVec 64) (s : State) (h : Memory.wf s.mem = true) {t : State} (ht : execFrmrel slot arg ptr s = .next t) : Memory.wf t.mem = true := by
  unfold execFrmrel at ht
  grind [State.command_canon, done_mem]
theorem State.refuseFrame_canon (s : State) (slot pa cause : Nat) (h : Memory.wf s.mem = true) : Memory.wf (State.refuseFrame s slot pa cause).mem = true := by
  unfold State.refuseFrame
  grind [State.frameReport_canon, State.modCtx_mem]
theorem State.frameWait_canon (s : State) (slot : Nat) (f : Frame) (base size : Nat) (h : Memory.wf s.mem = true) : Memory.wf (State.frameWait s slot f base size).mem = true := by
  unfold State.frameWait
  grind [State.modCtx_mem, State.refuseFrame_canon, State.requestRes_canon]
theorem State.tryOpen_canon (s : State) (slot : Nat) (f : Frame) (h : Memory.wf s.mem = true) : Memory.wf (State.tryOpen s slot f).mem = true := by
  unfold State.tryOpen
  grind [State.frameWait_canon, State.modCtx_mem, State.refuseFrame_canon]
theorem State.openFrame_canon (s : State) (slot ptr : Nat) (h : Memory.wf s.mem = true) : Memory.wf (State.openFrame s slot ptr).2.mem = true := by
  unfold State.openFrame
  grind [State.agentWord_canon, State.frameReport_canon, State.tryOpen_canon, done_mem]
theorem execFrmopen_canon (slot : BitVec 10) (arg : BitVec 46) (ptr : BitVec 64) (s : State) (h : Memory.wf s.mem = true) {t : State} (ht : execFrmopen slot arg ptr s = .next t) : Memory.wf t.mem = true := by
  unfold execFrmopen at ht
  grind [State.command_canon, State.live_canon, State.openFrame_canon]
theorem execFrmclose_canon (slot : BitVec 10) (arg : BitVec 46) (ptr : BitVec 64) (s : State) (h : Memory.wf s.mem = true) {t : State} (ht : execFrmclose slot arg ptr s = .next t) : Memory.wf t.mem = true := by
  unfold execFrmclose at ht
  grind [State.command_canon, State.live_canon, State.modFrame_mem, done_mem]
theorem State.resans_canon (s : State) (slot arg ptr : Nat) (h : Memory.wf s.mem = true) : Memory.wf (State.resans s slot arg ptr).2.mem = true := by
  unfold State.resans
  grind [State.failLaunch_mem, State.modCtx_mem, State.modLaunch_mem, State.refuseFrame_canon, State.refuse_mem, State.tryOpen_canon, State.writeRes_canon, done_mem, foldl_canon, foldl_mem]
theorem execResans_canon (slot : BitVec 10) (arg : BitVec 46) (ptr : BitVec 64) (s : State) (h : Memory.wf s.mem = true) {t : State} (ht : execResans slot arg ptr s = .next t) : Memory.wf t.mem = true := by
  unfold execResans at ht
  grind [State.command_canon, State.resans_canon]
theorem State.takeRing_canon (s : State) (ctx q : Nat) (h : Memory.wf s.mem = true) : Memory.wf (State.takeRing s ctx q).mem = true := by
  unfold State.takeRing
  grind [Env.submit_mem, State.agentWrite_canon, State.setQueue_mem, State.submit_mem]
theorem State.takeRings_canon (s : State) (ctx q : Nat) (x0 : Nat) (h : Memory.wf s.mem = true) : Memory.wf (State.takeRings s ctx q x0).mem = true := by
  fun_induction State.takeRings s ctx q x0 <;> grind [State.takeRing_canon]
theorem State.settleRings_canon (s : State) (h : Memory.wf s.mem = true) : Memory.wf (State.settleRings s).mem = true := by
  unfold State.settleRings
  grind [State.takeRings_canon, foldl_canon, foldl_mem]
theorem State.readTail_mem (s : State) (ctx q : Nat) : (State.readTail s ctx q).mem = s.mem := by
  unfold State.readTail
  grind [State.setQueue_mem]
theorem execTailReread_mem (ctx queue : Nat) (s : State) {t : State} (ht : execTailReread ctx queue s = .next t) : t.mem = s.mem := by
  unfold execTailReread at ht
  grind [State.readTail_mem]
theorem State.qbind_mem (s : State) (slot arg ptr : Nat) : (State.qbind s slot arg ptr).2.mem = s.mem := by
  unfold State.qbind
  grind [State.setQueue_mem, done_mem]
theorem execQbind_canon (slot : BitVec 10) (arg : BitVec 46) (ptr : BitVec 64) (s : State) (h : Memory.wf s.mem = true) {t : State} (ht : execQbind slot arg ptr s = .next t) : Memory.wf t.mem = true := by
  unfold execQbind at ht
  grind [State.command_canon, State.live_canon, State.qbind_mem]
theorem State.stopCtx_mem (s : State) (slot : Nat) : (State.stopCtx s slot).mem = s.mem := by
  unfold State.stopCtx
  grind [State.relaunch_mem, State.setCore_mem, foldl_canon, foldl_mem]
theorem State.migout_canon (s : State) (slot ptr : Nat) (h : Memory.wf s.mem = true) : Memory.wf (State.migout s slot ptr).2.mem = true := by
  unfold State.migout
  grind [State.evictCtx_canon, State.flushCore_canon, State.relaunch_mem, State.saveBlock_mem, State.stopCtx_mem, State.useFree_mem, done_mem, foldl_canon, foldl_mem]
theorem execMigout_canon (slot : BitVec 10) (arg : BitVec 46) (ptr : BitVec 64) (s : State) (h : Memory.wf s.mem = true) {t : State} (ht : execMigout slot arg ptr s = .next t) : Memory.wf t.mem = true := by
  unfold execMigout at ht
  grind [State.command_canon, State.live_canon, State.migout_canon]
theorem State.regrant_canon (s : State) (slot : Nat) (x0 : List (Nat × VcEntry)) (h : Memory.wf s.mem = true) {t : State} (ht : State.regrant s slot x0 = some t) : Memory.wf t.mem = true := by
  fun_induction State.regrant s slot x0 <;> grind [State.putVc_canon]
theorem State.migin_canon (s : State) (slot ptr : Nat) (h : Memory.wf s.mem = true) : Memory.wf (State.migin s slot ptr).2.mem = true := by
  unfold State.migin
  dsimp only
  repeat' split
  all_goals first
    | exact h
    | skip
  next heq =>
    have hr := State.regrant_canon _ _ _ (by exact h) heq
    refine foldl_canon _ (fun s x hs => ?_) _ _ hr
    grind [State.failLaunch_mem, State.askRes_canon]
theorem execMigin_canon (slot : BitVec 10) (arg : BitVec 46) (ptr : BitVec 64) (s : State) (h : Memory.wf s.mem = true) {t : State} (ht : execMigin slot arg ptr s = .next t) : Memory.wf t.mem = true := by
  unfold execMigin at ht
  grind [State.command_canon, State.migin_canon]
theorem State.go_mem (s : State) : (State.go s).mem = s.mem := by
  unfold State.go
  grind []
theorem State.fabctl_canon (s : State) (v : DWord) (h : Memory.wf s.mem = true) : Memory.wf (State.fabctl s v).mem = true := by
  unfold State.fabctl
  grind [State.clearLost_mem, State.fabricEnable_canon, State.setFab_mem, State.useFree_mem]
theorem State.writeReg_canon (s : State) (off : Nat) (v : DWord) (h : Memory.wf s.mem = true) : Memory.wf (State.writeReg s off v).mem = true := by
  unfold State.writeReg
  dsimp only
  have hp := State.packageReset_canon s h
  have hf := State.fabctl_canon s v h
  have hg : Memory.wf s.go.mem = true := by rw [State.go_mem]; exact h
  have hq : ∀ x, Memory.wf (s.useFree.setPwrlim x).mem = true := fun x => by rw [State.setPwrlim_mem]; exact h
  repeat' first
    | exact h
    | exact hq _
    | assumption
    | apply canon_ite
theorem execRegisterWrite_canon (off : BitVec 20) (v : BitVec 64) (s : State) (h : Memory.wf s.mem = true) {t : State} (ht : execRegisterWrite off v s = .next t) : Memory.wf t.mem = true := by
  unfold execRegisterWrite at ht
  grind [State.writeReg_canon]

end Sys2Proof.Machine
end

