-- ==== Sys2Proof/Laws/CanonTiming.lean ====
section
/-! SUPPORT. What the operations of Machine/Timing.lean do to memory: nothing, or they keep its canonical form. -/

set_option Elab.async false

namespace Sys2Proof.Machine

theorem State.clearDue_mem (s : State) : (State.clearDue s).mem = s.mem := by
  unfold State.clearDue
  grind []
theorem State.clauseEnds_mem (s : State) (g : Group) (n : Nat) : (State.clauseEnds s g n).mem = s.mem := by
  unfold State.clauseEnds
  grind [State.modBlock_mem]
theorem State.pace_mem (s : State) (g : Group) (k : Block) (i : Instr) : (State.pace s g k i).mem = s.mem := by
  unfold State.pace
  grind [State.clauseEnds_mem]
theorem State.paceSeq_mem (s : State) (c : CoreRef) (kd : SeqKind) (was : Sequencer) (i : Instr) : (State.paceSeq s c kd was i).mem = s.mem := by
  unfold State.paceSeq
  grind [State.setSq_mem]

end Sys2Proof.Machine
end

