-- ==== Sys2Proof/Laws/CanonSchedule.lean ====
section
/-! SUPPORT. What the operations of Machine/Schedule.lean do to memory: nothing, or they keep its canonical form. -/

set_option Elab.async false

namespace Sys2Proof.Machine

theorem State.tick_mem (s : State) : (State.tick s).mem = s.mem := by
  unfold State.tick
  grind [State.useFree_mem]
theorem State.settle_canon (s : State) (h : Memory.wf s.mem = true) : Memory.wf (State.settle s).mem = true := by
  unfold State.settle
  grind [State.settleCaches_mem, State.settleDrains_mem, State.settleEnds_mem, State.settleLater_mem, State.settleLinks_mem, State.settleNarrows_canon, State.settlePower_mem, State.settleRings_canon, State.settleSaves_mem, State.settleSeqs_mem, State.settleThreads_canon]
theorem State.after_canon (s : State) (h : Memory.wf s.mem = true) : Memory.wf (State.after s).mem = true := by
  unfold State.after
  grind [State.settle_canon, State.tick_mem]

end Sys2Proof.Machine
end

