-- ==== Sys2Proof/Laws/CanonStep.lean ====
section
/-! SUPPORT. What the operations of Machine/Step.lean do to memory: nothing, or they keep its canonical form. -/

set_option Elab.async false

namespace Sys2Proof.Machine

theorem State.withFetchWord_canon (s : State) (_nbits w : Nat) (h : Memory.wf s.mem = true) : Memory.wf (State.withFetchWord s _nbits w).mem = true := by
  unfold State.withFetchWord
  grind [Env.mesh_canon, State.setSq_mem]

end Sys2Proof.Machine
end

