-- ==== Sys2Proof/Laws/Issue.lean ====
section
/-! SUPPORT. What the issue of an instruction does: the end of an instruction only moves the flow of control on, and one law for each way
of issuing (Machine/Operands.lean, Machine/Mem.lean). -/

set_option Elab.async false

namespace Sys2Proof.Machine
open Sys2Proof.Safety

theorem stillThread_default : stillThread {} = {} := rfl
theorem stillThread_goto {t : Thread} (pc : DWord) (cyc : Nat) (h : t.status = .issuing ∨ t.status = .ready ∨ ∃ f, t.status = .waiting (.killf f)) :
    stillThread (t.goto pc cyc) = stillThread t := by
  rcases h with h | h | ⟨f, h⟩ <;> simp [stillThread, Thread.goto, h]
theorem lset_map {α β : Type} (f : α → β) (l : List α) (n : Nat) (v : α) : (lset l n v).map f = lset (l.map f) n (f v) := by
  induction l generalizing n with
  | nil => rfl
  | cons x r ih => cases n <;> simp [lset, ih]
theorem lget_map {α β : Type} (f : α → β) (l : List α) (n : Nat) : lget (l.map f) n = (lget l n).map f := by
  induction l generalizing n with
  | nil => rfl
  | cons x r ih => cases n <;> simp [lget, ih]
theorem lset_self {α : Type} (l : List α) (n : Nat) (v : α) (h : lget l n = some v) : lset l n v = l := by
  induction l generalizing n with
  | nil => rfl
  | cons x r ih => cases n <;> grind [lset, lget]
theorem lset_none {α : Type} (l : List α) (n : Nat) (v : α) (h : lget l n = none) : lset l n v = l := by
  induction l generalizing n with
  | nil => rfl
  | cons x r ih => cases n <;> grind [lset, lget]
/-- A change of a thread that keeps its still part keeps the block's. -/
theorem stillBlock_modThread (k : Block) (tl : Nat) (f : Thread → Thread) (h : stillThread (f (k.thread tl)) = stillThread (k.thread tl)) :
    stillBlock (k.modThread tl f) = stillBlock k := by
  simp only [stillBlock, Block.modThread, lset_map, h]
  congr 1
  cases e : lget k.threads tl with
  | none => exact lset_none _ _ _ (by rw [lget_map, e]; rfl)
  | some t => exact lset_self _ _ _ (by rw [lget_map, e]; simp [Block.thread, e])
theorem map_bmod_of_same {β : Type} (st : Block → β) (b : Nat) (f : Block → Block) (l : List Block) (k : Block)
    (hk : l.find? (fun x => x.id == b) = some k) (h : st (f k) = st k) : (bmod b f l).map st = l.map st := by
  induction l with
  | nil => rfl
  | cons a r ih =>
    grind [bmod]
theorem bmod_none (b : Nat) (f : Block → Block) (l : List Block) (h : l.find? (fun x => x.id == b) = none) : bmod b f l = l := by
  induction l with
  | nil => rfl
  | cons a r ih => grind [bmod]
/-- A change of the first block b that keeps its still part keeps the state's. -/
theorem still_modBlock (s : State) (b : Nat) (f : Block → Block) (h : ∀ k, s.block b = some k → stillBlock (f k) = stillBlock k) :
    still (s.modBlock b f) = still s := by
  have e : (bmod b f s.blocks).map stillBlock = s.blocks.map stillBlock := by
    cases hk : s.block b with
    | none => rw [bmod_none b f _ hk]
    | some k => exact map_bmod_of_same stillBlock b f s.blocks k hk (h k hk)
  simp only [still, State.modBlock]
  rw [e]
theorem still_modThread (s : State) (b tl : Nat) (f : Thread → Thread)
    (h : stillThread (f (s.thread b tl)) = stillThread (s.thread b tl)) : still (s.modThread b tl f) = still s := by
  refine still_modBlock s b _ fun k hk => stillBlock_modThread k tl f ?_
  rwa [State.thread_of_block hk] at h
@[simp] theorem still_useFree (s : State) : still s.useFree = still s := rfl
theorem still_opens (s : State) (o : List Open) : still { s with opens := o } = still s := rfl
/-- Waking the KILLFs of a block is flow of control. -/
theorem still_killWake (s : State) (b : Nat) : still (s.killWake b) = still s := by
  refine still_modBlock s b _ fun k _ => ?_
  simp only [stillBlock, List.map_map]
  congr 1
  refine List.map_congr_left fun t _ => ?_
  simp only [Function.comp]
  split
  · split
    · rfl
    · exact stillThread_goto _ _ (.inr (.inr ⟨_, ‹_›⟩))
  · rfl
/-- The threads of a group at the end of its clause, none of them to be ended, only move on. -/
theorem still_endClause (s : State) (g : Group) (l : List (Nat × Nat))
    (h : ∀ p ∈ l, ((s.thread g.blk p.2).status = .issuing ∨ (s.thread g.blk p.2).status = .ready) ∧ (s.thread g.blk p.2).kill = false) :
    still (endClause s g l) = still s := by
  unfold endClause
  induction l generalizing s with
  | nil => rfl
  | cons p r ih =>
    rw [List.foldl_cons]
    have hp := h p (by simp)
    simp only [hp.2]
    refine (ih _ ?_).trans (still_modThread s _ _ _ (stillThread_goto _ _ (by grind)))
    intro q hq
    have hq := h q (by simp [hq])
    by_cases e : q.2 = p.2
    · rw [e]
      cases hk : s.block g.blk with
      | none => simp [State.thread, State.block_modThread_same, hk]
      | some k =>
        by_cases hl : p.2 < k.threads.length
        · simp only [Bool.false_eq_true, if_false]
          rw [State.thread_modThread_same _ hk hl]
          have := hp.2
          rw [State.thread_of_block hk] at this
          exact ⟨.inr rfl, this⟩
        · have hn : lget k.threads p.2 = none := by rw [lget_eq_getElem?]; simp; omega
          simp only [Bool.false_eq_true, if_false]
          have e2 : (s.modThread g.blk p.2 fun t => t.goto t.pc (s.quad k.core).cyc).thread g.blk p.2 = s.thread g.blk p.2 := by
            rw [State.thread, State.block_modThread_same, hk, State.thread_of_block hk]
            simp [Block.thread, Block.modThread, lset_none _ _ _ hn]
          rw [e2]; exact hp
    · simp only [Bool.false_eq_true, if_false]
      rw [State.thread_modThread_other _ _ _ _ _ _ (.inr e)]
      exact hq
theorem splitGroup_nil (s : State) (g : Group) : splitGroup s g [] = s := by
  simp only [splitGroup, nub, List.filterMap_nil, List.map_nil, List.foldl_nil, List.drop_nil, ite_self]
/-- An instruction that stops no thread only moves its group on. -/
theorem still_finishInstr (s : State) (g : Group) (h : ∀ p ∈ g.lanes, (s.thread g.blk p.2).status = .issuing → (s.thread g.blk p.2).kill = false) :
    still (finishInstr s g []) = still s := by
  unfold finishInstr
  simp only [splitGroup_nil, List.foldl_nil]
  split
  · split
    · split
      · rfl
      · split
        · rw [still_killWake, still_opens]
          refine (still_endClause _ _ _ ?_).trans (still_useFree s)
          intro p hp
          have h1 : (s.useFree.thread g.blk p.2).status.isIssuing = true := (List.mem_filter.mp hp).2
          have h2 : (s.thread g.blk p.2).status = .issuing := by
            have : (s.thread g.blk p.2).status.isIssuing = true := h1
            revert this
            cases (s.thread g.blk p.2).status <;> simp [TStatus.isIssuing]
          exact ⟨.inl h2, h p (List.mem_filter.mp hp).1 h2⟩
        · rfl
    · rfl
  · rfl

/-! ### Reading through the flow of control -/

theorem find_still (b : Nat) (l : List Block) :
    (l.map stillBlock).find? (fun x => x.id == b) = (l.find? fun x => x.id == b).map stillBlock := by
  rw [List.find?_map]; rfl
theorem block_still (s : State) (b : Nat) : (still s).block b = (s.block b).map stillBlock := find_still b s.blocks
theorem thread_stillBlock (k : Block) (tl : Nat) : (stillBlock k).thread tl = stillThread (k.thread tl) := by
  simp only [stillBlock, Block.thread, lget_map]
  cases lget k.threads tl <;> rfl
theorem thread_still (s : State) (b tl : Nat) : (still s).thread b tl = stillThread (s.thread b tl) := by
  rw [State.thread, block_still, State.thread]
  cases s.block b with
  | none => rfl
  | some k => exact thread_stillBlock k tl
theorem apart_still (s : State) : apart (still s) = apart s := by
  simp [apart, still, stillBlock, Function.comp_def]
/-- States that agree but for the flow of control agree on every thread, and apart from the threads. -/
theorem thread_of_still {s t : State} (h : still t = still s) (b tl : Nat) : stillThread (t.thread b tl) = stillThread (s.thread b tl) := by
  rw [← thread_still, h, thread_still]
theorem apart_of_still {s t : State} (h : still t = still s) : apart t = apart s := by
  rw [← apart_still, h, apart_still]
theorem mem_of_still {s t : State} (h : still t = still s) : t.mem = s.mem := congrArg (·.mem) h
theorem apart_modThread (s : State) (b tl : Nat) (f : Thread → Thread) : apart (s.modThread b tl f) = apart s := by
  have e : (s.modThread b tl f).blocks.map (fun k => ({ k with threads := [] } : Block)) = s.blocks.map fun k => ({ k with threads := [] } : Block) := by
    show (bmod b _ s.blocks).map _ = _
    induction s.blocks with
    | nil => rfl
    | cons a r ih => grind [bmod, Block.modThread]
  simp only [apart]
  rw [e]
  rfl

/-! ### Instructions that complete at issue -/

theorem srcStop_filter {i : Instr} {pred : BitVec 3} {pneg : Bool} {s : State} {g : Group} {k : Block} (h : Ready i pred pneg s g k) :
    (activeLanes k g pred pneg).filterMap (fun p => (srcStop s k i p.2).map fun st => (p, st)) = [] ∧
    (activeLanes k g pred pneg).filter (fun p => (srcStop s k i p.2).isNone) = activeLanes k g pred pneg := by
  constructor
  · rw [List.filterMap_eq_nil_iff]
    intro p hp
    simp [h.clean p hp]
  · rw [List.filter_eq_self]
    intro p hp
    simp [h.clean p hp]
theorem opens_of_front {s : State} {o : Open} (h : s.opens.head? = some o) : ∃ r, s.opens = o :: r := by
  cases e : s.opens with
  | nil => simp [e] at h
  | cons x r => rw [e] at h; exact ⟨r, by simpa using h⟩
theorem mem_lanes {k : Block} {g : Group} {pred : BitVec 3} {pneg : Bool} {p : Nat × Nat} (h : p ∈ activeLanes k g pred pneg) : p ∈ g.lanes :=
  (List.mem_filter.mp h).1
theorem find_lane {l : List (Nat × Nat)} (h : (l.map (·.2)).Nodup) {p : Nat × Nat} (hp : p ∈ l) :
    l.find? (fun q => q.2 == p.2) = some p := by
  induction l with
  | nil => cases hp
  | cons a r ih => grind
theorem lget_zipIdx_map {α β : Type} (f : α × Nat → β) (l : List α) (n m : Nat) :
    lget ((l.zipIdx m).map f) n = (lget l n).map fun x => f (x, m + n) := by
  rw [lget_eq_getElem?, lget_eq_getElem?, List.getElem?_map, List.getElem?_zipIdx]
  cases l[n]? <;> rfl
theorem kill_freeLast (i : Instr) (t : Thread) : (freeLast i t).kill = t.kill := by
  unfold freeLast
  generalize ((i.operands.filter fun o => o.isSrc && o.last).map (·.regs)).flatten = l
  induction l generalizing t with
  | nil => rfl
  | cons r l ih => rw [List.foldl_cons, ih]; rfl
theorem thread_aluBlock (i : Instr) (s : State) (g : Group) (k : Block) (ok : List (Nat × Nat)) (f : Env → Thread → Thread) (tl : Nat)
    (h : tl < k.threads.length) : (aluBlock i s g k ok f).thread tl = aluThread i s g k ok f tl (k.thread tl) := by
  simp only [aluBlock, Block.thread, lget_zipIdx_map]
  rw [lget_eq_getElem?, List.getElem?_eq_getElem h]
  simp
theorem thread_aluBlock_out (i : Instr) (s : State) (g : Group) (k : Block) (ok : List (Nat × Nat)) (f : Env → Thread → Thread) (tl : Nat)
    (h : ¬ tl < k.threads.length) : (aluBlock i s g k ok f).thread tl = k.thread tl := by
  simp only [aluBlock, Block.thread, lget_zipIdx_map]
  rw [lget_eq_getElem?, List.getElem?_eq_none (Nat.le_of_not_lt h)]
  rfl
theorem apart_setBlock {s : State} {k j : Block} (h : s.block k.id = some j) (e : ({ k with threads := [] } : Block) = { j with threads := [] }) :
    apart (s.setBlock k) = apart s := by
  have e : (s.setBlock k).blocks.map (fun k => ({ k with threads := [] } : Block)) = s.blocks.map fun k => ({ k with threads := [] } : Block) :=
    map_bmod_of_same _ _ _ s.blocks j h e
  simp only [apart]
  rw [e]
  rfl
/-- What an instruction of `issueAlu` does (spec/05_core_integer.md R149). -/
theorem issueAlu_computes (i : Instr) (pred : BitVec 3) (pneg : Bool) (f : Env → Thread → Thread)
    (he : ∀ s, exec i s = issueAlu i pred pneg f s) (hf : ∀ e t, (f e t).kill = t.kill) : Computes i pred pneg f := by
  intro s g k h
  obtain ⟨rest, ho⟩ := opens_of_front h.front
  have hs := srcStop_filter h
  have hid : k.id = g.blk := State.block_id h.block
  let act := activeLanes k g pred pneg
  let s1 := s.setBlock (aluBlock i s g k act f)
  have hx : exec i s = .next (finishInstr s1 g []) := by
    rw [he]
    simp only [issueAlu, ho, h.block, hs.1, hs.2]
    rfl
  have hk1 : s1.block g.blk = some (aluBlock i s g k act f) := by
    have := State.block_setBlock_same (s := s) (k := aluBlock i s g k act f) (j := k) (by show s.block k.id = _; rw [hid]; exact h.block)
    rw [← hid]; exact this
  have hkill : ∀ p ∈ g.lanes, (s1.thread g.blk p.2).kill = false := by
    intro p hp
    rw [State.thread_of_block hk1, thread_aluBlock _ _ _ _ _ _ _ (h.inBlock p hp)]
    unfold aluThread
    split
    · rw [hf, kill_freeLast]; exact h.unkilled p hp
    · exact h.unkilled p hp
  have hst : still (finishInstr s1 g []) = still s1 := still_finishInstr s1 g fun p hp _ => hkill p hp
  refine ⟨_, hx, ?_, ?_, ?_⟩
  · intro p hp
    rw [thread_of_still hst, State.thread_of_block hk1, thread_aluBlock _ _ _ _ _ _ _ (h.inBlock p (mem_lanes hp))]
    have hn : (act.map (·.2)).Nodup := by
      refine List.Nodup.sublist ?_ h.once
      exact List.Sublist.map _ List.filter_sublist
    simp only [aluThread, find_lane hn hp]
    rfl
  · intro b tl hb
    rw [thread_of_still hst]
    by_cases e : b = g.blk
    · subst e
      have hn : tl ∉ act.map (·.2) := hb.resolve_left fun x => x rfl
      rw [State.thread_of_block hk1, State.thread_of_block h.block]
      by_cases hl : tl < k.threads.length
      · rw [thread_aluBlock _ _ _ _ _ _ _ hl]
        have : act.find? (fun p => p.2 == tl) = none := by
          rw [List.find?_eq_none]
          intro p hp e
          exact hn (by rw [← (by simpa using e : p.2 = tl)]; exact List.mem_map_of_mem hp)
        simp only [aluThread, this]
      · rw [thread_aluBlock_out _ _ _ _ _ _ _ hl]
    · have : s1.block b = s.block b := State.block_setBlock_other s _ b (by show b ≠ k.id; rw [hid]; exact e)
      simp only [State.thread, this]
  · rw [apart_of_still hst]
    exact apart_setBlock (j := k) (by show s.block k.id = _; rw [hid]; exact h.block) rfl

/-! ### Instructions that act lane by lane -/

theorem slotFull_of_room {k : Block} {l : List (Nat × Nat)} {sb : Option Nat} (h : Room sb k l) : slotFull k l sb = false := by
  cases sb with
  | none => rfl
  | some n =>
    simp only [slotFull, List.any_eq_false, decide_eq_true_eq]
    intro p hp
    exact Nat.not_le.mpr (h n rfl p hp)
/-- Lanes that all go on leave what their effects make of the state, and no stop. -/
theorem runLanes_ok {i : Instr} {s0 : State} {g : Group} {k : Block} {parts : List (Nat × Nat)} {lane : Env → State → LaneOut}
    {ok : Env → State → Prop} {eff : Env → State → State} (hl : ∀ e s, ok e s → lane e s = (eff e s, none)) (l : List (Nat × Nat)) (s : State)
    (h : LanesOk i k (fun p => ⟨s0, g, k, p.1, p.2, k.thread p.2, parts⟩) ok eff l s) :
    runLanes i s0 g k parts lane l s = (afterLanes i k (fun p => ⟨s0, g, k, p.1, p.2, k.thread p.2, parts⟩) eff l s, []) := by
  induction l generalizing s with
  | nil => rfl
  | cons p r ih =>
    have e := hl _ _ h.1
    simp only [atIssue] at e
    simp only [runLanes, e]
    exact ih _ h.2
/-- An instruction of `issue` completes when its lanes go on (spec/02_execution.md R33). -/
theorem completes_of_issue {i : Instr} {pred : BitVec 3} {pneg : Bool} {sb : Option Nat} {lane : Env → State → LaneOut}
    {ok : Env → State → Prop} {eff : Env → State → State} (he : ∀ s, exec i s = issue i pred pneg sb lane s)
    (hl : ∀ e s, ok e s → lane e s = (eff e s, none)) : Completes i pred pneg sb ok eff := by
  intro s g k h hr hok
  obtain ⟨rest, ho⟩ := opens_of_front h.front
  have hs := srcStop_filter h
  rw [he]
  simp only [issue, ho, h.block, slotFull_of_room hr, hs.1, hs.2, runLanes_ok hl _ _ hok]
  rfl
/-- What the issue of an instruction that commits stores reports is what its lanes' faults say. -/
theorem faults_eq (k : Block) (t : State) (l : List (Nat × Nat)) :
    (l.filter fun p => k.faulted (((t.block k.id).map (·.sbuf)).getD []) p.2 && (t.thread k.id p.2).status.isIssuing).filterMap
      (fun p => (sfStop (t.thread k.id p.2)).map fun st => (p, st)) = l.filterMap (faultOf k t) := by
  have hs : ∀ x : TStatus, x.isIssuing = true ↔ x = .issuing := by intro x; cases x <;> simp [TStatus.isIssuing]
  induction l with
  | nil => rfl
  | cons p r ih =>
    rw [List.filter_cons, List.filterMap_cons]
    have h2 := hs (t.thread k.id p.2).status
    by_cases c : k.faulted (((t.block k.id).map (·.sbuf)).getD []) p.2 = true ∧ (t.thread k.id p.2).status = .issuing
    · rw [if_pos (by simp [c.1, h2.mpr c.2]), List.filterMap_cons, ih]
      simp only [faultOf, c, and_self, if_true, sfStop, Option.map_map]
      rfl
    · have h3 : (k.faulted (((t.block k.id).map (·.sbuf)).getD []) p.2 && (t.thread k.id p.2).status.isIssuing) = false := by
        rw [Bool.and_eq_false_iff, ← Bool.not_eq_true, ← Bool.not_eq_true, h2]
        exact not_and_or.mp c
      simp only [h3, Bool.false_eq_true, if_false, faultOf, c]
      exact ih
theorem insStop_mem (x y : (Nat × Nat) × Stop) (l : List ((Nat × Nat) × Stop)) (h : y ∈ insStop x l) : y = x ∨ y ∈ l := by
  induction l with
  | nil => simpa [insStop] using h
  | cons a r ih =>
    unfold insStop at h
    grind
theorem foldIns_mem (f l : List ((Nat × Nat) × Stop)) (y : (Nat × Nat) × Stop) (h : y ∈ f.foldl (fun l x => insStop x l) l) : y ∈ f ∨ y ∈ l := by
  induction f generalizing l with
  | nil => exact .inr h
  | cons a r ih => grind [insStop_mem]
/-- A held commit holds the whole group; stops that are traps hold nobody (spec/07_core_memory.md R230). -/
theorem holdAll_faults (g : Group) (k : Block) (t : State) (l : List (Nat × Nat)) : holdAll g (faultsOf k t l) = faultsOf k t l := by
  have : (faultsOf k t l).any (fun x => x.2 == .hold) = false := by
    rw [List.any_eq_false]
    intro x hx
    rcases foldIns_mem _ _ _ hx with h | h
    · obtain ⟨p, _, hp⟩ := List.mem_filterMap.mp h
      unfold faultOf at hp
      split at hp
      · obtain ⟨v, _, rfl⟩ := Option.map_eq_some_iff.mp hp
        simp
      · cases hp
    · cases h
  simp only [holdAll, this, Bool.false_eq_true, if_false]
/-- An instruction of `issueCommit` completes when its lanes go on; the store faults that its commits find follow it
(spec/09_core_traps.md R261). -/
theorem completes_of_issueCommit {i : Instr} {pred : BitVec 3} {pneg : Bool} {sb : Option Nat} {lane : Env → State → LaneOut}
    {ok : Env → State → Prop} {eff : Env → State → State} {all : Bool} (he : ∀ s, exec i s = issueCommit i pred pneg sb lane s all)
    (hl : ∀ e s, ok e s → lane e s = (eff e s, none)) : CompletesCommit i pred pneg sb ok eff := by
  intro s g k h hr hok
  obtain ⟨rest, ho⟩ := opens_of_front h.front
  have hs := srcStop_filter h
  rw [he]
  simp only [issueCommit, ho, h.block, slotFull_of_room hr, hs.1, hs.2]
  rw [runLanes_ok hl _ _ hok]
  have e := faults_eq k (afterLanes i k (laneEnv pred pneg s g k) eff (activeLanes k g pred pneg) s) (activeLanes k g pred pneg)
  have hl : laneEnv pred pneg s g k = fun p => ⟨s, g, k, p.1, p.2, k.thread p.2, activeLanes k g pred pneg⟩ := rfl
  have hh := holdAll_faults g k (afterLanes i k (laneEnv pred pneg s g k) eff (activeLanes k g pred pneg) s) (activeLanes k g pred pneg)
  simp only [faultsOf] at hh
  rw [hl] at e hh ⊢
  simp only [List.any_nil, Bool.not_false, Bool.true_and, List.nil_append, e, Bool.false_eq_true, if_false]
  simp only [faultsOf]
  cases all
  · rfl
  · simp only [if_true, hh]
/-- What one lane of an instruction of `issueCommit` that stops leaves. -/
theorem issueCommit_stop {i : Instr} {pred : BitVec 3} {pneg : Bool} {sb : Option Nat} {lane : Env → State → LaneOut} {all : Bool}
    (he : ∀ s, exec i s = issueCommit i pred pneg sb lane s all) {s : State} {g : Group} {k : Block} {p : Nat × Nat} {u : State} {st : Stop}
    (h : Alone i pred pneg s g k p) (hr : Room sb k [p]) (hl : lane (laneEnv pred pneg s g k p) (atIssue i s k p) = (u, some st))
    (ha : all = true → st ≠ .hold) :
    exec i s = .next (finishInstr (match (generalizing := false) st with
      | .trap _ _ _ true _ => u
      | _ => u.modThread k.id p.2 fun t => { t with regs := (k.thread p.2).regs }) g [(p, st)]) := by
  obtain ⟨rest, ho⟩ := opens_of_front h.front
  have hs := srcStop_filter h.toReady
  rw [h.alone] at hs
  unfold laneEnv at hl
  rw [h.alone] at hl
  simp only [atIssue] at hl
  rw [he]
  simp only [issueCommit, ho, h.block, h.alone, slotFull_of_room hr, hs.1, hs.2, runLanes, hl]
  have hh : (if all then holdAll g [(p, st)] else [(p, st)]) = [(p, st)] := by
    cases all with
    | false => rfl
    | true =>
      have := ha rfl
      have : (st == .hold) = false := by simpa using this
      simp [holdAll, this]
  simp only [List.any_cons, List.any_nil, beq_self_eq_true, Bool.true_or, Bool.not_true, Bool.false_and, Bool.false_eq_true, if_false,
    List.filter_cons, List.filter_nil, List.filterMap_nil, List.append_nil, List.foldl_nil, hh]
  cases st with
  | trap c d a after dfl => cases after <;> rfl
  | park a b => rfl
  | hold => rfl
theorem stopsOne_of_issueCommit {i : Instr} {pred : BitVec 3} {pneg : Bool} {sb : Option Nat} {lane : Env → State → LaneOut}
    {ok : Env → State → Prop} {st : Env → State → Stop} {eff : Env → State → State} {all : Bool}
    (he : ∀ s, exec i s = issueCommit i pred pneg sb lane s all) (hl : ∀ e s, ok e s → lane e s = (eff e s, some (st e s)))
    (hn : ∀ e s, ok e s → (match st e s with
      | .trap _ _ _ after _ => after
      | _ => all && st e s == .hold) = false) : StopsOne i pred pneg sb ok st eff := by
  intro s g k p h hr hok
  have n := hn _ _ hok
  rw [issueCommit_stop he h hr (hl _ _ hok) (fun ha e => by rw [e, ha] at n; cases n)]
  revert n
  generalize st _ _ = x
  intro n
  cases x with
  | trap c d a after dfl => simp only at n; subst n; rfl
  | park a b => rfl
  | hold => rfl
theorem stopsDone_of_issueCommit {i : Instr} {pred : BitVec 3} {pneg : Bool} {sb : Option Nat} {lane : Env → State → LaneOut}
    {ok : Env → State → Prop} {st : Env → State → Stop} {eff : Env → State → State} {all : Bool}
    (he : ∀ s, exec i s = issueCommit i pred pneg sb lane s all) (hl : ∀ e s, ok e s → lane e s = (eff e s, some (st e s)))
    (hn : ∀ e s, ok e s → ∃ c d a dfl, st e s = .trap c d a true dfl) : StopsDone i pred pneg sb ok st eff := by
  intro s g k p h hr hok
  obtain ⟨c, d, a, dfl, n⟩ := hn _ _ hok
  rw [issueCommit_stop he h hr (hl _ _ hok) (fun _ e => by rw [n] at e; cases e), n]
/-- Lanes of an engine command that are all accepted leave what their effects make of the state, and no stop. -/
theorem runEng_ok {i : Instr} {s0 : State} {g : Group} {k : Block} {parts : List (Nat × Nat)} {lane : Env → State → Option LaneOut}
    {ok : Env → State → Prop} {eff : Env → State → State} (hl : ∀ e s, ok e s → lane e s = some (eff e s, none)) (l : List (Nat × Nat))
    (s : State) (h : LanesOk i k (fun p => ⟨s0, g, k, p.1, p.2, k.thread p.2, parts⟩) ok eff l s) :
    runEng i s0 g k parts lane l s =
      (afterLanes i k (fun p => ⟨s0, g, k, p.1, p.2, k.thread p.2, parts⟩) eff l s, [], l.map (·.2), false) := by
  induction l generalizing s with
  | nil => rfl
  | cons p r ih =>
    have e := hl _ _ h.1
    simp only [atIssue] at e
    have e2 := ih _ h.2
    simp only [atIssue] at e2
    simp only [runEng, e, e2]
    rfl
theorem srcStop_unserved {i : Instr} {pred : BitVec 3} {pneg : Bool} {s : State} {g : Group} {k : Block} (h : Ready i pred pneg s g k) :
    (unserved k g pred pneg).filterMap (fun p => (srcStop s k i p.2).map fun st => (p, st)) = [] ∧
    (unserved k g pred pneg).filter (fun p => (srcStop s k i p.2).isNone) = unserved k g pred pneg := by
  have hc : ∀ p ∈ unserved k g pred pneg, srcStop s k i p.2 = none := fun p hp => h.clean p (List.mem_filter.mp hp).1
  exact ⟨List.filterMap_eq_nil_iff.mpr fun p hp => by simp [hc p hp], List.filter_eq_self.mpr fun p hp => by simp [hc p hp]⟩
/-- An engine command completes when every lane still to be served is accepted (spec/11_copy.md R302). -/
theorem completes_of_issueEng {i : Instr} {pred : BitVec 3} {pneg : Bool} {lane : Env → State → Option LaneOut}
    {ok : Env → State → Prop} {eff : Env → State → State} (he : ∀ s, exec i s = issueEng i pred pneg lane s)
    (hl : ∀ e s, ok e s → lane e s = some (eff e s, none)) {s : State} {g : Group} {k : Block} (h : Ready i pred pneg s g k)
    (hok : LanesOk i k (laneEnv pred pneg s g k) ok eff (unserved k g pred pneg) s) :
    exec i s = .next (finishInstr (afterLanes i k (laneEnv pred pneg s g k) eff (unserved k g pred pneg) s) g []) := by
  obtain ⟨rest, ho⟩ := opens_of_front h.front
  have hs := srcStop_unserved h
  simp only [unserved] at hs hok ⊢
  rw [he]
  simp only [issueEng, ho, h.block, hs.1, hs.2]
  rw [runEng_ok hl _ _ hok]
  rfl
/-- While its first lane to be served finds the unit full, an engine command is held (spec/11_copy.md R302). -/
theorem held_of_issueEng {i : Instr} {pred : BitVec 3} {pneg : Bool} {lane : Env → State → Option LaneOut}
    (he : ∀ s, exec i s = issueEng i pred pneg lane s) {s : State} {g : Group} {k : Block} (h : Ready i pred pneg s g k) {p : Nat × Nat}
    {r : List (Nat × Nat)} (hu : unserved k g pred pneg = p :: r)
    (hl : lane (laneEnv pred pneg s g k p) (atIssue i s k p) = none) :
    exec i s = .next { s with opens := s.opens.tail ++ [.grp g] } := by
  obtain ⟨rest, ho⟩ := opens_of_front h.front
  have hs := srcStop_unserved h
  rw [hu] at hs
  simp only [unserved] at hu
  rw [he]
  simp only [issueEng, ho, h.block, hu, hs.1, hs.2]
  simp only [laneEnv, atIssue] at hl
  simp only [runEng, hl, if_true, List.append_nil, List.tail_cons]
/-- What an engine command does with one lane that stops. -/
theorem stopsOne_of_issueEng {i : Instr} {pred : BitVec 3} {pneg : Bool} {lane : Env → State → Option LaneOut} {ok : Env → State → Prop}
    {st : Env → State → Stop} (he : ∀ s, exec i s = issueEng i pred pneg lane s) (hp : ∀ e s, ok e s → e.g.part.contains e.tl = false)
    (hl : ∀ e s, ok e s → lane e s = some (s, some (st e s))) : StopsOne i pred pneg none ok st fun _ s => s := by
  intro s g k p h _ hok
  obtain ⟨rest, ho⟩ := opens_of_front h.front
  have hu : unserved k g pred pneg = [p] := by
    rw [unserved, h.alone]
    exact List.filter_eq_self.mpr fun q hq => by
      rw [List.mem_singleton.mp hq, show g.part.contains p.2 = false from hp _ _ hok]; rfl
  have hs := srcStop_unserved h.toReady
  rw [hu] at hs
  simp only [unserved] at hu
  have e := hl _ _ hok
  rw [he]
  simp only [issueEng, ho, h.block, hu, hs.1, hs.2]
  unfold laneEnv at e ⊢
  rw [h.alone] at e ⊢
  simp only [atIssue] at e ⊢
  simp only [runEng, e, List.foldl_nil]
  rfl
/-- What an instruction of `issue` does with one lane that stops. -/
theorem stopsOne_of_issue {i : Instr} {pred : BitVec 3} {pneg : Bool} {sb : Option Nat} {lane : Env → State → LaneOut} {ok : Env → State → Prop}
    {st : Env → State → Stop} {eff : Env → State → State} (he : ∀ s, exec i s = issue i pred pneg sb lane s)
    (hl : ∀ e s, ok e s → lane e s = (eff e s, some (st e s)))
    (hn : ∀ e s, ok e s → (match st e s with
      | .trap _ _ _ after _ => after
      | _ => false) = false) : StopsOne i pred pneg sb ok st eff := by
  intro s g k p h hr hok
  obtain ⟨rest, ho⟩ := opens_of_front h.front
  have hs := srcStop_filter h.toReady
  rw [h.alone] at hs
  have e := hl _ _ hok
  have n := hn _ _ hok
  rw [he]
  simp only [issue, ho, h.block, h.alone, slotFull_of_room hr, hs.1, hs.2]
  have hq : ∀ (st : Stop) (u : State), lane (laneEnv pred pneg s g k p) (atIssue i s k p) = (u, some st) →
      (match st with
        | .trap _ _ _ after _ => after
        | _ => false) = false →
      runLanes i s g k [p] lane [p] s = (u.modThread k.id p.2 fun t => { t with regs := (k.thread p.2).regs }, [(p, st)]) := by
    intro st u hu hn
    unfold laneEnv at hu
    rw [h.alone] at hu
    simp only [atIssue] at hu
    simp only [runLanes, hu]
    cases st with
    | trap c d a after dfl =>
      dsimp only at hn
      subst hn
      rfl
    | park a b => rfl
    | hold => rfl
  rw [hq _ _ e n]
  rfl
end Sys2Proof.Machine
end

