-- ==== Sys2Proof/Laws/PerInstr.lean ====
section
/-! SUPPORT. The decoder reads back what the encoder writes: the fields of each format, and one lemma for each constructor (families
RoundTrip and OneWord of LAWS.json). -/

set_option Elab.async false

namespace Sys2Proof

/-! ### Fields of each format -/

theorem ofBool_getLsbD {n : Nat} (w : BitVec n) (i : Nat) : BitVec.ofBool (w.getLsbD i) = w.extractLsb' i 1 := by
  apply BitVec.eq_of_getLsbD_eq
  intro j hj
  obtain rfl : j = 0 := by omega
  simp
theorem opcode_encodeFA (o : BitVec 8) (f : FA) : (encodeFA o f).extractLsb' 56 8 = o := by
  simp (disch := decide) only [encodeFA, BitVec.extractLsb'_append_eq_of_le, Nat.reduceSub, BitVec.extractLsb'_eq_self]
theorem decodeFA_encodeFA (o : BitVec 8) (f : FA) : decodeFA (encodeFA o f) = f := by
  cases f
  simp (disch := decide) only [decodeFA, encodeFA, BitVec.extractLsb'_append_eq_of_le, BitVec.extractLsb'_append_eq_of_add_le,
    Nat.reduceSub, BitVec.extractLsb'_eq_self, BitVec.getLsbD_append, Nat.reduceLT, if_true, if_false]
  simp
theorem encodeFA_decodeFA (w : DWord) : encodeFA (w.extractLsb' 56 8) (decodeFA w) = w := by
  simp (disch := rfl) only [encodeFA, decodeFA, ofBool_getLsbD, BitVec.extractLsb'_append_extractLsb'_eq_extractLsb']
  exact BitVec.extractLsb'_eq_self

theorem opcode_encodeFI (o : BitVec 8) (f : FI) : (encodeFI o f).extractLsb' 56 8 = o := by
  simp (disch := decide) only [encodeFI, BitVec.extractLsb'_append_eq_of_le, Nat.reduceSub, BitVec.extractLsb'_eq_self]
theorem decodeFI_encodeFI (o : BitVec 8) (f : FI) : decodeFI (encodeFI o f) = f := by
  cases f
  simp (disch := decide) only [decodeFI, encodeFI, BitVec.extractLsb'_append_eq_of_le, BitVec.extractLsb'_append_eq_of_add_le,
    Nat.reduceSub, BitVec.extractLsb'_eq_self, BitVec.getLsbD_append, Nat.reduceLT, if_true, if_false]
  simp
theorem encodeFI_decodeFI (w : DWord) : encodeFI (w.extractLsb' 56 8) (decodeFI w) = w := by
  simp (disch := rfl) only [encodeFI, decodeFI, ofBool_getLsbD, BitVec.extractLsb'_append_extractLsb'_eq_extractLsb']
  exact BitVec.extractLsb'_eq_self

theorem opcode_encodeFM (o : BitVec 8) (f : FM) : (encodeFM o f).extractLsb' 56 8 = o := by
  simp (disch := decide) only [encodeFM, BitVec.extractLsb'_append_eq_of_le, Nat.reduceSub, BitVec.extractLsb'_eq_self]
theorem decodeFM_encodeFM (o : BitVec 8) (f : FM) : decodeFM (encodeFM o f) = f := by
  cases f
  simp (disch := decide) only [decodeFM, encodeFM, BitVec.extractLsb'_append_eq_of_le, BitVec.extractLsb'_append_eq_of_add_le,
    Nat.reduceSub, BitVec.extractLsb'_eq_self, BitVec.getLsbD_append, Nat.reduceLT, if_true, if_false]
  simp
theorem encodeFM_decodeFM (w : DWord) : encodeFM (w.extractLsb' 56 8) (decodeFM w) = w := by
  simp (disch := rfl) only [encodeFM, decodeFM, ofBool_getLsbD, BitVec.extractLsb'_append_extractLsb'_eq_extractLsb']
  exact BitVec.extractLsb'_eq_self

theorem opcode_encodeFB (o : BitVec 8) (f : FB) : (encodeFB o f).extractLsb' 56 8 = o := by
  simp (disch := decide) only [encodeFB, BitVec.extractLsb'_append_eq_of_le, Nat.reduceSub, BitVec.extractLsb'_eq_self]
theorem decodeFB_encodeFB (o : BitVec 8) (f : FB) : decodeFB (encodeFB o f) = f := by
  cases f
  simp (disch := decide) only [decodeFB, encodeFB, BitVec.extractLsb'_append_eq_of_le, BitVec.extractLsb'_append_eq_of_add_le,
    Nat.reduceSub, BitVec.extractLsb'_eq_self, BitVec.getLsbD_append, Nat.reduceLT, if_true, if_false]
  simp
theorem encodeFB_decodeFB (w : DWord) : encodeFB (w.extractLsb' 56 8) (decodeFB w) = w := by
  simp (disch := rfl) only [encodeFB, decodeFB, ofBool_getLsbD, BitVec.extractLsb'_append_extractLsb'_eq_extractLsb']
  exact BitVec.extractLsb'_eq_self

theorem opcode_encodeFX (o : BitVec 8) (f : FX) : (encodeFX o f).extractLsb' 56 8 = o := by
  simp (disch := decide) only [encodeFX, BitVec.extractLsb'_append_eq_of_le, Nat.reduceSub, BitVec.extractLsb'_eq_self]
theorem decodeFX_encodeFX (o : BitVec 8) (f : FX) : decodeFX (encodeFX o f) = f := by
  cases f
  simp (disch := decide) only [decodeFX, encodeFX, BitVec.extractLsb'_append_eq_of_le, BitVec.extractLsb'_append_eq_of_add_le,
    Nat.reduceSub, BitVec.extractLsb'_eq_self, BitVec.getLsbD_append, Nat.reduceLT, if_true, if_false]
  simp
theorem encodeFX_decodeFX (w : DWord) : encodeFX (w.extractLsb' 56 8) (decodeFX w) = w := by
  simp (disch := rfl) only [encodeFX, decodeFX, ofBool_getLsbD, BitVec.extractLsb'_append_extractLsb'_eq_extractLsb']
  exact BitVec.extractLsb'_eq_self

theorem opcode_encodeFS (o : BitVec 8) (f : FS) : (encodeFS o f).extractLsb' 56 8 = o := by
  simp (disch := decide) only [encodeFS, BitVec.extractLsb'_append_eq_of_le, Nat.reduceSub, BitVec.extractLsb'_eq_self]
theorem decodeFS_encodeFS (o : BitVec 8) (f : FS) : decodeFS (encodeFS o f) = f := by
  cases f
  simp (disch := decide) only [decodeFS, encodeFS, BitVec.extractLsb'_append_eq_of_le, BitVec.extractLsb'_append_eq_of_add_le,
    Nat.reduceSub, BitVec.extractLsb'_eq_self]
theorem encodeFS_decodeFS (w : DWord) : encodeFS (w.extractLsb' 56 8) (decodeFS w) = w := by
  simp (disch := rfl) only [encodeFS, decodeFS, BitVec.extractLsb'_append_extractLsb'_eq_extractLsb']
  exact BitVec.extractLsb'_eq_self

/-- The decoder of class c reads a well-formed instruction i from the word w that the encoder writes for i. -/
def Laws.RoundTrip.Statement (i : Instr) : Prop :=
  i.wellFormed = true → ∀ c w, encode i = some (c, w) → decodeRaw c w = some i
/-- Exactly the instructions have a word; a device event has none. -/
def Laws.OneWord.Statement (i : Instr) : Prop := (encode i).isSome = !i.isEvent

/-! ### One lemma for each constructor -/

theorem Laws.RoundTrip.nop (f : FA) : Laws.RoundTrip.Statement (.nop f) := by
  rintro - _ _ ⟨⟩
  simp only [decodeRaw, opcode_encodeFA]
  exact congrArg (fun x => some (Instr.nop x)) (decodeFA_encodeFA _ f)
theorem Laws.OneWord.nop (f : FA) : Laws.OneWord.Statement (.nop f) := rfl
theorem Laws.RoundTrip.mov (f : FA) : Laws.RoundTrip.Statement (.mov f) := by
  rintro - _ _ ⟨⟩
  simp only [decodeRaw, opcode_encodeFA]
  exact congrArg (fun x => some (Instr.mov x)) (decodeFA_encodeFA _ f)
theorem Laws.OneWord.mov (f : FA) : Laws.OneWord.Statement (.mov f) := rfl
theorem Laws.RoundTrip.movi (f : FI) : Laws.RoundTrip.Statement (.movi f) := by
  rintro - _ _ ⟨⟩
  simp only [decodeRaw, opcode_encodeFI]
  exact congrArg (fun x => some (Instr.movi x)) (decodeFI_encodeFI _ f)
theorem Laws.OneWord.movi (f : FI) : Laws.OneWord.Statement (.movi f) := rfl
theorem Laws.RoundTrip.movk (f : FA) : Laws.RoundTrip.Statement (.movk f) := by
  rintro - _ _ ⟨⟩
  simp only [decodeRaw, opcode_encodeFA]
  exact congrArg (fun x => some (Instr.movk x)) (decodeFA_encodeFA _ f)
theorem Laws.OneWord.movk (f : FA) : Laws.OneWord.Statement (.movk f) := rfl
theorem Laws.RoundTrip.iadd (f : FA) : Laws.RoundTrip.Statement (.iadd f) := by
  rintro - _ _ ⟨⟩
  simp only [decodeRaw, opcode_encodeFA]
  exact congrArg (fun x => some (Instr.iadd x)) (decodeFA_encodeFA _ f)
theorem Laws.OneWord.iadd (f : FA) : Laws.OneWord.Statement (.iadd f) := rfl
theorem Laws.RoundTrip.iaddI (f : FI) : Laws.RoundTrip.Statement (.iaddI f) := by
  rintro - _ _ ⟨⟩
  simp only [decodeRaw, opcode_encodeFI]
  exact congrArg (fun x => some (Instr.iaddI x)) (decodeFI_encodeFI _ f)
theorem Laws.OneWord.iaddI (f : FI) : Laws.OneWord.Statement (.iaddI f) := rfl
theorem Laws.RoundTrip.isub (f : FA) : Laws.RoundTrip.Statement (.isub f) := by
  rintro - _ _ ⟨⟩
  simp only [decodeRaw, opcode_encodeFA]
  exact congrArg (fun x => some (Instr.isub x)) (decodeFA_encodeFA _ f)
theorem Laws.OneWord.isub (f : FA) : Laws.OneWord.Statement (.isub f) := rfl
theorem Laws.RoundTrip.isubI (f : FI) : Laws.RoundTrip.Statement (.isubI f) := by
  rintro - _ _ ⟨⟩
  simp only [decodeRaw, opcode_encodeFI]
  exact congrArg (fun x => some (Instr.isubI x)) (decodeFI_encodeFI _ f)
theorem Laws.OneWord.isubI (f : FI) : Laws.OneWord.Statement (.isubI f) := rfl
theorem Laws.RoundTrip.imul (f : FA) : Laws.RoundTrip.Statement (.imul f) := by
  rintro - _ _ ⟨⟩
  simp only [decodeRaw, opcode_encodeFA]
  exact congrArg (fun x => some (Instr.imul x)) (decodeFA_encodeFA _ f)
theorem Laws.OneWord.imul (f : FA) : Laws.OneWord.Statement (.imul f) := rfl
theorem Laws.RoundTrip.imulI (f : FI) : Laws.RoundTrip.Statement (.imulI f) := by
  rintro - _ _ ⟨⟩
  simp only [decodeRaw, opcode_encodeFI]
  exact congrArg (fun x => some (Instr.imulI x)) (decodeFI_encodeFI _ f)
theorem Laws.OneWord.imulI (f : FI) : Laws.OneWord.Statement (.imulI f) := rfl
theorem Laws.RoundTrip.imulhi (f : FA) : Laws.RoundTrip.Statement (.imulhi f) := by
  rintro - _ _ ⟨⟩
  simp only [decodeRaw, opcode_encodeFA]
  exact congrArg (fun x => some (Instr.imulhi x)) (decodeFA_encodeFA _ f)
theorem Laws.OneWord.imulhi (f : FA) : Laws.OneWord.Statement (.imulhi f) := rfl
theorem Laws.RoundTrip.imad (f : FA) : Laws.RoundTrip.Statement (.imad f) := by
  rintro - _ _ ⟨⟩
  simp only [decodeRaw, opcode_encodeFA]
  exact congrArg (fun x => some (Instr.imad x)) (decodeFA_encodeFA _ f)
theorem Laws.OneWord.imad (f : FA) : Laws.OneWord.Statement (.imad f) := rfl
theorem Laws.RoundTrip.imadw (f : FA) : Laws.RoundTrip.Statement (.imadw f) := by
  rintro - _ _ ⟨⟩
  simp only [decodeRaw, opcode_encodeFA]
  exact congrArg (fun x => some (Instr.imadw x)) (decodeFA_encodeFA _ f)
theorem Laws.OneWord.imadw (f : FA) : Laws.OneWord.Statement (.imadw f) := rfl
theorem Laws.RoundTrip.iadd64 (f : FA) : Laws.RoundTrip.Statement (.iadd64 f) := by
  rintro - _ _ ⟨⟩
  simp only [decodeRaw, opcode_encodeFA]
  exact congrArg (fun x => some (Instr.iadd64 x)) (decodeFA_encodeFA _ f)
theorem Laws.OneWord.iadd64 (f : FA) : Laws.OneWord.Statement (.iadd64 f) := rfl
theorem Laws.RoundTrip.isub64 (f : FA) : Laws.RoundTrip.Statement (.isub64 f) := by
  rintro - _ _ ⟨⟩
  simp only [decodeRaw, opcode_encodeFA]
  exact congrArg (fun x => some (Instr.isub64 x)) (decodeFA_encodeFA _ f)
theorem Laws.OneWord.isub64 (f : FA) : Laws.OneWord.Statement (.isub64 f) := rfl
theorem Laws.RoundTrip.imin (f : FA) : Laws.RoundTrip.Statement (.imin f) := by
  rintro - _ _ ⟨⟩
  simp only [decodeRaw, opcode_encodeFA]
  exact congrArg (fun x => some (Instr.imin x)) (decodeFA_encodeFA _ f)
theorem Laws.OneWord.imin (f : FA) : Laws.OneWord.Statement (.imin f) := rfl
theorem Laws.RoundTrip.iminI (f : FI) : Laws.RoundTrip.Statement (.iminI f) := by
  rintro - _ _ ⟨⟩
  simp only [decodeRaw, opcode_encodeFI]
  exact congrArg (fun x => some (Instr.iminI x)) (decodeFI_encodeFI _ f)
theorem Laws.OneWord.iminI (f : FI) : Laws.OneWord.Statement (.iminI f) := rfl
theorem Laws.RoundTrip.imax (f : FA) : Laws.RoundTrip.Statement (.imax f) := by
  rintro - _ _ ⟨⟩
  simp only [decodeRaw, opcode_encodeFA]
  exact congrArg (fun x => some (Instr.imax x)) (decodeFA_encodeFA _ f)
theorem Laws.OneWord.imax (f : FA) : Laws.OneWord.Statement (.imax f) := rfl
theorem Laws.RoundTrip.imaxI (f : FI) : Laws.RoundTrip.Statement (.imaxI f) := by
  rintro - _ _ ⟨⟩
  simp only [decodeRaw, opcode_encodeFI]
  exact congrArg (fun x => some (Instr.imaxI x)) (decodeFI_encodeFI _ f)
theorem Laws.OneWord.imaxI (f : FI) : Laws.OneWord.Statement (.imaxI f) := rfl
theorem Laws.RoundTrip.iabs (f : FA) : Laws.RoundTrip.Statement (.iabs f) := by
  rintro - _ _ ⟨⟩
  simp only [decodeRaw, opcode_encodeFA]
  exact congrArg (fun x => some (Instr.iabs x)) (decodeFA_encodeFA _ f)
theorem Laws.OneWord.iabs (f : FA) : Laws.OneWord.Statement (.iabs f) := rfl
theorem Laws.RoundTrip.ineg (f : FA) : Laws.RoundTrip.Statement (.ineg f) := by
  rintro - _ _ ⟨⟩
  simp only [decodeRaw, opcode_encodeFA]
  exact congrArg (fun x => some (Instr.ineg x)) (decodeFA_encodeFA _ f)
theorem Laws.OneWord.ineg (f : FA) : Laws.OneWord.Statement (.ineg f) := rfl
theorem Laws.RoundTrip.logt (f : FA) : Laws.RoundTrip.Statement (.logt f) := by
  rintro - _ _ ⟨⟩
  simp only [decodeRaw, opcode_encodeFA]
  exact congrArg (fun x => some (Instr.logt x)) (decodeFA_encodeFA _ f)
theorem Laws.OneWord.logt (f : FA) : Laws.OneWord.Statement (.logt f) := rfl
theorem Laws.RoundTrip.and (f : FA) : Laws.RoundTrip.Statement (.and f) := by
  rintro - _ _ ⟨⟩
  simp only [decodeRaw, opcode_encodeFA]
  exact congrArg (fun x => some (Instr.and x)) (decodeFA_encodeFA _ f)
theorem Laws.OneWord.and (f : FA) : Laws.OneWord.Statement (.and f) := rfl
theorem Laws.RoundTrip.andI (f : FI) : Laws.RoundTrip.Statement (.andI f) := by
  rintro - _ _ ⟨⟩
  simp only [decodeRaw, opcode_encodeFI]
  exact congrArg (fun x => some (Instr.andI x)) (decodeFI_encodeFI _ f)
theorem Laws.OneWord.andI (f : FI) : Laws.OneWord.Statement (.andI f) := rfl
theorem Laws.RoundTrip.or (f : FA) : Laws.RoundTrip.Statement (.or f) := by
  rintro - _ _ ⟨⟩
  simp only [decodeRaw, opcode_encodeFA]
  exact congrArg (fun x => some (Instr.or x)) (decodeFA_encodeFA _ f)
theorem Laws.OneWord.or (f : FA) : Laws.OneWord.Statement (.or f) := rfl
theorem Laws.RoundTrip.orI (f : FI) : Laws.RoundTrip.Statement (.orI f) := by
  rintro - _ _ ⟨⟩
  simp only [decodeRaw, opcode_encodeFI]
  exact congrArg (fun x => some (Instr.orI x)) (decodeFI_encodeFI _ f)
theorem Laws.OneWord.orI (f : FI) : Laws.OneWord.Statement (.orI f) := rfl
theorem Laws.RoundTrip.xor (f : FA) : Laws.RoundTrip.Statement (.xor f) := by
  rintro - _ _ ⟨⟩
  simp only [decodeRaw, opcode_encodeFA]
  exact congrArg (fun x => some (Instr.xor x)) (decodeFA_encodeFA _ f)
theorem Laws.OneWord.xor (f : FA) : Laws.OneWord.Statement (.xor f) := rfl
theorem Laws.RoundTrip.xorI (f : FI) : Laws.RoundTrip.Statement (.xorI f) := by
  rintro - _ _ ⟨⟩
  simp only [decodeRaw, opcode_encodeFI]
  exact congrArg (fun x => some (Instr.xorI x)) (decodeFI_encodeFI _ f)
theorem Laws.OneWord.xorI (f : FI) : Laws.OneWord.Statement (.xorI f) := rfl
theorem Laws.RoundTrip.not (f : FA) : Laws.RoundTrip.Statement (.not f) := by
  rintro - _ _ ⟨⟩
  simp only [decodeRaw, opcode_encodeFA]
  exact congrArg (fun x => some (Instr.not x)) (decodeFA_encodeFA _ f)
theorem Laws.OneWord.not (f : FA) : Laws.OneWord.Statement (.not f) := rfl
theorem Laws.RoundTrip.shl (f : FA) : Laws.RoundTrip.Statement (.shl f) := by
  rintro - _ _ ⟨⟩
  simp only [decodeRaw, opcode_encodeFA]
  exact congrArg (fun x => some (Instr.shl x)) (decodeFA_encodeFA _ f)
theorem Laws.OneWord.shl (f : FA) : Laws.OneWord.Statement (.shl f) := rfl
theorem Laws.RoundTrip.shlI (f : FI) : Laws.RoundTrip.Statement (.shlI f) := by
  rintro - _ _ ⟨⟩
  simp only [decodeRaw, opcode_encodeFI]
  exact congrArg (fun x => some (Instr.shlI x)) (decodeFI_encodeFI _ f)
theorem Laws.OneWord.shlI (f : FI) : Laws.OneWord.Statement (.shlI f) := rfl
theorem Laws.RoundTrip.shr (f : FA) : Laws.RoundTrip.Statement (.shr f) := by
  rintro - _ _ ⟨⟩
  simp only [decodeRaw, opcode_encodeFA]
  exact congrArg (fun x => some (Instr.shr x)) (decodeFA_encodeFA _ f)
theorem Laws.OneWord.shr (f : FA) : Laws.OneWord.Statement (.shr f) := rfl
theorem Laws.RoundTrip.shrI (f : FI) : Laws.RoundTrip.Statement (.shrI f) := by
  rintro - _ _ ⟨⟩
  simp only [decodeRaw, opcode_encodeFI]
  exact congrArg (fun x => some (Instr.shrI x)) (decodeFI_encodeFI _ f)
theorem Laws.OneWord.shrI (f : FI) : Laws.OneWord.Statement (.shrI f) := rfl
theorem Laws.RoundTrip.sar (f : FA) : Laws.RoundTrip.Statement (.sar f) := by
  rintro - _ _ ⟨⟩
  simp only [decodeRaw, opcode_encodeFA]
  exact congrArg (fun x => some (Instr.sar x)) (decodeFA_encodeFA _ f)
theorem Laws.OneWord.sar (f : FA) : Laws.OneWord.Statement (.sar f) := rfl
theorem Laws.RoundTrip.sarI (f : FI) : Laws.RoundTrip.Statement (.sarI f) := by
  rintro - _ _ ⟨⟩
  simp only [decodeRaw, opcode_encodeFI]
  exact congrArg (fun x => some (Instr.sarI x)) (decodeFI_encodeFI _ f)
theorem Laws.OneWord.sarI (f : FI) : Laws.OneWord.Statement (.sarI f) := rfl
theorem Laws.RoundTrip.shf (f : FA) : Laws.RoundTrip.Statement (.shf f) := by
  rintro - _ _ ⟨⟩
  simp only [decodeRaw, opcode_encodeFA]
  exact congrArg (fun x => some (Instr.shf x)) (decodeFA_encodeFA _ f)
theorem Laws.OneWord.shf (f : FA) : Laws.OneWord.Statement (.shf f) := rfl
theorem Laws.RoundTrip.bfx (f : FA) : Laws.RoundTrip.Statement (.bfx f) := by
  rintro - _ _ ⟨⟩
  simp only [decodeRaw, opcode_encodeFA]
  exact congrArg (fun x => some (Instr.bfx x)) (decodeFA_encodeFA _ f)
theorem Laws.OneWord.bfx (f : FA) : Laws.OneWord.Statement (.bfx f) := rfl
theorem Laws.RoundTrip.bfi (f : FA) : Laws.RoundTrip.Statement (.bfi f) := by
  rintro - _ _ ⟨⟩
  simp only [decodeRaw, opcode_encodeFA]
  exact congrArg (fun x => some (Instr.bfi x)) (decodeFA_encodeFA _ f)
theorem Laws.OneWord.bfi (f : FA) : Laws.OneWord.Statement (.bfi f) := rfl
theorem Laws.RoundTrip.popc (f : FA) : Laws.RoundTrip.Statement (.popc f) := by
  rintro - _ _ ⟨⟩
  simp only [decodeRaw, opcode_encodeFA]
  exact congrArg (fun x => some (Instr.popc x)) (decodeFA_encodeFA _ f)
theorem Laws.OneWord.popc (f : FA) : Laws.OneWord.Statement (.popc f) := rfl
theorem Laws.RoundTrip.clz (f : FA) : Laws.RoundTrip.Statement (.clz f) := by
  rintro - _ _ ⟨⟩
  simp only [decodeRaw, opcode_encodeFA]
  exact congrArg (fun x => some (Instr.clz x)) (decodeFA_encodeFA _ f)
theorem Laws.OneWord.clz (f : FA) : Laws.OneWord.Statement (.clz f) := rfl
theorem Laws.RoundTrip.ctz (f : FA) : Laws.RoundTrip.Statement (.ctz f) := by
  rintro - _ _ ⟨⟩
  simp only [decodeRaw, opcode_encodeFA]
  exact congrArg (fun x => some (Instr.ctz x)) (decodeFA_encodeFA _ f)
theorem Laws.OneWord.ctz (f : FA) : Laws.OneWord.Statement (.ctz f) := rfl
theorem Laws.RoundTrip.brev (f : FA) : Laws.RoundTrip.Statement (.brev f) := by
  rintro - _ _ ⟨⟩
  simp only [decodeRaw, opcode_encodeFA]
  exact congrArg (fun x => some (Instr.brev x)) (decodeFA_encodeFA _ f)
theorem Laws.OneWord.brev (f : FA) : Laws.OneWord.Statement (.brev f) := rfl
theorem Laws.RoundTrip.prmb (f : FA) : Laws.RoundTrip.Statement (.prmb f) := by
  rintro - _ _ ⟨⟩
  simp only [decodeRaw, opcode_encodeFA]
  exact congrArg (fun x => some (Instr.prmb x)) (decodeFA_encodeFA _ f)
theorem Laws.OneWord.prmb (f : FA) : Laws.OneWord.Statement (.prmb f) := rfl
theorem Laws.RoundTrip.iset (f : FA) : Laws.RoundTrip.Statement (.iset f) := by
  rintro - _ _ ⟨⟩
  simp only [decodeRaw, opcode_encodeFA]
  exact congrArg (fun x => some (Instr.iset x)) (decodeFA_encodeFA _ f)
theorem Laws.OneWord.iset (f : FA) : Laws.OneWord.Statement (.iset f) := rfl
theorem Laws.RoundTrip.isetI (f : FI) : Laws.RoundTrip.Statement (.isetI f) := by
  rintro - _ _ ⟨⟩
  simp only [decodeRaw, opcode_encodeFI]
  exact congrArg (fun x => some (Instr.isetI x)) (decodeFI_encodeFI _ f)
theorem Laws.OneWord.isetI (f : FI) : Laws.OneWord.Statement (.isetI f) := rfl
theorem Laws.RoundTrip.iset64 (f : FA) : Laws.RoundTrip.Statement (.iset64 f) := by
  rintro - _ _ ⟨⟩
  simp only [decodeRaw, opcode_encodeFA]
  exact congrArg (fun x => some (Instr.iset64 x)) (decodeFA_encodeFA _ f)
theorem Laws.OneWord.iset64 (f : FA) : Laws.OneWord.Statement (.iset64 f) := rfl
theorem Laws.RoundTrip.sel (f : FA) : Laws.RoundTrip.Statement (.sel f) := by
  rintro - _ _ ⟨⟩
  simp only [decodeRaw, opcode_encodeFA]
  exact congrArg (fun x => some (Instr.sel x)) (decodeFA_encodeFA _ f)
theorem Laws.OneWord.sel (f : FA) : Laws.OneWord.Statement (.sel f) := rfl
theorem Laws.RoundTrip.lea (f : FA) : Laws.RoundTrip.Statement (.lea f) := by
  rintro - _ _ ⟨⟩
  simp only [decodeRaw, opcode_encodeFA]
  exact congrArg (fun x => some (Instr.lea x)) (decodeFA_encodeFA _ f)
theorem Laws.OneWord.lea (f : FA) : Laws.OneWord.Statement (.lea f) := rfl
theorem Laws.RoundTrip.leaI (f : FI) : Laws.RoundTrip.Statement (.leaI f) := by
  rintro - _ _ ⟨⟩
  simp only [decodeRaw, opcode_encodeFI]
  exact congrArg (fun x => some (Instr.leaI x)) (decodeFI_encodeFI _ f)
theorem Laws.OneWord.leaI (f : FI) : Laws.OneWord.Statement (.leaI f) := rfl
theorem Laws.RoundTrip.i2i (f : FA) : Laws.RoundTrip.Statement (.i2i f) := by
  rintro - _ _ ⟨⟩
  simp only [decodeRaw, opcode_encodeFA]
  exact congrArg (fun x => some (Instr.i2i x)) (decodeFA_encodeFA _ f)
theorem Laws.OneWord.i2i (f : FA) : Laws.OneWord.Statement (.i2i f) := rfl
theorem Laws.RoundTrip.plop (f : FA) : Laws.RoundTrip.Statement (.plop f) := by
  rintro - _ _ ⟨⟩
  simp only [decodeRaw, opcode_encodeFA]
  exact congrArg (fun x => some (Instr.plop x)) (decodeFA_encodeFA _ f)
theorem Laws.OneWord.plop (f : FA) : Laws.OneWord.Statement (.plop f) := rfl
theorem Laws.RoundTrip.pset (f : FA) : Laws.RoundTrip.Statement (.pset f) := by
  rintro - _ _ ⟨⟩
  simp only [decodeRaw, opcode_encodeFA]
  exact congrArg (fun x => some (Instr.pset x)) (decodeFA_encodeFA _ f)
theorem Laws.OneWord.pset (f : FA) : Laws.OneWord.Statement (.pset f) := rfl
theorem Laws.RoundTrip.srd (f : FA) : Laws.RoundTrip.Statement (.srd f) := by
  rintro - _ _ ⟨⟩
  simp only [decodeRaw, opcode_encodeFA]
  exact congrArg (fun x => some (Instr.srd x)) (decodeFA_encodeFA _ f)
theorem Laws.OneWord.srd (f : FA) : Laws.OneWord.Statement (.srd f) := rfl
theorem Laws.RoundTrip.cyc (f : FA) : Laws.RoundTrip.Statement (.cyc f) := by
  rintro - _ _ ⟨⟩
  simp only [decodeRaw, opcode_encodeFA]
  exact congrArg (fun x => some (Instr.cyc x)) (decodeFA_encodeFA _ f)
theorem Laws.OneWord.cyc (f : FA) : Laws.OneWord.Statement (.cyc f) := rfl
theorem Laws.RoundTrip.gpoll (f : FA) : Laws.RoundTrip.Statement (.gpoll f) := by
  rintro - _ _ ⟨⟩
  simp only [decodeRaw, opcode_encodeFA]
  exact congrArg (fun x => some (Instr.gpoll x)) (decodeFA_encodeFA _ f)
theorem Laws.OneWord.gpoll (f : FA) : Laws.OneWord.Statement (.gpoll f) := rfl
theorem Laws.RoundTrip.gxch (f : FA) : Laws.RoundTrip.Statement (.gxch f) := by
  rintro - _ _ ⟨⟩
  simp only [decodeRaw, opcode_encodeFA]
  exact congrArg (fun x => some (Instr.gxch x)) (decodeFA_encodeFA _ f)
theorem Laws.OneWord.gxch (f : FA) : Laws.OneWord.Statement (.gxch f) := rfl
theorem Laws.RoundTrip.gpeer (f : FA) : Laws.RoundTrip.Statement (.gpeer f) := by
  rintro - _ _ ⟨⟩
  simp only [decodeRaw, opcode_encodeFA]
  exact congrArg (fun x => some (Instr.gpeer x)) (decodeFA_encodeFA _ f)
theorem Laws.OneWord.gpeer (f : FA) : Laws.OneWord.Statement (.gpeer f) := rfl
theorem Laws.RoundTrip.bra (f : FB) : Laws.RoundTrip.Statement (.bra f) := by
  rintro - _ _ ⟨⟩
  simp only [decodeRaw, opcode_encodeFB]
  exact congrArg (fun x => some (Instr.bra x)) (decodeFB_encodeFB _ f)
theorem Laws.OneWord.bra (f : FB) : Laws.OneWord.Statement (.bra f) := rfl
theorem Laws.RoundTrip.brx (f : FB) : Laws.RoundTrip.Statement (.brx f) := by
  rintro - _ _ ⟨⟩
  simp only [decodeRaw, opcode_encodeFB]
  exact congrArg (fun x => some (Instr.brx x)) (decodeFB_encodeFB _ f)
theorem Laws.OneWord.brx (f : FB) : Laws.OneWord.Statement (.brx f) := rfl
theorem Laws.RoundTrip.call (f : FB) : Laws.RoundTrip.Statement (.call f) := by
  rintro - _ _ ⟨⟩
  simp only [decodeRaw, opcode_encodeFB]
  exact congrArg (fun x => some (Instr.call x)) (decodeFB_encodeFB _ f)
theorem Laws.OneWord.call (f : FB) : Laws.OneWord.Statement (.call f) := rfl
theorem Laws.RoundTrip.ret (f : FB) : Laws.RoundTrip.Statement (.ret f) := by
  rintro - _ _ ⟨⟩
  simp only [decodeRaw, opcode_encodeFB]
  exact congrArg (fun x => some (Instr.ret x)) (decodeFB_encodeFB _ f)
theorem Laws.OneWord.ret (f : FB) : Laws.OneWord.Statement (.ret f) := rfl
theorem Laws.RoundTrip.exit (f : FB) : Laws.RoundTrip.Statement (.exit f) := by
  rintro - _ _ ⟨⟩
  simp only [decodeRaw, opcode_encodeFB]
  exact congrArg (fun x => some (Instr.exit x)) (decodeFB_encodeFB _ f)
theorem Laws.OneWord.exit (f : FB) : Laws.OneWord.Statement (.exit f) := rfl
theorem Laws.RoundTrip.jset (f : FB) : Laws.RoundTrip.Statement (.jset f) := by
  rintro - _ _ ⟨⟩
  simp only [decodeRaw, opcode_encodeFB]
  exact congrArg (fun x => some (Instr.jset x)) (decodeFB_encodeFB _ f)
theorem Laws.OneWord.jset (f : FB) : Laws.OneWord.Statement (.jset f) := rfl
theorem Laws.RoundTrip.jwait (f : FB) : Laws.RoundTrip.Statement (.jwait f) := by
  rintro - _ _ ⟨⟩
  simp only [decodeRaw, opcode_encodeFB]
  exact congrArg (fun x => some (Instr.jwait x)) (decodeFB_encodeFB _ f)
theorem Laws.OneWord.jwait (f : FB) : Laws.OneWord.Statement (.jwait f) := rfl
theorem Laws.RoundTrip.yield (f : FB) : Laws.RoundTrip.Statement (.yield f) := by
  rintro - _ _ ⟨⟩
  simp only [decodeRaw, opcode_encodeFB]
  exact congrArg (fun x => some (Instr.yield x)) (decodeFB_encodeFB _ f)
theorem Laws.OneWord.yield (f : FB) : Laws.OneWord.Statement (.yield f) := rfl
theorem Laws.RoundTrip.fadd (f : FA) : Laws.RoundTrip.Statement (.fadd f) := by
  rintro - _ _ ⟨⟩
  simp only [decodeRaw, opcode_encodeFA]
  exact congrArg (fun x => some (Instr.fadd x)) (decodeFA_encodeFA _ f)
theorem Laws.OneWord.fadd (f : FA) : Laws.OneWord.Statement (.fadd f) := rfl
theorem Laws.RoundTrip.faddI (f : FI) : Laws.RoundTrip.Statement (.faddI f) := by
  rintro - _ _ ⟨⟩
  simp only [decodeRaw, opcode_encodeFI]
  exact congrArg (fun x => some (Instr.faddI x)) (decodeFI_encodeFI _ f)
theorem Laws.OneWord.faddI (f : FI) : Laws.OneWord.Statement (.faddI f) := rfl
theorem Laws.RoundTrip.fmul (f : FA) : Laws.RoundTrip.Statement (.fmul f) := by
  rintro - _ _ ⟨⟩
  simp only [decodeRaw, opcode_encodeFA]
  exact congrArg (fun x => some (Instr.fmul x)) (decodeFA_encodeFA _ f)
theorem Laws.OneWord.fmul (f : FA) : Laws.OneWord.Statement (.fmul f) := rfl
theorem Laws.RoundTrip.fmulI (f : FI) : Laws.RoundTrip.Statement (.fmulI f) := by
  rintro - _ _ ⟨⟩
  simp only [decodeRaw, opcode_encodeFI]
  exact congrArg (fun x => some (Instr.fmulI x)) (decodeFI_encodeFI _ f)
theorem Laws.OneWord.fmulI (f : FI) : Laws.OneWord.Statement (.fmulI f) := rfl
theorem Laws.RoundTrip.ffma (f : FA) : Laws.RoundTrip.Statement (.ffma f) := by
  rintro - _ _ ⟨⟩
  simp only [decodeRaw, opcode_encodeFA]
  exact congrArg (fun x => some (Instr.ffma x)) (decodeFA_encodeFA _ f)
theorem Laws.OneWord.ffma (f : FA) : Laws.OneWord.Statement (.ffma f) := rfl
theorem Laws.RoundTrip.fmulz (f : FA) : Laws.RoundTrip.Statement (.fmulz f) := by
  rintro - _ _ ⟨⟩
  simp only [decodeRaw, opcode_encodeFA]
  exact congrArg (fun x => some (Instr.fmulz x)) (decodeFA_encodeFA _ f)
theorem Laws.OneWord.fmulz (f : FA) : Laws.OneWord.Statement (.fmulz f) := rfl
theorem Laws.RoundTrip.fmin (f : FA) : Laws.RoundTrip.Statement (.fmin f) := by
  rintro - _ _ ⟨⟩
  simp only [decodeRaw, opcode_encodeFA]
  exact congrArg (fun x => some (Instr.fmin x)) (decodeFA_encodeFA _ f)
theorem Laws.OneWord.fmin (f : FA) : Laws.OneWord.Statement (.fmin f) := rfl
theorem Laws.RoundTrip.fmax (f : FA) : Laws.RoundTrip.Statement (.fmax f) := by
  rintro - _ _ ⟨⟩
  simp only [decodeRaw, opcode_encodeFA]
  exact congrArg (fun x => some (Instr.fmax x)) (decodeFA_encodeFA _ f)
theorem Laws.OneWord.fmax (f : FA) : Laws.OneWord.Statement (.fmax f) := rfl
theorem Laws.RoundTrip.fset (f : FA) : Laws.RoundTrip.Statement (.fset f) := by
  rintro - _ _ ⟨⟩
  simp only [decodeRaw, opcode_encodeFA]
  exact congrArg (fun x => some (Instr.fset x)) (decodeFA_encodeFA _ f)
theorem Laws.OneWord.fset (f : FA) : Laws.OneWord.Statement (.fset f) := rfl
theorem Laws.RoundTrip.fsetI (f : FI) : Laws.RoundTrip.Statement (.fsetI f) := by
  rintro - _ _ ⟨⟩
  simp only [decodeRaw, opcode_encodeFI]
  exact congrArg (fun x => some (Instr.fsetI x)) (decodeFI_encodeFI _ f)
theorem Laws.OneWord.fsetI (f : FI) : Laws.OneWord.Statement (.fsetI f) := rfl
theorem Laws.RoundTrip.fclass (f : FA) : Laws.RoundTrip.Statement (.fclass f) := by
  rintro - _ _ ⟨⟩
  simp only [decodeRaw, opcode_encodeFA]
  exact congrArg (fun x => some (Instr.fclass x)) (decodeFA_encodeFA _ f)
theorem Laws.OneWord.fclass (f : FA) : Laws.OneWord.Statement (.fclass f) := rfl
theorem Laws.RoundTrip.frnd (f : FA) : Laws.RoundTrip.Statement (.frnd f) := by
  rintro - _ _ ⟨⟩
  simp only [decodeRaw, opcode_encodeFA]
  exact congrArg (fun x => some (Instr.frnd x)) (decodeFA_encodeFA _ f)
theorem Laws.OneWord.frnd (f : FA) : Laws.OneWord.Statement (.frnd f) := rfl
theorem Laws.RoundTrip.f2i (f : FA) : Laws.RoundTrip.Statement (.f2i f) := by
  rintro - _ _ ⟨⟩
  simp only [decodeRaw, opcode_encodeFA]
  exact congrArg (fun x => some (Instr.f2i x)) (decodeFA_encodeFA _ f)
theorem Laws.OneWord.f2i (f : FA) : Laws.OneWord.Statement (.f2i f) := rfl
theorem Laws.RoundTrip.i2f (f : FA) : Laws.RoundTrip.Statement (.i2f f) := by
  rintro - _ _ ⟨⟩
  simp only [decodeRaw, opcode_encodeFA]
  exact congrArg (fun x => some (Instr.i2f x)) (decodeFA_encodeFA _ f)
theorem Laws.OneWord.i2f (f : FA) : Laws.OneWord.Statement (.i2f f) := rfl
theorem Laws.RoundTrip.f2f (f : FA) : Laws.RoundTrip.Statement (.f2f f) := by
  rintro - _ _ ⟨⟩
  simp only [decodeRaw, opcode_encodeFA]
  exact congrArg (fun x => some (Instr.f2f x)) (decodeFA_encodeFA _ f)
theorem Laws.OneWord.f2f (f : FA) : Laws.OneWord.Statement (.f2f f) := rfl
theorem Laws.RoundTrip.fsf (f : FA) : Laws.RoundTrip.Statement (.fsf f) := by
  rintro - _ _ ⟨⟩
  simp only [decodeRaw, opcode_encodeFA]
  exact congrArg (fun x => some (Instr.fsf x)) (decodeFA_encodeFA _ f)
theorem Laws.OneWord.fsf (f : FA) : Laws.OneWord.Statement (.fsf f) := rfl
theorem Laws.RoundTrip.pkadd (f : FA) : Laws.RoundTrip.Statement (.pkadd f) := by
  rintro - _ _ ⟨⟩
  simp only [decodeRaw, opcode_encodeFA]
  exact congrArg (fun x => some (Instr.pkadd x)) (decodeFA_encodeFA _ f)
theorem Laws.OneWord.pkadd (f : FA) : Laws.OneWord.Statement (.pkadd f) := rfl
theorem Laws.RoundTrip.pkmul (f : FA) : Laws.RoundTrip.Statement (.pkmul f) := by
  rintro - _ _ ⟨⟩
  simp only [decodeRaw, opcode_encodeFA]
  exact congrArg (fun x => some (Instr.pkmul x)) (decodeFA_encodeFA _ f)
theorem Laws.OneWord.pkmul (f : FA) : Laws.OneWord.Statement (.pkmul f) := rfl
theorem Laws.RoundTrip.pkfma (f : FA) : Laws.RoundTrip.Statement (.pkfma f) := by
  rintro - _ _ ⟨⟩
  simp only [decodeRaw, opcode_encodeFA]
  exact congrArg (fun x => some (Instr.pkfma x)) (decodeFA_encodeFA _ f)
theorem Laws.OneWord.pkfma (f : FA) : Laws.OneWord.Statement (.pkfma f) := rfl
theorem Laws.RoundTrip.pkdot (f : FA) : Laws.RoundTrip.Statement (.pkdot f) := by
  rintro - _ _ ⟨⟩
  simp only [decodeRaw, opcode_encodeFA]
  exact congrArg (fun x => some (Instr.pkdot x)) (decodeFA_encodeFA _ f)
theorem Laws.OneWord.pkdot (f : FA) : Laws.OneWord.Statement (.pkdot f) := rfl
theorem Laws.RoundTrip.dadd (f : FA) : Laws.RoundTrip.Statement (.dadd f) := by
  rintro - _ _ ⟨⟩
  simp only [decodeRaw, opcode_encodeFA]
  exact congrArg (fun x => some (Instr.dadd x)) (decodeFA_encodeFA _ f)
theorem Laws.OneWord.dadd (f : FA) : Laws.OneWord.Statement (.dadd f) := rfl
theorem Laws.RoundTrip.dmul (f : FA) : Laws.RoundTrip.Statement (.dmul f) := by
  rintro - _ _ ⟨⟩
  simp only [decodeRaw, opcode_encodeFA]
  exact congrArg (fun x => some (Instr.dmul x)) (decodeFA_encodeFA _ f)
theorem Laws.OneWord.dmul (f : FA) : Laws.OneWord.Statement (.dmul f) := rfl
theorem Laws.RoundTrip.dfma (f : FA) : Laws.RoundTrip.Statement (.dfma f) := by
  rintro - _ _ ⟨⟩
  simp only [decodeRaw, opcode_encodeFA]
  exact congrArg (fun x => some (Instr.dfma x)) (decodeFA_encodeFA _ f)
theorem Laws.OneWord.dfma (f : FA) : Laws.OneWord.Statement (.dfma f) := rfl
theorem Laws.RoundTrip.ld (f : FM) : Laws.RoundTrip.Statement (.ld f) := by
  rintro - _ _ ⟨⟩
  simp only [decodeRaw, opcode_encodeFM]
  exact congrArg (fun x => some (Instr.ld x)) (decodeFM_encodeFM _ f)
theorem Laws.OneWord.ld (f : FM) : Laws.OneWord.Statement (.ld f) := rfl
theorem Laws.RoundTrip.st (f : FM) : Laws.RoundTrip.Statement (.st f) := by
  rintro - _ _ ⟨⟩
  simp only [decodeRaw, opcode_encodeFM]
  exact congrArg (fun x => some (Instr.st x)) (decodeFM_encodeFM _ f)
theorem Laws.OneWord.st (f : FM) : Laws.OneWord.Statement (.st f) := rfl
theorem Laws.RoundTrip.ldl (f : FM) : Laws.RoundTrip.Statement (.ldl f) := by
  rintro - _ _ ⟨⟩
  simp only [decodeRaw, opcode_encodeFM]
  exact congrArg (fun x => some (Instr.ldl x)) (decodeFM_encodeFM _ f)
theorem Laws.OneWord.ldl (f : FM) : Laws.OneWord.Statement (.ldl f) := rfl
theorem Laws.RoundTrip.stl (f : FM) : Laws.RoundTrip.Statement (.stl f) := by
  rintro - _ _ ⟨⟩
  simp only [decodeRaw, opcode_encodeFM]
  exact congrArg (fun x => some (Instr.stl x)) (decodeFM_encodeFM _ f)
theorem Laws.OneWord.stl (f : FM) : Laws.OneWord.Statement (.stl f) := rfl
theorem Laws.RoundTrip.ldp (f : FM) : Laws.RoundTrip.Statement (.ldp f) := by
  rintro - _ _ ⟨⟩
  simp only [decodeRaw, opcode_encodeFM]
  exact congrArg (fun x => some (Instr.ldp x)) (decodeFM_encodeFM _ f)
theorem Laws.OneWord.ldp (f : FM) : Laws.OneWord.Statement (.ldp f) := rfl
theorem Laws.RoundTrip.stp (f : FM) : Laws.RoundTrip.Statement (.stp f) := by
  rintro - _ _ ⟨⟩
  simp only [decodeRaw, opcode_encodeFM]
  exact congrArg (fun x => some (Instr.stp x)) (decodeFM_encodeFM _ f)
theorem Laws.OneWord.stp (f : FM) : Laws.OneWord.Statement (.stp f) := rfl
theorem Laws.RoundTrip.ldk (f : FM) : Laws.RoundTrip.Statement (.ldk f) := by
  rintro - _ _ ⟨⟩
  simp only [decodeRaw, opcode_encodeFM]
  exact congrArg (fun x => some (Instr.ldk x)) (decodeFM_encodeFM _ f)
theorem Laws.OneWord.ldk (f : FM) : Laws.OneWord.Statement (.ldk f) := rfl
theorem Laws.RoundTrip.atom (f : FM) : Laws.RoundTrip.Statement (.atom f) := by
  rintro - _ _ ⟨⟩
  simp only [decodeRaw, opcode_encodeFM]
  exact congrArg (fun x => some (Instr.atom x)) (decodeFM_encodeFM _ f)
theorem Laws.OneWord.atom (f : FM) : Laws.OneWord.Statement (.atom f) := rfl
theorem Laws.RoundTrip.red (f : FM) : Laws.RoundTrip.Statement (.red f) := by
  rintro - _ _ ⟨⟩
  simp only [decodeRaw, opcode_encodeFM]
  exact congrArg (fun x => some (Instr.red x)) (decodeFM_encodeFM _ f)
theorem Laws.OneWord.red (f : FM) : Laws.OneWord.Statement (.red f) := rfl
theorem Laws.RoundTrip.atoml (f : FM) : Laws.RoundTrip.Statement (.atoml f) := by
  rintro - _ _ ⟨⟩
  simp only [decodeRaw, opcode_encodeFM]
  exact congrArg (fun x => some (Instr.atoml x)) (decodeFM_encodeFM _ f)
theorem Laws.OneWord.atoml (f : FM) : Laws.OneWord.Statement (.atoml f) := rfl
theorem Laws.RoundTrip.acq (f : FM) : Laws.RoundTrip.Statement (.acq f) := by
  rintro - _ _ ⟨⟩
  simp only [decodeRaw, opcode_encodeFM]
  exact congrArg (fun x => some (Instr.acq x)) (decodeFM_encodeFM _ f)
theorem Laws.OneWord.acq (f : FM) : Laws.OneWord.Statement (.acq f) := rfl
theorem Laws.RoundTrip.rel (f : FM) : Laws.RoundTrip.Statement (.rel f) := by
  rintro - _ _ ⟨⟩
  simp only [decodeRaw, opcode_encodeFM]
  exact congrArg (fun x => some (Instr.rel x)) (decodeFM_encodeFM _ f)
theorem Laws.OneWord.rel (f : FM) : Laws.OneWord.Statement (.rel f) := rfl
theorem Laws.RoundTrip.phase (f : FM) : Laws.RoundTrip.Statement (.phase f) := by
  rintro - _ _ ⟨⟩
  simp only [decodeRaw, opcode_encodeFM]
  exact congrArg (fun x => some (Instr.phase x)) (decodeFM_encodeFM _ f)
theorem Laws.OneWord.phase (f : FM) : Laws.OneWord.Statement (.phase f) := rfl
theorem Laws.RoundTrip.pref (f : FM) : Laws.RoundTrip.Statement (.pref f) := by
  rintro - _ _ ⟨⟩
  simp only [decodeRaw, opcode_encodeFM]
  exact congrArg (fun x => some (Instr.pref x)) (decodeFM_encodeFM _ f)
theorem Laws.OneWord.pref (f : FM) : Laws.OneWord.Statement (.pref f) := rfl
theorem Laws.RoundTrip.cline (f : FM) : Laws.RoundTrip.Statement (.cline f) := by
  rintro - _ _ ⟨⟩
  simp only [decodeRaw, opcode_encodeFM]
  exact congrArg (fun x => some (Instr.cline x)) (decodeFM_encodeFM _ f)
theorem Laws.OneWord.cline (f : FM) : Laws.OneWord.Statement (.cline f) := rfl
theorem Laws.RoundTrip.drainst (f : FM) : Laws.RoundTrip.Statement (.drainst f) := by
  rintro - _ _ ⟨⟩
  simp only [decodeRaw, opcode_encodeFM]
  exact congrArg (fun x => some (Instr.drainst x)) (decodeFM_encodeFM _ f)
theorem Laws.OneWord.drainst (f : FM) : Laws.OneWord.Statement (.drainst f) := rfl
theorem Laws.RoundTrip.vcqry (f : FM) : Laws.RoundTrip.Statement (.vcqry f) := by
  rintro - _ _ ⟨⟩
  simp only [decodeRaw, opcode_encodeFM]
  exact congrArg (fun x => some (Instr.vcqry x)) (decodeFM_encodeFM _ f)
theorem Laws.OneWord.vcqry (f : FM) : Laws.OneWord.Statement (.vcqry f) := rfl
theorem Laws.RoundTrip.bar (f : FM) : Laws.RoundTrip.Statement (.bar f) := by
  rintro - _ _ ⟨⟩
  simp only [decodeRaw, opcode_encodeFM]
  exact congrArg (fun x => some (Instr.bar x)) (decodeFM_encodeFM _ f)
theorem Laws.OneWord.bar (f : FM) : Laws.OneWord.Statement (.bar f) := rfl
theorem Laws.RoundTrip.bararv (f : FM) : Laws.RoundTrip.Statement (.bararv f) := by
  rintro - _ _ ⟨⟩
  simp only [decodeRaw, opcode_encodeFM]
  exact congrArg (fun x => some (Instr.bararv x)) (decodeFM_encodeFM _ f)
theorem Laws.OneWord.bararv (f : FM) : Laws.OneWord.Statement (.bararv f) := rfl
theorem Laws.RoundTrip.barwait (f : FM) : Laws.RoundTrip.Statement (.barwait f) := by
  rintro - _ _ ⟨⟩
  simp only [decodeRaw, opcode_encodeFM]
  exact congrArg (fun x => some (Instr.barwait x)) (decodeFM_encodeFM _ f)
theorem Laws.OneWord.barwait (f : FM) : Laws.OneWord.Statement (.barwait f) := rfl
theorem Laws.RoundTrip.boinit (f : FM) : Laws.RoundTrip.Statement (.boinit f) := by
  rintro - _ _ ⟨⟩
  simp only [decodeRaw, opcode_encodeFM]
  exact congrArg (fun x => some (Instr.boinit x)) (decodeFM_encodeFM _ f)
theorem Laws.OneWord.boinit (f : FM) : Laws.OneWord.Statement (.boinit f) := rfl
theorem Laws.RoundTrip.boexp (f : FM) : Laws.RoundTrip.Statement (.boexp f) := by
  rintro - _ _ ⟨⟩
  simp only [decodeRaw, opcode_encodeFM]
  exact congrArg (fun x => some (Instr.boexp x)) (decodeFM_encodeFM _ f)
theorem Laws.OneWord.boexp (f : FM) : Laws.OneWord.Statement (.boexp f) := rfl
theorem Laws.RoundTrip.boarv (f : FM) : Laws.RoundTrip.Statement (.boarv f) := by
  rintro - _ _ ⟨⟩
  simp only [decodeRaw, opcode_encodeFM]
  exact congrArg (fun x => some (Instr.boarv x)) (decodeFM_encodeFM _ f)
theorem Laws.OneWord.boarv (f : FM) : Laws.OneWord.Statement (.boarv f) := rfl
theorem Laws.RoundTrip.bowait (f : FM) : Laws.RoundTrip.Statement (.bowait f) := by
  rintro - _ _ ⟨⟩
  simp only [decodeRaw, opcode_encodeFM]
  exact congrArg (fun x => some (Instr.bowait x)) (decodeFM_encodeFM _ f)
theorem Laws.OneWord.bowait (f : FM) : Laws.OneWord.Statement (.bowait f) := rfl
theorem Laws.RoundTrip.botest (f : FM) : Laws.RoundTrip.Statement (.botest f) := by
  rintro - _ _ ⟨⟩
  simp only [decodeRaw, opcode_encodeFM]
  exact congrArg (fun x => some (Instr.botest x)) (decodeFM_encodeFM _ f)
theorem Laws.OneWord.botest (f : FM) : Laws.OneWord.Statement (.botest f) := rfl
theorem Laws.RoundTrip.qdef (f : FM) : Laws.RoundTrip.Statement (.qdef f) := by
  rintro - _ _ ⟨⟩
  simp only [decodeRaw, opcode_encodeFM]
  exact congrArg (fun x => some (Instr.qdef x)) (decodeFM_encodeFM _ f)
theorem Laws.OneWord.qdef (f : FM) : Laws.OneWord.Statement (.qdef f) := rfl
theorem Laws.RoundTrip.qpush (f : FM) : Laws.RoundTrip.Statement (.qpush f) := by
  rintro - _ _ ⟨⟩
  simp only [decodeRaw, opcode_encodeFM]
  exact congrArg (fun x => some (Instr.qpush x)) (decodeFM_encodeFM _ f)
theorem Laws.OneWord.qpush (f : FM) : Laws.OneWord.Statement (.qpush f) := rfl
theorem Laws.RoundTrip.qpop (f : FM) : Laws.RoundTrip.Statement (.qpop f) := by
  rintro - _ _ ⟨⟩
  simp only [decodeRaw, opcode_encodeFM]
  exact congrArg (fun x => some (Instr.qpop x)) (decodeFM_encodeFM _ f)
theorem Laws.OneWord.qpop (f : FM) : Laws.OneWord.Statement (.qpop f) := rfl
theorem Laws.RoundTrip.qtry (f : FM) : Laws.RoundTrip.Statement (.qtry f) := by
  rintro - _ _ ⟨⟩
  simp only [decodeRaw, opcode_encodeFM]
  exact congrArg (fun x => some (Instr.qtry x)) (decodeFM_encodeFM _ f)
theorem Laws.OneWord.qtry (f : FM) : Laws.OneWord.Statement (.qtry f) := rfl
theorem Laws.RoundTrip.cpy (f : FX) : Laws.RoundTrip.Statement (.cpy f) := by
  rintro - _ _ ⟨⟩
  simp only [decodeRaw, opcode_encodeFX]
  exact congrArg (fun x => some (Instr.cpy x)) (decodeFX_encodeFX _ f)
theorem Laws.OneWord.cpy (f : FX) : Laws.OneWord.Statement (.cpy f) := rfl
theorem Laws.RoundTrip.cpyg (f : FX) : Laws.RoundTrip.Statement (.cpyg f) := by
  rintro - _ _ ⟨⟩
  simp only [decodeRaw, opcode_encodeFX]
  exact congrArg (fun x => some (Instr.cpyg x)) (decodeFX_encodeFX _ f)
theorem Laws.OneWord.cpyg (f : FX) : Laws.OneWord.Statement (.cpyg f) := rfl
theorem Laws.RoundTrip.cpys (f : FX) : Laws.RoundTrip.Statement (.cpys f) := by
  rintro - _ _ ⟨⟩
  simp only [decodeRaw, opcode_encodeFX]
  exact congrArg (fun x => some (Instr.cpys x)) (decodeFX_encodeFX _ f)
theorem Laws.OneWord.cpys (f : FX) : Laws.OneWord.Statement (.cpys f) := rfl
theorem Laws.RoundTrip.cpyfill (f : FX) : Laws.RoundTrip.Statement (.cpyfill f) := by
  rintro - _ _ ⟨⟩
  simp only [decodeRaw, opcode_encodeFX]
  exact congrArg (fun x => some (Instr.cpyfill x)) (decodeFX_encodeFX _ f)
theorem Laws.OneWord.cpyfill (f : FX) : Laws.OneWord.Statement (.cpyfill f) := rfl
theorem Laws.RoundTrip.ctload (f : FX) : Laws.RoundTrip.Statement (.ctload f) := by
  rintro - _ _ ⟨⟩
  simp only [decodeRaw, opcode_encodeFX]
  exact congrArg (fun x => some (Instr.ctload x)) (decodeFX_encodeFX _ f)
theorem Laws.OneWord.ctload (f : FX) : Laws.OneWord.Statement (.ctload f) := rfl
theorem Laws.RoundTrip.decent (f : FX) : Laws.RoundTrip.Statement (.decent f) := by
  rintro - _ _ ⟨⟩
  simp only [decodeRaw, opcode_encodeFX]
  exact congrArg (fun x => some (Instr.decent x)) (decodeFX_encodeFX _ f)
theorem Laws.OneWord.decent (f : FX) : Laws.OneWord.Statement (.decent f) := rfl
theorem Laws.RoundTrip.decbr (f : FX) : Laws.RoundTrip.Statement (.decbr f) := by
  rintro - _ _ ⟨⟩
  simp only [decodeRaw, opcode_encodeFX]
  exact congrArg (fun x => some (Instr.decbr x)) (decodeFX_encodeFX _ f)
theorem Laws.OneWord.decbr (f : FX) : Laws.OneWord.Statement (.decbr f) := rfl
theorem Laws.RoundTrip.mresv (f : FX) : Laws.RoundTrip.Statement (.mresv f) := by
  rintro - _ _ ⟨⟩
  simp only [decodeRaw, opcode_encodeFX]
  exact congrArg (fun x => some (Instr.mresv x)) (decodeFX_encodeFX _ f)
theorem Laws.OneWord.mresv (f : FX) : Laws.OneWord.Statement (.mresv f) := rfl
theorem Laws.RoundTrip.mrels (f : FX) : Laws.RoundTrip.Statement (.mrels f) := by
  rintro - _ _ ⟨⟩
  simp only [decodeRaw, opcode_encodeFX]
  exact congrArg (fun x => some (Instr.mrels x)) (decodeFX_encodeFX _ f)
theorem Laws.OneWord.mrels (f : FX) : Laws.OneWord.Statement (.mrels f) := rfl
theorem Laws.RoundTrip.mload (f : FX) : Laws.RoundTrip.Statement (.mload f) := by
  rintro - _ _ ⟨⟩
  simp only [decodeRaw, opcode_encodeFX]
  exact congrArg (fun x => some (Instr.mload x)) (decodeFX_encodeFX _ f)
theorem Laws.OneWord.mload (f : FX) : Laws.OneWord.Statement (.mload f) := rfl
theorem Laws.RoundTrip.mcbl (f : FX) : Laws.RoundTrip.Statement (.mcbl f) := by
  rintro - _ _ ⟨⟩
  simp only [decodeRaw, opcode_encodeFX]
  exact congrArg (fun x => some (Instr.mcbl x)) (decodeFX_encodeFX _ f)
theorem Laws.OneWord.mcbl (f : FX) : Laws.OneWord.Statement (.mcbl f) := rfl
theorem Laws.RoundTrip.mma (f : FX) : Laws.RoundTrip.Statement (.mma f) := by
  rintro - _ _ ⟨⟩
  simp only [decodeRaw, opcode_encodeFX]
  exact congrArg (fun x => some (Instr.mma x)) (decodeFX_encodeFX _ f)
theorem Laws.OneWord.mma (f : FX) : Laws.OneWord.Statement (.mma f) := rfl
theorem Laws.RoundTrip.mmai (f : FX) : Laws.RoundTrip.Statement (.mmai f) := by
  rintro - _ _ ⟨⟩
  simp only [decodeRaw, opcode_encodeFX]
  exact congrArg (fun x => some (Instr.mmai x)) (decodeFX_encodeFX _ f)
theorem Laws.OneWord.mmai (f : FX) : Laws.OneWord.Statement (.mmai f) := rfl
theorem Laws.RoundTrip.mzero (f : FX) : Laws.RoundTrip.Statement (.mzero f) := by
  rintro - _ _ ⟨⟩
  simp only [decodeRaw, opcode_encodeFX]
  exact congrArg (fun x => some (Instr.mzero x)) (decodeFX_encodeFX _ f)
theorem Laws.OneWord.mzero (f : FX) : Laws.OneWord.Statement (.mzero f) := rfl
theorem Laws.RoundTrip.mstore (f : FX) : Laws.RoundTrip.Statement (.mstore f) := by
  rintro - _ _ ⟨⟩
  simp only [decodeRaw, opcode_encodeFX]
  exact congrArg (fun x => some (Instr.mstore x)) (decodeFX_encodeFX _ f)
theorem Laws.OneWord.mstore (f : FX) : Laws.OneWord.Statement (.mstore f) := rfl
theorem Laws.RoundTrip.mstat (f : FX) : Laws.RoundTrip.Statement (.mstat f) := by
  rintro - _ _ ⟨⟩
  simp only [decodeRaw, opcode_encodeFX]
  exact congrArg (fun x => some (Instr.mstat x)) (decodeFX_encodeFX _ f)
theorem Laws.OneWord.mstat (f : FX) : Laws.OneWord.Statement (.mstat f) := rfl
theorem Laws.RoundTrip.mchk (f : FX) : Laws.RoundTrip.Statement (.mchk f) := by
  rintro - _ _ ⟨⟩
  simp only [decodeRaw, opcode_encodeFX]
  exact congrArg (fun x => some (Instr.mchk x)) (decodeFX_encodeFX _ f)
theorem Laws.OneWord.mchk (f : FX) : Laws.OneWord.Statement (.mchk f) := rfl
theorem Laws.RoundTrip.rayq (f : FX) : Laws.RoundTrip.Statement (.rayq f) := by
  rintro - _ _ ⟨⟩
  simp only [decodeRaw, opcode_encodeFX]
  exact congrArg (fun x => some (Instr.rayq x)) (decodeFX_encodeFX _ f)
theorem Laws.OneWord.rayq (f : FX) : Laws.OneWord.Statement (.rayq f) := rfl
theorem Laws.RoundTrip.sqnop (f : FS) : Laws.RoundTrip.Statement (.sqnop f) := by
  rintro - _ _ ⟨⟩
  simp only [decodeRaw, opcode_encodeFS]
  exact congrArg (fun x => some (Instr.sqnop x)) (decodeFS_encodeFS _ f)
theorem Laws.OneWord.sqnop (f : FS) : Laws.OneWord.Statement (.sqnop f) := rfl
theorem Laws.RoundTrip.sqloop (f : FS) : Laws.RoundTrip.Statement (.sqloop f) := by
  rintro - _ _ ⟨⟩
  simp only [decodeRaw, opcode_encodeFS]
  exact congrArg (fun x => some (Instr.sqloop x)) (decodeFS_encodeFS _ f)
theorem Laws.OneWord.sqloop (f : FS) : Laws.OneWord.Statement (.sqloop f) := rfl
theorem Laws.RoundTrip.sqend (f : FS) : Laws.RoundTrip.Statement (.sqend f) := by
  rintro - _ _ ⟨⟩
  simp only [decodeRaw, opcode_encodeFS]
  exact congrArg (fun x => some (Instr.sqend x)) (decodeFS_encodeFS _ f)
theorem Laws.OneWord.sqend (f : FS) : Laws.OneWord.Statement (.sqend f) := rfl
theorem Laws.RoundTrip.sqwaitc (f : FS) : Laws.RoundTrip.Statement (.sqwaitc f) := by
  rintro - _ _ ⟨⟩
  simp only [decodeRaw, opcode_encodeFS]
  exact congrArg (fun x => some (Instr.sqwaitc x)) (decodeFS_encodeFS _ f)
theorem Laws.OneWord.sqwaitc (f : FS) : Laws.OneWord.Statement (.sqwaitc f) := rfl
theorem Laws.RoundTrip.sqboarv (f : FS) : Laws.RoundTrip.Statement (.sqboarv f) := by
  rintro - _ _ ⟨⟩
  simp only [decodeRaw, opcode_encodeFS]
  exact congrArg (fun x => some (Instr.sqboarv x)) (decodeFS_encodeFS _ f)
theorem Laws.OneWord.sqboarv (f : FS) : Laws.OneWord.Statement (.sqboarv f) := rfl
theorem Laws.RoundTrip.sqbowait (f : FS) : Laws.RoundTrip.Statement (.sqbowait f) := by
  rintro - _ _ ⟨⟩
  simp only [decodeRaw, opcode_encodeFS]
  exact congrArg (fun x => some (Instr.sqbowait x)) (decodeFS_encodeFS _ f)
theorem Laws.OneWord.sqbowait (f : FS) : Laws.OneWord.Statement (.sqbowait f) := rfl
theorem Laws.RoundTrip.seqCpy (f : FS) : Laws.RoundTrip.Statement (.seqCpy f) := by
  rintro - _ _ ⟨⟩
  simp only [decodeRaw, opcode_encodeFS]
  exact congrArg (fun x => some (Instr.seqCpy x)) (decodeFS_encodeFS _ f)
theorem Laws.OneWord.seqCpy (f : FS) : Laws.OneWord.Statement (.seqCpy f) := rfl
theorem Laws.RoundTrip.seqCpyg (f : FS) : Laws.RoundTrip.Statement (.seqCpyg f) := by
  rintro - _ _ ⟨⟩
  simp only [decodeRaw, opcode_encodeFS]
  exact congrArg (fun x => some (Instr.seqCpyg x)) (decodeFS_encodeFS _ f)
theorem Laws.OneWord.seqCpyg (f : FS) : Laws.OneWord.Statement (.seqCpyg f) := rfl
theorem Laws.RoundTrip.seqCpys (f : FS) : Laws.RoundTrip.Statement (.seqCpys f) := by
  rintro - _ _ ⟨⟩
  simp only [decodeRaw, opcode_encodeFS]
  exact congrArg (fun x => some (Instr.seqCpys x)) (decodeFS_encodeFS _ f)
theorem Laws.OneWord.seqCpys (f : FS) : Laws.OneWord.Statement (.seqCpys f) := rfl
theorem Laws.RoundTrip.seqCpyfill (f : FS) : Laws.RoundTrip.Statement (.seqCpyfill f) := by
  rintro - _ _ ⟨⟩
  simp only [decodeRaw, opcode_encodeFS]
  exact congrArg (fun x => some (Instr.seqCpyfill x)) (decodeFS_encodeFS _ f)
theorem Laws.OneWord.seqCpyfill (f : FS) : Laws.OneWord.Statement (.seqCpyfill f) := rfl
theorem Laws.RoundTrip.seqCtload (f : FS) : Laws.RoundTrip.Statement (.seqCtload f) := by
  rintro - _ _ ⟨⟩
  simp only [decodeRaw, opcode_encodeFS]
  exact congrArg (fun x => some (Instr.seqCtload x)) (decodeFS_encodeFS _ f)
theorem Laws.OneWord.seqCtload (f : FS) : Laws.OneWord.Statement (.seqCtload f) := rfl
theorem Laws.RoundTrip.seqDecent (f : FS) : Laws.RoundTrip.Statement (.seqDecent f) := by
  rintro - _ _ ⟨⟩
  simp only [decodeRaw, opcode_encodeFS]
  exact congrArg (fun x => some (Instr.seqDecent x)) (decodeFS_encodeFS _ f)
theorem Laws.OneWord.seqDecent (f : FS) : Laws.OneWord.Statement (.seqDecent f) := rfl
theorem Laws.RoundTrip.seqDecbr (f : FS) : Laws.RoundTrip.Statement (.seqDecbr f) := by
  rintro - _ _ ⟨⟩
  simp only [decodeRaw, opcode_encodeFS]
  exact congrArg (fun x => some (Instr.seqDecbr x)) (decodeFS_encodeFS _ f)
theorem Laws.OneWord.seqDecbr (f : FS) : Laws.OneWord.Statement (.seqDecbr f) := rfl
theorem Laws.RoundTrip.seqMresv (f : FS) : Laws.RoundTrip.Statement (.seqMresv f) := by
  rintro - _ _ ⟨⟩
  simp only [decodeRaw, opcode_encodeFS]
  exact congrArg (fun x => some (Instr.seqMresv x)) (decodeFS_encodeFS _ f)
theorem Laws.OneWord.seqMresv (f : FS) : Laws.OneWord.Statement (.seqMresv f) := rfl
theorem Laws.RoundTrip.seqMrels (f : FS) : Laws.RoundTrip.Statement (.seqMrels f) := by
  rintro - _ _ ⟨⟩
  simp only [decodeRaw, opcode_encodeFS]
  exact congrArg (fun x => some (Instr.seqMrels x)) (decodeFS_encodeFS _ f)
theorem Laws.OneWord.seqMrels (f : FS) : Laws.OneWord.Statement (.seqMrels f) := rfl
theorem Laws.RoundTrip.seqMload (f : FS) : Laws.RoundTrip.Statement (.seqMload f) := by
  rintro - _ _ ⟨⟩
  simp only [decodeRaw, opcode_encodeFS]
  exact congrArg (fun x => some (Instr.seqMload x)) (decodeFS_encodeFS _ f)
theorem Laws.OneWord.seqMload (f : FS) : Laws.OneWord.Statement (.seqMload f) := rfl
theorem Laws.RoundTrip.seqMcbl (f : FS) : Laws.RoundTrip.Statement (.seqMcbl f) := by
  rintro - _ _ ⟨⟩
  simp only [decodeRaw, opcode_encodeFS]
  exact congrArg (fun x => some (Instr.seqMcbl x)) (decodeFS_encodeFS _ f)
theorem Laws.OneWord.seqMcbl (f : FS) : Laws.OneWord.Statement (.seqMcbl f) := rfl
theorem Laws.RoundTrip.seqMma (f : FS) : Laws.RoundTrip.Statement (.seqMma f) := by
  rintro - _ _ ⟨⟩
  simp only [decodeRaw, opcode_encodeFS]
  exact congrArg (fun x => some (Instr.seqMma x)) (decodeFS_encodeFS _ f)
theorem Laws.OneWord.seqMma (f : FS) : Laws.OneWord.Statement (.seqMma f) := rfl
theorem Laws.RoundTrip.seqMmai (f : FS) : Laws.RoundTrip.Statement (.seqMmai f) := by
  rintro - _ _ ⟨⟩
  simp only [decodeRaw, opcode_encodeFS]
  exact congrArg (fun x => some (Instr.seqMmai x)) (decodeFS_encodeFS _ f)
theorem Laws.OneWord.seqMmai (f : FS) : Laws.OneWord.Statement (.seqMmai f) := rfl
theorem Laws.RoundTrip.seqMzero (f : FS) : Laws.RoundTrip.Statement (.seqMzero f) := by
  rintro - _ _ ⟨⟩
  simp only [decodeRaw, opcode_encodeFS]
  exact congrArg (fun x => some (Instr.seqMzero x)) (decodeFS_encodeFS _ f)
theorem Laws.OneWord.seqMzero (f : FS) : Laws.OneWord.Statement (.seqMzero f) := rfl
theorem Laws.RoundTrip.seqMstore (f : FS) : Laws.RoundTrip.Statement (.seqMstore f) := by
  rintro - _ _ ⟨⟩
  simp only [decodeRaw, opcode_encodeFS]
  exact congrArg (fun x => some (Instr.seqMstore x)) (decodeFS_encodeFS _ f)
theorem Laws.OneWord.seqMstore (f : FS) : Laws.OneWord.Statement (.seqMstore f) := rfl
theorem Laws.RoundTrip.seqMstat (f : FS) : Laws.RoundTrip.Statement (.seqMstat f) := by
  rintro - _ _ ⟨⟩
  simp only [decodeRaw, opcode_encodeFS]
  exact congrArg (fun x => some (Instr.seqMstat x)) (decodeFS_encodeFS _ f)
theorem Laws.OneWord.seqMstat (f : FS) : Laws.OneWord.Statement (.seqMstat f) := rfl
theorem Laws.RoundTrip.seqMchk (f : FS) : Laws.RoundTrip.Statement (.seqMchk f) := by
  rintro - _ _ ⟨⟩
  simp only [decodeRaw, opcode_encodeFS]
  exact congrArg (fun x => some (Instr.seqMchk x)) (decodeFS_encodeFS _ f)
theorem Laws.OneWord.seqMchk (f : FS) : Laws.OneWord.Statement (.seqMchk f) := rfl
theorem Laws.RoundTrip.paypush (f : FA) : Laws.RoundTrip.Statement (.paypush f) := by
  rintro - _ _ ⟨⟩
  simp only [decodeRaw, opcode_encodeFA]
  exact congrArg (fun x => some (Instr.paypush x)) (decodeFA_encodeFA _ f)
theorem Laws.OneWord.paypush (f : FA) : Laws.OneWord.Statement (.paypush f) := rfl
theorem Laws.RoundTrip.paypop (f : FA) : Laws.RoundTrip.Statement (.paypop f) := by
  rintro - _ _ ⟨⟩
  simp only [decodeRaw, opcode_encodeFA]
  exact congrArg (fun x => some (Instr.paypop x)) (decodeFA_encodeFA _ f)
theorem Laws.OneWord.paypop (f : FA) : Laws.OneWord.Statement (.paypop f) := rfl
theorem Laws.RoundTrip.mcount (f : FA) : Laws.RoundTrip.Statement (.mcount f) := by
  rintro - _ _ ⟨⟩
  simp only [decodeRaw, opcode_encodeFA]
  exact congrArg (fun x => some (Instr.mcount x)) (decodeFA_encodeFA _ f)
theorem Laws.OneWord.mcount (f : FA) : Laws.OneWord.Statement (.mcount f) := rfl
theorem Laws.RoundTrip.mvert (f : FA) : Laws.RoundTrip.Statement (.mvert f) := by
  rintro - _ _ ⟨⟩
  simp only [decodeRaw, opcode_encodeFA]
  exact congrArg (fun x => some (Instr.mvert x)) (decodeFA_encodeFA _ f)
theorem Laws.OneWord.mvert (f : FA) : Laws.OneWord.Statement (.mvert f) := rfl
theorem Laws.RoundTrip.mprim (f : FA) : Laws.RoundTrip.Statement (.mprim f) := by
  rintro - _ _ ⟨⟩
  simp only [decodeRaw, opcode_encodeFA]
  exact congrArg (fun x => some (Instr.mprim x)) (decodeFA_encodeFA _ f)
theorem Laws.OneWord.mprim (f : FA) : Laws.OneWord.Statement (.mprim f) := rfl
theorem Laws.RoundTrip.mdone (f : FA) : Laws.RoundTrip.Statement (.mdone f) := by
  rintro - _ _ ⟨⟩
  simp only [decodeRaw, opcode_encodeFA]
  exact congrArg (fun x => some (Instr.mdone x)) (decodeFA_encodeFA _ f)
theorem Laws.OneWord.mdone (f : FA) : Laws.OneWord.Statement (.mdone f) := rfl
theorem Laws.RoundTrip.vispop (f : FA) : Laws.RoundTrip.Statement (.vispop f) := by
  rintro - _ _ ⟨⟩
  simp only [decodeRaw, opcode_encodeFA]
  exact congrArg (fun x => some (Instr.vispop x)) (decodeFA_encodeFA _ f)
theorem Laws.OneWord.vispop (f : FA) : Laws.OneWord.Statement (.vispop f) := rfl
theorem Laws.RoundTrip.visget (f : FA) : Laws.RoundTrip.Statement (.visget f) := by
  rintro - _ _ ⟨⟩
  simp only [decodeRaw, opcode_encodeFA]
  exact congrArg (fun x => some (Instr.visget x)) (decodeFA_encodeFA _ f)
theorem Laws.OneWord.visget (f : FA) : Laws.OneWord.Statement (.visget f) := rfl
theorem Laws.RoundTrip.rgnacq (f : FA) : Laws.RoundTrip.Statement (.rgnacq f) := by
  rintro - _ _ ⟨⟩
  simp only [decodeRaw, opcode_encodeFA]
  exact congrArg (fun x => some (Instr.rgnacq x)) (decodeFA_encodeFA _ f)
theorem Laws.OneWord.rgnacq (f : FA) : Laws.OneWord.Statement (.rgnacq f) := rfl
theorem Laws.RoundTrip.rgnrel (f : FA) : Laws.RoundTrip.Statement (.rgnrel f) := by
  rintro - _ _ ⟨⟩
  simp only [decodeRaw, opcode_encodeFA]
  exact congrArg (fun x => some (Instr.rgnrel x)) (decodeFA_encodeFA _ f)
theorem Laws.OneWord.rgnrel (f : FA) : Laws.OneWord.Statement (.rgnrel f) := rfl
theorem Laws.RoundTrip.rtblend (f : FA) : Laws.RoundTrip.Statement (.rtblend f) := by
  rintro - _ _ ⟨⟩
  simp only [decodeRaw, opcode_encodeFA]
  exact congrArg (fun x => some (Instr.rtblend x)) (decodeFA_encodeFA _ f)
theorem Laws.OneWord.rtblend (f : FA) : Laws.OneWord.Statement (.rtblend f) := rfl
theorem Laws.RoundTrip.tex (f : FA) : Laws.RoundTrip.Statement (.tex f) := by
  rintro - _ _ ⟨⟩
  simp only [decodeRaw, opcode_encodeFA]
  exact congrArg (fun x => some (Instr.tex x)) (decodeFA_encodeFA _ f)
theorem Laws.OneWord.tex (f : FA) : Laws.OneWord.Statement (.tex f) := rfl
theorem Laws.RoundTrip.tld (f : FA) : Laws.RoundTrip.Statement (.tld f) := by
  rintro - _ _ ⟨⟩
  simp only [decodeRaw, opcode_encodeFA]
  exact congrArg (fun x => some (Instr.tld x)) (decodeFA_encodeFA _ f)
theorem Laws.OneWord.tld (f : FA) : Laws.OneWord.Statement (.tld f) := rfl
theorem Laws.RoundTrip.tqry (f : FA) : Laws.RoundTrip.Statement (.tqry f) := by
  rintro - _ _ ⟨⟩
  simp only [decodeRaw, opcode_encodeFA]
  exact congrArg (fun x => some (Instr.tqry x)) (decodeFA_encodeFA _ f)
theorem Laws.OneWord.tqry (f : FA) : Laws.OneWord.Statement (.tqry f) := rfl
theorem Laws.RoundTrip.trap (f : FI) : Laws.RoundTrip.Statement (.trap f) := by
  rintro - _ _ ⟨⟩
  simp only [decodeRaw, opcode_encodeFI]
  exact congrArg (fun x => some (Instr.trap x)) (decodeFI_encodeFI _ f)
theorem Laws.OneWord.trap (f : FI) : Laws.OneWord.Statement (.trap f) := rfl
theorem Laws.RoundTrip.tret (f : FA) : Laws.RoundTrip.Statement (.tret f) := by
  rintro - _ _ ⟨⟩
  simp only [decodeRaw, opcode_encodeFA]
  exact congrArg (fun x => some (Instr.tret x)) (decodeFA_encodeFA _ f)
theorem Laws.OneWord.tret (f : FA) : Laws.OneWord.Statement (.tret f) := rfl
theorem Laws.RoundTrip.frginfo (f : FA) : Laws.RoundTrip.Statement (.frginfo f) := by
  rintro - _ _ ⟨⟩
  simp only [decodeRaw, opcode_encodeFA]
  exact congrArg (fun x => some (Instr.frginfo x)) (decodeFA_encodeFA _ f)
theorem Laws.OneWord.frginfo (f : FA) : Laws.OneWord.Statement (.frginfo f) := rfl
theorem Laws.RoundTrip.sfqpop (f : FA) : Laws.RoundTrip.Statement (.sfqpop f) := by
  rintro - _ _ ⟨⟩
  simp only [decodeRaw, opcode_encodeFA]
  exact congrArg (fun x => some (Instr.sfqpop x)) (decodeFA_encodeFA _ f)
theorem Laws.OneWord.sfqpop (f : FA) : Laws.OneWord.Statement (.sfqpop f) := rfl
theorem Laws.RoundTrip.killf (f : FA) : Laws.RoundTrip.Statement (.killf f) := by
  rintro - _ _ ⟨⟩
  simp only [decodeRaw, opcode_encodeFA]
  exact congrArg (fun x => some (Instr.killf x)) (decodeFA_encodeFA _ f)
theorem Laws.OneWord.killf (f : FA) : Laws.OneWord.Statement (.killf f) := rfl
theorem Laws.RoundTrip.bpt (f : FI) : Laws.RoundTrip.Statement (.bpt f) := by
  rintro - _ _ ⟨⟩
  simp only [decodeRaw, opcode_encodeFI]
  exact congrArg (fun x => some (Instr.bpt x)) (decodeFI_encodeFI _ f)
theorem Laws.OneWord.bpt (f : FI) : Laws.OneWord.Statement (.bpt f) := rfl
theorem Laws.RoundTrip.launch (f : FA) : Laws.RoundTrip.Statement (.launch f) := by
  rintro - _ _ ⟨⟩
  simp only [decodeRaw, opcode_encodeFA]
  exact congrArg (fun x => some (Instr.launch x)) (decodeFA_encodeFA _ f)
theorem Laws.OneWord.launch (f : FA) : Laws.OneWord.Statement (.launch f) := rfl
theorem Laws.RoundTrip.fork (f : FX) : Laws.RoundTrip.Statement (.fork f) := by
  rintro - _ _ ⟨⟩
  simp only [decodeRaw, opcode_encodeFX]
  exact congrArg (fun x => some (Instr.fork x)) (decodeFX_encodeFX _ f)
theorem Laws.OneWord.fork (f : FX) : Laws.OneWord.Statement (.fork f) := rfl
theorem Laws.RoundTrip.rdv (f : FX) : Laws.RoundTrip.Statement (.rdv f) := by
  rintro - _ _ ⟨⟩
  simp only [decodeRaw, opcode_encodeFX]
  exact congrArg (fun x => some (Instr.rdv x)) (decodeFX_encodeFX _ f)
theorem Laws.OneWord.rdv (f : FX) : Laws.OneWord.Statement (.rdv f) := rfl
theorem Laws.RoundTrip.setprio (f : FI) : Laws.RoundTrip.Statement (.setprio f) := by
  rintro - _ _ ⟨⟩
  simp only [decodeRaw, opcode_encodeFI]
  exact congrArg (fun x => some (Instr.setprio x)) (decodeFI_encodeFI _ f)
theorem Laws.OneWord.setprio (f : FI) : Laws.OneWord.Statement (.setprio f) := rfl
theorem Laws.RoundTrip.tmode (f : FI) : Laws.RoundTrip.Statement (.tmode f) := by
  rintro - _ _ ⟨⟩
  simp only [decodeRaw, opcode_encodeFI]
  exact congrArg (fun x => some (Instr.tmode x)) (decodeFI_encodeFI _ f)
theorem Laws.OneWord.tmode (f : FI) : Laws.OneWord.Statement (.tmode f) := rfl
theorem Laws.RoundTrip.xldec (f : FA) : Laws.RoundTrip.Statement (.xldec f) := by
  rintro - _ _ ⟨⟩
  simp only [decodeRaw, opcode_encodeFA]
  exact congrArg (fun x => some (Instr.xldec x)) (decodeFA_encodeFA _ f)
theorem Laws.OneWord.xldec (f : FA) : Laws.OneWord.Statement (.xldec f) := rfl
theorem Laws.RoundTrip.xlmap (f : FA) : Laws.RoundTrip.Statement (.xlmap f) := by
  intro h c w e
  have hb : (decodeFA (encodeFA 0x21 f)).md.getLsbD 0 = false := by
    rw [decodeFA_encodeFA]
    simp [Instr.wellFormed, Instr.fieldsOk, okA] at h
    simpa using congrArg (fun x => x.getLsbD 0) h.2.1.2
  have hl : (encodeFA 0x21 f).getLsbD 0 = false := by simpa [decodeFA] using hb
  obtain ⟨rfl, rfl⟩ : c = .sys ∧ w = encodeFA 0x21 f := by simpa [encode, eq_comm] using e
  simp only [decodeRaw, opcode_encodeFA]
  show some (if (encodeFA 0x21 f).getLsbD 0 then Instr.xlmapRaise (decodeFA _) else Instr.xlmap (decodeFA _)) = _
  rw [hl, decodeFA_encodeFA]; rfl
theorem Laws.OneWord.xlmap (f : FA) : Laws.OneWord.Statement (.xlmap f) := rfl
theorem Laws.RoundTrip.xlmapRaise (f : FA) : Laws.RoundTrip.Statement (.xlmapRaise f) := by
  intro h c w e
  have hb : (decodeFA (encodeFA 0x21 f)).md.getLsbD 0 = true := by
    rw [decodeFA_encodeFA]
    simp [Instr.wellFormed, Instr.fieldsOk, okA] at h
    exact h.2.1.2
  have hl : (encodeFA 0x21 f).getLsbD 0 = true := by simpa [decodeFA] using hb
  obtain ⟨rfl, rfl⟩ : c = .sys ∧ w = encodeFA 0x21 f := by simpa [encode, eq_comm] using e
  simp only [decodeRaw, opcode_encodeFA]
  show some (if (encodeFA 0x21 f).getLsbD 0 then Instr.xlmapRaise (decodeFA _) else Instr.xlmap (decodeFA _)) = _
  rw [hl, decodeFA_encodeFA]; rfl
theorem Laws.OneWord.xlmapRaise (f : FA) : Laws.OneWord.Statement (.xlmapRaise f) := rfl
theorem Laws.RoundTrip.vcdef (f : FA) : Laws.RoundTrip.Statement (.vcdef f) := by
  rintro - _ _ ⟨⟩
  simp only [decodeRaw, opcode_encodeFA]
  exact congrArg (fun x => some (Instr.vcdef x)) (decodeFA_encodeFA _ f)
theorem Laws.OneWord.vcdef (f : FA) : Laws.OneWord.Statement (.vcdef f) := rfl
theorem Laws.RoundTrip.vcsize (f : FA) : Laws.RoundTrip.Statement (.vcsize f) := by
  rintro - _ _ ⟨⟩
  simp only [decodeRaw, opcode_encodeFA]
  exact congrArg (fun x => some (Instr.vcsize x)) (decodeFA_encodeFA _ f)
theorem Laws.OneWord.vcsize (f : FA) : Laws.OneWord.Statement (.vcsize f) := rfl
theorem Laws.RoundTrip.vcmove (f : FA) : Laws.RoundTrip.Statement (.vcmove f) := by
  rintro - _ _ ⟨⟩
  simp only [decodeRaw, opcode_encodeFA]
  exact congrArg (fun x => some (Instr.vcmove x)) (decodeFA_encodeFA _ f)
theorem Laws.OneWord.vcmove (f : FA) : Laws.OneWord.Statement (.vcmove f) := rfl
theorem Laws.RoundTrip.vcflush (f : FA) : Laws.RoundTrip.Statement (.vcflush f) := by
  rintro - _ _ ⟨⟩
  simp only [decodeRaw, opcode_encodeFA]
  exact congrArg (fun x => some (Instr.vcflush x)) (decodeFA_encodeFA _ f)
theorem Laws.OneWord.vcflush (f : FA) : Laws.OneWord.Statement (.vcflush f) := rfl
theorem Laws.RoundTrip.biasflip (f : FA) : Laws.RoundTrip.Statement (.biasflip f) := by
  rintro - _ _ ⟨⟩
  simp only [decodeRaw, opcode_encodeFA]
  exact congrArg (fun x => some (Instr.biasflip x)) (decodeFA_encodeFA _ f)
theorem Laws.OneWord.biasflip (f : FA) : Laws.OneWord.Statement (.biasflip f) := rfl
theorem Laws.RoundTrip.qfeat (f : FI) : Laws.RoundTrip.Statement (.qfeat f) := by
  rintro - _ _ ⟨⟩
  simp only [decodeRaw, opcode_encodeFI]
  exact congrArg (fun x => some (Instr.qfeat x)) (decodeFI_encodeFI _ f)
theorem Laws.OneWord.qfeat (f : FI) : Laws.OneWord.Statement (.qfeat f) := rfl
theorem Laws.RoundTrip.clauseIssue (blk tl : Nat) : Laws.RoundTrip.Statement (.clauseIssue blk tl) := by
  rintro - _ _ ⟨⟩
theorem Laws.OneWord.clauseIssue (blk tl : Nat) : Laws.OneWord.Statement (.clauseIssue blk tl) := rfl
theorem Laws.RoundTrip.descheduleExpiry (blk tl : Nat) : Laws.RoundTrip.Statement (.descheduleExpiry blk tl) := by
  rintro - _ _ ⟨⟩
theorem Laws.OneWord.descheduleExpiry (blk tl : Nat) : Laws.OneWord.Statement (.descheduleExpiry blk tl) := rfl
theorem Laws.RoundTrip.yieldExpiry (blk tl : Nat) : Laws.RoundTrip.Statement (.yieldExpiry blk tl) := by
  rintro - _ _ ⟨⟩
theorem Laws.OneWord.yieldExpiry (blk tl : Nat) : Laws.OneWord.Statement (.yieldExpiry blk tl) := rfl
theorem Laws.RoundTrip.stallExpiry (blk tl : Nat) : Laws.RoundTrip.Statement (.stallExpiry blk tl) := by
  rintro - _ _ ⟨⟩
theorem Laws.OneWord.stallExpiry (blk tl : Nat) : Laws.OneWord.Statement (.stallExpiry blk tl) := rfl
theorem Laws.RoundTrip.slotLanding (blk tl op : Nat) : Laws.RoundTrip.Statement (.slotLanding blk tl op) := by
  rintro - _ _ ⟨⟩
theorem Laws.OneWord.slotLanding (blk tl op : Nat) : Laws.OneWord.Statement (.slotLanding blk tl op) := rfl
theorem Laws.RoundTrip.homeRelease (req : Nat) : Laws.RoundTrip.Statement (.homeRelease req) := by
  rintro - _ _ ⟨⟩
theorem Laws.OneWord.homeRelease (req : Nat) : Laws.OneWord.Statement (.homeRelease req) := rfl
theorem Laws.RoundTrip.homeAcquire (req : Nat) : Laws.RoundTrip.Statement (.homeAcquire req) := by
  rintro - _ _ ⟨⟩
theorem Laws.OneWord.homeAcquire (req : Nat) : Laws.OneWord.Statement (.homeAcquire req) := rfl
theorem Laws.RoundTrip.homeAtomic (req : Nat) : Laws.RoundTrip.Statement (.homeAtomic req) := by
  rintro - _ _ ⟨⟩
theorem Laws.OneWord.homeAtomic (req : Nat) : Laws.OneWord.Statement (.homeAtomic req) := rfl
theorem Laws.RoundTrip.homeFill (req : Nat) : Laws.RoundTrip.Statement (.homeFill req) := by
  rintro - _ _ ⟨⟩
theorem Laws.OneWord.homeFill (req : Nat) : Laws.OneWord.Statement (.homeFill req) := rfl
theorem Laws.RoundTrip.demandWriteBack (core : CoreRef) (gen : BitVec 4) : Laws.RoundTrip.Statement (.demandWriteBack core gen) := by
  rintro - _ _ ⟨⟩
theorem Laws.OneWord.demandWriteBack (core : CoreRef) (gen : BitVec 4) : Laws.OneWord.Statement (.demandWriteBack core gen) := rfl
theorem Laws.RoundTrip.writeBackArrival (core : CoreRef) (granule : Nat) : Laws.RoundTrip.Statement (.writeBackArrival core granule) := by
  rintro - _ _ ⟨⟩
theorem Laws.OneWord.writeBackArrival (core : CoreRef) (granule : Nat) : Laws.OneWord.Statement (.writeBackArrival core granule) := rfl
theorem Laws.RoundTrip.writeBackAck (req : Nat) : Laws.RoundTrip.Statement (.writeBackAck req) := by
  rintro - _ _ ⟨⟩
theorem Laws.OneWord.writeBackAck (req : Nat) : Laws.OneWord.Statement (.writeBackAck req) := rfl
theorem Laws.RoundTrip.boostNotice (core : CoreRef) (granule : Nat) (prio : BitVec 7) : Laws.RoundTrip.Statement (.boostNotice core granule prio) := by
  rintro - _ _ ⟨⟩
theorem Laws.OneWord.boostNotice (core : CoreRef) (granule : Nat) (prio : BitVec 7) : Laws.OneWord.Statement (.boostNotice core granule prio) := rfl
theorem Laws.RoundTrip.pageMoveSweepStep (ctx idx frame : Nat) : Laws.RoundTrip.Statement (.pageMoveSweepStep ctx idx frame) := by
  rintro - _ _ ⟨⟩
theorem Laws.OneWord.pageMoveSweepStep (ctx idx frame : Nat) : Laws.OneWord.Statement (.pageMoveSweepStep ctx idx frame) := rfl
theorem Laws.RoundTrip.vcCommandLanding (cmd : Nat) : Laws.RoundTrip.Statement (.vcCommandLanding cmd) := by
  rintro - _ _ ⟨⟩
theorem Laws.OneWord.vcCommandLanding (cmd : Nat) : Laws.OneWord.Statement (.vcCommandLanding cmd) := rfl
theorem Laws.RoundTrip.biasflipComplete (cmd : Nat) : Laws.RoundTrip.Statement (.biasflipComplete cmd) := by
  rintro - _ _ ⟨⟩
theorem Laws.OneWord.biasflipComplete (cmd : Nat) : Laws.OneWord.Statement (.biasflipComplete cmd) := rfl
theorem Laws.RoundTrip.engineDelivery (op : Nat) : Laws.RoundTrip.Statement (.engineDelivery op) := by
  rintro - _ _ ⟨⟩
theorem Laws.OneWord.engineDelivery (op : Nat) : Laws.OneWord.Statement (.engineDelivery op) := rfl
theorem Laws.RoundTrip.matrixOpStart (op : Nat) : Laws.RoundTrip.Statement (.matrixOpStart op) := by
  rintro - _ _ ⟨⟩
theorem Laws.OneWord.matrixOpStart (op : Nat) : Laws.OneWord.Statement (.matrixOpStart op) := rfl
theorem Laws.RoundTrip.sqwaitcExpiry (core : CoreRef) (kind : SeqKind) : Laws.RoundTrip.Statement (.sqwaitcExpiry core kind) := by
  rintro - _ _ ⟨⟩
theorem Laws.OneWord.sqwaitcExpiry (core : CoreRef) (kind : SeqKind) : Laws.OneWord.Statement (.sqwaitcExpiry core kind) := rfl
theorem Laws.RoundTrip.frontEndRequest (die : Nat) : Laws.RoundTrip.Statement (.frontEndRequest die) := by
  rintro - _ _ ⟨⟩
theorem Laws.OneWord.frontEndRequest (die : Nat) : Laws.OneWord.Statement (.frontEndRequest die) := rfl
theorem Laws.RoundTrip.paypushLanding (blk : Nat) : Laws.RoundTrip.Statement (.paypushLanding blk) := by
  rintro - _ _ ⟨⟩
theorem Laws.OneWord.paypushLanding (blk : Nat) : Laws.OneWord.Statement (.paypushLanding blk) := rfl
theorem Laws.RoundTrip.packetArrival (ctx : Nat) (p : Packet) : Laws.RoundTrip.Statement (.packetArrival ctx p) := by
  rintro - _ _ ⟨⟩
theorem Laws.OneWord.packetArrival (ctx : Nat) (p : Packet) : Laws.OneWord.Statement (.packetArrival ctx p) := rfl
theorem Laws.RoundTrip.watermarkFlit (ctx gdie owner : Nat) (wm : BitVec 48) : Laws.RoundTrip.Statement (.watermarkFlit ctx gdie owner wm) := by
  rintro - _ _ ⟨⟩
theorem Laws.OneWord.watermarkFlit (ctx gdie owner : Nat) (wm : BitVec 48) : Laws.OneWord.Statement (.watermarkFlit ctx gdie owner wm) := rfl
theorem Laws.RoundTrip.launchHead (ctx queue : Nat) : Laws.RoundTrip.Statement (.launchHead ctx queue) := by
  rintro - _ _ ⟨⟩
theorem Laws.OneWord.launchHead (ctx queue : Nat) : Laws.OneWord.Statement (.launchHead ctx queue) := rfl
theorem Laws.RoundTrip.blockPlace (launch : Nat) : Laws.RoundTrip.Statement (.blockPlace launch) := by
  rintro - _ _ ⟨⟩
theorem Laws.OneWord.blockPlace (launch : Nat) : Laws.OneWord.Statement (.blockPlace launch) := rfl
theorem Laws.RoundTrip.completionRecord (launch : Nat) : Laws.RoundTrip.Statement (.completionRecord launch) := by
  rintro - _ _ ⟨⟩
theorem Laws.OneWord.completionRecord (launch : Nat) : Laws.OneWord.Statement (.completionRecord launch) := rfl
theorem Laws.RoundTrip.preempt (core : CoreRef) : Laws.RoundTrip.Statement (.preempt core) := by
  rintro - _ _ ⟨⟩
theorem Laws.OneWord.preempt (core : CoreRef) : Laws.OneWord.Statement (.preempt core) := rfl
theorem Laws.RoundTrip.graceExpiry (core : CoreRef) : Laws.RoundTrip.Statement (.graceExpiry core) := by
  rintro - _ _ ⟨⟩
theorem Laws.OneWord.graceExpiry (core : CoreRef) : Laws.OneWord.Statement (.graceExpiry core) := rfl
theorem Laws.RoundTrip.engineDrainExpiry (core : CoreRef) : Laws.RoundTrip.Statement (.engineDrainExpiry core) := by
  rintro - _ _ ⟨⟩
theorem Laws.OneWord.engineDrainExpiry (core : CoreRef) : Laws.OneWord.Statement (.engineDrainExpiry core) := rfl
theorem Laws.RoundTrip.blockRestore (blk : Nat) (core : CoreRef) : Laws.RoundTrip.Statement (.blockRestore blk core) := by
  rintro - _ _ ⟨⟩
theorem Laws.OneWord.blockRestore (blk : Nat) (core : CoreRef) : Laws.OneWord.Statement (.blockRestore blk core) := rfl
theorem Laws.RoundTrip.fixedClockChange (die quad : Nat) : Laws.RoundTrip.Statement (.fixedClockChange die quad) := by
  rintro - _ _ ⟨⟩
theorem Laws.OneWord.fixedClockChange (die quad : Nat) : Laws.OneWord.Statement (.fixedClockChange die quad) := rfl
theorem Laws.RoundTrip.blockRelaunch (blk : Nat) (core : CoreRef) : Laws.RoundTrip.Statement (.blockRelaunch blk core) := by
  rintro - _ _ ⟨⟩
theorem Laws.OneWord.blockRelaunch (blk : Nat) (core : CoreRef) : Laws.OneWord.Statement (.blockRelaunch blk core) := rfl
theorem Laws.RoundTrip.billingSend (pkg : BitVec 14) (ctx : BitVec 10) : Laws.RoundTrip.Statement (.billingSend pkg ctx) := by
  rintro - _ _ ⟨⟩
theorem Laws.OneWord.billingSend (pkg : BitVec 14) (ctx : BitVec 10) : Laws.OneWord.Statement (.billingSend pkg ctx) := rfl
theorem Laws.RoundTrip.bootStep (ok : Bool) : Laws.RoundTrip.Statement (.bootStep ok) := by
  rintro - _ _ ⟨⟩
theorem Laws.OneWord.bootStep (ok : Bool) : Laws.OneWord.Statement (.bootStep ok) := rfl
theorem Laws.RoundTrip.create (slot : BitVec 10) (arg : BitVec 46) (ptr : BitVec 64) : Laws.RoundTrip.Statement (.create slot arg ptr) := by
  rintro - _ _ ⟨⟩
theorem Laws.OneWord.create (slot : BitVec 10) (arg : BitVec 46) (ptr : BitVec 64) : Laws.OneWord.Statement (.create slot arg ptr) := rfl
theorem Laws.RoundTrip.destroy (slot : BitVec 10) (arg : BitVec 46) (ptr : BitVec 64) : Laws.RoundTrip.Statement (.destroy slot arg ptr) := by
  rintro - _ _ ⟨⟩
theorem Laws.OneWord.destroy (slot : BitVec 10) (arg : BitVec 46) (ptr : BitVec 64) : Laws.OneWord.Statement (.destroy slot arg ptr) := rfl
theorem Laws.RoundTrip.inval (slot : BitVec 10) (arg : BitVec 46) (ptr : BitVec 64) : Laws.RoundTrip.Statement (.inval slot arg ptr) := by
  rintro - _ _ ⟨⟩
theorem Laws.OneWord.inval (slot : BitVec 10) (arg : BitVec 46) (ptr : BitVec 64) : Laws.OneWord.Statement (.inval slot arg ptr) := rfl
theorem Laws.RoundTrip.frmopen (slot : BitVec 10) (arg : BitVec 46) (ptr : BitVec 64) : Laws.RoundTrip.Statement (.frmopen slot arg ptr) := by
  rintro - _ _ ⟨⟩
theorem Laws.OneWord.frmopen (slot : BitVec 10) (arg : BitVec 46) (ptr : BitVec 64) : Laws.OneWord.Statement (.frmopen slot arg ptr) := rfl
theorem Laws.RoundTrip.frmclose (slot : BitVec 10) (arg : BitVec 46) (ptr : BitVec 64) : Laws.RoundTrip.Statement (.frmclose slot arg ptr) := by
  rintro - _ _ ⟨⟩
theorem Laws.OneWord.frmclose (slot : BitVec 10) (arg : BitVec 46) (ptr : BitVec 64) : Laws.OneWord.Statement (.frmclose slot arg ptr) := rfl
theorem Laws.RoundTrip.frmrel (slot : BitVec 10) (arg : BitVec 46) (ptr : BitVec 64) : Laws.RoundTrip.Statement (.frmrel slot arg ptr) := by
  rintro - _ _ ⟨⟩
theorem Laws.OneWord.frmrel (slot : BitVec 10) (arg : BitVec 46) (ptr : BitVec 64) : Laws.OneWord.Statement (.frmrel slot arg ptr) := rfl
theorem Laws.RoundTrip.resans (slot : BitVec 10) (arg : BitVec 46) (ptr : BitVec 64) : Laws.RoundTrip.Statement (.resans slot arg ptr) := by
  rintro - _ _ ⟨⟩
theorem Laws.OneWord.resans (slot : BitVec 10) (arg : BitVec 46) (ptr : BitVec 64) : Laws.OneWord.Statement (.resans slot arg ptr) := rfl
theorem Laws.RoundTrip.qbind (slot : BitVec 10) (arg : BitVec 46) (ptr : BitVec 64) : Laws.RoundTrip.Statement (.qbind slot arg ptr) := by
  rintro - _ _ ⟨⟩
theorem Laws.OneWord.qbind (slot : BitVec 10) (arg : BitVec 46) (ptr : BitVec 64) : Laws.OneWord.Statement (.qbind slot arg ptr) := rfl
theorem Laws.RoundTrip.migout (slot : BitVec 10) (arg : BitVec 46) (ptr : BitVec 64) : Laws.RoundTrip.Statement (.migout slot arg ptr) := by
  rintro - _ _ ⟨⟩
theorem Laws.OneWord.migout (slot : BitVec 10) (arg : BitVec 46) (ptr : BitVec 64) : Laws.OneWord.Statement (.migout slot arg ptr) := rfl
theorem Laws.RoundTrip.migin (slot : BitVec 10) (arg : BitVec 46) (ptr : BitVec 64) : Laws.RoundTrip.Statement (.migin slot arg ptr) := by
  rintro - _ _ ⟨⟩
theorem Laws.OneWord.migin (slot : BitVec 10) (arg : BitVec 46) (ptr : BitVec 64) : Laws.OneWord.Statement (.migin slot arg ptr) := rfl
theorem Laws.RoundTrip.hostCommandComplete : Laws.RoundTrip.Statement (.hostCommandComplete) := by
  rintro - _ _ ⟨⟩
theorem Laws.OneWord.hostCommandComplete : Laws.OneWord.Statement (.hostCommandComplete) := rfl
theorem Laws.RoundTrip.waitTimeout (w : Waiter) : Laws.RoundTrip.Statement (.waitTimeout w) := by
  rintro - _ _ ⟨⟩
theorem Laws.OneWord.waitTimeout (w : Waiter) : Laws.OneWord.Statement (.waitTimeout w) := rfl
theorem Laws.RoundTrip.eviction (core : CoreRef) (granule : Nat) : Laws.RoundTrip.Statement (.eviction core granule) := by
  rintro - _ _ ⟨⟩
theorem Laws.OneWord.eviction (core : CoreRef) (granule : Nat) : Laws.OneWord.Statement (.eviction core granule) := rfl
theorem Laws.RoundTrip.directoryRecall (granule : Nat) : Laws.RoundTrip.Statement (.directoryRecall granule) := by
  rintro - _ _ ⟨⟩
theorem Laws.OneWord.directoryRecall (granule : Nat) : Laws.OneWord.Statement (.directoryRecall granule) := rfl
theorem Laws.RoundTrip.dirtyNotice (granule : Nat) (pkg : BitVec 14) : Laws.RoundTrip.Statement (.dirtyNotice granule pkg) := by
  rintro - _ _ ⟨⟩
theorem Laws.OneWord.dirtyNotice (granule : Nat) (pkg : BitVec 14) : Laws.OneWord.Statement (.dirtyNotice granule pkg) := rfl
theorem Laws.RoundTrip.hostSnoop (pa : Nat) (inval : Option (List (BitVec 8))) : Laws.RoundTrip.Statement (.hostSnoop pa inval) := by
  rintro - _ _ ⟨⟩
theorem Laws.OneWord.hostSnoop (pa : Nat) (inval : Option (List (BitVec 8))) : Laws.OneWord.Statement (.hostSnoop pa inval) := rfl
theorem Laws.RoundTrip.hostMemAccess (pa : Nat) (data : List (BitVec 8)) : Laws.RoundTrip.Statement (.hostMemAccess pa data) := by
  rintro - _ _ ⟨⟩
theorem Laws.OneWord.hostMemAccess (pa : Nat) (data : List (BitVec 8)) : Laws.OneWord.Statement (.hostMemAccess pa data) := rfl
theorem Laws.RoundTrip.bankSleep (die bank : Nat) : Laws.RoundTrip.Statement (.bankSleep die bank) := by
  rintro - _ _ ⟨⟩
theorem Laws.OneWord.bankSleep (die bank : Nat) : Laws.OneWord.Statement (.bankSleep die bank) := rfl
theorem Laws.RoundTrip.l2DectedSwitch (die : Nat) : Laws.RoundTrip.Statement (.l2DectedSwitch die) := by
  rintro - _ _ ⟨⟩
theorem Laws.OneWord.l2DectedSwitch (die : Nat) : Laws.OneWord.Statement (.l2DectedSwitch die) := rfl
theorem Laws.RoundTrip.mresvPartnerTimeout (op : Nat) : Laws.RoundTrip.Statement (.mresvPartnerTimeout op) := by
  rintro - _ _ ⟨⟩
theorem Laws.OneWord.mresvPartnerTimeout (op : Nat) : Laws.OneWord.Statement (.mresvPartnerTimeout op) := rfl
theorem Laws.RoundTrip.tokenTimeout (ctx region : Nat) : Laws.RoundTrip.Statement (.tokenTimeout ctx region) := by
  rintro - _ _ ⟨⟩
theorem Laws.OneWord.tokenTimeout (ctx region : Nat) : Laws.OneWord.Statement (.tokenTimeout ctx region) := rfl
theorem Laws.RoundTrip.frameTimeout (ctx : Nat) : Laws.RoundTrip.Statement (.frameTimeout ctx) := by
  rintro - _ _ ⟨⟩
theorem Laws.OneWord.frameTimeout (ctx : Nat) : Laws.OneWord.Statement (.frameTimeout ctx) := rfl
theorem Laws.RoundTrip.pipelineEvaluation (launch : Nat) : Laws.RoundTrip.Statement (.pipelineEvaluation launch) := by
  rintro - _ _ ⟨⟩
theorem Laws.OneWord.pipelineEvaluation (launch : Nat) : Laws.OneWord.Statement (.pipelineEvaluation launch) := rfl
theorem Laws.RoundTrip.quadGate (die quad : Nat) : Laws.RoundTrip.Statement (.quadGate die quad) := by
  rintro - _ _ ⟨⟩
theorem Laws.OneWord.quadGate (die quad : Nat) : Laws.OneWord.Statement (.quadGate die quad) := rfl
theorem Laws.RoundTrip.uncorrectableError (site : ErrSite) : Laws.RoundTrip.Statement (.uncorrectableError site) := by
  rintro - _ _ ⟨⟩
theorem Laws.OneWord.uncorrectableError (site : ErrSite) : Laws.OneWord.Statement (.uncorrectableError site) := rfl
theorem Laws.RoundTrip.corrected (site : ErrSite) : Laws.RoundTrip.Statement (.corrected site) := by
  rintro - _ _ ⟨⟩
theorem Laws.OneWord.corrected (site : ErrSite) : Laws.OneWord.Statement (.corrected site) := rfl
theorem Laws.RoundTrip.scrub (found : List ErrSite) : Laws.RoundTrip.Statement (.scrub found) := by
  rintro - _ _ ⟨⟩
theorem Laws.OneWord.scrub (found : List ErrSite) : Laws.OneWord.Statement (.scrub found) := rfl
theorem Laws.RoundTrip.dieLost (die : Nat) : Laws.RoundTrip.Statement (.dieLost die) := by
  rintro - _ _ ⟨⟩
theorem Laws.OneWord.dieLost (die : Nat) : Laws.OneWord.Statement (.dieLost die) := rfl
theorem Laws.RoundTrip.heartbeatSend : Laws.RoundTrip.Statement (.heartbeatSend) := by
  rintro - _ _ ⟨⟩
theorem Laws.OneWord.heartbeatSend : Laws.OneWord.Statement (.heartbeatSend) := rfl
theorem Laws.RoundTrip.silenceNotice (pkg : BitVec 14) (plane : Nat) : Laws.RoundTrip.Statement (.silenceNotice pkg plane) := by
  rintro - _ _ ⟨⟩
theorem Laws.OneWord.silenceNotice (pkg : BitVec 14) (plane : Nat) : Laws.OneWord.Statement (.silenceNotice pkg plane) := rfl
theorem Laws.RoundTrip.linkLaneLoss (link lane : Nat) : Laws.RoundTrip.Statement (.linkLaneLoss link lane) := by
  rintro - _ _ ⟨⟩
theorem Laws.OneWord.linkLaneLoss (link lane : Nat) : Laws.OneWord.Statement (.linkLaneLoss link lane) := rfl
theorem Laws.RoundTrip.linkRetrainDone (link : Nat) (lanes : BitVec 4) : Laws.RoundTrip.Statement (.linkRetrainDone link lanes) := by
  rintro - _ _ ⟨⟩
theorem Laws.OneWord.linkRetrainDone (link : Nat) (lanes : BitVec 4) : Laws.OneWord.Statement (.linkRetrainDone link lanes) := rfl
theorem Laws.RoundTrip.remoteRequest (q : RemoteReq) : Laws.RoundTrip.Statement (.remoteRequest q) := by
  rintro - _ _ ⟨⟩
theorem Laws.OneWord.remoteRequest (q : RemoteReq) : Laws.OneWord.Statement (.remoteRequest q) := rfl
theorem Laws.RoundTrip.podArrivalFlit (gid : BitVec 32) (src : BitVec 14) : Laws.RoundTrip.Statement (.podArrivalFlit gid src) := by
  rintro - _ _ ⟨⟩
theorem Laws.OneWord.podArrivalFlit (gid : BitVec 32) (src : BitVec 14) : Laws.OneWord.Statement (.podArrivalFlit gid src) := rfl
theorem Laws.RoundTrip.podReleaseFlit (gid : BitVec 32) : Laws.RoundTrip.Statement (.podReleaseFlit gid) := by
  rintro - _ _ ⟨⟩
theorem Laws.OneWord.podReleaseFlit (gid : BitVec 32) : Laws.OneWord.Statement (.podReleaseFlit gid) := rfl
theorem Laws.RoundTrip.billingFlit (src : BitVec 14) (ctx : BitVec 10) (pj : BitVec 64) : Laws.RoundTrip.Statement (.billingFlit src ctx pj) := by
  rintro - _ _ ⟨⟩
theorem Laws.OneWord.billingFlit (src : BitVec 14) (ctx : BitVec 10) (pj : BitVec 64) : Laws.OneWord.Statement (.billingFlit src ctx pj) := rfl
theorem Laws.RoundTrip.fabricEnable (digestsMatch : Bool) : Laws.RoundTrip.Statement (.fabricEnable digestsMatch) := by
  rintro - _ _ ⟨⟩
theorem Laws.OneWord.fabricEnable (digestsMatch : Bool) : Laws.OneWord.Statement (.fabricEnable digestsMatch) := rfl
theorem Laws.RoundTrip.lostMarkClear (pkg : BitVec 14) : Laws.RoundTrip.Statement (.lostMarkClear pkg) := by
  rintro - _ _ ⟨⟩
theorem Laws.OneWord.lostMarkClear (pkg : BitVec 14) : Laws.OneWord.Statement (.lostMarkClear pkg) := rfl
theorem Laws.RoundTrip.powerEvaluation (die : Nat) (m : PowerReading) : Laws.RoundTrip.Statement (.powerEvaluation die m) := by
  rintro - _ _ ⟨⟩
theorem Laws.OneWord.powerEvaluation (die : Nat) (m : PowerReading) : Laws.OneWord.Statement (.powerEvaluation die m) := rfl
theorem Laws.RoundTrip.energyAccounting (die quad : Nat) (nj : Nat) (shares : List (Nat × Nat)) : Laws.RoundTrip.Statement (.energyAccounting die quad nj shares) := by
  rintro - _ _ ⟨⟩
theorem Laws.OneWord.energyAccounting (die quad : Nat) (nj : Nat) (shares : List (Nat × Nat)) : Laws.OneWord.Statement (.energyAccounting die quad nj shares) := rfl
theorem Laws.RoundTrip.thermalReading (die quad : Nat) (temp base : Int) : Laws.RoundTrip.Statement (.thermalReading die quad temp base) := by
  rintro - _ _ ⟨⟩
theorem Laws.OneWord.thermalReading (die quad : Nat) (temp base : Int) : Laws.OneWord.Statement (.thermalReading die quad temp base) := rfl
theorem Laws.RoundTrip.droopDetect (die quad : Nat) : Laws.RoundTrip.Statement (.droopDetect die quad) := by
  rintro - _ _ ⟨⟩
theorem Laws.OneWord.droopDetect (die quad : Nat) : Laws.OneWord.Statement (.droopDetect die quad) := rfl
theorem Laws.RoundTrip.droopLimit (die quad : Nat) : Laws.RoundTrip.Statement (.droopLimit die quad) := by
  rintro - _ _ ⟨⟩
theorem Laws.OneWord.droopLimit (die quad : Nat) : Laws.OneWord.Statement (.droopLimit die quad) := rfl
theorem Laws.RoundTrip.droopRecover (die quad : Nat) : Laws.RoundTrip.Statement (.droopRecover die quad) := by
  rintro - _ _ ⟨⟩
theorem Laws.OneWord.droopRecover (die quad : Nat) : Laws.OneWord.Statement (.droopRecover die quad) := rfl
theorem Laws.RoundTrip.droopFloorExpiry (die quad : Nat) : Laws.RoundTrip.Statement (.droopFloorExpiry die quad) := by
  rintro - _ _ ⟨⟩
theorem Laws.OneWord.droopFloorExpiry (die quad : Nat) : Laws.OneWord.Statement (.droopFloorExpiry die quad) := rfl
theorem Laws.RoundTrip.regFailed (die reg : Nat) : Laws.RoundTrip.Statement (.regFailed die reg) := by
  rintro - _ _ ⟨⟩
theorem Laws.OneWord.regFailed (die reg : Nat) : Laws.OneWord.Statement (.regFailed die reg) := rfl
theorem Laws.RoundTrip.pwrlimWrite (v : BitVec 64) : Laws.RoundTrip.Statement (.pwrlimWrite v) := by
  rintro - _ _ ⟨⟩
theorem Laws.OneWord.pwrlimWrite (v : BitVec 64) : Laws.OneWord.Statement (.pwrlimWrite v) := rfl
theorem Laws.RoundTrip.packageReset : Laws.RoundTrip.Statement (.packageReset) := by
  rintro - _ _ ⟨⟩
theorem Laws.OneWord.packageReset : Laws.OneWord.Statement (.packageReset) := rfl
theorem Laws.RoundTrip.pkgctlRst (v : BitVec 64) : Laws.RoundTrip.Statement (.pkgctlRst v) := by
  rintro - _ _ ⟨⟩
theorem Laws.OneWord.pkgctlRst (v : BitVec 64) : Laws.OneWord.Statement (.pkgctlRst v) := rfl
theorem Laws.RoundTrip.tailReread (ctx queue : Nat) : Laws.RoundTrip.Statement (.tailReread ctx queue) := by
  rintro - _ _ ⟨⟩
theorem Laws.OneWord.tailReread (ctx queue : Nat) : Laws.OneWord.Statement (.tailReread ctx queue) := rfl
theorem Laws.RoundTrip.registerWrite (off : BitVec 20) (v : BitVec 64) : Laws.RoundTrip.Statement (.registerWrite off v) := by
  rintro - _ _ ⟨⟩
theorem Laws.OneWord.registerWrite (off : BitVec 20) (v : BitVec 64) : Laws.OneWord.Statement (.registerWrite off v) := rfl
theorem Laws.RoundTrip.stretchedCycle (die quad : Nat) (stillLow : Bool) : Laws.RoundTrip.Statement (.stretchedCycle die quad stillLow) := by
  rintro - _ _ ⟨⟩
theorem Laws.OneWord.stretchedCycle (die quad : Nat) (stillLow : Bool) : Laws.OneWord.Statement (.stretchedCycle die quad stillLow) := rfl
theorem Laws.RoundTrip.shuntClamp (die quad : Nat) : Laws.RoundTrip.Statement (.shuntClamp die quad) := by
  rintro - _ _ ⟨⟩
theorem Laws.OneWord.shuntClamp (die quad : Nat) : Laws.OneWord.Statement (.shuntClamp die quad) := rfl
theorem Laws.RoundTrip.way7ReturnToVc1 (die : Nat) : Laws.RoundTrip.Statement (.way7ReturnToVc1 die) := by
  rintro - _ _ ⟨⟩
theorem Laws.OneWord.way7ReturnToVc1 (die : Nat) : Laws.OneWord.Statement (.way7ReturnToVc1 die) := rfl

end Sys2Proof
end

