-- ==== Sys2Proof/Tests/Slice0.lean ====
section
/-! SUPPORT. Tests: decoding words written out field by field from the encoding tables and words the spec prints, ill-formed terms,
results of single steps with the spec's own numbers, and for each statement a state and operands that meet its hypotheses. -/

set_option Elab.async false
open Sys2Proof Sys2Proof.Machine Sys2Proof.Safety
namespace Sys2Proof.Tests

/-- The decoder reads instruction i from word w of a clause of class c. -/
def decodesTo (c : Cls) (w : DWord) (i : Instr) : Bool :=
  match decodeWord c w with
  | .ok j => decide (j = i)
  | .error _ => false

/-! ### Decoding: one word per encoded constructor, its fields placed by hand from R110 to R113, R289 and the encoding tables -/

def wordsAlu0 : List (DWord × Instr) :=
  [(0x0070000000000000, .nop ⟨3, true, 0, 0, 0, 0, false, false, false, false, 0, false, 0x0⟩),
   (0x0170507000080000, .mov ⟨3, true, 5, 7, 0, 0, true, false, false, false, 0, false, 0x0⟩),
   (0x02A2C00089ABCDEF, .movi ⟨5, false, 44, 0, false, 0, 0x89abcdef⟩),
   (0x0370500250010000, .movk ⟨3, true, 5, 0, 37, 0, false, false, false, true, 0, false, 0x0⟩),
   (0x0470507250090003, .iadd ⟨3, true, 5, 7, 37, 0, true, false, false, true, 0, false, 0x3⟩),
   (0x05A2C1EB89ABCDEF, .iaddI ⟨5, false, 44, 30, true, 3, 0x89abcdef⟩),
   (0x0670507250090002, .isub ⟨3, true, 5, 7, 37, 0, true, false, false, true, 0, false, 0x2⟩),
   (0x07A2C1E989ABCDEF, .isubI ⟨5, false, 44, 30, true, 1, 0x89abcdef⟩),
   (0x0870507250090001, .imul ⟨3, true, 5, 7, 37, 0, true, false, false, true, 0, false, 0x1⟩),
   (0x09A2C1EA89ABCDEF, .imulI ⟨5, false, 44, 30, true, 2, 0x89abcdef⟩),
   (0x0A70507250090001, .imulhi ⟨3, true, 5, 7, 37, 0, true, false, false, true, 0, false, 0x1⟩),
   (0x0B70507250BB0003, .imad ⟨3, true, 5, 7, 37, 11, true, false, true, true, 0, false, 0x3⟩),
   (0x0C70E07251EB0002, .imadw ⟨3, true, 14, 7, 37, 30, true, false, true, true, 0, false, 0x2⟩),
   (0x0D70E161A00C0003, .iadd64 ⟨3, true, 14, 22, 26, 0, true, true, false, false, 0, false, 0x3⟩),
   (0x0E70E161A00C0001, .isub64 ⟨3, true, 14, 22, 26, 0, true, true, false, false, 0, false, 0x1⟩),
   (0x0F70507250090001, .imin ⟨3, true, 5, 7, 37, 0, true, false, false, true, 0, false, 0x1⟩),
   (0x10A2C1E989ABCDEF, .iminI ⟨5, false, 44, 30, true, 1, 0x89abcdef⟩),
   (0x1170507250090001, .imax ⟨3, true, 5, 7, 37, 0, true, false, false, true, 0, false, 0x1⟩),
   (0x12A2C1E989ABCDEF, .imaxI ⟨5, false, 44, 30, true, 1, 0x89abcdef⟩),
   (0x1370507000080002, .iabs ⟨3, true, 5, 7, 0, 0, true, false, false, false, 0, false, 0x2⟩),
   (0x1470507000080002, .ineg ⟨3, true, 5, 7, 0, 0, true, false, false, false, 0, false, 0x2⟩),
   (0x1570507250BB00CA, .logt ⟨3, true, 5, 7, 37, 11, true, false, true, true, 0, false, 0xca⟩),
   (0x1670507250090000, .and ⟨3, true, 5, 7, 37, 0, true, false, false, true, 0, false, 0x0⟩),
   (0x17A2C1E889ABCDEF, .andI ⟨5, false, 44, 30, true, 0, 0x89abcdef⟩)]
theorem test_wordsAlu0 : (wordsAlu0.all fun p => decodesTo .alu p.1 p.2) = true := by decide +kernel
def wordsAlu1 : List (DWord × Instr) :=
  [(0x1870507250090000, .or ⟨3, true, 5, 7, 37, 0, true, false, false, true, 0, false, 0x0⟩),
   (0x19A2C1E889ABCDEF, .orI ⟨5, false, 44, 30, true, 0, 0x89abcdef⟩),
   (0x1A70507250090000, .xor ⟨3, true, 5, 7, 37, 0, true, false, false, true, 0, false, 0x0⟩),
   (0x1BA2C1E889ABCDEF, .xorI ⟨5, false, 44, 30, true, 0, 0x89abcdef⟩),
   (0x1C70507000080000, .not ⟨3, true, 5, 7, 0, 0, true, false, false, false, 0, false, 0x0⟩),
   (0x1D70507250090001, .shl ⟨3, true, 5, 7, 37, 0, true, false, false, true, 0, false, 0x1⟩),
   (0x1EA2C1E989ABCDEF, .shlI ⟨5, false, 44, 30, true, 1, 0x89abcdef⟩),
   (0x1F70507250090001, .shr ⟨3, true, 5, 7, 37, 0, true, false, false, true, 0, false, 0x1⟩),
   (0x20A2C1E989ABCDEF, .shrI ⟨5, false, 44, 30, true, 1, 0x89abcdef⟩),
   (0x2170507250090001, .sar ⟨3, true, 5, 7, 37, 0, true, false, false, true, 0, false, 0x1⟩),
   (0x22A2C1E989ABCDEF, .sarI ⟨5, false, 44, 30, true, 1, 0x89abcdef⟩),
   (0x2370507250BB0003, .shf ⟨3, true, 5, 7, 37, 11, true, false, true, true, 0, false, 0x3⟩),
   (0x2470507250090001, .bfx ⟨3, true, 5, 7, 37, 0, true, false, false, true, 0, false, 0x1⟩),
   (0x2570507250BB0000, .bfi ⟨3, true, 5, 7, 37, 11, true, false, true, true, 0, false, 0x0⟩),
   (0x2670507000080000, .popc ⟨3, true, 5, 7, 0, 0, true, false, false, false, 0, false, 0x0⟩),
   (0x2770507000080000, .clz ⟨3, true, 5, 7, 0, 0, true, false, false, false, 0, false, 0x0⟩),
   (0x2870507000080000, .ctz ⟨3, true, 5, 7, 0, 0, true, false, false, false, 0, false, 0x0⟩),
   (0x2970507000080000, .brev ⟨3, true, 5, 7, 0, 0, true, false, false, false, 0, false, 0x0⟩),
   (0x2A70507250BB0000, .prmb ⟨3, true, 5, 7, 37, 11, true, false, true, true, 0, false, 0x0⟩),
   (0x2B7830725009002D, .iset ⟨3, true, 131, 7, 37, 0, true, false, false, true, 0, false, 0x2d⟩),
   (0x2CA471EE89ABCDEF, .isetI ⟨5, false, 71, 30, true, 6, 0x89abcdef⟩),
   (0x2D783161A00C001B, .iset64 ⟨3, true, 131, 22, 26, 0, true, true, false, false, 0, false, 0x1b⟩),
   (0x2E70507250E90000, .sel ⟨3, true, 5, 7, 37, 14, true, false, false, true, 0, false, 0x0⟩),
   (0x2F70E1625009001B, .lea ⟨3, true, 14, 22, 37, 0, true, false, false, true, 0, false, 0x1b⟩)]
theorem test_wordsAlu1 : (wordsAlu1.all fun p => decodesTo .alu p.1 p.2) = true := by decide +kernel
def wordsAlu2 : List (DWord × Instr) :=
  [(0x30A2C1E989ABCDEF, .leaI ⟨5, false, 44, 30, true, 1, 0x89abcdef⟩),
   (0x3170E16000080173, .i2i ⟨3, true, 14, 22, 0, 0, true, false, false, false, 0, false, 0x173⟩),
   (0x327050D060E00096, .plop ⟨3, true, 5, 13, 6, 14, false, false, false, false, 0, false, 0x96⟩),
   (0x33700070000807F1, .pset ⟨3, true, 0, 7, 0, 0, true, false, false, false, 0, false, 0x7f1⟩),
   (0x3470500000000012, .srd ⟨3, true, 5, 0, 0, 0, false, false, false, false, 0, false, 0x12⟩),
   (0x3570E00000000001, .cyc ⟨3, true, 14, 0, 0, 0, false, false, false, false, 0, false, 0x1⟩),
   (0x367050D000000002, .gpoll ⟨3, true, 5, 13, 0, 0, false, false, false, false, 0, false, 0x2⟩),
   (0x3770507250090016, .gxch ⟨3, true, 5, 7, 37, 0, true, false, false, true, 0, false, 0x16⟩),
   (0x3870516000080003, .gpeer ⟨3, true, 5, 22, 0, 0, true, false, false, false, 0, false, 0x3⟩),
   (0x40380000FFFFFFFA, .bra ⟨1, true, 2, 0, 0, 0, 0xfffffffa⟩),
   (0x4134001200000064, .brx ⟨1, true, 1, 0, 0, 18, 0x64⟩),
   (0x423C011400000000, .call ⟨1, true, 3, 0, 1, 20, 0x0⟩),
   (0x4330001600000000, .ret ⟨1, true, 0, 0, 0, 22, 0x0⟩),
   (0x4430000000000000, .exit ⟨1, true, 0, 0, 0, 0, 0x0⟩),
   (0x4532C00000000000, .jset ⟨1, true, 0, 11, 0, 0, 0x0⟩),
   (0x4633800000000000, .jwait ⟨1, true, 0, 14, 0, 0, 0x0⟩),
   (0x4730000000000000, .yield ⟨1, true, 0, 0, 0, 0, 0x0⟩),
   (0x60705072500900C7, .fadd ⟨3, true, 5, 7, 37, 0, true, false, false, true, 0, false, 0xc7⟩),
   (0x61A2C1ED89ABCDEF, .faddI ⟨5, false, 44, 30, true, 5, 0x89abcdef⟩),
   (0x627050725009009E, .fmul ⟨3, true, 5, 7, 37, 0, true, false, false, true, 0, false, 0x9e⟩),
   (0x63A2C1EE89ABCDEF, .fmulI ⟨5, false, 44, 30, true, 6, 0x89abcdef⟩),
   (0x6470507250BB01E5, .ffma ⟨3, true, 5, 7, 37, 11, true, false, true, true, 0, false, 0x1e5⟩),
   (0x6570507250090047, .fmulz ⟨3, true, 5, 7, 37, 0, true, false, false, true, 0, false, 0x47⟩),
   (0x66705072500900C9, .fmin ⟨3, true, 5, 7, 37, 0, true, false, false, true, 0, false, 0xc9⟩)]
theorem test_wordsAlu2 : (wordsAlu2.all fun p => decodesTo .alu p.1 p.2) = true := by decide +kernel
def wordsAlu3 : List (DWord × Instr) :=
  [(0x6770507250090091, .fmax ⟨3, true, 5, 7, 37, 0, true, false, false, true, 0, false, 0x91⟩),
   (0x68783072500903EE, .fset ⟨3, true, 131, 7, 37, 0, true, false, false, true, 0, false, 0x3ee⟩),
   (0x69A471EF89ABCDEF, .fsetI ⟨5, false, 71, 30, true, 7, 0x89abcdef⟩),
   (0x6A70507000080006, .fclass ⟨3, true, 5, 7, 0, 0, true, false, false, false, 0, false, 0x6⟩),
   (0x6B70E16000080007, .frnd ⟨3, true, 14, 22, 0, 0, true, false, false, false, 0, false, 0x7⟩),
   (0x6C70E0700008026B, .f2i ⟨3, true, 14, 7, 0, 0, true, false, false, false, 0, false, 0x26b⟩),
   (0x6D70507000080097, .i2f ⟨3, true, 5, 7, 0, 0, true, false, false, false, 0, false, 0x97⟩),
   (0x6E70507000BA0281, .f2f ⟨3, true, 5, 7, 0, 11, true, false, true, false, 0, false, 0x281⟩),
   (0x6F7050700008001E, .fsf ⟨3, true, 5, 7, 0, 0, true, false, false, false, 0, false, 0x1e⟩),
   (0x707050725009004F, .pkadd ⟨3, true, 5, 7, 37, 0, true, false, false, true, 0, false, 0x4f⟩),
   (0x7170507250090057, .pkmul ⟨3, true, 5, 7, 37, 0, true, false, false, true, 0, false, 0x57⟩),
   (0x7270507250BB007B, .pkfma ⟨3, true, 5, 7, 37, 11, true, false, true, true, 0, false, 0x7b⟩),
   (0x7370507250BB003E, .pkdot ⟨3, true, 5, 7, 37, 11, true, false, true, true, 0, false, 0x3e⟩),
   (0x7470E161A00C00DA, .dadd ⟨3, true, 14, 22, 26, 0, true, true, false, false, 0, false, 0xda⟩),
   (0x7570E161A00C008B, .dmul ⟨3, true, 14, 22, 26, 0, true, true, false, false, 0, false, 0x8b⟩),
   (0x7670E161A1EE01A3, .dfma ⟨3, true, 14, 22, 26, 30, true, true, true, false, 0, false, 0x1a3⟩)]
theorem test_wordsAlu3 : (wordsAlu3.all fun p => decodesTo .alu p.1 p.2) = true := by decide +kernel
def wordsMem : List (DWord × Instr) :=
  [(0x00509168699FFFF4, .ld ⟨2, true, 9, 22, true, false, 0, 6, true, 1, 9, 0xffff4⟩),
   (0x0152416C04401234, .st ⟨2, true, 36, 22, true, true, 0, 0, false, 4, 4, 0x1234⟩),
   (0x0250E0783B0FFFFF, .ldl ⟨2, true, 14, 7, true, false, 0, 3, true, 3, 0, 0xfffff⟩),
   (0x0350907400000005, .stl ⟨2, true, 9, 7, false, true, 0, 0, false, 0, 0, 0x5⟩),
   (0x0450907878100040, .ldp ⟨2, true, 9, 7, true, false, 0, 7, true, 0, 1, 0x40⟩),
   (0x0550E074030FFFF8, .stp ⟨2, true, 14, 7, false, true, 0, 0, false, 3, 0, 0xffff8⟩),
   (0x065240782C000020, .ldk ⟨2, true, 36, 7, true, false, 0, 2, true, 4, 0, 0x20⟩),
   (0x075141626A97FFFC, .atom ⟨2, true, 20, 22, false, false, 4, 6, true, 2, 9, 0x7fffc⟩),
   (0x0850E16D83700008, .red ⟨2, true, 14, 22, true, true, 3, 0, false, 3, 7, 0x8⟩),
   (0x095090781AA3FFFC, .atoml ⟨2, true, 9, 7, true, false, 0, 1, true, 2, 10, 0x3fffc⟩),
   (0x0A50E16ACB0FFFC0, .acq ⟨2, true, 14, 22, true, false, 5, 4, true, 3, 0, 0xfffc0⟩),
   (0x0B50916D02000004, .rel ⟨2, true, 9, 22, true, true, 2, 0, false, 2, 0, 0x4⟩),
   (0x0C50000280000000, .phase ⟨2, true, 0, 0, false, false, 5, 0, false, 0, 0, 0x0⟩),
   (0x0D50016800200007, .pref ⟨2, true, 0, 22, true, false, 0, 0, false, 0, 2, 0x7⟩),
   (0x0E50016800300080, .cline ⟨2, true, 0, 22, true, false, 0, 0, false, 0, 3, 0x80⟩),
   (0x0F50000000000000, .drainst ⟨2, true, 0, 0, false, false, 0, 0, false, 0, 0, 0x0⟩),
   (0x1050E1685B100010, .vcqry ⟨2, true, 14, 22, true, false, 0, 5, true, 3, 1, 0x10⟩)]
theorem test_wordsMem : (wordsMem.all fun p => decodesTo .mem p.1 p.2) = true := by decide +kernel
def wordsSync : List (DWord × Instr) :=
  [(0x0050000280000000, .bar ⟨2, true, 0, 0, false, false, 5, 0, false, 0, 0, 0x0⟩),
   (0x0150000080900000, .bararv ⟨2, true, 0, 0, false, false, 1, 0, false, 0, 9, 0x0⟩),
   (0x0250000180200000, .barwait ⟨2, true, 0, 0, false, false, 3, 0, false, 0, 2, 0x0⟩),
   (0x0350907C00000010, .boinit ⟨2, true, 9, 7, true, true, 0, 0, false, 0, 0, 0x10⟩),
   (0x0450907C00100020, .boexp ⟨2, true, 9, 7, true, true, 0, 0, false, 0, 1, 0x20⟩),
   (0x05500078000FFFF0, .boarv ⟨2, true, 0, 7, true, false, 0, 0, false, 0, 0, 0xffff0⟩),
   (0x0650907C00000030, .bowait ⟨2, true, 9, 7, true, true, 0, 0, false, 0, 0, 0x30⟩),
   (0x0750907400600010, .botest ⟨2, true, 9, 7, false, true, 0, 0, false, 0, 6, 0x10⟩),
   (0x0850907C00E00008, .qdef ⟨2, true, 9, 7, true, true, 0, 0, false, 0, 14, 0x8⟩),
   (0x0950900400D00000, .qpush ⟨2, true, 9, 0, false, true, 0, 0, false, 0, 13, 0x0⟩),
   (0x0A50900000B00000, .qpop ⟨2, true, 9, 0, false, false, 0, 0, false, 0, 11, 0x0⟩),
   (0x0B50900000C0000D, .qtry ⟨2, true, 9, 0, false, false, 0, 0, false, 0, 12, 0xd⟩)]
theorem test_wordsSync : (wordsSync.all fun p => decodesTo .sync p.1 p.2) = true := by decide +kernel
def wordsEng : List (DWord × Instr) :=
  [(0x0091809C381EC000, .cpy ⟨4, true, 24, 9, true, true, 14, 7, 11, 0⟩),
   (0x0191809C381EC000, .cpyg ⟨4, true, 24, 9, true, true, 14, 7, 11, 0⟩),
   (0x0291809C381EC00A, .cpys ⟨4, true, 24, 9, true, true, 14, 7, 11, 10⟩),
   (0x0391809C381EC000, .cpyfill ⟨4, true, 24, 9, true, true, 14, 7, 11, 0⟩),
   (0x0491809C381EC000, .ctload ⟨4, true, 24, 9, true, true, 14, 7, 11, 0⟩),
   (0x0591809C381EC000, .decent ⟨4, true, 24, 9, true, true, 14, 7, 11, 0⟩),
   (0x0691809C381EC000, .decbr ⟨4, true, 24, 9, true, true, 14, 7, 11, 0⟩),
   (0x1091809C381EC000, .mresv ⟨4, true, 24, 9, true, true, 14, 7, 11, 0⟩),
   (0x1191809C381EC000, .mrels ⟨4, true, 24, 9, true, true, 14, 7, 11, 0⟩),
   (0x1291809C381EC000, .mload ⟨4, true, 24, 9, true, true, 14, 7, 11, 0⟩),
   (0x1391809C381EC000, .mcbl ⟨4, true, 24, 9, true, true, 14, 7, 11, 0⟩),
   (0x1491809C381EC000, .mma ⟨4, true, 24, 9, true, true, 14, 7, 11, 0⟩),
   (0x1591809C381EC000, .mmai ⟨4, true, 24, 9, true, true, 14, 7, 11, 0⟩),
   (0x1691809C381EC000, .mzero ⟨4, true, 24, 9, true, true, 14, 7, 11, 0⟩),
   (0x1791809C381EC000, .mstore ⟨4, true, 24, 9, true, true, 14, 7, 11, 0⟩),
   (0x1891809C381EC000, .mstat ⟨4, true, 24, 9, true, true, 14, 7, 11, 0⟩),
   (0x1991809C381EC000, .mchk ⟨4, true, 24, 9, true, true, 14, 7, 11, 0⟩),
   (0x2091809C381EC000, .rayq ⟨4, true, 24, 9, true, true, 14, 7, 11, 0⟩)]
theorem test_wordsEng : (wordsEng.all fun p => decodesTo .eng p.1 p.2) = true := by decide +kernel
def wordsSeq : List (DWord × Instr) :=
  [(0x0000000000000000, .sqnop ⟨0, 0, 0x0, 0x0, 0x0⟩),
   (0x0102A5C30000BFC0, .sqloop ⟨0, 0, 0x2a5c3, 0x0, 0xbfc0⟩),
   (0x0200000000000000, .sqend ⟨0, 0, 0x0, 0x0, 0x0⟩),
   (0x03000001DEADBEEF, .sqwaitc ⟨0, 0, 0x1, 0xdead, 0xbeef⟩),
   (0x0418001F00090001, .sqboarv ⟨0, 6, 0x1f, 0x9, 0x1⟩),
   (0x0514000012340007, .sqbowait ⟨0, 5, 0x0, 0x1234, 0x7⟩),
   (0x40BB000180030000, .seqCpy ⟨5, 6, 0x30001, 0x8003, 0x0⟩),
   (0x41BB000180030000, .seqCpyg ⟨5, 6, 0x30001, 0x8003, 0x0⟩),
   (0x42BB000180030006, .seqCpys ⟨5, 6, 0x30001, 0x8003, 0x6⟩),
   (0x43BB000180030000, .seqCpyfill ⟨5, 6, 0x30001, 0x8003, 0x0⟩),
   (0x44BB000180030000, .seqCtload ⟨5, 6, 0x30001, 0x8003, 0x0⟩),
   (0x45BB000180030000, .seqDecent ⟨5, 6, 0x30001, 0x8003, 0x0⟩),
   (0x46BB000180030000, .seqDecbr ⟨5, 6, 0x30001, 0x8003, 0x0⟩),
   (0x50BB000180030000, .seqMresv ⟨5, 6, 0x30001, 0x8003, 0x0⟩),
   (0x51BB000180030000, .seqMrels ⟨5, 6, 0x30001, 0x8003, 0x0⟩),
   (0x52BB000180030000, .seqMload ⟨5, 6, 0x30001, 0x8003, 0x0⟩),
   (0x53BB000180030000, .seqMcbl ⟨5, 6, 0x30001, 0x8003, 0x0⟩),
   (0x54BB000180030000, .seqMma ⟨5, 6, 0x30001, 0x8003, 0x0⟩),
   (0x55BB000180030000, .seqMmai ⟨5, 6, 0x30001, 0x8003, 0x0⟩),
   (0x56BB000180030000, .seqMzero ⟨5, 6, 0x30001, 0x8003, 0x0⟩),
   (0x57BB000180030000, .seqMstore ⟨5, 6, 0x30001, 0x8003, 0x0⟩),
   (0x58BB000180030000, .seqMstat ⟨5, 6, 0x30001, 0x8003, 0x0⟩),
   (0x59BB000180030000, .seqMchk ⟨5, 6, 0x30001, 0x8003, 0x0⟩)]
theorem test_wordsSeq : (wordsSeq.all fun p => decodesTo .seq p.1 p.2) = true := by decide +kernel
def wordsGfx : List (DWord × Instr) :=
  [(0x00705070900CB000, .paypush ⟨3, true, 5, 7, 9, 0, true, true, false, false, 5, true, 0x0⟩),
   (0x017050700008B000, .paypop ⟨3, true, 5, 7, 0, 0, true, false, false, false, 5, true, 0x0⟩),
   (0x0270007250BB0010, .mcount ⟨3, true, 0, 7, 37, 11, true, false, true, true, 0, false, 0x10⟩),
   (0x03700073400C0003, .mvert ⟨3, true, 0, 7, 52, 0, true, true, false, false, 0, false, 0x3⟩),
   (0x0470007250090000, .mprim ⟨3, true, 0, 7, 37, 0, true, false, false, true, 0, false, 0x0⟩),
   (0x057050000000B000, .mdone ⟨3, true, 5, 0, 0, 0, false, false, false, false, 5, true, 0x0⟩),
   (0x107240000000B000, .vispop ⟨3, true, 36, 0, 0, 0, false, false, false, false, 5, true, 0x0⟩),
   (0x11705070900CB000, .visget ⟨3, true, 5, 7, 9, 0, true, true, false, false, 5, true, 0x0⟩),
   (0x127050700008B000, .rgnacq ⟨3, true, 5, 7, 0, 0, true, false, false, false, 5, true, 0x0⟩),
   (0x1370000000000000, .rgnrel ⟨3, true, 0, 0, 0, 0, false, false, false, false, 0, false, 0x0⟩),
   (0x14700073400C0004, .rtblend ⟨3, true, 0, 7, 52, 0, true, true, false, false, 0, false, 0x4⟩),
   (0x207242C0900CB001, .tex ⟨3, true, 36, 44, 9, 0, true, true, false, false, 5, true, 0x1⟩),
   (0x217242C0900CB000, .tld ⟨3, true, 36, 44, 9, 0, true, true, false, false, 5, true, 0x0⟩),
   (0x227242C0900CB001, .tqry ⟨3, true, 36, 44, 9, 0, true, true, false, false, 5, true, 0x1⟩)]
theorem test_wordsGfx : (wordsGfx.all fun p => decodesTo .gfx p.1 p.2) = true := by decide +kernel
def wordsSys : List (DWord × Instr) :=
  [(0x00A0000089ABCDEF, .trap ⟨5, false, 0, 0, false, 0, 0x89abcdef⟩),
   (0x0170016000080001, .tret ⟨3, true, 0, 22, 0, 0, true, false, false, false, 0, false, 0x1⟩),
   (0x0270E00000000003, .frginfo ⟨3, true, 14, 0, 0, 0, false, false, false, false, 0, false, 0x3⟩),
   (0x0372400000000000, .sfqpop ⟨3, true, 36, 0, 0, 0, false, false, false, false, 0, false, 0x0⟩),
   (0x0470000000000001, .killf ⟨3, true, 0, 0, 0, 0, false, false, false, false, 0, false, 0x1⟩),
   (0x05A0000089ABCDEF, .bpt ⟨5, false, 0, 0, false, 0, 0x89abcdef⟩),
   (0x1070516091EEB001, .launch ⟨3, true, 5, 22, 9, 30, true, true, true, false, 5, true, 0x1⟩),
   (0x1191809C381EC001, .fork ⟨4, true, 24, 9, true, true, 14, 7, 11, 1⟩),
   (0x12900000381EC006, .rdv ⟨4, true, 0, 0, false, false, 14, 7, 11, 6⟩),
   (0x13A001E900000000, .setprio ⟨5, false, 0, 30, true, 1, 0x0⟩),
   (0x14A2C00000000001, .tmode ⟨5, false, 44, 0, false, 0, 0x1⟩),
   (0x2072416250090000, .xldec ⟨3, true, 36, 22, 37, 0, true, false, false, true, 0, false, 0x0⟩),
   (0x2170E1600008B000, .xlmap ⟨3, true, 14, 22, 0, 0, true, false, false, false, 5, true, 0x0⟩),
   (0x2170000000000083, .xlmapRaise ⟨3, true, 0, 0, 0, 0, false, false, false, false, 0, false, 0x83⟩),
   (0x30705160900CB000, .vcdef ⟨3, true, 5, 22, 9, 0, true, true, false, false, 5, true, 0x0⟩),
   (0x3170507090BEB000, .vcsize ⟨3, true, 5, 7, 9, 11, true, true, true, false, 5, true, 0x0⟩),
   (0x32705160900CB001, .vcmove ⟨3, true, 5, 22, 9, 0, true, true, false, false, 5, true, 0x1⟩),
   (0x337050009004B002, .vcflush ⟨3, true, 5, 0, 9, 0, false, true, false, false, 5, true, 0x2⟩),
   (0x34705160900CB000, .biasflip ⟨3, true, 5, 22, 9, 0, true, true, false, false, 5, true, 0x0⟩),
   (0x40A2C00000000011, .qfeat ⟨5, false, 44, 0, false, 0, 0x11⟩)]
theorem test_wordsSys : (wordsSys.all fun p => decodesTo .sys p.1 p.2) = true := by decide +kernel

/-! ### A small device -/

/-- A die map of two shading dies, the first with all its cores and a sampler, and one base die of 1 GiB. -/
def demoMap : DieMap := ⟨0x0003020001010200,
  [[0x2000000000000000, 0xFFFFFFFFFFFFFFFF, 0xFFFFFFFF, 1], [0, 0, 0, 0], [0, 0, 0x10001, 0]]⟩
/-- Tables that map the first GiB of a context to itself, in VC 1, readable, writable and executable. -/
def demoTables : Mem := mwrite (mwrite (mwrite [] 0x10000 8 0x11001) 0x11000 8 0x12001) 0x12000 8 0x010000000000003D
/-- One block of one thread whose clause issues (an ALU clause of one NOP; what `exec` is given does not depend on it); its kernel leases
the first GiB. -/
def demo : State :=
  let s := State.reset.withFetchWord 64 0
  { s with
    mem := demoTables, dieMap := demoMap
    ctxs := s.ctxs.map fun (p : Nat × Ctx) => (p.1, { p.2 with ptroot := 0x10000, vcs := [(1, ⟨true, 0, 0, true, 0, [], none⟩)] })
    launches := s.launches.map fun (l : Launch) => { l with
      kernels := l.kernels.map fun (k : Kernel) => { k with leases := [⟨2, 0, 0x40000000⟩] } }
    blocks := s.blocks.map fun (k : Block) => { k with privSize := 256 } }
/-- The thread with these registers. -/
def withRegs (rs : List (Nat × Word)) (s : State) : State :=
  s.modThread 1 0 fun t => rs.foldl (fun (t : Thread) (r : Nat × Word) => t.setReg r.1 r.2) t
def withThread (f : Thread → Thread) (s : State) : State := s.modThread 1 0 f
def withBlock (f : Block → Block) (s : State) : State := s.modBlock 1 f
def withLaunch (f : Launch → Launch) (s : State) : State := { s with launches := s.launches.map f }
def withCtx (f : Ctx → Ctx) (s : State) : State := { s with ctxs := s.ctxs.map fun (p : Nat × Ctx) => (p.1, f p.2) }
/-- The group that issues, and the block. -/
def seatG (s : State) : Group :=
  match s.opens with
  | .grp g :: _ => g
  | _ => ⟨0, 0, ⟨.alu, 0, 0, false, 0⟩, [], 0, [], 0, [], none, 0⟩
def seatK (s : State) (d : Block) : Block := (s.block 1).getD d
def demoK : Block := (demo.block 1).getD
  { id := 0, ctx := 0, launch := 0, num := 0, core := ⟨0, 0⟩, kernel := 0, nx := 1, ny := 1, nz := 1, regsN := 0, localSize := 0,
    privSize := 0, threads := [], kregs := [] }
/-- The one lane of the group issues, its guard is true, it may read its sources, and its slots have room. -/
def seated (i : Instr) (pred : BitVec 3) (pneg : Bool) (sb : Nat) (s : State) : Bool :=
  let g := seatG s
  let k := seatK s demoK
  decide (s.opens.head? = some (.grp g)) && decide (s.block g.blk = some k) && decide (g.lanes = [(0, 0)]) &&
    decide (0 < k.threads.length) && decide ((k.thread 0).status = .issuing) && decide (activeLanes k g pred pneg = [(0, 0)]) &&
    decide (srcStop s k i 0 = none) && !(k.thread 0).kill && decide ((k.thread 0).slotCount sb < 15)
/-- What the lane reads, and the state in which it acts. -/
def laneOf (pred : BitVec 3) (pneg : Bool) (s : State) : Env := laneEnv pred pneg s (seatG s) (seatK s demoK) (0, 0)
def actsIn (i : Instr) (s : State) : State := atIssue i s (seatK s demoK) (0, 0)
/-- A state and operands that meet the hypotheses of Completes, CompletesCommit and StopsOne under the condition `ok`. -/
def Fires (i : Instr) (pred : BitVec 3) (pneg : Bool) (sb : Option Nat) (ok : Env → State → Prop) : Prop :=
  ∃ s g k p, Alone i pred pneg s g k p ∧ Room sb k [p] ∧ ok (laneEnv pred pneg s g k p) (atIssue i s k p)
theorem alone_of_seated {i : Instr} {pred : BitVec 3} {pneg : Bool} {sb : Nat} {s : State} (h : seated i pred pneg sb s = true) :
    Alone i pred pneg s (seatG s) (seatK s demoK) (0, 0) := by
  simp only [seated, Bool.and_eq_true, decide_eq_true_eq, Bool.not_eq_true'] at h
  obtain ⟨⟨⟨⟨⟨⟨⟨⟨h1, h2⟩, h3⟩, h4⟩, h5⟩, h6⟩, h7⟩, h8⟩, h9⟩ := h
  refine ⟨⟨⟨h1, h2, ?_, ?_, ?_⟩, ?_, ?_⟩, h6⟩
  · simp [h3, h4]
  · simp [h3]
  · simp [h3, h5]
  · simp [h6, h7]
  · simp [h3, h8]
theorem room_of_seated {i : Instr} {pred : BitVec 3} {pneg : Bool} {sb : Nat} {s : State} (h : seated i pred pneg sb s = true)
    (o : Option Nat) (ho : o = none ∨ o = some sb) : Room o (seatK s demoK) [(0, 0)] := by
  simp only [seated, Bool.and_eq_true, decide_eq_true_eq] at h
  intro n hn
  rcases ho with rfl | rfl
  · cases hn
  · cases hn; simp [h.2]
theorem fires_of {i : Instr} {pred : BitVec 3} {pneg : Bool} {sb : Nat} {o : Option Nat} {ok : Env → State → Prop} (s : State)
    (h : seated i pred pneg sb s = true) (ho : o = none ∨ o = some sb) (hok : ok (laneOf pred pneg s) (actsIn i s)) :
    Fires i pred pneg o ok :=
  ⟨s, seatG s, seatK s demoK, (0, 0), alone_of_seated h, room_of_seated h o ho, hok⟩
def isGlob (c : Chk) : Bool :=
  match c with
  | .ok (.glob _ _ _) => true
  | _ => false
theorem reaches_of_isGlob {c : Chk} (h : isGlob c = true) : reachesGlobal c := by
  unfold isGlob at h
  split at h
  · exact ⟨_, _, _, rfl⟩
  · cases h
/-- An instruction of format A, I, M, B, X, S with these fields, without guard and last-use bits. -/
def fA (d a b c : BitVec 8) (md : BitVec 12) : FA := ⟨7, false, d, a, b, c, false, false, false, false, 0, false, md⟩
def fI (d a : BitVec 8) (md : BitVec 3) (imm : BitVec 32) : FI := ⟨7, false, d, a, false, md, imm⟩
def fM (d a : BitVec 8) (scope w : BitVec 3) (md : BitVec 4) (off : BitVec 20) : FM := ⟨7, false, d, a, false, false, scope, 0, false, w, md, off⟩
def fB (j : BitVec 4) (md : BitVec 6) (a : BitVec 8) (off : BitVec 32) : FB := ⟨7, false, 0, j, md, a, off⟩
def fX (a b : BitVec 8) (md : BitVec 14) : FX := ⟨7, false, a, b, false, false, 0xFF, 0xFF, 15, md⟩
/-- A store of the thread in the store buffer: a byte at 0x80, to a page that may, or may not, be written. -/
def demoEntry (faulting : Bool) : SbEntry :=
  { seq := 1, tl := 0, va := 0x80, pa := 0x80, width := 1, data := 5, vc := 1, tracked := false, hostBias := false, faulting := faulting, nl1 := false,
    word := 0, wfield := 0 }
def demoStore (faulting : Bool) (s : State) : State := withBlock (fun k => { k with sbuf := [demoEntry faulting] }) s
/-- An earlier PHASE of the thread waits: no later store of it commits. -/
def phasing (s : State) : State := { s with fences := [{ id := 0, who := .phase 1 0 2, lines := [] }] }
theorem coreAll_of {s : State} {p : Core → Bool} (h0 : p {} = true) (h : s.cores.all (fun x => p x.2) = true) (c : CoreRef) :
    p (s.core c) = true := by
  unfold State.core
  generalize s.cores = l at h ⊢
  induction l with
  | nil => simpa [tget] using h0
  | cons x r ih =>
    obtain ⟨h1, h2⟩ := by simpa using h
    unfold tget
    split
    · exact h1
    · exact ih (by simpa using h2)
theorem clean_of {s : State} {g : Nat} (h : s.cores.all (fun x => (tget x.2.dirty g).isNone) = true) : cleanEverywhere s g := fun c => by
  simpa [lineOf] using coreAll_of (s := s) (p := fun x => (tget x.dirty g).isNone) (by rfl) h c
theorem uncached_of {s : State} {g : Nat} (h : s.cores.all (fun x => (tget x.2.copies g).isNone) = true) : uncached s g := fun c => by
  simpa using coreAll_of (s := s) (p := fun x => (tget x.copies g).isNone) (by rfl) h c
/-- A pointer of region r in g2, g3. -/
def ptrRegs (r off : Word) : List (Nat × Word) := [(2, off), (3, r <<< 24)]
/-- A witness where the instruction asks nothing of its operands. -/
def Free (i : Instr) : Prop := Fires i 7 false (some 0) fun _ _ => True
theorem free_of {i : Instr} (h : seated i 7 false 0 demo = true) : Free i := fires_of demo h (.inr rfl) trivial

/-! ### Decoding: words the spec prints -/

/-- The words printed in the examples of spec/04 to spec/12. -/
def specWordsA : List (DWord × Instr) :=
  [(0x05E0707000000010, .iaddI ⟨7, false, 7, 7, false, 0, 16⟩),
   (0x01E0405000080000, .mov ⟨7, false, 4, 5, 0, 0, true, false, false, false, 0, false, 0⟩),
   (0x05E0404000000001, .iaddI ⟨7, false, 4, 4, false, 0, 1⟩),
   (0x2CE2102000000008, .isetI ⟨7, false, 0x21, 2, false, 0, 8⟩),
   (0x36E0401000000000, .gpoll ⟨7, false, 4, 1, 0, 0, false, false, false, false, 0, false, 0⟩),
   (0x6440405060480000, .ffma ⟨2, false, 4, 5, 6, 4, true, false, false, false, 0, false, 0⟩),
   (0x61E010203F800000, .faddI ⟨7, false, 1, 2, false, 0, 0x3F800000⟩)]
theorem test_words_spec_alu : (specWordsA.all fun p => decodesTo .alu p.1 p.2) = true := by decide +kernel
theorem test_words_spec_control : (decodesTo .alu 0x4004000000000006 (.bra ⟨0, false, 1, 0, 0, 0, 6⟩) &&
    decodesTo .alu 0x44E0000000000000 (.exit ⟨7, false, 0, 0, 0, 0, 0⟩)) = true := by decide +kernel
theorem test_words_spec_memory : (decodesTo .mem 0x01E0408002000040 (.st ⟨7, false, 4, 8, false, false, 0, 0, false, 2, 0, 0x40⟩) &&
    decodesTo .mem 0x07E0C1421A940000 (.atom ⟨7, false, 0x0C, 0x14, false, false, 4, 1, true, 2, 9, 0x40000⟩) &&
    decodesTo .sync 0x06E0502000000010 (.bowait ⟨7, false, 5, 2, false, false, 0, 0, false, 0, 0, 0x10⟩) &&
    decodesTo .sync 0x00E0000200000000 (.bar ⟨7, false, 0, 0, false, false, 4, 0, false, 0, 0, 0⟩)) = true := by decide +kernel
def specWordsS : List (DWord × Instr) :=
  [(0x00E0000000000005, .trap ⟨7, false, 0, 0, false, 0, 5⟩),
   (0x01E0000000000000, .tret ⟨7, false, 0, 0, 0, 0, false, false, false, false, 0, false, 0⟩),
   (0x01E001E000000001, .tret ⟨7, false, 0, 30, 0, 0, false, false, false, false, 0, false, 1⟩),
   (0x02E1000000000001, .frginfo ⟨7, false, 16, 0, 0, 0, false, false, false, false, 0, false, 1⟩),
   (0x03E1400000000000, .sfqpop ⟨7, false, 20, 0, 0, 0, false, false, false, false, 0, false, 0⟩),
   (0x04E0000000000001, .killf ⟨7, false, 0, 0, 0, 0, false, false, false, false, 0, false, 1⟩),
   (0x40E0400000000011, .qfeat ⟨7, false, 4, 0, false, 0, 0x11⟩),
   (0x11E10183FFFFC000, .fork ⟨7, false, 16, 24, false, false, 0xFF, 0xFF, 15, 0⟩),
   (0x12E00003FFFFC001, .rdv ⟨7, false, 0, 0, false, false, 0xFF, 0xFF, 15, 1⟩)]
theorem test_words_spec_system : (specWordsS.all fun p => decodesTo .sys p.1 p.2) = true := by decide +kernel
def specWordsE : List (DWord × Instr) :=
  [(0x00E10043FFFFC000, .cpy ⟨7, false, 16, 4, false, false, 0xFF, 0xFF, 15, 0⟩),
   (0x06610183FFFFC000, .decbr ⟨3, false, 16, 24, false, false, 0xFF, 0xFF, 15, 0⟩),
   (0x14E10083FFFFC000, .mma ⟨7, false, 16, 8, false, false, 0xFF, 0xFF, 15, 0⟩)]
theorem test_words_spec_engine : (specWordsE.all fun p => decodesTo .eng p.1 p.2) = true := by decide +kernel
def specWordsQ : List (DWord × Instr) :=
  [(0x03000001000003E8, .sqwaitc ⟨0, 0, 1, 0, 0x3E8⟩), (0x0404000000000000, .sqboarv ⟨0, 1, 0, 0, 0⟩),
   (0x0100000000000080, .sqloop ⟨0, 0, 0, 0, 0x80⟩), (0x0200000000000000, .sqend ⟨0, 0, 0, 0, 0⟩),
   (0x404C000400000000, .seqCpy ⟨2, 3, 4, 0, 0⟩), (0x5300001400320000, .seqMcbl ⟨0, 0, 0x14, 0x32, 0⟩),
   (0x5200001800320000, .seqMload ⟨0, 0, 0x18, 0x32, 0⟩)]
theorem test_words_spec_sequencer : (specWordsQ.all fun p => decodesTo .seq p.1 p.2) = true := by decide +kernel
theorem test_headers : decodeHeader 0xA040020000000000 = some ⟨.alu, 2, 0, false, 2⟩ ∧ decodeHeader 0xA000000000000000 = some ⟨.alu, 0, 0, false, 0⟩ ∧
    (decodeHeader 0xA840100000000000).map (·.cls) = some .seq ∧ (decodeHeader 0xA840100000000000).map (·.count) = some 2 ∧
    decodeHeader 0x0040020000000000 = none := by decide +kernel

/-! ### Ill-formed terms, each refused by one check; the words of some are refused by the decoder -/

def nA : FA := ⟨7, false, 0, 0, 0, 0, false, false, false, false, 0, false, 0⟩
def nI : FI := ⟨7, false, 0, 0, false, 0, 0⟩
def nM : FM := ⟨7, false, 0, 0, false, false, 0, 0, false, 0, 0, 0⟩
def nB : FB := ⟨7, false, 0, 0, 0, 0, 0⟩
def nX : FX := ⟨7, false, 0, 0, false, false, 0xFF, 0xFF, 15, 0⟩
def nS : FS := ⟨0, 0, 0, 0, 0⟩
/-- Format A: an unused operand, a last-use bit on one, a reserved MOD bit, BK where none is allowed and missing where it must stand,
SBV and SBS where no slot is named, SBV missing where one must be, uniform register 64, an odd pair, pair 254, a group of 4 that is not
aligned, a predicate field above 15 and one with a last-use bit, a comparison code above 9, bit 3 of a comparison field. -/
def illA : List Instr :=
  [.nop { nA with d := 1 }, .nop { nA with la := true }, .iadd { nA with md := 4 }, .mov { nA with bk := true }, .movk nA,
   .iadd { nA with sbv := true }, .iadd { nA with sbs := 1 }, .mdone nA, .iadd { nA with b := 64, bk := true },
   .iadd { nA with bk := true, lb := true }, .iadd64 { nA with d := 3 }, .iadd64 { nA with a := 254 }, .vispop { nA with d := 2, sbv := true },
   .sel { nA with c := 16 }, .sel { nA with lc := true }, .iset { nA with d := 0xA0 }, .iset { nA with d := 0x08 }, .plop { nA with d := 8 },
   .lea { nA with md := 8 }, .i2i { nA with md := 0x80 }, .pset { nA with md := 0x10 }, .srd { nA with md := 0x13 }, .gxch { nA with md := 0x18 },
   .fclass { nA with md := 4 }, .f2i { nA with md := 0x100 }, .i2f { nA with md := 0x100 }, .f2f { nA with md := 5 }, .fsf { nA with md := 7 },
   .mcount { nA with md := 17 }, .mvert { nA with md := 5 }, .rtblend { nA with md := 5 }, .frginfo { nA with md := 5 },
   .xlmapRaise { nA with md := 3 }, .vcflush { nA with md := 3, sbv := true }]
theorem test_ill_formed_A : (illA.all fun i => !i.wellFormed) = true := by decide +kernel
/-- The other formats: MOD3, an immediate that must be small; SCOPE, WIDTH, sign extension of a full word, an operation and an order that do
not exist, BID, an offset where none is allowed, a last-use bit on a destination; HINT, J, MOD6 and OFF32; coordinates 0x10 to 0xFE, a group
of 8 that is not aligned, MOD14; AR, DOFF and SMOD. -/
def illB : List Instr :=
  [.iaddI { nI with md := 4 }, .tmode { nI with imm := 2 }, .qfeat { nI with imm := 32 }, .setprio { nI with imm := 128 }, .movi { nI with a := 1 },
   .ld nM, .ld { nM with sbv := true, width := 5 }, .ld { nM with sbv := true, scope := 1 }, .ld { nM with sbv := true, width := 2, md := 1 },
   .ld { nM with sbv := true, ld := true }, .ld { nM with sbv := true, md := 12 }, .ld { nM with sbv := true, a := 1 },
   .st { nM with sbs := 1 }, .ldk { nM with sbv := true, width := 1 }, .atom { nM with sbv := true, width := 2, md := 15 },
   .atom { nM with sbv := true, width := 3, md := 13 }, .atom { nM with sbv := true, width := 2, off := 0x40000 },
   .red { nM with width := 2, md := 9 }, .rel { nM with width := 2 }, .phase { nM with scope := 1, off := 1 }, .bar { nM with scope := 2, md := 4 },
   .bar { nM with scope := 5, md := 1 }, .bar { nM with scope := 6 }, .qpush { nM with off := 1 }, .vcqry { nM with sbv := true, width := 3 },
   .bra { nB with md := 1 }, .bra { nB with j := 1 }, .ret { nB with hint := 1 }, .exit { nB with off := 1 }, .call { nB with md := 2 },
   .brx { nB with a := 5 }, .cpy { nX with row := 0x10 }, .cpy { nX with col := 0xFE }, .cpy { nX with a := 4 }, .cpyg { nX with md := 1 },
   .cpys nX, .rdv nX, .rdv { nX with md := 4 }, .fork { nX with md := 2 }, .sqnop { nS with smod := 1 }, .sqloop { nS with smod := 1 },
   .sqwaitc { nS with doff := 2 }, .sqboarv { nS with doff := 1 }, .sqbowait { nS with smod := 8 }, .seqMma { nS with smod := 1 }]
theorem test_ill_formed_B : (illB.all fun i => !i.wellFormed) = true := by decide +kernel
def refusedBy (c : Cls) (w : DWord) (e : DecodeErr) : Bool :=
  match decodeWord c w with
  | .ok _ => false
  | .error d => decide (d = e)
/-- An opcode no table assigns, a NOP with a destination, an IADD with a reserved MOD bit, an EXIT with an offset, a CPY to row 0x10. -/
theorem test_refused_words : (refusedBy .alu 0xFFE0000000000000 .unassigned && refusedBy .alu 0x00E0100000000000 .illegalEncoding &&
    refusedBy .alu 0x04E0000000000004 .illegalEncoding && refusedBy .alu 0x44E0000000000001 .illegalEncoding &&
    refusedBy .eng 0x00E1004043FFC000 .illegalEncoding) = true := by decide +kernel
theorem test_last_word_is_padded : decodeTableWord 64 0x05E0707000000010 = some (.iaddI ⟨7, false, 7, 7, false, 0, 16⟩) := by decide +kernel

/-! ### Results: one step on the small device; the expected values stand in the examples of the spec, or are worked by hand -/

/-- Register r of the thread after instruction i, from these registers. -/
def regAfter (i : Instr) (rs : List (Nat × Word)) (r : Nat) (s : State := demo) : Option Word :=
  match exec i (withRegs rs s) with
  | .next t => some (((seatK t demoK).thread 0).reg t.clock.free 0 r)
  | _ => none
def predAfter (i : Instr) (rs : List (Nat × Word)) (p : Nat) : Option Bool :=
  match exec i (withRegs rs demo) with
  | .next t => some (((seatK t demoK).thread 0).pred p)
  | _ => none
/-- The example after spec/05_core_integer.md R155. -/
theorem test_iadd_wraps : regAfter (.iadd (fA 4 5 6 0 0)) [(5, 0x7FFFFFFF), (6, 1)] 4 = some 0x80000000 ∧
    regAfter (.iadd (fA 4 5 6 0 2)) [(5, 0x7FFFFFFF), (6, 1)] 4 = some 0x7FFFFFFF := by decide +kernel
theorem test_isub_saturates : regAfter (.isub (fA 4 5 6 0 3)) [(5, 3), (6, 5)] 4 = some 0 := by decide +kernel
theorem test_imul_saturates : regAfter (.imul (fA 4 5 6 0 2)) [(5, 0x10000), (6, 0xFFFF0000)] 4 = some 0x80000000 := by decide +kernel
theorem test_imulhi : regAfter (.imulhi (fA 4 5 6 0 0)) [(5, 0xFFFFFFFF), (6, 2)] 4 = some 0xFFFFFFFF ∧
    regAfter (.imulhi (fA 4 5 6 0 1)) [(5, 0xFFFFFFFF), (6, 2)] 4 = some 1 := by decide +kernel
theorem test_ineg_saturates : regAfter (.ineg (fA 4 5 0 0 2)) [(5, 0x80000000)] 4 = some 0x7FFFFFFF ∧
    regAfter (.ineg (fA 4 5 0 0 0)) [(5, 0x80000000)] 4 = some 0x80000000 := by decide +kernel
/-- Table 0xA8 is a & (b | c) (R156). -/
theorem test_logt : regAfter (.logt (fA 1 2 3 4 0xA8)) [(2, 0xFF00FF00), (3, 0xF0F00000), (4, 0x00000F0F)] 1 = some 0xF0000F00 := by decide +kernel
/-- A shift of 32 and more (R157). -/
theorem test_shifts : regAfter (.shl (fA 4 5 6 0 0)) [(5, 1), (6, 33)] 4 = some 0 ∧ regAfter (.shl (fA 4 5 6 0 1)) [(5, 1), (6, 33)] 4 = some 2 ∧
    regAfter (.sar (fA 4 5 6 0 0)) [(5, 0x80000000), (6, 40)] 4 = some 0xFFFFFFFF ∧
    regAfter (.shr (fA 4 5 6 0 0)) [(5, 0x80000000), (6, 31)] 4 = some 1 := by decide +kernel
/-- p1 is set where g2 is below 8, g2 signed (R161). -/
theorem test_iset : predAfter (.isetI ⟨7, false, 0x21, 2, false, 0, 8⟩) [(2, 0xFFFFFFFF)] 1 = some true ∧
    predAfter (.isetI ⟨7, false, 0x21, 2, false, 0, 8⟩) [(2, 8)] 1 = some false := by decide +kernel
/-- A destination that is also the source, and gz. -/
theorem test_same_register : regAfter (.iaddI (fI 7 7 0 16)) [(7, 0x1000)] 7 = some 0x1010 ∧ regAfter (.iaddI (fI 255 7 0 16)) [(7, 1)] 255 = some 0 ∧
    regAfter (.iaddI (fI 7 255 0 16)) [(7, 1)] 7 = some 16 := by decide +kernel
/-- The packing example after R201. -/
theorem test_f2f_e4m3 : regAfter (.f2f (fA 20 10 0 255 0x100)) [(10, 0x3FC00000)] 20 = some 0x3C ∧
    regAfter (.f2f (fA 20 11 0 20 0x300)) [(11, 0x44200000), (20, 0x3C)] 20 = some 0x7E3C := by decide +kernel
theorem test_f2f_e4m3_nan : regAfter (.f2f (fA 20 12 0 20 0x500)) [(12, 0xBB000000), (20, 0x7E3C)] 20 = some 0x817E3C ∧
    regAfter (.f2f (fA 20 13 0 20 0x700)) [(13, 0x7FC00000), (20, 0x817E3C)] 20 = some 0x7F817E3C := by decide +kernel
/-- The example after R204. -/
theorem test_pkdot : regAfter (.pkdot (fA 4 5 6 7 0)) [(5, 0x3C004000), (6, 0x00017BFF), (7, 0)] 4 = some 0x47FFE000 := by decide +kernel
def underProfile (n : Nat) : State := withLaunch (fun l => { l with profile := n }) demo
def allProfiles (i : Instr) (rs : List (Nat × Word)) (r : Nat) : List (Option Word) := [0, 1, 2, 3].map fun n => regAfter i rs r (underProfile n)
/-- The table "Profile effects" of spec/06_core_float.md: FP-NATIVE, FP-L9, FP-L10, FP-L11. -/
theorem test_profiles_fmul : allProfiles (.fmul (fA 4 5 6 0 0)) [(5, 1), (6, 0x4B000000)] 4 = [some 0x00800000, some 0, some 0, some 0] ∧
    allProfiles (.fmul (fA 4 5 6 0 0)) [(5, 0x7F800000), (6, 0)] 4 = [some 0x7FC00000, some 0, some 0x7FC00000, some 0x7FC00000] := by decide +kernel
theorem test_profiles_fmulz : allProfiles (.fmulz (fA 4 5 6 0 0)) [(5, 0x7F800000), (6, 0x80000000)] 4 =
    [some 0x80000000, some 0x80000000, some 0x80000000, some 0x80000000] := by decide +kernel
theorem test_profiles_fadd : allProfiles (.fadd (fA 4 5 6 0 0)) [(5, 0x7F800000), (6, 0xFF800000)] 4 =
    [some 0x7FC00000, some 0x7FFFFFFF, some 0x7FC00000, some 0x7FC00000] := by decide +kernel
theorem test_profiles_fmin : allProfiles (.fmin (fA 4 5 6 0 0)) [(5, 0x7FC00001), (6, 0x3F800000)] 4 =
    [some 0x7FC00001, some 0x3F800000, some 0x7FC00001, some 0x7FC00001] := by decide +kernel
theorem test_profiles_pkadd : allProfiles (.pkadd (fA 4 5 6 0 0)) [(5, 1), (6, 1)] 4 = [some 2, some 0, some 0, some 2] := by decide +kernel
theorem test_profiles_fsf : allProfiles (.fsf (fA 4 5 0 0 0)) [(5, 0x40400000)] 4 =
    [some 0x3EAAAAAB, some 0x3EAAAAA8, some 0x3EAAAAAB, some 0x3EAAAAAB] := by decide +kernel
theorem test_profiles_dmul : allProfiles (.dmul (fA 4 6 8 0 0)) [(6, 1), (7, 0), (8, 0), (9, 0x43300000)] 5 =
    [some 0x00100000, some 0x00100000, some 0x00100000, some 0x00100000] := by decide +kernel
/-- The object at local offset 0x10 after the instruction. -/
def boAfter (i : Instr) (s : State) : Option (Nat × Nat) :=
  match exec i s with
  | .next t => some (mread (seatK t demoK).lmem 0x10 8, mread (seatK t demoK).lmem 0x18 8)
  | _ => none
def withBo (ctrl : Nat) (s : State) : State := withBlock (fun k => { k with lmem := mwrite k.lmem 0x10 8 ctrl }) s
/-- Steps 1, 3 and 6 of the example after spec/08_core_sync.md R242, its object at 0x10. -/
theorem test_boinit : boAfter (.boinit (fM 4 2 0 0 0 0x10)) (withRegs [(2, 0), (4, 2)] demo) = some (0x4008008000000000, 0) := by decide +kernel
theorem test_boexp_join : boAfter (.boexp (fM 4 2 0 0 1 0x10)) (withBo 0x4008008000000000 (withRegs [(2, 0), (4, 4096)] demo)) =
    some (0x4008004000001000, 0) := by decide +kernel
theorem test_boarv_flips : boAfter (.boarv (fM 0 2 0 0 0 0x10)) (withBo 0x4008004000000000 (withRegs [(2, 0)] demo)) =
    some (0xC008008000000000, 0) := by decide +kernel
/-- R170. -/
theorem test_exit_ends : (match exec (.exit (fB 0 0 0 0)) demo with
    | .next t => !((seatK t demoK).thread 0).alive
    | _ => false) = true := by decide +kernel
/-- Byte order is little-endian, and a write of what an unlisted address reads as takes its entry away. -/
theorem test_memory_wf : Memory.wf demoTables = true ∧ mread (mwrite demoTables 0x20 4 0xAABBCCDD) 0x20 1 = 0xDD ∧
    mwrite (mwrite demoTables 0x20 4 5) 0x20 4 0 = demoTables := by decide +kernel

/-! ### Witnesses: states and operands that meet the hypotheses of the statements -/

/-! ### Witnesses: states and operands that meet the hypotheses of the statements -/

theorem witness_IntegerArithmetic : Free (.iadd (fA 4 5 6 0 3)) ∧ Free (.isubI (fI 4 5 1 1)) ∧ Free (.imadw (fA 4 6 7 8 0)) :=
  ⟨free_of (by decide +kernel), free_of (by decide +kernel), free_of (by decide +kernel)⟩
theorem witness_LogicAndShifts : Free (.logt (fA 4 5 6 7 0xCA)) ∧ Free (.shlI (fI 4 5 0 32)) ∧ Free (.shf (fA 4 5 6 7 0)) :=
  ⟨free_of (by decide +kernel), free_of (by decide +kernel), free_of (by decide +kernel)⟩
theorem witness_FieldsAndBits : Free (.bfx (fA 4 5 6 0 0)) ∧ Free (.prmb (fA 4 5 6 7 0)) :=
  ⟨free_of (by decide +kernel), free_of (by decide +kernel)⟩
theorem witness_ComparesAndPredicates : Free (.iset (fA 0x21 5 6 0 0)) ∧
    (Free (.pset (fA 4 0 0 0 0)) ∧ (fA 4 0 0 0 0).mb 0 = false) ∧ (Free (.pset (fA 0 5 0 0 0x7F1)) ∧ (fA 0 5 0 0 0x7F1).mb 0 = true) :=
  ⟨free_of (by decide +kernel), ⟨free_of (by decide +kernel), by decide⟩, free_of (by decide +kernel), by decide⟩
theorem witness_MovesAndAddresses : (Free (.mov (fA 4 5 0 0 0)) ∧ (fA 4 5 0 0 0).mb 0 = false) ∧
    (Free (.mov (fA 4 6 0 0 1)) ∧ (fA 4 6 0 0 1).mb 0 = true) ∧ (Free (.lea (fA 4 6 7 0 0x10)) ∧ (fA 4 6 7 0 0x10).mb 4 = true) ∧
    Free (.i2i (fA 4 5 0 0 0x77)) ∧ (fA 4 5 0 0 0x77).mf 0 4 = 7 ∧ (fA 4 5 0 0 0x77).mf 4 4 = 7 :=
  ⟨⟨free_of (by decide +kernel), by decide⟩, ⟨free_of (by decide +kernel), by decide⟩, ⟨free_of (by decide +kernel), by decide⟩,
    free_of (by decide +kernel), by decide, by decide⟩
theorem witness_GroupsAndSystemRegisters : Free (.gpoll (fA 4 0 0 0 0)) ∧ (Free (.gxch (fA 4 5 6 0 0x14)) ∧ (fA 4 5 6 0 0x14).mf 2 3 = 5) ∧
    Free (.srd (fA 4 0 0 0 0x12)) :=
  ⟨free_of (by decide +kernel), ⟨free_of (by decide +kernel), by decide⟩, free_of (by decide +kernel)⟩
theorem witness_FloatArithmetic : Free (.fadd (fA 4 5 6 0 0)) ∧ Free (.ffma (fA 4 5 6 7 0)) ∧ Free (.dfma (fA 4 6 8 10 0)) :=
  ⟨free_of (by decide +kernel), free_of (by decide +kernel), free_of (by decide +kernel)⟩
theorem witness_FloatConversions : (Free (.frnd (fA 4 5 0 0 3)) ∧ (fA 4 5 0 0 3).mb 2 = false) ∧
    (Free (.frnd (fA 4 6 0 0 7)) ∧ (fA 4 6 0 0 7).mb 2 = true) ∧ (Free (.f2i (fA 4 5 0 0 0xE0)) ∧ (fA 4 5 0 0 0xE0).mf 5 4 = 7) ∧
    (Free (.f2f (fA 4 6 0 0 0x40)) ∧ (fA 4 6 0 0 0x40).mf 6 3 = 1) ∧ Free (.f2f (fA 4 5 0 6 0x80)) ∧ (fA 4 5 0 6 0x80).mf 6 3 = 2 :=
  ⟨⟨free_of (by decide +kernel), by decide⟩, ⟨free_of (by decide +kernel), by decide⟩, ⟨free_of (by decide +kernel), by decide⟩,
    ⟨free_of (by decide +kernel), by decide⟩, free_of (by decide +kernel), by decide⟩
theorem witness_FloatSpecials : isNan32 0x7F800001 = true ∧ (isNan32 0x7F800000 = false ∧ isNan32 0xFF800001 = true) ∧
    (isInf32 0xFF800000 = true ∧ (0x7F800000 : Word) = 0xFF800000 ^^^ 0x80000000) ∧ isZero32 0x80000000 = true ∧
    (isNan32 1 = false ∧ isInf32 1 = false ∧ isZero32 1 = false) ∧ (isSub32 0x007FFFFF = true ∧ (0x007FFFFF : Word).msb = (0 : Word).msb) := by
  decide
theorem witness_RoundingIsCorrect : fp32 ∈ [fp64, fp32, fp16, bf16, e4m3, e5m2, e2m1] ∧
    ((1 : Nat) : Rat) / (3 : Nat) * (2 : Rat) ^ (0 : Int) ≤ magOf fp32 fp32.maxBits := by
  decide +kernel
theorem witness_InstructionEnds : demo.opens = [.grp (seatG demo)] ∧ demo.block (seatG demo).blk = some (seatK demo demoK) ∧
    (∀ p ∈ (seatG demo).lanes, p.2 < (seatK demo demoK).threads.length ∧ ((seatK demo demoK).thread p.2).status = .issuing ∧
      ((seatK demo demoK).thread p.2).kill = false) ∧ ((seatG demo).lanes.map (·.2)).Nodup ∧ (seatG demo).lanes ≠ [] ∧
    (seatG demo).head.count ≤ (seatG demo).idx := by
  decide +kernel
/-- A clause header where an indirect target of the tests lies. -/
def demoCode : State := withRegs [(2, 0x1000), (3, 0)] { demo with mem := mwrite demoTables 0x1000 8 0xA000000000000000 }
def fetchedOk (s : State) (k : Block) (a : DWord) : Bool :=
  match fetchedAt s k a with
  | some (.ok w) => w.extractLsb' 60 4 == 0b1010
  | _ => false
theorem goodTarget_of {s : State} {k : Block} {a : DWord} (h : fetchedOk s k a = true) (ha : a.toNat % 8 = 0) : goodTarget s k a := by
  unfold fetchedOk at h
  split at h
  · rename_i w hw
    exact ⟨ha, _, hw, fun x hx => by cases hx; simpa using h⟩
  · cases h
def demoMoves (s : State) : State := { s with moving := [(0, 262144)] }
theorem witness_Branches : Fires (.bra (fB 0 0 0 6)) 7 false none (fun e _ => e.g.isLast = true) ∧
    Fires (.brx (fB 0 0 2 0)) 7 false none (fun e s => goodTarget s e.k (e.r64 2)) ∧
    Fires (.brx (fB 0 0 2 0)) 7 false none (fun e s => badTarget s e.k (e.r64 2)) ∧
    Fires (.call (fB 0 1 2 0)) 7 false none (fun e s => (fB 0 1 2 0).md.getLsbD 0 = true ∧ goodTarget s e.k (e.r64 2)) ∧
    (Free (.call (fB 0 0 2 6)) ∧ (fB 0 0 2 6).md.getLsbD 0 = false) ∧
    Fires (.ret (fB 0 0 2 0)) 7 false none (fun e s => badTarget s e.k (e.r64 2)) ∧
    Fires (.ret (fB 0 0 2 0)) 7 false none (fun e s => waitingTarget s e.k (e.r64 2)) ∧
    (demo.block 1 = some demoK ∧ 0 < demoK.threads.length ∧ [0].Nodup) :=
  ⟨fires_of (sb := 0) demo (by decide +kernel) (.inl rfl) (by decide +kernel),
    fires_of (sb := 0) demoCode (by decide +kernel) (.inl rfl) (goodTarget_of (by decide +kernel) (by decide +kernel)),
    fires_of (sb := 0) (withRegs [(2, 0x1004), (3, 0)] demo) (by decide +kernel) (.inl rfl) (.inl (by decide +kernel)),
    fires_of (sb := 0) demoCode (by decide +kernel) (.inl rfl) ⟨by decide, goodTarget_of (by decide +kernel) (by decide +kernel)⟩,
    ⟨free_of (by decide +kernel), by decide⟩, fires_of (sb := 0) (withRegs [(2, 0x1008), (3, 0)] demo) (by decide +kernel) (.inl rfl) (.inr ⟨0, by decide +kernel, by decide⟩),
    fires_of (sb := 0) (demoMoves demoCode) (by decide +kernel) (.inl rfl) (by unfold waitingTarget; decide +kernel), by decide +kernel⟩
theorem witness_ThreadControl : Free (.exit (fB 0 0 0 0)) ∧ Free (.jset (fB 3 0 0 0)) ∧ Free (.jwait (fB 3 0 0 0)) ∧ Free (.yield (fB 0 0 0 0)) ∧
    ((me (laneOf 7 false demo) (demo.commitThread 1 0).1).pendSf = none ∧ (demo.commitThread 1 0).2 = true ∧ mayEnd (laneOf 7 false demo) demo) ∧
    Fires (.exit (fB 0 0 0 0)) 7 false none (fun e s => mayEnd e s ∧ (s.commitThread e.k.id e.tl).2 = true ∧
      ∃ n, (me e (s.commitThread e.k.id e.tl).1).pendSf = some (0x80, n, 8)) ∧
    (demo.block 1 = some demoK ∧ 0 < demoK.threads.length ∧ ∀ b ∈ demoK.joins, b.j = 3 → ∀ x ∈ b.expected, x ∉ [0]) ∧
    (let s := withThread (fun t => { t with status := .exiting }) demo
     (s.thread 1 0).status = .exiting ∧ (s.thread 1 0).ops = [] ∧ s.arriving 1 0 = false ∧ (s.commitThread 1 0).2 = true ∧
       ((s.commitThread 1 0).1.thread 1 0).pendSf = none) ∧
    (1, 1) ∈ (withBlock (fun k => { k with threads := k.threads ++ [{ status := .ready, stallDone := true }] }) demo).yieldOthers (laneOf 7 false demo) :=
  ⟨free_of (by decide +kernel), free_of (by decide +kernel), free_of (by decide +kernel), free_of (by decide +kernel),
    by unfold mayEnd; decide +kernel, fires_of (sb := 0) (demoStore true demo) (by decide +kernel) (.inl rfl)
      ⟨by unfold mayEnd; decide +kernel, by decide +kernel, ⟨0, by decide +kernel⟩⟩, by decide +kernel, by decide +kernel, by decide +kernel⟩
/-- The launch has a handler. -/
def demoTrap : State := withLaunch (fun l => { l with handler := some 0 }) demo
theorem handlerAt_of {s : State} {k : Block} {a : DWord} (h : ((s.launch k.launch).bind fun (l : Launch) => (l.handler.bind (lget l.kernels ·)).map
    fun (x : Kernel) => decide (x.entry = a)) = some true) : HandlerAt s k a := by
  obtain ⟨l, hl, h⟩ := Option.bind_eq_some_iff.mp h
  obtain ⟨x, hx, h⟩ := Option.map_eq_some_iff.mp h
  obtain ⟨n, hn, hx⟩ := Option.bind_eq_some_iff.mp hx
  exact ⟨l, n, x, hl, hn, hx, by simpa using h⟩
theorem trapsAlone_demo : trapsAlone demoK 0 := fun n t h hn => by
  have e : demoK.threads.length = 1 := by decide +kernel
  revert h e
  cases demoK.threads with
  | nil => simp
  | cons a r => cases r <;> cases n <;> simp_all [lget]
theorem witness_TrapEntry : (HandlerAt demoTrap demoK 0x1000 ∧ demoTrap.block 1 = some demoK ∧ (demoK.thread 0).inHandler = false ∧
      (demoK.thread 0).ops = [] ∧ demoK.sbuf = [] ∧ demoTrap.noticing demoK.core = false ∧ trapsAlone demoK 0 ∧
      (∀ w, (demoK.thread 0).status ≠ .waiting w)) ∧
    ((demo.launch demoK.launch).map (fun (l : Launch) => (l.outState, l.cause, l.handler)) = some (0, 0, none) ∧ demo.block 1 = some demoK) ∧
    (let s := withThread (fun t => { t with inHandler := true }) demoTrap
     ((s.block 1).map fun k => (k.thread 0).inHandler) = some true ∧ (s.launch demoK.launch).map (·.outState) = some 0) ∧
    (let s := withCtx (fun c => { c with strict := true }) demo
     s.blockStrict demoK = true ∧ tget (demoK.thread 0).regs 5 = none ∧ activeLanes demoK (seatG s) 7 false = [(0, 0)]) ∧
    let s := withThread (fun t => { t with regs := [(5, ⟨1, some 0x80⟩)] }) demo
    s.blockStrict demoK = false ∧ tget ((seatK s demoK).thread 0).regs 5 = some ⟨1, some 0x80⟩ :=
  ⟨⟨handlerAt_of (by decide +kernel), by decide +kernel, by decide +kernel, by decide +kernel, by decide +kernel, by decide +kernel,
    trapsAlone_demo, fun w h => by
      have : (demoK.thread 0).status = .issuing := by decide +kernel
      rw [this] at h; cases h⟩, by decide +kernel⟩
theorem witness_Loads :
    Fires (.ldl (fM 4 2 0 2 0 4)) 7 false (some 0) (fun e _ => fits (e.offs (fM 4 2 0 2 0 4)) 4 e.k.localSize) ∧
    Fires (.ldp (fM 4 2 0 2 0 0)) 7 false (some 0) (fun e _ => fits (e.offs (fM 4 2 0 2 0 0)) 4 e.k.privSize) ∧
    Fires (.ld (fM 4 2 0 4 0 0)) 7 false (some 0)
      (fun e _ => regionOf (e.ptr (fM 4 2 0 4 0 0)) = 1 ∧ fits (offsetOf (e.ptr (fM 4 2 0 4 0 0))) 16 e.k.localSize) ∧
    Fires (.ld (fM 4 2 0 0 0 0)) 7 false (some 0)
      (fun e _ => regionOf (e.ptr (fM 4 2 0 0 0 0)) = 2 ∧ fits (offsetOf (e.ptr (fM 4 2 0 0 0 0))) 1 e.k.privSize) ∧
    Fires (.ld (fM 4 2 0 3 0 0)) 7 false (some 0) (fun e s => reachesGlobal (chk e s (e.ptr (fM 4 2 0 3 0 0)) 8 .load)) ∧
    Fires (.ldk (fM 4 2 0 2 0 0)) 7 false (some 0) (fun e s =>
      (∃ l, s.launch e.k.launch = some l ∧ fits (e.offs (fM 4 2 0 2 0 0)) 4 l.cbsize) ∧
      reachesGlobal (s.checkConst e.k (constAddr e s (e.offs (fM 4 2 0 2 0 0)))).1) ∧
    Fires (.acq (fM 4 2 1 2 0 0)) 7 false (some 0) (fun e s => (fM 4 2 1 2 0 0).scope.toNat < 2 ∧
      notLocal (e.ptr (fM 4 2 1 2 0 0)) ∧ reachesGlobal (chk e s (e.ptr (fM 4 2 1 2 0 0)) 4 .load)) ∧
    Fires (.acq (fM 4 2 2 2 0 0)) 7 false (some 0) (fun e s => 2 ≤ (fM 4 2 2 2 0 0).scope.toNat ∧
      notLocal (e.ptr (fM 4 2 2 2 0 0)) ∧ reachesGlobal (chk e s (e.ptr (fM 4 2 2 2 0 0)) 4 .load)) ∧
    Fires (.acq (fM 4 2 2 2 0 0)) 7 false (some 0) (fun e _ => ¬ notLocal (e.ptr (fM 4 2 2 2 0 0))) ∧
    (let e := laneOf 7 false demo
     (∀ p ∈ e.parts, (demo.thread e.k.id p.2).acquiring = false ∧ demo.pendingAt e.k.id p.2 1 = false) ∧
     (demo.viewBytes demoK 0 demo.nextId 0x80 4).isSome = false ∧
     ((demoStore false demo).viewBytes (seatK (demoStore false demo) demoK) 0 2 0x80 1).isSome = true ∧
     (demo.setCore ⟨0, 0⟩ { demo.core ⟨0, 0⟩ with copies := [(1, { bytes := List.replicate 128 7, tracked := false, ctx := 0, vc := 1, far := false })] } |>.viewBytes demoK 0 demo.nextId 0x80 8).isSome
       = true) :=
  ⟨fires_of (withRegs [(2, 4088)] demo) (by decide +kernel) (.inr rfl) (by unfold fits; decide +kernel),
    fires_of (withRegs [(2, 252)] demo) (by decide +kernel) (.inr rfl) (by unfold fits; decide +kernel),
    fires_of (withRegs (ptrRegs 1 4080) demo) (by decide +kernel) (.inr rfl) (by unfold fits; decide +kernel),
    fires_of (withRegs (ptrRegs 2 255) demo) (by decide +kernel) (.inr rfl) (by unfold fits; decide +kernel),
    fires_of (withRegs (ptrRegs 0 0x3FFFFFF8) demo) (by decide +kernel) (.inr rfl) (reaches_of_isGlob (by decide +kernel)),
    fires_of (withLaunch (fun l => { l with cbsize := 64 }) (withRegs [(2, 60)] demo)) (by decide +kernel) (.inr rfl)
      ⟨⟨_, rfl, by unfold fits; decide +kernel⟩, reaches_of_isGlob (by decide +kernel)⟩,
    fires_of (withRegs (ptrRegs 0 0x80) demo) (by decide +kernel) (.inr rfl)
      ⟨by decide, by unfold notLocal; decide +kernel, reaches_of_isGlob (by decide +kernel)⟩,
    fires_of (withRegs (ptrRegs 0 0x80) demo) (by decide +kernel) (.inr rfl)
      ⟨by decide, by unfold notLocal; decide +kernel, reaches_of_isGlob (by decide +kernel)⟩,
    fires_of (withRegs (ptrRegs 1 0x80) demo) (by decide +kernel) (.inr rfl) (by unfold notLocal; decide +kernel), by decide +kernel⟩
/-- The block's store buffer is full. -/
def demoFull (s : State) : State := withBlock (fun k => { k with sbuf := List.replicate 256 (demoEntry false) }) s
/-- The page of the first GiB lacks the write right. -/
def readOnly (s : State) : State := { s with mem := mwrite s.mem 0x12000 8 0x0100000000000035 }
theorem witness_Stores :
    Fires (.stl (fM 4 2 0 3 0 0)) 7 false none (fun e _ => fits (e.offs (fM 4 2 0 3 0 0)) 8 e.k.localSize) ∧
    Fires (.stp (fM 4 2 0 2 0 0)) 7 false none (fun e _ => fits (e.offs (fM 4 2 0 2 0 0)) 4 e.k.privSize) ∧
    Fires (.st (fM 4 2 0 4 0 0)) 7 false none (fun e _ => regionOf (e.ptr (fM 4 2 0 4 0 0)) = 1 ∧
      fits (offsetOf (e.ptr (fM 4 2 0 4 0 0))) 16 e.k.localSize) ∧
    Fires (.st (fM 4 2 0 0 0 0)) 7 false none (fun e _ => regionOf (e.ptr (fM 4 2 0 0 0 0)) = 2 ∧
      fits (offsetOf (e.ptr (fM 4 2 0 0 0 0))) 1 e.k.privSize) ∧
    Fires (.st (fM 4 2 0 2 0 0)) 7 false none (fun e s => reachesGlobal (chk e s (e.ptr (fM 4 2 0 2 0 0)) 4 .store) ∧
      ∃ k, (chkState e s (e.ptr (fM 4 2 0 2 0 0)) 4 .store).block e.k.id = some k ∧ k.sbuf.length < 256) ∧
    (∀ ok ∈ [true, false], Fires (.st (fM 4 2 0 2 0 0)) 7 false none (fun e s => reachesGlobal (chk e s (e.ptr (fM 4 2 0 2 0 0)) 4 .store) ∧
      (let u := chkState e s (e.ptr (fM 4 2 0 2 0 0)) 4 .store
       ∃ k, u.block e.k.id = some k ∧ 256 ≤ k.sbuf.length ∧ (u.commitList e.k.id (fun _ => true) (overfull k)).2 = ok))) ∧
    (∀ ok ∈ [true, false], Fires (.rel (fM 4 2 2 2 0 0)) 7 false none (fun e s => notLocal (e.ptr (fM 4 2 2 2 0 0)) ∧
      (∃ pa en, chk e s (e.ptr (fM 4 2 2 2 0 0)) 4 .store = .ok (.glob pa en true)) ∧
      ((chkState e s (e.ptr (fM 4 2 2 2 0 0)) 4 .store).commitBlock e.k.id).2 = ok)) ∧
    Fires (.rel (fM 4 2 2 2 0 0)) 7 false none (fun e _ => ¬ notLocal (e.ptr (fM 4 2 2 2 0 0))) ∧
    Fires (.rel (fM 4 2 2 2 0 0)) 7 false none (fun e s => notLocal (e.ptr (fM 4 2 2 2 0 0)) ∧
      ∃ en, chk e s (e.ptr (fM 4 2 2 2 0 0)) 4 .store = .ok (.glob 0x80 en false) ∧
        (let u := chkState e s (e.ptr (fM 4 2 2 2 0 0)) 4 .store
         (u.commitBlock e.k.id).2 = true ∧ ∃ n d, (me e ((commits e u).modBlock e.k.id fun k =>
          k.storeFault (storeEntry e (commits e u) (fM 4 2 2 2 0 0) 0x80 en false false false))).pendSf = some (0x80, n, d))) ∧
    (∀ ok ∈ [true, false], ∀ i ∈ [Instr.drainst (fM 0 0 0 0 0 0), .phase (fM 0 0 5 0 0 0)],
      Fires i 7 false none (fun e s => (s.commitBlock e.k.id).2 = ok)) := by
  refine ⟨fires_of (sb := 0) (withRegs [(2, 4088)] demo) (by decide +kernel) (.inl rfl) (by unfold fits; decide +kernel),
    fires_of (sb := 0) (withRegs [(2, 252)] demo) (by decide +kernel) (.inl rfl) (by unfold fits; decide +kernel),
    fires_of (sb := 0) (withRegs (ptrRegs 1 4080) demo) (by decide +kernel) (.inl rfl) (by unfold fits; decide +kernel),
    fires_of (sb := 0) (withRegs (ptrRegs 2 255) demo) (by decide +kernel) (.inl rfl) (by unfold fits; decide +kernel),
    fires_of (sb := 0) (withRegs (ptrRegs 0 0x80) demo) (by decide +kernel) (.inl rfl)
      ⟨reaches_of_isGlob (by decide +kernel), ⟨_, rfl, by decide +kernel⟩⟩, ?_, ?_,
    fires_of (sb := 0) (withRegs (ptrRegs 1 0x80) demo) (by decide +kernel) (.inl rfl) (by unfold notLocal; decide +kernel),
    fires_of (sb := 0) (withRegs (ptrRegs 0 0x80) (readOnly demo)) (by decide +kernel) (.inl rfl)
      ⟨by unfold notLocal; decide +kernel, ⟨0, 0, 0, 1, false, false, true, false, true, false, 262144⟩, by decide +kernel, by decide +kernel,
        ⟨_, _, rfl⟩⟩, ?_⟩
  · simp only [List.mem_cons, List.not_mem_nil, or_false, forall_eq_or_imp, forall_eq]
    exact ⟨fires_of (sb := 0) (demoFull (withRegs (ptrRegs 0 0x80) demo)) (by decide +kernel) (.inl rfl)
      ⟨reaches_of_isGlob (by decide +kernel), ⟨_, rfl, by decide +kernel⟩⟩,
      fires_of (sb := 0) (phasing (demoFull (withRegs (ptrRegs 0 0x80) demo))) (by decide +kernel) (.inl rfl)
      ⟨reaches_of_isGlob (by decide +kernel), ⟨_, rfl, by decide +kernel⟩⟩⟩
  · simp only [List.mem_cons, List.not_mem_nil, or_false, forall_eq_or_imp, forall_eq]
    exact ⟨fires_of (sb := 0) (withRegs (ptrRegs 0 0x80) demo) (by decide +kernel) (.inl rfl)
      ⟨by unfold notLocal; decide +kernel, ⟨0x80, ⟨0, 0, 0, 1, false, false, true, true, true, false, 262144⟩, by decide +kernel⟩, by decide +kernel⟩,
      fires_of (sb := 0) (phasing (demoStore false (withRegs (ptrRegs 0 0x80) demo))) (by decide +kernel) (.inl rfl)
      ⟨by unfold notLocal; decide +kernel, ⟨0x80, ⟨0, 0, 0, 1, false, false, true, true, true, false, 262144⟩, by decide +kernel⟩, by decide +kernel⟩⟩
  · simp only [List.mem_cons, List.not_mem_nil, or_false, forall_eq_or_imp, forall_eq]
    exact ⟨⟨fires_of (sb := 0) demo (by decide +kernel) (.inl rfl) (by decide +kernel),
      fires_of (sb := 0) demo (by decide +kernel) (.inl rfl) (by decide +kernel)⟩,
      fires_of (sb := 0) (phasing (demoStore false demo)) (by decide +kernel) (.inl rfl) (by decide +kernel),
      fires_of (sb := 0) (phasing (demoStore false demo)) (by decide +kernel) (.inl rfl) (by decide +kernel)⟩
theorem witness_Atomics :
    Fires (.atoml (fM 4 2 0 2 0 0)) 7 false (some 0) (fun e _ => fits (e.aoffs (fM 4 2 0 2 0 0)) 4 e.k.localSize) ∧
    (∀ i ∈ [Instr.atom (fM 4 2 0 2 0 0), .red (fM 4 2 0 2 0 0)],
      Fires i 7 false (some 0) (fun e _ => (fM 4 2 0 2 0 0).off.extractLsb' 18 2 = 0 ∧
        regionOf (e.aptr (fM 4 2 0 2 0 0)) = 1 ∧ fits (offsetOf (e.aptr (fM 4 2 0 2 0 0))) 4 e.k.localSize) ∧
      Fires i 7 false (some 0) (fun e _ => (fM 4 2 0 2 0 0).off.extractLsb' 18 2 = 0 ∧
        regionOf (e.aptr (fM 4 2 0 2 0 0)) = 2 ∧ fits (offsetOf (e.aptr (fM 4 2 0 2 0 0))) 4 e.k.privSize)) ∧
    (∀ i ∈ [Instr.atom (fM 4 2 2 2 9 0xC0000), .red (fM 4 2 2 2 9 0xC0000)],
      Fires i 7 false (some 0) (fun e _ => (fM 4 2 2 2 9 0xC0000).off.extractLsb' 18 2 ≠ 0 ∧ ¬ notLocal (e.aptr (fM 4 2 2 2 9 0xC0000))) ∧
      (∀ ok ∈ [true, false], Fires i 7 false (some 0) (fun e s => (fM 4 2 2 2 9 0xC0000).off.getLsbD 19 = true ∧
        notLocal (e.aptr (fM 4 2 2 2 9 0xC0000)) ∧ reachesGlobal (chk e s (e.aptr (fM 4 2 2 2 9 0xC0000)) 4 .atomic) ∧
        ((chkState e s (e.aptr (fM 4 2 2 2 9 0xC0000)) 4 .atomic).commitBlock e.k.id).2 = ok))) := by
  simp only [List.mem_cons, List.not_mem_nil, or_false, forall_eq_or_imp, forall_eq]
  refine ⟨?_, ⟨⟨?_, ?_⟩, ?_, ?_⟩, ⟨?_, ?_, ?_⟩, ?_, ?_, ?_⟩
  all_goals first
    | exact fires_of (withRegs [(2, 4092)] demo) (by decide +kernel) (.inr rfl) (by unfold fits; decide +kernel)
    | exact fires_of (withRegs (ptrRegs 1 4092) demo) (by decide +kernel) (.inr rfl) (by unfold fits; decide +kernel)
    | exact fires_of (withRegs (ptrRegs 2 252) demo) (by decide +kernel) (.inr rfl) (by unfold fits; decide +kernel)
    | exact fires_of (withRegs (ptrRegs 1 4092) demo) (by decide +kernel) (.inr rfl) (by unfold notLocal; decide +kernel)
    | exact fires_of (withRegs (ptrRegs 0 0x80) demo) (by decide +kernel) (.inr rfl)
        ⟨by decide, by unfold notLocal; decide +kernel, reaches_of_isGlob (by decide +kernel), by decide +kernel⟩
    | exact fires_of (phasing (demoStore false (withRegs (ptrRegs 0 0x80) demo))) (by decide +kernel) (.inr rfl)
        ⟨by decide, by unfold notLocal; decide +kernel, reaches_of_isGlob (by decide +kernel), by decide +kernel⟩
theorem witness_CacheControl : Free (.pref (fM 0 2 0 0 2 0)) ∧
    Fires (.cline (fM 0 2 0 0 3 0)) 7 false none (fun e s => reachesGlobal (s.check e.k (e.ptr (fM 0 2 0 0 3 0)) 1 1 .cline).1) ∧
    Fires (.cline (fM 0 2 0 0 3 0)) 7 false none
      (fun e _ => regionOf (e.ptr (fM 0 2 0 0 3 0)) = 2 ∧ offsetOf (e.ptr (fM 0 2 0 0 3 0)) < e.k.privSize) ∧
    Fires (.vcqry (fM 4 2 0 4 0 0)) 7 false (some 0) (fun e _ => (fM 4 2 0 4 0 0).md = 0 ∧ (e.r 2).toNat < 256) ∧
    Fires (.vcqry (fM 4 2 0 4 0 0)) 7 false (some 0) (fun e _ => (fM 4 2 0 4 0 0).md = 0 ∧ 256 ≤ (e.r 2).toNat) ∧
    Fires (.vcqry (fM 4 2 0 3 2 0)) 7 false (some 0) (fun e s => (fM 4 2 0 3 2 0).md ≠ 0 ∧ notLocal (e.ptr (fM 4 2 0 3 2 0)) ∧
      reachesGlobal (chk e s (e.ptr (fM 4 2 0 3 2 0)) 8 .query)) ∧
    Fires (.vcqry (fM 4 2 0 3 2 0)) 7 false (some 0) (fun e _ => (fM 4 2 0 3 2 0).md ≠ 0 ∧ ¬ notLocal (e.ptr (fM 4 2 0 3 2 0))) :=
  ⟨free_of (by decide +kernel),
    fires_of (sb := 0) (withRegs (ptrRegs 0 0x80) demo) (by decide +kernel) (.inl rfl) (reaches_of_isGlob (by decide +kernel)),
    fires_of (sb := 0) (withRegs (ptrRegs 2 255) demo) (by decide +kernel) (.inl rfl) (by decide +kernel),
    fires_of (withRegs [(2, 255)] demo) (by decide +kernel) (.inr rfl) (by decide +kernel),
    fires_of (withRegs [(2, 256)] demo) (by decide +kernel) (.inr rfl) (by decide +kernel),
    fires_of (withRegs (ptrRegs 0 0x80) demo) (by decide +kernel) (.inr rfl)
      ⟨by decide, by unfold notLocal; decide +kernel, reaches_of_isGlob (by decide +kernel)⟩,
    fires_of (withRegs (ptrRegs 1 0x80) demo) (by decide +kernel) (.inr rfl) (by unfold notLocal; decide +kernel)⟩
/-- The page of the first GiB lacks the read right; it moves. -/
def noRights (s : State) : State := { s with mem := mwrite s.mem 0x12000 8 0x0100000000000039 }
def moving (s : State) : State := { s with mem := mwrite s.mem 0x12000 8 0x018000000000003D }
theorem witness_AccessChecks :
    (regionOf 0x0100000000000FFD = 1 ∧ demoK.localSize < offsetOf 0x0100000000000FFD + 4) ∧
    (regionOf 0x0200000000000100 = 2 ∧ demoK.privSize < offsetOf 0x0200000000000100 + 1) ∧
    (3 ≤ regionOf 0x0300000000000000 ∧ boundsOk (mread demo.mem 0x30 8) (mread demo.mem 0x38 8) 0 4 .load = false) ∧
    (regionOf 0x0100000000000FFC = 1 ∧ offsetOf 0x0100000000000FFC + 4 ≤ demoK.localSize) ∧
    (regionOf 0x02000000000000FC = 2 ∧ offsetOf 0x02000000000000FC + 4 ≤ demoK.privSize) ∧
    (regionOf 0x82 = 0 ∧ offsetOf 0x82 % 4 ≠ 0) ∧ leaseOk (demo.leases demoK) 0x40000000 4 .load = false ∧
    (leaseOk (demo.leases demoK) 0x80 4 .load = true ∧
      (demo.lookup demoK.core demoK.ctx 0x80).1 = .ok ⟨0, 0, 0, 1, false, false, true, true, true, false, 262144⟩ ∧
      demo.paCause 0x80 = none ∧ (demo.vc demoK.ctx 1).isSome = true) ∧
    ((readOnly demo).check demoK 0x80 4 4 .atomic).1 = .trap 0x088 ∧ ((noRights demo).check demoK 0x80 4 4 .load).1 = .trap 0x087 ∧
    ((moving demo).check demoK 0x80 4 4 .store).1 = .park 0 ∧
    Fires (.ldl (fM 4 2 0 2 0 0)) 7 false (some 0) (fun e _ => ¬ fits (e.offs (fM 4 2 0 2 0 0)) 4 e.k.localSize) ∧
    Fires (.stp (fM 4 2 0 2 0 0)) 7 false none (fun e _ => ¬ fits (e.offs (fM 4 2 0 2 0 0)) 4 e.k.privSize) ∧
    Fires (.ldk (fM 4 2 0 2 0 0)) 7 false (some 0) (fun e s =>
      ((s.launch e.k.launch).map (·.cbsize)).getD 0 = 0 ∧ ¬ fits (e.offs (fM 4 2 0 2 0 0)) 4 0) ∧
    (∀ i ∈ [Instr.ld (fM 4 2 0 2 0 0), .st (fM 4 2 0 2 0 0), .acq (fM 4 2 0 2 0 0), .rel (fM 4 2 0 2 0 0), .atom (fM 4 2 0 2 0 0),
        .red (fM 4 2 0 2 0 0)], ∀ ak ∈ [AKind.load, .store, .atomic],
      Fires i 7 false (some 0) (fun e s => notLocal (e.ptr (fM 4 2 0 2 0 0)) ∧
        refused (chk e s (e.ptr (fM 4 2 0 2 0 0)) 4 ak) true (fM 4 2 0 2 0 0) (e.ptr (fM 4 2 0 2 0 0)) =
          some (memStop 0x082 true (fM 4 2 0 2 0 0) 0x81))) ∧
    Fires (.cline (fM 0 2 0 0 3 0)) 7 false none (fun e s => (s.check e.k (e.ptr (fM 0 2 0 0 3 0)) 1 1 .cline).1 = .trap 0x083) ∧
    Fires (.vcqry (fM 4 2 0 3 2 0)) 7 false (some 0) (fun e s => notLocal (e.ptr (fM 4 2 0 3 2 0)) ∧
      chk e s (e.ptr (fM 4 2 0 3 2 0)) 8 .query = .trap 0x083) ∧
    (∀ x ∈ [Chk.trap 0x087, .park 0], Fires (.ldk (fM 4 2 0 2 0 0)) 7 false (some 0) (fun e s =>
      ((s.launch e.k.launch).map (·.cbsize)).getD 0 = 64 ∧ fits (e.offs (fM 4 2 0 2 0 0)) 4 64 ∧
        (s.checkConst e.k (constAddr e s (e.offs (fM 4 2 0 2 0 0)))).1 = x)) := by
  refine ⟨by decide +kernel, by decide +kernel, by decide +kernel, by decide +kernel, by decide +kernel, by decide +kernel, by decide +kernel,
    by decide +kernel, by decide +kernel, by decide +kernel, by decide +kernel,
    fires_of (withRegs [(2, 4093)] demo) (by decide +kernel) (.inr rfl) (by unfold fits; decide +kernel),
    fires_of (sb := 0) (withRegs [(2, 0xFFFFFFFC)] demo) (by decide +kernel) (.inl rfl) (by unfold fits; decide +kernel),
    fires_of demo (by decide +kernel) (.inr rfl) (by unfold fits; decide +kernel), fun i hi ak hk => ?_,
    fires_of (sb := 0) (withRegs (ptrRegs 0 0x40000000) demo) (by decide +kernel) (.inl rfl) (by decide +kernel),
    fires_of (withRegs (ptrRegs 0 0x40000000) demo) (by decide +kernel) (.inr rfl) (by unfold notLocal; decide +kernel), ?_⟩
  · refine fires_of (withRegs (ptrRegs 0 0x81) demo) ?_ (.inr rfl) ⟨by unfold notLocal; decide +kernel, ?_⟩
    · revert i; decide +kernel
    · revert i ak; decide +kernel
  · simp only [List.mem_cons, List.not_mem_nil, or_false, forall_eq_or_imp, forall_eq]
    exact ⟨fires_of (withLaunch (fun l => { l with cbsize := 64 }) (withRegs [(2, 60)] (noRights demo))) (by decide +kernel) (.inr rfl)
        (by unfold fits; decide +kernel),
      fires_of (withLaunch (fun l => { l with cbsize := 64 }) (withRegs [(2, 60)] (moving demo))) (by decide +kernel) (.inr rfl)
        (by unfold fits; decide +kernel)⟩
theorem witness_CommittedStore : let s := demoStore false demo
    (s.block 1).map (·.sbuf) = some [demoEntry false] ∧ s.entryHeld (seatK s demoK) (demoEntry false) = false ∧
      (demoEntry false).faulting = false ∧ (demoEntry false).pa % 128 + (demoEntry false).width ≤ 128 ∧
      s.writesThrough 0 1 = false ∧ s.writesThrough 0 0 = true ∧ cleanEverywhere s 1 ∧ (lineOf s ⟨0, 0⟩ 1).isNone = true ∧
      s.homePkg 0x80 = s.pkg.toNat :=
  ⟨by decide +kernel, by decide +kernel, by decide +kernel, by decide +kernel, by decide +kernel, by decide +kernel, clean_of (by decide +kernel),
    by decide +kernel, by decide +kernel⟩
/-- The thread has arrived at barrier 2 of its block. -/
def arrivedAt (s : State) : State := withThread (fun t => { t with bars := [⟨1, 2, 0, false⟩] }) s
theorem allowed_demo {s : State} {k : Block} (h : (s.launch k.launch).map (·.coop) = some false) : ¬ barAllowed s k 2 := by
  rintro (h' | ⟨l, hl, hc, -⟩)
  · exact absurd h' (by decide)
  · simp [hl, hc] at h
theorem witness_ScopedBarriers :
    (∀ i ∈ [Instr.bararv (fM 0 0 1 0 2 0), .bar (fM 0 0 1 0 2 0)], ∀ ok ∈ [true, false], Fires i 7 false none (fun e s => barAllowed s e.k 1 ∧
      arrived (me e s) 1 2 = none ∧ (s.commitBlock e.k.id).2 = ok ∧ (arrived (me e (barArrives e s 1 2)) 1 2).isSome = true)) ∧
    (∀ i ∈ [Instr.bararv (fM 0 0 1 0 2 0), .bar (fM 0 0 1 0 2 0), .barwait (fM 0 0 1 0 2 0)],
      Fires i 7 false none (fun e s => barAllowed s e.k 1 ∧ (arrived (me e s) 1 2).isSome = true)) ∧
    (∀ i ∈ [Instr.bararv (fM 0 0 2 0 2 0), .bar (fM 0 0 2 0 2 0), .barwait (fM 0 0 2 0 2 0)], Fires i 7 false none (fun e s => ¬ barAllowed s e.k 2)) ∧
    Fires (.barwait (fM 0 0 1 0 2 0)) 7 false none (fun e s => barAllowed s e.k 1 ∧ arrived (me e s) 1 2 = none) ∧
    (let s := { demo with bars := [⟨1, 1, 1, 2, 0, [(1, 0)]⟩] }
     (s.barOf 1 1 1 2).arrived ≠ [] ∧ ∀ p ∈ s.participants 1 1 1, p ∈ (s.barOf 1 1 1 2).arrived) ∧
    (let s := { withLaunch (fun l => { l with coop := true, podgrp := 7 }) demo with bars := [⟨5, 7, 0, 2, 0, [(1, 0)]⟩] }
     (s.barOf 5 7 0 2).arrived ≠ [] ∧ (∀ p ∈ s.participants 5 7 0, p ∈ (s.barOf 5 7 0 2).arrived) ∧ (0, 0) ∉ (s.barOf 5 7 0 2).arrived) ∧
    ∃ p ∈ demo.participants 1 1 1, p ∉ (demo.barOf 1 1 1 2).arrived := by
  simp only [List.mem_cons, List.not_mem_nil, or_false, forall_eq_or_imp, forall_eq]
  refine ⟨⟨⟨?_, ?_⟩, ?_, ?_⟩, ⟨?_, ?_, ?_⟩, ⟨?_, ?_, ?_⟩, fires_of (sb := 0) demo (by decide +kernel) (.inl rfl) ⟨.inl (by decide), by decide +kernel⟩,
    by decide +kernel, by decide +kernel, ⟨(1, 0), by decide +kernel⟩⟩
  all_goals first
    | exact fires_of (sb := 0) demo (by decide +kernel) (.inl rfl) ⟨.inl (by decide), by decide +kernel⟩
    | exact fires_of (sb := 0) (phasing (demoStore false demo)) (by decide +kernel) (.inl rfl) ⟨.inl (by decide), by decide +kernel⟩
    | exact fires_of (sb := 0) (arrivedAt demo) (by decide +kernel) (.inl rfl) ⟨.inl (by decide), by decide +kernel⟩
    | exact fires_of (sb := 0) demo (by decide +kernel) (.inl rfl) (allowed_demo (by decide +kernel))
/-- A barrier object at 0x10: valid, in phase ph, p arrivals pending. -/
def demoBo (ph : Bool) (p : Nat) (s : State) : State :=
  withBlock (fun k => { k with lmem := mwrite k.lmem 0x10 8 (Bo.word ⟨ph, true, p, p, 0⟩).toNat }) s
theorem witness_BarrierObjects :
    (∀ n ∈ [1, 4095], Fires (.boinit (fM 4 2 0 0 0 0x10)) 7 false none (fun e _ => boAt (e.offs (fM 4 2 0 0 0 0x10)) e.k.localSize ∧
      (e.r 4).toNat = n)) ∧
    (∀ n ∈ [0, 4096], Fires (.boinit (fM 4 2 0 0 0 0x10)) 7 false none (fun e _ => boAt (e.offs (fM 4 2 0 0 0 0x10)) e.k.localSize ∧
      (e.r 4).toNat = n)) ∧
    (Fires (.boexp (fM 4 2 0 0 1 0x10)) 7 false none (fun e s => boAt (e.offs (fM 4 2 0 0 1 0x10)) e.k.localSize ∧ (boNow e s 16).v = true ∧
      (boNow e s 16).tx + (e.r 4).toNat ≤ 2147483647 ∧ 0 < (boNow e s 16).pend)) ∧
    (Fires (.boexp (fM 4 2 0 0 0 0x10)) 7 false none (fun e s => boAt (e.offs (fM 4 2 0 0 0 0x10)) e.k.localSize ∧ (boNow e s 16).v = true ∧
      2147483647 < (boNow e s 16).tx + (e.r 4).toNat)) ∧
    (Fires (.boexp (fM 4 2 0 0 1 0x10)) 7 false none (fun e s => boAt (e.offs (fM 4 2 0 0 1 0x10)) e.k.localSize ∧ (boNow e s 16).v = true ∧
      (boNow e s 16).pend = 0)) ∧
    (∀ i ∈ [Instr.boarv (fM 4 2 0 0 0 0x10), .bowait (fM 4 2 0 0 0 0x10), .botest (fM 4 2 0 0 0 0x10)], ∀ p ∈ [0, 1],
      Fires i 7 false none (fun e s => boAt (e.offs (fM 4 2 0 0 0 0x10)) e.k.localSize ∧ (boNow e s 16).v = true ∧ (boNow e s 16).pend = p)) ∧
    (∀ i ∈ [Instr.boexp (fM 4 2 0 0 0 0x10), .boarv (fM 4 2 0 0 0 0x10), .bowait (fM 4 2 0 0 0 0x10), .botest (fM 4 2 0 0 0 0x10)],
      Fires i 7 false none (fun e s => boAt (e.offs (fM 4 2 0 0 0 0x10)) e.k.localSize ∧ (boNow e s 16).v = false)) ∧
    (∀ i ∈ [Instr.boinit (fM 4 2 0 0 0 0x10), .boexp (fM 4 2 0 0 0 0x10), .boarv (fM 4 2 0 0 0 0x10), .bowait (fM 4 2 0 0 0 0x10),
      .botest (fM 4 2 0 0 0 0x10)], ∀ n ∈ [1, 0xFFFFFFFF], Fires i 7 false none (fun e _ => (e.r 2).toNat = n ∧
        ¬ boAt (e.offs (fM 4 2 0 0 0 0x10)) e.k.localSize)) ∧
    (∃ k, (demoBo false 0 demo).block 1 = some k ∧ (k.bo 16).v = true ∧ (k.bo 16).pend = 0 ∧ (k.bo 16).tx = 0) ∧
    ∃ k, (withThread (fun t => { t with status := .waiting (.bowait 16 true) }) (demoBo false 1 demo)).block 1 = some k ∧
      ¬ ((k.bo 16).v = true ∧ (k.bo 16).pend = 0 ∧ (k.bo 16).tx = 0) ∧ 0 < k.threads.length ∧
      (k.thread 0).status = .waiting (.bowait 16 true) := by
  unfold boAt
  simp only [List.mem_cons, List.not_mem_nil, or_false, forall_eq_or_imp, forall_eq]
  refine ⟨⟨?_, ?_⟩, ⟨?_, ?_⟩, ?_, ?_, ?_, ⟨⟨?_, ?_⟩, ⟨?_, ?_⟩, ?_, ?_⟩, ⟨?_, ?_, ?_, ?_⟩,
    ⟨⟨?_, ?_⟩, ⟨?_, ?_⟩, ⟨?_, ?_⟩, ⟨?_, ?_⟩, ?_, ?_⟩, ⟨_, rfl, by decide +kernel⟩, ⟨_, rfl, by decide +kernel⟩⟩
  all_goals first
    | exact fires_of (sb := 0) (withRegs [(2, 4064), (4, 1)] demo) (by decide +kernel) (.inl rfl) (by decide +kernel)
    | exact fires_of (sb := 0) (withRegs [(2, 4064), (4, 4095)] demo) (by decide +kernel) (.inl rfl) (by decide +kernel)
    | exact fires_of (sb := 0) (withRegs [(2, 0), (4, 0)] demo) (by decide +kernel) (.inl rfl) (by decide +kernel)
    | exact fires_of (sb := 0) (withRegs [(2, 0), (4, 4096)] demo) (by decide +kernel) (.inl rfl) (by decide +kernel)
    | exact fires_of (sb := 0) (demoBo false 1 (withRegs [(2, 0), (4, 0x7FFFFFFF)] demo)) (by decide +kernel) (.inl rfl) (by decide +kernel)
    | exact fires_of (sb := 0) (demoBo false 1 (withRegs [(2, 0), (4, 0x80000000)] demo)) (by decide +kernel) (.inl rfl) (by decide +kernel)
    | exact fires_of (sb := 0) (demoBo true 0 (withRegs [(2, 0), (4, 0)] demo)) (by decide +kernel) (.inl rfl) (by decide +kernel)
    | exact fires_of (sb := 0) (demoBo true 1 (withRegs [(2, 0), (4, 0)] demo)) (by decide +kernel) (.inl rfl) (by decide +kernel)
    | exact fires_of (sb := 0) (withRegs [(2, 1)] demo) (by decide +kernel) (.inl rfl) (by decide +kernel)
    | exact fires_of (sb := 0) (withRegs [(2, 0xFFFFFFFF)] demo) (by decide +kernel) (.inl rfl) (by decide +kernel)
/-- Queue 3 at 0x40: room for two words, n of them held. -/
def demoQueue (n : Nat) (v : Bool) (s : State) : State :=
  withBlock (fun k => { k with qtable := [(3, 0x40)], lmem := mwrite k.lmem 0x40 8 (Que.word ⟨0, n, v, 2, 2⟩) }) s
theorem queueAt_of {e : Env} {s : State} {q h : Nat} (x : (s.block e.k.id).map (fun k => (tget k.qtable q, (k.que h).v)) = some (some h, true)) :
    QueueAt e s q h := by
  obtain ⟨k, hk, hx⟩ := Option.map_eq_some_iff.mp x
  exact ⟨k, hk, by simpa using congrArg Prod.fst hx, by simpa using congrArg Prod.snd hx⟩
theorem witness_Queues :
    Fires (.qdef (fM 4 2 0 0 3 0)) 7 false none (fun e _ =>
      let g := (e.r 4).toNat
      g / 2 ^ 25 = 0 ∧ g / 2 ^ 9 % 2 ^ 7 = 0 ∧ 0 < g % 512 ∧ g % 512 ≤ 256 ∧ 0 < g / 2 ^ 16 % 512 ∧ g / 2 ^ 16 % 512 ≤ g % 512 ∧
      0 ≤ e.offs (fM 4 2 0 0 3 0) ∧ (e.offs (fM 4 2 0 0 3 0)).toNat % 8 = 0 ∧ e.offs (fM 4 2 0 0 3 0) + 8 + 4 * (g % 512 : Nat) ≤ e.k.localSize) ∧
    Fires (.qdef (fM 4 2 0 0 3 0)) 7 false none (fun e s =>
      let g := (e.r 4).toNat
      let old := (blockNow e s).que (e.offs (fM 4 2 0 0 3 0)).toNat
      2 ^ 31 ≤ g ∧ old.v = true ∧ 0 < g / 2 ^ 16 % 512 ∧ g / 2 ^ 16 % 512 ≤ old.cap ∧
      0 ≤ e.offs (fM 4 2 0 0 3 0) ∧ (e.offs (fM 4 2 0 0 3 0)).toNat % 8 = 0 ∧ e.offs (fM 4 2 0 0 3 0) + 8 + 4 * old.cap ≤ e.k.localSize) ∧
    (∀ c ∈ [0x080, 0x082, 0x106, 0x107], Fires (.qdef (fM 4 2 0 0 3 0)) 7 false none (fun e s => qdefCause e s (fM 4 2 0 0 3 0) = some c)) ∧
    (∀ i ∈ [Instr.qpush (fM 4 0 0 0 3 0), .qpop (fM 4 0 0 0 3 0), .qtry (fM 4 0 0 0 3 8), .qtry (fM 4 0 0 0 3 0)],
      Fires i 7 false none (fun e s => ∃ h, QueueAt e s 3 h)) ∧
    (∀ i ∈ [Instr.qpush (fM 4 0 0 0 2 0), .qpop (fM 4 0 0 0 2 0), .qtry (fM 4 0 0 0 2 8)],
      Fires i 7 false none (fun e s => tget (blockNow e s).qtable 2 = none)) ∧
    (∀ i ∈ [Instr.qpush (fM 4 0 0 0 3 0), .qpop (fM 4 0 0 0 3 0), .qtry (fM 4 0 0 0 3 8)],
      Fires i 7 false none (fun e s => tget (blockNow e s).qtable 3 = some 0x40 ∧ ((blockNow e s).que 0x40).v = false)) ∧
    goodQueue ((seatK (demoQueue 0 true demo) demoK).que 0x40) ∧ ((seatK (demoQueue 0 true demo) demoK).que 0x40).count = 0 ∧
    goodQueue ((seatK (demoQueue 2 true demo) demoK).que 0x40) ∧
    ((seatK (demoQueue 2 true demo) demoK).que 0x40).alw ≤ ((seatK (demoQueue 2 true demo) demoK).que 0x40).count := by
  unfold goodQueue
  simp only [List.mem_cons, List.not_mem_nil, or_false, forall_eq_or_imp, forall_eq]
  refine ⟨fires_of (sb := 0) (withRegs [(2, 0x40), (4, 0x01000100)] demo) (by decide +kernel) (.inl rfl) (by decide +kernel),
    fires_of (sb := 0) (demoQueue 1 true (withRegs [(2, 0x40), (4, 0x80010000)] demo)) (by decide +kernel) (.inl rfl) (by decide +kernel),
    ⟨?_, ?_, ?_, ?_⟩, ⟨?_, ?_, ?_, ?_⟩, ⟨?_, ?_, ?_⟩, ⟨?_, ?_, ?_⟩, by decide +kernel, by decide +kernel, by decide +kernel, by decide +kernel⟩
  all_goals first
    | exact fires_of (sb := 0) (withRegs [(2, 0xFF8), (4, 0x00010001)] demo) (by decide +kernel) (.inl rfl) (by decide +kernel)
    | exact fires_of (sb := 0) (withRegs [(2, 0x44), (4, 0)] demo) (by decide +kernel) (.inl rfl) (by decide +kernel)
    | exact fires_of (sb := 0) (withRegs [(2, 0xFF8), (4, 0x00020001)] demo) (by decide +kernel) (.inl rfl) (by decide +kernel)
    | exact fires_of (sb := 0) (withRegs [(2, 0x80), (4, 0x80010000)] demo) (by decide +kernel) (.inl rfl) (by decide +kernel)
    | exact fires_of (sb := 0) (demoQueue 1 true demo) (by decide +kernel) (.inl rfl) ⟨0x40, queueAt_of (by decide +kernel)⟩
    | exact fires_of (sb := 0) demo (by decide +kernel) (.inl rfl) (by decide +kernel)
    | exact fires_of (sb := 0) (demoQueue 1 false demo) (by decide +kernel) (.inl rfl) (by decide +kernel)
theorem witness_TrapsAndReturns : Free (.trap (fI 0 0 0 63)) ∧ Free (.bpt (fI 0 0 0 63)) ∧
    Fires (.tret (fA 0 0 0 0 0)) 7 false none (fun e _ => (fA 0 0 0 0 0).md.getLsbD 0 = false ∧ e.th.inHandler = true ∧ keptWait e.th = none) ∧
    Fires (.tret (fA 0 0 0 0 0)) 7 false none (fun e _ => e.th.inHandler = true ∧ (keptWait e.th).isSome = true) ∧
    Fires (.tret (fA 0 2 0 0 1)) 7 false none (fun e s => (fA 0 2 0 0 1).md.getLsbD 0 = true ∧ e.th.inHandler = true ∧ goodTarget s e.k (e.r64 2)) ∧
    Fires (.tret (fA 0 2 0 0 1)) 7 false none (fun e s => e.th.inHandler = true ∧ badTarget s e.k (e.r64 2)) ∧
    Fires (.tret (fA 0 2 0 0 1)) 7 false none (fun e s => e.th.inHandler = true ∧ waitingTarget s e.k (e.r64 2)) ∧
    Fires (.tret (fA 0 0 0 0 0)) 7 false none (fun e _ => e.th.inHandler = false) :=
  let h := withThread fun t => { t with inHandler := true }
  ⟨free_of (by decide +kernel), free_of (by decide +kernel), fires_of (sb := 0) (h demo) (by decide +kernel) (.inl rfl) (by decide +kernel),
    fires_of (sb := 0) (withThread (fun t => { t with tw0 := 1#64 <<< 50, savedWait := some (.jwait 3) }) (h demo)) (by decide +kernel) (.inl rfl)
      (by decide +kernel),
    fires_of (sb := 0) (h demoCode) (by decide +kernel) (.inl rfl)
      ⟨by decide, by decide +kernel, goodTarget_of (by decide +kernel) (by decide +kernel)⟩,
    fires_of (sb := 0) (withRegs [(2, 4), (3, 0)] (h demo)) (by decide +kernel) (.inl rfl) ⟨by decide +kernel, .inl (by decide +kernel)⟩,
    fires_of (sb := 0) (h (demoMoves demoCode)) (by decide +kernel) (.inl rfl) (by unfold waitingTarget; decide +kernel),
    fires_of (sb := 0) demo (by decide +kernel) (.inl rfl) (by decide +kernel)⟩
theorem soleThread_demo : ∀ n t, lget demoK.threads n = some t → t.alive = true → t.fid = (demoK.thread 0).fid → n = 0 := fun n t => by
  have e : demoK.threads.length = 1 := by decide +kernel
  revert e
  cases demoK.threads with
  | nil => simp
  | cons a r => cases r <;> cases n <;> simp_all [lget]
theorem witness_Fragments : Free (.frginfo (fA 4 0 0 0 0)) ∧
    (∀ n ∈ [1, 4], Fires (.frginfo (fA 4 0 0 0 n)) 7 false none (fun e _ => 1 ≤ (fA 4 0 0 0 n).md.toNat % 8 ∧ (fA 4 0 0 0 n).md.toNat % 8 ≤ 4 ∧
      e.th.inHandler = true)) ∧
    Fires (.frginfo (fA 4 0 0 0 1)) 7 false none (fun e _ => (fA 4 0 0 0 1).md.toNat % 8 ≠ 0 ∧ e.th.inHandler = false) ∧
    Free (.sfqpop (fA 4 0 0 0 0)) ∧ Fires (.killf (fA 0 0 0 0 1)) 7 false none (fun e _ => killed e (fA 0 0 0 0 1) = e.th.fid) ∧
    Fires (.killf (fA 0 4 0 0 0)) 7 false none (fun e s => killed e (fA 0 4 0 0 0) ≠ e.th.fid ∧
      fragmentLives (blockNow e (s.killFragment e.k.id (killed e (fA 0 4 0 0 0)))) (killed e (fA 0 4 0 0 0))) ∧
    (demo.block 1 = some demoK ∧ 0 < demoK.threads.length ∧ (demoK.thread 0).status = .issuing ∧
      ∀ n t, lget demoK.threads n = some t → t.alive = true → t.fid = (demoK.thread 0).fid → n = 0) ∧
    (let s := withThread (fun t => { t with status := .ready, kill := true }) demo
     (s.thread 1 0).kill = true ∧ (s.thread 1 0).alive = true ∧ (s.thread 1 0).status ≠ .issuing) :=
  ⟨free_of (by decide +kernel), by
      simp only [List.mem_cons, List.not_mem_nil, or_false, forall_eq_or_imp, forall_eq]
      exact ⟨fires_of (sb := 0) (withThread (fun t => { t with inHandler := true }) demo) (by decide +kernel) (.inl rfl) (by decide +kernel),
        fires_of (sb := 0) (withThread (fun t => { t with inHandler := true }) demo) (by decide +kernel) (.inl rfl) (by decide +kernel)⟩,
    fires_of (sb := 0) demo (by decide +kernel) (.inl rfl) (by decide +kernel), free_of (by decide +kernel),
    fires_of (sb := 0) demo (by decide +kernel) (.inl rfl) (by decide +kernel),
    fires_of (sb := 0) (withBlock (fun k => { k with threads := k.threads ++ [({ status := .issuing, fid := 7 } : Thread)] }) (withRegs [(4, 7)] demo))
      (by decide +kernel) (.inl rfl) (by unfold fragmentLives; decide +kernel),
    ⟨by decide +kernel, by decide +kernel, by decide +kernel, soleThread_demo⟩, by decide +kernel⟩
/-- A cache definition record at 0x200: no shares asked for, placed on one core; w is its second word. -/
def demoRecord (w : Nat) : State := withRegs (ptrRegs 0 0x200 ++ [(4, 4)]) { demo with mem := mwrite demoTables 0x208 8 w }
/-- A map at the start of .data, of n entries. -/
def demoData (n : Nat) (s : State) : State :=
  withLaunch (fun l => { l with data := 0x300, text := 0x1000, textWords := 4 })
    (withRegs [(2, 0x1010), (3, 0)] { s with mem := mwrite (mwrite s.mem 0x308 8 (0x50414D58 * 2 ^ 32 + n)) 0x300 8 0 })
/-- VC 4 is defined: no shares, placed on one core. -/
def demoVc (s : State) : State := withCtx (fun c => { c with vcs := c.vcs ++ [(4, ⟨true, 0, 0x8080000000, false, 0, [], none⟩)] }) s
def isOk (r : Except Stop MapRes) : Bool :=
  match r with
  | .ok _ => true
  | .error _ => false
theorem mapped_of {r : Except Stop MapRes} (h : isOk r = true) : ∃ a b p, r = .ok (a, b, p) := by
  cases r with
  | ok m => exact ⟨m.1, m.2.1, m.2.2, rfl⟩
  | error _ => cases h
theorem unmapped_of {r : Except Stop MapRes} (h : isOk r = false) : ∃ st, r = .error st := by
  cases r with
  | ok m => cases h
  | error st => exact ⟨st, rfl⟩
theorem witness_ServiceInstructions : Free (.setprio (fI 0 0 0 127)) ∧ Free (.tmode (fI 4 0 0 1)) ∧ Free (.qfeat (fI 4 0 0 31)) ∧
    (demo.ctx demoK.ctx).isSome = true ∧ Free (.xldec (fA 4 2 6 0 0)) ∧
    (∀ n ∈ [0, 1], Fires (.xlmap (fA 4 2 0 0 0)) 7 false (some 0) (fun e s => ∃ a b p, (e.mapLookup s (e.r64 2)).1 = .ok (a, b, p))) ∧
    Fires (.xlmap (fA 4 2 0 0 0)) 7 false (some 0) (fun e s => ∃ st, (e.mapLookup s (e.r64 2)).1 = .error st) ∧
    Fires (.xlmapRaise (fA 0 0 0 0 0x81)) 7 false none (fun e s => ∃ a b p, (e.mapLookup s e.iaddr).1 = .ok (a, b, p)) ∧
    Fires (.xlmapRaise (fA 0 0 0 0 0x81)) 7 false none (fun e s => ∃ st, (e.mapLookup s e.iaddr).1 = .error st) ∧
    (∀ bad ∈ [false, true], Fires (.vcdef (fA 5 2 4 0 0)) 7 false (some 0) (fun e s => softVc (e.opB (fA 5 2 4 0 0)) ∧ ∃ ws,
      reads64 e s (e.r64 2) ws ∧ (e.readRecord s (e.r64 2) 64 64).2.dieMap.cdrBad ws = bad)) ∧
    Fires (.vcdef (fA 5 2 4 0 0)) 7 false (some 0) (fun e s => softVc (e.opB (fA 5 2 4 0 0)) ∧
      (e.readRecord s (e.r64 2) 64 64).1 = .error (.trap 0x083 0 0x40000000 false false)) ∧
    (∀ bad ∈ [false, true], Fires (.vcsize (fA 5 6 4 7 0)) 7 false (some 0) (fun e s => softVc (e.opB (fA 5 6 4 7 0)) ∧
      (let v := s.vcEntry e.k.ctx (e.opB (fA 5 6 4 7 0)).toNat
       v.v = true ∧ s.dieMap.countsBad v.w0.toNat v.w1.toNat (e.r 6).toNat (e.r 7).toNat = bad))) ∧
    (∀ bad ∈ [false, true], Fires (.vcmove (fA 5 2 4 0 0)) 7 false (some 0) (fun e s => softVc (e.opB (fA 5 2 4 0 0)) ∧
      s.dieMap.placeBad (s.vcEntry e.k.ctx (e.opB (fA 5 2 4 0 0)).toNat).w0.toNat (e.r64 2).toNat = bad)) ∧
    (∀ i ∈ [Instr.vcdef (fA 5 2 4 0 0), .vcsize (fA 5 2 4 2 0), .vcmove (fA 5 2 4 0 0), .vcflush (fA 5 0 4 0 2)],
      (∀ n ∈ [4, 255], Fires i 7 false (some 0) (fun e _ => (e.r 4).toNat = n ∧ softVc (e.r 4))) ∧
      (∀ n ∈ [3, 256], Fires i 7 false (some 0) (fun e _ => (e.r 4).toNat = n ∧ ¬ softVc (e.r 4)))) ∧
    Fires (.biasflip (fA 5 2 4 0 0)) 7 false (some 0) (fun e s => notLocal (e.r64 2) ∧ ∀ c, (s.check e.k (e.r64 2) 1 1 .flip).1 ≠ .trap c) ∧
    Fires (.biasflip (fA 5 2 4 0 0)) 7 false (some 0) (fun e _ => ¬ notLocal (e.r64 2)) ∧
    Fires (.biasflip (fA 5 2 4 0 0)) 7 false (some 0) (fun e s => notLocal (e.r64 2) ∧ (s.check e.k (e.r64 2) 1 1 .flip).1 = .trap 0x083) := by
  unfold softVc notLocal
  simp only [List.mem_cons, List.not_mem_nil, or_false, forall_eq_or_imp, forall_eq]
  refine ⟨free_of (by decide +kernel), free_of (by decide +kernel), free_of (by decide +kernel), by decide +kernel, free_of (by decide +kernel),
    ⟨fires_of (demoData 0 demo) (by decide +kernel) (.inr rfl) (mapped_of (by decide +kernel)),
      fires_of (demoData 1 demo) (by decide +kernel) (.inr rfl) (mapped_of (by decide +kernel))⟩,
    fires_of (demoData 1 (noRights demo)) (by decide +kernel) (.inr rfl) (unmapped_of (by decide +kernel)),
    fires_of (sb := 0) (demoData 1 demo) (by decide +kernel) (.inl rfl) (mapped_of (by decide +kernel)),
    fires_of (sb := 0) (demoData 1 (noRights demo)) (by decide +kernel) (.inl rfl) (unmapped_of (by decide +kernel)),
    ⟨fires_of (demoRecord 0x8080000000) (by decide +kernel) (.inr rfl)
      ⟨by decide +kernel, 0 :: 0x8080000000 :: List.replicate 6 0,
        ⟨(leBytes 8 0 ++ leBytes 8 0x8080000000 ++ List.replicate 48 0), by decide +kernel, by decide +kernel⟩, by decide +kernel⟩,
     fires_of (demoRecord 0x8080000001) (by decide +kernel) (.inr rfl)
      ⟨by decide +kernel, 0 :: 0x8080000001 :: List.replicate 6 0,
        ⟨(leBytes 8 0 ++ leBytes 8 0x8080000001 ++ List.replicate 48 0), by decide +kernel, by decide +kernel⟩, by decide +kernel⟩⟩,
    fires_of (withRegs (ptrRegs 0 0x40000000 ++ [(4, 4)]) demo) (by decide +kernel) (.inr rfl) ⟨by decide +kernel, by rfl⟩, ?_, ?_, ?_,
    fires_of (demoRecord 0) (by decide +kernel) (.inr rfl) ⟨by decide +kernel, fun c h => by
      have := reaches_of_isGlob (c := ((demoRecord 0).check demoK 0x200 1 1 .flip).1) (by decide +kernel)
      obtain ⟨_, _, _, hg⟩ := this
      change ((demoRecord 0).check demoK 0x200 1 1 .flip).1 = _ at h
      rw [hg] at h; cases h⟩,
    fires_of (withRegs (ptrRegs 1 0 ++ [(4, 0)]) demo) (by decide +kernel) (.inr rfl) (by decide +kernel),
    fires_of (withRegs (ptrRegs 0 0x40000000 ++ [(4, 0)]) demo) (by decide +kernel) (.inr rfl) (by decide +kernel)⟩
  · exact ⟨fires_of (demoVc (withRegs [(4, 4), (6, 1792), (7, 0)] demo)) (by decide +kernel) (.inr rfl) (by decide +kernel),
      fires_of (demoVc (withRegs [(4, 4), (6, 1793), (7, 0)] demo)) (by decide +kernel) (.inr rfl) (by decide +kernel)⟩
  · exact ⟨fires_of (demoVc (withRegs [(2, 0x80000000), (3, 0x80), (4, 4)] demo)) (by decide +kernel) (.inr rfl) (by decide +kernel),
      fires_of (demoVc (withRegs [(2, 0x80000001), (3, 0x80), (4, 4)] demo)) (by decide +kernel) (.inr rfl) (by decide +kernel)⟩
  · refine ⟨⟨⟨?_, ?_⟩, ?_, ?_⟩, ⟨⟨?_, ?_⟩, ?_, ?_⟩, ⟨⟨?_, ?_⟩, ?_, ?_⟩, ⟨⟨?_, ?_⟩, ?_, ?_⟩⟩
    all_goals first
      | exact fires_of (withRegs [(2, 0), (3, 0), (4, 4)] demo) (by decide +kernel) (.inr rfl) (by decide +kernel)
      | exact fires_of (withRegs [(2, 0), (3, 0), (4, 255)] demo) (by decide +kernel) (.inr rfl) (by decide +kernel)
      | exact fires_of (withRegs [(2, 0), (3, 0), (4, 3)] demo) (by decide +kernel) (.inr rfl) (by decide +kernel)
      | exact fires_of (withRegs [(2, 0), (3, 0), (4, 256)] demo) (by decide +kernel) (.inr rfl) (by decide +kernel)
/-- A kernel that either sequencer may run, and a descriptor in g16 that names it. -/
def demoFork (b : Word) : State :=
  withLaunch (fun l => { l with kernels := l.kernels.map fun (k : Kernel) => { k with ktype := 3 } }) (withRegs ((24, b) ::
    (List.range 8).map fun (i : Nat) => (16 + i, if i = 0 then (0x1000 : Word) else 0)) demo)
theorem witness_ForkAndRdv :
    Fires (.fork (fX 16 24 0)) 7 false none (fun e s => goodBo (e.r 24).toNat e.k.localSize ∧
      e.forkBad s (fX 16 24 0) (forkNames e (fX 16 24 0)) (s.forkTargets e.k (fX 16 24 0)) = 0) ∧
    Fires (.fork (fX 16 24 0)) 7 false none (fun e s => goodBo (e.r 24).toNat e.k.localSize ∧
      e.forkBad s (fX 16 24 0) (forkNames e (fX 16 24 0)) (s.forkTargets e.k (fX 16 24 0)) ≠ 0) ∧
    Fires (.fork (fX 16 24 0)) 7 false none (fun e _ => (e.r 24).toNat + 16 ≤ e.k.localSize ∧ (e.r 24).toNat % 16 ≠ 0) ∧
    Fires (.rdv (fX 0 0 1)) 7 false none (fun e s => ∃ t, s.dieMap.target e.k.core (fX 0 0 1) = some t ∧ rdvTarget s e.k t) ∧
    Fires (.rdv ⟨7, false, 0, 0, false, false, 7, 0, 15, 1⟩) 7 false none
      (fun e s => ∀ t, s.dieMap.target e.k.core ⟨7, false, 0, 0, false, false, 7, 0, 15, 1⟩ = some t → ¬ rdvTarget s e.k t) :=
  ⟨fires_of (sb := 0) (demoFork 4080) (by decide +kernel) (.inl rfl) (by unfold goodBo; decide +kernel),
    fires_of (sb := 0) (withRegs [(22, 1)] (demoFork 4080)) (by decide +kernel) (.inl rfl) (by unfold goodBo; decide +kernel),
    fires_of (sb := 0) (demoFork 8) (by decide +kernel) (.inl rfl) (by decide +kernel),
    fires_of (sb := 0) demo (by decide +kernel) (.inl rfl) ⟨⟨0, 0⟩, by decide +kernel, .inl rfl⟩,
    fires_of (sb := 0) demo (by decide +kernel) (.inl rfl) (fun t ht => by
      have h : demo.dieMap.target ⟨0, 0⟩ ⟨7, false, 0, 0, false, false, 7, 0, 15, 1⟩ = some ⟨0, 84⟩ := by decide +kernel
      change demo.dieMap.target ⟨0, 0⟩ _ = some t at ht
      rw [h] at ht; cases ht
      unfold rdvTarget; decide +kernel)⟩
/-- Every engine command of a thread, with its kind. -/
def engineForms : List (Instr × EngKind) :=
  [(.cpy (fX 16 24 0), .cpy), (.cpyg (fX 16 24 0), .cpyg), (.cpys (fX 16 24 0), .cpys), (.cpyfill (fX 16 24 0), .cpyfill),
   (.ctload (fX 16 24 0), .ctload), (.decent (fX 16 24 0), .decent), (.decbr (fX 16 24 0), .decbr), (.mresv (fX 16 24 0), .mresv),
   (.mrels (fX 16 24 0), .mrels), (.mload (fX 16 24 0), .mload), (.mcbl (fX 16 24 0), .mcbl), (.mma (fX 16 24 0), .mma),
   (.mmai (fX 16 24 0), .mmai), (.mzero (fX 16 24 0), .mzero), (.mstore (fX 16 24 0), .mstore), (.mstat (fX 16 24 0), .mstat),
   (.mchk (fX 16 24 0), .mchk), (.rayq (fX 16 24 0), .rayq)]
/-- An operation of the block's core, with this descriptor and cause. -/
def demoOp (kind : EngKind) (desc : List Nat) (cause : Nat) (started : Bool) (due : Option Nat) : EngOp :=
  { id := 9, kind := kind, core := ⟨0, 0⟩, ctx := 0, blk := 1, seq := none, bo := 0x10, desc := desc, md := 0, cyc := 0, cause := cause,
    bytes := 16, res := 3, started := started, due := due }
/-- 32 operations of a kind stand with the core's engine. -/
def engaged (kind : EngKind) (s : State) : State := { s with engs := List.replicate 32 (demoOp kind [] 0 true none) }
theorem witness_EngineCommands : (∀ p ∈ engineForms, ∀ full ∈ [false, true], Fires p.1 7 false none (fun e s => e.g.part = [] ∧
      hasUnit s e.k.core p.2 ∧ goodBo (e.r 24).toNat e.k.localSize ∧ s.engFull e.k.core p.2 = full)) ∧
    (∀ p ∈ engineForms, ∀ n ∈ [4088, 4096], Fires p.1 7 false none (fun e s => e.g.part.contains e.tl = false ∧ (e.r 24).toNat = n ∧
      (¬ hasUnit s e.k.core p.2 ∨ ¬ goodBo (e.r 24).toNat e.k.localSize))) ∧ (demo.block 1).isSome = true ∧
    (rayChk demoK (demoOp .rayq [0, 0, 0x40, 0x80, 1, 0, 0, 0] 0 false none)).isSome = false ∧
    (rayChk demoK (demoOp .rayq [0, 0, 0x40, 0x80, 257, 0, 0, 0] 0 false none)).isSome = true := by
  unfold hasUnit goodBo
  refine ⟨fun p hp full hf => ?_, fun p hp n hn => ?_, by decide +kernel, by decide +kernel, by decide +kernel⟩
  · cases full
    · exact fires_of (sb := 0) (demoFork 4080) (by revert p; decide +kernel) (.inl rfl) (by clear hf; revert p; decide +kernel)
    · exact fires_of (sb := 0) (engaged p.2 (demoFork 4080)) (by clear hf; revert p; decide +kernel) (.inl rfl) (by clear hf; revert p; decide +kernel)
  · exact fires_of (sb := 0) (demoFork (BitVec.ofNat 32 n)) (by revert p n; decide +kernel) (.inl rfl) (by revert p n; decide +kernel)
def withOp (o : EngOp) (s : State) : State :=
  { s.setCore ⟨0, 0⟩ { s.core ⟨0, 0⟩ with res := some ⟨3, 1, 0, 256, 0, true⟩ } with engs := [o] }
/-- The engine holds the operation; it stands before its start with nothing before it in its queues, and no cause. -/
def holdsOp (o : EngOp) : Bool := decide ((withOp o demo).engs.find? (fun x => x.id == 9 && !x.saved) = some o) &&
  decide (((atDue (withOp o demo) o).block o.blk) = some demoK)
def startsOp (o : EngOp) : Bool :=
  decide ((withOp o demo).engs.find? (fun x => x.id == 9 && !x.saved && x.kind.unit == 1 && !x.started && x.cause == 0) = some o) &&
    !(withOp o demo).queued o
theorem witness_EngineDeliveries :
    (∀ st ∈ [false, true], HasOp (withOp (demoOp .mma [] 0x182 st none) demo) 9 (demoOp .mma [] 0x182 st none)) ∧
    (let o := demoOp .decent [] 0x182 false none
     HasOp (withOp o demo) 9 o ∧ o.kind.unit = 0 ∧ (o.kind.eng = 2 → (atDue (withOp o demo) o).decodeTurn o = true)) ∧
    (let o := demoOp .mload [0x40, 0, 64] 0 true (some 5)
     holdsOp o = true ∧ (match demoK.lload (o.reg 0) (o.reg 2) with
       | .ok bs => decide (mbytes o.lold (o.reg 0) (o.reg 2) = bs)
       | _ => false) = true) ∧
    holdsOp (demoOp .mzero [3] 0 true (some 5)) = true ∧
    (let o := { demoOp .mma (List.replicate 8 0) 0 true (some 5) with both := true, obold := [[], []] }
     holdsOp o = true ∧ unchanged (atDue (withOp o demo) o) o.core (o.obold.headD []) ∧
       unchanged (atDue (withOp o demo) o) (CoreRef.partner o.core) ((lget o.obold 1).getD [])) ∧
    (let o := demoOp .mma [0x800000, 0, 0x800000, 0, 0, 0, 0, 0] 0 false none
     startsOp o = true ∧ startCause (withOp o demo) o = none) ∧
    (let o := { demoOp .mma [0x800000, 0, 0x800000, 0, 0, 0, 0, 0] 0 false none with res := 2 }
     startsOp o = true ∧ startCause (withOp o demo) o = some (0x1A4, 0)) ∧
    (∀ o ∈ [demoOp .mrels [] 0 false none, demoOp .mresv [0, 0, 0] 0 false none, demoOp .mresv [0, 0, 7] 0 false none],
      startsOp o = true ∧ startCause (withOp o demo) o = none ∧ ((withOp o demo).core o.core).res.isSome = true) ∧
    (let a := demoOp .mma [] 0 true none
     let o := { demoOp .mma [] 0 false none with id := 10 }
     let s := { withOp a demo with engs := [a, o] }
     s.engs.find? (fun x => x.id == 10 && !x.saved && x.kind.unit == 1 && !x.started && x.cause == 0) = some o ∧ s.queued o = true) ∧
    (let o := demoOp .mresv [0, 0, 7] 0 false none
     let s := withOp o demo
     s.engs.find? (fun x => x.id == 9 && !x.saved && x.kind == .mresv && x.cause == 0 && x.reg 2 != 0) = some o ∧
       (s.core (CoreRef.partner o.core)).res = none ∧ (s.ctx 0).map (·.wto) = some 0) := by
  unfold HasOp unchanged; decide +kernel
theorem witness_EngineResults :
    (((seatK (demoBo true 1 demo) demoK).bo 16).v = true ∧ 0 < ((seatK (demoBo true 1 demo) demoK).bo 16).pend ∧
      -(2 ^ 31 : Int) ≤ ((seatK (demoBo true 1 demo) demoK).bo 16).tx - 2147483648) ∧
    (((seatK (demoBo true 0 demo) demoK).bo 16).v = true ∧ ((seatK (demoBo true 0 demo) demoK).bo 16).pend = 0) ∧
    ((2 ^ 63 : Nat) < 2 ^ 64 ∧ (2 ^ 63 : Nat) / 2 ^ 63 = 1 ∧ (2 ^ 63 : Nat) / 2 ^ 53 % 2 ^ 10 = 0) ∧
    (let o := demoOp .cpyfill [0x40, 0, 16, 3] 0 false (some 5)
     HasOp (withOp o demo) 9 o ∧ o.md % 2 = 0 ∧ o.prog = 0 ∧ 0 < o.bytes ∧ o.bytes % fillP o = 0 ∧ o.bo + 16 ≤ o.reg 0) := by
  unfold HasOp; decide +kernel
/-- The copy sequencer of the block's core has a clause at the front. -/
def demoSeq (f : Sequencer → Sequencer) (s : State) : State :=
  { s.setSq ⟨0, 0⟩ .copy (f (probeSeq 1 ⟨.seq, 0, 0, false, 0⟩ 0)) with opens := [.seq ⟨0, 0⟩ .copy] }
/-- What SQBOARV and SQBOWAIT find at the object of address register 0. -/
def foundBo (a : Word) (s : State) : Except Nat (Nat × Bo) := s.seqBo ((demoSeq (fun q => { q with a := [a] }) s).sq ⟨0, 0⟩ .copy) ⟨0, 0, 0, 0, 0⟩
def boCause (r : Except Nat (Nat × Bo)) : Nat :=
  match r with
  | .ok (a, o) => if o.v = true ∧ 0 < o.pend then a else 0
  | .error c => c
theorem witness_SequencerControl : SeqFront (demoSeq id demo) ⟨0, 0⟩ .copy ∧
    (let s := demoSeq (fun q => { q with n := [2, 0, 1, 0] }) demo
     ((List.range 3).map fun i => (lget (s.sq ⟨0, 0⟩ .copy).n ((⟨0, 0, 0, 0, BitVec.ofNat 16 (2 ^ 14 * i)⟩ : FS).mf 14 2),
       lget (s.sq ⟨0, 0⟩ .copy).c i)) = [(some 2, some 0), (some 0, some 0), (some 1, some 0)]) ∧
    demo.block demoK.id = some demoK ∧
    ((seatK (demoBo true 1 demo) demoK).bo 16).v = true ∧ 0 < ((seatK (demoBo true 1 demo) demoK).bo 16).pend ∧
    boCause (foundBo 0x10 (demoBo true 1 demo)) = 16 ∧ boCause (foundBo 0x10 (demoBo true 0 demo)) = 0 ∧ boCause (foundBo 0x18 demo) = 0x082 ∧
    boCause (foundBo 0x1000 demo) = 0x080 ∧ boCause (foundBo 0x20 demo) = 0x101 ∧
    (⟨0, 0, 0, 1, 0⟩ : FS).smod.getLsbD 0 = false ∧ (⟨0, 0, 0, 0, 1⟩ : FS).smod.getLsbD 0 = true := by
  unfold SeqFront; decide +kernel
/-- Engine commands of a sequencer: whether the copy sequencer at the front owns the engine of this kind, and what it finds. -/
def seqMay (f : Sequencer → Sequencer) (kind : EngKind) (s : State) : Prop :=
  let s := demoSeq f s
  SeqFront s ⟨0, 0⟩ .copy ∧ s.block (s.sq ⟨0, 0⟩ .copy).owner = some demoK ∧ ownEngine s ⟨0, 0⟩ .copy kind
theorem witness_SequencerCommands : (∀ full ∈ [false, true], let s := if full then engaged .cpy demo else demo
     seqMay id .cpy s ∧ seqRanges ((demoSeq id s).sq ⟨0, 0⟩ .copy) demoK ⟨0, 0, 0, 0, 0⟩ ∧ (demoSeq id s).engFull ⟨0, 0⟩ .cpy = full) ∧
    ¬ ownEngine (demoSeq id demo) ⟨0, 0⟩ .copy .mma ∧
    (seqMay (fun q => { q with a := [8] }) .cpy demo ∧
      ¬ seqRanges ((demoSeq (fun q => { q with a := [8] }) demo).sq ⟨0, 0⟩ .copy) demoK ⟨0, 0, 0, 0, 0⟩) := by
  unfold seqMay seqRanges ownEngine SeqFront goodBo; decide +kernel
theorem witness_WaitsExpire : (let s := demoSeq (fun q => { q with holdT := some 100 }) demo
     (s.sq ⟨0, 0⟩ .copy).running = true ∧ (s.core ⟨0, 0⟩).drain < 2 ∧ (s.sq ⟨0, 0⟩ .copy).holdT = some 100 ∧ s.blockFixed demoK = false) ∧
    (let s := withThread (fun t => { t with status := .waiting (.bar 1 0) }) demo
     (seatK s demoK).saved = false ∧ s.timeout 0 = some (2 ^ 30) ∧ ((seatK s demoK).thread 0).status = .waiting (.bar 1 0)) ∧
    (∀ w ∈ [Wait.jwait 0, .killf 0], ((seatK (withThread (fun t => { t with status := .waiting w }) demo) demoK).thread 0).status = .waiting w) ∧
    (let s := demoSeq (fun q => { q with bowait := some (16, 0) }) demo
     s.block (s.sq ⟨0, 0⟩ .copy).owner = some demoK ∧ (s.sq ⟨0, 0⟩ .copy).running = true ∧ (s.sq ⟨0, 0⟩ .copy).bowait.isSome = true) ∧
    (demo.ctx 0).isSome = true := by
  decide +kernel
/-- The demo block stands in the first of two stages; the next one has one slot of 32 bytes, reserved for it. Its payload would lie at a,
of n blocks. -/
def demoStage (a n : Word) : State :=
  withBlock (fun k => { k with stage := 1, inSlot := some 0, outSlot := some 0 }) (withLaunch (fun l => { l with
    stageK := [0, 0], kernels := l.kernels.map fun (k : Kernel) => { k with queues := [(1, 32)] }
    stages := [(1, [{ entry := some (1, 0, List.replicate 32 7) }]), (2, [{ reserved := some 1 }])] }) (withRegs [(5, a), (6, n)] demo))
theorem witness_PayloadHandOff :
    (∀ ok ∈ [true, false], Fires (.paypush (fA 4 5 6 0 0)) 7 false (some 0) (fun e s => pushesTo s e.k 32 ∧
      goodPayload (e.r 5).toNat 32 e.k.localSize ∧ (e.opB (fA 4 5 6 0 0)).toNat ≤ 1024 ∧ (blockNow e s).pushed = false ∧
      s.block e.k.id = some (blockNow e s) ∧ (s.commitBlock e.k.id).2 = ok)) ∧
    Fires (.paypush (fA 4 5 6 0 0)) 7 false (some 0) (fun e s => ∀ sb, ¬ pushesTo s e.k sb) ∧
    Fires (.paypush (fA 4 5 6 0 0)) 7 false (some 0) (fun e s => pushesTo s e.k 32 ∧ ¬ goodPayload (e.r 5).toNat 32 e.k.localSize) ∧
    Fires (.paypush (fA 4 5 6 0 0)) 7 false (some 0) (fun e s => pushesTo s e.k 32 ∧ goodPayload (e.r 5).toNat 32 e.k.localSize ∧
      1024 < (e.opB (fA 4 5 6 0 0)).toNat) ∧
    Fires (.paypush (fA 4 5 6 0 0)) 7 false (some 0) (fun e s => pushesTo s e.k 32 ∧ goodPayload (e.r 5).toNat 32 e.k.localSize ∧
      (blockNow e s).pushed = true ∧ s.block e.k.id = some (blockNow e s)) ∧
    Fires (.paypop (fA 4 5 0 0 0)) 7 false (some 0) (fun e s => ∃ i bs, s.inEntry e.k = some (i, bs) ∧
      goodPayload (e.r 5).toNat bs.length e.k.localSize) ∧
    Fires (.paypop (fA 4 5 0 0 0)) 7 false (some 0) (fun e s => ∃ i bs, s.inEntry e.k = some (i, bs) ∧
      ¬ goodPayload (e.r 5).toNat bs.length e.k.localSize) ∧
    Fires (.paypop (fA 4 5 0 0 0)) 7 false (some 0) (fun e s => s.inEntry e.k = none) ∧
    ((⟨1, 0, 9, 4064, 3, true⟩ : PendPush).ready = true ∧ (((demoStage 4064 1024).launch 1).bind fun (l : Launch) => l.slotBytes 2) = some 32 ∧
      (((demoStage 4064 1024).launch 1).bind fun (l : Launch) => (tget l.stages 2).bind fun q => (lget q 0).bind (·.reserved)) = some 1) := by
  unfold pushesTo goodPayload
  simp only [List.mem_cons, List.not_mem_nil, or_false, forall_eq_or_imp, forall_eq]
  exact ⟨⟨fires_of (demoStage 4064 1024) (by decide +kernel) (.inr rfl) (by decide +kernel),
      fires_of (phasing (demoStore false (demoStage 4064 1024))) (by decide +kernel) (.inr rfl) (by decide +kernel)⟩,
    fires_of (withRegs [(5, 0), (6, 0)] demo) (by decide +kernel) (.inr rfl)
      (fun _ h => absurd h.1 (by decide +kernel)),
    fires_of (demoStage 4080 1024) (by decide +kernel) (.inr rfl) (by decide +kernel),
    fires_of (demoStage 4064 1025) (by decide +kernel) (.inr rfl) (by decide +kernel),
    fires_of (withBlock (fun k => { k with pushed := true }) (demoStage 4064 1024)) (by decide +kernel) (.inr rfl) (by decide +kernel),
    fires_of (demoStage 4064 1024) (by decide +kernel) (.inr rfl) ⟨0, List.replicate 32 7, by decide +kernel, by decide +kernel⟩,
    fires_of (demoStage 8 1024) (by decide +kernel) (.inr rfl) ⟨0, List.replicate 32 7, by decide +kernel, by decide +kernel⟩,
    fires_of demo (by decide +kernel) (.inr rfl) (by decide +kernel), by decide +kernel⟩
/-- A mesh block of a geometry die, with these operands: its counts have been given when ms is 1. -/
def demoMesh (ms : Nat) (rs : List (Nat × Word)) : State :=
  withBlock (fun k => { k with
      stage := 1, ms := ms, nv := 3, np := 1, aw := 1, out := 0x100
      kregs := List.replicate 48 0 ++ [0x3F800000, 0x3F800000, 0, 0, 0x00400040, 0] ++ List.replicate 10 0 })
    (withLaunch (fun l => { l with mesh := true, stageK := [0] })
      { withRegs ([(5, 0), (6, 0), (7, 0), (8, 0x00020100)] ++ rs) demo with dieMap := { demoMap with hdr := 0x0003000201010200 } })
/-- The state record of a draw is invalid. -/
def badState (s : State) : State := withBlock (fun k => { k with kregs := [] }) s
/-- The front end of the die is full. -/
def fullFront (s : State) : State := { s with fronts := List.replicate 64 ⟨0, 1, 0, 0⟩ }
theorem witness_MeshOutput :
    (∀ ms ∈ [0, 1], Fires (.mcount (fA 0 6 5 7 1)) 7 false none (fun e s => meshOk e s ∧
      let nv := (e.r 6).toNat
      let np := (e.opB (fA 0 6 5 7 1)).toNat
      let k := blockNow e s
      nv ≤ 256 ∧ np ≤ 256 ∧ (e.r 7).toNat % 16 = 0 ∧ (e.r 7).toNat + (16 + 4 * 1) * nv + 4 * np ≤ k.localSize ∧ k.ms = ms ∧
        k.nv = nv ∧ k.np = np ∧ k.aw = 1 ∧ k.out = e.r 7)) ∧
    Fires (.mcount (fA 0 6 5 7 16)) 7 false none (fun e s => meshOk e s ∧ (blockNow e s).ms ≠ 2 ∧ (e.r 6).toNat ≤ 256 ∧ (e.r 5).toNat ≤ 256 ∧
      (blockNow e s).localSize < (e.r 7).toNat + (16 + 4 * 16) * (e.r 6).toNat + 4 * (e.r 5).toNat) ∧
    Fires (.mcount (fA 0 6 5 7 16)) 7 false none (fun e s => meshOk e s ∧ (blockNow e s).ms = 2) ∧
    Fires (.mcount (fA 0 6 5 7 16)) 7 false none (fun e s => meshOk e s ∧ 256 < (e.r 6).toNat) ∧
    Fires (.mvert (fA 0 5 8 0 0)) 7 false none (fun e s => meshOk e s ∧ (blockNow e s).ms = 1 ∧ (e.r 5).toNat < (blockNow e s).nv) ∧
    Fires (.mvert (fA 0 5 8 0 1)) 7 false none (fun e s => meshOk e s ∧ (blockNow e s).ms = 1 ∧ (e.r 5).toNat < (blockNow e s).nv ∧
      4 * (1 - 1) < (blockNow e s).aw) ∧
    Fires (.mvert (fA 0 5 8 0 1)) 7 false none (fun e s => meshOk e s ∧ (blockNow e s).nv ≤ (e.r 5).toNat) ∧
    Fires (.mvert (fA 0 5 8 0 2)) 7 false none (fun e s => meshOk e s ∧ (blockNow e s).aw ≤ 4 * (2 - 1)) ∧
    Fires (.mprim (fA 0 5 8 0 0)) 7 false none (fun e s => meshOk e s ∧ (blockNow e s).ms = 1 ∧ (e.r 5).toNat < (blockNow e s).np ∧
      primOk (blockNow e s).nv (e.opB (fA 0 5 8 0 0)).toNat = true) ∧
    Fires (.mprim (fA 0 5 8 0 0)) 7 false none (fun e s => meshOk e s ∧ primOk (blockNow e s).nv (e.opB (fA 0 5 8 0 0)).toNat = false) ∧
    Fires (.mprim (fA 0 5 8 0 0)) 7 false none (fun e s => meshOk e s ∧ (blockNow e s).ms ≠ 1) ∧
    (∀ i ∈ [Instr.mcount (fA 0 6 6 7 16), .mvert (fA 0 5 8 0 0), .mprim (fA 0 5 8 0 0), .mdone (fA 4 5 0 0 0)],
      Fires i 7 false (some 0) (fun e s => ¬ meshOk e s)) ∧
    Fires (.mdone (fA 4 5 0 0 0)) 7 false (some 0) (fun e s => s.meshLegal e.k = true ∧ e.k.ms = 1 ∧ e.k.gsr.bad = false ∧
      s.frontFull e.k.core.die = false) ∧
    Fires (.mdone (fA 4 5 0 0 0)) 7 false (some 0) (fun e s => s.meshLegal e.k = true ∧ e.k.ms = 1 ∧ e.k.gsr.bad = false ∧
      s.frontFull e.k.core.die = true) ∧
    Fires (.mdone (fA 4 5 0 0 0)) 7 false (some 0) (fun e s => meshOk e s ∧ (blockNow e s).ms ≠ 1 ∧ (blockNow e s).mdHold ≠ some e.tl) ∧
    Fires (.mdone (fA 4 5 0 0 0)) 7 false (some 0) (fun e s => meshOk e s ∧ (blockNow e s).gsr.bad = true) ∧
    ((demoMesh 1 []).launch 1).map (·.badDraw) = some false ∧ ((demoMesh 1 []).ctx 0).bind (·.frame) = none := by
  unfold meshOk
  refine ⟨fun ms hm => fires_of (sb := 0) (demoMesh ms [(5, 1), (6, 3), (7, 0x100)]) (by revert ms; decide +kernel) (.inl rfl)
      (by revert ms; decide +kernel),
    fires_of (sb := 0) (demoMesh 0 [(6, 51), (7, 0x20)]) (by decide +kernel) (.inl rfl) (by decide +kernel),
    fires_of (sb := 0) (demoMesh 2 []) (by decide +kernel) (.inl rfl) (by decide +kernel),
    fires_of (sb := 0) (demoMesh 0 [(6, 257)]) (by decide +kernel) (.inl rfl) (by decide +kernel),
    fires_of (sb := 0) (demoMesh 1 []) (by decide +kernel) (.inl rfl) (by decide +kernel),
    fires_of (sb := 0) (demoMesh 1 []) (by decide +kernel) (.inl rfl) (by decide +kernel),
    fires_of (sb := 0) (demoMesh 1 [(5, 3)]) (by decide +kernel) (.inl rfl) (by decide +kernel),
    fires_of (sb := 0) (demoMesh 1 []) (by decide +kernel) (.inl rfl) (by decide +kernel),
    fires_of (sb := 0) (demoMesh 1 []) (by decide +kernel) (.inl rfl) (by decide +kernel),
    fires_of (sb := 0) (demoMesh 1 [(8, 3)]) (by decide +kernel) (.inl rfl) (by decide +kernel),
    fires_of (sb := 0) (demoMesh 2 []) (by decide +kernel) (.inl rfl) (by decide +kernel),
    fun i hi => fires_of (withRegs [(5, 0), (6, 0), (7, 0), (8, 0)] demo) (by revert i; decide +kernel) (.inr rfl) (by revert i; decide +kernel),
    fires_of (demoMesh 1 []) (by decide +kernel) (.inr rfl) (by decide +kernel),
    fires_of (fullFront (demoMesh 1 [])) (by decide +kernel) (.inr rfl) (by decide +kernel),
    fires_of (demoMesh 0 []) (by decide +kernel) (.inr rfl) (by decide +kernel),
    fires_of (badState (demoMesh 1 [])) (by decide +kernel) (.inr rfl) (by decide +kernel), by decide +kernel, by decide +kernel⟩
/-- A packet, and a frame of one region, owned by die 0, with it. -/
def demoPkt : Packet := ⟨0, 0, 2, 0, 0, 5, 0, true, 3, 1, 0, List.replicate 64 0⟩
def demoFrame (r : Region) : Frame :=
  { rec_ := 0, rtbase := 0x4000, rtfmt := 2, rtpitch := 256, rtw := 16, rth := 16, ownptr := 0x8000, spillptr := 0x9000, spill := 4096, fto := 1000
    gdmask := 4, owners := [0], opened := 0, regions := [(0, r)] }
def demoVis : VisPkt := { p := demoPkt, came := 7, spilled := none, stamp := 3 }
def inFrame (r : Region) (held : Bool) (s : State) : State :=
  withBlock (fun k => { k with region := if held then some 0 else none, packets := r.released })
    (withCtx (fun c => { c with frame := some (demoFrame r) }) s)
/-- The die of the block is a geometry die. -/
def onGd (s : State) : State := { s with dieMap := { demoMap with hdr := 0x0003000201010200 } }
/-- The block holds the region of the frame with one packet released. -/
def holding (s : State) : State := inFrame { released := [demoVis] } true s
theorem holds_of {e : Env} {s : State} {r : Region} (h : (s.dieMap.isGd e.k.core.die = false ∧ (s.ctx e.k.ctx).bind (·.frame) = some (demoFrame r)) ∧
    (blockNow e s).region = some 0) : HoldsRegion e s (demoFrame r) 0 := ⟨⟨h.1.1, h.1.2⟩, h.2⟩
theorem witness_FrameRegions :
    Fires (.rgnacq (fA 4 5 0 0 0)) 7 false (some 0) (fun e s => ∃ fr, InFrame e s fr ∧ (blockNow e s).region = none ∧ (e.r 5).toNat < 2 ^ 18 ∧
      fr.owner ((e.r 5).toNat % 512) ((e.r 5).toNat / 512 % 512) = some (blockNow e s).core.die) ∧
    Fires (.rgnacq (fA 4 5 0 0 0)) 7 false (some 0) (fun e s => (∃ fr, InFrame e s fr) ∧ (blockNow e s).region = none ∧ e.r 5 = 0xFFFFFFFF) ∧
    (∀ ok ∈ [true, false], Fires (.rgnrel (fA 0 0 0 0 0)) 7 false none
      (fun e s => (∃ fr rid, HoldsRegion e s fr rid) ∧ (s.commitBlock (blockNow e s).id).2 = ok)) ∧
    Fires (.vispop (fA 4 0 0 0 0)) 7 false (some 0) (fun e s => ∃ fr rid, HoldsRegion e s fr rid) ∧
    (∀ i ∈ [Instr.rgnacq (fA 4 5 0 0 0), .vispop (fA 4 0 0 0 0), .visget (fA 4 5 6 0 0), .rgnrel (fA 0 0 0 0 0), .rtblend (fA 0 5 8 0 1)],
      Fires i 7 false (some 0) (fun e s => s.dieMap.isGd e.k.core.die = true) ∧
      Fires i 7 false (some 0) (fun e s => (s.ctx e.k.ctx).bind (·.frame) = none) ∧
      Fires i 7 false (some 0) (fun e s => (∃ fr, InFrame e s fr) ∧ (blockNow e s).region = none)) ∧
    Fires (.rgnacq (fA 4 5 0 0 0)) 7 false (some 0) (fun e s => ∃ fr, InFrame e s fr ∧ (blockNow e s).region ≠ none) ∧
    (∀ a ∈ [2 ^ 18, 1], Fires (.rgnacq (fA 4 5 0 0 0)) 7 false (some 0) (fun e s => ∃ fr, InFrame e s fr ∧ (blockNow e s).region = none ∧
      (e.r 5).toNat = a ∧ (2 ^ 18 ≤ a ∨ fr.owner (a % 512) (a / 512 % 512) ≠ some (blockNow e s).core.die))) := by
  refine ⟨fires_of (withRegs [(5, 0)] (inFrame {} false demo)) (by decide +kernel) (.inr rfl)
      ⟨demoFrame {}, ⟨by decide +kernel, by decide +kernel⟩, by decide +kernel⟩,
    fires_of (withRegs [(5, 0xFFFFFFFF)] (inFrame {} false demo)) (by decide +kernel) (.inr rfl)
      ⟨⟨demoFrame {}, by decide +kernel, by decide +kernel⟩, by decide +kernel⟩, fun ok ho => ?_,
    fires_of (holding demo) (by decide +kernel) (.inr rfl) ⟨_, 0, holds_of (r := { released := [demoVis] }) (by decide +kernel)⟩,
    fun i hi => ⟨fires_of (withRegs [(5, 0), (6, 0)] (onGd demo)) (by revert i; decide +kernel) (.inr rfl) (by revert i; decide +kernel),
      fires_of (withRegs [(5, 0), (6, 0)] demo) (by revert i; decide +kernel) (.inr rfl) (by revert i; decide +kernel),
      fires_of (withRegs [(5, 0), (6, 0)] (inFrame {} false demo)) (by revert i; decide +kernel) (.inr rfl)
        ⟨⟨demoFrame {}, by revert i; decide +kernel, by revert i; decide +kernel⟩, by revert i; decide +kernel⟩⟩,
    fires_of (withRegs [(5, 0)] (holding demo)) (by decide +kernel) (.inr rfl)
      ⟨demoFrame { released := [demoVis] }, ⟨by decide +kernel, by decide +kernel⟩, by decide +kernel⟩,
    fun a ha => fires_of (withRegs [(5, BitVec.ofNat 32 a)] (inFrame {} false demo)) (by revert a; decide +kernel) (.inr rfl)
      ⟨demoFrame {}, ⟨by revert a; decide +kernel, by revert a; decide +kernel⟩, by revert a; decide +kernel⟩⟩
  cases ok
  · exact fires_of (sb := 0) (phasing (demoStore false (holding demo))) (by decide +kernel) (.inl rfl)
      ⟨⟨_, 0, holds_of (r := { released := [demoVis] }) (by decide +kernel)⟩, by decide +kernel⟩
  · exact fires_of (sb := 0) (holding demo) (by decide +kernel) (.inl rfl)
      ⟨⟨_, 0, holds_of (r := { released := [demoVis] }) (by decide +kernel)⟩, by decide +kernel⟩
theorem witness_RegionPixels :
    Fires (.visget (fA 4 5 6 0 0)) 7 false (some 0) (fun e s => ∃ fr rid x, HoldsRegion e s fr rid ∧ (fr.region rid).poisoned = false ∧
      (blockNow e s).packets.find? (fun x => x.stamp % 65536 == (e.r 6).toNat) = some x ∧
      (e.r 5).toNat % 32 = 0 ∧ (e.r 5).toNat + x.p.payload.length ≤ (blockNow e s).localSize) ∧
    Fires (.visget (fA 4 5 6 0 0)) 7 false (some 0) (fun e s => ∃ fr rid, HoldsRegion e s fr rid ∧ (fr.region rid).poisoned = false ∧
      (blockNow e s).packets.find? (fun x => x.stamp % 65536 == (e.r 6).toNat) = none) ∧
    Fires (.visget (fA 4 5 6 0 0)) 7 false (some 0) (fun e s => ∃ fr rid x, HoldsRegion e s fr rid ∧ (fr.region rid).poisoned = false ∧
      (blockNow e s).packets.find? (fun x => x.stamp % 65536 == (e.r 6).toNat) = some x ∧
      (blockNow e s).localSize < (e.r 5).toNat + x.p.payload.length) ∧
    (∀ i ∈ [Instr.visget (fA 4 5 6 0 0), .rtblend (fA 0 5 8 0 1)],
      Fires i 7 false (some 0) (fun e s => ∃ fr rid, HoldsRegion e s fr rid ∧ (fr.region rid).poisoned = true)) ∧
    Fires (.rtblend (fA 0 5 8 0 1)) 7 false none (fun e s => ∃ fr rid, HoldsRegion e s fr rid ∧ (fr.region rid).poisoned = false ∧
      ¬ rtNames (e.r 5)) ∧
    Fires (.rtblend (fA 0 5 8 0 1)) 7 false none (fun e s => ∃ fr rid, HoldsRegion e s fr rid ∧ (fr.region rid).poisoned = false ∧
      rtNames (e.r 5) ∧ ¬ onTarget fr rid (e.r 5)) ∧
    Fires (.rtblend (fA 0 5 8 0 1)) 7 false none (fun e s => ∃ fr rid, HoldsRegion e s fr rid ∧ (fr.region rid).poisoned = false ∧
      rtNames (e.r 5) ∧ onTarget fr rid (e.r 5) ∧ reachesGlobal (rtCheck e s fr rid (e.r 5)).1 ∧ rtStop 0 (rtCheck e s fr rid (e.r 5)) = none) ∧
    Fires (.rtblend (fA 0 5 8 0 1)) 7 false none (fun e s => ∃ fr rid, HoldsRegion e s fr rid ∧ (fr.region rid).poisoned = false ∧
      rtNames (e.r 5) ∧ onTarget fr rid (e.r 5) ∧ rtStop 0 (rtCheck e s fr rid (e.r 5)) ≠ none) := by
  unfold rtNames onTarget
  exact ⟨fires_of (withRegs [(5, 4032), (6, 3)] (holding demo)) (by decide +kernel) (.inr rfl)
      ⟨_, 0, demoVis, holds_of (r := { released := [demoVis] }) (by decide +kernel), by decide +kernel⟩,
    fires_of (withRegs [(5, 4032), (6, 4)] (holding demo)) (by decide +kernel) (.inr rfl)
      ⟨_, 0, holds_of (r := { released := [demoVis] }) (by decide +kernel), by decide +kernel⟩,
    fires_of (withRegs [(5, 4064), (6, 3)] (holding demo)) (by decide +kernel) (.inr rfl)
      ⟨_, 0, demoVis, holds_of (r := { released := [demoVis] }) (by decide +kernel), by decide +kernel⟩,
    fun i hi => fires_of (withRegs [(5, 0), (6, 3)] (inFrame { poisoned := true } true demo)) (by revert i; decide +kernel) (.inr rfl)
      ⟨_, 0, holds_of (r := { poisoned := true }) (by revert i; decide +kernel), by decide +kernel⟩,
    fires_of (sb := 0) (withRegs [(5, 32)] (holding demo)) (by decide +kernel) (.inl rfl)
      ⟨_, 0, holds_of (r := { released := [demoVis] }) (by decide +kernel), by decide +kernel⟩,
    fires_of (sb := 0) (withRegs [(5, 16)] (holding demo)) (by decide +kernel) (.inl rfl)
      ⟨_, 0, holds_of (r := { released := [demoVis] }) (by decide +kernel), by decide +kernel⟩,
    fires_of (sb := 0) (withRegs [(5, 0xF0F)] (holding demo)) (by decide +kernel) (.inl rfl)
      ⟨_, 0, holds_of (r := { released := [demoVis] }) (by decide +kernel), by decide +kernel, by decide +kernel, by decide +kernel,
        reaches_of_isGlob (by decide +kernel), by decide +kernel⟩,
    fires_of (sb := 0) (withRegs [(5, 0xF0F)] (holding (readOnly demo))) (by decide +kernel) (.inl rfl)
      ⟨_, 0, holds_of (r := { released := [demoVis] }) (by decide +kernel), by decide +kernel, by decide +kernel, by decide +kernel,
        by decide +kernel⟩⟩
theorem witness_PacketOrder :
    (let ms : List NMsg := [⟨0, 2, 0, .packet demoPkt⟩, ⟨0, 3, 0, .watermark 9⟩]
     takeMsg (fun m => m.ctx == 0 && m.flit == .packet demoPkt) ms = some (⟨0, 2, 0, .packet demoPkt⟩, [⟨0, 3, 0, .watermark 9⟩]) ∧
     takeMsg (fun m => m.ctx == 0 && m.gdie == 3 && m.owner == 0 && m.flit == .watermark (9#48).toNat) ms =
       some (⟨0, 3, 0, .watermark 9⟩, [⟨0, 2, 0, .packet demoPkt⟩])) ∧
    (let s := inFrame {} false demo
     (s.ctx 0).bind (·.frame) = some (demoFrame {}) ∧ (demoFrame {}).owner 0 0 = some 0 ∧ s.bufferFlits 0 + pktFlits demoPkt ≤ 8192 ∧
       demoPkt.part = (((demoFrame {}).region 0).held.filter fun (x : VisPkt) => pktKey x.p == pktKey demoPkt).length ∧
       (demoFrame {}).spillRoom 4096 = some 0 ∧ (demoFrame {}).spillRoom 4097 = none) ∧
    (let r : Region := { held := List.replicate 2731 { demoVis with p := { demoPkt with part := 1 } } }
     8192 < (inFrame r false demo).bufferFlits 0 + pktFlits demoPkt) ∧
    (let r : Region := { tk := some (pktKey demoPkt), held := [] }
     ¬ (r.op = true ∨ ∀ t, r.tk = some t → t < pktKey demoPkt)) ∧
    (let r : Region := { held := [demoVis] }
     let f : Frame := { demoFrame r with wm := [(2 * 64, 5)] }
     (f.next 0 r).isSome = true ∧ f.dropPassed 0 = f ∧ ((f.region 0).held.map (·.came)).min? = some 7 ∧ f.next 0 {} = none) ∧
    (let s := withThread (fun t => { t with ops := [{ id := 9, slot := 0, regs := [4, 5, 6, 7], val := none }] })
       (inFrame { released := [demoVis] } true demo)
     s.opLive 1 0 9 = true ∧ (seatK s demoK).region = some 0 ∧ (s.ctx 0).bind (·.frame) = some (demoFrame { released := [demoVis] })) := by
  refine ⟨by decide +kernel, by decide +kernel, by decide +kernel, ?_, by decide +kernel, by decide +kernel⟩
  intro r h
  rcases h with h | h
  · cases h
  · exact absurd (h _ rfl) (by decide)
/-- A texture of 4 by 4 texels of a format at a, and a sampler, described at th and sh; the instruction names descriptors n. -/
def demoTexDesc (fmt a : Nat) : TexDesc := ⟨fmt * 2 ^ 124 + 1 * 2 ^ 121 + 3 * 2 ^ 107 + 3 * 2 ^ 93 + a⟩
def demoTexAt (fmt a : Nat) (th sh n x : Word) : State :=
  withBlock (fun k => { k with kregs := List.replicate 44 0 ++ [th, 0, sh, 0] ++ List.replicate 16 0 })
    (withRegs ((9, n) :: (List.range 4).map fun (i : Nat) => (4 + i, if i = 0 then x else 0))
      { demo with mem := mwrite demoTables 0x400 16 (demoTexDesc fmt a).v })
def demoTex (fmt : Nat) : State := demoTexAt fmt 0x8000 0x400 0x500 0 0
def readIs (r : Except Stop (Nat × Bool)) (v : Nat) (bad : Bool) : Bool :=
  match r with
  | .ok x => decide (x = (v, bad))
  | .error _ => false
theorem readIs_of {r : Except Stop (Nat × Bool)} {v : Nat} {bad : Bool} (h : readIs r v bad = true) : r = .ok (v, bad) := by
  cases r with
  | ok x => simpa [readIs] using h
  | error _ => cases h
def isRead {α : Type} (r : Except Stop α) : Bool :=
  match r with
  | .ok _ => true
  | .error _ => false
theorem read_of {α : Type} {r : Except Stop α} (h : isRead r = true) : ∃ v, r = .ok v := by
  cases r with
  | ok v => exact ⟨v, rfl⟩
  | error _ => cases h
theorem unread_of {α : Type} {r : Except Stop α} (h : isRead r = false) : ∃ st, r = .error st := by
  cases r with
  | ok v => cases h
  | error st => exact ⟨st, rfl⟩
theorem texOk_of {i : Instr} {s : State} {f : FA} {d : TexDesc} {e : Env} (h : ((s.dieMap.isGd e.k.core.die = false ∧
    s.hasSampler e.k.core = true) ∧ e.theap % 32 = 0 ∧ (i = .tld f → (e.opB f).toNat < 2 ^ 20)) ∧ readIs (texRead e s f).1 d.v false = true ∧
      d.bad = false) : TexOk i e s f d := ⟨⟨⟨h.1.1.1, h.1.1.2⟩, h.1.2⟩, readIs_of h.2.1, h.2.2⟩
theorem sampOk_of {s : State} {f : FA} {d : SampDesc} {e : Env} (h : e.sheap % 16 = 0 ∧ readIs (sampRead e s f).1 d.v false = true ∧
    d.bad = false) : SampOk e s f d := ⟨h.1, readIs_of h.2.1, h.2.2⟩
/-- Every form of the three, and every one that reads a sampler descriptor. -/
def texForms : List (Instr × FA) := [(.tex (fA 8 4 9 0 1), fA 8 4 9 0 1), (.tld (fA 8 4 9 0 0), fA 8 4 9 0 0), (.tqry (fA 8 4 9 0 1), fA 8 4 9 0 1)]
def sampForms : List (Instr × FA) := [(.tex (fA 8 4 9 0 1), fA 8 4 9 0 1), (.tqry (fA 8 4 9 0 1), fA 8 4 9 0 1)]
/-- Their common premise. -/
def readsTex (p : Instr × FA) (e : Env) (s : State) : Prop :=
  (s.dieMap.isGd e.k.core.die = false ∧ s.hasSampler e.k.core = true) ∧ e.theap % 32 = 0 ∧ (p.1 = .tld p.2 → (e.opB p.2).toNat < 2 ^ 20)
theorem witness_TexturesRun :
    Fires (.tex (fA 8 4 9 0 1)) 7 false (some 0) (fun e s => ∃ d sm vs, TexOk (.tex (fA 8 4 9 0 1)) e s (fA 8 4 9 0 1) d ∧
      SampOk e s (fA 8 4 9 0 1) sm ∧ d.fmt ≠ 11 ∧ (texelsRead e s (fA 8 4 9 0 1) d sm).1 = .ok vs) ∧
    Fires (.tld (fA 8 4 9 0 0)) 7 false (some 0) (fun e s => ∃ d, TexOk (.tld (fA 8 4 9 0 0)) e s (fA 8 4 9 0 0) d ∧
      ¬ inImage d (tldAt e (fA 8 4 9 0 0))) ∧
    Fires (.tld (fA 8 4 9 0 0)) 7 false (some 0) (fun e s => ∃ d v, TexOk (.tld (fA 8 4 9 0 0)) e s (fA 8 4 9 0 0) d ∧
      inImage d (tldAt e (fA 8 4 9 0 0)) ∧ (tldRead e s (fA 8 4 9 0 0) d).1 = .ok v) ∧
    Fires (.tqry (fA 8 4 9 0 0)) 7 false (some 0) (fun e s => ∃ d, TexOk (.tqry (fA 8 4 9 0 0)) e s (fA 8 4 9 0 0) d) ∧
    Fires (.tqry (fA 8 4 9 0 1)) 7 false (some 0) (fun e s => ∃ d sm, TexOk (.tqry (fA 8 4 9 0 1)) e s (fA 8 4 9 0 1) d ∧
      SampOk e s (fA 8 4 9 0 1) sm) ∧
    (∀ p ∈ texForms, Fires p.1 7 false (some 0) (fun e s => ReadsTex p.1 e s p.2 ∧ ∃ v, (texRead e s p.2).1 = .ok (v, true))) ∧
    (∀ p ∈ sampForms, Fires p.1 7 false (some 0) (fun e s => (∃ d, TexOk p.1 e s p.2 d) ∧ e.sheap % 16 = 0 ∧
      ∃ v, (sampRead e s p.2).1 = .ok (v, true))) := by
  unfold inImage ReadsTex hasTexUnit
  refine ⟨fires_of (demoTex 2) (by decide +kernel) (.inr rfl) (by
      obtain ⟨vs, h⟩ := read_of (r := (texelsRead (laneOf 7 false (demoTex 2)) (actsIn (.tex (fA 8 4 9 0 1)) (demoTex 2)) (fA 8 4 9 0 1)
        (demoTexDesc 2 0x8000) ⟨0⟩).1) (by decide +kernel)
      exact ⟨demoTexDesc 2 0x8000, ⟨0⟩, vs, texOk_of (by decide +kernel), sampOk_of (by decide +kernel), by decide +kernel, h⟩),
    fires_of (demoTexAt 2 0x8000 0x400 0x500 0 4) (by decide +kernel) (.inr rfl) ⟨demoTexDesc 2 0x8000, texOk_of (by decide +kernel), by decide +kernel⟩,
    fires_of (demoTexAt 2 0x8000 0x400 0x500 0 3) (by decide +kernel) (.inr rfl) ⟨demoTexDesc 2 0x8000, (0, false), texOk_of (by decide +kernel),
      by decide +kernel, readIs_of (by decide +kernel)⟩,
    fires_of (demoTex 2) (by decide +kernel) (.inr rfl) ⟨demoTexDesc 2 0x8000, texOk_of (by decide +kernel)⟩,
    fires_of (demoTex 2) (by decide +kernel) (.inr rfl) ⟨demoTexDesc 2 0x8000, ⟨0⟩, texOk_of (by decide +kernel), sampOk_of (by decide +kernel)⟩,
    fun p hp => fires_of { demoTex 2 with poison := [8] } (by revert p; decide +kernel) (.inr rfl)
      ⟨by revert p; decide +kernel, (demoTexDesc 2 0x8000).v, readIs_of (by revert p; decide +kernel)⟩,
    fun p hp => fires_of { demoTex 2 with poison := [10] } (by revert p; decide +kernel) (.inr rfl)
      ⟨⟨demoTexDesc 2 0x8000, texOk_of (by revert p; decide +kernel)⟩, by revert p; decide +kernel, 0, readIs_of (by revert p; decide +kernel)⟩⟩
theorem witness_TexturesStop :
    (∀ p ∈ texForms, Fires p.1 7 false (some 0) (fun e s => ¬ hasTexUnit s e)) ∧
    Fires (.tld (fA 8 4 9 0 0)) 7 false (some 0) (fun e s => hasTexUnit s e ∧ 2 ^ 20 ≤ (e.opB (fA 8 4 9 0 0)).toNat) ∧
    (∀ p ∈ texForms, Fires p.1 7 false (some 0) (fun e s => hasTexUnit s e ∧ (p.1 = .tld p.2 → (e.opB p.2).toNat < 2 ^ 20) ∧ e.theap % 32 ≠ 0)) ∧
    (∀ p ∈ texForms, Fires p.1 7 false (some 0) (fun e s => ReadsTex p.1 e s p.2 ∧ ∃ st, (texRead e s p.2).1 = .error st)) ∧
    (∀ p ∈ texForms, Fires p.1 7 false (some 0) (fun e s => ReadsTex p.1 e s p.2 ∧
      ∃ d : TexDesc, (texRead e s p.2).1 = .ok (d.v, false) ∧ d.bad = true)) ∧
    (∀ p ∈ sampForms, Fires p.1 7 false (some 0) (fun e s => (∃ d, TexOk p.1 e s p.2 d) ∧ e.sheap % 16 ≠ 0)) ∧
    (∀ p ∈ sampForms, Fires p.1 7 false (some 0) (fun e s => (∃ d, TexOk p.1 e s p.2 d) ∧ e.sheap % 16 = 0 ∧
      ∃ st, (sampRead e s p.2).1 = .error st)) ∧
    (∀ p ∈ sampForms, Fires p.1 7 false (some 0) (fun e s => (∃ d, TexOk p.1 e s p.2 d) ∧ e.sheap % 16 = 0 ∧
      ∃ d : SampDesc, (sampRead e s p.2).1 = .ok (d.v, false) ∧ d.bad = true)) ∧
    Fires (.tex (fA 8 4 9 0 1)) 7 false (some 0) (fun e s => ∃ d sm, TexOk (.tex (fA 8 4 9 0 1)) e s (fA 8 4 9 0 1) d ∧
      SampOk e s (fA 8 4 9 0 1) sm ∧ d.fmt = 11) ∧
    Fires (.tex (fA 8 4 9 0 1)) 7 false (some 0) (fun e s => ∃ d sm st, TexOk (.tex (fA 8 4 9 0 1)) e s (fA 8 4 9 0 1) d ∧
      SampOk e s (fA 8 4 9 0 1) sm ∧ d.fmt ≠ 11 ∧ (texelsRead e s (fA 8 4 9 0 1) d sm).1 = .error st) ∧
    Fires (.tld (fA 8 4 9 0 0)) 7 false (some 0) (fun e s => ∃ d st, TexOk (.tld (fA 8 4 9 0 0)) e s (fA 8 4 9 0 0) d ∧
      inImage d (tldAt e (fA 8 4 9 0 0)) ∧ (tldRead e s (fA 8 4 9 0 0) d).1 = .error st) := by
  unfold inImage ReadsTex hasTexUnit
  refine ⟨fun p hp => fires_of { demoTex 2 with dieMap := State.reset.dieMap } (by revert p; decide +kernel) (.inr rfl) (by revert p; decide +kernel),
    fires_of (demoTexAt 2 0x8000 0x400 0x500 0x100000 0) (by decide +kernel) (.inr rfl) (by decide +kernel),
    fun p hp => fires_of (demoTexAt 2 0x8000 0x410 0x500 0 0) (by revert p; decide +kernel) (.inr rfl) (by revert p; decide +kernel),
    fun p hp => fires_of (noRights (demoTex 2)) (by revert p; decide +kernel) (.inr rfl)
      ⟨by revert p; decide +kernel, unread_of (by revert p; decide +kernel)⟩,
    fun p hp => fires_of (demoTex 15) (by revert p; decide +kernel) (.inr rfl)
      ⟨by revert p; decide +kernel, demoTexDesc 15 0x8000, readIs_of (by revert p; decide +kernel), by decide +kernel⟩,
    fun p hp => fires_of (demoTexAt 2 0x8000 0x400 0x508 0 0) (by revert p; decide +kernel) (.inr rfl)
      ⟨⟨demoTexDesc 2 0x8000, texOk_of (by revert p; decide +kernel)⟩, by revert p; decide +kernel⟩,
    fun p hp => fires_of (demoTexAt 2 0x8000 0x400 0x40000000 0 0) (by revert p; decide +kernel) (.inr rfl)
      ⟨⟨demoTexDesc 2 0x8000, texOk_of (by revert p; decide +kernel)⟩, by revert p; decide +kernel, unread_of (by revert p; decide +kernel)⟩,
    fun p hp => fires_of { demoTex 2 with mem := mwrite (demoTex 2).mem 0x508 8 (2 ^ 63) } (by revert p; decide +kernel) (.inr rfl)
      ⟨⟨demoTexDesc 2 0x8000, texOk_of (by revert p; decide +kernel)⟩, by revert p; decide +kernel, ⟨2 ^ 127⟩,
        readIs_of (by revert p; decide +kernel), by decide +kernel⟩,
    fires_of (demoTex 11) (by decide +kernel) (.inr rfl) ⟨demoTexDesc 11 0x8000, ⟨0⟩, texOk_of (by decide +kernel), sampOk_of (by decide +kernel),
      by decide +kernel⟩,
    fires_of (demoTexAt 2 0x40000000 0x400 0x500 0 0) (by decide +kernel) (.inr rfl) (by
      obtain ⟨st, h⟩ := unread_of (r := (texelsRead (laneOf 7 false (demoTexAt 2 0x40000000 0x400 0x500 0 0))
        (actsIn (.tex (fA 8 4 9 0 1)) (demoTexAt 2 0x40000000 0x400 0x500 0 0)) (fA 8 4 9 0 1) (demoTexDesc 2 0x40000000) ⟨0⟩).1) (by decide +kernel)
      exact ⟨demoTexDesc 2 0x40000000, ⟨0⟩, st, texOk_of (by decide +kernel), sampOk_of (by decide +kernel), by decide +kernel, h⟩),
    fires_of (demoTexAt 2 0x40000000 0x400 0x500 0 0) (by decide +kernel) (.inr rfl) (by
      obtain ⟨st, h⟩ := unread_of (r := (tldRead (laneOf 7 false (demoTexAt 2 0x40000000 0x400 0x500 0 0))
        (actsIn (.tld (fA 8 4 9 0 0)) (demoTexAt 2 0x40000000 0x400 0x500 0 0)) (fA 8 4 9 0 0) (demoTexDesc 2 0x40000000)).1) (by decide +kernel)
      exact ⟨demoTexDesc 2 0x40000000, st, texOk_of (by decide +kernel), by decide +kernel, h⟩)⟩
/-- The block's thread stands ready at a, by its clause of one NOP at 0x1000; h is the header, w the word of another clause at 0x1FF8. -/
def demoAt (a : DWord) (h w : Nat) : State :=
  withThread (fun t => { t with status := .ready, pc := a, hdr := a })
    { demo with mem := mwrite (mwrite (mwrite (mwrite demoTables 0x1000 8 0xA000000000000000) 0x1008 8 0x00E0000000000000) 0x1FF8 8 h) 0x2000 8 w
                opens := [] }
def demoReady : State := demoAt 0x1000 0 0
/-- Thread 0 is ready and a slot of its core free; its group is the one of that thread alone. -/
def opensAt (s : State) : Bool :=
  let k := seatK s demoK
  decide (s.block 1 = some k) && decide ((k.thread 0).status = .ready) && decide (s.freeSlot k.core = some 0) &&
    decide ((s.readyGroups k).find? (fun g => g.contains 0) = some [0])
/-- What is fetched at a for the block: 0 where it waits, else the cause, or 1024 for a word. -/
def fetched (s : State) (a : DWord) : Option (Except Nat DWord) × State :=
  s.fetchWord (seatK s demoK).core (seatK s demoK).ctx (((s.launch (seatK s demoK).launch).map (·.reloc)).getD []) a
def fetchedWords (s : State) (a : DWord) (n : Nat) : Option (Except Nat (List DWord)) × State :=
  s.fetchWords (seatK s demoK).core (seatK s demoK).ctx (((s.launch (seatK s demoK).launch).map (·.reloc)).getD []) a n
def got {α : Type} (r : Option (Except Nat α) × State) : Option (Except Nat α) := r.1
theorem got_of {α : Type} {r : Option (Except Nat α) × State} {x : Option (Except Nat α)} (h : got r = x) : r = (x, r.2) := by
  rw [← h]; rfl
def gotWord (r : Option (Except Nat DWord)) : DWord :=
  match r with
  | some (.ok w) => w
  | _ => 0
theorem fetch_of {r : Option (Except Nat DWord) × State} {w : DWord} (hw : w ≠ 0) (h : gotWord r.1 = w) : r = (some (.ok w), r.2) := by
  refine got_of ?_
  unfold gotWord at h
  split at h
  · next w' hr => rw [got, hr, h]
  · exact absurd h.symm hw
def gotWords (r : Option (Except Nat (List DWord))) : Option (Option Nat × List DWord) := r.map fun x =>
  match x with
  | .ok ws => (none, ws)
  | .error c => (some c, [])
theorem fetches_of {r : Option (Except Nat (List DWord)) × State} {x : Option (Except Nat (List DWord))} (h : gotWords r.1 = gotWords x) :
    r = (x, r.2) := by
  refine got_of ?_
  unfold gotWords at h
  unfold got
  rcases hr : r.1 with _ | (_ | _) <;> rcases x with _ | (_ | _) <;> simp_all
/-- A slow clause: STALL 3. -/
def stalled : Nat := 0xA000000000000000 + 3 * 2 ^ 40
theorem witness_ClausesOpen :
    (opensAt demoReady = true ∧ ((seatK demoReady demoK).thread 0).faultsHere = false ∧ ∃ u,
      FetchesClause demoReady (seatK demoReady demoK) 0x1000 ⟨.alu, 0, 0, false, 0⟩ [0x00E0000000000000] u ∧
      clauseCause ⟨.alu, 0, 0, false, 0⟩ [0x00E0000000000000] (u.blockFixed (seatK demoReady demoK)) = none) ∧
    (opensAt (withThread (fun t => { t with pendSf := some (0x80, 0, 8) }) demoReady) = true) ∧
    (opensAt (demoAt 0x40000000 0 0) = true ∧ gotWords ((fetched (demoAt 0x40000000 0 0) 0x40000000).1.map fun x => x.map fun w => [w]) =
      some (some 0x084, [])) ∧
    (opensAt (demoAt 0x1008 0 0) = true ∧ ∃ w u, fetched (demoAt 0x1008 0 0) 0x1008 = (some (.ok w), u) ∧ w.extractLsb' 60 4 ≠ 0b1010) ∧
    (let s := { demoAt 0x1FF8 0xA000000000000000 0 with moving := [(2, 1)] }
     opensAt s = true ∧ ∃ u, fetchedWords s 0x2000 1 = (none, u)) ∧
    (opensAt (demoAt 0x1FF8 0xA000000000000001 0) = true ∧ decodeHeader 0xA000000000000001 = none ∧
      ∃ u, fetchedWords (demoAt 0x1FF8 0xA000000000000001 0) 0x2000 (bits 0xA000000000000001 56 53 + 1) =
        (some (.ok (List.replicate (bits 0xA000000000000001 56 53 + 1) 0)), u)) ∧
    (demoReady.mayIssue (seatK demoReady demoK) = true ∧ ((seatK demoReady demoK).thread 0).fails.2 < 64 ∧
      ((seatK demoReady demoK).thread 0).pendSf = none) ∧
    Instr.clauseIssue 1 0 ∈ demoReady.issueEvents ∧
    ((demoAt 0x1FF8 stalled 0).thread 1 0).stallDone = false ∧ gotWord (fetched (demoAt 0x1FF8 stalled 0) 0x1FF8).1 = BitVec.ofNat 64 stalled ∧
    (∀ st ∈ [TStatus.yielded [(1, 0)], .descheduled], ((withThread (fun t => { t with status := st }) demo).thread 1 0).status = st) :=
  ⟨⟨by decide +kernel, by decide +kernel, _, ⟨0xA000000000000000, _, fetch_of (by decide) (by decide +kernel), by decide, by decide,
      fetches_of (x := some (.ok [0x00E0000000000000])) (by decide +kernel)⟩, by decide +kernel⟩,
    by decide +kernel, by decide +kernel, ⟨by decide +kernel, 0x00E0000000000000, _, fetch_of (by decide) (by decide +kernel), by decide⟩,
    ⟨by decide +kernel, _, fetches_of (by decide +kernel)⟩, ⟨by decide +kernel, by decide +kernel, _, fetches_of (by decide +kernel)⟩,
    by decide +kernel, by decide +kernel, by decide +kernel, by decide +kernel, by decide +kernel⟩
/-- The thread has one operation outstanding, and holds granule 1. -/
def demoOps (o : SlotOp) : State := withThread (fun t => { t with ops := [o], mark := some 1 }) demo
def slotOp (regs : List Nat) (val : Option (List Word)) (poison : Option DWord) (act : LandAct) : SlotOp :=
  { id := 9, slot := 0, regs := regs, val := val, poison := poison, act := act }
theorem witness_SlotsLand :
    (∀ o ∈ [slotOp [4] (some [7]) none .none, slotOp [4, 5] (some [7, 8]) (some 0x80) .none,
        slotOp [4] (some [7]) none (.acquire 1 7 false false false true)],
      ((seatK (demoOps o) demoK).thread 0).ops.find? (fun o => o.id == 9) = some o) ∧
    5 ∈ ((slotOp [4, 5] (some [7, 8]) (some 0x80) .none).regs.zip [(7 : Word), 8]).map (·.1) ∧
    (let k := seatK (demoOps (slotOp [4] none none .none)) demoK
     (k.thread 0).mark = some 1 ∧ (k.thread 0).alive = true ∧ k.saved = false ∧ k.relaunch = false ∧ 0 < k.threads.length) ∧
    (demoK.thread 0).mark ≠ some 1 := by
  decide +kernel
/-- A request for the word at 0x80 stands at its home. -/
def demoReq (kind : ReqKind) (acq rel : Bool) (stage : ReqStage) : HomeReq :=
  { id := 9, kind := kind, blk := 1, tl := 0, op := some 8, core := ⟨0, 0⟩, ctx := 0, pa := 0x80, va := 0x80, width := 4, vc := 1
    tracked := false, hostBias := false, data := 5, acq := acq, rel := rel, scope := 2, stage := stage }
def withReq (q : HomeReq) : State := { demoOps { slotOp [4] none none .none with id := 8 } with reqs := [q] }
theorem served_of {s : State} {n : Nat} {kind : ReqKind} {q : HomeReq}
    (h : s.findReq n kind = some q ∧ (s.bunch q).all (fun p => s.reqReady p && !p.stage.waits) = true) : Served s n kind q :=
  ⟨h.1, fun p hp => by simpa using List.all_eq_true.mp h.2 p hp⟩
/-- A releaser of another core has not yet been answered for. -/
def owed (s : State) : State := { s with sync := [(1, { sv := true, rdie := 0, rcore := 5 })] }
theorem witness_HomeOperations :
    (∀ q ∈ [demoReq .release false true .ready, demoReq .acquire true false .ready, demoReq .atomic false false .fresh,
      demoReq .fill false false .fresh], Served (withReq q) 9 q.kind q ∧ Prepared (withReq q) q ∧ oneGranule q ∧ ownOnly (withReq q) q) ∧
    (∃ v, atomNew 0 32 (mread (withReq (demoReq .atomic false false .fresh)).mem 0x80 4) 5 0 = some v) ∧
    atomNew 9 32 1 5 0 = none ∧
    (let q := demoReq .release false true (.fenced 3)
     (withReq q).findReq 9 .release = some q ∧ q ∈ (withReq q).bunch q ∧ q.stage.waits = true) ∧
    (let q := demoReq .release false true .fresh
     Served (withReq q) 9 .release q ∧ q.rel = true ∧ 2 ≤ q.scope) ∧
    (let q := demoReq .acquire true false .fresh
     Served (owed (withReq q)) 9 .acquire q ∧ (owed (withReq q)).needsDemand (granule q.pa) q.core = true) ∧
    (let q := demoReq .acquire true false .fresh
     let p : HomeReq := { q with id := 10, tl := 1 }
     ({ withReq q with reqs := [q, p] } : State).bunch q = [q, p]) ∧
    (((seatK (withReq (demoReq .atomic false false .fresh)) demoK).thread 0).ops.find? (fun x => x.id == 8)).isSome = true := by
  refine ⟨fun q hq => ⟨served_of (by revert q; decide +kernel), ?_, ?_, fun h => ?_⟩, ⟨5, by decide +kernel⟩, by decide +kernel, by decide +kernel,
    ⟨served_of (by decide +kernel), by decide⟩, ⟨served_of (by decide +kernel), by decide +kernel⟩, by decide +kernel, by decide +kernel⟩
  · unfold Prepared; revert q; decide +kernel
  · unfold oneGranule; revert q; decide +kernel
  · exfalso; revert q; decide +kernel
/-- The block's core holds two dirty bytes of granule 1, which are to be written back. -/
def demoLine (vc : Nat) : DirtyLine := { bytes := [(0, 5), (127, 6)], gen := 0, tracked := false, hostBias := false, ctx := 0, vc := vc, wb := true }
def demoDirty (vc : Nat) : State := demo.setCore ⟨0, 0⟩ { demo.core ⟨0, 0⟩ with dirty := [(1, demoLine vc)] }
/-- Another package wrote the granule, or released it last. -/
def writers (s : State) : State := { s with fab := { s.fab with remoteDirty := [(1, [7])] } }
def farReleaser (s : State) : State := { s with sync := [(1, { sv := true, rpkg := 7 })] }
theorem witness_WriteBacks : (lineOf (demoDirty 1) ⟨0, 0⟩ 1 = some (demoLine 1) ∧ goodLine (demoLine 1) ∧ (demoDirty 1).reachable 128 = true ∧
      (demoDirty 1).flitWaits 9 1 = false) ∧
    (∀ l ∈ [[], [((⟨0, 0⟩ : CoreRef), 1)]], ({ demo with fences := [{ id := 4, who := .phase 1 0 2, lines := l }] } : State).fences.find?
      (fun f => f.id == 4) = some { id := 4, who := .phase 1 0 2, lines := l }) ∧
    (∃ d, lineOf (demoDirty 2) ⟨0, 0⟩ 1 = some d ∧ d.vc = 2) ∧
    (demo.movingFrame 0 = false ∧ demo.granuleBusy 1 = false ∧ (demoMoves demo).movingFrame 0 = true ∧ ((tget (writers demo).fab.remoteDirty 1).getD []) ≠ [] ∧
      ((farReleaser demo).srec 1).sv = true ∧ ((farReleaser demo).srec 1).fl = false ∧ ((farReleaser demo).srec 1).rpkg ≠ demo.pkg ∧
      (demo.srec 1).sv = false ∧ cleanEverywhere demo 1) ∧
    (0x80 + max 1 [1#8].length ≤ demo.dieMap.capacity ∧ demo.dieMap.capacity < demo.dieMap.capacity - 1 + max 1 [1#8, 2#8].length) ∧
    (let s := { demo with fab := { demo.fab with en := true } }
     s.fab.fenced = false ∧ (7#14) ∉ s.fab.lost ∧ s.homePkg 128 = s.pkg.toNat) ∧
    (demo.bankBusy 0 0 = false ∧ (0, 0) ∉ demo.asleep ∧ demo.dieMap.isSd 0 = true ∧ (demo.diePower 0).dected = false) ∧
    (let s := demo.setDiePower 0 { demo.diePower 0 with dected := true, vdt := 600 }
     (s.diePower 0).dected = true ∧ (s.diePower 0).vdt.toNat < 4095) := by
  refine ⟨by unfold goodLine; decide +kernel, by decide +kernel, ⟨demoLine 2, by decide +kernel⟩,
    ⟨by decide +kernel, by decide +kernel, by decide +kernel, by decide +kernel, by decide +kernel, by decide +kernel, by decide +kernel,
      by decide +kernel, clean_of (by decide +kernel)⟩, by decide +kernel, by decide +kernel, by decide +kernel, by decide +kernel⟩
/-- A command of the block's context stands with the engine. -/
def demoCmd (c : VcCmd) (w : Bool) (left : List (Nat × Nat)) : VcPending :=
  { id := 9, ctx := 0, cmd := c, blk := 1, tl := 0, op := 8, window := w, left := left }
def withCmd (c : VcPending) : State := { demoOps { slotOp [4] none none .none with id := 8 } with vcCmds := [c] }
theorem witness_CacheEngine :
    (∀ c ∈ [VcCmd.define 4 0 0, .resize 4 0 0, .move 4 0 false, .flush 4 2], ∀ w ∈ [false, true],
      VcFound (withCmd (demoCmd c w [])) 9 (demoCmd c w []) ∧ toIndex c = some 4 ∧ (withCmd (demoCmd c w [])).vcBefore (demoCmd c w []) 4 = false) ∧
    (let c := demoCmd (.flush 4 1) false []
     let a := { demoCmd (.resize 4 0 0) false [] with id := 3 }
     VcFound { withCmd c with vcCmds := [a, c] } 9 c ∧ ({ withCmd c with vcCmds := [a, c] } : State).vcBefore c 4 = true) ∧
    ((demo.grant 0 4 0 0).isSome = true) ∧
    ((withCmd (demoCmd (.flush 4 2) true [])).vcBuffered 0 4 = [] ∧ (withCmd (demoCmd (.flush 4 2) true [])).vcRequests 0 4 = []) ∧
    (((seatK (withCmd (demoCmd (.flush 4 2) true [])) demoK).thread 0).ops.find? (fun o => o.id == 8)).isSome = true ∧
    (let c := demoCmd (.resize 4 0 0) true [(3, 1)]
     (withCmd c).vcCmds.find? (fun c => c.ctx == 0 && c.window && (match c.cmd with
      | .resize j _ _ => j == 4
      | .move j _ _ => j == 4
      | _ => false)) = some c ∧ (3, 1) ∉ (withCmd c).moving ∧ (withCmd c).movingFrame 3 = false ∧
      (demoMoves (withCmd c)).movingFrame 3 = true ∧ (3, 1) ∉ (demoMoves (withCmd c)).moving ∧
      ({ withCmd c with moving := [(3, 1)] } : State).pendingOn 3 1 = false) ∧
    (∀ st ∈ [false, true], let c := demoCmd (.bias 0x80 true st 0 262144) false []
     VcFound (withCmd c) 9 c ∧ (withCmd c).pendingOn 0 262144 = false ∧ (withCmd c).flipDemanded 0 262144 = false ∧
      (withCmd c).farOwed 0 262144 = [] ∧ ((withCmd c).ctx 0).isSome = true) ∧
    (farReleaser demo).farOwed 0 262144 ≠ [] ∧ ({ demo with reqs := [demoReq .fill false false .fresh] } : State).pendingOn 0 262144 = true := by
  unfold VcFound; decide +kernel
/-- An image at 0x20000 of one kernel, whose one clause is EXIT; memory with it. -/
def demoImage : Mem :=
  [(0x20000, 0x4B52535400010000), (0x20008, 0x4000000002), (0x20010, 0x5000000000), (0x20020, 0x10000000001), (0x20028, 0x6000000001),
   (0x20040, 0xA000000000000000), (0x20048, 0x44E0000000000000), (0x20108, 0x0020040084000000)].foldl (fun (m : Mem) (p : Nat × Nat) => mwrite m p.1 8 p.2) demoTables
/-- A launch record of it: priority, rows, place. -/
def demoRec (prio rows : Nat) : LRec :=
  ⟨prio * 2 ^ 53 + rows * 2 ^ 24 + 2 ^ 16 + 0x20000 * 2 ^ 64 + 0xFFFF * 2 ^ (128 + 16) + 2 ^ (192 + 32) + 0x10000 * 2 ^ 256 + 256 * 2 ^ (320 + 32) +
    0x600 * 2 ^ 640⟩
def demoSub (r : LRec) : Submission := ⟨1, 0, r.v, none, false, true, 0x800, false⟩
/-- The record at the head of queue 0. -/
def demoSubmitted (m : Mem) (r : LRec) : State := { demo with mem := m, launches := [] }.setQueue 0 0 { entries := [demoSub r], next := 1 }
def demoTaken (m : Mem) (r : LRec) : State := taken (demoSubmitted m r) 0 0 (demoSub r) false
def placed (m : Mem) (r : LRec) : Nat :=
  match loads (demoTaken m r) 0 r with
  | .ok ld => (demoTaken m r).placeCause r ld (runsOf (demoTaken m r) 0 r).1 + 1
  | .error _ => 0
/-- A launch that waits for its leases, its bytes at 0x80000000 unmapped, or has them. -/
def demoWaits (gone : Bool) (f : Launch → Launch) (s : State) : State :=
  withLaunch (fun l => f { l with
    state := .resident
    kernels := l.kernels.map fun (k : Kernel) => { k with leases := [] }
    cbank := if gone then 0x80000000 else 0
    cbsize := if gone then 256 else 0 }) s
theorem witness_LaunchesAreChecked :
    (Fires (.launch (fA 4 2 6 0 0)) 7 false (some 0) (fun e s => ∃ bs, (e.readSpan s (e.r64 2) 128).1 = .ok bs)) ∧
    (Fires (.launch (fA 4 2 6 8 1)) 7 false (some 0) (fun e s => (fA 4 2 6 8 1).md.getLsbD 0 = true ∧ ∃ bs ps,
      (e.readSpan s (e.r64 2) 128).1 = .ok bs ∧ patchBytes bs = 16 ∧ (e.readSpan (e.readSpan s (e.r64 2) 128).2 (e.r64 8) 16).1 = .ok ps)) ∧
    (Fires (.launch (fA 4 2 6 8 1)) 7 false (some 0) (fun e s => (fA 4 2 6 8 1).md.getLsbD 0 = true ∧ ∃ bs st,
      (e.readSpan s (e.r64 2) 128).1 = .ok bs ∧ patchBytes bs = 16 ∧ (e.readSpan (e.readSpan s (e.r64 2) 128).2 (e.r64 8) 16).1 = .error st)) ∧
    (Fires (.launch (fA 4 2 6 0 0)) 7 false (some 0) (fun e s => ∃ st, (e.readSpan s (e.r64 2) 128).1 = .error st)) ∧
    ((demo.queue 0 63).entries.length < 256 ∧ (demo.ctx 0).isSome = true ∧
      ((demo.setQueue 0 0 { entries := List.replicate 256 (demoSub ⟨0⟩) }).queue 0 0).entries.length = 256) ∧
    (let s := demoSubmitted demoTables (demoRec 0 1)
     (s.ctx 0).isSome = true ∧ (s.queue 0 0).entries.head? = some (demoSub (demoRec 0 1)) ∧ s.headFirst 0 0 = true ∧
       triedAgain s 0 0 = s) ∧ demo.headFirst 0 0 = false ∧
    (launchBad (demoSub ⟨0⟩) ⟨0⟩ ((demoTaken demoTables ⟨0⟩).dirEntries 0 (LRec.image ⟨0⟩))).isSome = true ∧
    (let r := demoRec 5 1
     launchBad (demoSub r) r ((demoTaken demoImage r).dirEntries 0 r.image) = none ∧ 4 < r.prio ∧ (demoTaken demoImage r).depOf 0 r ≠ .fail) ∧
    (let r : LRec := ⟨(demoRec 0 1).v + 2 ^ (64 * 11 + 57) + 5 * 2 ^ (64 * 11)⟩
     launchBad (demoSub r) r ((demoTaken demoImage r).dirEntries 0 r.image) = none ∧ (demoTaken demoImage r).depOf 0 r = .fail) ∧
    placed demoTables (demoRec 0 1) = 0 ∧ placed demoImage (demoRec 0 1) = 1 ∧ 1 < placed demoImage (demoRec 0 17) ∧
    ((demoWaits true id demo).launches.all (fun l => (demoWaits true id demo).firstMissing l != none && l.state == .resident && l.awaits.isNone) &&
      (demoWaits true id demo).ctxs.all (fun c => c.2.rring == 0)) = true ∧
    ((withCtx (fun c => { c with rring := 0x900 }) demo).ctx 0).any (fun c => c.rring != 0) = true ∧
    ((demoWaits false id demo).launches.all fun l => let s := demoWaits false id demo
      (s.firstMissing l).isNone && !s.mustWait l && l.awaits.isNone && l.stageK == [] && s.goesFirst l.prio.toNat l.seq && !s.routeLost l &&
        (s.bindVcs l l.bindings).1.isNone) = true ∧
    (let s := demoWaits false (fun l => { l with routes := [coreKey ⟨1, 0⟩] }) demo
     s.launches.all (fun l => s.routeLost l && (s.firstMissing l).isNone && !s.mustWait l && s.goesFirst l.prio.toNat l.seq) = true) ∧
    (let s := withLaunch (fun l => { l with kernels := l.kernels.map fun (k : Kernel) => { k with vcbs := [(4, 0x40000000)] } }) (demoWaits false id demo)
     s.launches.all (fun l => (s.bindVcs l l.bindings).1.isSome && !s.routeLost l) = true) ∧
    ((demo.setQueue 0 0 { ring := some (0x100, 0, 0) }).queue 0 0).ring = some (0x100, 0, 0) := by
  refine ⟨fires_of (withRegs (ptrRegs 0 0x800) demo) (by decide +kernel) (.inr rfl) (read_of (by decide +kernel)),
    fires_of (withRegs (ptrRegs 0 0x800 ++ [(8, 0x600), (9, 0)]) { demo with mem := mwrite demoTables 0x870 8 (16 * 2 ^ 48) }) (by decide +kernel)
      (.inr rfl) ⟨by decide, leBytes 112 0 ++ leBytes 8 (16 * 2 ^ 48) ++ leBytes 8 0, leBytes 16 0, by decide +kernel⟩,
    fires_of (withRegs (ptrRegs 0 0x800 ++ [(8, 0), (9, 0x01000000)]) { demo with mem := mwrite demoTables 0x870 8 (16 * 2 ^ 48) }) (by decide +kernel)
      (.inr rfl) ⟨by decide, leBytes 112 0 ++ leBytes 8 (16 * 2 ^ 48) ++ leBytes 8 0, .trap 0x081 0 0x0100000000000000 false false, by decide +kernel⟩,
    fires_of (withRegs (ptrRegs 1 3968) demo) (by decide +kernel) (.inr rfl) (unread_of (by decide +kernel)),
    by decide +kernel, by decide +kernel, by decide +kernel, by decide +kernel, by decide +kernel, by decide +kernel, by decide +kernel, by decide +kernel,
    by decide +kernel, by decide +kernel, by decide +kernel, by decide +kernel, by decide +kernel, by decide +kernel⟩
theorem witness_BlocksAndRecords :
    (let s := withLaunch (fun l => { l with placed := 0 }) { demo with blocks := [] }
     s.launches.all (fun l => l.state == .running && l.outState == 0 && !l.coop && !(s.choices l).isEmpty && l.stageK == [] && !s.routeLost l &&
       (lget l.kernels l.kidx).any (fun k => (s.choices l).all fun p => s.coreOpen p.2 (s.launchFixed l) k.samp k.pair) &&
       (s.launch l.id).isSome) = true) ∧
    (let s := withLaunch (fun l => { l with placed := 0, routes := [coreKey ⟨1, 0⟩] }) { demo with blocks := [] }
     s.launches.all (fun l => l.state == .running && l.outState == 0 && l.placed == 0 && s.routeLost l) = true) ∧
    (let s := withLaunch (fun l => { l with placed := 1, nblk := 1 }) demo
     s.launches.all (fun l => l.state == .running && l.outState == 0 && !l.coop && (s.choices l).isEmpty) = true ∧
       s.launches.all (fun l => l.state != .ended) = true) ∧
    (demo.launches.all (fun l => l.state == .running) = true ∧ (withLaunch (fun l => { l with state := .ended }) demo).launches.all
      (fun l => l.state != .running) = true) ∧
    (let s := withLaunch (fun l => { l with coop := true, placed := 0 }) { demo with blocks := [] }
     s.launches.all (fun l => l.coop && l.placed == 0 && !s.routeLost l && (lget l.kernels l.kidx).any fun k =>
       s.coopFits l k (coopPlan l (s.rectOf l))) = true) ∧
    (let s := withLaunch (fun l => { l with coop := true, placed := 1 }) demo
     s.launches.all (fun l => l.coop && l.placed != 0 && (lget l.kernels l.kidx).isSome) = true) ∧
    (demo.coreOpen ⟨0, 0⟩ true true true = true ∧ demo.coreOpen ⟨0, 0⟩ false false false = true) ∧
    (let s := withLaunch (fun l => { l with state := .ended, cplptr := 0x600 }) { demo with blocks := [] }
     s.vtrans 0 0x600 = some 0x600 ∧ quiet s ∧ (s.srec (granule 0x600)).sv = false ∧ (s.ctx 0).isSome = true ∧
       s.launches.all (fun l => decide (l.state = .ended) && decide (l.cause < 2 ^ 10) && decide (l.outState < 4) &&
       decide ((s.agentWrite 0x600 (recordBytes s l) true).vtrans 0 0x638 = some 0x638)) = true) ∧
    (let s := withLaunch (fun l => { l with stageK := [0, 0] }) demo
     s.launches.all (fun l => !l.stageK.isEmpty && l.state == .running) = true) ∧
    demo.launches.all (fun l => l.stageK == []) = true := by
  unfold quiet; decide +kernel
/-- The core of `demo` drains: in step d, for launch 1, its clause over. -/
def demoDrain (d : Nat) : State :=
  { demo.setCore ⟨0, 0⟩ { demo.core ⟨0, 0⟩ with drain := d, drainLaunch := 1 } with opens := [] }
/-- A saved block that held a reservation with key 5. -/
def demoHalf (b : Nat) : List (Bool × SavedMat) := [(false, ⟨⟨3, b, 0, 0, 5, true⟩, [], [], [], [], 0, 0, 0⟩)]
/-- The block of `demo`, saved, half of a pair; its mate on the partner core, of launch 1 or of one that is not there. -/
def demoMates (there : Bool) : State :=
  let s := withLaunch (fun l => { l with rows := 2, cols := 2 }) (withBlock (fun k => { k with saved := true, mats := demoHalf 1 }) { demo with opens := [] })
  { s with blocks := s.blocks ++ [{ demoK with
    id := 2
    launch := if there then 1 else 7
    core := CoreRef.partner ⟨0, 0⟩
    saved := true
    mats := demoHalf 2 }] }
def demoCopy : EngOp := { id := 9, kind := .cpy, core := ⟨0, 0⟩, ctx := 0, blk := 1, seq := none, bo := 0, desc := [], md := 0, cyc := 0 }
/-- Its core and the partner hold reservations with the same key. -/
def demoLive (s : State) : State :=
  let r : MatRes := ⟨3, 1, 0, 0, 5, true⟩
  (s.setCore ⟨0, 0⟩ { s.core ⟨0, 0⟩ with res := some r }).setCore ⟨0, 1⟩ { s.core ⟨0, 1⟩ with res := some r }
theorem witness_SavesAndRestores :
    (demo.victim ⟨0, 0⟩ = some 1 ∧ demo.pairLive ⟨0, 0⟩ = false ∧ (demo.core ⟨0, 0⟩).drain = 0 ∧
      (let s := withCtx (fun c => { c with savesize := 0x100000 }) demo
       s.victim ⟨0, 0⟩ = some 1 ∧
       (((s.onCore ⟨0, 0⟩).filter fun k => k.launch == 1).map fun k => s.saveNeed k).sum ≤ s.saveRoom (((s.launch 1).map (·.ctx)).getD 0)) ∧
      demo.saveRoom (((demo.launch 1).map (·.ctx)).getD 0) < (((demo.onCore ⟨0, 0⟩).filter fun k => k.launch == 1).map fun k => demo.saveNeed k).sum) ∧
    demo.victim ⟨0, 5⟩ = none ∧
    (((demoDrain 1).core ⟨0, 0⟩).drain = 1 ∧ (demo.core ⟨0, 0⟩).drain ≠ 1) ∧
    (let s := demoDrain 2
     (s.core ⟨0, 0⟩).drain = 2 ∧ (∀ k ∈ s.victims ⟨0, 0⟩, s.canSave k = true) ∧ s.victims ⟨0, 0⟩ ≠ [] ∧ s.engs = []) ∧
    (let s := { demoDrain 2 with engs := [demoCopy] }
     (s.core ⟨0, 0⟩).drain = 2 ∧ (∀ k ∈ s.victims ⟨0, 0⟩, s.canSave k = true) ∧ (s.victims ⟨0, 0⟩).map (fun (k : Block) => k.id) = [1]) ∧
    ((demo.core ⟨0, 0⟩).drain ≠ 2 ∧ demo.block demoK.id = some demoK) ∧
    (let s := withBlock (fun k => { k with saved := true }) demo
     s.canRestore (seatK s demoK) ⟨0, 0⟩ = true ∧ s.blockFixed (seatK s demoK) = false ∧ s.savedMate (seatK s demoK) = none) ∧
    (let s := withCtx (fun c => { c with fixed := true }) (withBlock (fun k => { k with saved := true }) demo)
     s.canRestore (seatK s demoK) ⟨0, 0⟩ = true ∧ s.blockFixed (seatK s demoK) = true ∧ (s.quadAt (s.quadKeyOf ⟨0, 0⟩)).clock ≠ .pinned) ∧
    ((demoMates true).canRestore (seatK (demoMates true) demoK) ⟨0, 0⟩ = true ∧ ((demoMates true).savedMate (seatK (demoMates true) demoK)).any
      (fun m => (demoMates true).canRestore m (CoreRef.partner ⟨0, 0⟩)) = true) ∧
    ((demoMates false).canRestore (seatK (demoMates false) demoK) ⟨0, 0⟩ = true ∧ ((demoMates false).savedMate (seatK (demoMates false) demoK)).any
      (fun m => !(demoMates false).canRestore m (CoreRef.partner ⟨0, 0⟩)) = true) ∧
    ((demoLive demo).pairLive ⟨0, 0⟩ = true ∧ (demoLive demo).saveCores ⟨0, 0⟩ = [⟨0, 0⟩, ⟨0, 1⟩]) ∧
    (demoK.saved = false ∧ demo.canRelaunch demoK ⟨0, 0⟩ = false) ∧
    (let s := withBlock (fun k => { k with relaunch := true }) demo
     s.canRelaunch (seatK s demoK) ⟨0, 0⟩ = true ∧ ((s.launch 1).bind fun (l : Launch) => lget l.kernels (seatK s demoK).kernel).isSome = true) ∧
    (let s := (State.reset.setQuad (quadKey 0 1) { clock := .toPinned })
     s.quadIssuing (quadKey 0 1) = false ∧ (quadOf s 0 1).clock = .toPinned ∧ (quadOf s 0 1).claim = false ∧ s.blocks = []) ∧
    (quadOf (State.reset.setQuad (quadKey 0 1) { clock := .toElastic }) 0 1).clock = .toElastic ∧ (quadOf demo 0 0).clock = .elastic ∧
    (quadOf (State.reset.setQuad (quadKey 0 1) { claim := true }) 0 1).claim = true := by
  decide +kernel
theorem witness_ResetAndRegisters : (1#64).getLsbD 0 = true ∧ (2#64).getLsbD 0 = false ∧
    (State.reset.host.done = false ∧ State.reset.host.fail = false ∧ State.reset.host.step.toNat < 4 ∧ State.reset.host.busy = none) ∧
    4 ≤ ({ State.reset.host with step := 4 } : HostRegs).step.toNat ∧ ({ State.reset.host with fail := true } : HostRegs).fail = true ∧
    ((0x1011 : BitVec 20).toNat % 8 ≠ 0 ∧ (0x0FF8 : BitVec 20).toNat < 0x1000 ∧ 0x0FF8 < 0x1000) ∧
    (let c : HostCmd := ⟨1, 0, 0, 0, 0, 0, true⟩
     ({ State.reset.host with busy := some c } : HostRegs).busy = some c ∧ c.ready = true ∧ (({ c with ready := false } : HostCmd)).ready = false) ∧
    (1 ≤ (10 * 2 ^ 56 : Nat) / 2 ^ 56 ∧ (10 * 2 ^ 56 : Nat) / 2 ^ 56 ≤ 10 ∧ ¬(11 * 2 ^ 56 : Nat) / 2 ^ 56 ≤ 10) ∧
    ((0x4000000000000000#64).getLsbD 62 = true ∧ (0#64).getLsbD 62 = false) ∧ Canonical State.reset := by
  unfold Canonical; decide +kernel
/-- The host's command stands. -/
def withCommand (op slot arg ptr : Nat) (s : State) : State := { s with host := { s.host with busy := some ⟨op, slot, arg, ptr, 0, 0, false⟩ } }
theorem commanded (op : Nat) (slot : BitVec 10) (arg : BitVec 46) (ptr : BitVec 64) (s : State) :
    Commanded (withCommand op slot.toNat arg.toNat ptr.toNat s) op slot arg ptr := ⟨_, rfl, rfl, rfl, rfl, rfl, rfl⟩
/-- A frame record at 0x3000 of one region of 16 by 16 pixels, its table at 0x3800. -/
def demoFrameRec (owner : Nat) : State :=
  let m := [(0x3000, 0x3800), (0x3008, 0x4000), (0x3010, 0x0000010000100010), (0x3020, 0x1), (0x3800, owner)].foldl
    (fun (m : Mem) (p : Nat × Nat) => mwrite m p.1 8 p.2) demoTables
  { demo with mem := m, dieMap := ⟨0x0003000201010200, [[0x2000000000000000, 0xFFFFFFFF, 0, 0], [0, 0, 0, 0], [0, 0, 0x10001, 0]]⟩ }
/-- Its frame, with the target, or the spill area, at 1 GiB, which is not mapped. -/
def demoFrameAt (rt spill : DWord) : Option Frame :=
  ((demoFrameRec 0xFF).parseFrame 0x3000).map fun f => { f with rtbase := rt, spillptr := spill, spill := 4096 }
def demoImg (floor : List DWord) : Image := ⟨⟨0, 0, 0, 127, false, false, false, 0, 0, 0, 0, 0, floor, 0, [], [], 0, [], none, none⟩, [], [], [], []⟩
def oneRecord (s : State) : State := withCtx (fun c => { c with resRecs := [⟨some 1, 0, 4096, 0, 0, 0⟩], rring := 0x1000 }) s
-- Whether an area is too small for an image is a free choice of the device: one of the two statements about MIGOUT applies.
theorem witness_HostCommands :
    (Commanded (withCommand 1 0 0 0 demo) 1 0 0 0 ∧ (demo.ctx 0).isSome = true ∧ demo.ctx 1 = none) ∧
    (¬ goodCtxRec (withCommand 1 1 0 0x40 { demo with mem := mwrite [] 0x40 8 1 }) 0x40) ∧
    (goodCtxRec (withCommand 1 1 0 0x40 demo) 0x40 ∧ mread demo.mem (0x40 + 48) 8 = 0) ∧
    (Commanded (withCommand 3 (0#10).toNat (BitVec.ofNat 46 (12 * 2 ^ 40)).toNat (0x1000#64).toNat demo) 3 0 (BitVec.ofNat 46 (12 * 2 ^ 40))
        0x1000 ∧ 12 ≤ (12 * 2 ^ 40 : Nat) / 2 ^ 40 ∧
      (0x1000 : Nat) % 2 ^ 12 = 0) ∧
    ((11 * 2 ^ 40 : Nat) / 2 ^ 40 < 12 ∧ 48 < (49 * 2 ^ 40 : Nat) / 2 ^ 40 ∧ (0x1800 : Nat) % 2 ^ 12 ≠ 0 ∧ demo.reqs = [] ∧
      (demo.blocks.all fun k => k.sbuf.isEmpty) = true) ∧
    (let s := withCtx (fun c => { c with frame := (demoFrameRec 0xFF).parseFrame 0x3000 }) (demoFrameRec 0xFF)
     Commanded (withCommand 4 0 0 0x3000 (demoFrameRec 0xFF)) 4 0 0 0x3000 ∧ ((demoFrameRec 0xFF).parseFrame 0x3000).isSome = true ∧
      (demoFrameRec 0xFF).parseFrame 0x3040 = none ∧ ((demoFrameRec 0xFF).ctx 0).any (fun c => c.frame.isNone && c.opening.isNone) = true ∧
      (s.ctx 0).any (fun c => c.frame.isSome) = true) ∧
    ((demoFrameAt 0x4000 0).any (fun f => !(demoFrameRec 0xFF).missing 0 f.ownptr.toNat f.tableSize && !(demoFrameRec 0xFF).missing 0 f.rtbase.toNat
      f.targetSize && !(demoFrameRec 0xFF).missing 0 f.spillptr.toNat f.spill && ((demoFrameRec 0xFF).readOwners 0 f).isSome &&
      ((demoFrameRec 0xF0).readOwners 0 f).isNone) = true ∧
     (demoFrameAt 0x40000000 0).any (fun f => (demoFrameRec 0xFF).missing 0 f.rtbase.toNat f.targetSize) = true ∧
     (demoFrameAt 0x4000 0x40000000).any (fun f => (demoFrameRec 0xFF).missing 0 f.spillptr.toNat f.spill) = true ∧
     (demoFrameAt 0x4000 0).any (fun f => (demoFrameRec 0xFF).missing 0 0x40000000 f.tableSize) = true) ∧
    (((oneRecord demo).ctx 0).any (fun c => c.resRecs == [⟨some 1, 0, 4096, 0, 0, 0⟩] && c.opening.isNone) = true ∧
      (0x1000 : Nat) + 32 * (1 % 128) = 0x1020 ∧ (0x1000 : Nat) + 32 * (1 % 128) ≠ 0x1040 ∧
      ((withLaunch (fun l => { l with awaits := some (0, 4096), state := .resident }) demo).launches.all fun l =>
        l.ctx == 0 && l.awaits == some (0, 4096) && l.state == .resident) = true ∧ demo.launches.length = 1) ∧
    (({ demo with mem := mwrite demoTables 0x20010 8 1 } : State).ringBad 0x20000 = true ∧ demo.ringBad 0x20000 = false) ∧
    ((demo.freeVal.getLsbD 0 = false ∨ demo.freeVal.getLsbD 0 = true) ∧ (demo.stopCtx 0).migReady 0 = false ∧
      ({ demo with blocks := [], opens := [] }.stopCtx 0).migReady 0 = true) ∧
    (let s := { demo with images := [(0x5000, demoImg [])], launches := [] }
     s.ctx 1 = none ∧ (tget s.images 0x5000).any (fun i => meetsFloor s.ownFloor i.ctx.floor && (s.vcTable i.ctx.vctbase).all (fun v => v.2.fix) &&
       i.launches.isEmpty) = true ∧ tget s.images 0x6000 = none) ∧
    meetsFloor demo.ownFloor [0xFF00000000000000] = false ∧ ¬Commanded demo 1 0 0 0 := by
  refine ⟨⟨commanded 1 0 0 0 demo, by decide +kernel⟩, ?_, ?_, ⟨commanded 3 0 (BitVec.ofNat 46 (12 * 2 ^ 40)) 0x1000 demo, by decide⟩,
    by decide +kernel, ⟨commanded 4 0 0 0x3000 (demoFrameRec 0xFF), by decide +kernel⟩, by decide +kernel, by decide +kernel, by decide +kernel,
    ⟨?_, by decide +kernel⟩, by decide +kernel, by decide +kernel, ?_⟩
  · unfold goodCtxRec; decide +kernel
  · unfold goodCtxRec; decide +kernel
  · cases demo.freeVal.getLsbD 0 <;> simp
  · rintro ⟨c, h, -⟩
    have h0 : demo.host.busy = none := by decide +kernel
    rw [h0] at h; cases h
/-- Two blocks whose cores hold a live matrix pair. -/
def demoPair : State :=
  { demo with
    blocks := [demoK, { demoK with id := 2, core := ⟨0, 1⟩ }]
    cores := [(0, { res := some ⟨0, 1, 0, 16, 9, true⟩ }), (1, { res := some ⟨1, 2, 0, 16, 9, true⟩ })] }
/-- The block of s and its launch are as the statements about a strike ask. -/
def struck (s : State) (irrevocable : Bool) (n : Nat) : Bool :=
  (s.cores.all fun p => p.2.res.isNone) && ((s.block 1).any fun k => k.nonRollback == irrevocable && k.rollbacks == n && !k.relaunch && !k.saved) &&
    (s.launch 1).any fun l => l.outState == 0 && l.cause == 0
theorem witness_ErrorsAreContained : noRing demo ∧ struck demo false 0 = true ∧
    struck (withBlock (fun k => { k with nonRollback := true }) demo) true 0 = true ∧
    struck (withBlock (fun k => { k with rollbacks := 2 }) demo) false 2 = true ∧
    ((((withLaunch (fun l => { l with prot := true }) demo).block 1).bind fun k =>
        ((withLaunch (fun l => { l with prot := true }) demo).launch k.launch).map (·.prot)) = some true ∧
      (demo.block 1).bind (fun k => (demo.launch k.launch).map (·.prot)) = some false) ∧
    (((withBlock (fun k => { k with saved := true }) demo).block 1).any (·.saved) = true ∧
      ((withBlock (fun k => { k with relaunch := true }) demo).block 1).any (·.relaunch) = true) ∧
    (demoPair.pairBlock 1 = some 2 ∧ (demoPair.block 1).any (fun k => !k.nonRollback && k.rollbacks == 0 && !k.relaunch) = true ∧
      (demoPair.block 2).any (fun k => !k.nonRollback && k.rollbacks == 0 && !k.relaunch) = true) ∧
    ((lineOf { demoDirty 1 with blocks := [] } ⟨0, 0⟩ 1).isSome = true ∧ ({ demoDirty 1 with blocks := [] } : State).block 1 = none ∧
      noRing (demoDirty 1) ∧ lineOf demo ⟨0, 0⟩ 1 = none) ∧
    (0 ∉ demo.lostDies ∧ 0 < demo.dieMap.ndie ∧ demo.dieMap.isSd 0 = true ∧ (∀ k ∈ { demoDirty 1 with blocks := [] }.blocks, k.core.die ≠ 0)) ∧
    (2 < demo.dieMap.ndie ∧ demo.dieMap.isSd 2 = false ∧ demo.dieMap.isGd 2 = false ∧ demo.dieMap.ndie ≤ 3) := by
  unfold noRing; decide +kernel
/-- The fabric is enabled in package 5 of a group whose first entry names it. -/
def demoFab : State :=
  { demo with fab := { demo.fab with
      en := true, fabid := 5#64 <<< 50, cgtab := 0x8005 :: List.replicate 7 0, expwin := 1#64 <<< 56
      pbgtab := (BitVec.ofNat 64 (7 * 2 ^ 32 + 5 * 2 ^ 18 + 2 ^ 4 + 1)) :: List.replicate 15 0
      lnksts := linkWith 0 2 2 15 0 :: linkWith 0 1 0 7 0 :: List.replicate 34 0, billing := [(6 * 1024, 1500)] } }
/-- It has no pod barrier. -/
def demoLone : State := { demoFab with fab := { demoFab.fab with pbgtab := List.replicate 16 0 } }
def demoFenced : State := { demoFab with fab := { demoFab.fab with fenced := true } }
/-- A link on which flits of these classes wait, after n slots without class 3. -/
def demoLink (cs : List (List (Nat × Nat × Nat))) (n : Nat) : LinkOut := { waiting := cs, since := n }
theorem witness_LinksAndLoss : demoFab.fab.selfOk = true ∧ ({ demo.fab with fabid := 5#64 <<< 50 } : Fabric).selfOk = false ∧
    (lget demoFab.fab.lnksts 0).any (fun w => w.toNat / 2 ^ 62 == 2 && w.toNat / 2 ^ (56 + 3) % 2 == 1) = true ∧
    (lget demoFab.fab.lnksts 1).any (fun w => w.toNat / 2 ^ 62 == 1) = true ∧
    ((lget demoFab.fab.lnksts 2).any (fun w => w.toNat / 2 ^ 62 == 0) = true ∧
      (lget demoFab.fab.lnksts 1).any (fun w => w.toNat / 2 ^ (56 + 3) % 2 == 0) = true) ∧
    ((demoLink [[], [], [], [(1, 2, 3)]] 15).can 3 = true ∧ (demoLink [[(1, 2, 3)], [], [], []] 14).can 0 = true ∧
      (demoLink [[], [(1, 2, 3)], [], []] 14).can 1 = true ∧
      (demoLink [[(1, 2, 3)], [], [(1, 2, 3)], []] 0).can 2 = true ∧ (demoLink [[(1, 2, 3)], [], [(1, 2, 3)], []] 0).class 0 ≠ [] ∧
      ((0 : DWord).toNat / 2 ^ 16 % 2 ^ 8 = 0) ∧ ((demoLink [[(1, 2, 3)], [], [], []] 0).pick 0x080404).isSome = true) ∧
    (onFabric demoFab ∧ ¬onFabric demo ∧ demoFab.fab.fenced = false ∧ demoFenced.fab.fenced = true ∧ (6#14) ≠ demoFab.pkg ∧
      (6#14) ∉ demoFab.fab.lost ∧ 6#14 ∈ ({ demoFab.fab with lost := [6] } : Fabric).lost) ∧
    (noRing demoLone ∧ onFabric demoLone ∧ (6#14) ∉ demoLone.fab.lost ∧ demoLone.fences.isEmpty = true ∧ demoLone.reqs.isEmpty = true ∧
      (demoLone.fab.pbgtab.all fun w => !demoLone.podHas w 6) = true) := by
  unfold onFabric noRing; decide +kernel
def demoFarReq (kind : RemoteKind) (data : List (BitVec 8)) : RemoteReq := ⟨6, 0, 0, 0, 0, kind, 0x80, 4, data, 0, false⟩
/-- A core of package n has released the granule of 0x80; its dirty lines are not flushed yet. -/
def demoReleased (n : BitVec 14) : State := { demoFab with sync := [(1, { sv := true, fl := false, rpkg := n })] }
theorem witness_RemoteTraffic : (onFabric demoFab ∧ (6#14) ∉ demoFab.fab.lost ∧ 0 < exportSize demoFab ∧ (demoFarReq .load []).off < exportSize demoFab ∧
      exportSize demo ≤ (demoFarReq .load []).off ∧ ¬onFabric demo) ∧
    (let q := demoFarReq (.atomic 0 true false) (leBytes 4 5)
     ((demoReleased 9).srec (granule 0x80)).sv = true ∧ ((demoReleased 9).srec (granule 0x80)).fl = false ∧
      ¬(((demoReleased 9).srec (granule 0x80)).rpkg = q.src ∧ ((demoReleased 9).srec (granule 0x80)).rdie = q.srcDie ∧
        ((demoReleased 9).srec (granule 0x80)).rcore = q.srcCore) ∧
      (demoFab.srec (granule 0x80)).sv = false) ∧
    (let w := BitVec.ofNat 64 (7 * 2 ^ 32 + 5 * 2 ^ 18 + 2 ^ 4 + 1)
     demoFab.fab.pbgtab.find? (fun w => w.toNat % 2 == 1 && w.toNat / 2 ^ 32 == (7#32).toNat) = some w ∧ w.toNat / 2 ^ 18 % 2 ^ 14 = demoFab.pkg.toNat ∧
     ((tget demoFab.fab.podArr 7).getD [] ++ [6#14]).length < w.toNat / 2 ^ 4 % 2 ^ 14 + 1 ∧
     w.toNat / 2 ^ 4 % 2 ^ 14 + 1 ≤ (([(7, [8#14])].lookup 7).getD [] ++ [6#14]).length ∧
     (demoFab.fab.pbgtab.all fun w => !(w.toNat % 2 == 1 && w.toNat / 2 ^ 32 == (8#32).toNat)) = true) ∧
    (let s := { demoFab with bars := [⟨5, 7, 7, 0, 0, [(0, 0)]⟩] }
     (s.bars.find? fun v => v.scope == 5 && v.owner == (7#32).toNat && v.arrived.contains (0, 0)).isSome = true ∧ demoFab.bars = []) ∧
    (quiet demoFab ∧ 0 < (demoFarReq .writeBack [1]).data.length ∧ 0x80 % 128 + (demoFarReq .writeBack [1]).data.length ≤ 128 ∧
      atomNew 0 32 (mread demoFab.mem 0x80 4) 5 0 = some 5 ∧ 0x80 % 128 + 4 ≤ 128) ∧
    (tget demoFab.fab.billing (6 * 1024 + 0) = some 1500 ∧ tget demoFab.fab.billing (6 * 1024 + 1) = none) := by
  unfold onFabric quiet; decide +kernel
def demoPower (die : Nat) (p : QuadPower) : State := demo.setQuadPower (quadKey die 1) p
/-- The block is saved for quad 1, or runs on quad 0 with fixed timing. -/
def demoEvicted : State := withBlock (fun k => { k with saved := true, evicted := some (quadKey 0 1) }) demo
def demoFixed : State := withCtx (fun c => { c with fixed := true }) demo
theorem witness_PowerEvents : (0 < demo.dieMap.nquads 0 ∧ demo.budget 0 < 4000000 ∧ 0 ≤ demo.budget 0 ∧ demo.dieMap.nquads 0 ≤ 99) ∧
    ((50 : Int) < demo.power.tlim - 10 ∧ (50 : Int) - 45 < demo.power.glim ∧ demo.power.tlim + 10 ≤ (120 : Int) ∧
      demo.power.tlim - 5 ≤ (102 : Int) ∧ (102 : Int) < demo.power.tlim ∧ demo.power.glim ≤ (90 : Int) - 40 ∧ demo.power.tlim - 10 ≤ (102 : Int) ∧
      ({ demo with blocks := [] } : State).blocks = []) ∧
    (let s := demoPower 0 { stretch := true, droopUntil := some 1000000 }
     (powerOf s 0 1).stretch = true ∧ (powerOf s 0 1).droopUntil = some 1000000 ∧
       (s.nextSlot 0 1 (max (powerOf s 0 1).stretchFrom (quadOf s 0 1).cyc)).isSome = true ∧ (powerOf demo 0 1).stretch = false ∧
       (powerOf demo 0 1).droopUntil = none) ∧
    ((powerOf (demoPower 0 { over12 := true }) 0 1).over12 = true ∧ demo.dieMap.isSd 0 = true ∧ (demo.diePower 0).regfail.getLsbD 1 = false ∧
      (∀ x ∈ demo.dieMap.regNear 0 1, (demo.diePower 0).regfail.getLsbD x = false) ∧
      (let s := demo.setDiePower 0 { demo.diePower 0 with regfail := BitVec.allOnes 48 ^^^ 2#48 }
       (s.diePower 0).regfail.getLsbD 1 = false ∧ (demo.dieMap.regNear 0 1).any (fun x => (s.diePower 0).regfail.getLsbD x) = true ∧
         (s.diePower 0).regfail.getLsbD 2 = true)) ∧
    (demo.mayRaise (quadKey 0 1) = true ∧ demoEvicted.mayRaise (quadKey 0 1) = false ∧ demoFixed.mayRaise (demo.quadKeyOf ⟨0, 0⟩) = false) ∧
    500 ≤ (0x0E10690F00140101 : Nat) / 2 ^ 48 ∧ (0x0E10690F00140101 : Nat) / 2 ^ 48 ≤ 3600 ∧ 70 ≤ (0x0E10690F00140101 : Nat) / 2 ^ 40 % 256 := by
  decide +kernel
theorem witness_DecodeEncodeAgree : (Instr.iaddI ⟨7, false, 7, 7, false, 0, 16⟩).isEvent = false ∧
    (Instr.iaddI ⟨7, false, 7, 7, false, 0, 16⟩).wellFormed = true ∧ (⟨.alu, 15, 255, true, 15⟩ : Header).count < 16 ∧
    decodesTo .alu 0x05E0707000000010 (.iaddI ⟨7, false, 7, 7, false, 0, 16⟩) = true ∧
    decodeHeader 0xA040020000000000 = some ⟨.alu, 2, 0, false, 2⟩ := by
  decide +kernel
/-- The group of `demo` at one word of a clause of two. -/
def demoGroup (w : DWord) : Group := { seatG demo with words := [w], head := ⟨.alu, 1, 0, false, 0⟩ }
def standsAs (g : Group) (n : Nat) : Nat :=
  match g.instr n with
  | .ok _ => 0
  | .error c => 256 * c.1 + c.2.toNat
theorem reset_autonomous : State.reset.autonomous.isSome = true := by
  have h : State.reset.candidates.length = 1 ∧ (lget State.reset.candidates 0).isSome = true := by decide +kernel
  unfold State.autonomous
  simp only [h.1, Nat.mod_one, h.2]
theorem witness_StepRunsDecoded :
    (GroupTurn demo (seatG demo) demoK ∧ StandsAtInstr (seatG demo) demoK (.nop ⟨0, false, 0, 0, 0, 0, false, false, false, false, 0, false, 0⟩)) ∧
    (standsAs (demoGroup 0) 255 = 0 ∧ standsAs (demoGroup 0xFFE0000000000000) 255 = 0x200 ∧ standsAs (demoGroup 0x44E0000000000001) 255 = 0x306 ∧
      standsAs (demoGroup 0x44E0000000000000) 255 = 0x307 ∧ standsAs (demoGroup 0x05E0707000000010) 7 = 0x30A) ∧
    (let s := demoSeq id demo
     SeqTurn s ⟨0, 0⟩ .copy ∧ (match (s.sq ⟨0, 0⟩ .copy).instr .copy with
       | .ok i => decide (i = .sqnop ⟨0, 0, 0, 0, 0⟩)
       | .error _ => false) = true) ∧
    (let s := demoSeq (fun q => { q with words := [0x5200001800320000] }) demo
     SeqTurn s ⟨0, 0⟩ .copy ∧ (match (s.sq ⟨0, 0⟩ .copy).instr .copy with
       | .ok _ => false
       | .error c => c == 0x002) = true) ∧
    ((Instr.packageReset).isEvent = true ∧ (Instr.nop (fA 0 0 0 0 0)).isEvent = false ∧ demo.blockFixed demoK = false) ∧
    (State.reset.opens = [] ∧ State.reset.agenda = [] ∧ State.reset.autonomous.isSome = true) := by
  refine ⟨⟨⟨?_, ?_, ?_, ?_, ?_⟩, ⟨⟨0, ?_, rfl⟩, ?_, ?_, ?_⟩⟩, by decide +kernel, ⟨⟨?_, ?_, ?_, ?_, ?_, ?_, ?_, ?_⟩, ?_⟩, ⟨⟨?_, ?_, ?_, ?_, ?_, ?_, ?_, ?_⟩, ?_⟩,
    ⟨?_, ?_, ?_⟩, ⟨?_, ?_, reset_autonomous⟩⟩ <;> decide +kernel
theorem witness_MemoryStaysCanonical : Canonical demo ∧ (match step { demo with agenda := [.packageReset] } with
    | .next _ => true
    | _ => false) = true := by
  unfold Canonical; decide +kernel
theorem witness_RegistersAndMemory : (demoK.thread 0).landing 254 = none ∧ (demoK.thread 0).ops = [] ∧ Memory.wf demoTables = true := by
  decide +kernel

end Sys2Proof.Tests
end

section
/-! PROOFS. Registers, predicates and bytes: one rule for each read after each write, and the statement about them (O60). -/

namespace Sys2Proof.Machine

open Sys2Proof.Safety

/-! ### gz and pt -/

@[simp] theorem Thread.reg_gz (t : Thread) (ctr tl : Nat) : t.reg ctr tl 255 = 0 := rfl
@[simp] theorem Thread.setReg_gz (t : Thread) (v : Word) : t.setReg 255 v = t := rfl
@[simp] theorem Thread.setReg64_gz (t : Thread) (v : DWord) : t.setReg64 255 v = t := rfl
@[simp] theorem Thread.pred_pt (t : Thread) : t.pred 7 = true := rfl
@[simp] theorem Thread.setPred_pt (t : Thread) (b : Bool) : t.setPred 7 b = t := rfl

/-! ### Registers and pairs -/

theorem Thread.setReg_regs (t : Thread) {r : Nat} (v : Word) (hr : r < 255) :
    (t.setReg r v).regs = tput t.regs r ⟨v, none⟩ := by
  rw [Thread.setReg, if_neg (by omega)]
@[simp] theorem Thread.setReg_ops (t : Thread) (r : Nat) (v : Word) : (t.setReg r v).ops = t.ops := by
  unfold Thread.setReg
  split <;> rfl
/-- A write to a register is no landing of an operation. -/
@[simp] theorem Thread.setReg_landing (t : Thread) (r q : Nat) (v : Word) : (t.setReg r v).landing q = t.landing q := by
  simp only [Thread.landing, Thread.setReg_ops]
theorem Thread.landing_eq_none_of_ops_nil {t : Thread} (h : t.ops = []) (r : Nat) : t.landing r = none := by
  simp [Thread.landing, h]

/-- A register reads what was last written, unless an operation on the way to it may have landed. -/
theorem Thread.reg_setReg_same (t : Thread) {r : Nat} (v : Word) (ctr tl : Nat) (hr : r < 255) (hl : t.landing r = none) :
    (t.setReg r v).reg ctr tl r = v := by
  simp only [Thread.reg, Thread.setReg_regs t v hr, Thread.setReg_landing, hl, tget_tput_same, if_neg (show ¬ 255 ≤ r by omega)]
theorem Thread.reg_setReg_other (t : Thread) {r q : Nat} (v : Word) (ctr tl : Nat) (hq : q ≠ r) :
    (t.setReg r v).reg ctr tl q = t.reg ctr tl q := by
  by_cases hr : r < 255
  · simp only [Thread.reg, Thread.setReg_regs t v hr, Thread.setReg_landing, tget_tput_other _ _ _ _ hq]
  · rw [Thread.setReg, if_pos (by omega)]
/-- A pair reads its two registers, the lower one in the low half. -/
theorem Thread.reg64_setReg64_same (t : Thread) {r : Nat} (v : DWord) (ctr tl : Nat) (hr : r < 254) (ho : t.ops = []) :
    (t.setReg64 r v).reg64 ctr tl r = v := by
  have low : (t.setReg64 r v).reg ctr tl r = v.extractLsb' 0 32 := by
    rw [Thread.setReg64, if_neg (by omega), Thread.reg_setReg_other _ _ _ _ (by omega),
      Thread.reg_setReg_same _ _ _ _ (by omega) (Thread.landing_eq_none_of_ops_nil ho r)]
  have high : (t.setReg64 r v).reg ctr tl (r + 1) = v.extractLsb' 32 32 := by
    rw [Thread.setReg64, if_neg (by omega),
      Thread.reg_setReg_same _ _ _ _ (by omega) (Thread.landing_eq_none_of_ops_nil (by simpa using ho) _)]
  rw [Thread.reg64, if_neg (by omega), low, high, BitVec.extractLsb'_append_extractLsb'_eq_extractLsb' (by omega)]
  simp

/-! ### Predicates -/

theorem Thread.pred_setPred (t : Thread) {n : Nat} (m : Nat) (b : Bool) (hn : n < 7) :
    (t.setPred n b).pred m = if m = n then b else t.pred m := by
  rw [Thread.setPred, if_neg (by omega)]
  by_cases hm : 7 ≤ m
  · rw [Thread.pred, Thread.pred, if_pos hm, if_pos hm, if_neg (by omega)]
  · have hbit : (1#7 <<< n).getLsbD m = decide (n = m) := (BitVec.getLsbD_twoPow n m).trans (by simp [hn])
    rw [Thread.pred, Thread.pred, if_neg hm, if_neg hm]
    cases b with
    | true => rw [if_pos rfl, BitVec.getLsbD_or, hbit]; grind
    | false => rw [if_neg Bool.false_ne_true, BitVec.getLsbD_and, BitVec.getLsbD_not, hbit]; grind

/-! ### Bytes -/

theorem mread_succ (m : Mem) (a n : Nat) : mread m a (n + 1) = (mget m a).toNat + 256 * mread m (a + 1) n := rfl
theorem mread_mwrite_same_bits (m : Mem) (a n v : Nat) : mread (mwrite m a n v) a n = v % 2 ^ (8 * n) := by
  rw [mread_mwrite_same, Nat.pow_mul]

/-- Settles O60: each clause is one rule above, or one of the laws of memory. -/
theorem registersAndMemory : Obligations.RegistersAndMemory :=
  ⟨fun t => ⟨fun _ _ => t.reg_gz _ _, t.setReg_gz, t.setReg64_gz, t.pred_pt, t.setPred_pt⟩,
   fun t _ v hr hl ctr tl => t.reg_setReg_same v ctr tl hr hl,
   fun t _ _ v ctr tl hq => t.reg_setReg_other v ctr tl hq,
   fun t _ v ctr tl hr ho => t.reg64_setReg64_same v ctr tl hr ho,
   fun t _ m b hn => t.pred_setPred m b hn,
   mread_mwrite_same_bits,
   fun m a n v x hx => mget_mwrite_outside m a n v x hx,
   mread_succ,
   fun _ a n v h => Memory.wf_mwrite a n v h,
   fun _ _ h k e => Memory.wf_ext h k e⟩

end Sys2Proof.Machine
end

section
/-! PROOFS. Package reset, boot, and reads and writes of device registers (spec/22_host.md R518 to R520): what each does, and the
statement about them (O48). -/

namespace Sys2Proof.Machine

/-! ### Boot (R520) -/

theorem execBootStep_ended (ok : Bool) (s : State) (h : s.host.done = true ∨ s.host.fail = true) : execBootStep ok s = .next s := by
  simp [execBootStep, h]
section
variable (s : State) (hd : s.host.done = false) (hf : s.host.fail = false)
include hd hf
theorem execBootStep_stops : execBootStep false s = .next { s with host := { s.host with fail := true } } := by
  simp [execBootStep, hd, hf]
theorem execBootStep_next (h : s.host.step.toNat < 4) :
    execBootStep true s = .next { s with host := { s.host with step := s.host.step + 1 } } := by
  simp [execBootStep, hd, hf, h]
theorem execBootStep_last (h : 4 ≤ s.host.step.toNat) :
    execBootStep true s = .next { s with
      host := { s.host with step := 5, done := true }, dieMap := bootMap, power := { s.power with dies := bootPower bootMap } } := by
  simp [execBootStep, hd, hf, h]
end

/-! ### Writes of registers -/

theorem execPkgctlRst_set (s : State) (v : BitVec 64) (h : v.getLsbD 0 = true) : execPkgctlRst v s = execPackageReset s :=
  congrArg Host.Outcome.next (if_pos h)
theorem execPkgctlRst_clear (s : State) (v : BitVec 64) (h : v.getLsbD 0 = false) : execPkgctlRst v s = .next s :=
  congrArg Host.Outcome.next (if_neg (ne_true_of_eq_false h))

theorem execRegisterWrite_misaligned (off : BitVec 20) (v : BitVec 64) (s : State) (h : off.toNat % 8 ≠ 0) :
    execRegisterWrite off v s = .next s := by
  simp [execRegisterWrite, h]
theorem execRegisterWrite_aligned (off : BitVec 20) (v : BitVec 64) (s : State) (h : off.toNat % 8 = 0) :
    execRegisterWrite off v s = .next (s.writeReg off.toNat v) := by
  simp [execRegisterWrite, h]
/-- The die map is read only. -/
theorem State.writeReg_dieMap (s : State) {off : Nat} (v : DWord) (h : off < 0x1000) : s.writeReg off v = s := by
  have ne : ∀ n, 0x1000 ≤ n → (off == n) = false := fun n hn => by simp; omega
  have below : ∀ n m, 0x1000 ≤ n → ¬ (n ≤ off ∧ off < m) := fun n m hn => by omega
  simp [State.writeReg, ne, below]
/-- The die map and the boot status ignore writes. -/
theorem execRegisterWrite_readOnly (off : BitVec 20) (v : BitVec 64) (s : State) (h : off.toNat < 0x1000 ∨ off = 0x1008) :
    execRegisterWrite off v s = .next s := by
  by_cases ha : off.toNat % 8 = 0
  · rw [execRegisterWrite_aligned off v s ha]
    obtain h | rfl := h
    · rw [s.writeReg_dieMap v h]
    · rfl
  · exact execRegisterWrite_misaligned off v s ha

/-- Bit 62 of the command status register, LOST, is cleared by writing 1 (R519). -/
theorem State.writeReg_lost (s : State) (v : DWord) (h : v.getLsbD 62 = true) :
    s.writeReg 0x1028 v = { s with host := { s.host with lost := false } } := if_pos h
theorem State.writeReg_lost_kept (s : State) (v : DWord) (h : v.getLsbD 62 = false) : s.writeReg 0x1028 v = s :=
  if_neg (ne_true_of_eq_false h)

/-! ### Commands of the host (R519, R521) -/

theorem State.go_busy (s : State) (h : s.host.busy.isSome = true) : s.go = { s with host := { s.host with lost := true } } := by
  simp [State.go, h]
/-- The command that HCMD0 and HCMD1 hold, as a write of HCMD2 issues it: an operation that R521 does not list is ready at once. -/
def HostRegs.issued (h : HostRegs) : HostCmd where
  op := bits h.hcmd0.toNat 63 56
  slot := bits h.hcmd0.toNat 55 46
  arg := bits h.hcmd0.toNat 45 0
  ptr := h.hcmd1.toNat
  res := if 1 ≤ bits h.hcmd0.toNat 63 56 ∧ bits h.hcmd0.toNat 63 56 ≤ 10 then 0 else 1
  ready := !decide (1 ≤ bits h.hcmd0.toNat 63 56 ∧ bits h.hcmd0.toNat 63 56 ≤ 10)
theorem State.go_idle (s : State) (h : s.host.busy = none) : s.go = { s with host := { s.host with busy := some s.host.issued } } := by
  by_cases known : 1 ≤ bits s.host.hcmd0.toNat 63 56 ∧ bits s.host.hcmd0.toNat 63 56 ≤ 10 <;>
    simp [State.go, HostRegs.issued, h, known]
theorem HostRegs.issued_op (h : HostRegs) : h.issued.op = h.hcmd0.toNat / 2 ^ 56 := by
  have := h.hcmd0.isLt
  exact Nat.mod_eq_of_lt (by omega)
theorem HostRegs.issued_slot (h : HostRegs) : h.issued.slot = h.hcmd0.toNat / 2 ^ 46 % 2 ^ 10 := rfl
theorem HostRegs.issued_arg (h : HostRegs) : h.issued.arg = h.hcmd0.toNat % 2 ^ 46 := by
  simp [HostRegs.issued, bits]
theorem HostRegs.issued_known (h : HostRegs) (k : 1 ≤ h.issued.op ∧ h.issued.op ≤ 10) : h.issued.ready = false :=
  congrArg not (decide_eq_true k)
theorem HostRegs.issued_unknown (h : HostRegs) (k : ¬ (1 ≤ h.issued.op ∧ h.issued.op ≤ 10)) : h.issued.ready = true ∧ h.issued.res = 1 :=
  ⟨congrArg not (decide_eq_false k), if_neg k⟩
theorem execHostCommandComplete_ready (s : State) (c : HostCmd) (h : s.host.busy = some c) (hr : c.ready = true) :
    execHostCommandComplete s = .next
      ({ s with host := { s.host with busy := none, res := BitVec.ofNat 8 c.res, cause := BitVec.ofNat 10 c.cause } }.signal 3) := by
  simp [execHostCommandComplete, h, hr]
theorem execHostCommandComplete_idle (s : State) (h : ∀ c, s.host.busy = some c → c.ready = false) :
    execHostCommandComplete s = .next s := by
  unfold execHostCommandComplete
  cases hb : s.host.busy with
  | none => rfl
  | some c => simp [h c hb]
/-- MSIXMAP gives a vector four bits. -/
theorem State.signal_signals (s : State) (n : Nat) :
    (s.signal n).host.signals = s.host.msixmap.toNat / 2 ^ (4 * n) % 16 :: s.host.signals := by
  simp [State.signal, bits]

/-! ### Reads of registers -/

/-- A sum of two flags at the top bits of a 64-bit word and of fields below them. -/
theorem getLsbD_topFlags (a b : Bool) {low : Nat} (h : low < 2 ^ 62) :
    (BitVec.ofNat 64 (boolBit a 63 + boolBit b 62 + low)).getLsbD 63 = a ∧
      (BitVec.ofNat 64 (boolBit a 63 + boolBit b 62 + low)).getLsbD 62 = b := by
  simp only [BitVec.getLsbD_ofNat, Nat.testBit_eq_decide_div_mod_eq, boolBit]
  cases a <;> cases b <;> simp <;> omega
/-- BUSY and LOST of the command status register (R519). -/
theorem State.readReg_hcmdStatus (s : State) :
    (s.readReg 0x1028).getLsbD 63 = s.host.busy.isSome ∧ (s.readReg 0x1028).getLsbD 62 = s.host.lost := by
  have hres := s.host.res.isLt
  have hcause := s.host.cause.isLt
  have eq : s.readReg 0x1028 = BitVec.ofNat 64
      (boolBit s.host.busy.isSome 63 + boolBit s.host.lost 62 + (s.host.res.toNat * 2 ^ 54 + s.host.cause.toNat * 2 ^ 44)) := by
    rw [← Nat.add_assoc]; rfl
  rw [eq]
  exact getLsbD_topFlags _ _ (by omega)
theorem State.readReg_beforeBoot (s : State) {off : Nat} (h : off < 0x1000) (hd : s.host.done = false) : s.readReg off = 0 := by
  have page : off / 0x1000 = 0 := by omega
  simp [State.readReg, State.mapReg, page, hd]

/-- Settles O48: each clause is one rule above, or holds by evaluation at the register's offset. -/
theorem resetAndRegisters : Obligations.ResetAndRegisters := by
  refine ⟨fun s => ⟨s.packageReset, rfl, rfl, rfl, rfl, rfl, rfl, rfl, rfl, rfl, rfl, rfl, rfl, rfl, rfl, rfl, rfl, s.packageReset_canon⟩,
    execPkgctlRst_set, execPkgctlRst_clear, execBootStep_next,
    fun s hd hf h => ⟨_, execBootStep_last s hd hf h, rfl, rfl, rfl⟩, execBootStep_stops, fun s ok => execBootStep_ended ok s,
    fun s off v => execRegisterWrite_misaligned off v s, fun s off v => execRegisterWrite_readOnly off v s,
    fun _ _ => rfl, fun _ _ => rfl, fun _ _ => rfl, fun s _ h => congrArg Host.Outcome.next (s.go_busy h), ?idle,
    fun s v h => congrArg Host.Outcome.next (s.writeReg_lost v h), fun s v h => congrArg Host.Outcome.next (s.writeReg_lost_kept v h),
    fun _ _ => rfl, execHostCommandComplete_ready, execHostCommandComplete_idle, State.signal_signals,
    fun s => ⟨rfl, rfl, rfl, rfl, rfl, rfl, rfl, rfl, s.readReg_hcmdStatus⟩, fun s off h hd => s.readReg_beforeBoot h hd⟩
  case idle =>
    intro s v h
    refine ⟨s.host.issued, congrArg Host.Outcome.next (s.go_idle h), s.host.issued_op, s.host.issued_slot, s.host.issued_arg, rfl, ?_⟩
    rw [← s.host.issued_op]
    exact ⟨s.host.issued_known, s.host.issued_unknown⟩

end Sys2Proof.Machine
end

section
/-! PROOFS. What package reset leaves (spec/01_package.md R22): what an unlisted granule or core reads as, and the statement about reset
(O59). -/

namespace Sys2Proof.Machine

open Sys2Proof.Safety

/-- A granule that the table does not list has the reset record (R84). -/
theorem State.srec_of_unlisted (s : State) (g : Nat) (h : tget s.sync g = none) : s.srec g = {} := by
  rw [State.srec, h, Option.getD_none]
theorem State.core_of_unlisted (s : State) (c : CoreRef) (h : tget s.cores (coreKey c) = none) : s.core c = {} := by
  rw [State.core, h, Option.getD_none]
theorem Memory.wf_nil : Memory.wf [] = true := rfl
/-- Every link has the same weights at reset (R474). -/
theorem State.reset_lnkwt : State.reset.fab.lnkwt = List.replicate 36 0x080404 := rfl

/-- Settles O59: memory and the tables are empty, so each of their entries reads as an unlisted one; the registers hold their reset
values. -/
theorem resetState : Obligations.ResetState := by
  have weights : ∀ w ∈ State.reset.fab.lnkwt, w = 0x080404 := by
    rw [State.reset_lnkwt]
    exact fun _ => List.eq_of_mem_replicate
  have links : State.reset.fab.lnkwt.length = 36 := by
    rw [State.reset_lnkwt, List.length_replicate]
  have gens : ∀ c, (State.reset.core c).gen = 0 := fun c => by
    rw [State.reset.core_of_unlisted c (tget_nil _)]
  exact ⟨Memory.wf_nil, rfl, rfl, rfl, rfl, mget_nil, fun g => State.reset.srec_of_unlisted g (tget_nil g), gens,
    rfl, weights, links, rfl, rfl, rfl, rfl, rfl, rfl, rfl⟩

end Sys2Proof.Machine
end

section
/-! PROOFS. No step stops: which instruction is issued by a group, which by a sequencer, and which is an event; that `exec` answers a next
state when a group or sequencer that may issue it stands at the front of the open clauses; that every step finds it there (O57). -/

namespace Sys2Proof

/-! ### The class of a decoded word -/

/-- The class of clauses in which an instruction stands; a device event has none. -/
def Instr.cls (i : Instr) : Option Cls := (encode i).map (·.1)

theorem opcodeAlu_cls {w : DWord} {o : Nat} {i : Instr} : opcodeAlu w o = some i → i.cls = some .alu := by
  fun_cases opcodeAlu w o <;> rintro ⟨⟩ <;> rfl
theorem opcodeMem_cls {w : DWord} {o : Nat} {i : Instr} : opcodeMem w o = some i → i.cls = some .mem := by
  fun_cases opcodeMem w o <;> rintro ⟨⟩ <;> rfl
theorem opcodeSync_cls {w : DWord} {o : Nat} {i : Instr} : opcodeSync w o = some i → i.cls = some .sync := by
  fun_cases opcodeSync w o <;> rintro ⟨⟩ <;> rfl
theorem opcodeEng_cls {w : DWord} {o : Nat} {i : Instr} : opcodeEng w o = some i → i.cls = some .eng := by
  fun_cases opcodeEng w o <;> rintro ⟨⟩ <;> rfl
theorem opcodeSeq_cls {w : DWord} {o : Nat} {i : Instr} : opcodeSeq w o = some i → i.cls = some .seq := by
  fun_cases opcodeSeq w o <;> rintro ⟨⟩ <;> rfl
theorem opcodeGfx_cls {w : DWord} {o : Nat} {i : Instr} : opcodeGfx w o = some i → i.cls = some .gfx := by
  fun_cases opcodeGfx w o <;> rintro ⟨⟩ <;> rfl
/-- Opcode 0x21 has two readings, and both are of class SYS. -/
theorem opcodeSys_cls {w : DWord} {o : Nat} {i : Instr} : opcodeSys w o = some i → i.cls = some .sys := by
  fun_cases opcodeSys w o <;> rintro ⟨⟩
  case case13 => split <;> rfl
  all_goals rfl

theorem decodeRaw_cls {c : Cls} {w : DWord} {i : Instr} (h : decodeRaw c w = some i) : i.cls = some c := by
  cases c with
  | alu => exact opcodeAlu_cls h
  | mem => exact opcodeMem_cls h
  | sync => exact opcodeSync_cls h
  | eng => exact opcodeEng_cls h
  | seq => exact opcodeSeq_cls h
  | gfx => exact opcodeGfx_cls h
  | sys => exact opcodeSys_cls h
theorem decodeWord_cls {c : Cls} {w : DWord} {i : Instr} (h : decodeWord c w = .ok i) : i.cls = some c := by
  unfold decodeWord at h
  split at h
  · cases h
  · split at h <;> cases h
    exact decodeRaw_cls ‹_›

end Sys2Proof

namespace Sys2Proof.Machine
open Sys2Proof.Safety

/-! ### Outcomes that go on -/

/-- The outcome is a next state. -/
def GoesOn (o : Out) : Prop := ∃ t, o = .next t

theorem goesOn_next (t : State) : GoesOn (.next t) := ⟨t, rfl⟩
theorem goesOn_ite {c : Prop} [Decidable c] {a b : Out} (ha : GoesOn a) (hb : GoesOn b) : GoesOn (if c then a else b) := by
  split <;> assumption
theorem goesOn_andThen {f : State → State} {o : Out} (h : GoesOn o) : GoesOn (andThen f o) := by
  obtain ⟨t, rfl⟩ := h
  exact goesOn_next _
theorem goesOn_finish {o : Out} (h : GoesOn o) : GoesOn (finish o) := goesOn_andThen h

/-! ### Ways of issuing -/

/-- A group of a block that stands is at the front of the open clauses. -/
def GroupFront (s : State) : Prop := ∃ g rest k, s.opens = .grp g :: rest ∧ s.block g.blk = some k
/-- A sequencer is at the front of the open clauses. -/
def SeqFront (s : State) : Prop := ∃ c kd rest, s.opens = .seq c kd :: rest

section
variable {s : State} (h : GroupFront s) (i : Instr) (pred : BitVec 3) (pneg : Bool)
include h

theorem issueAlu_goesOn (f : Env → Thread → Thread) : GoesOn (issueAlu i pred pneg f s) := by
  obtain ⟨g, rest, k, ho, hk⟩ := h
  simp only [issueAlu, ho, hk]
  exact goesOn_next _
theorem issue_goesOn (sb : Option Nat) (lane : Env → State → LaneOut) : GoesOn (issue i pred pneg sb lane s) := by
  obtain ⟨g, rest, k, ho, hk⟩ := h
  simp only [issue, ho, hk]
  exact goesOn_ite (goesOn_next _) (goesOn_next _)
theorem issueCommit_goesOn (sb : Option Nat) (lane : Env → State → LaneOut) (all : Bool) :
    GoesOn (issueCommit i pred pneg sb lane s all) := by
  obtain ⟨g, rest, k, ho, hk⟩ := h
  simp only [issueCommit, ho, hk]
  exact goesOn_ite (goesOn_next _) (goesOn_next _)
theorem issueEng_goesOn (lane : Env → State → Option LaneOut) : GoesOn (issueEng i pred pneg lane s) := by
  obtain ⟨g, rest, k, ho, hk⟩ := h
  simp only [issueEng, ho, hk]
  exact goesOn_ite (goesOn_next _) (goesOn_next _)
theorem execJwait_goesOn (f : FB) : GoesOn (execJwait f s) := by
  unfold execJwait
  obtain ⟨t, ht⟩ := issue_goesOn h (.jwait f) f.pred f.pneg none fun e s =>
    if e.k.jexpects f.j.toNat e.tl then
      ((e.block s (.jwait f.j.toNat)).modBlock e.k.id fun k => k.jarrive f.j.toNat e.tl, none)
    else (s, none)
  rw [ht]
  exact goesOn_next _
theorem execMdone_goesOn (f : FA) : GoesOn (execMdone f s) := by
  have ⟨g, rest, _, ho, _⟩ := h
  simp only [execMdone, ho]
  split
  · exact goesOn_next _
  · exact issue_goesOn h ..
end

theorem seqIssue_goesOn {s : State} (h : SeqFront s) (act : State → CoreRef → SeqKind → Sequencer → State × SeqNext) :
    GoesOn (seqIssue act s) := by
  obtain ⟨c, kd, rest, ho⟩ := h
  simp only [seqIssue, ho]
  split <;> exact goesOn_next _
theorem seqCommand_goesOn {s : State} (h : SeqFront s) (f : FS) (kind : EngKind) (accept : Bool → State → EngOp → State) :
    GoesOn (seqCommand f kind accept s) := seqIssue_goesOn h _
theorem State.command_goesOn (s : State) (op : Nat) (slot : BitVec 10) (arg : BitVec 46) (ptr : BitVec 64)
    (act : State → Option (Nat × Nat) × State) : GoesOn (s.command op slot arg ptr act) := by
  unfold State.command
  split
  · refine goesOn_ite (goesOn_next _) ?_
    split <;> exact goesOn_next _
  · exact goesOn_next _

/-! ### Every instruction and every event -/

theorem exec_goesOn_of_group {i : Instr} {c : Cls} {s : State} (hi : i.cls = some c) (hc : c ≠ .seq) (h : GroupFront s) :
    GoesOn (exec i s) := by
  cases i with
  | nop | mov | movi | movk | imadw | iadd64 | isub64 | iset | isetI | iset64 | sel | lea | leaI | i2i | plop | pset | srd | cyc | gpoll
  | gxch | gpeer | bra | fadd | faddI | fmul | fmulI | ffma | fmulz | fmin | fmax | fset | fsetI | fclass | frnd | f2i | i2f | f2f | fsf
  | pkadd | pkmul | pkfma | pkdot | dadd | dmul | dfma | setprio | tmode | xldec | qfeat
  | iadd | isub | imul | imulhi | imin | imax | and | or | xor | shl | shr | sar | bfx
  | iaddI | isubI | imulI | iminI | imaxI | andI | orI | xorI | shlI | shrI | sarI
  | imad | logt | shf | bfi | prmb | iabs | ineg | not | popc | clz | ctz | brev => exact issueAlu_goesOn h ..
  | brx | call | ret | exit | jset | yield | ld | ldl | stl | ldp | stp | ldk | atoml | acq | pref | cline | vcqry | barwait | boinit
  | boexp | boarv | bowait | botest | qdef | qpush | qpop | qtry | paypop | mcount | mvert | mprim | vispop | visget | rgnacq | rtblend
  | tex | tld | tqry | trap | tret | frginfo | sfqpop | killf | bpt | launch | fork | rdv | xlmap | xlmapRaise | vcdef | vcsize | vcmove
  | vcflush | biasflip => exact issue_goesOn h ..
  | st | atom | red | rel | phase | drainst | bar | bararv | paypush | rgnrel => exact issueCommit_goesOn h ..
  | cpy | cpyg | cpys | cpyfill | ctload | decent | decbr | mresv | mrels | mload | mcbl | mma | mmai | mzero | mstore | mstat | mchk
  | rayq => exact issueEng_goesOn h ..
  | jwait => exact execJwait_goesOn h _
  | mdone => exact execMdone_goesOn h _
  | sqnop | sqloop | sqend | sqwaitc | sqboarv | sqbowait | seqCpy | seqCpyg | seqCpys | seqCpyfill | seqCtload | seqDecent | seqDecbr
  | seqMresv | seqMrels | seqMload | seqMcbl | seqMma | seqMmai | seqMzero | seqMstore | seqMstat | seqMchk =>
    exact absurd (Option.some.inj hi).symm hc
  | _ => cases hi

theorem exec_goesOn_of_seq {i : Instr} {s : State} (hi : i.cls = some .seq) (h : SeqFront s) : GoesOn (exec i s) := by
  cases i with
  | sqnop | sqloop | sqend | sqwaitc | sqboarv | sqbowait =>
    dsimp only [exec]
    exact seqIssue_goesOn h _
  | seqCpy | seqCpyg | seqCpys | seqCpyfill | seqCtload | seqDecent | seqDecbr | seqMresv | seqMrels | seqMload | seqMcbl | seqMma
  | seqMmai | seqMzero | seqMstore | seqMstat | seqMchk =>
    dsimp only [exec]
    exact seqCommand_goesOn h ..
  | _ => cases hi

theorem execStallExpiry_goesOn (blk tl : Nat) (s : State) : GoesOn (execStallExpiry blk tl s) := by
  unfold execStallExpiry
  split
  · exact goesOn_next _
  · refine goesOn_ite (goesOn_next _) ?_
    split <;> exact goesOn_next _
theorem execSlotLanding_goesOn (blk tl op : Nat) (s : State) : GoesOn (execSlotLanding blk tl op s) := by
  unfold execSlotLanding
  split
  · exact goesOn_next _
  · split
    · exact goesOn_next _
    · split
      · exact goesOn_next _
      · dsimp only
        split <;> exact goesOn_next _
theorem execPageMoveSweepStep_goesOn (ctx idx frame : Nat) (s : State) : GoesOn (execPageMoveSweepStep ctx idx frame s) := by
  unfold execPageMoveSweepStep
  split
  · exact goesOn_next _
  · split
    · exact goesOn_next _
    · exact goesOn_ite (goesOn_next _) (goesOn_ite (goesOn_ite (goesOn_next _) (goesOn_next _))
        (goesOn_ite (goesOn_next _) (goesOn_next _)))
theorem execBiasflipComplete_goesOn (cmd : Nat) (s : State) : GoesOn (execBiasflipComplete cmd s) := by
  unfold execBiasflipComplete
  split
  · exact goesOn_next _
  · split
    · exact goesOn_ite (goesOn_next _) (goesOn_ite (goesOn_next _) (goesOn_next _))
    · exact goesOn_next _
theorem execFrontEndRequest_goesOn (die : Nat) (s : State) : GoesOn (execFrontEndRequest die s) := by
  unfold execFrontEndRequest
  split
  · exact goesOn_next _
  · dsimp only
    split <;> exact goesOn_next _
theorem execPaypushLanding_goesOn (blk : Nat) (s : State) : GoesOn (execPaypushLanding blk s) := by
  unfold execPaypushLanding
  split
  · split <;> exact goesOn_next _
  · exact goesOn_next _
theorem execTokenTimeout_goesOn (ctx region : Nat) (s : State) : GoesOn (execTokenTimeout ctx region s) := by
  unfold execTokenTimeout
  split
  · exact goesOn_next _
  · split <;> exact goesOn_next _
theorem execLaunchHead_goesOn (ctx queue : Nat) (s : State) : GoesOn (execLaunchHead ctx queue s) := by
  unfold execLaunchHead
  dsimp only
  split
  · exact goesOn_ite (goesOn_next _) (goesOn_next _)
  · exact goesOn_next _
theorem execWaitTimeout_goesOn (w : Waiter) (s : State) : GoesOn (execWaitTimeout w s) := by
  unfold execWaitTimeout
  cases w with
  | thread blk tl =>
    dsimp only
    split
    · exact goesOn_next _
    · split
      · exact goesOn_ite (goesOn_next _) (goesOn_next _)
      · exact goesOn_next _
  | sequencer c kind =>
    dsimp only
    split
    · exact goesOn_ite (goesOn_next _) (goesOn_next _)
    · exact goesOn_next _

theorem exec_goesOn_of_event {i : Instr} (hi : i.cls = none) (s : State) : GoesOn (exec i s) := by
  cases i with
  | clauseIssue | demandWriteBack | preempt | blockRestore | uncorrectableError | corrected | scrub | linkRetrainDone | fabricEnable
  | lostMarkClear | packageReset | pkgctlRst | tailReread | registerWrite | shuntClamp
  | boostNotice | hostSnoop | energyAccounting | droopDetect | droopLimit | droopRecover | pwrlimWrite => exact goesOn_next _
  | create | destroy | inval | frmopen | frmclose | frmrel | resans | qbind | migout | migin =>
    dsimp only [exec]
    exact s.command_goesOn ..
  | hostMemAccess | bankSleep | l2DectedSwitch | heartbeatSend | silenceNotice | billingFlit | thermalReading | dirtyNotice
  | quadGate | graceExpiry | engineDrainExpiry | eviction | regFailed | way7ReturnToVc1 =>
    exact goesOn_ite (goesOn_next _) (goesOn_next _)
  | dieLost | remoteRequest | podArrivalFlit =>
    exact goesOn_ite (goesOn_next _) (goesOn_ite (goesOn_next _) (goesOn_next _))
  | bootStep | directoryRecall =>
    exact goesOn_ite (goesOn_next _) (goesOn_ite (goesOn_next _) (goesOn_ite (goesOn_next _) (goesOn_next _)))
  | powerEvaluation =>
    exact goesOn_ite (goesOn_next _) (goesOn_ite (goesOn_ite (goesOn_next _) (goesOn_next _)) (goesOn_ite (goesOn_next _) (goesOn_next _)))
  | stallExpiry => exact execStallExpiry_goesOn ..
  | slotLanding => exact execSlotLanding_goesOn ..
  | pageMoveSweepStep => exact execPageMoveSweepStep_goesOn ..
  | biasflipComplete => exact execBiasflipComplete_goesOn ..
  | frontEndRequest => exact execFrontEndRequest_goesOn ..
  | paypushLanding => exact execPaypushLanding_goesOn ..
  | tokenTimeout => exact execTokenTimeout_goesOn ..
  | launchHead => exact execLaunchHead_goesOn ..
  | waitTimeout => exact execWaitTimeout_goesOn ..
  | homeRelease | homeAcquire | homeAtomic | homeFill | vcCommandLanding | engineDelivery | packetArrival | watermarkFlit | blockPlace
  | frameTimeout | podReleaseFlit | stretchedCycle | droopFloorExpiry | sqwaitcExpiry =>
    dsimp only [exec, execHomeRelease, execHomeAcquire, execHomeAtomic, execHomeFill, execVcCommandLanding, execEngineDelivery,
      execPacketArrival, execWatermarkFlit, execBlockPlace, execFrameTimeout, execPodReleaseFlit, execStretchedCycle,
      execDroopFloorExpiry, execSqwaitcExpiry]
    split <;> exact goesOn_next _
  | writeBackArrival | writeBackAck | matrixOpStart | blockRelaunch | billingSend | hostCommandComplete | pipelineEvaluation
  | linkLaneLoss | completionRecord | mresvPartnerTimeout =>
    dsimp only [exec, execWriteBackArrival, execWriteBackAck, execMatrixOpStart, execBlockRelaunch, execBillingSend,
      execHostCommandComplete, execPipelineEvaluation, execLinkLaneLoss, execCompletionRecord, execMresvPartnerTimeout]
    split
    any_goals exact goesOn_next _
    exact goesOn_ite (goesOn_next _) (goesOn_next _)
  | descheduleExpiry | yieldExpiry =>
    dsimp only [exec, execDescheduleExpiry, execYieldExpiry]
    split
    · exact goesOn_next _
    · split <;> exact goesOn_next _
  | fixedClockChange =>
    refine goesOn_ite (goesOn_next _) ?_
    split <;> exact goesOn_next _
  | _ => cases hi

/-! ### What a step runs -/

/-- A group whose clause is not of class SEQ stands at an instruction that a group issues (spec/04_encoding.md R122). -/
theorem Group.instr_cls {g : Group} {n : Nat} {i : Instr} (h : g.instr n = .ok i) : ∃ c, i.cls = some c ∧ c ≠ .seq := by
  unfold Group.instr at h
  split at h
  · cases h
  · rename_i w hw
    have hc : g.head.cls ≠ .seq := fun e => by simp [e] at hw
    split at h
    · cases h
    · cases h
    · rename_i j hj
      have : j = i := by grind
      exact ⟨_, this ▸ decodeWord_cls hj, hc⟩
theorem Sequencer.instr_cls {q : Sequencer} {kd : SeqKind} {i : Instr} (h : q.instr kd = .ok i) : i.cls = some .seq := by
  unfold Sequencer.instr at h
  split at h
  · cases h
  · split at h
    · cases h
    · split at h
      · cases h
      · cases h
      · rename_i j hj
        have : j = i := by grind
        exact this ▸ decodeWord_cls hj

/-- Passing cycles changes no block and no open clause. -/
theorem State.reachCyc_opens (s : State) (key n : Nat) : (s.reachCyc key n).opens = s.opens := by
  unfold State.reachCyc
  dsimp only
  split
  · rfl
  · split <;> rfl
theorem State.reachCyc_blocks (s : State) (key n : Nat) : (s.reachCyc key n).blocks = s.blocks := by
  unfold State.reachCyc
  dsimp only
  split
  · rfl
  · split <;> rfl
theorem State.reachDue_opens (s : State) (key : Nat) (d : Option Nat) : (s.reachDue key d).opens = s.opens := by
  cases d with
  | none => rfl
  | some n => exact s.reachCyc_opens key n
theorem State.reachDue_blocks (s : State) (key : Nat) (d : Option Nat) : (s.reachDue key d).blocks = s.blocks := by
  cases d with
  | none => rfl
  | some n => exact s.reachCyc_blocks key n
theorem State.setSq_opens (s : State) (c : CoreRef) (kd : SeqKind) (q : Sequencer) : (s.setSq c kd q).opens = s.opens := by
  cases kd <;> rfl
/-- As its instruction issues, the front group still stands at the front. -/
theorem groupFront_clearDue {s : State} {g : Group} {rest : List Open} {k : Block} (ho : s.opens = .grp g :: rest)
    (hk : s.block g.blk = some k) : GroupFront s.clearDue := by
  refine ⟨{ g with due := none }, rest, k, ?_, ?_⟩ <;> unfold State.clearDue <;> simp only [ho]
  exact hk

theorem issueFront_goesOn (s : State) : GoesOn (issueFront s) := by
  unfold issueFront
  split
  · rename_i g rest ho
    split
    · exact goesOn_next _
    · rename_i k hk
      refine goesOn_ite (goesOn_next _) ?_
      dsimp only
      split
      · rename_i i hi
        obtain ⟨c, hc, hn⟩ := Group.instr_cls hi
        refine goesOn_andThen (exec_goesOn_of_group hc hn (groupFront_clearDue (g := g) (rest := rest) (k := k) ?_ ?_))
        · rw [State.reachDue_opens, ho]
        · rw [State.block, State.reachDue_blocks]
          exact hk
      · exact goesOn_next _
  · rename_i c kd rest ho
    refine goesOn_ite (goesOn_next _) (goesOn_ite (goesOn_next _) (goesOn_ite (goesOn_next _) (goesOn_ite (goesOn_next _) ?_)))
    dsimp only
    split
    · rename_i i hi
      refine goesOn_andThen (exec_goesOn_of_seq (Sequencer.instr_cls hi) ⟨c, kd, rest, ?_⟩)
      rw [State.setSq_opens, State.reachDue_opens, ho]
    · exact goesOn_next _
  · exact goesOn_next _

/-! ### What the device may choose is an event -/

/-- Every member of the list is a device event. -/
def Events (l : List Instr) : Prop := ∀ i ∈ l, i.cls = none

theorem events_nil : Events [] := fun _ h => nomatch h
theorem events_singleton {i : Instr} (h : i.cls = none) : Events [i] := fun _ hj => List.mem_singleton.mp hj ▸ h
theorem events_append {l m : List Instr} (hl : Events l) (hm : Events m) : Events (l ++ m) :=
  fun i h => (List.mem_append.mp h).elim (hl i) (hm i)
theorem events_map {α : Type} {f : α → Instr} {l : List α} (h : ∀ x, (f x).cls = none) : Events (l.map f) :=
  List.forall_mem_map.mpr fun x _ => h x
theorem events_filterMap {α : Type} {f : α → Option Instr} {l : List α} (h : ∀ x i, f x = some i → i.cls = none) :
    Events (l.filterMap f) := fun i hi =>
  have ⟨x, _, hx⟩ := List.mem_filterMap.mp hi
  h x i hx
theorem events_flatten {α : Type} {f : α → List Instr} {l : List α} (h : ∀ x, Events (f x)) : Events (l.map f).flatten := fun i hi =>
  have ⟨_, hm, hi⟩ := List.mem_flatten.mp hi
  have ⟨x, _, hx⟩ := List.mem_map.mp hm
  h x i (hx ▸ hi)

theorem HostCmd.event_cls {c : HostCmd} {i : Instr} (h : c.event = some i) : i.cls = none := by
  unfold HostCmd.event at h
  dsimp only at h
  split at h <;> cases h <;> rfl
theorem State.hostEvents_events (s : State) : Events s.hostEvents := by
  refine events_append (events_append ?_ ?_) (events_map fun _ => rfl)
  · split
    · exact events_nil
    · exact events_singleton rfl
  · split
    · split
      · exact events_singleton rfl
      · exact fun i hi => HostCmd.event_cls (Option.mem_toList.mp hi)
    · exact events_nil
theorem State.landings_events (s : State) (ds : List (Nat × Nat)) : Events (s.landings ds) :=
  events_flatten fun _ => events_flatten fun _ => events_map fun _ => rfl
theorem HomeReq.event_cls (q : HomeReq) : q.event.cls = none := by
  unfold HomeReq.event
  split <;> rfl
theorem State.homeEvents_events (s : State) : Events s.homeEvents := by
  refine events_append (events_append (events_append (events_append (events_map HomeReq.event_cls) (events_map fun _ => rfl))
    (events_flatten fun _ => events_map fun _ => rfl)) (events_filterMap fun f i h => ?_)) (events_map fun _ => rfl)
  obtain ⟨r, _, h⟩ := Option.bind_eq_some_iff.mp h
  dsimp only at h
  split at h <;> cases h
  rfl
theorem State.vcEvents_events (s : State) : Events s.vcEvents := by
  refine events_append (events_filterMap fun c i h => ?_) (events_map fun _ => rfl)
  split at h
  · split at h
    · obtain ⟨_, _, rfl⟩ := Option.map_eq_some_iff.mp h
      rfl
    · cases h
  · split at h
    · obtain ⟨_, _, rfl⟩ := Option.map_eq_some_iff.mp h
      rfl
    · cases h
  · split at h <;> cases h
    rfl
  · cases h
theorem State.engineEvents_events (s : State) (ds : List (Nat × Nat)) : Events (s.engineEvents ds) := by
  refine events_append (events_append (events_append (events_append (events_append (events_map fun _ => rfl) (events_map fun _ => rfl))
    (events_map fun _ => rfl)) (events_map fun m => ?_)) (events_map fun _ => rfl)) (events_flatten fun _ => events_map fun _ => rfl)
  split <;> rfl
theorem State.preempts_events (s : State) (l : Launch) : Events (s.preempts l) := by
  unfold State.preempts
  split
  · exact events_nil
  · exact events_map fun _ => rfl
theorem State.distEvents_events (s : State) : Events s.distEvents := by
  refine events_append (events_append (events_append (events_append (events_append (events_append (events_append (events_append
    (events_flatten fun _ => events_map fun _ => rfl) (events_map fun _ => rfl)) (events_map fun _ => rfl)) (events_map fun _ => rfl))
    (events_map fun _ => rfl)) (events_filterMap fun k i h => ?_)) (events_filterMap fun k i h => ?_)) (events_map fun _ => rfl))
    (events_flatten s.preempts_events)
  all_goals
    obtain ⟨_, _, rfl⟩ := Option.map_eq_some_iff.mp h
    rfl
theorem State.issueEvents_events (s : State) : Events s.issueEvents := events_map fun _ => rfl
theorem State.openEvents_events (s : State) (ds : List (Nat × Nat)) : Events (s.openEvents ds) := by
  refine events_filterMap fun o i h => ?_
  split at h
  · obtain ⟨k, _, h⟩ := Option.bind_eq_some_iff.mp h
    split at h
    · obtain ⟨_, _, rfl⟩ := Option.map_eq_some_iff.mp h
      rfl
    · cases h
  · cases h
theorem State.idleEvents_events (s : State) (ds : List (Nat × Nat)) : Events (s.idleEvents ds) := by
  refine events_flatten fun k => events_filterMap fun t i h => ?_
  split at h
  · split at h <;> cases h
    rfl
  · split at h <;> cases h
    rfl
  · split at h <;> cases h
    rfl
  · cases h
theorem State.candidates_events (s : State) : Events s.candidates :=
  events_append (events_append (events_append (events_append (events_append (events_append (events_append (events_append
    s.hostEvents_events (s.landings_events _)) s.homeEvents_events) s.vcEvents_events) (s.engineEvents_events _)) s.distEvents_events)
    s.issueEvents_events) (s.idleEvents_events _)) (s.openEvents_events _)
theorem State.autonomous_cls {s : State} {i : Instr} (h : s.autonomous = some i) : i.cls = none := by
  unfold State.autonomous at h
  rw [lget_eq_getElem?] at h
  exact s.candidates_events i (List.mem_of_getElem? h)

theorem Instr.cls_of_isEvent {i : Instr} (h : i.isEvent = true) : i.cls = none := by
  cases i <;> cases h <;> rfl

/-- Settles O57: what a step runs is an event, or an instruction that the front group or the front sequencer issues. -/
theorem everyStepGoesOn : Obligations.EveryStepGoesOn := by
  intro s
  show GoesOn (step s)
  unfold step
  split
  · rename_i i rest _
    by_cases h : i.isEvent = true
    · rw [if_pos h]
      exact goesOn_finish (exec_goesOn_of_event (Instr.cls_of_isEvent h) _)
    · rw [if_neg h]
      exact goesOn_next _
  · split
    · rename_i i hi
      split at hi
      · exact goesOn_finish (exec_goesOn_of_event (State.autonomous_cls hi) _)
      · cases hi
    · exact goesOn_finish (issueFront_goesOn _)

end Sys2Proof.Machine
end

section
/-! PROOFS. The end of an instruction that stops no thread (spec/02_execution.md R34, spec/04_encoding.md R101), and the statement about it
(O11). -/

namespace Sys2Proof.Machine
open Sys2Proof.Safety

theorem TStatus.isIssuing_iff {x : TStatus} : x.isIssuing = true ↔ x = .issuing := by
  cases x <;> simp [TStatus.isIssuing]
theorem StandsAt.of_goto {s : State} {b tl : Nat} {t : Thread} {pc : DWord} {cyc : Nat} (h : s.thread b tl = t.goto pc cyc) :
    StandsAt s b tl pc := by
  rw [StandsAt, h]
  exact ⟨rfl, rfl, rfl⟩

/-! ### The end of a clause -/

/-- At the end of its clause a thread that no KILLF has marked stands ready at its program counter. -/
theorem endClause_cons {s : State} {g : Group} {k : Block} {p : Nat × Nat} {l : List (Nat × Nat)} (hk : s.block g.blk = some k)
    (h : (k.thread p.2).kill = false) :
    endClause s g (p :: l) = endClause (s.modThread g.blk p.2 fun t => t.goto t.pc (s.quad k.core).cyc) g l := by
  simp only [endClause, List.foldl_cons, hk, State.thread_of_block hk, h]
  rfl
theorem endClause_thread_other {s : State} {g : Group} {k : Block} {tl : Nat} {l : List (Nat × Nat)} (hk : s.block g.blk = some k)
    (hl : ∀ p ∈ l, p.2 < k.threads.length ∧ (k.thread p.2).kill = false) (hn : (l.map (·.2)).Nodup) (ht : tl ∉ l.map (·.2)) :
    (endClause s g l).thread g.blk tl = k.thread tl := by
  induction l generalizing s k with
  | nil => exact State.thread_of_block hk
  | cons p r ih =>
    rw [endClause_cons hk (hl p List.mem_cons_self).2]
    let f : Thread → Thread := fun t => t.goto t.pc (s.quad k.core).cyc
    have hk' : (s.modThread g.blk p.2 f).block g.blk = some (k.modThread p.2 f) := by
      rw [State.block_modThread_same, hk, Option.map_some]
    rw [List.map_cons, List.mem_cons, not_or] at ht
    rw [List.map_cons, List.nodup_cons] at hn
    rw [ih hk' ?_ hn.2 ht.2, Block.thread_modThread_other _ _ _ _ ht.1]
    intro q hq
    have hne : q.2 ≠ p.2 := fun e => hn.1 (e ▸ List.mem_map_of_mem hq)
    rw [Block.modThread_length, Block.thread_modThread_other _ _ _ _ hne]
    exact hl q (List.mem_cons_of_mem p hq)
theorem endClause_standsAt {s : State} {g : Group} {k : Block} {l : List (Nat × Nat)} (hk : s.block g.blk = some k)
    (hl : ∀ p ∈ l, p.2 < k.threads.length ∧ (k.thread p.2).kill = false) (hn : (l.map (·.2)).Nodup) {p : Nat × Nat} (hp : p ∈ l) :
    StandsAt (endClause s g l) g.blk p.2 (k.thread p.2).pc := by
  induction l generalizing s k with
  | nil => cases hp
  | cons q r ih =>
    rw [endClause_cons hk (hl q List.mem_cons_self).2]
    let f : Thread → Thread := fun t => t.goto t.pc (s.quad k.core).cyc
    have hk' : (s.modThread g.blk q.2 f).block g.blk = some (k.modThread q.2 f) := by
      rw [State.block_modThread_same, hk, Option.map_some]
    rw [List.map_cons, List.nodup_cons] at hn
    have hne : ∀ x ∈ r, x.2 ≠ q.2 := fun x hx e => hn.1 (e ▸ List.mem_map_of_mem hx)
    have hl' : ∀ x ∈ r, x.2 < (k.modThread q.2 f).threads.length ∧ ((k.modThread q.2 f).thread x.2).kill = false := by
      intro x hx
      rw [Block.modThread_length, Block.thread_modThread_other _ _ _ _ (hne x hx)]
      exact hl x (List.mem_cons_of_mem q hx)
    rcases List.mem_cons.mp hp with rfl | hp
    · refine StandsAt.of_goto (t := k.thread p.2) (cyc := (s.quad k.core).cyc) ?_
      rw [endClause_thread_other hk' hl' hn.2 hn.1, Block.thread_modThread_same _ _ _ (hl p List.mem_cons_self).1]
    · have h := ih hk' hl' hn.2 hp
      rwa [Block.thread_modThread_other _ _ _ _ (hne p hp)] at h

/-! ### KILLFs that wait -/

/-- Waking the KILLFs of a block touches no thread that stands ready. -/
theorem State.thread_killWake_of_ready {s : State} {b tl : Nat} (h : (s.thread b tl).status = .ready) :
    (s.killWake b).thread b tl = s.thread b tl := by
  have hb : (s.killWake b).block b = (s.block b).map _ := State.block_modBlock_same s b _ fun _ => rfl
  rw [State.thread, hb]
  cases hk : s.block b with
  | none => simp [State.thread, hk]
  | some k =>
    rw [State.thread_of_block hk] at h ⊢
    simp only [Option.map_some, Block.thread, lget_map] at h ⊢
    cases ht : lget k.threads tl with
    | none => rfl
    | some t =>
      simp only [ht, Option.getD_some] at h
      simp [h]
theorem StandsAt.killWake {s : State} {b tl : Nat} {a : DWord} (h : StandsAt s b tl a) : StandsAt (s.killWake b) b tl a := by
  rwa [StandsAt, State.thread_killWake_of_ready h.1]

/-! ### The end of an instruction -/

section
variable {s : State} {g : Group} {k : Block} {rest : List Open} (ho : s.opens = .grp g :: rest) (hk : s.block g.blk = some k)
  (hi : ∀ p ∈ g.lanes, (k.thread p.2).status = .issuing)
include ho hk hi

/-- Every lane of the group still issues after an instruction that stops none. -/
theorem finishInstr_unstopped : finishInstr s g [] =
    if g.lanes.isEmpty then { s.useFree with opens := rest }
    else if g.isLast then ({ endClause s.useFree g g.lanes with opens := rest }).killWake g.blk
    else { s.useFree with opens := .grp { g with idx := g.idx + 1, part := [] } :: rest } := by
  have hl : g.lanes.filter (fun l => (s.useFree.thread g.blk l.2).status.isIssuing) = g.lanes := by
    refine List.filter_eq_self.mpr fun p hp => ?_
    rw [State.thread_of_block (s := s.useFree) hk, hi p hp]
    rfl
  simp only [finishInstr, splitGroup_nil, enterTraps, List.map_nil, List.foldl_nil, State.useFree_opens, ho, beq_self_eq_true, if_true,
    hl]
theorem finishInstr_goesOn (hne : g.lanes ≠ []) (h : g.idx < g.head.count) :
    finishInstr s g [] = { s.useFree with opens := .grp { g with idx := g.idx + 1, part := [] } :: rest } := by
  rw [finishInstr_unstopped ho hk hi, if_neg (by simpa using hne), if_neg (by simpa [Group.isLast] using h)]
theorem finishInstr_ends (hne : g.lanes ≠ []) (h : g.head.count ≤ g.idx) :
    finishInstr s g [] = ({ endClause s.useFree g g.lanes with opens := rest }).killWake g.blk := by
  rw [finishInstr_unstopped ho hk hi, if_neg (by simpa using hne), if_pos (by simpa [Group.isLast] using h)]
end

/-- Settles O11: the group's counter is raised, or the end of the clause puts each lane's thread at its program counter. -/
theorem instructionEnds : Obligations.InstructionEnds := by
  intro s g k rest ho hk hg hn hne
  have hi : ∀ p ∈ g.lanes, (k.thread p.2).status = .issuing := fun p hp =>
    have ⟨_, issuing, _⟩ := hg p hp
    issuing
  refine ⟨still_finishInstr s g fun p hp _ => ?_, fun h => ?_, fun h => ?_⟩
  · rw [State.thread_of_block hk]
    exact (hg p hp).2.2
  · rw [finishInstr_goesOn ho hk hi hne h]
    exact ⟨rfl, fun _ _ => rfl⟩
  · rw [finishInstr_ends ho hk hi hne h]
    refine ⟨rfl, fun p hp => StandsAt.killWake ?_⟩
    exact endClause_standsAt (s := s.useFree) hk (fun q hq => ⟨(hg q hq).1, (hg q hq).2.2⟩) hn hp

end Sys2Proof.Machine
end

section
/-! PROOFS. EXIT, JSET, JWAIT and YIELD (spec/05_core_integer.md R170, R171; spec/02_execution.md R46, R47): what the end of a thread
leaves of it, what a lane of each of the four does, and the statement about them (O13). -/

namespace Sys2Proof.Machine
open Sys2Proof.Safety

/-! ### Folds over the state -/

/-- What every step of a fold keeps, the fold keeps. -/
theorem foldl_keeps {α : Type} {P : State → Prop} {f : State → α → State} {l : List α} (h : ∀ s, ∀ x ∈ l, P s → P (f s x)) {s : State}
    (hs : P s) : P (l.foldl f s) := by
  induction l generalizing s with
  | nil => exact hs
  | cons x r ih =>
    rw [List.foldl_cons]
    exact ih (fun s y hy => h s y (List.mem_cons_of_mem x hy)) (h s x List.mem_cons_self hs)

/-! ### An ended thread stays ended while joins and barriers are checked -/

theorem State.acquireInval_blocks (s : State) (c : CoreRef) (offDie offGroup : Bool) : (s.acquireInval c offDie offGroup).blocks = s.blocks := by
  unfold State.acquireInval
  dsimp only
  split
  · split <;> rfl
  · rfl
theorem State.podArrive_blocks (s : State) (gid src : Nat) : (s.podArrive gid src).blocks = s.blocks := by
  unfold State.podArrive
  split
  · split
    · dsimp only
      split
      · exact foldl_keeps (P := fun t => t.blocks = s.blocks) (fun t p _ h => (t.sendFlit_blocks ..).trans h) rfl
      · rfl
    · rfl
  · rfl
theorem State.thread_of_blocks {s t : State} (h : t.blocks = s.blocks) (b tl : Nat) : t.thread b tl = s.thread b tl := by
  simp only [State.thread, State.block, h]

theorem State.thread_setBlock_same {s : State} {k j : Block} {b : Nat} (hid : k.id = b) (h : s.block b = some j) (tl : Nat) :
    (s.setBlock k).thread b tl = k.thread tl := by
  subst hid
  exact State.thread_of_block (State.block_setBlock_same h)
/-- A join barrier that completes gives its threads their fragment back; it ends or wakes no ended thread. -/
theorem State.joinCheck_ended {s : State} {b tl : Nat} (h : (s.thread b tl).status = .ended) :
    ((s.joinCheck b).thread b tl).status = .ended := by
  unfold State.joinCheck
  cases hk : s.block b with
  | none => exact h
  | some k =>
    rw [State.thread_of_block hk] at h
    dsimp only
    rw [State.thread_setBlock_same ?_ hk]
    · simp only [Block.thread, lget_zipIdx_map] at h ⊢
      cases ht : lget k.threads tl with
      | none => rw [ht] at h; exact h
      | some t =>
        rw [ht, Option.getD_some] at h
        simp only [Option.map_some, Option.getD_some, h]
        split
        · rfl
        · exact h
    · exact (State.block_id hk : k.id = b)
/-- Leaving a barrier changes the thread that leaves only. -/
theorem State.leaveBar_thread_other (s : State) {b tl c u : Nat} (scope bid : Nat) (h : c ≠ b ∨ u ≠ tl) :
    (s.leaveBar b tl scope bid).thread c u = s.thread c u := by
  unfold State.leaveBar
  split
  · rfl
  · dsimp only
    rw [State.thread_modThread_other _ _ _ _ _ _ h]
    split
    · exact State.thread_of_blocks (State.acquireInval_blocks ..) c u
    · rfl
theorem State.releaseBar_ended {s : State} {b tl : Nat} (v : BarInst) (ph : Nat) (h : (s.thread b tl).status = .ended) :
    ((s.releaseBar v ph).thread b tl).status = .ended := by
  unfold State.releaseBar
  refine foldl_keeps (P := fun t => (t.thread b tl).status = .ended) (fun t p hp ht => ?_) h
  have hne : b ≠ p.1 ∨ tl ≠ p.2 := by
    by_contra e
    obtain ⟨rfl, rfl⟩ : b = p.1 ∧ tl = p.2 := by omega
    have := (List.mem_filter.mp hp).2
    simp [h] at this
  rwa [State.leaveBar_thread_other t _ _ hne]
theorem State.barCheck_ended {s : State} {b tl : Nat} (scope owner inst bid : Nat) (h : (s.thread b tl).status = .ended) :
    ((s.barCheck scope owner inst bid).thread b tl).status = .ended := by
  unfold State.barCheck
  dsimp only
  split
  · split
    · split
      · exact h
      · rwa [State.thread_of_blocks (State.podArrive_blocks ..)]
    · exact State.releaseBar_ended _ _ h
  · exact h
theorem State.barCheckAll_ended {s : State} {b tl : Nat} (owner podgrp : Nat) (h : (s.thread b tl).status = .ended) :
    ((s.barCheckAll owner podgrp).thread b tl).status = .ended :=
  foldl_keeps (P := fun t => (t.thread b tl).status = .ended) (fun _ _ _ ht => State.barCheck_ended _ _ _ _ ht) h
theorem State.endThread_ended {s : State} {b tl : Nat} {k : Block} (hk : s.block b = some k) (ht : tl < k.threads.length) :
    ((s.endThread b tl).thread b tl).status = .ended := by
  simp only [State.endThread, hk]
  refine State.barCheckAll_ended _ _ (State.joinCheck_ended ?_)
  let gone : Thread → Thread := fun t =>
    { t with status := .ended, ops := [], mark := none, boost := none, boostNew := none, pendSf := none }
  let f : Block → Block := fun k => { k.modThread tl gone with sbuf := k.sbuf.filter fun e => e.tl != tl }
  have hb : (s.modBlock b f).block b = some (f k) := by
    rw [State.block_modBlock_same s b f fun _ => rfl, hk, Option.map_some]
  have h : ((s.modBlock b f).thread b tl).status = .ended := by
    rw [State.thread_of_block hb]
    show ((k.modThread tl gone).thread tl).status = .ended
    rw [Block.thread_modThread_same _ _ _ ht]
  exact h

/-! ### EXIT (R170) -/

/-- What a lane of an EXIT does. -/
def exitLane (e : Env) (s : State) : LaneOut :=
  if !(s.thread e.k.id e.tl).idle || s.arriving e.k.id e.tl then
    (e.upd s fun t => { t with status := .exiting, pc := e.iaddr, hdr := e.g.hdr }, none)
  else
    match s.commitThread e.k.id e.tl with
    | (s, false) => (s, some .hold)
    | (s, true) =>
      match (s.thread e.k.id e.tl).pendSf with
      | some (va, _, d) => (s, some (.trap cWriteProtect d va false true))
      | none => (s.endThread e.k.id e.tl, none)
theorem exec_exit (f : FB) (s : State) : exec (.exit f) s = issue (.exit f) f.pred f.pneg none exitLane s := rfl

/-- A thread that may end is idle, and none of its arrivals is uncounted. -/
theorem mayEnd_iff_idle {e : Env} {s : State} :
    mayEnd e s ↔ (!(s.thread e.k.id e.tl).idle || s.arriving e.k.id e.tl) = false := by
  simp [mayEnd, me, Thread.idle]
theorem opsEmpty_and_not_arriving_iff {e : Env} {s : State} : ((me e s).ops.isEmpty && !s.arriving e.k.id e.tl) = true ↔ mayEnd e s := by
  simp [mayEnd]
theorem exitLane_waits {e : Env} {s : State} (h : ¬ mayEnd e s) :
    exitLane e s = (e.upd s fun t => { t with status := .exiting, pc := e.iaddr, hdr := e.g.hdr }, none) := by
  rw [exitLane, if_pos (Bool.of_not_eq_false fun w => h (mayEnd_iff_idle.mpr w))]
theorem exitLane_ends {e : Env} {s : State} (h : mayEnd e s) (hc : (s.commitThread e.k.id e.tl).2 = true)
    (hf : (me e (s.commitThread e.k.id e.tl).1).pendSf = none) :
    exitLane e s = ((s.commitThread e.k.id e.tl).1.endThread e.k.id e.tl, none) := by
  rw [exitLane, if_neg (ne_true_of_eq_false (mayEnd_iff_idle.mp h))]
  rcases hu : s.commitThread e.k.id e.tl with ⟨u, done⟩
  rw [hu] at hc hf
  obtain rfl : done = true := hc
  simp only [show (u.thread e.k.id e.tl).pendSf = none from hf]
theorem exitLane_traps {e : Env} {s : State} {va : DWord} {n : Nat} {d : Word} (h : mayEnd e s)
    (hc : (s.commitThread e.k.id e.tl).2 = true) (hf : (me e (s.commitThread e.k.id e.tl).1).pendSf = some (va, n, d)) :
    exitLane e s = ((s.commitThread e.k.id e.tl).1, some (.trap 0x088 d va false true)) := by
  rw [exitLane, if_neg (ne_true_of_eq_false (mayEnd_iff_idle.mp h))]
  rcases hu : s.commitThread e.k.id e.tl with ⟨u, done⟩
  rw [hu] at hc hf
  obtain rfl : done = true := hc
  simp only [show (u.thread e.k.id e.tl).pendSf = some (va, n, d) from hf]
  rfl
/-- A thread that waits at an EXIT ends as one that finds its slots idle there does. -/
theorem State.tryExit_ends {s : State} {b tl : Nat} (hs : (s.thread b tl).status = .exiting) (ho : (s.thread b tl).ops = [])
    (ha : s.arriving b tl = false) (hc : (s.commitThread b tl).2 = true) (hf : ((s.commitThread b tl).1.thread b tl).pendSf = none) :
    s.tryExit b tl = (s.commitThread b tl).1.endThread b tl := by
  simp only [State.tryExit, hs, Thread.idle, ho, ha, List.isEmpty_nil, Bool.not_true, Bool.or_self, Bool.false_eq_true, if_false]
  rcases hu : s.commitThread b tl with ⟨u, done⟩
  rw [hu] at hc hf
  obtain rfl : done = true := hc
  simp only [hf]

/-! ### JSET (R171; spec/02_execution.md R46) -/

/-- What a lane of a JSET does: the first participant sets the barrier for all. -/
def jsetLane (f : FB) (e : Env) (s : State) : LaneOut :=
  match e.parts with
  | p :: _ => if p.2 == e.tl then
      (s.modBlock e.k.id fun k => k.jset f.j.toNat (e.parts.map (·.2)) e.th (s.quad e.k.core).cyc, none) else (s, none)
  | [] => (s, none)
theorem exec_jset (f : FB) (s : State) : exec (.jset f) s = issue (.jset f) f.pred f.pneg none (jsetLane f) s := rfl
theorem jsetLane_eq (f : FB) (e : Env) (s : State) : jsetLane f e s =
    (if e.parts.head?.map (·.2) = some e.tl then
      s.modBlock e.k.id fun k => k.jset f.j.toNat (e.parts.map (·.2)) e.th (s.quad e.k.core).cyc else s, none) := by
  unfold jsetLane
  split
  · rename_i p r hp
    simp only [hp, beq_iff_eq, List.head?_cons, Option.map_some, Option.some.injEq]
    split <;> rfl
  · rename_i hp
    simp [hp]
/-- JSET replaces the barriers j of which any participant is expected. -/
theorem Block.jset_joins (k : Block) (j : Nat) {parts : List Nat} (t : Thread) (cyc : Nat) (h : parts ≠ []) :
    (k.jset j parts t cyc).joins = (k.joins.filter fun b => !(b.j == j && b.expected.any fun x => parts.contains x)) ++
      [⟨j, parts, [], t.fid, t.parent, t.sib⟩] := by
  simp only [Block.jset, List.isEmpty_iff, h, if_false]
  congr 1
  refine List.filter_congr fun b hb => congrArg not ?_
  rw [Bool.eq_iff_iff, List.contains_iff_mem, List.mem_filter]
  exact and_iff_right hb
/-- With no older barrier of a participant there is no thread to release. -/
theorem Block.jset_threads {k : Block} {j : Nat} {parts : List Nat} (t : Thread) (cyc : Nat)
    (h : ∀ b ∈ k.joins, b.j = j → ∀ x ∈ b.expected, x ∉ parts) : (k.jset j parts t cyc).threads = k.threads := by
  have hold : (k.joins.filter fun b => b.j == j && b.expected.any fun t => parts.contains t) = [] := by
    refine List.filter_eq_nil_iff.mpr fun b hb => ?_
    simpa using h b hb
  simp only [Block.jset, hold, List.any_nil, Bool.false_eq_true, if_false, List.zipIdx_map_fst]

/-! ### JWAIT and YIELD (R171) -/

/-- As `completes_of_issue`, of the issue alone. -/
theorem issue_completes {i : Instr} {pred : BitVec 3} {pneg : Bool} {sb : Option Nat} {lane : Env → State → LaneOut}
    {ok : Env → State → Prop} {eff : Env → State → State} (hl : ∀ e s, ok e s → lane e s = (eff e s, none)) {s : State} {g : Group}
    {k : Block} (h : Ready i pred pneg s g k) (hr : Room sb k (activeLanes k g pred pneg))
    (hok : LanesOk i k (laneEnv pred pneg s g k) ok eff (activeLanes k g pred pneg) s) :
    issue i pred pneg sb lane s =
      .next (finishInstr (afterLanes i k (laneEnv pred pneg s g k) eff (activeLanes k g pred pneg) s) g []) := by
  obtain ⟨rest, ho⟩ := opens_of_front h.front
  have hs := srcStop_filter h
  simp only [issue, ho, h.block, slotFull_of_room hr, hs.1, hs.2, runLanes_ok hl _ _ hok]
  rfl
/-- A condition that always holds holds of every lane. -/
theorem lanesOk_true {i : Instr} {k : Block} {env : Nat × Nat → Env} {eff : Env → State → State} (l : List (Nat × Nat)) (s : State) :
    LanesOk i k env (fun _ _ => True) eff l s := by
  induction l generalizing s with
  | nil => trivial
  | cons p r ih => exact ⟨trivial, ih _⟩
theorem room_none (k : Block) (l : List (Nat × Nat)) : Room none k l := fun _ h => nomatch h

/-- What a lane of a JWAIT does. -/
def jwaitLane (f : FB) (e : Env) (s : State) : LaneOut :=
  if e.k.jexpects f.j.toNat e.tl then
    ((e.block s (.jwait f.j.toNat)).modBlock e.k.id fun k => k.jarrive f.j.toNat e.tl, none)
  else (s, none)
/-- What it leaves. -/
def jwaitEff (f : FB) (e : Env) (s : State) : State :=
  if e.k.joins.any (fun b => b.j == f.j.toNat && b.expected.contains e.tl) then
    (waits e s (.jwait f.j.toNat)).modBlock e.k.id fun k => k.jarrive f.j.toNat e.tl
  else s
theorem jwaitLane_eq (f : FB) (e : Env) (s : State) : jwaitLane f e s = (jwaitEff f e s, none) := by
  unfold jwaitLane jwaitEff Block.jexpects
  split <;> rfl
theorem exec_jwait (f : FB) (s : State) : exec (.jwait f) s = andThen (fun t => match s.opens with
    | .grp g :: _ => t.joinCheck g.blk
    | _ => t) (issue (.jwait f) f.pred f.pneg none (jwaitLane f) s) := rfl
/-- The barrier is checked once the lanes have arrived at it. -/
theorem exec_jwait_checks {f : FB} {s : State} {g : Group} {k : Block} (h : Ready (.jwait f) f.pred f.pneg s g k) :
    exec (.jwait f) s = .next ((finishInstr (afterLanes (.jwait f) k (laneEnv f.pred f.pneg s g k) (jwaitEff f)
      (activeLanes k g f.pred f.pneg) s) g []).joinCheck g.blk) := by
  obtain ⟨rest, ho⟩ := opens_of_front h.front
  rw [exec_jwait, issue_completes (fun e s _ => jwaitLane_eq f e s) h (room_none _ _) (lanesOk_true _ s)]
  simp only [andThen, ho]

/-- What a lane of a YIELD does. -/
def yieldEff (e : Env) (s : State) : State :=
  if (e.s0.yieldOthers e).isEmpty then s
  else e.upd s fun t => { t with
    status := .yielded (e.s0.yieldOthers e), pc := nextClause e.g, hdr := nextClause e.g, stallDone := false
    clauseEnd := (s.quad e.k.core).cyc, waitBase := 0, waitSeq := s.nextId, waitFrom := (s.quad e.k.core).cyc }
theorem exec_yield (f : FB) (s : State) :
    exec (.yield f) s = issue (.yield f) f.pred f.pneg none (fun e s => (yieldEff e s, none)) s := by
  show issue .. = _
  congr 1
  funext e s
  unfold yieldEff
  dsimp only
  split <;> rfl
/-- The threads for which a YIELD waits stand ready on the core, at its priority or a higher one. -/
theorem State.mem_yieldOthers {s : State} {e : Env} {b x : Nat} (h : (b, x) ∈ s.yieldOthers e) : ∃ k ∈ s.blocks, k.id = b ∧
    k.core = e.k.core ∧ (k.thread x).status = .ready ∧ e.th.iprio.toNat ≤ (k.thread x).nextPrio := by
  obtain ⟨l, hl, hx⟩ := List.mem_flatten.mp h
  obtain ⟨k, hk, rfl⟩ := List.mem_map.mp hl
  obtain ⟨hk, hcore⟩ := List.mem_filter.mp hk
  obtain ⟨⟨t, n⟩, hp, hbx⟩ := List.mem_map.mp hx
  obtain ⟨rfl, rfl⟩ : k.id = b ∧ n = x := by simpa using hbx
  obtain ⟨ht, hc⟩ := List.mem_filter.mp hp
  have ht : k.thread n = t := by
    rw [Block.thread, lget_eq_getElem?, List.mem_zipIdx_iff_getElem?.mp ht]
    rfl
  simp only [State.canIssue, ht, Bool.and_eq_true, decide_eq_true_eq] at hc
  obtain ⟨⟨⟨⟨⟨hr, _⟩, _⟩, _⟩, hprio⟩, _⟩ := hc
  refine ⟨k, hk, rfl, by simpa using hcore, ?_, ht ▸ hprio⟩
  rw [ht]
  revert hr
  cases t.status <;> simp [TStatus.isReady]

/-- Settles O13, instruction by instruction, from what a lane of each does. -/
theorem threadControl : Obligations.ThreadControl := by
  refine ⟨fun f => ?exit, fun f va d => ?fault, fun s b tl k hk ht => State.endThread_ended hk ht,
    fun s b tl hs ho ha hc hf => State.tryExit_ends hs ho ha hc hf, fun f => ?jset, fun k j parts t cyc h => ?barriers,
    fun f s g k h => exec_jwait_checks h, fun f => completes_of_issue (exec_yield f) fun _ _ _ => rfl,
    fun s e b x h => State.mem_yieldOthers h⟩
  case exit =>
    refine completes_of_issue (exec_exit f) fun e s h => ?_
    by_cases m : mayEnd e s
    · rw [exitLane_ends m (h m).1 (h m).2]
      rw [if_pos (opsEmpty_and_not_arriving_iff.mpr m)]
    · rw [exitLane_waits m]
      rw [if_neg (mt opsEmpty_and_not_arriving_iff.mp m)]
  case fault =>
    refine stopsOne_of_issue (exec_exit f) (fun e s h => ?_) fun _ _ _ => rfl
    obtain ⟨m, hc, n, hf⟩ := h
    exact exitLane_traps m hc hf
  case jset => exact completes_of_issue (exec_jset f) fun e s _ => jsetLane_eq f e s
  case barriers => exact ⟨k.jset_joins j t cyc h, Block.jset_threads t cyc⟩

end Sys2Proof.Machine
end

section
/-! PROOFS. Clause issue: the groups that the ready threads of a block make, the clause that a core opens next, what opening a clause leaves,
and the short waits before one (spec/02_execution.md R32 to R36; spec/04_encoding.md R103, R105, R122; spec/05_core_integer.md R171;
spec/08_core_sync.md R252), and the statement about them (O40). -/

namespace Sys2Proof.Machine
open Sys2Proof.Safety

/-! ### Lists -/

/-- The pieces of a list are its consecutive parts of at most w elements. -/
theorem cut_sublist {w n : Nat} {l p : List Nat} (h : p ∈ cut w n l) : p.Sublist l ∧ p.length ≤ w := by
  induction n generalizing l with
  | zero => cases h
  | succ n ih =>
    unfold cut at h
    split at h
    · cases h
    · rcases List.mem_cons.mp h with rfl | h
      · exact ⟨List.take_sublist w l, List.length_take_le w l⟩
      · exact ⟨(ih h).1.trans (List.drop_sublist w l), (ih h).2⟩
theorem cut_ne_nil {w n : Nat} (hw : 0 < w) {l p : List Nat} (h : p ∈ cut w n l) : p ≠ [] := by
  induction n generalizing l with
  | zero => cases h
  | succ n ih =>
    unfold cut at h
    split at h
    · cases h
    · rcases List.mem_cons.mp h with rfl | h
      · rename_i hl
        simp only [List.isEmpty_iff] at hl
        simp [hl]
        omega
      · exact ih h
/-- Enough pieces hold every element. -/
theorem exists_mem_cut {w n : Nat} (hw : 0 < w) {l : List Nat} (hn : l.length ≤ n) {x : Nat} (hx : x ∈ l) : ∃ p ∈ cut w n l, x ∈ p := by
  induction n generalizing l with
  | zero => simp_all
  | succ n ih =>
    have hl : l.isEmpty = false := by
      cases l with
      | nil => cases hx
      | cons a r => rfl
    rw [cut, if_neg (ne_true_of_eq_false hl)]
    rw [← List.take_append_drop w l, List.mem_append] at hx
    rcases hx with hx | hx
    · exact ⟨_, List.mem_cons_self, hx⟩
    · have hd : (l.drop w).length ≤ n := by
        rw [List.length_drop]
        omega
      obtain ⟨p, hp, hxp⟩ := ih hd hx
      exact ⟨p, List.mem_cons_of_mem _ hp, hxp⟩
theorem mem_nub {α : Type} [BEq α] [LawfulBEq α] {l : List α} {x : α} : x ∈ nub l ↔ x ∈ l := by
  have h : ∀ (l acc : List α), x ∈ l.foldl (fun acc x => if acc.contains x then acc else acc ++ [x]) acc ↔ x ∈ acc ∨ x ∈ l := by
    intro l
    induction l with
    | nil => simp
    | cons a r ih =>
      intro acc
      rw [List.foldl_cons, ih, List.mem_cons]
      split
      · rename_i ha
        have ha : a ∈ acc := List.contains_iff_mem.mp ha
        grind
      · grind
  exact (h l []).trans (by simp)

/-! ### The groups of a block (R32) -/

theorem Thread.standsWith_iff {t u : Thread} :
    t.standsWith u = true ↔ t.fid = u.fid ∧ t.pc = u.pc ∧ t.hdr = u.hdr ∧ t.faultsHere = u.faultsHere := by
  simp [Thread.standsWith, and_assoc]
theorem State.width_pos (s : State) (k : Block) : 0 < s.width k := by
  unfold State.width
  split
  · split <;> decide
  · decide
/-- The threads of a block that can issue, ascending. -/
def State.issuable (s : State) (k : Block) : List Nat := (List.range k.threads.length).filter fun tl => s.canIssue k tl
/-- Those that can be in one group with thread tl. -/
def State.matesOf (s : State) (k : Block) (tl : Nat) : List Nat :=
  (s.issuable k).filter fun u => (k.thread u).standsWith (k.thread tl)
theorem State.readyGroups_eq (s : State) (k : Block) : s.readyGroups k =
    (((s.issuable k).filter fun tl => (s.matesOf k tl).head? == some tl).map fun tl =>
      cut (s.width k) (s.issuable k).length (s.matesOf k tl)).flatten := rfl
theorem State.mem_readyGroups {s : State} {k : Block} {g : List Nat} :
    g ∈ s.readyGroups k ↔ ∃ tl ∈ s.issuable k, (s.matesOf k tl).head? = some tl ∧
      g ∈ cut (s.width k) (s.issuable k).length (s.matesOf k tl) := by
  simp only [State.readyGroups_eq, List.mem_flatten, List.mem_map, List.mem_filter, beq_iff_eq]
  constructor
  · rintro ⟨_, ⟨tl, ⟨h1, h2⟩, rfl⟩, hg⟩
    exact ⟨tl, h1, h2, hg⟩
  · rintro ⟨tl, h1, h2, hg⟩
    exact ⟨_, ⟨tl, ⟨h1, h2⟩, rfl⟩, hg⟩
theorem State.mem_issuable {s : State} {k : Block} {x : Nat} : x ∈ s.issuable k ↔ x < k.threads.length ∧ s.canIssue k x = true := by
  simp [State.issuable]
theorem State.mem_matesOf {s : State} {k : Block} {tl x : Nat} :
    x ∈ s.matesOf k tl ↔ x ∈ s.issuable k ∧ (k.thread x).standsWith (k.thread tl) = true := List.mem_filter
theorem State.readyGroups_ne_nil {s : State} {k : Block} {g : List Nat} (h : g ∈ s.readyGroups k) : g ≠ [] := by
  obtain ⟨tl, _, _, hg⟩ := State.mem_readyGroups.mp h
  exact cut_ne_nil (s.width_pos k) hg
theorem State.matesOf_pairwise (s : State) (k : Block) (tl : Nat) : (s.matesOf k tl).Pairwise (· < ·) :=
  (List.pairwise_lt_range.filter _).filter _
/-- Every thread that can issue is in a group: in that of the first thread with which it stands. -/
theorem State.exists_readyGroup {s : State} {k : Block} {x : Nat} (hx : x ∈ s.issuable k) : ∃ g ∈ s.readyGroups k, x ∈ g := by
  have hself : x ∈ s.matesOf k x := State.mem_matesOf.mpr ⟨hx, Thread.standsWith_iff.mpr ⟨rfl, rfl, rfl, rfl⟩⟩
  obtain ⟨f, r, hfr⟩ := List.exists_cons_of_ne_nil (List.ne_nil_of_mem hself)
  obtain ⟨hf, hfx⟩ := State.mem_matesOf.mp (hfr ▸ List.mem_cons_self : f ∈ s.matesOf k x)
  have same : s.matesOf k f = s.matesOf k x := by
    refine List.filter_congr fun u _ => ?_
    rw [Thread.standsWith_iff] at hfx
    simp only [Thread.standsWith, hfx]
  have hhead : (s.matesOf k f).head? = some f := by rw [same, hfr, List.head?_cons]
  have hlen : (s.matesOf k f).length ≤ (s.issuable k).length := List.length_filter_le ..
  obtain ⟨p, hp, hxp⟩ := exists_mem_cut (s.width_pos k) hlen (same ▸ hself)
  exact ⟨p, State.mem_readyGroups.mpr ⟨f, hf, hhead, hp⟩, hxp⟩
theorem State.readyGroup_stands {s : State} {k : Block} {g : List Nat} (h : g ∈ s.readyGroups k) {x : Nat} (hx : x ∈ g) :
    x < k.threads.length ∧ s.canIssue k x = true ∧ ∀ y ∈ g, (k.thread x).fid = (k.thread y).fid ∧
      (k.thread x).pc = (k.thread y).pc ∧ (k.thread x).hdr = (k.thread y).hdr := by
  obtain ⟨tl, _, _, hg⟩ := State.mem_readyGroups.mp h
  have mem : ∀ y ∈ g, y ∈ s.issuable k ∧ (k.thread y).standsWith (k.thread tl) = true :=
    fun y hy => State.mem_matesOf.mp ((cut_sublist hg).1.subset hy)
  obtain ⟨hlen, hcan⟩ := State.mem_issuable.mp (mem x hx).1
  refine ⟨hlen, hcan, fun y hy => ?_⟩
  obtain ⟨xf, xp, xh, _⟩ := Thread.standsWith_iff.mp (mem x hx).2
  obtain ⟨yf, yp, yh, _⟩ := Thread.standsWith_iff.mp (mem y hy).2
  exact ⟨xf.trans yf.symm, xp.trans yp.symm, xh.trans yh.symm⟩

/-! ### A thread that can issue (R32, R103; spec/07_core_memory.md R225) -/

theorem TStatus.isReady_iff {x : TStatus} : x.isReady = true ↔ x = .ready := by
  cases x <;> simp [TStatus.isReady]
theorem Thread.faultsHere_of_none {t : Thread} (h : t.pendSf = none) : t.faultsHere = false := by
  simp [Thread.faultsHere, h]
theorem isHeader_iff {w : DWord} : isHeader w = true ↔ w.extractLsb' 60 4 = 0b1010 := beq_iff_eq
theorem Thread.qualifies_iff {t : Thread} {h : Header} {cyc : Nat} : t.qualifies h cyc = true ↔
    (∀ o ∈ t.ops, h.sbwait.getLsbD o.slot = false) ∧ (h.stall = 0 ∨ t.stallDone = true ∨ t.clauseEnd + h.stall ≤ cyc) ∧
      (Cls.waitsAcquire h.cls = true → t.acquiring = false) := by
  have acquires : (!Cls.waitsAcquire h.cls || !t.acquiring) = true ↔ (Cls.waitsAcquire h.cls = true → t.acquiring = false) := by
    cases Cls.waitsAcquire h.cls <;> simp
  simp only [Thread.qualifies, Bool.and_eq_true, acquires]
  simp [and_assoc, or_assoc]

section
variable {s u : State} {k : Block} {x : Nat} (hp : (k.thread x).pendSf = none)
include hp

theorem State.canIssue_of_header {w : DWord} {h : Header}
    (hf : s.fetchWord k.core k.ctx (((s.launch k.launch).map (·.reloc)).getD []) (k.thread x).hdr = (some (.ok w), u))
    (hw : w.extractLsb' 60 4 = 0b1010) (hh : decodeHeader w = some h) :
    s.canIssue k x = true ↔ (k.thread x).status = .ready ∧ s.mayIssue k = true ∧ (k.thread x).fails.2 < 64 ∧
      (k.thread x).qualifies h (s.quad k.core).cyc = true := by
  simp only [State.canIssue, hf, hh, isHeader_iff.mpr hw, Thread.faultsHere_of_none hp, Bool.and_eq_true, TStatus.isReady_iff,
    Bool.not_true, Bool.false_or, decide_eq_true_eq, and_assoc]
theorem State.canIssue_of_moving
    (hf : s.fetchWord k.core k.ctx (((s.launch k.launch).map (·.reloc)).getD []) (k.thread x).hdr = (none, u)) :
    s.canIssue k x = false := by
  simp only [State.canIssue, hf, Thread.faultsHere_of_none hp, Bool.or_self, Bool.and_false]
end


/-! ### Which clause a core opens next (R33, R36) -/

/-- No group issues before itself. -/
theorem issuesBefore_self (a : Rank) : issuesBefore a a = false := by
  simp [issuesBefore]
theorem State.mem_issueEvents {s : State} {b tl : Nat} (h : Instr.clauseIssue b tl ∈ s.issueEvents) : ∃ k ∈ s.residents,
    ∃ g ∈ s.readyGroups k, k.id = b ∧ g.head? = some tl ∧ s.freeSlot k.core ≠ none ∧
      ∀ j ∈ s.residents, j.core = k.core → ∀ x ∈ s.readyGroups j, issuesBefore (j.rank x) (k.rank g) = false := by
  obtain ⟨r, hr, he⟩ := List.mem_map.mp h
  obtain ⟨c, _, hc⟩ := List.mem_filterMap.mp hr
  dsimp only at hc
  split at hc
  · cases hc
  · rename_i hslot
    have first := List.find?_some hc
    obtain ⟨⟨c', r'⟩, hm, hr'⟩ := List.mem_map.mp (List.mem_of_find?_eq_some hc)
    obtain rfl : r' = r := hr'
    obtain ⟨hmine, hcc⟩ := List.mem_filter.mp hm
    obtain ⟨l, hl, hin⟩ := List.mem_flatten.mp hmine
    obtain ⟨k, hk, rfl⟩ := List.mem_map.mp hl
    obtain ⟨g, hg, hkg⟩ := List.mem_map.mp hin
    obtain rfl : c' = c := by simpa using hcc
    obtain ⟨rfl, rfl⟩ : k.core = c' ∧ k.rank g = r' := by simpa using hkg
    obtain ⟨hb, hf⟩ : k.id = b ∧ g.headD 0 = tl := by simpa [Block.rank] using he
    refine ⟨k, hk, g, hg, hb, ?_, by simpa using hslot, fun j hj hjc x hx => ?_⟩
    · cases g with
      | nil => exact absurd rfl (State.readyGroups_ne_nil hg)
      | cons a r => exact congrArg some hf
    · have mem : j.rank x ∈ ((((s.residents.map fun k => (s.readyGroups k).map fun g => (k.core, k.rank g)).flatten).filter
          fun x => x.1 == k.core).map (·.2)) := by
        refine List.mem_map.mpr ⟨(j.core, j.rank x), List.mem_filter.mpr ⟨?_, by simpa using hjc⟩, rfl⟩
        exact List.mem_flatten.mpr ⟨_, List.mem_map.mpr ⟨j, hj, rfl⟩, List.mem_map.mpr ⟨x, hx, rfl⟩⟩
      have := List.all_eq_true.mp first _ mem
      rw [Bool.or_eq_true, beq_iff_eq, Bool.not_eq_true'] at this
      rcases this with e | e
      · rw [e, issuesBefore_self]
      · exact e
/-- A free slot is one of the four, and no group of the core issues on it. -/
theorem State.freeSlot_free {s : State} {c : CoreRef} {n : Nat} (h : s.freeSlot c = some n) :
    n < 4 ∧ ∀ g k, Open.grp g ∈ s.opens → s.block g.blk = some k → k.core = c → g.slot ≠ n := by
  have hn := List.mem_of_find?_eq_some h
  have hu := List.find?_some h
  refine ⟨by simp at hn; omega, fun g k hg hk hc e => ?_⟩
  have used : n ∈ s.slotsUsed c := by
    refine List.mem_filterMap.mpr ⟨.grp g, hg, ?_⟩
    simp [hk, hc, e]
  simp [used] at hu

/-! ### Opening a clause (R32, R33) -/

/-- Threads of a block that one pass changes, each once. -/
theorem foldl_modThread_other {α : Type} (s : State) (b : Nat) (l : List α) (tl : α → Nat) (f : α → Thread → Thread) {c x : Nat}
    (h : c ≠ b ∨ ∀ a ∈ l, tl a ≠ x) : (l.foldl (fun s a => s.modThread b (tl a) (f a)) s).thread c x = s.thread c x := by
  induction l generalizing s with
  | nil => rfl
  | cons a r ih =>
    rw [List.foldl_cons, ih _ (h.imp_right fun h y hy => h y (List.mem_cons_of_mem a hy))]
    exact State.thread_modThread_other _ _ _ _ _ _ (h.imp_right fun h => (h a List.mem_cons_self).symm)
theorem foldl_modThread_mem {α : Type} {s : State} {b : Nat} {l : List α} {tl : α → Nat} {f : α → Thread → Thread} {k : Block}
    (hk : s.block b = some k) (hn : (l.map tl).Nodup) {a : α} (ha : a ∈ l) (hl : tl a < k.threads.length) :
    (l.foldl (fun s a => s.modThread b (tl a) (f a)) s).thread b (tl a) = f a (k.thread (tl a)) := by
  induction l generalizing s k with
  | nil => cases ha
  | cons y r ih =>
    rw [List.foldl_cons]
    rw [List.map_cons, List.nodup_cons] at hn
    have hne : ∀ z ∈ r, tl z ≠ tl y := fun z hz e => hn.1 (e ▸ List.mem_map_of_mem hz)
    rcases List.mem_cons.mp ha with rfl | ha
    · rw [foldl_modThread_other _ _ _ _ _ (.inr hne), State.thread_modThread_same _ hk hl]
    · have hk' : (s.modThread b (tl y) (f y)).block b = some (k.modThread (tl y) (f y)) := by
        rw [State.block_modThread_same, hk, Option.map_some]
      rw [ih hk' hn.2 ha (by rwa [Block.modThread_length]), Block.thread_modThread_other _ _ _ _ (hne a ha)]
theorem foldl_modThread_frame {α β : Type} (φ : State → β) (hφ : ∀ s b tl f, φ (s.modThread b tl f) = φ s) (s : State) (b : Nat)
    (l : List α) (tl : α → Nat) (f : α → Thread → Thread) : φ (l.foldl (fun s a => s.modThread b (tl a) (f a)) s) = φ s := by
  induction l generalizing s with
  | nil => rfl
  | cons a r ih => rw [List.foldl_cons, ih, hφ]

/-- The lanes of a group of threads: each at its position. -/
def lanesOf (tls : List Nat) : List (Nat × Nat) := tls.zipIdx.map fun p => (p.2, p.1)
theorem lanesOf_threads (tls : List Nat) : (lanesOf tls).map (·.2) = tls := by
  rw [lanesOf, List.map_map]
  exact List.zipIdx_map_fst 0 tls
theorem mem_lanesOf {tls : List Nat} {p : Nat × Nat} : p ∈ lanesOf tls ↔ lget tls p.1 = some p.2 := by
  rw [lanesOf, List.mem_map, lget_eq_getElem?]
  constructor
  · rintro ⟨⟨x, n⟩, h, rfl⟩
    exact List.mem_zipIdx_iff_getElem?.mp h
  · exact fun h => ⟨(p.2, p.1), List.mem_zipIdx_iff_getElem?.mpr h, rfl⟩

section
variable {u : State} {b : Nat} {k : Block} (hk : u.block b = some k) (tls : List Nat) (a : DWord) (h : Header) (ws : List DWord)
  (idx slot : Nat)
include hk

theorem State.openGroup_thread_other {x : Nat} (hx : x ∉ tls) : (u.openGroup b tls a h ws idx slot).thread b x = u.thread b x := by
  simp only [State.openGroup, hk]
  refine foldl_modThread_other u b (lanesOf tls) (·.2) (fun l t => t.start l.1 (clauseNext a h) u.nextId) (.inr fun p hp e => hx ?_)
  have := List.mem_map_of_mem (f := (·.2)) hp
  rwa [lanesOf_threads, e] at this
theorem State.openGroup_thread {n x : Nat} (hn : tls.Nodup) (hx : lget tls n = some x) (hl : x < k.threads.length) :
    (u.openGroup b tls a h ws idx slot).thread b x = (k.thread x).start n (clauseNext a h) u.nextId := by
  simp only [State.openGroup, hk]
  exact foldl_modThread_mem (l := lanesOf tls) (tl := (·.2)) (f := fun l t => t.start l.1 (clauseNext a h) u.nextId) hk
    (by rwa [lanesOf_threads]) (a := (n, x)) (mem_lanesOf.mpr hx) hl
theorem State.openGroup_opens : ∃ g, (u.openGroup b tls a h ws idx slot).opens = .grp g :: u.opens ∧ g.blk = b ∧ g.hdr = a ∧ g.head = h ∧
    g.words = ws ∧ g.idx = idx ∧ g.slot = slot ∧ g.lanes = lanesOf tls := by
  simp only [State.openGroup, hk]
  refine ⟨_, congrArg₂ _ rfl ?_, rfl, rfl, rfl, rfl, rfl, rfl, rfl⟩
  exact foldl_modThread_frame (·.opens) (fun _ _ _ _ => rfl) u b (lanesOf tls) (·.2) fun l t => t.start l.1 (clauseNext a h) u.nextId
end


/-! ### Fetching a clause (R105, R122) -/

/-- A group whose first thread stands ready is told its pending fault, or its clause is fetched. -/
theorem State.clauseIssue_ready {s : State} {b tl slot : Nat} {tls : List Nat} {k : Block} (hk : s.block b = some k)
    (hs : (k.thread tl).status = .ready) (hf : s.freeSlot k.core = some slot)
    (hg : (s.readyGroups k).find? (fun g => g.contains tl) = some tls) :
    s.clauseIssue b tl = if (k.thread tl).faultsHere then s.headerFault b tls (k.thread tl).fid
      else s.fetchClause k tls (k.thread tl) slot := by
  simp only [State.clauseIssue, hk, hs, TStatus.isIssuing, Bool.false_eq_true, if_false, hf, hg]

section
variable {s : State} {k : Block} (tls : List Nat) {t : Thread} (slot : Nat)

theorem State.fetchClause_fetches {h : Header} {ws : List DWord} {u : State} (hf : FetchesClause s k t.hdr h ws u) :
    s.fetchClause k tls t slot = if h.count < (t.pc - t.hdr).toNat / 8 - 1 then u.headerTrap k.id tls 0x001 0 else
      match clauseCause h ws (u.blockFixed k) with
      | some c => u.headerTrap k.id tls c 0
      | none => u.openGroup k.id tls t.hdr h ws ((t.pc - t.hdr).toNat / 8 - 1) slot := by
  obtain ⟨w, v, hw, mark, hh, hws⟩ := hf
  simp only [State.fetchClause, hw, isHeader_iff.mpr mark, hws, hh, Bool.not_true, Bool.false_eq_true, if_false]
  by_cases late : h.count < (t.pc - t.hdr).toNat / 8 - 1
  · simp only [late, if_true] <;> rfl
  · simp only [late, if_false] <;> cases clauseCause h ws (u.blockFixed k) <;> rfl
theorem State.fetchClause_fault {c : Nat} {u : State}
    (hf : s.fetchWord k.core k.ctx (((s.launch k.launch).map (·.reloc)).getD []) t.hdr = (some (.error c), u)) :
    s.fetchClause k tls t slot = u.headerTrap k.id tls c t.hdr := by
  simp only [State.fetchClause, hf]
theorem State.fetchClause_noMark {w : DWord} {u : State}
    (hf : s.fetchWord k.core k.ctx (((s.launch k.launch).map (·.reloc)).getD []) t.hdr = (some (.ok w), u))
    (mark : w.extractLsb' 60 4 ≠ 0b1010) : s.fetchClause k tls t slot = u.headerTrap k.id tls 0x001 0 := by
  simp only [State.fetchClause, hf, Bool.eq_false_iff.mpr (mt isHeader_iff.mp mark), Bool.not_false, if_true]
  rfl

section
variable {w : DWord} {v u : State} {r : Option (Except Nat (List DWord))}
  (hf : s.fetchWord k.core k.ctx (((s.launch k.launch).map (·.reloc)).getD []) t.hdr = (some (.ok w), v))
  (mark : w.extractLsb' 60 4 = 0b1010)
  (hw : v.fetchWords k.core k.ctx (((s.launch k.launch).map (·.reloc)).getD []) (t.hdr + 8) (bits w.toNat 56 53 + 1) = (r, u))
include hf mark hw

theorem State.fetchClause_moving (hr : r = none) : s.fetchClause k tls t slot = u := by
  subst hr
  simp only [State.fetchClause, hf, isHeader_iff.mpr mark, hw, Bool.not_true, Bool.false_eq_true, if_false]
theorem State.fetchClause_wordFault {c : Nat} (hr : r = some (.error c)) :
    s.fetchClause k tls t slot = u.headerTrap k.id tls c t.hdr := by
  subst hr
  simp only [State.fetchClause, hf, isHeader_iff.mpr mark, hw, Bool.not_true, Bool.false_eq_true, if_false]
theorem State.fetchClause_badHeader {ws : List DWord} (hr : r = some (.ok ws)) (hh : decodeHeader w = none) :
    s.fetchClause k tls t slot = u.headerTrap k.id tls 0x001 0 := by
  subst hr
  simp only [State.fetchClause, hf, isHeader_iff.mpr mark, hw, hh, Bool.not_true, Bool.false_eq_true, if_false]
  rfl
end
end

/-! ### Waits before a clause (R103, R171, R252) -/

theorem execStallExpiry_elapsed {s u : State} {b tl : Nat} {k : Block} {w : DWord} (hk : s.block b = some k)
    (hs : (k.thread tl).status = .ready) (hd : (k.thread tl).stallDone = false)
    (hf : s.fetchWord k.core k.ctx (((s.launch k.launch).map (·.reloc)).getD []) (k.thread tl).hdr = (some (.ok w), u)) :
    execStallExpiry b tl s = .next ((u.reachCyc (u.quadKeyOf k.core) ((k.thread tl).clauseEnd + w.toNat / 2 ^ 40 % 16)).modThread b tl
      fun t => { t with stallDone := true }) := by
  simp only [execStallExpiry, hk, hs, hd, hf, TStatus.isReady, Bool.not_true, Bool.or_self, Bool.false_eq_true, if_false]
  rfl
theorem bmod_congr {b : Nat} {f g : Block → Block} {l : List Block} {k : Block} (hk : l.find? (fun x => x.id == b) = some k)
    (h : f k = g k) : bmod b f l = bmod b g l := by
  induction l with
  | nil => rfl
  | cons a r ih =>
    rw [List.find?_cons] at hk
    cases e : a.id == b with
    | true =>
      obtain rfl : a = k := by simpa [e] using hk
      simp [bmod, e, h]
    | false =>
      simp only [e] at hk
      simp [bmod, e, ih hk]
/-- A change of a block is what it does to the first block of that number. -/
theorem State.modBlock_congr {s : State} {b : Nat} {f g : Block → Block} {k : Block} (hk : s.block b = some k) (h : f k = g k) :
    s.modBlock b f = s.modBlock b g := by
  simp only [State.modBlock, bmod_congr hk h]
/-- Passing cycles changes no block. -/
theorem State.block_reachCyc (s : State) (key n b : Nat) : (s.reachCyc key n).block b = s.block b := by
  unfold State.block
  rw [State.reachCyc_blocks]
theorem execYieldExpiry_yielded {s : State} {b tl : Nat} {k : Block} {l : List (Nat × Nat)} (hk : s.block b = some k)
    (hs : (k.thread tl).status = .yielded l) : execYieldExpiry b tl s = .next ((s.reachCyc (s.quadKeyOf k.core)
      ((k.thread tl).waitFrom + (256 - (k.thread tl).waitBase))).modBlock b fun k => k.unyield (k.thread tl).waitSeq) := by
  simp only [execYieldExpiry, hk, hs]
  exact congrArg Host.Outcome.next (State.modBlock_congr ((State.block_reachCyc ..).trans hk) rfl)
theorem execDescheduleExpiry_descheduled {s : State} {b tl : Nat} {k : Block} (hk : s.block b = some k)
    (hs : (k.thread tl).status = .descheduled) : execDescheduleExpiry b tl s = .next ((s.reachCyc (s.quadKeyOf k.core)
      ((k.thread tl).waitFrom + (65536 - (k.thread tl).waitBase))).modThread b tl
        fun t => { t with status := .ready, fails := (t.fails.1, 0) }) := by
  simp only [execDescheduleExpiry, hk, hs]
/-- What the end of YIELD q leaves of a thread. -/
def Thread.unyielded (t : Thread) (q : Nat) : Thread :=
  match t.status with
  | .yielded _ => if t.waitSeq == q then { t with status := .ready } else t
  | _ => t
theorem Block.unyield_thread (k : Block) (q x : Nat) : (k.unyield q).thread x = (k.thread x).unyielded q := by
  show (lget (k.threads.map fun t => t.unyielded q) x).getD {} = _
  rw [lget_map, Block.thread]
  cases lget k.threads x <;> rfl
theorem Thread.unyielded_yielded {t : Thread} {q : Nat} {l : List (Nat × Nat)} (hs : t.status = .yielded l) (hq : t.waitSeq = q) :
    t.unyielded q = { t with status := .ready } := by
  simp [Thread.unyielded, hs, hq]
theorem Thread.unyielded_other {t : Thread} {q : Nat} (h : (∀ l, t.status ≠ .yielded l) ∨ t.waitSeq ≠ q) : t.unyielded q = t := by
  unfold Thread.unyielded
  split
  · rename_i l hs
    exact if_neg (by simpa using h.resolve_left fun n => n l hs)
  · rfl

/-- Settles O40: the groups that are packed, the clause that opens, and the ends of the waits before it. -/
theorem clausesOpen : Obligations.ClausesOpen := by
  refine ⟨?issues, ?groups, ?canIssue, fun s k x u hp hf => State.canIssue_of_moving hp hf, fun s b tl h => State.mem_issueEvents h,
    fun s c n h => State.freeSlot_free h, ?opens, fun s b tl k w u hk hs hd hf => execStallExpiry_elapsed hk hs hd hf,
    fun s b tl k l hk hs => execYieldExpiry_yielded hk hs, ?unyields, fun s b tl k hk hs => execDescheduleExpiry_descheduled hk hs⟩
  case issues =>
    intro s b tl slot tls k hk hs hslot hg
    have he : exec (.clauseIssue b tl) s = .next (if (k.thread tl).faultsHere then s.headerFault b tls (k.thread tl).fid
        else s.fetchClause k tls (k.thread tl) slot) := congrArg Host.Outcome.next (State.clauseIssue_ready hk hs hslot hg)
    obtain rfl : k.id = b := State.block_id hk
    refine ⟨fun hf => ?_, fun hf => ?_⟩
    · rw [he, if_pos hf]
    · rw [if_neg (ne_true_of_eq_false hf)] at he
      rw [he]
      refine ⟨fun h ws u hw => ?_, fun c u hw => ?_, fun w u hw mark => ?_, fun w v r u hw mark hws => ⟨fun hr => ?_, fun c hr => ?_,
        fun ws hr hh => ?_⟩⟩ <;> refine congrArg Host.Outcome.next ?_
      · exact State.fetchClause_fetches tls slot hw
      · exact State.fetchClause_fault tls slot hw
      · exact State.fetchClause_noMark tls slot hw mark
      · exact State.fetchClause_moving tls slot hw mark hws hr
      · exact State.fetchClause_wordFault tls slot hw mark hws hr
      · exact State.fetchClause_badHeader tls slot hw mark hws hr hh
  case groups =>
    intro s k
    refine ⟨fun g hg => ?_, fun x hx hc => State.exists_readyGroup (State.mem_issuable.mpr ⟨hx, hc⟩)⟩
    obtain ⟨tl, _, _, hcut⟩ := State.mem_readyGroups.mp hg
    exact ⟨State.readyGroups_ne_nil hg, (cut_sublist hcut).2, (s.matesOf_pairwise k tl).sublist (cut_sublist hcut).1,
      fun x hx => State.readyGroup_stands hg hx⟩
  case canIssue =>
    intro s k x w h u hf mark hh hp
    rw [State.canIssue_of_header hp hf mark hh, Thread.qualifies_iff]
  case opens =>
    intro u b slot k tls a h ws idx hk hn hl
    refine ⟨State.openGroup_opens hk tls a h ws idx slot, fun n x hx => ?_,
      fun x hx => State.openGroup_thread_other hk tls a h ws idx slot hx, State.openGroup_mem ..⟩
    have hx' : x ∈ tls := List.mem_of_getElem? (lget_eq_getElem? tls n ▸ hx)
    rw [State.openGroup_thread hk tls a h ws idx slot hn hx (hl x hx')]
    exact ⟨rfl, rfl, rfl⟩
  case unyields =>
    intro k q x
    rw [Block.unyield_thread]
    exact ⟨fun l hs hq => Thread.unyielded_yielded hs hq, Thread.unyielded_other⟩

end Sys2Proof.Machine
end

section
/-! PROOFS. Placing blocks, completion records and the evaluation of a pipeline (spec/02_execution.md R54 to R56;
spec/10_distributor.md R276 to R278, R285), and the statement about them (O46). -/

namespace Sys2Proof.Machine
open Sys2Proof.Safety

/-! ### Launches and their cores -/

theorem bit_eq_testBit (v n : Nat) : bit v n = v.testBit n := by
  rw [bit, Nat.testBit_eq_decide_div_mod_eq]
  rfl
theorem State.launch_id {s : State} {n : Nat} {l : Launch} (h : s.launch n = some l) : l.id = n :=
  beq_iff_eq.mp (List.find?_some (p := fun x : Launch => x.id == n) h)
theorem State.launch_modLaunch_same {s : State} {n : Nat} {l : Launch} {f : Launch → Launch} (h : s.launch n = some l) (hf : ∀ x, (f x).id = x.id) :
    (s.modLaunch n f).launch n = some (f l) := by
  have hfind : ∀ L : List Launch, (L.map fun x => if x.id == n then f x else x).find? (fun x => x.id == n) = (L.find? fun x => x.id == n).map f := by
    intro L
    induction L with
    | nil => rfl
    | cons x L ih =>
      rw [List.map_cons, List.find?_cons, List.find?_cons, ih]
      cases hx : x.id == n
      · simp only [Bool.false_eq_true, if_false, hx]
      · simp only [if_true, hf, hx, Option.map_some]
  simp only [State.launch] at h ⊢
  simp only [State.modLaunch, hfind, h, Option.map_some]

/-- What an open core is (R51). -/
theorem State.coreOpen_iff {s : State} {c : CoreRef} {fixed samp pair : Bool} : s.coreOpen c fixed samp pair = true ↔
    s.coreUsable c = true ∧ s.quadDown c = false ∧ (s.core c).drain = 0 ∧ (fixed = true → s.fixedAble c = true ∧ (s.quad c).pass = 0) ∧
      (samp = true → s.dieMap.isSd c.die = true ∧ (s.dieMap.word c.die 3).testBit (s.dieMap.quad c) = true) ∧
      (pair = true → s.dieMap.isSd c.die = true ∧ s.coreUsable (CoreRef.partner c) = true) := by
  unfold State.coreOpen
  simp only [Bool.and_eq_true, Bool.or_eq_true, Bool.not_eq_true', beq_iff_eq, bit_eq_testBit, and_assoc]
  cases fixed <;> cases samp <;> cases pair <;> simp
/-- What fits beside the blocks of a core (R50). -/
theorem fitsBeside_iff {bs : List Block} {sram regs threads : Nat} : fitsBeside bs sram regs threads = true ↔
    (bs.map Block.sram).sum + sram ≤ 458752 ∧ (bs.map Block.regBytes).sum + regs ≤ 262144 ∧ bs.length < 16 ∧
      (bs.map Block.nthreads).sum + threads ≤ 2048 := by
  simp only [fitsBeside, Bool.and_eq_true, decide_eq_true_eq, and_assoc]
theorem State.mem_choices {s : State} {l : Launch} {k : Kernel} (hl : l.stageK = []) (hk : lget l.kernels l.kidx = some k) {p : Start × CoreRef}
    (hp : p ∈ s.choices l) : l.placed < l.nblk ∧ p.1 = { kernel := l.kidx, num := l.placed, nblk := l.nblk } ∧ p.2 ∈ s.rectOf l ∧
      s.fits l k p.2 = true := by
  unfold State.choices at hp
  simp only [hl, List.isEmpty_nil, if_true, hk] at hp
  split at hp
  case isFalse => cases hp
  case isTrue h =>
    obtain ⟨c, hc, rfl⟩ := List.mem_map.mp hp
    obtain ⟨hr, hf⟩ := List.mem_filter.mp hc
    exact ⟨h, rfl, hr, hf⟩

/-! ### Placing and starting blocks -/

theorem execBlockPlace_launch {s : State} {n : Nat} {l : Launch} (h : s.launch n = some l) : exec (.blockPlace n) s = .next (s.placeBlock l) := by
  simp only [exec, execBlockPlace, h]
section
variable {s : State} {l : Launch}
theorem State.placeBlock_stopped (h : ¬ (l.state = .running ∧ l.outState = 0)) : s.placeBlock l = s := by
  unfold State.placeBlock
  rw [if_pos]
  simpa [← Decidable.not_and_iff_not_or_not] using h
variable (hr : l.state = .running ∧ l.outState = 0)
include hr
theorem State.placeBlock_lost (h : l.placed = 0 ∧ s.routeLost l = true) : s.placeBlock l = s.refuse l.id 0x303 0 := by
  simp [State.placeBlock, hr, h, cRoutingCheck]
variable (hn : ¬ (l.placed = 0 ∧ s.routeLost l = true))
include hn
theorem State.placeBlock_coop_waits (hc : l.coop = true) {k : Kernel} (hk : lget l.kernels l.kidx = some k)
    (h : ¬ (l.placed = 0 ∧ s.coopFits l k (coopPlan l (s.rectOf l)) = true)) : s.placeBlock l = s := by
  unfold State.placeBlock
  rw [if_neg (by simp [hr]), if_neg (by simpa using hn), if_pos hc]
  simp only [hk]
  exact if_neg (by simpa using h)
theorem State.placeBlock_coop_places (hc : l.coop = true) {k : Kernel} (hk : lget l.kernels l.kidx = some k)
    (h : l.placed = 0 ∧ s.coopFits l k (coopPlan l (s.rectOf l)) = true) : s.placeBlock l =
      (coopPlan l (s.rectOf l)).foldl (fun u p => match u.launch l.id with
        | some x => u.startBlock x p.1 p.2
        | none => u) s := by
  unfold State.placeBlock
  rw [if_neg (by simp [hr]), if_neg (by simpa using hn), if_pos hc]
  simp only [hk]
  exact if_pos (by simpa using h)
theorem State.placeBlock_none (hc : l.coop = false) (h : s.choices l = []) : s.placeBlock l = s := by
  unfold State.placeBlock
  rw [if_neg (by simp [hr]), if_neg (by simpa using hn), if_neg (by simp [hc])]
  simp only [h, lget]
theorem State.placeBlock_one (hc : l.coop = false) (h : s.choices l ≠ []) :
    ∃ p ∈ s.choices l, s.placeBlock l = s.useFree.startBlock l p.1 p.2 := by
  have hi : s.freeVal.toNat % (s.choices l).length < (s.choices l).length := Nat.mod_lt _ (List.length_pos_iff.mpr h)
  refine ⟨_, List.getElem_mem hi, ?_⟩
  unfold State.placeBlock
  rw [if_neg (by simp [hr]), if_neg (by simpa using hn), if_neg (by simp [hc])]
  simp only [lget_eq_getElem?, List.getElem?_eq_getElem hi]
end
theorem State.dispatch_blocks (s : State) (l : Launch) (c : CoreRef) : (s.dispatch l c).blocks = s.blocks := State.acquireInval_blocks ..
theorem tget_zipIdx {α β : Type} (f : α → β) (l : List α) (n i : Nat) :
    tget ((l.zipIdx n).map fun p => (p.2, f p.1)) i = if n ≤ i then (lget l (i - n)).map f else none := by
  induction l generalizing n with
  | nil => simp [lget]
  | cons x l ih =>
    rw [List.zipIdx_cons, List.map_cons, tget, ih]
    rcases lt_trichotomy i n with h | rfl | h
    · simp [h.ne', h.not_ge, (h.trans (Nat.lt_succ_self n)).not_ge]
    · simp [lget]
    · obtain ⟨d, rfl⟩ := Nat.exists_eq_add_of_lt h
      simp [lget, h.ne, h.le, show n + d + 1 - n = d + 1 by omega, show n + d + 1 - (n + 1) = d by omega, show n + 1 ≤ n + d + 1 by omega]
/-- The threads of a block begin at the entry with the launch's arguments (R276). -/
theorem startThreads_begin {l : Launch} {k : Kernel} {n : Nat} {t : Thread} (h : t ∈ startThreads l k n) : t.status = .ready ∧ t.pc = k.entry ∧
    t.hdr = k.entry ∧ t.preds = 0 ∧ t.ops = [] ∧ t.lprio = l.prio ∧ ∀ i, (tget t.regs i).map (·.val) = lget l.args i := by
  obtain rfl := List.eq_of_mem_replicate h
  refine ⟨rfl, rfl, rfl, rfl, rfl, rfl, fun i => ?_⟩
  rw [tget_zipIdx (fun v => (⟨v, none⟩ : RegCell)) l.args 0 i]
  cases lget l.args i <;> simp
/-- The block that a start adds to the package's, and what it says (R55, R56). -/
theorem State.startBlock_blocks {s : State} {l : Launch} {st : Start} {c : CoreRef} {k : Kernel} (hk : lget l.kernels st.kernel = some k) :
    ∃ b, (s.startBlock l st c).blocks = s.blocks ++ [b] ∧ b.id = s.nextId ∧ b.launch = l.id ∧ b.ctx = l.ctx ∧ b.core = c ∧ b.num = st.num ∧
      b.threads = startThreads l k k.threads := by
  unfold State.startBlock
  simp only [hk, State.dispatch_blocks, State.modLaunch_blocks]
  exact ⟨_, rfl, rfl, rfl, rfl, rfl, rfl, rfl⟩

/-! ### What a write by an agent leaves alone -/

/-- t differs from s in no context, block or sync record, not in the power controller nor in the package it is: what a write to memory
leaves alone. -/
structure State.Beside (s t : State) : Prop where
  ctxs : t.ctxs = s.ctxs
  sync : t.sync = s.sync
  fabid : t.fab.fabid = s.fab.fabid
  blocks : t.blocks = s.blocks
  power : t.power = s.power
  dieMap : t.dieMap = s.dieMap
theorem State.Beside.refl (s : State) : s.Beside s := ⟨rfl, rfl, rfl, rfl, rfl, rfl⟩
theorem State.Beside.trans {s t u : State} (h : s.Beside t) (h' : t.Beside u) : s.Beside u :=
  ⟨h'.ctxs.trans h.ctxs, h'.sync.trans h.sync, h'.fabid.trans h.fabid, h'.blocks.trans h.blocks, h'.power.trans h.power,
    h'.dieMap.trans h.dieMap⟩
theorem State.Beside.pkg {s t : State} (h : s.Beside t) : t.pkg = s.pkg := by
  simp only [State.pkg, h.fabid]
theorem State.Beside.srec {s t : State} (h : s.Beside t) (g : Nat) : t.srec g = s.srec g := by
  simp only [State.srec, h.sync]
theorem foldl_beside {α : Type} {f : State → α → State} (h : ∀ (s : State) x, s.Beside (f s x)) {l : List α} {s t : State} (hs : s.Beside t) :
    s.Beside (l.foldl f t) :=
  foldl_keeps (P := s.Beside) (fun t x _ ht => ht.trans (h t x)) hs
theorem State.dropFar_eq_foldl (s : State) (g : Nat) : ∃ (l : List (BitVec 14)) (x : Tbl (List (BitVec 14))), s.dropFar g =
    (fun u : State => { u with fab := { u.fab with sharers := x } }) (l.foldl (fun u p => u.sendFlit 12 p.toNat g) s) := by
  unfold State.dropFar
  split
  case h_1 l _ => exact ⟨l, _, rfl⟩
  case h_2 => exact ⟨[], s.fab.sharers, rfl⟩
theorem State.dropFar_beside (s : State) (g : Nat) : s.Beside (s.dropFar g) := by
  obtain ⟨l, x, hl⟩ := s.dropFar_eq_foldl g
  obtain ⟨hc, hs, hf, hb, hp, hm⟩ := foldl_beside (l := l)
    (fun (s : State) (p : BitVec 14) => (⟨rfl, rfl, rfl, rfl, rfl, rfl⟩ : s.Beside (s.sendFlit 12 p.toNat g))) (.refl s)
  exact hl ▸ ⟨hc, hs, hf, hb, hp, hm⟩
theorem State.dropL2_beside (s : State) (die g : Nat) : s.Beside (s.dropL2 die g) := by
  unfold State.dropL2
  split <;> exact ⟨rfl, rfl, rfl, rfl, rfl, rfl⟩
theorem State.dropCopy_beside (s : State) (c : CoreRef) (g : Nat) : s.Beside (s.dropCopy c g) := by
  unfold State.dropCopy
  split <;> exact ⟨rfl, rfl, rfl, rfl, rfl, rfl⟩
theorem State.homeWrite_beside (s : State) (by_ : Option CoreRef) (g : Nat) (bs : Tbl Byte) (tracked : Bool) :
    s.Beside (s.homeWrite by_ g bs tracked) := by
  unfold State.homeWrite
  dsimp only
  cases tracked with
  | true =>
    rw [if_pos rfl]
    refine State.Beside.trans ?_ (State.dropFar_beside _ g)
    obtain ⟨hc, hs, hf, hb, hp, hm⟩ := foldl_beside (l := (takeDirty (by_.map coreKey) g (s.homeBytes g bs).cores).2)
      (fun (s : State) (b : Tbl Byte) => (⟨rfl, rfl, rfl, rfl, rfl, rfl⟩ : s.Beside (s.homeBytes g b)))
      (⟨rfl, rfl, rfl, rfl, rfl, rfl⟩ : s.Beside { s.homeBytes g bs with
        cores := (takeDirty (by_.map coreKey) g (s.homeBytes g bs).cores).1
        fences := (s.homeBytes g bs).fences.map fun (f : Fence) => { f with lines := f.lines.filter fun p => !(p.2 == g && by_ != some p.1) } })
    exact ⟨hc, hs, hf, hb, hp, hm⟩
  | false =>
    cases by_ with
    | none => exact ⟨rfl, rfl, rfl, rfl, rfl, rfl⟩
    | some c =>
      exact State.Beside.trans (t := s.homeBytes g bs) ⟨rfl, rfl, rfl, rfl, rfl, rfl⟩
        ((State.dropCopy_beside _ c g).trans (State.dropL2_beside _ c.die g))
theorem State.agentWrite_beside (s : State) (pa : Nat) (bs : List Byte) (tracked : Bool) : s.Beside (s.agentWrite pa bs tracked) := by
  unfold State.agentWrite
  split
  · exact .refl s
  · exact foldl_beside (fun s i => State.homeWrite_beside s none _ _ tracked) (.refl s)
theorem State.vwrite_beside (s : State) (ctx va : Nat) (bs : List Byte) : s.Beside (s.vwrite ctx va bs) := by
  unfold State.vwrite
  split
  · exact State.agentWrite_beside ..
  · exact .refl s
theorem State.arriveWb_beside (s : State) (c : CoreRef) (g : Nat) : s.Beside (s.arriveWb c g) := by
  unfold State.arriveWb
  dsimp only
  split
  case h_1 d _ =>
    obtain ⟨hc, hs, hf, hb, hp, hm⟩ := (State.homeWrite_beside
      (s.setCore c { s.core c with dirty := tdel (s.core c).dirty g, copies := tdel (s.core c).copies g }) (some c) g d.bytes d.tracked).trans
        (State.dropL2_beside _ c.die g)
    exact ⟨hc, hs, hf, hb, hp, hm⟩
  case h_2 => exact ⟨rfl, rfl, rfl, rfl, rfl, rfl⟩
theorem State.flushRecord_beside (s : State) (g : Nat) : s.Beside (s.flushRecord g) := by
  unfold State.flushRecord
  dsimp only
  split
  · exact foldl_beside (f := fun u (p : CoreRef × Nat) => u.arriveWb p.1 p.2) (fun u p => State.arriveWb_beside u p.1 p.2) (.refl s)
  · exact .refl s
theorem State.demandFor_beside (s : State) (who : FenceFor) (g : Nat) : s.Beside (s.demandFor who g) := by
  unfold State.demandFor
  dsimp only
  split <;> exact ⟨rfl, rfl, rfl, rfl, rfl, rfl⟩
theorem State.addDone_ctxs (s : State) (pa : Nat) : (s.addDone pa).ctxs = s.ctxs := by
  unfold State.addDone
  dsimp only
  split
  · exact (State.demandFor_beside ..).ctxs
  · exact ((State.flushRecord_beside ..).trans (State.agentWrite_beside ..)).ctxs

/-! ### A write to a package whose cores are clean -/

theorem mem_of_tget {α : Type} {t : Tbl α} {k : Nat} {v : α} (h : tget t k = some v) : (k, v) ∈ t := by
  induction t with
  | nil => cases h
  | cons p t ih =>
    obtain ⟨j, w⟩ := p
    unfold tget at h
    split at h
    case isTrue hj =>
      obtain rfl := beq_iff_eq.mp hj
      obtain rfl := Option.some.inj h
      exact List.mem_cons_self
    case isFalse => exact List.mem_cons_of_mem _ (ih h)
theorem quiet_core {s : State} (h : quiet s) (c : CoreRef) : (s.core c).dirty = [] := by
  unfold State.core
  cases hc : tget s.cores (coreKey c) with
  | none => rfl
  | some k => exact h _ (mem_of_tget hc)
theorem takeDirty_clean {L : Tbl Core} (h : ∀ c ∈ L, c.2.dirty = []) (but : Option Nat) (g : Nat) : takeDirty but g L = (L, []) := by
  induction L with
  | nil => rfl
  | cons p L ih =>
    obtain ⟨hp, hL⟩ := List.forall_mem_cons.mp h
    simp only [takeDirty, ih hL, hp, tget_nil]
theorem State.dropFar_cores (s : State) (g : Nat) : (s.dropFar g).cores = s.cores := by
  obtain ⟨l, x, hl⟩ := s.dropFar_eq_foldl g
  rw [hl]
  show (l.foldl (fun u p => u.sendFlit 12 p.toNat g) s).cores = s.cores
  exact foldl_keeps (P := fun t => t.cores = s.cores) (f := fun u (p : BitVec 14) => u.sendFlit 12 p.toNat g) (fun t p _ h => h) rfl
section
variable {s : State} (h : quiet s)
include h
theorem State.homeWrite_mem_of_quiet (g : Nat) (bs : Tbl Byte) : (s.homeWrite none g bs true).mem = (s.homeBytes g bs).mem := by
  unfold State.homeWrite
  dsimp only
  rw [if_pos rfl, State.dropFar_mem, State.dropAll_mem, State.homeBytes_cores, takeDirty_clean h]
  rfl
theorem State.homeWrite_quiet (g : Nat) (bs : Tbl Byte) : quiet (s.homeWrite none g bs true) := by
  intro c hc
  unfold State.homeWrite at hc
  dsimp only at hc
  rw [if_pos rfl, State.dropFar_cores, State.homeBytes_cores, takeDirty_clean h] at hc
  obtain ⟨p, hp, rfl⟩ := List.mem_map.mp hc
  exact h p hp
theorem State.flushRecord_of_quiet (g : Nat) : s.flushRecord g = s := by
  unfold State.flushRecord State.linesOf
  simp only [quiet_core h, List.filter_nil, List.map_nil, List.foldl_nil, ite_self]
end
/-- The bytes of one granule, written at their offsets. -/
theorem foldl_mset_eq_mputs (m : Mem) (g o n : Nat) (bs : List Byte) :
    ((bs.zipIdx n).map fun p => (o + p.2, p.1)).foldl (fun m p => mset m (g * 128 + p.1) p.2) m = mputs m (g * 128 + o + n) bs := by
  induction bs generalizing m n with
  | nil => rfl
  | cons b bs ih =>
    rw [List.zipIdx_cons, List.map_cons, List.foldl_cons, ih, mputs]
    simp only [Nat.add_assoc]
theorem State.agentWrite_line (s : State) {pa : Nat} {bs : List Byte} (hb : bs ≠ []) (hl : pa % 128 + bs.length ≤ 128) :
    s.agentWrite pa bs true = s.homeWrite none (granule pa) (bs.zipIdx.map fun p => (pa % 128 + p.2, p.1)) true := by
  have hpos := List.length_pos_iff.mpr hb
  have hg : ∀ i < bs.length, granule (pa + i) = granule pa := fun i hi => by unfold granule; omega
  have hn : granule (pa + bs.length - 1) + 1 - granule pa = 1 := by
    rw [Nat.add_sub_assoc hpos, hg _ (by omega)]
    omega
  have hlt : ∀ p ∈ bs.zipIdx, p.2 < bs.length := fun p hp => by simpa using List.snd_lt_of_mem_zipIdx hp
  have hf : (bs.zipIdx.filter fun p => granule (pa + p.2) == granule pa) = bs.zipIdx :=
    List.filter_eq_self.mpr fun p hp => beq_iff_eq.mpr (hg _ (hlt p hp))
  unfold State.agentWrite
  dsimp only
  rw [if_neg (by simpa using hb), hn, List.range_one, List.foldl_cons, List.foldl_nil, Nat.add_zero, hf]
  congr 1
  refine List.map_congr_left fun p hp => ?_
  have := hlt p hp
  congr 1
  omega
theorem State.agentWrite_mem_of_quiet {s : State} (h : quiet s) {pa : Nat} {bs : List Byte} (hb : bs ≠ []) (hl : pa % 128 + bs.length ≤ 128) :
    (s.agentWrite pa bs true).mem = mputs s.mem pa bs := by
  rw [State.agentWrite_line s hb hl, State.homeWrite_mem_of_quiet h]
  refine (foldl_mset_eq_mputs s.mem (granule pa) (pa % 128) 0 bs).trans ?_
  congr 1
  unfold granule
  omega
theorem State.agentWrite_quiet {s : State} (h : quiet s) {pa : Nat} {bs : List Byte} (hb : bs ≠ []) (hl : pa % 128 + bs.length ≤ 128) :
    quiet (s.agentWrite pa bs true) := by
  rw [State.agentWrite_line s hb hl]
  exact State.homeWrite_quiet h _ _
theorem mputs_append (m : Mem) (a : Nat) (x y : List Byte) : mputs m a (x ++ y) = mputs (mputs m a x) (a + x.length) y := by
  induction x generalizing m a with
  | nil => rfl
  | cons b x ih => simp only [List.cons_append, mputs, ih, List.length_cons, Nat.add_assoc, Nat.add_comm 1]
theorem mread_mputs_outside (m : Mem) {a b n : Nat} {bs : List Byte} (h : b + n ≤ a ∨ a + bs.length ≤ b) :
    mread (mputs m a bs) b n = mread m b n := by
  induction n generalizing b with
  | zero => rfl
  | succ n ih => rw [mread_succ, mread_succ, mget_mputs_outside m a bs b (by omega), ih (by omega)]
/-- Words written one after another are read back. -/
theorem mread_mputs_words (m : Mem) (a : Nat) (ws : List Nat) {i w : Nat} (h : ws[i]? = some w) :
    mread (mputs m a (ws.map fun w => leBytes 8 w).flatten) (a + 8 * i) 8 = w % 2 ^ 64 := by
  induction ws generalizing m a i with
  | nil => cases h
  | cons v ws ih =>
    rw [List.map_cons, List.flatten_cons, mputs_append, length_leBytes]
    cases i with
    | zero =>
      obtain rfl := Option.some.inj h
      rw [mread_mputs_outside _ (Or.inl (by omega))]
      exact mread_mwrite_same_bits m a 8 v
    | succ i => exact (congrArg (fun b => mread _ b 8) (by omega)).trans (ih _ (a + 8) h)

/-! ### The completion record -/

/-- The record's words are written (R277). -/
def State.cplWritten (s : State) (l : Launch) : State := s.vwrite l.ctx l.cplptr.toNat (recordBytes s l)
/-- Its last word counts one more. -/
def State.cplCounted (s : State) (l : Launch) : State :=
  match (s.cplWritten l).vtrans l.ctx (l.cplptr.toNat + 56) with
  | some pa => (s.cplWritten l).addDone pa
  | none => s.cplWritten l
/-- A launch leaves, and its queue says how its submission ended. -/
def State.launchReported (s : State) (n : Nat) (l : Launch) : State :=
  let q := s.queue l.ctx l.queue
  let u := s.setQueue l.ctx l.queue { q with ended := tput q.ended l.sub l.outState }
  { u with launches := u.launches.filter fun (x : Launch) => x.id != n }
theorem execCompletionRecord_none {s : State} {n : Nat} (h : ∀ l, s.launch n = some l → l.state ≠ .ended) :
    exec (.completionRecord n) s = .next s := by
  dsimp only [exec]
  unfold execCompletionRecord
  cases hl : s.launch n with
  | none => rfl
  | some l => exact if_pos (bne_iff_ne.mpr (h l hl))
theorem execCompletionRecord_ended {s : State} {n : Nat} {l : Launch} (hl : s.launch n = some l) (he : l.state = .ended) :
    exec (.completionRecord n) s = .next ((s.cplCounted l).launchReported n l) := by
  dsimp only [exec]
  unfold execCompletionRecord
  simp only [hl, he]
  rfl
theorem State.cplCounted_ctxs (s : State) (l : Launch) : (s.cplCounted l).ctxs = s.ctxs := by
  unfold State.cplCounted
  split
  · exact (State.addDone_ctxs ..).trans (State.vwrite_beside ..).ctxs
  · exact (State.vwrite_beside ..).ctxs
theorem State.setQueue_eq {s : State} {ctx q : Nat} {v : SubQueue} {c : Ctx} (h : s.ctx ctx = some c) :
    s.setQueue ctx q v = { s with ctxs := tput s.ctxs ctx { c with queues := tput c.queues q v } } := by
  unfold State.setQueue State.modCtx
  rw [show tget s.ctxs ctx = some c from h]
theorem State.queue_setQueue {s : State} {ctx q : Nat} {v : SubQueue} {c : Ctx} (h : s.ctx ctx = some c) :
    (s.setQueue ctx q v).queue ctx q = v := by
  rw [State.setQueue_eq h]
  simp [State.queue, State.ctx]
section
variable {s : State} {n : Nat} {l : Launch} {c : Ctx}
theorem State.launchReported_launch : (s.launchReported n l).launch n = none := by
  refine List.find?_eq_none.mpr fun x hx => ?_
  have h := (List.mem_filter.mp hx).2
  simpa using h
theorem State.launchReported_ended (h : s.ctx l.ctx = some c) :
    tget ((s.launchReported n l).queue l.ctx l.queue).ended l.sub = some l.outState := by
  have hq := State.queue_setQueue (q := l.queue) (v := { s.queue l.ctx l.queue with ended := tput (s.queue l.ctx l.queue).ended l.sub l.outState }) h
  exact (congrArg (fun q : SubQueue => tget q.ended l.sub) hq).trans (tget_tput_same _ _ _)
theorem State.launchReported_mem : (s.launchReported n l).mem = s.mem := State.setQueue_mem ..
theorem State.launchReported_sync (h : s.ctx l.ctx = some c) : (s.launchReported n l).sync = s.sync := by
  show (s.setQueue l.ctx l.queue _).sync = s.sync
  rw [State.setQueue_eq h]
end
theorem length_recordBytes (s : State) (l : Launch) : (recordBytes s l).length = 56 := by
  simp [recordBytes, List.range_succ]
section
variable {s : State} (hq : quiet s) {pa : Nat} (hpa : pa % 8 = 0)
include hq hpa
/-- An add to a DONE word of a package whose cores are clean (R91). -/
theorem State.doneNow_mem : (s.doneNow pa).mem = mputs s.mem pa (leBytes 8 (mread s.mem pa 8 + 1)) :=
  State.agentWrite_mem_of_quiet hq (by simp [leBytes]) (by rw [length_leBytes]; omega)
omit hpa in
theorem State.addDone_eq (h : (s.srec (granule pa)).sv = true → (s.srec (granule pa)).fl = true ∨ (s.srec (granule pa)).rpkg = s.pkg) :
    s.addDone pa = s.doneNow pa := by
  unfold State.addDone
  dsimp only
  rw [State.flushRecord_of_quiet hq, if_neg]
  simp only [Bool.and_eq_true, Bool.not_eq_true', bne_iff_ne, not_and, Decidable.not_not, and_imp]
  intro hsv hfl
  simpa [hfl] using h hsv
end
theorem State.doneNow_srec (s : State) (pa : Nat) : ((s.doneNow pa).srec (granule pa)).sv = true ∧ ((s.doneNow pa).srec (granule pa)).fl = true := by
  simp [State.doneNow, State.srec, State.setRec]
section
variable {s : State} {l : Launch} {pa : Nat} (hv : s.vtrans l.ctx l.cplptr.toNat = some pa) (hp : pa % 64 = 0) (hq : quiet s)
  (hr : (s.srec (granule pa)).sv = true → (s.srec (granule pa)).fl = true ∨ (s.srec (granule pa)).rpkg = s.pkg)
  (hn : (s.agentWrite pa (recordBytes s l) true).vtrans l.ctx (l.cplptr.toNat + 56) = some (pa + 56))
include hv hp hq hr hn
/-- The record lies in one line: its words are written, then the last one counts. -/
theorem State.cplCounted_eq : s.cplCounted l = (s.agentWrite pa (recordBytes s l) true).doneNow (pa + 56) ∧
    (s.cplCounted l).mem = mputs (mputs s.mem pa (recordBytes s l)) (pa + 56) (leBytes 8 (mread s.mem (pa + 56) 8 + 1)) := by
  have hlen := length_recordBytes s l
  have hne : recordBytes s l ≠ [] := List.ne_nil_of_length_eq_add_one hlen
  have hw : s.cplWritten l = s.agentWrite pa (recordBytes s l) true := by
    unfold State.cplWritten State.vwrite
    rw [hv]
  have hb := State.agentWrite_beside s pa (recordBytes s l) true
  have hg : granule (pa + 56) = granule pa := by unfold granule; omega
  have hq' := State.agentWrite_quiet hq hne (pa := pa) (by omega)
  have hm := State.agentWrite_mem_of_quiet hq hne (pa := pa) (by omega)
  have he : s.cplCounted l = (s.agentWrite pa (recordBytes s l) true).doneNow (pa + 56) := by
    unfold State.cplCounted
    simp only [hw, hn]
    exact State.addDone_eq hq' (by rwa [hg, hb.srec, hb.pkg])
  refine ⟨he, ?_⟩
  rw [he, State.doneNow_mem hq' (by omega), hm, mread_mputs_outside _ (Or.inr (by omega))]
/-- What the record's words say (R277). -/
theorem State.cplCounted_mread (hc : l.cause < 2 ^ 10) (ho : l.outState < 4) :
    mread (s.cplCounted l).mem pa 8 = l.cause * 2 ^ 54 + l.outState * 2 ^ 52 + l.detail % 2 ^ 32 ∧
      mread (s.cplCounted l).mem (pa + 40) 8 = s.clock.ns % 2 ^ 64 ∧
      mread (s.cplCounted l).mem (pa + 56) 8 = (mread s.mem (pa + 56) 8 + 1) % 2 ^ 64 := by
  rw [(State.cplCounted_eq hv hp hq hr hn).2]
  refine ⟨?_, ?_, mread_mwrite_same_bits _ _ 8 _⟩
  · rw [mread_mputs_outside _ (Or.inl (by omega))]
    exact (mread_mputs_words _ pa _ (i := 0) rfl).trans (Nat.mod_eq_of_lt (by omega))
  · rw [mread_mputs_outside _ (Or.inl (by omega))]
    exact (mread_mputs_words _ pa _ (i := 5) (w := s.clock.ns % 2 ^ 64) rfl).trans (Nat.mod_mod _ _)
end

/-! ### The evaluation of a pipeline -/

/-- The stages of a launch that are at least three quarters full (R285). -/
def Launch.fullStages (l : Launch) : List Nat := ((List.range l.stageK.length).map (· + 1)).filter fun y => !fracLt (l.occupancy y) (3, 4)
theorem Launch.mem_fullStages {l : Launch} {y : Nat} :
    y ∈ l.fullStages ↔ 1 ≤ y ∧ y ≤ l.stageK.length ∧ 3 * (l.occupancy y).2 ≤ 4 * (l.occupancy y).1 := by
  simp only [Launch.fullStages, List.mem_filter, List.mem_map, List.mem_range, fracLt, Bool.not_eq_true', decide_eq_false_iff_not, Nat.not_lt]
  constructor
  · rintro ⟨⟨a, ha, rfl⟩, h⟩
    omega
  · rintro ⟨h1, hn, h⟩
    exact ⟨⟨y - 1, by omega, by omega⟩, by omega⟩
theorem bestStage_mem {occ : Nat → Nat × Nat} {better : Nat × Nat → Nat × Nat → Bool} {l : List Nat} {y : Nat} (h : bestStage occ better l = some y) :
    y ∈ l := List.mem_of_find?_eq_some h
/-- The full stages are noted. -/
def State.noteFull (s : State) (l : Launch) : State := s.modLaunch l.id fun v => { v with prevHigh := l.fullStages }
/-- A core is to change to stage y. -/
def State.moveCore (s : State) (l k y : Nat) : State := s.modLaunch l fun v => { v with coreNext := tput v.coreNext k y }
theorem State.noteFull_launch {s : State} {n : Nat} {l : Launch} (h : s.launch n = some l) :
    (s.noteFull l).launch n = some { l with prevHigh := l.fullStages } := by
  obtain rfl := State.launch_id h
  exact State.launch_modLaunch_same (f := fun v => { v with prevHigh := l.fullStages }) h fun _ => rfl
theorem State.moveCore_launch {s : State} {n : Nat} {l : Launch} (h : s.launch n = some l) (k y : Nat) :
    (s.moveCore n k y).launch n = some { l with coreNext := tput l.coreNext k y } :=
  State.launch_modLaunch_same (f := fun v => { v with coreNext := tput v.coreNext k y }) h fun _ => rfl
/-- An evaluation notes the full stages and moves one core at most, to a stage that was full before and is full now. -/
theorem State.evaluate_cases (s : State) (l : Launch) : s.evaluate l = s.noteFull l ∨
    ∃ k y, s.evaluate l = (s.noteFull l).moveCore l.id k y ∧ y ∈ l.prevHigh ∧ y ∈ l.fullStages := by
  unfold State.evaluate
  dsimp only
  split
  case h_1 => exact .inl rfl
  case h_2 y hy =>
    split
    case h_1 => exact .inl rfl
    case h_2 x _ =>
      split
      case h_2 => exact .inl rfl
      case h_1 c _ =>
        obtain ⟨hfull, hok⟩ := List.mem_filter.mp (bestStage_mem hy)
        exact .inr ⟨coreKey c, y, rfl, List.contains_iff_mem.mp (Bool.and_elim_left hok), hfull⟩
theorem execPipelineEvaluation_idle {s : State} {n : Nat} (h : ∀ l, s.launch n = some l → l.stageK = [] ∨ l.state ≠ .running) :
    exec (.pipelineEvaluation n) s = .next s := by
  dsimp only [exec]
  unfold execPipelineEvaluation
  cases hl : s.launch n with
  | none => rfl
  | some l => exact if_pos (by simpa using h l hl)
theorem execPipelineEvaluation_evaluates {s : State} {n : Nat} {l : Launch} (hl : s.launch n = some l) (hk : l.stageK ≠ []) (hr : l.state = .running) :
    exec (.pipelineEvaluation n) s = .next (s.evaluate l) := by
  dsimp only [exec]
  unfold execPipelineEvaluation
  simp only [hl]
  exact if_neg (by simp [hk, hr])

/-! ### The statement -/

/-- Settles O46, clause by clause: the placement of blocks, what a started block is, the completion record of a package whose cores are
clean, and the evaluation of a pipeline. -/
theorem blocksAndRecords : Obligations.BlocksAndRecords := by
  unfold Obligations.BlocksAndRecords
  refine ⟨fun s n l hl => ⟨fun h => ?_, fun hr hlost => ?_, fun hr hlost hc h => ?_, fun hr hlost hc h => ?_,
      fun k hr hlost hc hk => ⟨fun h => ?_, fun h0 h => ?_⟩⟩,
    fun s l k hst hk p hp => ?_, fun s c fixed samp pair h => ?_, fun s l st c k hk => ?_, fun s n => execCompletionRecord_none,
    fun s n l c hl he hc => ?_, fun s n => execPipelineEvaluation_idle, fun s n l hl hk hr => ?_⟩
  · rw [execBlockPlace_launch hl, State.placeBlock_stopped h]
  · rw [execBlockPlace_launch hl, State.placeBlock_lost hr hlost]
  · rw [execBlockPlace_launch hl, State.placeBlock_none hr hlost hc h]
  · obtain ⟨p, hp, hplace⟩ := State.placeBlock_one hr hlost hc h
    exact ⟨p, hp, (execBlockPlace_launch hl).trans (congrArg Host.Outcome.next hplace)⟩
  · refine (execBlockPlace_launch hl).trans (congrArg Host.Outcome.next (State.placeBlock_coop_waits hr hlost hc hk ?_))
    rintro ⟨h0, hf⟩
    exact h.elim (fun h => h h0) (fun h => Bool.false_ne_true (h.symm.trans hf))
  · exact (execBlockPlace_launch hl).trans (congrArg Host.Outcome.next (State.placeBlock_coop_places hr hlost hc hk ⟨h0, h⟩))
  · obtain ⟨hlt, hp1, hrect, hfits⟩ := State.mem_choices hst hk hp
    obtain ⟨hopen, hbeside⟩ := Bool.and_eq_true_iff.mp hfits
    exact ⟨hrect, hopen, by rw [hp1], by rw [hp1], hlt, fitsBeside_iff.mp hbeside⟩
  · obtain ⟨husable, hup, hdrain, hfixed, hsamp, hpair⟩ := State.coreOpen_iff.mp h
    exact ⟨husable, hdrain, hup, fun e => (hfixed e).2, fun e => (hsamp e).2, fun e => (hpair e).2⟩
  · obtain ⟨b, hb, hid, hla, hctx, hcore, hnum, hth⟩ := State.startBlock_blocks (s := s) (l := l) (c := c) hk
    refine ⟨b, hb, hid, hla, hctx, hcore, hnum, ?_, fun t ht => startThreads_begin (hth ▸ ht)⟩
    rw [hth]
    exact List.length_replicate
  · have hctx : (s.cplCounted l).ctx l.ctx = some c := by rwa [State.ctx, State.cplCounted_ctxs]
    refine ⟨_, execCompletionRecord_ended hl he, State.launchReported_launch, State.launchReported_ended hctx,
      fun pa hv hp hq hca ho hr hn => ?_⟩
    obtain ⟨h0, h5, h7⟩ := State.cplCounted_mread hv hp hq hr hn hca ho
    obtain ⟨hsv, hfl⟩ := State.doneNow_srec (s.agentWrite pa (recordBytes s l) true) (pa + 56)
    have hg : granule (pa + 56) = granule pa := by unfold granule; omega
    rw [← (State.cplCounted_eq hv hp hq hr hn).1, hg] at hsv hfl
    rw [State.launchReported_mem]
    refine ⟨h0, h5, h7, ?_, ?_⟩
    · rwa [State.srec, State.launchReported_sync hctx]
    · rwa [State.srec, State.launchReported_sync hctx]
  · obtain rfl := State.launch_id hl
    have hnote := State.noteFull_launch hl
    rcases State.evaluate_cases s l with he | ⟨k, y, he, hy, hy'⟩
    · exact ⟨_, { l with prevHigh := l.fullStages }, execPipelineEvaluation_evaluates hl hk hr, he ▸ hnote, he ▸ rfl, he ▸ rfl,
        fun _ => Launch.mem_fullStages, .inl rfl⟩
    · exact ⟨_, { l with prevHigh := l.fullStages, coreNext := tput l.coreNext k y }, execPipelineEvaluation_evaluates hl hk hr,
        he ▸ State.moveCore_launch hnote k y, he ▸ rfl, he ▸ rfl, fun _ => Launch.mem_fullStages, .inr ⟨k, y, rfl, hy, hy'⟩⟩

end Sys2Proof.Machine
end

section
/-! PROOFS. The power controller: what it holds of a quad, pass-counts, and the events of the power chapter (spec/02_execution.md R40;
spec/21_power.md R503 to R515), and the statement about them (O53). -/

namespace Sys2Proof.Machine
open Sys2Proof.Safety

/-! ### What the controller holds of a quad -/

@[simp] theorem State.quadPower_setQuadPower_same (s : State) (k : Nat) (p : QuadPower) : (s.setQuadPower k p).quadPower k = p := by
  simp [State.quadPower, State.setQuadPower]
theorem State.quadPower_setQuadPower_other (s : State) {k j : Nat} (p : QuadPower) (h : j ≠ k) :
    (s.setQuadPower k p).quadPower j = s.quadPower j := by
  simp only [State.quadPower, State.setQuadPower, tget_tput_other _ _ _ _ h]
theorem State.quadPower_setQuadPower_self (s : State) (k j : Nat) : (s.setQuadPower k (s.quadPower k)).quadPower j = s.quadPower j := by
  by_cases h : j = k
  · rw [h, State.quadPower_setQuadPower_same]
  · exact State.quadPower_setQuadPower_other s _ h
theorem State.diePower_setDiePower_same (s : State) (die : Nat) (d : DiePower) : (s.setDiePower die d).diePower die = d := by
  simp [State.diePower, State.setDiePower]
theorem quadKey_inj {die q r : Nat} (h : quadKey die q = quadKey die r) : q = r := Nat.add_left_cancel h
theorem powerOf_setQuadPower (s : State) (die q : Nat) (p : QuadPower) : powerOf (s.setQuadPower (quadKey die q) p) die q = p :=
  State.quadPower_setQuadPower_same ..

/-- t is s but for what the controller holds of its quads. -/
def State.Controlled (s t : State) : Prop := ∃ T, t = { s with power := { s.power with quads := T } }
theorem State.Controlled.refl (s : State) : s.Controlled s := ⟨s.power.quads, rfl⟩
theorem State.Controlled.trans {s t u : State} (h : s.Controlled t) (h' : t.Controlled u) : s.Controlled u := by
  obtain ⟨T, rfl⟩ := h
  obtain ⟨U, rfl⟩ := h'
  exact ⟨U, rfl⟩
theorem State.setQuadPower_controlled (s : State) (k : Nat) (p : QuadPower) : s.Controlled (s.setQuadPower k p) := ⟨_, rfl⟩
theorem foldl_controlled {α : Type} {f : State → α → State} (h : ∀ (s : State) x, s.Controlled (f s x)) (l : List α) (s : State) :
    s.Controlled (l.foldl f s) :=
  foldl_keeps (P := s.Controlled) (fun t x _ ht => ht.trans (h t x)) (.refl s)
/-- What a fold's step makes true of its element, and no step unmakes, is true of every element in the end. -/
theorem foldl_establishes {α : Type} {I : State → Prop} {P : α → State → Prop} {f : State → α → State} (hI : ∀ s x, I s → I (f s x))
    (hP : ∀ s x, I s → P x (f s x)) (hk : ∀ s x y, I s → P y s → P y (f s x)) {l : List α} {s : State} (hs : I s) {x : α} (hx : x ∈ l) :
    P x (l.foldl f s) := by
  induction l generalizing s with
  | nil => cases hx
  | cons y l ih =>
    rcases List.mem_cons.mp hx with rfl | hx
    · exact (foldl_keeps (P := fun t => I t ∧ P x t) (fun t z _ ht => ⟨hI t z ht.1, hk t z x ht.1 ht.2⟩) ⟨hI s x hs, hP s x hs⟩).2
    · exact ih (hI s y hs) hx

/-! ### Pass-counts -/

theorem State.quadAt_setQuad_same (s : State) (k : Nat) (q : Quad) : (s.setQuad k q).quadAt k = q := by
  simp [State.quadAt, State.setQuad]
theorem State.quadAt_setQuad_other (s : State) {k j : Nat} (q : Quad) (h : j ≠ k) : (s.setQuad k q).quadAt j = s.quadAt j := by
  simp only [State.quadAt, State.setQuad, tget_tput_other _ _ _ _ h]
theorem State.setPass_eq (s : State) (k p : Nat) : ∃ T, s.setPass k p = { s with quads := T } := by
  unfold State.setPass
  dsimp only
  split
  · exact ⟨s.quads, rfl⟩
  · exact ⟨_, rfl⟩
theorem State.setPass_same (s : State) (k p : Nat) : ((s.setPass k p).quadAt k).pass = passCode p := by
  unfold State.setPass
  dsimp only
  split
  case isTrue h => exact beq_iff_eq.mp h
  case isFalse => rw [State.quadAt_setQuad_same]
theorem State.setPass_other (s : State) {k j : Nat} (p : Nat) (h : j ≠ k) : (s.setPass k p).quadAt j = s.quadAt j := by
  unfold State.setPass
  dsimp only
  split
  · rfl
  · exact State.quadAt_setQuad_other s _ h
/-- The pass-counts are 1, 2, 4 and 8, and the highest that is ever set is 4 (R39). -/
theorem Quad.p_cases (q : Quad) : q.p = 1 ∨ q.p = 2 ∨ q.p = 4 ∨ q.p = 8 := by
  unfold Quad.p
  have h : q.pass.toNat < 4 := q.pass.isLt
  interval_cases q.pass.toNat <;> decide
theorem passCode_toNat (p : Nat) : 2 ^ (passCode p).toNat = if p ≤ 1 then 1 else if p = 2 then 2 else 4 := by
  unfold passCode
  split
  · rfl
  · simp only [beq_iff_eq]
    split <;> rfl
theorem State.setPass_p (s : State) (k p : Nat) : ((s.setPass k p).quadAt k).p = if p ≤ 1 then 1 else if p = 2 then 2 else 4 := by
  rw [Quad.p, State.setPass_same, passCode_toNat]
/-- t is s but for its quads. -/
def State.Repassed (s t : State) : Prop := ∃ T, t = { s with quads := T }
theorem foldl_setPass_repassed {f : State → Nat → Nat} {key : Nat → Nat} (l : List Nat) (s : State) :
    s.Repassed (l.foldl (fun s q => s.setPass (key q) (f s q)) s) := by
  refine foldl_keeps (P := s.Repassed) (fun t x _ ht => ?_) ⟨s.quads, rfl⟩
  obtain ⟨T, rfl⟩ := ht
  obtain ⟨U, hU⟩ := State.setPass_eq { s with quads := T } (key x) (f { s with quads := T } x)
  exact ⟨U, hU⟩
/-- Doubling pass-counts below 4 lowers none. -/
theorem foldl_double_le {die : Nat} {l : List Nat} {s : State} (h : ∀ q ∈ l, (s.quadAt (quadKey die q)).p < 4) (j : Nat) :
    (s.quadAt j).p ≤ ((l.foldl (fun s q => s.setPass (quadKey die q) (2 * (s.quadAt (quadKey die q)).p)) s).quadAt j).p := by
  refine (foldl_keeps (P := fun t => ∀ j, (s.quadAt j).p ≤ (t.quadAt j).p ∧ ((s.quadAt j).p < 4 → (t.quadAt j).p ≤ 4))
    (fun t q hq ht j => ?_) (fun j => ⟨le_rfl, fun h => h.le⟩) j).1
  by_cases hj : j = quadKey die q
  · subst hj
    obtain ⟨hle, hmax⟩ := ht (quadKey die q)
    have h4 := hmax (h q hq)
    rw [State.setPass_p]
    rcases (t.quadAt (quadKey die q)).p_cases with e | e | e | e <;> rw [e] at hle h4 ⊢ <;> simp <;> omega
  · rw [State.setPass_other t _ hj]
    exact ht j
/-- Halving pass-counts raises none. -/
theorem foldl_halve_le {die : Nat} {l : List Nat} {s : State} (j : Nat) :
    ((l.foldl (fun s q => s.setPass (quadKey die q) ((s.quadAt (quadKey die q)).p / 2)) s).quadAt j).p ≤ (s.quadAt j).p := by
  refine foldl_keeps (P := fun t => ∀ j, (t.quadAt j).p ≤ (s.quadAt j).p) (fun t q _ ht j => ?_) (fun j => le_rfl) j
  by_cases hj : j = quadKey die q
  · subst hj
    refine le_trans ?_ (ht (quadKey die q))
    rw [State.setPass_p]
    rcases (t.quadAt (quadKey die q)).p_cases with e | e | e | e <;> rw [e] <;> decide
  · rw [State.setPass_other t _ hj]
    exact ht j

/-! ### The evaluation (R510) -/

/-- The package's reading is noted. -/
def State.notePackage (s : State) (m : PowerReading) : State := { s with power := { s.power with pkgw := BitVec.ofNat 16 (m.packageMw / 1000) } }
/-- A quad's current is noted. -/
def State.noteCurrent (die : Nat) (m : PowerReading) (s : State) (q : Nat) : State :=
  if (s.quadPower (quadKey die q)).over12 == m.overCurrent.contains q then s
  else s.setQuadPower (quadKey die q) { s.quadPower (quadKey die q) with over12 := m.overCurrent.contains q }
/-- The readings of a die's quads are noted. -/
def State.noteReading (s : State) (die : Nat) (m : PowerReading) : State :=
  (List.range (s.dieMap.nquads die)).foldl (State.noteCurrent die m) (s.notePackage m)
theorem State.noteCurrent_controlled (die : Nat) (m : PowerReading) (s : State) (q : Nat) : s.Controlled (s.noteCurrent die m q) := by
  unfold State.noteCurrent
  split
  · exact .refl s
  · exact State.setQuadPower_controlled ..
theorem State.noteReading_controlled (s : State) (die : Nat) (m : PowerReading) : (s.notePackage m).Controlled (s.noteReading die m) :=
  foldl_controlled (State.noteCurrent_controlled die m) _ _
theorem State.noteCurrent_same (die : Nat) (m : PowerReading) (s : State) (q : Nat) :
    (powerOf (s.noteCurrent die m q) die q).over12 = m.overCurrent.contains q := by
  unfold State.noteCurrent
  split
  case isTrue h => exact beq_iff_eq.mp h
  case isFalse => rw [powerOf_setQuadPower]
theorem State.noteCurrent_other (die : Nat) (m : PowerReading) (s : State) {q r : Nat} (h : r ≠ q) :
    powerOf (s.noteCurrent die m q) die r = powerOf s die r := by
  unfold State.noteCurrent
  split
  · rfl
  · exact State.quadPower_setQuadPower_other s _ fun e => h (quadKey_inj e)
theorem State.noteReading_over12 (s : State) (die : Nat) (m : PowerReading) {q : Nat} (h : q < s.dieMap.nquads die) :
    (powerOf (s.noteReading die m) die q).over12 = m.overCurrent.contains q := by
  refine foldl_establishes (I := fun _ => True) (P := fun q t => (powerOf t die q).over12 = m.overCurrent.contains q) (fun _ _ _ => trivial)
    (fun t q _ => State.noteCurrent_same die m t q) (fun t x y _ ht => ?_) trivial (List.mem_range.mpr h)
  by_cases e : y = x
  · exact e ▸ State.noteCurrent_same die m t x
  · rwa [State.noteCurrent_other die m t e]
/-- The quads' pass-counts are to be doubled once the fixed-timing blocks are saved. -/
def State.askRaise (die : Nat) (s : State) (q : Nat) : State :=
  s.setQuadPower (quadKey die q) { s.quadPower (quadKey die q) with raise := true }
def State.double (die : Nat) (s : State) (q : Nat) : State := s.setPass (quadKey die q) (2 * (s.quadAt (quadKey die q)).p)
def State.halve (die : Nat) (s : State) (q : Nat) : State := s.setPass (quadKey die q) ((s.quadAt (quadKey die q)).p / 2)
theorem State.noteReading_budget (s : State) (die : Nat) (m : PowerReading) : (s.noteReading die m).budget die = s.budget die := by
  obtain ⟨T, hT⟩ := s.noteReading_controlled die m
  rw [hT]
  rfl
/-- An evaluation notes the readings; above the budget it doubles some pass-counts below 4 or asks for raises, and well below it halves
some. -/
theorem execPowerEvaluation_cases (s : State) (die : Nat) (m : PowerReading) : let u := s.noteReading die m
    exec (.powerEvaluation die m) s = .next u ∧ (s.budget die < m.dieMw → s.dieMap.nquads die = 0) ∨
    (s.budget die < m.dieMw ∧ ∃ l : List Nat, exec (.powerEvaluation die m) s = .next (l.foldl (State.askRaise die) u)) ∨
    (s.budget die < m.dieMw ∧ ∃ l : List Nat, (∀ q ∈ l, (u.quadAt (quadKey die q)).p < 4) ∧
      exec (.powerEvaluation die m) s = .next (l.foldl (State.double die) u)) ∨
    (m.dieMw ≤ s.budget die ∧ m.below90For1ms = true ∧ ∃ l : List Nat, exec (.powerEvaluation die m) s = .next (l.foldl (State.halve die) u)) := by
  intro u
  have hb : u.budget die = s.budget die := s.noteReading_budget die m
  dsimp only [exec]
  unfold execPowerEvaluation
  dsimp only
  split
  case isTrue h =>
    refine .inl ⟨rfl, fun _ => ?_⟩
    simpa using h
  case isFalse =>
    split
    case isTrue h =>
      have hover : s.budget die < m.dieMw := hb.symm.trans_lt h
      split
      · exact .inr (.inl ⟨hover, _, rfl⟩)
      · refine .inr (.inr (.inl ⟨hover, _, fun q hq => ?_, rfl⟩))
        have he := (List.mem_filter.mp (List.mem_of_mem_take hq)).2
        simp only [Bool.and_eq_true, decide_eq_true_eq] at he
        obtain ⟨⟨hlt, -⟩, -⟩ := he
        exact hlt
    case isFalse h =>
      have hunder : m.dieMw ≤ s.budget die := Nat.le_of_not_lt fun hlt => h (hb.trans_lt hlt)
      split
      case isTrue hlow => exact .inr (.inr (.inr ⟨hunder, hlow, _, rfl⟩))
      case isFalse => exact .inl ⟨rfl, fun hlt => absurd hlt (Nat.not_lt.mpr hunder)⟩

/-- What every evaluation leaves: the readings, memory and blocks. -/
def State.Evaluated (s : State) (die : Nat) (m : PowerReading) (t : State) : Prop :=
  t.power.pkgw = BitVec.ofNat 16 (m.packageMw / 1000) ∧ t.mem = s.mem ∧ t.blocks = s.blocks ∧
    ∀ q < s.dieMap.nquads die, (powerOf t die q).over12 = m.overCurrent.contains q
theorem State.noteReading_evaluated (s : State) (die : Nat) (m : PowerReading) :
    s.Evaluated die m (s.noteReading die m) ∧ (s.noteReading die m).quads = s.quads := by
  have hover := fun q (h : q < s.dieMap.nquads die) => s.noteReading_over12 die m h
  obtain ⟨T, hT⟩ := s.noteReading_controlled die m
  rw [hT] at hover ⊢
  exact ⟨⟨rfl, rfl, rfl, hover⟩, rfl⟩
theorem foldl_askRaise {s : State} {die : Nat} {m : PowerReading} {u : State} (h : s.Evaluated die m u) (l : List Nat) :
    s.Evaluated die m (l.foldl (State.askRaise die) u) ∧ (l.foldl (State.askRaise die) u).quads = u.quads := by
  refine foldl_keeps (P := fun t => s.Evaluated die m t ∧ t.quads = u.quads) (fun t q _ ht => ?_) ⟨h, rfl⟩
  obtain ⟨⟨hw, hm, hb, hover⟩, hq⟩ := ht
  refine ⟨⟨hw, hm, hb, fun r hr => ?_⟩, hq⟩
  by_cases e : r = q
  · rw [e, State.askRaise, powerOf_setQuadPower]
    exact hover q (e ▸ hr)
  · rw [powerOf, State.askRaise, State.quadPower_setQuadPower_other _ _ fun e' => e (quadKey_inj e')]
    exact hover r hr
theorem State.Evaluated.repassed {s : State} {die : Nat} {m : PowerReading} {u t : State} (h : s.Evaluated die m u) (ht : u.Repassed t) :
    s.Evaluated die m t := by
  obtain ⟨T, rfl⟩ := ht
  exact h
theorem execPowerEvaluation_spec (s : State) (die : Nat) (m : PowerReading) : ∃ t, exec (.powerEvaluation die m) s = .next t ∧
    s.Evaluated die m t ∧
    (s.budget die < m.dieMw → ∀ q < s.dieMap.nquads die, (quadOf s die q).p ≤ (quadOf t die q).p) ∧
    (m.dieMw ≤ s.budget die → ∀ q < s.dieMap.nquads die, (quadOf t die q).p ≤ (quadOf s die q).p) ∧
    (m.dieMw ≤ s.budget die → m.below90For1ms = false → t.quads = s.quads) := by
  obtain ⟨hu, huq⟩ := s.noteReading_evaluated die m
  have hquad : ∀ {t : State}, t.quads = s.quads → ∀ q, quadOf t die q = quadOf s die q := fun h q => by simp only [quadOf, State.quadAt, h]
  rcases execPowerEvaluation_cases s die m with ⟨h, hnone⟩ | ⟨hover, l, h⟩ | ⟨hover, l, hlt, h⟩ | ⟨hunder, hlow, l, h⟩
  · exact ⟨_, h, hu, fun ho q hq => absurd hq (by simp [hnone ho]), fun _ q _ => (hquad huq q).symm ▸ le_rfl, fun _ _ => huq⟩
  · obtain ⟨ht, htq⟩ := foldl_askRaise hu l
    exact ⟨_, h, ht, fun _ q _ => (hquad (htq.trans huq) q).symm ▸ le_rfl, fun hle => absurd hover (Nat.not_lt.mpr hle),
      fun hle => absurd hover (Nat.not_lt.mpr hle)⟩
  · exact ⟨_, h, hu.repassed (foldl_setPass_repassed l _), fun _ q _ => hquad huq q ▸ foldl_double_le hlt _,
      fun hle => absurd hover (Nat.not_lt.mpr hle), fun hle => absurd hover (Nat.not_lt.mpr hle)⟩
  · exact ⟨_, h, hu.repassed (foldl_setPass_repassed l _), fun ho => absurd ho (Nat.not_lt.mpr hunder),
      fun _ q _ => hquad huq q ▸ foldl_halve_le _, fun _ hb => absurd hlow (by simp [hb])⟩

/-! ### Energy and floors -/

/-- One context's share of the energy of a quad (R514). -/
theorem exec_energyAccounting_one (s : State) (die quad nj c n : Nat) : let part := nj * n / max n (quadOf s die quad).window
    exec (.energyAccounting die quad nj [(c, n)]) s = .next { s with power := { s.power with
      eloc := addNj s.power.eloc c part
      eidle := s.power.eidle + BitVec.ofNat 64 (nj - part) } } := by
  rfl
theorem State.thermal_le_floorOf (s : State) (die q : Nat) : (powerOf s die q).thermal ≤ s.floorOf die q := le_max_right _ _
theorem State.two_le_floorOf {s : State} {die q : Nat} (h : s.quadReg die q = true ∨ (powerOf s die q).droopUntil.isSome = true ∨
    (powerOf s die q).over12 = true ∨ s.baseHot die = true) : 2 ≤ s.floorOf die q := by
  refine le_trans ?_ (le_max_left _ _)
  rw [if_pos (by simpa [powerOf, or_assoc] using h)]
theorem State.quadReg_of_failed {s : State} {die r : Nat} (hr : r < 48) (h : (s.diePower die).regfail.getLsbD r = true) :
    s.quadReg die (s.dieMap.regQuad die r) = true := by
  refine List.any_eq_true.mpr ⟨r, List.mem_range.mpr hr, ?_⟩
  rw [bit_eq_testBit, beq_self_eq_true, Bool.and_true]
  exact h

/-! ### Records of the power controller -/

theorem State.errRecord_beside (s : State) (e : ErrInfo) : s.Beside (s.errRecord e) := by
  unfold State.errRecord
  dsimp only
  have hs : s.Beside (if (e.sev == 0) = true then s else s.signal 1) := by
    split
    · exact .refl s
    · exact ⟨rfl, rfl, rfl, rfl, rfl, rfl⟩
  generalize (if (e.sev == 0) = true then s else s.signal 1) = u at hs ⊢
  split
  · exact hs
  · split
    · exact hs.trans (State.agentWrite_beside ..)
    · split
      · obtain ⟨hc, hy, hf, hb, hp, hm⟩ := hs
        exact ⟨hc, hy, hf, hb, hp, hm⟩
      · obtain ⟨hc, hy, hf, hb, hp, hm⟩ := hs.trans (State.agentWrite_beside u _ _ true)
        exact ⟨hc, hy, hf, hb, hp, hm⟩
theorem State.darken_of_no_blocks {s : State} (h : s.blocks = []) (key : Nat) : s.darken key = s := by
  unfold State.darken
  rw [h]
  rfl
theorem State.migrate_of_no_blocks {s : State} (h : s.blocks = []) (key : Nat) : s.migrate key = s := by
  unfold State.migrate
  dsimp only
  rw [h]
  exact ite_self s

/-! ### Temperatures (R512) -/

/-- What the controller holds of a quad once its sensor reads temp, and the one beneath base. -/
def QuadPower.sensed (p : QuadPower) (tlim glim temp base : Int) : QuadPower :=
  { p with
    temp := temp, grad := temp - base
    base := if 95 < base then 2 else 1
    thermal := if tlim ≤ temp then 4 else if (decide (tlim - 5 ≤ temp) || decide (glim ≤ temp - base)) = true then 2 else 1
    stopped := if decide (tlim + 10 ≤ temp) = true then true else if temp < tlim - 10 then false else p.stopped }
section
variable (p : QuadPower) {tlim glim temp base : Int}
theorem QuadPower.sensed_thermal_limit (glim base : Int) (h : tlim ≤ temp) : (p.sensed tlim glim temp base).thermal = 4 := if_pos h
theorem QuadPower.sensed_thermal_hot (h : temp < tlim) (hot : tlim - 5 ≤ temp ∨ glim ≤ temp - base) :
    (p.sensed tlim glim temp base).thermal = 2 :=
  (if_neg (Int.not_le.mpr h)).trans (if_pos (by simpa using hot))
theorem QuadPower.sensed_thermal_cold (ht : temp < tlim - 10) (hg : temp - base < glim) : (p.sensed tlim glim temp base).thermal = 1 := by
  refine (if_neg (by omega)).trans (if_neg ?_)
  simp only [Bool.or_eq_true, decide_eq_true_eq]
  omega
theorem QuadPower.sensed_stopped_trip (glim base : Int) (h : tlim + 10 ≤ temp) : (p.sensed tlim glim temp base).stopped = true :=
  if_pos (decide_eq_true h)
theorem QuadPower.sensed_stopped_cold (glim base : Int) (h : temp < tlim - 10) : (p.sensed tlim glim temp base).stopped = false :=
  (if_neg (by simpa using (by omega : temp < tlim + 10))).trans (if_pos h)
theorem QuadPower.sensed_stopped_between (glim base : Int) (hl : tlim - 10 ≤ temp) (hu : temp < tlim + 10) :
    (p.sensed tlim glim temp base).stopped = p.stopped :=
  (if_neg (by simpa using hu)).trans (if_neg (Int.not_lt.mpr hl))
end
/-- The quads above a base die. -/
def State.quadsAbove (s : State) (die : Nat) : List Nat :=
  (((List.range (s.dieMap.nsd + s.dieMap.ngd)).filter fun d => s.dieMap.baseOf d == s.dieMap.baseOf die).map fun d =>
    (List.range (s.dieMap.nquads d)).map fun q => quadKey d q).flatten
/-- A reading is noted. -/
def State.sense (s : State) (die q : Nat) (temp base : Int) : State :=
  let u := (s.setQuadPower (quadKey die q) ((powerOf s die q).sensed s.power.tlim s.power.glim temp base)).dieTemps die
  if base ≤ 95 then u else (u.quadsAbove die).foldl (fun s x => s.setQuadPower x (s.quadPower x)) u
theorem foldl_refresh (l : List Nat) (s : State) (j : Nat) :
    (l.foldl (fun s x => s.setQuadPower x (s.quadPower x)) s).quadPower j = s.quadPower j :=
  foldl_keeps (P := fun t => t.quadPower j = s.quadPower j) (fun t x _ ht => (State.quadPower_setQuadPower_self t x j).trans ht) rfl
section
variable (s : State) (die q : Nat) (temp base : Int)
theorem State.sense_powerOf : powerOf (s.sense die q temp base) die q = (powerOf s die q).sensed s.power.tlim s.power.glim temp base := by
  unfold State.sense
  dsimp only
  split
  · exact powerOf_setQuadPower ..
  · exact (foldl_refresh _ _ _).trans (powerOf_setQuadPower ..)
theorem State.sense_frame : (s.sense die q temp base).blocks = s.blocks ∧ (s.sense die q temp base).mem = s.mem := by
  unfold State.sense
  dsimp only
  split
  · exact ⟨rfl, rfl⟩
  · obtain ⟨T, hT⟩ := foldl_controlled (fun (s : State) (x : Nat) => s.setQuadPower_controlled x (s.quadPower x))
      (((s.setQuadPower (quadKey die q) ((powerOf s die q).sensed s.power.tlim s.power.glim temp base)).dieTemps die).quadsAbove die)
      ((s.setQuadPower (quadKey die q) ((powerOf s die q).sensed s.power.tlim s.power.glim temp base)).dieTemps die)
    rw [hT]
    exact ⟨rfl, rfl⟩
variable {s die q temp base} (hq : q < s.dieMap.nquads die)
include hq
/-- After a reading is noted, a quad above its limit is recorded, one beyond the trip point is recorded and darkened, and the blocks of a hot
one migrate. -/
theorem execThermalReading_eq : exec (.thermalReading die q temp base) s = .next (
    let hot := decide (s.power.tlim - 5 ≤ temp) || decide (s.power.glim ≤ temp - base)
    let trip := decide (s.power.tlim + 10 ≤ temp)
    let u := s.sense die q temp base
    let v := if s.power.tlim ≤ temp then u.quadRecord die q cThermalLimit 0 else u
    let w := if trip && !(powerOf s die q).stopped then (v.quadRecord die q cThermalTrip 1).darken (quadKey die q) else v
    if hot && !trip then w.migrate (quadKey die q) else w) := by
  dsimp only [exec]
  unfold execThermalReading
  rw [if_neg (Nat.not_le.mpr hq)]
  rfl
theorem execThermalReading_cold (ht : temp < s.power.tlim - 10) (hg : temp - base < s.power.glim) :
    exec (.thermalReading die q temp base) s = .next (s.sense die q temp base) := by
  have hlimit : ¬ s.power.tlim ≤ temp := by omega
  have hnear : ¬ s.power.tlim - 5 ≤ temp := by omega
  have htrip : ¬ s.power.tlim + 10 ≤ temp := by omega
  have hsteep : ¬ s.power.glim ≤ temp - base := by omega
  rw [execThermalReading_eq hq]
  simp only [hlimit, hnear, htrip, hsteep, decide_false, Bool.or_self, Bool.false_and, Bool.false_eq_true, if_false]
/-- On a die without blocks a reading leaves, but for records, what it notes. -/
theorem execThermalReading_noBlocks (hb : s.blocks = []) :
    ∃ t, exec (.thermalReading die q temp base) s = .next t ∧ powerOf t die q = (powerOf s die q).sensed s.power.tlim s.power.glim temp base := by
  refine ⟨_, execThermalReading_eq hq, ?_⟩
  have hpower : ∀ {u t : State}, u.Beside t → powerOf t die q = powerOf u die q := fun h => by simp only [powerOf, State.quadPower, h.power]
  have hlimit : (s.sense die q temp base).Beside (if s.power.tlim ≤ temp then (s.sense die q temp base).quadRecord die q cThermalLimit 0
      else s.sense die q temp base) := by
    split
    · exact State.errRecord_beside ..
    · exact .refl _
  dsimp only
  generalize (if s.power.tlim ≤ temp then _ else _ : State) = v at hlimit ⊢
  have hv : v.blocks = [] := hlimit.blocks.trans ((s.sense_frame die q temp base).1.trans hb)
  have hr : v.Beside (v.quadRecord die q cThermalTrip 1) := State.errRecord_beside ..
  rw [State.darken_of_no_blocks (hr.blocks.trans hv)]
  have htrip : (s.sense die q temp base).Beside (if (decide (s.power.tlim + 10 ≤ temp) && !(powerOf s die q).stopped) = true
      then v.quadRecord die q cThermalTrip 1 else v) := by
    split
    · exact hlimit.trans hr
    · exact hlimit
  generalize (if (decide (s.power.tlim + 10 ≤ temp) && !(powerOf s die q).stopped) = true then _ else _ : State) = w at htrip ⊢
  rw [State.migrate_of_no_blocks (htrip.blocks.trans ((s.sense_frame die q temp base).1.trans hb)), ite_self, hpower htrip, State.sense_powerOf]
end
theorem execThermalReading_noQuad {s : State} {die q : Nat} {temp base : Int} (h : s.dieMap.nquads die ≤ q) :
    exec (.thermalReading die q temp base) s = .next s := by
  dsimp only [exec]
  unfold execThermalReading
  rw [if_pos h]

/-! ### Droops and stretched cycles (R506, R507) -/

theorem slotOk_iff {pat q n : Nat} : slotOk pat q n = true ↔ pat / 2 ^ ((n % 16 + 16 - q % 8) % 16) % 2 = 1 := beq_iff_eq
/-- The next permitted slot is the first within 32 cycles. -/
theorem State.nextSlot_some {s : State} {die q m n : Nat} (h : s.nextSlot die q m = some n) :
    let ok := fun i => s.patAt (quadKey die q) i / 2 ^ ((i % 16 + 16 - q % 8) % 16) % 2 = 1
    m ≤ n ∧ n < m + 32 ∧ ok n ∧ ∀ i, m ≤ i → i < n → ¬ ok i := by
  obtain ⟨hok, as, bs, hsplit, hbefore⟩ := List.find?_eq_some_iff_append.mp h
  have hlen := congrArg List.length hsplit
  simp only [List.length_map, List.length_range, List.length_append, List.length_cons] at hlen
  have hget : ∀ i < 32, ((List.range 32).map (· + m))[i]? = some (i + m) := fun i hi => by simp [List.getElem?_range hi]
  have hn : n = as.length + m := by
    have hi := hget as.length (by omega)
    rw [hsplit, List.getElem?_append_right le_rfl, Nat.sub_self] at hi
    exact Option.some.inj hi
  refine ⟨by omega, by omega, slotOk_iff.mp hok, fun i hm hi => ?_⟩
  have hmem := hget (i - m) (by omega)
  rw [hsplit, List.getElem?_append_left (by omega), Nat.sub_add_cancel hm] at hmem
  have hnot := hbefore i (List.mem_of_getElem? hmem)
  exact fun hslot => by simp [slotOk_iff.mpr hslot] at hnot
theorem tget_map_values {α : Type} (f : Nat × α → α) (t : Tbl α) (k : Nat) :
    tget (t.map fun p => (p.1, f p)) k = (tget t k).map fun v => f (k, v) := by
  induction t with
  | nil => rfl
  | cons p t ih =>
    obtain ⟨j, w⟩ := p
    rw [List.map_cons, tget, tget, ih]
    by_cases h : j = k
    · simp [h]
    · simp [h]
theorem State.le_cyc_reachCyc (s : State) (k n : Nat) : n ≤ ((s.reachCyc k n).quadAt k).cyc := by
  unfold State.reachCyc
  dsimp only
  split
  case isTrue h => exact h
  case isFalse h =>
    split
    case isFalse => rw [State.quadAt_setQuad_same]
    case isTrue hp =>
      have he : (fun (p : Nat × Quad) => if p.2.clock.isPinned = true then (p.1, { p.2 with cyc := p.2.cyc + (n - (s.quadAt k).cyc) }) else p) =
          fun p => (p.1, if p.2.clock.isPinned = true then { p.2 with cyc := p.2.cyc + (n - (s.quadAt k).cyc) } else p.2) := by
        funext p
        split <;> rfl
      unfold State.quadAt at h hp he ⊢
      simp only [he, tget_map_values (fun p : Nat × Quad => if p.2.clock.isPinned = true then
        { p.2 with cyc := p.2.cyc + (n - ((tget s.quads k).getD {}).cyc) } else p.2)]
      cases hk : tget s.quads k with
      | none =>
        rw [hk] at hp
        cases hp
      | some q =>
        rw [hk, Option.getD_some] at hp h
        simp only [Option.map_some, Option.getD_some, hp, if_true]
        omega
theorem execStretchedCycle_serves {s : State} {die q n : Nat} {low : Bool} (hs : (powerOf s die q).stretch = true)
    (hn : s.nextSlot die q (max (powerOf s die q).stretchFrom (quadOf s die q).cyc) = some n) : exec (.stretchedCycle die q low) s =
      .next ((s.reachCyc (quadKey die q) (n + 1)).setQuadPower (quadKey die q)
        { powerOf s die q with stretch := low, stretchFrom := n + 1, boost := (powerOf s die q).boost && low }) := by
  have hsome : (if (s.quadPower (quadKey die q)).stretch = true then
      s.nextSlot die q (max (s.quadPower (quadKey die q)).stretchFrom (s.quadAt (quadKey die q)).cyc) else none) = some n :=
    (if_pos hs).trans hn
  dsimp only [exec]
  unfold execStretchedCycle
  simp only [hsome]
  rfl
theorem execStretchedCycle_idle {s : State} {die q : Nat} {low : Bool} (h : (powerOf s die q).stretch = false ∨
    s.nextSlot die q (max (powerOf s die q).stretchFrom (quadOf s die q).cyc) = none) : exec (.stretchedCycle die q low) s = .next s := by
  have hnone : (if (s.quadPower (quadKey die q)).stretch = true then
      s.nextSlot die q (max (s.quadPower (quadKey die q)).stretchFrom (s.quadAt (quadKey die q)).cyc) else none) = none := by
    rcases h with h | h
    · exact if_neg (by rw [show (s.quadPower (quadKey die q)).stretch = false from h]; decide)
    · exact (congrArg (fun o => if (s.quadPower (quadKey die q)).stretch = true then o else none) h).trans (ite_self _)
  dsimp only [exec]
  unfold execStretchedCycle
  simp only [hnone]
theorem execDroopFloorExpiry_ends {s : State} {die q n : Nat} (h : (powerOf s die q).droopUntil = some n) : exec (.droopFloorExpiry die q) s =
    .next ((s.reachNs n).setQuadPower (quadKey die q) { powerOf s die q with droopUntil := none }) := by
  dsimp only [exec]
  unfold execDroopFloorExpiry
  simp only [show (s.quadPower (quadKey die q)).droopUntil = some n from h]
  rfl
theorem execDroopFloorExpiry_idle {s : State} {die q : Nat} (h : (powerOf s die q).droopUntil = none) :
    exec (.droopFloorExpiry die q) s = .next s := by
  dsimp only [exec]
  unfold execDroopFloorExpiry
  simp only [show (s.quadPower (quadKey die q)).droopUntil = none from h]

/-! ### Raises that wait for fixed-timing blocks (R40) -/

theorem State.drainFor_quads (s : State) (c : CoreRef) (l : Nat) (age : Option Nat) : (s.drainFor c l age).quads = s.quads := by
  unfold State.drainFor
  dsimp only
  split
  · rfl
  · exact foldl_keeps (P := fun t => t.quads = s.quads) (f := fun t x => t.setCore x _) (fun t x _ h => h) rfl
theorem State.raisePass_waits {s : State} {key n : Nat} (h : s.mayRaise key = false) : (s.raisePass key n).quads = s.quads := by
  unfold State.raisePass
  rw [if_neg (by simp [h])]
  refine foldl_keeps (P := fun t => t.quads = s.quads) (fun t k _ ht => ?_) rfl
  dsimp only
  have hd : (t.drainFor k.core k.launch none).quads = s.quads := (State.drainFor_quads ..).trans ht
  split
  · exact hd
  · exact hd
theorem State.mayRaise_iff {s : State} {key : Nat} : s.mayRaise key = true ↔ ∀ k ∈ s.blocks, (k.saved = true → k.evicted ≠ some key) ∧
    (k.saved = false → k.relaunch = false → s.quadKeyOf k.core = key → s.blockFixed k = false) := by
  simp only [State.mayRaise, State.fixedOn, State.awayFrom, Bool.and_eq_true, List.isEmpty_iff, List.filter_eq_nil_iff, Bool.not_eq_true',
    beq_iff_eq, not_and, Bool.not_eq_true, and_imp, ← forall₂_and, ne_eq]
  exact forall₂_congr fun k _ => and_comm

/-! ### Regulators (R511) -/

theorem bit_toNat {w : Nat} (v : BitVec w) (n : Nat) : bit v.toNat n = v.getLsbD n := bit_eq_testBit _ _
theorem getLsbD_or_shift {w : Nat} (v : BitVec w) {n : Nat} (h : n < w) (i : Nat) : (v ||| 1#w <<< n).getLsbD i = (v.getLsbD i || decide (i = n)) := by
  rw [BitVec.getLsbD_or, BitVec.getLsbD_shiftLeft, BitVec.getLsbD_one]
  congr 1
  rw [Bool.eq_iff_iff]
  simp only [Bool.and_eq_true, Bool.not_eq_true', decide_eq_true_eq, decide_eq_false_iff_not]
  omega
theorem foldl_or_shift (l : List Nat) (v : BitVec 24) {q : Nat} (hq : q < 24) :
    (l.foldl (fun (v : BitVec 24) q => v ||| (1#24 <<< q)) v).getLsbD q = true ↔ v.getLsbD q = true ∨ q ∈ l := by
  induction l generalizing v with
  | nil => simp
  | cons n l ih =>
    rw [List.foldl_cons, ih, List.mem_cons]
    by_cases hn : n < 24
    · rw [getLsbD_or_shift v hn, Bool.or_eq_true, decide_eq_true_eq, or_assoc]
    · rw [BitVec.shiftLeft_eq_zero (by omega), BitVec.or_zero]
      simp [show q ≠ n by omega]
/-- The failed regulators beside a regulator. -/
def State.failedNear (s : State) (die r : Nat) : List Nat := (s.dieMap.regNear die r).filter fun x => bit (s.diePower die).regfail.toNat x
/-- The quads that go dark when a regulator fails. -/
def State.darkQuads (s : State) (die r : Nat) : List Nat :=
  if (s.failedNear die r).isEmpty then [] else nub ((r :: s.failedNear die r).map fun r => s.dieMap.regQuad die r)
/-- A failure is noted. -/
def State.noteFailed (s : State) (die r : Nat) : State :=
  let u := s.setDiePower die { s.diePower die with
    regfail := (s.diePower die).regfail ||| (1#48 <<< r)
    dark := (s.darkQuads die r).foldl (fun (v : BitVec 24) q => v ||| (1#24 <<< q)) (s.diePower die).dark }
  u.setQuadPower (quadKey die (s.dieMap.regQuad die r)) (u.quadPower (quadKey die (s.dieMap.regQuad die r)))
theorem DieMap.not_isGd {m : DieMap} {die : Nat} (h : m.isSd die = true) : m.isGd die = false := by
  simp only [DieMap.isSd, DieMap.isGd, decide_eq_true_eq, Bool.and_eq_false_iff, decide_eq_false_iff_not] at h ⊢
  omega
theorem DieMap.regQuad_lt {m : DieMap} {die r : Nat} (h : m.isSd die = true) (hr : r < 48) : m.regQuad die r < 24 := by
  unfold DieMap.regQuad
  rw [DieMap.not_isGd h, if_neg Bool.false_ne_true]
  omega
theorem DieMap.lt_of_mem_regNear {m : DieMap} {die r x : Nat} (h : m.isSd die = true) (hx : x ∈ m.regNear die r) : x < 48 := by
  unfold DieMap.regNear at hx
  rw [DieMap.not_isGd h] at hx
  exact List.mem_range.mp (List.mem_filter.mp hx).1
theorem execRegFailed_skips {s : State} {die r : Nat} (h : (s.diePower die).regfail.getLsbD r = true ∨ 48 ≤ r ∨ s.dieMap.nquads die = 0) :
    exec (.regFailed die r) s = .next s := by
  dsimp only [exec]
  unfold execRegFailed
  dsimp only
  refine if_pos ?_
  rw [bit_toNat]
  rcases h with h | h
  · simp [h]
  · refine Bool.or_eq_true_iff.mpr (.inl (decide_eq_true ?_))
    unfold DieMap.nquads at h
    by_cases hsd : s.dieMap.isSd die = true
    · simp only [hsd, if_true] at h ⊢
      omega
    · by_cases hgd : s.dieMap.isGd die = true <;> simp only [hsd, hgd, if_true, if_false, Bool.false_eq_true] at h ⊢ <;> omega
section
variable {s : State} {die r : Nat} (hsd : s.dieMap.isSd die = true) (hr : r < 48) (hf : (s.diePower die).regfail.getLsbD r = false)
include hsd hr hf
theorem execRegFailed_fails : ∃ u, (s.noteFailed die r).Beside u ∧
    exec (.regFailed die r) s = .next ((s.darkQuads die r).foldl (fun s q => s.darken (quadKey die q)) u) := by
  refine ⟨_, State.errRecord_beside _ { cause := cRegFailed, sev := if (s.failedNear die r).isEmpty then 1 else 3, die := die, unit := 8, uidx := r }, ?_⟩
  dsimp only [exec]
  unfold execRegFailed
  dsimp only
  rw [if_neg (by simpa [hsd, hr, bit_toNat] using hf)]
  rfl
omit hsd hr hf in
theorem State.noteFailed_diePower : (s.noteFailed die r).diePower die = { s.diePower die with
    regfail := (s.diePower die).regfail ||| (1#48 <<< r)
    dark := (s.darkQuads die r).foldl (fun (v : BitVec 24) q => v ||| (1#24 <<< q)) (s.diePower die).dark } :=
  State.diePower_setDiePower_same ..
omit hsd hr hf in
theorem State.failedNear_eq_nil (h : ∀ x ∈ s.dieMap.regNear die r, (s.diePower die).regfail.getLsbD x = false) : s.failedNear die r = [] :=
  List.filter_eq_nil_iff.mpr fun x hx => by rw [bit_toNat, h x hx]; exact Bool.false_ne_true
/-- A regulator that fails among good ones darkens nothing; its quad's floor is 2. -/
theorem execRegFailed_alone (hnear : ∀ x ∈ s.dieMap.regNear die r, (s.diePower die).regfail.getLsbD x = false) :
    ∃ t, exec (.regFailed die r) s = .next t ∧ (t.diePower die).regfail = (s.diePower die).regfail ||| 1#48 <<< r ∧
      (t.diePower die).dark = (s.diePower die).dark ∧ t.blocks = s.blocks ∧ 2 ≤ t.floorOf die (s.dieMap.regQuad die r) := by
  obtain ⟨u, hu, he⟩ := execRegFailed_fails hsd hr hf
  have hdark : s.darkQuads die r = [] := if_pos (by rw [State.failedNear_eq_nil hnear]; rfl)
  have hd : u.diePower die = (s.noteFailed die r).diePower die := by simp only [State.diePower, hu.power]
  rw [State.noteFailed_diePower, hdark] at hd
  rw [hdark] at he
  refine ⟨u, he, by rw [hd], by rw [hd]; rfl, hu.blocks, State.two_le_floorOf (.inl ?_)⟩
  rw [show s.dieMap = u.dieMap from hu.dieMap.symm]
  refine State.quadReg_of_failed hr ?_
  rw [hd]
  exact (getLsbD_or_shift _ hr r).trans (by simp)
/-- Two neighbouring regulators that have failed darken their quads. -/
theorem execRegFailed_darkens {x : Nat} (hx : x ∈ s.dieMap.regNear die r) (hxf : (s.diePower die).regfail.getLsbD x = true) :
    ∃ t, exec (.regFailed die r) s = .next t ∧ (s.blocks = [] → (t.diePower die).dark.getLsbD (s.dieMap.regQuad die r) = true ∧
      (t.diePower die).dark.getLsbD (s.dieMap.regQuad die x) = true) := by
  obtain ⟨u, hu, he⟩ := execRegFailed_fails hsd hr hf
  refine ⟨_, he, fun hb => ?_⟩
  have hub : u.blocks = [] := hu.blocks.trans hb
  have hfold : (s.darkQuads die r).foldl (fun s q => s.darken (quadKey die q)) u = u :=
    foldl_keeps (P := fun t => t = u) (fun t q _ ht => ht ▸ State.darken_of_no_blocks hub _) rfl
  have hmem : x ∈ s.failedNear die r := List.mem_filter.mpr ⟨hx, (bit_toNat ..).trans hxf⟩
  have hdark : s.darkQuads die r = nub ((r :: s.failedNear die r).map fun r => s.dieMap.regQuad die r) :=
    if_neg (by simpa using List.ne_nil_of_mem hmem)
  have hd : u.diePower die = (s.noteFailed die r).diePower die := by simp only [State.diePower, hu.power]
  rw [hfold, hd, State.noteFailed_diePower]
  have hin : ∀ y ∈ r :: s.failedNear die r, s.dieMap.regQuad die y ∈ s.darkQuads die r := fun y hy =>
    hdark ▸ mem_nub.mpr (List.mem_map.mpr ⟨y, hy, rfl⟩)
  exact ⟨(foldl_or_shift _ _ (DieMap.regQuad_lt hsd hr)).mpr (.inr (hin r List.mem_cons_self)),
    (foldl_or_shift _ _ (DieMap.regQuad_lt hsd (DieMap.lt_of_mem_regNear hsd hx))).mpr (.inr (hin x (List.mem_cons_of_mem _ hmem)))⟩
end

/-! ### PWRLIM (R504, R506) -/

theorem toNat_append_add {v w : Nat} (x : BitVec v) (y : BitVec w) : (x ++ y).toNat = x.toNat * 2 ^ w + y.toNat := by
  rw [BitVec.toNat_append, ← Nat.shiftLeft_add_eq_or_of_lt y.isLt, Nat.shiftLeft_eq]
/-- The fields TLIM and SWPAT that a write leaves. -/
def pwrlimTlim (v free : DWord) : BitVec 8 :=
  if bits v.toNat 47 40 < 70 then free.extractLsb' 0 8 else BitVec.ofNat 8 (min 105 (bits v.toNat 47 40))
def pwrlimPat (old v : DWord) : BitVec 16 :=
  if 2 < ((List.range 16).filter fun i => bit (bits v.toNat 15 0) i).length then old.extractLsb' 0 16 else BitVec.ofNat 16 (bits v.toNat 15 0)
theorem pwrlimTlim_toNat {v : DWord} (free : DWord) (h : 70 ≤ v.toNat / 2 ^ 40 % 256) :
    (pwrlimTlim v free).toNat = min 105 (v.toNat / 2 ^ 40 % 256) := by
  have hb : bits v.toNat 47 40 = v.toNat / 2 ^ 40 % 256 := rfl
  rw [pwrlimTlim, hb, if_neg (Nat.not_lt.mpr h), BitVec.toNat_ofNat]
  exact Nat.mod_eq_of_lt (lt_of_le_of_lt (min_le_left _ _) (by decide))
theorem pwrlimPat_toNat (old v : DWord) : (pwrlimPat old v).toNat =
    if ((List.range 16).filter fun i => v.getLsbD i).length ≤ 2 then v.toNat % 2 ^ 16 else old.toNat % 2 ^ 16 := by
  have hbits : ((List.range 16).filter fun i => bit (bits v.toNat 15 0) i) = (List.range 16).filter fun i => v.getLsbD i := by
    refine List.filter_congr fun i hi => ?_
    have hlt : i < 16 := List.mem_range.mp hi
    rw [bit_eq_testBit, bits, show 15 - 0 + 1 = 16 from rfl, Nat.testBit_mod_two_pow, Nat.pow_zero, Nat.div_one, decide_eq_true hlt, Bool.true_and]
    rfl
  unfold pwrlimPat
  rw [hbits]
  split
  case isTrue h => rw [if_neg (by omega), BitVec.extractLsb'_toNat, Nat.shiftRight_zero]
  case isFalse h =>
    rw [if_pos (by omega), BitVec.toNat_ofNat]
    simp [bits]
/-- The word that a write leaves, field by field. -/
theorem pwrlimNew_toNat (old v free : DWord) : ∃ gl wl : Nat, 5 ≤ gl ∧ gl ≤ 30 ∧ wl < 2 ^ 16 ∧
    (pwrlimNew old v free).toNat = (((max 500 (min 3600 (v.toNat / 2 ^ 48)) * 2 ^ 8 + (pwrlimTlim v free).toNat) * 2 ^ 8 + gl) * 2 ^ 16 + wl) * 2 ^ 16 +
      (pwrlimPat old v).toNat := by
  have hp : (BitVec.ofNat 16 (max 500 (min 3600 (bits v.toNat 63 48)))).toNat = max 500 (min 3600 (v.toNat / 2 ^ 48)) := by
    have := v.isLt
    rw [BitVec.toNat_ofNat, bits, Nat.mod_eq_of_lt (a := v.toNat / 2 ^ 48) (by omega)]
    omega
  have hg : (BitVec.ofNat 8 (max 5 (min 30 (bits v.toNat 39 32)))).toNat = max 5 (min 30 (bits v.toNat 39 32)) := by
    rw [BitVec.toNat_ofNat]
    omega
  refine ⟨max 5 (min 30 (bits v.toNat 39 32)), (BitVec.ofNat 16 (max 1 (bits v.toNat 31 16))).toNat, le_max_left _ _, by omega, BitVec.isLt _, ?_⟩
  rw [← hp, ← hg, ← toNat_append_add, ← toNat_append_add, ← toNat_append_add, ← toNat_append_add]
  rfl
theorem pwrlimNew_fields {p : Power} {old v free : DWord} (h : p.pwrlim = pwrlimNew old v free) :
    p.plim = max 500 (min 3600 (v.toNat / 2 ^ 48)) ∧ p.tlim = (pwrlimTlim v free).toNat ∧ 5 ≤ p.glim ∧ p.glim ≤ 30 ∧
      p.swpat = (pwrlimPat old v).toNat := by
  obtain ⟨gl, wl, hg5, hg30, hwl, hv⟩ := pwrlimNew_toNat old v free
  have ht := (pwrlimTlim v free).isLt
  have hpat := (pwrlimPat old v).isLt
  simp only [Power.plim, Power.tlim, Power.glim, Power.swpat, bits, h, hv]
  refine ⟨?_, ?_, ?_, ?_, ?_⟩ <;> omega

/-- The quads of every die. -/
def State.allQuads (s : State) : List Nat :=
  ((List.range (s.dieMap.nsd + s.dieMap.ngd)).map fun d => (List.range (s.dieMap.nquads d)).map fun q => quadKey d q).flatten
theorem State.mem_allQuads {s : State} {d q : Nat} (hd : d < s.dieMap.nsd + s.dieMap.ngd) (hq : q < s.dieMap.nquads d) :
    quadKey d q ∈ s.allQuads :=
  List.mem_flatten.mpr ⟨_, List.mem_map.mpr ⟨d, List.mem_range.mpr hd, rfl⟩, List.mem_map.mpr ⟨q, List.mem_range.mpr hq, rfl⟩⟩
/-- A quad keeps its pattern until its next cycle of slot 0. -/
def State.holdPattern (s : State) (key : Nat) : State :=
  s.setQuadPower key { s.quadPower key with
    oldPat := BitVec.ofNat 16 (s.patAt key (s.quadAt key).cyc), patFrom := 16 * ((s.quadAt key).cyc / 16 + 1) }
theorem State.patAt_lt (s : State) (key n : Nat) : s.patAt key n < 2 ^ 16 := by
  unfold State.patAt
  dsimp only
  split
  · exact BitVec.isLt _
  · exact Nat.mod_lt _ (by decide)

/-- What a quad holds once its pattern is held: the pattern that was in effect in s. -/
def State.Held (s : State) (key : Nat) (t : State) : Prop :=
  (t.quadPower key).patFrom = 16 * ((s.quadAt key).cyc / 16 + 1) ∧ (t.quadPower key).oldPat.toNat = s.patAt key (s.quadAt key).cyc
/-- No pattern in effect has changed, nor a cycle counter nor PWRLIM. -/
structure State.SamePatterns (s t : State) : Prop where
  quads : t.quads = s.quads
  pwrlim : t.power.pwrlim = s.power.pwrlim
  inEffect : ∀ k, t.patAt k (s.quadAt k).cyc = s.patAt k (s.quadAt k).cyc
section
variable {s t : State} (h : s.SamePatterns t)
include h
theorem State.SamePatterns.quadAt (k : Nat) : t.quadAt k = s.quadAt k := by
  simp only [State.quadAt, h.quads]
theorem State.SamePatterns.holdPattern_held (x : Nat) : s.Held x (t.holdPattern x) := by
  unfold State.Held State.holdPattern
  rw [State.quadPower_setQuadPower_same, h.quadAt x, h.inEffect x]
  exact ⟨rfl, (BitVec.toNat_ofNat ..).trans (Nat.mod_eq_of_lt (s.patAt_lt ..))⟩
theorem State.SamePatterns.holdPattern (x : Nat) : s.SamePatterns (t.holdPattern x) := by
  obtain ⟨hq, hw, hp⟩ := h
  refine ⟨hq, hw, fun k => ?_⟩
  by_cases hk : k = x
  · subst hk
    obtain ⟨hfrom, hold⟩ := State.SamePatterns.holdPattern_held ⟨hq, hw, hp⟩ k
    rw [State.patAt, hfrom, if_pos (by omega), hold]
  · rw [← hp k]
    simp only [State.patAt, State.holdPattern, State.quadPower_setQuadPower_other _ _ hk]
    rfl
end
theorem State.Held.holdPattern {s t : State} {k : Nat} (h : s.SamePatterns t) (hk : s.Held k t) (x : Nat) : s.Held k (t.holdPattern x) := by
  by_cases e : k = x
  · exact e ▸ h.holdPattern_held x
  · unfold State.Held State.holdPattern
    rw [State.quadPower_setQuadPower_other _ _ e]
    exact hk
theorem foldl_holdPattern (s : State) {l : List Nat} {k : Nat} (hk : k ∈ l) : s.Held k (l.foldl State.holdPattern s) :=
  foldl_establishes (I := s.SamePatterns) (fun _ x h => h.holdPattern x) (fun _ x h => h.holdPattern_held x)
    (fun _ x _ h hy => hy.holdPattern h x) ⟨rfl, rfl, fun _ => rfl⟩ hk
/-- The pattern in effect stays until the next cycle of slot 0, and the new one counts from there (R506). -/
theorem State.Held.patAt {s t : State} {k : Nat} (h : s.Held k t) :
    t.patAt k (s.quadAt k).cyc = s.patAt k (s.quadAt k).cyc ∧ ∀ m, 16 * ((s.quadAt k).cyc / 16 + 1) ≤ m → t.patAt k m = t.power.swpat := by
  obtain ⟨hfrom, hold⟩ := h
  unfold State.patAt at hold ⊢
  dsimp only at hold ⊢
  rw [hfrom]
  exact ⟨by rw [if_pos (by omega), hold], fun m hm => if_neg (Nat.not_lt.mpr hm)⟩
theorem State.holdPattern_controlled (s : State) (key : Nat) : s.Controlled (s.holdPattern key) := State.setQuadPower_controlled ..
theorem execPwrlimWrite_spec (s : State) (v : BitVec 64) : ∃ t, exec (.pwrlimWrite v) s = .next t ∧ t.mem = s.mem ∧
    t.power.pwrlim = pwrlimNew s.power.pwrlim v s.freeVal ∧ ∀ k ∈ s.allQuads, s.Held k t := by
  have hheld := fun k (hk : k ∈ s.useFree.allQuads) => foldl_holdPattern s.useFree hk
  refine ⟨_, rfl, ?_, rfl, hheld⟩
  show (s.useFree.allQuads.foldl State.holdPattern s.useFree).mem = s.mem
  obtain ⟨T, hT⟩ := foldl_controlled State.holdPattern_controlled s.useFree.allQuads s.useFree
  rw [hT]
  rfl

/-! ### The statement -/

/-- Settles O53, event by event, from what each leaves of the controller's state, the pass-counts and the blocks. -/
theorem powerEvents : Obligations.PowerEvents := by
  unfold Obligations.PowerEvents
  refine ⟨fun s die m => ?_, fun s die quad nj c n => ?_, fun s die q temp base hq ht hg => ?_, fun s die q temp base hq hb => ?_,
    fun s die q temp base => execThermalReading_noQuad, fun s die q => ⟨s.thermal_le_floorOf die q, State.two_le_floorOf⟩, fun s die q => rfl,
    fun s die q => rfl, fun s die q => ?_, fun s die q n h => ?_, fun s die q => execDroopFloorExpiry_idle, fun s die q n low hs hn => ?_,
    fun s die q low => execStretchedCycle_idle, fun s die q m n => State.nextSlot_some, fun s die q => rfl, fun s die r hsd hr hf hnear => ?_,
    fun s die r x hsd hr hf hx hxf => ?_, fun s die r => execRegFailed_skips, fun s key n => ⟨fun h => if_pos h, State.raisePass_waits, State.mayRaise_iff⟩,
    fun s v => ?_, fun s v => ?_⟩
  · obtain ⟨t, ht, ⟨hw, hm, hb, hover⟩, hup, hdown, hsame⟩ := execPowerEvaluation_spec s die m
    exact ⟨t, ht, hw, hm, hb, hover, hup, hdown, hsame⟩
  · refine ⟨_, exec_energyAccounting_one s die quad nj c n, ?_, rfl, rfl, rfl⟩
    simp only [addNj, beq_iff_eq]
  · obtain ⟨hblocks, hmem⟩ := s.sense_frame die q temp base
    refine ⟨_, execThermalReading_cold hq ht hg, ?_⟩
    rw [State.sense_powerOf]
    exact ⟨rfl, QuadPower.sensed_thermal_cold _ ht hg, QuadPower.sensed_stopped_cold _ _ _ ht, rfl, hblocks, hmem⟩
  · obtain ⟨t, ht, hp⟩ := execThermalReading_noBlocks (temp := temp) (base := base) hq hb
    refine ⟨t, ht, ?_⟩
    rw [hp]
    exact ⟨rfl, rfl, QuadPower.sensed_thermal_limit _ _ _, QuadPower.sensed_thermal_hot _, QuadPower.sensed_stopped_trip _ _ _,
      QuadPower.sensed_stopped_between _ _ _⟩
  · refine ⟨_, rfl, ?_, ?_, (State.errRecord_beside ..).blocks⟩
    · rw [powerOf_setQuadPower]
    · rw [powerOf_setQuadPower]
  · refine ⟨_, execDroopFloorExpiry_ends h, ?_, le_max_right _ _, rfl⟩
    rw [powerOf_setQuadPower]
  · refine ⟨_, execStretchedCycle_serves hs hn, State.le_cyc_reachCyc .., ?_, ?_, State.reachCyc_blocks ..⟩
    · rw [powerOf_setQuadPower]
    · rw [powerOf_setQuadPower]
  · exact execRegFailed_alone hsd hr hf hnear
  · exact execRegFailed_darkens hsd hr hf hx hxf
  · obtain ⟨t, he, -, -, hheld⟩ := execPwrlimWrite_spec s v
    exact ⟨t, he, fun d hd q hq => (hheld _ (State.mem_allQuads hd hq)).patAt⟩
  · obtain ⟨t, he, hm, hw, -⟩ := execPwrlimWrite_spec s v
    obtain ⟨hplim, htlim, hg5, hg30, hpat⟩ := pwrlimNew_fields hw
    refine ⟨t, he, hm, by omega, by omega, by omega, fun h => ?_, hg5, hg30, ?_⟩
    · rw [htlim, pwrlimTlim_toNat _ h]
    · rw [hpat, pwrlimPat_toNat]
      simp only [Power.swpat, bits, Nat.pow_zero, Nat.div_one]

end Sys2Proof.Machine
end

section
/-! PROOFS. The memory at the homes keeps its canonical form (spec/03_memory_model.md R65): each instruction and event keeps it, so does
what a step does besides, and the statement about every step (O58). -/

namespace Sys2Proof.Machine
open Sys2Proof.Safety

theorem canonical_of_mem {s t : State} (h : Canonical s) (e : t.mem = s.mem) : Canonical t := by
  rw [Canonical, e]
  exact h

/-- Every instruction and every event keeps the canonical form: its law under Laws says so, or says that it writes no memory. -/
theorem exec_canonical {i : Instr} {s t : State} (h : Canonical s) (ht : exec i s = .next t) : Canonical t := by
  cases i with
  | nop | mov | movi | movk | iadd | iaddI | isub | isubI | imul | imulI | imulhi | imad | imadw | iadd64 | isub64 | imin | iminI
  | imax | imaxI | iabs | ineg | logt | and | andI | or | orI | xor | xorI | not | shl | shlI | shr | shrI | sar | sarI | shf | bfx
  | bfi | popc | clz | ctz | brev | prmb | iset | isetI | iset64 | sel | lea | leaI | i2i | plop | pset | srd | cyc | gpoll | gxch
  | gpeer | bra | fadd | faddI | fmul | fmulI | ffma | fmulz | fmin | fmax | fset | fsetI | fclass | frnd | f2i | i2f | f2f | fsf
  | pkadd | pkmul | pkfma | pkdot | dadd | dmul | dfma | setprio | tmode | xldec | qfeat => exact issueAlu_canon _ _ _ _ _ h ht
  | brx => exact execBrx_canon _ _ h ht
  | call => exact execCall_canon _ _ h ht
  | ret => exact execRet_canon _ _ h ht
  | exit => exact execExit_canon _ _ h ht
  | jset => exact execJset_canon _ _ h ht
  | jwait => exact execJwait_canon _ _ h ht
  | yield => exact execYield_canon _ _ h ht
  | ld => exact execLd_canon _ _ h ht
  | st => exact execSt_canon _ _ h ht
  | ldl => exact execLdl_canon _ _ h ht
  | stl => exact execStl_canon _ _ h ht
  | ldp => exact execLdp_canon _ _ h ht
  | stp => exact execStp_canon _ _ h ht
  | ldk => exact execLdk_canon _ _ h ht
  | atom => exact execAtom_canon _ _ h ht
  | red => exact execRed_canon _ _ h ht
  | atoml => exact execAtoml_canon _ _ h ht
  | acq => exact execAcq_canon _ _ h ht
  | rel => exact execRel_canon _ _ h ht
  | phase => exact execPhase_canon _ _ h ht
  | pref => exact execPref_canon _ _ h ht
  | cline => exact execCline_canon _ _ h ht
  | drainst => exact execDrainst_canon _ _ h ht
  | vcqry => exact execVcqry_canon _ _ h ht
  | bar => exact execBar_canon _ _ h ht
  | bararv => exact execBararv_canon _ _ h ht
  | barwait => exact execBarwait_canon _ _ h ht
  | boinit => exact execBoinit_canon _ _ h ht
  | boexp => exact execBoexp_canon _ _ h ht
  | boarv => exact execBoarv_canon _ _ h ht
  | bowait => exact execBowait_canon _ _ h ht
  | botest => exact execBotest_canon _ _ h ht
  | qdef => exact execQdef_canon _ _ h ht
  | qpush => exact execQpush_canon _ _ h ht
  | qpop => exact execQpop_canon _ _ h ht
  | qtry => exact execQtry_canon _ _ h ht
  | cpy => exact execCpy_canon _ _ h ht
  | cpyg => exact execCpyg_canon _ _ h ht
  | cpys => exact execCpys_canon _ _ h ht
  | cpyfill => exact execCpyfill_canon _ _ h ht
  | ctload => exact execCtload_canon _ _ h ht
  | decent => exact execDecent_canon _ _ h ht
  | decbr => exact execDecbr_canon _ _ h ht
  | mresv => exact execMresv_canon _ _ h ht
  | mrels => exact execMrels_canon _ _ h ht
  | mload => exact execMload_canon _ _ h ht
  | mcbl => exact execMcbl_canon _ _ h ht
  | mma => exact execMma_canon _ _ h ht
  | mmai => exact execMmai_canon _ _ h ht
  | mzero => exact execMzero_canon _ _ h ht
  | mstore => exact execMstore_canon _ _ h ht
  | mstat => exact execMstat_canon _ _ h ht
  | mchk => exact execMchk_canon _ _ h ht
  | rayq => exact execRayq_canon _ _ h ht
  | sqnop f => exact execSqnop_canon f _ h ht
  | sqloop => exact execSqloop_canon _ _ h ht
  | sqend f => exact execSqend_canon f _ h ht
  | sqwaitc => exact execSqwaitc_canon _ _ h ht
  | sqboarv => exact execSqboarv_canon _ _ h ht
  | sqbowait => exact execSqbowait_canon _ _ h ht
  | seqCpy => exact execSeqCpy_canon _ _ h ht
  | seqCpyg => exact execSeqCpyg_canon _ _ h ht
  | seqCpys => exact execSeqCpys_canon _ _ h ht
  | seqCpyfill => exact execSeqCpyfill_canon _ _ h ht
  | seqCtload => exact execSeqCtload_canon _ _ h ht
  | seqDecent => exact execSeqDecent_canon _ _ h ht
  | seqDecbr => exact execSeqDecbr_canon _ _ h ht
  | seqMresv => exact execSeqMresv_canon _ _ h ht
  | seqMrels => exact execSeqMrels_canon _ _ h ht
  | seqMload => exact execSeqMload_canon _ _ h ht
  | seqMcbl => exact execSeqMcbl_canon _ _ h ht
  | seqMma => exact execSeqMma_canon _ _ h ht
  | seqMmai => exact execSeqMmai_canon _ _ h ht
  | seqMzero => exact execSeqMzero_canon _ _ h ht
  | seqMstore => exact execSeqMstore_canon _ _ h ht
  | seqMstat => exact execSeqMstat_canon _ _ h ht
  | seqMchk => exact execSeqMchk_canon _ _ h ht
  | paypush => exact execPaypush_canon _ _ h ht
  | paypop => exact execPaypop_canon _ _ h ht
  | mcount => exact execMcount_canon _ _ h ht
  | mvert => exact execMvert_canon _ _ h ht
  | mprim => exact execMprim_canon _ _ h ht
  | mdone => exact execMdone_canon _ _ h ht
  | vispop => exact execVispop_canon _ _ h ht
  | visget => exact execVisget_canon _ _ h ht
  | rgnacq => exact execRgnacq_canon _ _ h ht
  | rgnrel => exact execRgnrel_canon _ _ h ht
  | rtblend => exact execRtblend_canon _ _ h ht
  | tex => exact execTex_canon _ _ h ht
  | tld => exact execTld_canon _ _ h ht
  | tqry => exact execTqry_canon _ _ h ht
  | trap => exact execTrap_canon _ _ h ht
  | tret => exact execTret_canon _ _ h ht
  | frginfo => exact execFrginfo_canon _ _ h ht
  | sfqpop => exact execSfqpop_canon _ _ h ht
  | killf => exact execKillf_canon _ _ h ht
  | bpt => exact execBpt_canon _ _ h ht
  | launch => exact execLaunch_canon _ _ h ht
  | fork => exact execFork_canon _ _ h ht
  | rdv => exact execRdv_canon _ _ h ht
  | xlmap => exact execXlmap_canon _ _ h ht
  | xlmapRaise => exact execXlmapRaise_canon _ _ h ht
  | vcdef => exact execVcdef_canon _ _ h ht
  | vcsize => exact execVcsize_canon _ _ h ht
  | vcmove => exact execVcmove_canon _ _ h ht
  | vcflush => exact execVcflush_canon _ _ h ht
  | biasflip => exact execBiasflip_canon _ _ h ht
  | clauseIssue => exact execClauseIssue_canon _ _ _ h ht
  | descheduleExpiry => exact canonical_of_mem h (execDescheduleExpiry_mem _ _ _ ht)
  | yieldExpiry => exact canonical_of_mem h (execYieldExpiry_mem _ _ _ ht)
  | stallExpiry => exact canonical_of_mem h (execStallExpiry_mem _ _ _ ht)
  | slotLanding => exact canonical_of_mem h (execSlotLanding_mem _ _ _ _ ht)
  | homeRelease => exact execHomeRelease_canon _ _ h ht
  | homeAcquire => exact execHomeAcquire_canon _ _ h ht
  | homeAtomic => exact execHomeAtomic_canon _ _ h ht
  | homeFill => exact execHomeFill_canon _ _ h ht
  | demandWriteBack => exact canonical_of_mem h (execDemandWriteBack_mem _ _ _ ht)
  | writeBackArrival => exact execWriteBackArrival_canon _ _ _ h ht
  | writeBackAck => exact execWriteBackAck_canon _ _ h ht
  | boostNotice => exact canonical_of_mem h (execBoostNotice_mem _ _ _ _ ht)
  | pageMoveSweepStep => exact canonical_of_mem h (execPageMoveSweepStep_mem _ _ _ _ ht)
  | vcCommandLanding => exact execVcCommandLanding_canon _ _ h ht
  | biasflipComplete => exact execBiasflipComplete_canon _ _ h ht
  | engineDelivery => exact execEngineDelivery_canon _ _ h ht
  | matrixOpStart => exact canonical_of_mem h (execMatrixOpStart_mem _ _ ht)
  | sqwaitcExpiry => exact canonical_of_mem h (execSqwaitcExpiry_mem _ _ _ ht)
  | frontEndRequest => exact canonical_of_mem h (execFrontEndRequest_mem _ _ ht)
  | paypushLanding => exact canonical_of_mem h (execPaypushLanding_mem _ _ ht)
  | packetArrival => exact execPacketArrival_canon _ _ _ h ht
  | watermarkFlit => exact canonical_of_mem h (execWatermarkFlit_mem _ _ _ _ _ ht)
  | launchHead => exact execLaunchHead_canon _ _ _ h ht
  | blockPlace => exact canonical_of_mem h (execBlockPlace_mem _ _ ht)
  | completionRecord => exact execCompletionRecord_canon _ _ h ht
  | preempt => exact canonical_of_mem h (execPreempt_mem _ _ ht)
  | graceExpiry => exact canonical_of_mem h (execGraceExpiry_mem _ _ ht)
  | engineDrainExpiry => exact execEngineDrainExpiry_canon _ _ h ht
  | blockRestore => exact canonical_of_mem h (execBlockRestore_mem _ _ _ ht)
  | fixedClockChange => exact canonical_of_mem h (execFixedClockChange_mem _ _ _ ht)
  | blockRelaunch => exact canonical_of_mem h (execBlockRelaunch_mem _ _ _ ht)
  | billingSend => exact canonical_of_mem h (execBillingSend_mem _ _ _ ht)
  | bootStep => exact canonical_of_mem h (execBootStep_mem _ _ ht)
  | create => exact execCreate_canon _ _ _ _ h ht
  | destroy => exact execDestroy_canon _ _ _ _ h ht
  | inval => exact execInval_canon _ _ _ _ h ht
  | frmopen => exact execFrmopen_canon _ _ _ _ h ht
  | frmclose => exact execFrmclose_canon _ _ _ _ h ht
  | frmrel => exact execFrmrel_canon _ _ _ _ h ht
  | resans => exact execResans_canon _ _ _ _ h ht
  | qbind => exact execQbind_canon _ _ _ _ h ht
  | migout => exact execMigout_canon _ _ _ _ h ht
  | migin => exact execMigin_canon _ _ _ _ h ht
  | hostCommandComplete => exact canonical_of_mem h (execHostCommandComplete_mem _ ht)
  | waitTimeout => exact execWaitTimeout_canon _ _ h ht
  | eviction => exact canonical_of_mem h (execEviction_mem _ _ _ ht)
  | directoryRecall => exact execDirectoryRecall_canon _ _ h ht
  | dirtyNotice => exact canonical_of_mem h (execDirtyNotice_mem _ _ _ ht)
  | hostSnoop => exact execHostSnoop_canon _ _ _ h ht
  | hostMemAccess => exact execHostMemAccess_canon _ _ _ h ht
  | bankSleep => exact canonical_of_mem h (execBankSleep_mem _ _ _ ht)
  | l2DectedSwitch => exact canonical_of_mem h (execL2DectedSwitch_mem _ _ ht)
  | mresvPartnerTimeout => exact canonical_of_mem h (execMresvPartnerTimeout_mem _ _ ht)
  | tokenTimeout => exact canonical_of_mem h (execTokenTimeout_mem _ _ _ ht)
  | frameTimeout => exact canonical_of_mem h (execFrameTimeout_mem _ _ ht)
  | pipelineEvaluation => exact canonical_of_mem h (execPipelineEvaluation_mem _ _ ht)
  | quadGate => exact canonical_of_mem h (execQuadGate_mem _ _ _ ht)
  | uncorrectableError => exact execUncorrectableError_canon _ _ h ht
  | corrected => exact execCorrected_canon _ _ h ht
  | scrub => exact execScrub_canon _ _ h ht
  | dieLost => exact execDieLost_canon _ _ h ht
  | heartbeatSend => exact canonical_of_mem h (execHeartbeatSend_mem _ ht)
  | silenceNotice => exact execSilenceNotice_canon _ _ _ h ht
  | linkLaneLoss => exact canonical_of_mem h (execLinkLaneLoss_mem _ _ _ ht)
  | linkRetrainDone => exact execLinkRetrainDone_canon _ _ _ h ht
  | remoteRequest => exact execRemoteRequest_canon _ _ h ht
  | podArrivalFlit => exact canonical_of_mem h (execPodArrivalFlit_mem _ _ _ ht)
  | podReleaseFlit => exact canonical_of_mem h (execPodReleaseFlit_mem _ _ ht)
  | billingFlit => exact canonical_of_mem h (execBillingFlit_mem _ _ _ _ ht)
  | fabricEnable => exact execFabricEnable_canon _ _ h ht
  | lostMarkClear => exact canonical_of_mem h (execLostMarkClear_mem _ _ ht)
  | powerEvaluation => exact canonical_of_mem h (execPowerEvaluation_mem _ _ _ ht)
  | energyAccounting => exact canonical_of_mem h (execEnergyAccounting_mem _ _ _ _ _ ht)
  | thermalReading => exact execThermalReading_canon _ _ _ _ _ h ht
  | droopDetect => exact canonical_of_mem h (execDroopDetect_mem _ _ _ ht)
  | droopLimit => exact execDroopLimit_canon _ _ _ h ht
  | droopRecover => exact canonical_of_mem h (execDroopRecover_mem _ _ _ ht)
  | droopFloorExpiry => exact canonical_of_mem h (execDroopFloorExpiry_mem _ _ _ ht)
  | regFailed => exact execRegFailed_canon _ _ _ h ht
  | pwrlimWrite => exact canonical_of_mem h (execPwrlimWrite_mem _ _ ht)
  | packageReset => exact execPackageReset_canon _ h ht
  | pkgctlRst => exact execPkgctlRst_canon _ _ h ht
  | tailReread => exact canonical_of_mem h (execTailReread_mem _ _ _ ht)
  | registerWrite => exact execRegisterWrite_canon _ _ _ h ht
  | stretchedCycle => exact canonical_of_mem h (execStretchedCycle_mem _ _ _ _ ht)
  | shuntClamp die quad => exact canonical_of_mem h (execShuntClamp_mem die quad _ ht)
  | way7ReturnToVc1 => exact canonical_of_mem h (execWay7ReturnToVc1_mem _ _ ht)

/-! ### A step -/

/-- If the outcome is a next state, its memory is canonical. -/
def NextCanonical (o : Out) : Prop := ∀ t, o = .next t → Canonical t

theorem nextCanonical_next {t : State} (h : Canonical t) : NextCanonical (.next t) := fun _ ht => Host.Outcome.next.inj ht ▸ h
theorem nextCanonical_ite {c : Prop} [Decidable c] {a b : Out} (ha : NextCanonical a) (hb : NextCanonical b) :
    NextCanonical (if c then a else b) := by
  split <;> assumption
theorem nextCanonical_andThen {f : State → State} {o : Out} (hf : ∀ t, Canonical t → Canonical (f t)) (ho : NextCanonical o) :
    NextCanonical (andThen f o) := by
  cases o with
  | next u => exact nextCanonical_next (hf u (ho u rfl))
  | fault | refused => exact nofun
theorem nextCanonical_finish {o : Out} (ho : NextCanonical o) : NextCanonical (finish o) :=
  nextCanonical_andThen (fun t ht => State.after_canon t ht) ho
theorem nextCanonical_exec {s : State} (h : Canonical s) (i : Instr) : NextCanonical (exec i s) := fun _ ht => exec_canonical h ht

/-- The issue of the front group or sequencer executes an instruction, or traps the group, ends the program, fetches or waits. -/
theorem issueFront_canonical {s : State} (h : Canonical s) : NextCanonical (issueFront s) := by
  unfold issueFront
  split
  · split
    · exact nextCanonical_next h
    · refine nextCanonical_ite (nextCanonical_next (canonical_of_mem h (State.rotate_mem s))) ?_
      dsimp only
      have hu : ∀ key d, Canonical (s.reachDue key d).clearDue := fun key d =>
        canonical_of_mem h ((State.clearDue_mem _).trans (State.reachDue_mem s key d))
      split
      · exact nextCanonical_andThen (fun t ht => canonical_of_mem ht (State.pace_mem t _ _ _)) (nextCanonical_exec (hu _ _) _)
      · exact nextCanonical_next (State.groupTrap_canon _ _ _ (hu _ _))
  · rename_i c kd _ _
    refine nextCanonical_ite (nextCanonical_next h) (nextCanonical_ite (nextCanonical_next (canonical_of_mem h (State.rotate_mem s)))
      (nextCanonical_ite (nextCanonical_next (canonical_of_mem h (State.seqFetch_mem s _ _ _)))
        (nextCanonical_ite (nextCanonical_next (canonical_of_mem h (State.rotate_mem s))) ?_)))
    dsimp only
    have hu : ∀ key d q, Canonical ((s.reachDue key d).setSq c kd q) := fun key d q =>
      canonical_of_mem h ((State.setSq_mem _ c kd q).trans (State.reachDue_mem s key d))
    split
    · exact nextCanonical_andThen (fun t ht => canonical_of_mem ht (State.paceSeq_mem t _ _ _ _)) (nextCanonical_exec (hu _ _ _) _)
    · exact nextCanonical_next (canonical_of_mem (hu _ _ _) (State.endProgram_mem _ _ _ _ _))
  · exact nextCanonical_next h

/-- Settles O58: a step executes an instruction or an event, or issues from the front, and then settles. -/
theorem memoryStaysCanonical : Obligations.MemoryStaysCanonical := by
  intro s t h ht
  have hu : ∀ (a : List Instr) (b : Bool), Canonical { s with agenda := a, turn := b } := fun _ _ => h
  revert t
  show NextCanonical (step s)
  unfold step
  split
  · exact nextCanonical_ite (nextCanonical_finish (nextCanonical_exec (hu _ _) _)) (nextCanonical_next (hu _ _))
  · split
    · exact nextCanonical_finish (nextCanonical_exec (hu s.agenda _) _)
    · exact nextCanonical_finish (issueFront_canonical (hu s.agenda _))

end Sys2Proof.Machine
end

section
/-! PROOFS. Outstanding operations as they land, boost notices, and what takes effect at a clause boundary (spec/04_encoding.md R118;
spec/08_core_sync.md R250 to R252; spec/10_distributor.md R283), and the statement about them (O41). -/

namespace Sys2Proof.Machine
open Sys2Proof.Safety

/-! ### Landing -/

theorem State.reachDue_clock (s : State) (key : Nat) (d : Option Nat) : (s.reachDue key d).clock = s.clock := by
  cases d with
  | none => rfl
  | some n =>
    unfold State.reachDue State.reachCyc
    dsimp only
    split
    · rfl
    · split <;> rfl
theorem State.block_reachDue (s : State) (key b : Nat) (d : Option Nat) : (s.reachDue key d).block b = s.block b := by
  rw [State.block, State.reachDue_blocks, State.block]
theorem opId_of_find {l : List SlotOp} {n : Nat} {o : SlotOp} (h : l.find? (fun o => o.id == n) = some o) : o.id = n :=
  beq_iff_eq.mp (List.find?_some (p := fun o : SlotOp => o.id == n) h)

theorem Thread.poisonReg_poison (t : Thread) (ctr tl q r : Nat) (p : DWord) (hr : r < 255) :
    (tget (t.poisonReg ctr tl q p).regs r).bind (·.poison) = if r = q then some p else (tget t.regs r).bind (·.poison) := by
  unfold Thread.poisonReg
  split
  · rw [if_neg (by omega)]
  · rw [tget_tput]
    split <;> rfl
/-- Every register of the list, but gz, is poisoned with the pointer; the others keep theirs. -/
theorem foldl_poisonReg_poison (ctr tl r : Nat) (p : DWord) (hr : r < 255) (l : List (Nat × Word)) (t : Thread) :
    (tget (l.foldl (fun t x => t.poisonReg ctr tl x.1 p) t).regs r).bind (·.poison) =
      if r ∈ l.map (·.1) then some p else (tget t.regs r).bind (·.poison) := by
  induction l generalizing t with
  | nil => rfl
  | cons x l ih =>
    rw [List.foldl_cons, ih, Thread.poisonReg_poison _ _ _ _ _ _ hr, List.map_cons]
    grind
theorem Thread.landOp_clean {o : SlotOp} (hp : o.poison = none) (t : Thread) (ctr tl : Nat) (vs : List Word) :
    t.landOp ctr tl o vs =
      { (o.regs.zip vs).foldl (fun t p => t.setReg p.1 p.2) t with
        ops := ((o.regs.zip vs).foldl (fun t p => t.setReg p.1 p.2) t).ops.filter fun x => x.id != o.id } := by
  simp only [Thread.landOp, hp]
theorem Thread.landOp_poison {o : SlotOp} {p : DWord} (hp : o.poison = some p) (t : Thread) (ctr tl : Nat) (vs : List Word) {r : Nat}
    (hr : r < 255) (hm : r ∈ (o.regs.zip vs).map (·.1)) : (tget (t.landOp ctr tl o vs).regs r).bind (·.poison) = some p := by
  simp only [Thread.landOp, hp]
  rw [foldl_poisonReg_poison _ _ _ _ hr, if_pos hm]

section
variable {s : State} {b tl n : Nat} {k : Block} {o : SlotOp} {vs : List Word} (hk : s.block b = some k)
  (ho : (k.thread tl).ops.find? (fun o => o.id == n) = some o) (hv : o.val = some vs)
include hk ho hv
theorem execSlotLanding_plain (ha : o.act = .none) : exec (.slotLanding b tl n) s =
    .next ((s.reachDue (s.quadKeyOf k.core) o.due).modThread b tl fun t => t.landOp s.clock.free tl o vs) := by
  simp only [exec, execSlotLanding, hk, ho, hv, ha, State.reachDue_clock]
theorem execSlotLanding_acquire {g v : Nat} {failed offDie offGroup atHome : Bool}
    (ha : o.act = .acquire g v failed offDie offGroup atHome) : exec (.slotLanding b tl n) s =
      let u := (s.reachDue (s.quadKeyOf k.core) o.due).modThread b tl fun t => t.landOp s.clock.free tl o vs
      .next ((if atHome then u.acquireInval k.core offDie offGroup else u).modThread b tl fun t => t.acquired g v failed atHome) := by
  simp only [exec, execSlotLanding, hk, ho, hv, ha, State.reachDue_clock]
end

/-! ### Boosts (spec/08_core_sync.md R251) -/

/-- The boost that a notice of a priority makes of one that stands. -/
def raisedTo (p : BitVec 7) (o : Option (BitVec 7)) : Option (BitVec 7) :=
  match o with
  | some b => some (if b.toNat < p.toNat then p else b)
  | none => some p
/-- A thread, and a block, as a boost notice leaves them. -/
def Thread.noticed (g : Nat) (p : BitVec 7) (t : Thread) : Thread :=
  if t.alive && t.mark == some g then
    { t with boostNew := raisedTo p (match t.boostNew with
        | some b => some b
        | none => t.boost) }
  else t
def Block.noticed (c : CoreRef) (g : Nat) (p : BitVec 7) (k : Block) : Block :=
  if k.core == c && !k.saved && !k.relaunch then { k with threads := k.threads.map (Thread.noticed g p) } else k

theorem execBoostNotice_next (c : CoreRef) (g : Nat) (p : BitVec 7) (s : State) : exec (.boostNotice c g p) s =
    .next { s with notices := s.notices.erase (c, g, p), blocks := s.blocks.map (Block.noticed c g p) } := rfl

theorem raisedTo_ge (p : BitVec 7) (o : Option (BitVec 7)) : ∃ x, raisedTo p o = some x ∧ p.toNat ≤ x.toNat := by
  cases o with
  | none => exact ⟨p, rfl, le_rfl⟩
  | some b =>
    refine ⟨_, rfl, ?_⟩
    split <;> omega
theorem Thread.noticed_of_not_mark {g : Nat} {t : Thread} (h : t.mark ≠ some g) (p : BitVec 7) : t.noticed g p = t := by
  rw [Thread.noticed, if_neg (by simp [h])]
theorem Block.noticed_id (c : CoreRef) (g : Nat) (p : BitVec 7) (k : Block) : (k.noticed c g p).id = k.id := by
  unfold Block.noticed
  split <;> rfl
theorem Block.thread_noticed (c : CoreRef) (g : Nat) (p : BitVec 7) (k : Block) (tl : Nat) :
    (k.noticed c g p).thread tl = if k.core = c ∧ k.saved = false ∧ k.relaunch = false then (k.thread tl).noticed g p else k.thread tl := by
  have hc : (k.core == c && !k.saved && !k.relaunch) = true ↔ k.core = c ∧ k.saved = false ∧ k.relaunch = false := by
    simp [and_assoc]
  unfold Block.noticed
  by_cases h : k.core = c ∧ k.saved = false ∧ k.relaunch = false
  · rw [if_pos h, if_pos (hc.mpr h), Block.thread, lget_map, Block.thread]
    cases lget k.threads tl <;> rfl
  · rw [if_neg h, if_neg (mt hc.mp h)]
theorem find_mapBlocks {f : Block → Block} (hf : ∀ k, (f k).id = k.id) (l : List Block) (b : Nat) :
    (l.map f).find? (fun k => k.id == b) = (l.find? fun k => k.id == b).map f := by
  rw [List.find?_map]
  simp only [Function.comp_def, hf]
theorem State.thread_noticed {s t : State} {c : CoreRef} {g : Nat} {p : BitVec 7} (ht : t.blocks = s.blocks.map (Block.noticed c g p))
    {b : Nat} {k : Block} (hk : s.block b = some k) (tl : Nat) : t.thread b tl = (k.noticed c g p).thread tl := by
  refine State.thread_of_block ?_
  rw [State.block, ht, find_mapBlocks (Block.noticed_id c g p)]
  exact congrArg (Option.map _) hk

/-- Settles O41: each clause is one rule above, or what an acquiring access or a clause boundary leaves, by definition. -/
theorem slotsLand : Obligations.SlotsLand := by
  refine ⟨?lands, ?poisons, ?acquires, ?marks, ?boosts, fun t pos id next => ⟨rfl, rfl⟩⟩
  case lands =>
    intro s b tl n k o vs hk ho hv hp ha
    rw [execSlotLanding_plain hk ho hv ha]
    simp only [Thread.landOp_clean hp, opId_of_find ho]
  case poisons =>
    intro s b tl n k o vs r p hk htl ho hv hp ha hr h255
    refine ⟨_, execSlotLanding_plain hk ho hv ha, ?_⟩
    rw [State.thread_modThread_same _ ((State.block_reachDue ..).trans hk) htl]
    exact Thread.landOp_poison hp _ _ _ _ h255 hr
  case acquires =>
    intro s b tl n g v failed offDie offGroup atHome k o vs hk ho hv ha
    exact execSlotLanding_acquire hk ho hv ha
  case marks =>
    intro t g v home
    refine ⟨rfl, rfl, rfl, rfl, ?_, fun hm => ?_, fun _ => ⟨rfl, rfl⟩⟩
    · simp [Thread.acquired]
    · simp [Thread.acquired, hm]
  case boosts =>
    intro s c g p
    refine ⟨_, execBoostNotice_next c g p s, rfl, rfl, fun b tl k hk hc hs hl ha _ hm => ?_, fun b tl k hk h => ?_⟩
    · obtain ⟨x, hx, hpx⟩ := raisedTo_ge p (match (k.thread tl).boostNew with
        | some b => some b
        | none => (k.thread tl).boost)
      rw [State.thread_noticed rfl hk, Block.thread_noticed, if_pos ⟨hc, hs, hl⟩, Thread.noticed, if_pos (by simp [ha, hm])]
      exact ⟨x, hx, hpx, rfl⟩
    · rw [State.thread_noticed rfl hk, Block.thread_noticed]
      split
      · rename_i hcond
        exact Thread.noticed_of_not_mark (h.resolve_left fun hc => hc hcond.1) p
      · rfl

end Sys2Proof.Machine
end

section
/-! PROOFS. The checks of an access, in their order, and what a lane does whose checks fail (spec/03_memory_model.md R69;
spec/07_core_memory.md R208, R209, R217; spec/09_core_traps.md R258), and the statement about them (O19). -/

namespace Sys2Proof.Machine
open Sys2Proof.Safety

/-! ### The checks of a pointer -/

theorem bits_region (p : DWord) : bits p.toNat 63 56 = regionOf p := by
  have : p.toNat / 2 ^ 56 < 2 ^ 8 := by have := p.isLt; omega
  exact Nat.mod_eq_of_lt this

section
variable (s : State) (k : Block) {p : DWord} {w : Nat} (align : Nat) (ak : AKind)
/-- Local memory: bounds, then alignment. -/
theorem State.check_local (hw : 0 < w) (hr : regionOf p = 1) : (s.check k p w align ak).1 =
    if k.localSize < offsetOf p + w then .trap 0x080 else if offsetOf p % align = 0 then .ok (.loc (offsetOf p)) else .trap 0x082 := by
  have hb : k.localSize ≤ offsetOf p + w - 1 ↔ k.localSize < offsetOf p + w := by omega
  have ho : p.toNat % 2 ^ 56 = offsetOf p := rfl
  unfold State.check
  simp only [bits_region, hr, ho, hb, cBounds, cMisaligned, beq_self_eq_true, if_true]
  by_cases hlt : k.localSize < offsetOf p + w
  · rw [if_pos hlt, if_pos hlt]
  · rw [if_neg hlt, if_neg hlt]
    by_cases ha : offsetOf p % align = 0 <;> simp [ha]
/-- The thread's own memory likewise. -/
theorem State.check_own (hw : 0 < w) (hr : regionOf p = 2) : (s.check k p w align ak).1 =
    if k.privSize < offsetOf p + w then .trap 0x080 else if offsetOf p % align = 0 then .ok (.prv (offsetOf p)) else .trap 0x082 := by
  have hb : k.privSize ≤ offsetOf p + w - 1 ↔ k.privSize < offsetOf p + w := by omega
  have ho : p.toNat % 2 ^ 56 = offsetOf p := rfl
  unfold State.check
  simp only [bits_region, hr, ho, hb, cBounds, cMisaligned, beq_self_eq_true, if_true, Nat.reduceBEq, Bool.false_eq_true, if_false]
  by_cases hlt : k.privSize < offsetOf p + w
  · rw [if_pos hlt, if_pos hlt]
  · rw [if_neg hlt, if_neg hlt]
    by_cases ha : offsetOf p % align = 0 <;> simp [ha]
/-- The entry of the bounds table that region r of a block's pointers names passes. -/
def State.regionOk (s : State) (k : Block) (r a w : Nat) (ak : AKind) : Bool :=
  let bt := ((s.ctx k.ctx).map (·.btbase)).getD 0 + 16 * r
  boundsOk (mread s.mem bt 8) (mread s.mem (bt + 8) 8) a w ak
/-- A pointer to global memory: its region's bounds, alignment, and then the checks of the page. -/
theorem State.check_global (h1 : regionOf p ≠ 1) (h2 : regionOf p ≠ 2) : (s.check k p w align ak).1 =
    if 3 ≤ regionOf p ∧ s.regionOk k (regionOf p) (offsetOf p) w ak = false then .trap 0x080
    else if offsetOf p % align ≠ 0 then .trap 0x082
    else (s.checkGlobal k.core k.ctx (s.leases k) (offsetOf p) w ak).1 := by
  unfold State.check State.regionOk
  simp only [bits_region, offsetOf, cBounds, cMisaligned]
  rw [if_neg (by simpa using h1), if_neg (by simpa using h2)]
  grind
end

section
variable {s : State} {c : CoreRef} {ctx : Nat} {ls : List Lease} {a w : Nat} {ak : AKind}
theorem State.checkGlobal_lease (h : leaseOk ls a w ak = false) : (s.checkGlobal c ctx ls a w ak).1 = .trap 0x083 := by
  unfold State.checkGlobal
  rw [h]
  rfl
variable (hl : leaseOk ls a w ak = true)
include hl
theorem State.checkGlobal_walk {x : Nat} {u : State} (h : s.lookup c ctx a = (.bad x, u)) :
    (s.checkGlobal c ctx ls a w ak).1 = .trap x := by
  simp [State.checkGlobal, hl, h]
variable {e : TlbEntry} {u : State} (ht : s.lookup c ctx a = (.ok e, u))
include ht
theorem State.checkGlobal_address {x : Nat} (h : u.paCause (e.frame * 4096 + a % 4096) = some x) :
    (s.checkGlobal c ctx ls a w ak).1 = .trap x := by
  simp [State.checkGlobal, hl, ht, h]
variable (hp : u.paCause (e.frame * 4096 + a % 4096) = none)
include hp
theorem State.checkGlobal_vc (h : u.vc ctx e.vc.toNat = none) : (s.checkGlobal c ctx ls a w ak).1 = .trap 0x086 := by
  simp [State.checkGlobal, hl, ht, hp, h, cVcUndefined]
variable {v : VcEntry} (hv : u.vc ctx e.vc.toNat = some v)
include hv
/-- The last checks, of a page whose virtual cache is defined: read protection, write protection, and whether it moves. -/
theorem State.checkGlobal_page : (s.checkGlobal c ctx ls a w ak).1 =
    if (ak = .load ∨ ak = .query ∨ ak = .atomic) ∧ e.rd = false then .trap 0x087
    else if ak = .atomic ∧ (e.w && v.wpol != 3) = false then .trap 0x088
    else if u.isMoving e = true ∧ (ak = .load ∨ ak = .store ∨ ak = .atomic) then .park e.page
    else .ok (.glob (u.localPa (e.frame * 4096 + a % 4096)) e (e.w && v.wpol != 3)) := by
  unfold State.checkGlobal
  simp only [hl, ht, hp, hv, cReadProtect, cWriteProtect, Bool.not_true, Bool.false_eq_true, if_false]
  cases ak <;> simp [AKind.reads] <;> grind
end

/-! ### Causes of an offset, and stops that come before the instruction -/

/-- The cause of an offset that does not fit its space. -/
def offCause (a : Int) (w size : Nat) : Nat := if a < 0 ∨ (size : Int) < a + w then 0x080 else 0x082
theorem offsetCause_of_fits {a : Int} {w size : Nat} (h : fits a w size) : offsetCause a w size = none := by
  obtain ⟨h0, hs, ha⟩ := h
  unfold offsetCause
  rw [if_neg (by simp only [Bool.or_eq_true, decide_eq_true_eq]; omega), if_neg (by simpa using ha)]
theorem offsetCause_of_not_fits {a : Int} {w size : Nat} (h : ¬ fits a w size) : offsetCause a w size = some (offCause a w size) := by
  unfold offsetCause offCause
  by_cases hb : a < 0 ∨ (size : Int) < a + w
  · rw [if_pos hb, if_pos (by simp only [Bool.or_eq_true, decide_eq_true_eq]; omega)]
    rfl
  · have ha : a.toNat % w ≠ 0 := fun ha => h ⟨by omega, by omega, ha⟩
    rw [if_neg hb, if_neg (by simp only [Bool.or_eq_true, decide_eq_true_eq]; omega), if_pos (by simpa using ha)]
    rfl
theorem writeDetail (w : BitVec 3) : (8 : Word) ||| w.setWidth 32 = 8 + w.setWidth 32 := by
  revert w
  decide
theorem memTrap_eq_memStop (c : Nat) (wr : Bool) (f : FM) (p : DWord) : memTrap c wr f.width p = memStop c wr f p := by
  cases wr with
  | true => simp only [memTrap, memStop, memDetail, if_true, writeDetail]
  | false => simp [memTrap, memStop, memDetail]

/-- The stop comes before the instruction: it is no trap that follows it (spec/09_core_traps.md R259). -/
def Stop.Precedes (st : Stop) : Prop := ∀ c d a dfl, st ≠ .trap c d a true dfl
theorem memStop_precedes (c : Nat) (wr : Bool) (f : FM) (p : DWord) : (memStop c wr f p).Precedes := by
  intro _ _ _ _
  unfold memStop
  split <;> exact nofun
theorem refused_precedes {c : Chk} {wr : Bool} {f : FM} {p : DWord} {st : Stop} (h : refused c wr f p = some st) : st.Precedes := by
  unfold refused at h
  split at h <;> cases h
  · exact memStop_precedes _ _ _ _
  · exact fun _ _ _ _ => nofun
theorem precedes_park (n : Nat) (p : DWord) : Stop.Precedes (.park n p) := fun _ _ _ _ => nofun

section
variable {i : Instr} {pred : BitVec 3} {pneg : Bool} {sb : Option Nat} {lane : Env → State → LaneOut} {ok : Env → State → Prop}
  {st : Env → State → Stop} {eff : Env → State → State} (hl : ∀ e s, ok e s → lane e s = (eff e s, some (st e s)))
  (hn : ∀ e s, ok e s → (st e s).Precedes)
include hl hn
theorem stopsOne_issue (he : ∀ s, exec i s = issue i pred pneg sb lane s) : StopsOne i pred pneg sb ok st eff := by
  refine stopsOne_of_issue he hl fun e s h => ?_
  have := hn e s h
  split
  · rename_i after _ hst
    cases after
    · rfl
    · exact absurd hst (this _ _ _ _)
  · rfl
theorem stopsOne_issueCommit (he : ∀ s, exec i s = issueCommit i pred pneg sb lane s) : StopsOne i pred pneg sb ok st eff := by
  refine stopsOne_of_issueCommit he hl fun e s h => ?_
  have := hn e s h
  split
  · rename_i after _ hst
    cases after
    · rfl
    · exact absurd hst (this _ _ _ _)
  · rfl
end

/-! ### Lanes that stop -/

section
variable (e : Env) (s : State) (f : FM) (region : BitVec 8) {size : Nat} (pl : Nat → Place)
  (h : ¬ fits (e.offs f) (accessBytes f) size)
include h
theorem Env.sramLoad_unfit : e.sramLoad s f region size pl =
    (s, some (memStop (offCause (e.offs f) (accessBytes f) size) false f (region ++ BitVec.ofInt 56 (e.offs f)))) := by
  have hc : offsetCause (e.offs f) (widthBytes f.width) size = some (offCause (e.offs f) (accessBytes f) size) := offsetCause_of_not_fits h
  simp only [Env.sramLoad, hc, memTrap_eq_memStop, regionPtr]
theorem Env.sramStore_unfit : e.sramStore s f region size pl =
    (s, some (memStop (offCause (e.offs f) (accessBytes f) size) true f (region ++ BitVec.ofInt 56 (e.offs f)))) := by
  have hc : offsetCause (e.offs f) (widthBytes f.width) size = some (offCause (e.offs f) (accessBytes f) size) := offsetCause_of_not_fits h
  simp only [Env.sramStore, hc, memTrap_eq_memStop, regionPtr]
end
/-- Checks that refuse a lane trap it, or park it. -/
theorem refused_cases {c : Chk} {wr : Bool} {f : FM} {p : DWord} {st : Stop} (h : refused c wr f p = some st) :
    (∃ x, c = .trap x ∧ st = memTrap x wr f.width p) ∨ ∃ g, c = .park g ∧ st = .park g p := by
  cases c with
  | ok pl => cases h
  | trap x => exact .inl ⟨x, rfl, (memTrap_eq_memStop x wr f p ▸ Option.some.inj h).symm⟩
  | park g => exact .inr ⟨g, rfl, (Option.some.inj h).symm⟩
theorem check_eq {e : Env} {s : State} {p : DWord} {w : Nat} {ak : AKind} {c : Chk} (h : chk e s p w ak = c) :
    s.check e.k p w w ak = (c, chkState e s p w ak) := Prod.ext h rfl
theorem widthBytes_eq (f : FM) : widthBytes f.width = accessBytes f := rfl
theorem local_of_notLocal {p : DWord} (h : notLocal p) : (bits p.toNat 63 56 == 1 || bits p.toNat 63 56 == 2) = false := by
  simp only [bits_region, Bool.or_eq_false_iff, beq_eq_false_iff_ne]
  exact h
theorem constAddr_eq {e : Env} {s : State} {a : Int} {l : Launch} (h : s.launch e.k.launch = some l) : constAddr e s a =
    if l.pslot.isSome && 0 ≤ a && a < (l.patch.length : Int) then l.pslotVa + BitVec.ofInt 64 a else l.cbank + BitVec.ofInt 64 a := by
  simp only [constAddr, h, constFrom, Option.map_some, Option.getD_some, Bool.and_eq_true, decide_eq_true_eq, and_assoc]
theorem Env.atomLane_refused {e : Env} {s : State} {f : FM} {st : Stop} (lands : Bool)
    (ho : f.off.extractLsb' 18 2 = 0 ∨ notLocal (e.aptr f)) (h : refused (chk e s (e.aptr f) (accessBytes f) .atomic) true f (e.aptr f) = some st) :
    e.atomLane s f lands = (chkState e s (e.aptr f) (accessBytes f) .atomic, some st) := by
  have hspace : ((bits (e.aptr f).toNat 63 56 == 1 || bits (e.aptr f).toNat 63 56 == 2) && (fmAcq f || fmRel f)) = false := by
    rcases ho with ho | ho
    · have h18 : fmAcq f = false := by simpa [fmAcq] using congrArg (·.getLsbD 0) ho
      have h19 : fmRel f = false := by simpa [fmRel] using congrArg (·.getLsbD 1) ho
      rw [h18, h19, Bool.or_false, Bool.and_false]
    · rw [local_of_notLocal ho, Bool.false_and]
  unfold Env.atomLane
  simp only [hspace, widthBytes_eq, Bool.false_eq_true, if_false]
  rcases refused_cases h with ⟨x, hc, rfl⟩ | ⟨g, hc, rfl⟩ <;> rw [check_eq hc]
/-- A lane of LDK reads within the bank only if its block's launch stands. -/
theorem launch_of_bank {e : Env} {s : State} {f : FM} (h : fits (e.offs f) (accessBytes f) (((s.launch e.k.launch).map (·.cbsize)).getD 0)) :
    ∃ l, s.launch e.k.launch = some l := by
  obtain ⟨h0, hs, -⟩ := h
  cases hl : s.launch e.k.launch with
  | some l => exact ⟨l, rfl⟩
  | none =>
    have hw : 0 < accessBytes f := Nat.two_pow_pos _
    rw [hl] at hs
    simp only [Option.map_none, Option.getD_none] at hs
    omega

/-- The stop of a lane of LDK whose offset lies in the constant bank, if the checks of its address refuse it. -/
def constStop (e : Env) (s : State) (f : FM) : Option Stop :=
  match (s.checkConst e.k (constAddr e s (e.offs f))).1 with
  | .trap x => some (memStop x false f (constVa e s (e.offs f)))
  | .park g => some (.park g (constAddr e s (e.offs f)))
  | .ok _ => none
theorem ldk_lane (f : FM) : ∃ lane, (∀ s, exec (.ldk f) s = issue (.ldk f) f.pred f.pneg (some f.sbs.toNat) lane s) ∧
    ∀ e s st, fits (e.offs f) (accessBytes f) (((s.launch e.k.launch).map (·.cbsize)).getD 0) → constStop e s f = some st →
      lane e s = ((s.checkConst e.k (constAddr e s (e.offs f))).2, some st) := by
  refine ⟨_, fun _ => rfl, fun e s st h hst => ?_⟩
  obtain ⟨l, hl⟩ := launch_of_bank h
  simp only [constStop, constVa, hl, Option.map_some, Option.getD_some] at hst
  simp only [widthBytes_eq, offsetCause_of_fits h]
  simp only [hl, Option.map_some, Option.getD_some, ← constAddr_eq hl]
  generalize s.checkConst e.k (constAddr e s (e.offs f)) = r at hst ⊢
  obtain ⟨c, u⟩ := r
  cases c with
  | trap x => exact congrArg (u, some ·) ((memTrap_eq_memStop ..).trans (Option.some.inj hst))
  | park g => exact congrArg (u, ·) hst
  | ok pl => cases hst

/-! ### Instructions whose checks fail -/

section
variable (f : FM)
theorem ldl_stops : StopsOne (.ldl f) f.pred f.pneg (some f.sbs.toNat) (fun e _ => ¬ fits (e.offs f) (accessBytes f) e.k.localSize)
    (fun e _ => memStop (offCause (e.offs f) (accessBytes f) e.k.localSize) false f (1#8 ++ BitVec.ofInt 56 (e.offs f))) (fun _ s => s) :=
  stopsOne_issue (fun e s h => e.sramLoad_unfit s f 1 .loc h) (fun _ _ _ => memStop_precedes _ _ _ _) fun _ => rfl
theorem stl_stops : StopsOne (.stl f) f.pred f.pneg none (fun e _ => ¬ fits (e.offs f) (accessBytes f) e.k.localSize)
    (fun e _ => memStop (offCause (e.offs f) (accessBytes f) e.k.localSize) true f (1#8 ++ BitVec.ofInt 56 (e.offs f))) (fun _ s => s) :=
  stopsOne_issue (fun e s h => e.sramStore_unfit s f 1 .loc h) (fun _ _ _ => memStop_precedes _ _ _ _) fun _ => rfl
theorem ldp_stops : StopsOne (.ldp f) f.pred f.pneg (some f.sbs.toNat) (fun e _ => ¬ fits (e.offs f) (accessBytes f) e.k.privSize)
    (fun e _ => memStop (offCause (e.offs f) (accessBytes f) e.k.privSize) false f (2#8 ++ BitVec.ofInt 56 (e.offs f))) (fun _ s => s) :=
  stopsOne_issue (fun e s h => e.sramLoad_unfit s f 2 .prv h) (fun _ _ _ => memStop_precedes _ _ _ _) fun _ => rfl
theorem stp_stops : StopsOne (.stp f) f.pred f.pneg none (fun e _ => ¬ fits (e.offs f) (accessBytes f) e.k.privSize)
    (fun e _ => memStop (offCause (e.offs f) (accessBytes f) e.k.privSize) true f (2#8 ++ BitVec.ofInt 56 (e.offs f))) (fun _ s => s) :=
  stopsOne_issue (fun e s h => e.sramStore_unfit s f 2 .prv h) (fun _ _ _ => memStop_precedes _ _ _ _) fun _ => rfl
theorem atoml_stops : StopsOne (.atoml f) f.pred f.pneg (some f.sbs.toNat) (fun e _ => ¬ fits (e.aoffs f) (accessBytes f) e.k.localSize)
    (fun e _ => memStop (offCause (e.aoffs f) (accessBytes f) e.k.localSize) true f (1#8 ++ BitVec.ofInt 56 (e.aoffs f))) (fun _ s => s) := by
  refine stopsOne_issue (fun e s h => ?_) (fun _ _ _ => memStop_precedes _ _ _ _) fun _ => rfl
  simp only [widthBytes_eq, offsetCause_of_not_fits h, memTrap_eq_memStop]
  rfl
theorem ldk_stops_offset (n : Nat) : StopsOne (.ldk f) f.pred f.pneg (some f.sbs.toNat)
    (fun e s => ((s.launch e.k.launch).map (·.cbsize)).getD 0 = n ∧ ¬ fits (e.offs f) (accessBytes f) n)
    (fun e s => memStop (offCause (e.offs f) (accessBytes f) n) false f (constVa e s (e.offs f))) (fun _ s => s) := by
  refine stopsOne_issue (fun e s ⟨hn, h⟩ => ?_) (fun _ _ _ => memStop_precedes _ _ _ _) fun _ => rfl
  simp only [hn, widthBytes_eq, offsetCause_of_not_fits h, memTrap_eq_memStop, constVa]
theorem ldk_stops_trap (x n : Nat) : StopsOne (.ldk f) f.pred f.pneg (some f.sbs.toNat)
    (fun e s => ((s.launch e.k.launch).map (·.cbsize)).getD 0 = n ∧ fits (e.offs f) (accessBytes f) n ∧
      (s.checkConst e.k (constAddr e s (e.offs f))).1 = .trap x)
    (fun e s => memStop x false f (constVa e s (e.offs f))) (fun e s => (s.checkConst e.k (constAddr e s (e.offs f))).2) := by
  obtain ⟨lane, he, hlane⟩ := ldk_lane f
  refine stopsOne_issue (fun e s ⟨hn, h, hx⟩ => hlane e s _ (hn ▸ h) ?_) (fun _ _ _ => memStop_precedes _ _ _ _) he
  rw [constStop, hx]
theorem ldk_stops_park (x n : Nat) : StopsOne (.ldk f) f.pred f.pneg (some f.sbs.toNat)
    (fun e s => ((s.launch e.k.launch).map (·.cbsize)).getD 0 = n ∧ fits (e.offs f) (accessBytes f) n ∧
      (s.checkConst e.k (constAddr e s (e.offs f))).1 = .park x)
    (fun e s => .park x (constAddr e s (e.offs f))) (fun e s => (s.checkConst e.k (constAddr e s (e.offs f))).2) := by
  obtain ⟨lane, he, hlane⟩ := ldk_lane f
  refine stopsOne_issue (fun e s ⟨hn, h, hx⟩ => hlane e s _ (hn ▸ h) ?_) (fun _ _ _ => precedes_park _ _) he
  rw [constStop, hx]
theorem ld_stops (st : Stop) : StopsOne (.ld f) f.pred f.pneg (some f.sbs.toNat)
    (fun e s => refused (chk e s (e.ptr f) (accessBytes f) .load) false f (e.ptr f) = some st) (fun _ _ => st)
    (fun e s => chkState e s (e.ptr f) (accessBytes f) .load) := by
  refine stopsOne_issue (fun e s h => ?_) (fun e s h => refused_precedes h) fun _ => rfl
  rcases refused_cases h with ⟨x, hc, rfl⟩ | ⟨g, hc, rfl⟩ <;> simp only [widthBytes_eq, check_eq hc]
theorem st_stops (st : Stop) : StopsOne (.st f) f.pred f.pneg none
    (fun e s => refused (chk e s (e.ptr f) (accessBytes f) .store) true f (e.ptr f) = some st) (fun _ _ => st)
    (fun e s => chkState e s (e.ptr f) (accessBytes f) .store) := by
  refine stopsOne_issueCommit (fun e s h => ?_) (fun e s h => refused_precedes h) fun _ => rfl
  rcases refused_cases h with ⟨x, hc, rfl⟩ | ⟨g, hc, rfl⟩ <;> simp only [widthBytes_eq, check_eq hc]
theorem acq_stops (st : Stop) : StopsOne (.acq f) f.pred f.pneg (some f.sbs.toNat)
    (fun e s => notLocal (e.ptr f) ∧ refused (chk e s (e.ptr f) (accessBytes f) .load) false f (e.ptr f) = some st) (fun _ _ => st)
    (fun e s => chkState e s (e.ptr f) (accessBytes f) .load) := by
  refine stopsOne_issue (fun e s ⟨hp, h⟩ => ?_) (fun e s h => refused_precedes h.2) fun _ => rfl
  rcases refused_cases h with ⟨x, hc, rfl⟩ | ⟨g, hc, rfl⟩ <;>
    simp only [local_of_notLocal hp, Bool.false_eq_true, if_false, widthBytes_eq, check_eq hc]
theorem rel_stops (st : Stop) : StopsOne (.rel f) f.pred f.pneg none
    (fun e s => notLocal (e.ptr f) ∧ refused (chk e s (e.ptr f) (accessBytes f) .store) true f (e.ptr f) = some st) (fun _ _ => st)
    (fun e s => chkState e s (e.ptr f) (accessBytes f) .store) := by
  refine stopsOne_issueCommit (fun e s ⟨hp, h⟩ => ?_) (fun e s h => refused_precedes h.2) fun _ => rfl
  rcases refused_cases h with ⟨x, hc, rfl⟩ | ⟨g, hc, rfl⟩ <;>
    simp only [local_of_notLocal hp, Bool.false_eq_true, if_false, widthBytes_eq, check_eq hc]
theorem atom_stops (lands : Bool) (st : Stop) :
    StopsOne (if lands then .atom f else .red f) f.pred f.pneg (if lands then some f.sbs.toNat else none)
      (fun e s => (f.off.extractLsb' 18 2 = 0 ∨ notLocal (e.aptr f)) ∧
        refused (chk e s (e.aptr f) (accessBytes f) .atomic) true f (e.aptr f) = some st) (fun _ _ => st)
      (fun e s => chkState e s (e.aptr f) (accessBytes f) .atomic) := by
  refine stopsOne_issueCommit (lane := fun e s => e.atomLane s f lands) (fun e s h => Env.atomLane_refused lands h.1 h.2)
    (fun e s h => refused_precedes h.2) fun _ => ?_
  cases lands <;> rfl
theorem cline_stops (x : Nat) : StopsOne (.cline f) f.pred f.pneg none (fun e s => (s.check e.k (e.ptr f) 1 1 .cline).1 = .trap x)
    (fun e _ => memStop x false f (e.ptr f)) (fun e s => (s.check e.k (e.ptr f) 1 1 .cline).2) := by
  refine stopsOne_issue (fun e s h => ?_) (fun _ _ _ => memStop_precedes _ _ _ _) fun _ => rfl
  dsimp only at h ⊢
  generalize s.check e.k (e.ptr f) 1 1 .cline = r at h ⊢
  obtain ⟨c, u⟩ := r
  obtain rfl : c = .trap x := h
  exact congrArg (u, some ·) (memTrap_eq_memStop ..)
theorem vcqry_stops (x : Nat) (hm : f.md ≠ 0) : StopsOne (.vcqry f) f.pred f.pneg (some f.sbs.toNat)
    (fun e s => notLocal (e.ptr f) ∧ chk e s (e.ptr f) 8 .query = .trap x)
    (fun e _ => memStop x false f (e.ptr f)) (fun e s => chkState e s (e.ptr f) 8 .query) := by
  refine stopsOne_issue (fun e s ⟨hp, h⟩ => ?_) (fun _ _ _ => memStop_precedes _ _ _ _) fun _ => rfl
  rw [if_neg (by simpa using hm)]
  simp only [local_of_notLocal hp, Bool.false_eq_true, if_false, check_eq h, memTrap_eq_memStop]
end

/-! ### The statement -/

section
variable (s : State) (k : Block) {p : DWord} {w : Nat} (align : Nat) (ak : AKind)
/-- The pointer's region is 0, or the entry that the bounds table has for it passes (spec/03_memory_model.md R68, R69). -/
def InBounds (s : State) (k : Block) (p : DWord) (w : Nat) (ak : AKind) : Prop :=
  regionOf p = 0 ∨ s.regionOk k (regionOf p) (offsetOf p) w ak = true
theorem State.check_out_of_bounds (h3 : 3 ≤ regionOf p) (hb : ¬ InBounds s k p w ak) : (s.check k p w align ak).1 = .trap 0x080 := by
  rw [State.check_global s k align ak (by omega) (by omega), if_pos ⟨h3, by simpa using fun h => hb (.inr h)⟩]
variable (h1 : regionOf p ≠ 1) (h2 : regionOf p ≠ 2) (hb : InBounds s k p w ak)
include h1 h2 hb
theorem State.check_misaligned (ha : offsetOf p % align ≠ 0) : (s.check k p w align ak).1 = .trap 0x082 := by
  rw [State.check_global s k align ak h1 h2, if_neg fun h => ?_, if_pos ha]
  rcases hb with hb | hb
  · omega
  · simp [hb] at h
theorem State.check_aligned (ha : offsetOf p % align = 0) :
    (s.check k p w align ak).1 = (s.checkGlobal k.core k.ctx (s.leases k) (offsetOf p) w ak).1 := by
  rw [State.check_global s k align ak h1 h2, if_neg fun h => ?_, if_neg (not_not_intro ha)]
  rcases hb with hb | hb
  · omega
  · simp [hb] at h
end

/-- Settles O19: the checks one after another, and then each instruction whose checks fail. -/
theorem accessChecks : Obligations.AccessChecks := by
  refine ⟨?checks, ⟨ldl_stops, stl_stops, ldp_stops, stp_stops, atoml_stops, ldk_stops_offset⟩, ld_stops, st_stops, acq_stops, rel_stops,
    atom_stops, cline_stops, fun f x hm => vcqry_stops f x hm, ldk_stops_trap, ldk_stops_park⟩
  intro s k p w align ak hw
  refine ⟨fun hr h => (State.check_local s k align ak hw hr).trans (if_pos h),
    fun hr h => (State.check_own s k align ak hw hr).trans (if_pos h),
    State.check_out_of_bounds s k align ak,
    fun hr h => (State.check_local s k align ak hw hr).trans (if_neg (by omega)),
    fun hr h => (State.check_own s k align ak hw hr).trans (if_neg (by omega)),
    State.check_misaligned s k align ak, fun h1 h2 hb ha => ?_⟩
  have hc := State.check_aligned s k align ak h1 h2 hb ha
  refine ⟨fun hl => hc.trans (State.checkGlobal_lease hl), fun hl => ⟨fun x u ht => hc.trans (State.checkGlobal_walk hl ht),
    fun e u ht => ⟨fun x hx => hc.trans (State.checkGlobal_address hl ht hx), fun hp =>
      ⟨fun hv => hc.trans (State.checkGlobal_vc hl ht hp hv), fun v hv => ?_⟩⟩⟩⟩
  rw [State.checkGlobal_page hl ht hp hv] at hc
  refine ⟨fun hr hrd => hc.trans (if_pos ⟨hr, hrd⟩), fun hr hat hwr => hc.trans ((if_neg ?_).trans (if_pos ⟨hat, hwr⟩)), fun hr hwr => ?_⟩
  · exact fun h => Bool.false_ne_true (h.2.symm.trans (hr h.1))
  have hr' : ¬ ((ak = .load ∨ ak = .query ∨ ak = .atomic) ∧ e.rd = false) := fun h => Bool.false_ne_true (h.2.symm.trans (hr h.1))
  have hw' : ¬ (ak = .atomic ∧ (e.w && v.wpol != 3) = false) := fun h => Bool.false_ne_true (h.2.symm.trans (hwr h.1))
  rw [if_neg hr', if_neg hw'] at hc
  refine ⟨fun hwait hm => hc.trans (if_pos ⟨hm, hwait⟩), fun h => hc.trans (if_neg fun hm => ?_)⟩
  rcases h with h | h
  · exact h hm.2
  · exact Bool.false_ne_true (h.symm.trans hm.1)

end Sys2Proof.Machine
end

section
/-! PROOFS. A store of a tracked page that writes through, in a state whose table of cores lists a core twice: the statement about
committed stores (O20) does not hold of it. -/

namespace Sys2Proof.Machine
open Sys2Proof.Safety

/-- The cores: core 1 of die 0 stands twice, and the second, which no read of the table finds, holds the byte 7 of granule 0 dirty. -/
def twiceListed : Tbl Core :=
  [(0, {}), (1, {}),
   (1, { dirty := [(0, { bytes := [(0, 7)], gen := 0, tracked := true, hostBias := false, ctx := 0, vc := 0, wb := false })] })]
/-- A buffered store of the byte 5 to address 0, on a tracked page of VC 0, which is written through (spec/18_cache.md R443). -/
def throughStore : SbEntry :=
  { seq := 0, tl := 0, va := 0, pa := 0, width := 1, data := 5, vc := 0, tracked := true, hostBias := false, faulting := false, nl1 := false,
    word := 0, wfield := 0 }
/-- Its block, on core 0 of die 0. -/
def throughBlock : Block :=
  { id := 1, ctx := 0, launch := 0, num := 0, core := ⟨0, 0⟩, kernel := 0, nx := 1, ny := 1, nz := 1, regsN := 0, localSize := 0,
    privSize := 0, threads := [{}], kregs := [], sbuf := [throughStore] }
def twiceListedState : State := { State.reset with cores := twiceListed, blocks := [throughBlock] }

/-- Every core that the table answers with is clean. -/
theorem twiceListed_clean : cleanEverywhere twiceListedState 0 := by
  intro c
  show tget ((tget twiceListed (coreKey c)).getD {}).dirty 0 = none
  simp only [twiceListed, tget]
  split
  · rfl
  · split <;> rfl
/-- The commit leaves the byte of the core that no read finds, not the byte stored: the home takes the dirty bytes of every listed core. -/
theorem twiceListed_commit : mget (twiceListedState.commitBlock 1).1.mem 0 = 7 := by decide +kernel

/-- Refutes O20: its condition that no core holds dirty bytes of the granule reads the table of cores, while the write at the home takes
the bytes of every entry of the table; in a table that lists a core twice a dirty byte hides behind the first entry, and the home ends with
it in place of the byte stored. -/
theorem not_committedStore : ¬ Obligations.CommittedStore := by
  intro h
  obtain ⟨-, -, -, through⟩ := h twiceListedState 1 throughBlock throughStore rfl rfl (by decide +kernel) rfl (by decide)
  obtain ⟨stored, -⟩ := through rfl (.inr twiceListed_clean)
  have h5 : mget (twiceListedState.commitBlock 1).1.mem 0 = 5 := stored 0 Nat.one_pos
  rw [twiceListed_commit] at h5
  exact absurd h5 (by decide)

end Sys2Proof.Machine
end

section
/-! PROOFS. What cores hold of a granule: the table of cores after each operation on it, writes at the home, write-backs
(spec/03_memory_model.md R76, R92; spec/18_cache.md R459). -/

namespace Sys2Proof.Machine
open Sys2Proof.Safety

/-! ### Tables -/

theorem tdel_of_tget_none {α : Type} {t : Tbl α} {k : Nat} (h : tget t k = none) : tdel t k = t := by
  induction t with
  | nil => rfl
  | cons p t ih => grind [tdel, tget]
theorem mem_tput {α : Type} {t : Tbl α} {k : Nat} {v : α} {p : Nat × α} (h : p ∈ tput t k v) : p = (k, v) ∨ p ∈ t := by
  induction t with
  | nil => exact .inl (by simpa [tput] using h)
  | cons q t ih => grind [tput]

/-- What one element of a list brings about and no element undoes holds in the end. -/
theorem foldl_reaches {α : Type} {P : State → Prop} {f : State → α → State} {a : α} (hf : ∀ s, P (f s a)) (hk : ∀ s x, P s → P (f s x))
    {l : List α} (ha : a ∈ l) {s : State} : P (l.foldl f s) := by
  induction l generalizing s with
  | nil => cases ha
  | cons x l ih =>
    rw [List.foldl_cons]
    rcases List.mem_cons.mp ha with rfl | ha
    · exact foldl_keeps (P := P) (fun s x _ => hk s x) (hf s)
    · exact ih ha

/-! ### One core of the table -/

theorem coreKey_coreOfKey (k : Nat) : coreKey (coreOfKey k) = k := by
  simp only [coreKey, coreOfKey]
  omega
theorem State.core_setCore (s : State) (c : CoreRef) (k : Core) (e : CoreRef) :
    (s.setCore c k).core e = if coreKey e = coreKey c then k else s.core e := by
  simp only [State.core, State.setCore, tget_tput]
  split <;> rfl
theorem State.core_of_key {s : State} {c e : CoreRef} (h : coreKey e = coreKey c) : s.core e = s.core c := by
  rw [State.core, h, State.core]
theorem State.dropCopy_core (s : State) (c : CoreRef) (g : Nat) (e : CoreRef) : (s.dropCopy c g).core e =
    if coreKey e = coreKey c then { s.core e with copies := tdel (s.core e).copies g } else s.core e := by
  cases h : tget s.cores (coreKey c) with
  | some k =>
    simp only [State.dropCopy, h, State.core_setCore]
    split
    · rename_i he
      simp only [State.core, he, h, Option.getD_some]
    · rfl
  | none =>
    simp only [State.dropCopy, h]
    split
    · rename_i he
      simp only [State.core, he, h, Option.getD_none]
      rfl
    · rfl
theorem State.dropL2_cores (s : State) (die g : Nat) : (s.dropL2 die g).cores = s.cores := by
  unfold State.dropL2
  split <;> rfl
theorem State.core_of_cores {s t : State} (h : t.cores = s.cores) (c : CoreRef) : t.core c = s.core c := by
  rw [State.core, h, State.core]
theorem State.core_tmap {s t : State} {f : Core → Core} (h : t.cores = tmap f s.cores) (h0 : f {} = {}) (c : CoreRef) :
    t.core c = f (s.core c) := by
  simp only [State.core, h, tget_tmap]
  cases tget s.cores (coreKey c) with
  | none => exact h0.symm
  | some k => rfl

/-! ### A write at the home (R76, R92) -/

/-- A core, of this key, from which the home has taken the dirty bytes of a granule, unless it is the writer. -/
def Core.taken (but : Option Nat) (g key : Nat) (k : Core) : Core := if but = some key then k else { k with dirty := tdel k.dirty g }
theorem tget_takeDirty (but : Option Nat) (g : Nat) (L : Tbl Core) (key : Nat) :
    tget (takeDirty but g L).1 key = (tget L key).map (Core.taken but g key) := by
  induction L with
  | nil => rfl
  | cons p L ih =>
    obtain ⟨j, c⟩ := p
    have hn : tget c.dirty g = none → Core.taken but g j c = c := fun h => by
      simp only [Core.taken, tdel_of_tget_none h, ite_self]
    unfold takeDirty
    grind [tget, Core.taken]
theorem takeDirty_of_sole {but : Option Nat} {g : Nat} {L : Tbl Core} (h : ∀ p ∈ L, but ≠ some p.1 → tget p.2.dirty g = none) :
    takeDirty but g L = (L, []) := by
  induction L with
  | nil => rfl
  | cons p L ih =>
    obtain ⟨hp, hL⟩ := List.forall_mem_cons.mp h
    have ih := ih hL
    unfold takeDirty
    grind

section
variable (s : State) (by_ : Option CoreRef) (g : Nat) (bs : Tbl Byte)
theorem foldl_homeBytes_cores (l : List (Tbl Byte)) (s : State) : (l.foldl (fun s b => s.homeBytes g b) s).cores = s.cores :=
  foldl_keeps (P := fun t => t.cores = s.cores) (f := fun s b => s.homeBytes g b) (fun _ _ _ h => h) rfl
theorem State.homeWrite_cores_tracked : (s.homeWrite by_ g bs true).cores =
    tmap (fun k => { k with copies := tdel k.copies g }) (takeDirty (by_.map coreKey) g s.cores).1 := by
  unfold State.homeWrite
  rw [if_pos rfl, State.dropFar_cores]
  unfold State.dropAll
  dsimp only
  rw [foldl_homeBytes_cores, State.homeBytes_cores]
theorem State.homeWrite_core_tracked (c : CoreRef) : (s.homeWrite by_ g bs true).core c =
    { (s.core c).taken (by_.map coreKey) g (coreKey c) with copies := tdel (s.core c).copies g } := by
  have hc : ∀ k : Core, (k.taken (by_.map coreKey) g (coreKey c)).copies = k.copies := fun k => by
    unfold Core.taken
    split <;> rfl
  rw [← hc, State.core, State.homeWrite_cores_tracked, tget_tmap, tget_takeDirty, State.core]
  cases tget s.cores (coreKey c) with
  | some k => rfl
  | none =>
    simp only [Option.map_none, Option.getD_none, Core.taken]
    split <;> rfl
theorem State.homeWrite_core_untracked (c : CoreRef) : (s.homeWrite by_ g bs false).core c =
    if by_.map coreKey = some (coreKey c) then { s.core c with copies := tdel (s.core c).copies g } else s.core c := by
  unfold State.homeWrite
  cases by_ with
  | none => rfl
  | some d =>
    simp only [Bool.false_eq_true, if_false, Option.map_some, Option.some.injEq]
    rw [State.core_of_cores (State.dropL2_cores ..), State.dropCopy_core]
    exact if_congr eq_comm rfl rfl
/-- If no other core holds dirty bytes of the granule, the home takes no others. -/
theorem State.homeWrite_mem_of_sole {s : State} {by_ : Option CoreRef} {g : Nat} (bs : Tbl Byte) {tracked : Bool}
    (h : tracked = true → ∀ p ∈ s.cores, by_.map coreKey ≠ some p.1 → tget p.2.dirty g = none) :
    (s.homeWrite by_ g bs tracked).mem = (s.homeBytes g bs).mem := by
  unfold State.homeWrite
  cases tracked with
  | true =>
    dsimp only
    rw [if_pos rfl, State.dropFar_mem, State.dropAll_mem, State.homeBytes_cores, takeDirty_of_sole (h rfl)]
    rfl
  | false =>
    cases by_ with
    | none => rfl
    | some c => exact (State.dropL2_mem _ _ _).trans (State.dropCopy_mem _ _ _)
end

/-! ### The bytes of a write -/

theorem State.homeBytes_mem (s : State) (g : Nat) (bs : Tbl Byte) :
    (s.homeBytes g bs).mem = bs.foldl (fun m p => mset m (g * 128 + p.1) p.2) s.mem := rfl
theorem foldl_mset_outside (g : Nat) (bs : Tbl Byte) (m : Mem) {a : Nat} (h : ∀ p ∈ bs, g * 128 + p.1 ≠ a) :
    mget (bs.foldl (fun m p => mset m (g * 128 + p.1) p.2) m) a = mget m a := by
  induction bs generalizing m with
  | nil => rfl
  | cons p bs ih =>
    obtain ⟨hp, hbs⟩ := List.forall_mem_cons.mp h
    rw [List.foldl_cons, ih _ hbs, mget_mset, if_neg (Ne.symm hp)]
/-- Bytes at different offsets are all written. -/
theorem foldl_mset_inside (g i : Nat) (bs : Tbl Byte) (m : Mem) (h : (bs.map (·.1)).Nodup) :
    mget (bs.foldl (fun m p => mset m (g * 128 + p.1) p.2) m) (g * 128 + i) = (tget bs i).getD (mget m (g * 128 + i)) := by
  induction bs generalizing m with
  | nil => rfl
  | cons p bs ih =>
    rw [List.map_cons, List.nodup_cons] at h
    rw [List.foldl_cons]
    by_cases hi : p.1 = i
    · subst hi
      have hne : ∀ q ∈ bs, g * 128 + q.1 ≠ g * 128 + p.1 := fun q hq e =>
        h.1 (List.mem_map.mpr ⟨q, hq, by omega⟩)
      rw [foldl_mset_outside g bs _ hne, mget_mset, if_pos rfl]
      simp [tget]
    · have ht : tget (p :: bs) i = tget bs i := by simp [tget, hi]
      rw [ih _ h.2, mget_mset, if_neg (by omega), ht]

/-! ### What cores hold goes away, and nothing comes -/

/-- Of every granule a core holds what it held, or nothing. -/
structure Core.Sheds (a b : Core) : Prop where
  gen : b.gen = a.gen
  dirty : ∀ n, tget b.dirty n = tget a.dirty n ∨ tget b.dirty n = none
  copies : ∀ n, tget b.copies n = tget a.copies n ∨ tget b.copies n = none
theorem Core.Sheds.refl (a : Core) : a.Sheds a := ⟨rfl, fun _ => .inl rfl, fun _ => .inl rfl⟩
theorem tget_tdel_or {α : Type} (t : Tbl α) (g n : Nat) : tget (tdel t g) n = tget t n ∨ tget (tdel t g) n = none := by
  rw [tget_tdel]
  split
  · exact .inr rfl
  · exact .inl rfl
theorem Core.Sheds.tdel_copies (a : Core) (g : Nat) : a.Sheds { a with copies := tdel a.copies g } :=
  ⟨rfl, fun _ => .inl rfl, tget_tdel_or a.copies g⟩
theorem Core.Sheds.trans {a b c : Core} (h : a.Sheds b) (h' : b.Sheds c) : a.Sheds c := by
  have step : ∀ {α : Type} {x y z : Option α}, y = x ∨ y = none → z = y ∨ z = none → z = x ∨ z = none := by grind
  exact ⟨h'.gen.trans h.gen, fun n => step (h.dirty n) (h'.dirty n), fun n => step (h.copies n) (h'.copies n)⟩
/-- The same of every core. -/
def State.Sheds (s t : State) : Prop := ∀ c, (s.core c).Sheds (t.core c)
theorem State.Sheds.of_cores {s t : State} (h : t.cores = s.cores) : s.Sheds t := fun c => State.core_of_cores h c ▸ .refl _
theorem State.Sheds.trans {s t u : State} (h : s.Sheds t) (h' : t.Sheds u) : s.Sheds u := fun c => (h c).trans (h' c)
theorem State.Sheds.line {s t : State} (h : s.Sheds t) {c : CoreRef} {g : Nat} (hn : lineOf s c g = none) : lineOf t c g = none :=
  ((h c).dirty g).elim (·.trans hn) id
theorem State.Sheds.clean {s t : State} (h : s.Sheds t) {g : Nat} (hn : cleanEverywhere s g) : cleanEverywhere t g := fun c => h.line (hn c)
theorem State.Sheds.uncached {s t : State} (h : s.Sheds t) {g : Nat} (hn : uncached s g) : uncached t g := fun c =>
  ((h c).copies g).elim (·.trans (hn c)) id
theorem foldl_sheds {α : Type} {f : State → α → State} (h : ∀ (s : State) x, s.Sheds (f s x)) {l : List α} (s : State) :
    s.Sheds (l.foldl f s) :=
  foldl_keeps (P := s.Sheds) (fun t x _ ht => ht.trans (h t x)) (.of_cores rfl)

theorem State.dropCopy_sheds (s : State) (c : CoreRef) (g : Nat) : s.Sheds (s.dropCopy c g) := fun e => by
  rw [State.dropCopy_core]
  split
  · exact .tdel_copies _ g
  · exact .refl _
theorem State.dropL2_sheds (s : State) (die g : Nat) : s.Sheds (s.dropL2 die g) := .of_cores (s.dropL2_cores die g)
theorem State.dropFar_sheds (s : State) (g : Nat) : s.Sheds (s.dropFar g) := .of_cores (s.dropFar_cores g)
theorem State.dropAll_core (s : State) (g : Nat) (c : CoreRef) :
    (s.dropAll g).core c = { s.core c with copies := tdel (s.core c).copies g } :=
  State.core_tmap (f := fun k => { k with copies := tdel k.copies g }) rfl rfl c
theorem State.dropAll_sheds (s : State) (g : Nat) : s.Sheds (s.dropAll g) := fun c => s.dropAll_core g c ▸ .tdel_copies _ g
theorem State.dropAll_uncached (s : State) (g : Nat) : uncached (s.dropAll g) g := fun c => by
  rw [State.dropAll_core]
  exact tget_tdel_same _ _
theorem State.homeWrite_sheds (s : State) (by_ : Option CoreRef) (g : Nat) (bs : Tbl Byte) (tracked : Bool) :
    s.Sheds (s.homeWrite by_ g bs tracked) := fun c => by
  cases tracked with
  | true =>
    rw [State.homeWrite_core_tracked]
    unfold Core.taken
    split
    · exact .tdel_copies _ g
    · exact ⟨rfl, tget_tdel_or _ g, tget_tdel_or _ g⟩
  | false =>
    rw [State.homeWrite_core_untracked]
    split
    · exact .tdel_copies _ g
    · exact .refl _

/-! ### A line arrives at its home (WRITE_BACK_ARRIVAL) -/

/-- The fences await the line no longer. -/
def State.lineAwaited (s : State) (c : CoreRef) (g : Nat) : State :=
  { s with fences := s.fences.map fun f => { f with lines := f.lines.filter fun p => !(p.1 == c && p.2 == g) } }
/-- The state as the line leaves its core. -/
def State.lineLeft (s : State) (c : CoreRef) (g : Nat) : State :=
  s.setCore c { s.core c with dirty := tdel (s.core c).dirty g, copies := tdel (s.core c).copies g }
section
variable {s : State} {c : CoreRef} {g : Nat}
theorem State.arriveWb_of_none (h : lineOf s c g = none) : s.arriveWb c g = s.lineAwaited c g := by
  unfold State.arriveWb
  dsimp only
  rw [show tget (s.core c).dirty g = none from h]
  rfl
theorem State.arriveWb_of_some {d : DirtyLine} (h : lineOf s c g = some d) : s.arriveWb c g =
    (((s.lineLeft c g).homeWrite (some c) g d.bytes d.tracked).dropL2 c.die g).lineAwaited c g := by
  unfold State.arriveWb
  dsimp only
  rw [show tget (s.core c).dirty g = some d from h]
  rfl
variable (s c g)
theorem State.lineLeft_sheds : s.Sheds (s.lineLeft c g) := fun e => by
  rw [State.lineLeft, State.core_setCore]
  split
  · rename_i he
    rw [State.core_of_key he]
    exact ⟨rfl, tget_tdel_or _ g, tget_tdel_or _ g⟩
  · exact .refl _
theorem State.lineLeft_line : lineOf (s.lineLeft c g) c g = none := by
  rw [lineOf, State.lineLeft, State.core_setCore, if_pos rfl]
  exact tget_tdel_same _ _
theorem State.arriveWb_sheds : s.Sheds (s.arriveWb c g) := by
  cases h : lineOf s c g with
  | none =>
    rw [State.arriveWb_of_none h]
    exact .of_cores rfl
  | some d =>
    rw [State.arriveWb_of_some h]
    exact (s.lineLeft_sheds c g).trans ((State.homeWrite_sheds _ _ _ _ _).trans ((State.dropL2_sheds _ _ _).trans (.of_cores rfl)))
theorem State.arriveWb_line : lineOf (s.arriveWb c g) c g = none := by
  cases h : lineOf s c g with
  | none =>
    rw [State.arriveWb_of_none h]
    exact h
  | some d =>
    rw [State.arriveWb_of_some h]
    exact ((State.homeWrite_sheds _ _ _ _ _).trans ((State.dropL2_sheds _ _ _).trans (.of_cores rfl))).line (s.lineLeft_line c g)
theorem State.arriveWb_fences : ∀ f ∈ (s.arriveWb c g).fences, (c, g) ∉ f.lines := by
  have awaited : ∀ u : State, ∀ f ∈ (u.lineAwaited c g).fences, (c, g) ∉ f.lines := by
    intro u f hf hm
    obtain ⟨f', -, rfl⟩ := List.mem_map.mp hf
    have := (List.mem_filter.mp hm).2
    simp at this
  cases h : lineOf s c g with
  | none =>
    rw [State.arriveWb_of_none h]
    exact awaited s
  | some d =>
    rw [State.arriveWb_of_some h]
    exact awaited _
theorem State.arriveWb_mem_of_none (h : lineOf s c g = none) : (s.arriveWb c g).mem = s.mem := by
  rw [State.arriveWb_of_none h]
  rfl
end
/-- If no other core holds dirty bytes of a tracked granule, the line's bytes are what reaches memory. -/
theorem State.arriveWb_mem {s : State} {c : CoreRef} {g : Nat} {d : DirtyLine} (h : lineOf s c g = some d)
    (hs : d.tracked = true → soleLine s c g) : (s.arriveWb c g).mem = (s.homeBytes g d.bytes).mem := by
  rw [State.arriveWb_of_some h]
  refine (State.dropL2_mem _ _ _).trans (State.homeWrite_mem_of_sole d.bytes fun ht p hp hk => ?_)
  have hk : p.1 ≠ coreKey c := fun e => hk (by rw [e]; rfl)
  rcases mem_tput hp with rfl | hp
  · exact absurd rfl hk
  · exact hs ht p hp hk
section
variable {α : Type} (f : α → CoreRef × Nat) (l : List α) (s : State)
theorem arrivals_sheds : s.Sheds (l.foldl (fun s a => s.arriveWb (f a).1 (f a).2) s) := foldl_sheds (fun s _ => s.arriveWb_sheds _ _) s
/-- Lines that have arrived are gone. -/
theorem arrivals_line {a : α} (ha : a ∈ l) : lineOf (l.foldl (fun s a => s.arriveWb (f a).1 (f a).2) s) (f a).1 (f a).2 = none :=
  foldl_reaches (P := fun t => lineOf t (f a).1 (f a).2 = none) (f := fun s a => s.arriveWb (f a).1 (f a).2)
    (fun s => s.arriveWb_line _ _) (fun s _ h => (s.arriveWb_sheds _ _).line h) ha
theorem arrivals_mem (h : ∀ a ∈ l, lineOf s (f a).1 (f a).2 = none) : (l.foldl (fun s a => s.arriveWb (f a).1 (f a).2) s).mem = s.mem := by
  induction l generalizing s with
  | nil => rfl
  | cons b l ih =>
    obtain ⟨hb, hl⟩ := List.forall_mem_cons.mp h
    rw [List.foldl_cons, ih _ fun a ha => (s.arriveWb_sheds _ _).line (hl a ha)]
    exact s.arriveWb_mem_of_none _ _ hb
end
/-- A core whose line stands in the table is among those that a recall asks. -/
theorem State.mem_dirtyCores {s : State} {c : CoreRef} {g : Nat} (h : lineOf s c g ≠ none) : coreKey c ∈ s.dirtyCores g := by
  unfold lineOf State.core at h
  cases hk : tget s.cores (coreKey c) with
  | none => simp [hk] at h
  | some k =>
    rw [hk] at h
    exact List.mem_map.mpr ⟨(coreKey c, k), List.mem_filter.mpr ⟨mem_of_tget hk, Option.isSome_iff_ne_none.mpr h⟩, rfl⟩
theorem lineOf_of_key {s : State} {c e : CoreRef} (h : coreKey e = coreKey c) (g : Nat) : lineOf s e g = lineOf s c g := by
  rw [lineOf, State.core_of_key h, lineOf]
theorem State.recallDirty_sheds (s : State) (g : Nat) : s.Sheds (s.recallDirty g) := arrivals_sheds (fun k => (coreOfKey k, g)) _ s
theorem State.recallDirty_clean (s : State) (g : Nat) : cleanEverywhere (s.recallDirty g) g := fun c => by
  by_cases h : lineOf s c g = none
  · exact (s.recallDirty_sheds g).line h
  · rw [← lineOf_of_key (coreKey_coreOfKey (coreKey c))]
    exact arrivals_line (fun k => (coreOfKey k, g)) _ s (State.mem_dirtyCores h)
theorem State.recallDirty_mem {s : State} {g : Nat} (h : cleanEverywhere s g) : (s.recallDirty g).mem = s.mem :=
  arrivals_mem (fun k => (coreOfKey k, g)) _ s fun _ _ => h _

end Sys2Proof.Machine
end

section
/-! PROOFS. What a home does with a request: it waits, sends a release or a demand ahead, or performs it; releases, atomics and acquires
as they are performed (spec/03_memory_model.md R85, R86, R91, R92; spec/08_core_sync.md R250), and the statement about them (O42). -/

namespace Sys2Proof.Machine
open Sys2Proof.Safety

/-! ### The stages of a request -/

/-- How the home performs a request of a kind. -/
def ReqKind.perform : ReqKind → State → HomeReq → State
  | .fill => State.performFill
  | .acquire => State.performAcquire
  | .atomic => State.performAtomic
  | .release => State.performRelease
/-- The event at the home for each kind. -/
theorem exec_home {i : Nat → Instr} {kind : ReqKind} (hi : (i, kind) ∈ [(Instr.homeRelease, ReqKind.release), (.homeAcquire, .acquire),
    (.homeAtomic, .atomic), (.homeFill, .fill)]) {s : State} {n : Nat} {q : HomeReq} (h : s.findReq n kind = some q) :
    exec (i n) s = .next (answered (s.serve q kind.perform) q) := by
  fin_cases hi
  · simp only [exec, execHomeRelease, h]
    rfl
  · simp only [exec, execHomeAcquire, h]
    rfl
  · simp only [exec, execHomeAtomic, h]
    rfl
  · simp only [exec, execHomeFill, h]
    rfl

section
variable {s : State} {n : Nat} {kind : ReqKind} {q : HomeReq} (perform : State → HomeReq → State)
theorem State.bunch_ready (h : Served s n kind q) : ((s.bunch q).all fun p => s.reqReady p && !p.stage.waits) = true :=
  List.all_eq_true.mpr fun p hp => by simp [h.free p hp]
theorem State.serve_waits (h : ∃ p ∈ s.bunch q, s.reqReady p = false ∨ p.stage.waits = true) : s.serve q perform = s := by
  have hall : ((s.bunch q).all fun p => s.reqReady p && !p.stage.waits) = false := by
    obtain ⟨p, hp, h⟩ := h
    refine List.all_eq_false.mpr ⟨p, hp, ?_⟩
    rcases h with h | h <;> simp [h]
  simp only [State.serve, hall, Bool.not_false, if_true]
theorem State.serve_begins (h : Served s n kind q) (hr : q.rel = true) (hs : 2 ≤ q.scope) (hf : q.stage = .fresh) :
    s.serve q perform = s.beginRelease q := by
  simp only [State.serve, State.bunch_ready h, hr, hf, hs, decide_true, Bool.not_true, Bool.false_eq_true, if_false, beq_self_eq_true,
    Bool.and_true, if_true]
section
variable (h : Served s n kind q) (hf : q.rel = true → 2 ≤ q.scope → q.stage ≠ .fresh)
include h hf
theorem State.serve_begun : s.serve q perform =
    if (q.rel || q.acq) && decide (2 ≤ q.scope) && s.needsDemand (granule q.pa) q.core then s.demand q.id (granule q.pa)
    else (s.bunch q).foldl perform s := by
  have hb : (q.stage == .fresh && q.rel && decide (2 ≤ q.scope)) = false := by
    rw [Bool.eq_false_iff]
    intro hb
    simp only [Bool.and_eq_true, beq_iff_eq, decide_eq_true_eq] at hb
    exact hf hb.1.2 hb.2 hb.1.1
  simp only [State.serve, State.bunch_ready h, hb, Bool.not_true, Bool.false_eq_true, if_false]
theorem State.serve_demands (ha : q.rel = true ∨ q.acq = true) (hs : 2 ≤ q.scope) (hd : s.needsDemand (granule q.pa) q.core = true) :
    s.serve q perform = s.demand q.id (granule q.pa) := by
  rw [State.serve_begun perform h hf, if_pos (by simp [ha, hs, hd])]
end
theorem State.serve_performs (h : Served s n kind q) (hp : Prepared s q) : s.serve q perform = (s.bunch q).foldl perform s := by
  rw [State.serve_begun perform h hp.1, if_neg]
  intro hd
  simp only [Bool.and_eq_true, Bool.or_eq_true, decide_eq_true_eq] at hd
  exact absurd (hp.2 hd.1.1 hd.1.2) (by simp [hd.2])
/-- The event performs a request that is served and prepared. -/
theorem exec_home_performs {i : Nat → Instr} (hi : (i, kind) ∈ [(Instr.homeRelease, ReqKind.release), (.homeAcquire, .acquire),
    (.homeAtomic, .atomic), (.homeFill, .fill)]) (h : Served s n kind q) (hp : Prepared s q) :
    exec (i n) s = .next (answered ((s.bunch q).foldl kind.perform s) q) := by
  rw [exec_home hi h.here, State.serve_performs _ h hp]
end

/-! ### A request that has not been performed has no response -/

theorem State.mem_reqs_of_findReq {s : State} {n : Nat} {kind : ReqKind} {q : HomeReq} (h : s.findReq n kind = some q) : q ∈ s.reqs :=
  List.mem_of_find?_eq_some h
theorem answered_of_pending {t : State} {q : HomeReq} (h : ∃ x ∈ t.reqs, x.id = q.id) : answered t q = t :=
  if_pos (List.any_eq_true.mpr (by simpa using h))
theorem State.pending_setStage {s : State} {q : HomeReq} (h : q ∈ s.reqs) (i : Nat) (st : ReqStage) :
    ∃ x ∈ (s.setStage i st).reqs, x.id = q.id := by
  refine ⟨_, List.mem_map.mpr ⟨q, h, rfl⟩, ?_⟩
  split <;> rfl
theorem State.sendWb_reqs (s : State) (c : CoreRef) (p : Nat → DirtyLine → Bool) : (s.sendWb c p).reqs = s.reqs := by
  unfold State.sendWb
  split <;> rfl
theorem State.fence_reqs (s : State) (who : FenceFor) (cs : List CoreRef) (p : Nat → DirtyLine → Bool) (rs : List Nat) :
    (s.fence who cs p rs).reqs = s.reqs :=
  foldl_keeps (P := fun t => t.reqs = s.reqs) (f := fun t c => t.sendWb c p) (fun t c _ h => (t.sendWb_reqs c p).trans h) rfl
theorem State.demandFor_reqs (s : State) (who : FenceFor) (g : Nat) : (s.demandFor who g).reqs = s.reqs := by
  unfold State.demandFor
  dsimp only
  split <;> rfl
theorem State.needsDemand_iff (s : State) (g : Nat) (c : CoreRef) : s.needsDemand g c = true ↔ (s.srec g).sv = true ∧ (s.srec g).fl = false ∧
    ¬ ((s.srec g).rdie.toNat = c.die ∧ (s.srec g).rcore.toNat = c.num ∧ (s.srec g).rpkg = s.pkg) := by
  simp only [State.needsDemand, State.recIs, Bool.and_eq_true, Bool.not_eq_true', Bool.eq_false_iff, beq_iff_eq, ne_eq, and_assoc]
theorem State.mem_bunch {s : State} {q p : HomeReq} (h : p ∈ s.bunch q) : p = q ∨ (p ∈ s.reqs ∧ p.ins = q.ins ∧ p.blk = q.blk ∧
    p.kind = q.kind ∧ p.pa = q.pa ∧ (q.kind = .acquire ∨ (q.kind = .fill ∧ q.op.isSome = true))) := by
  unfold State.bunch at h
  split at h
  case isTrue hk =>
    obtain ⟨hp, he⟩ := List.mem_filter.mp h
    simp only [Bool.and_eq_true, Bool.or_eq_true, beq_iff_eq] at hk he
    obtain ⟨⟨⟨hi, hb⟩, hd⟩, ha⟩ := he
    exact .inr ⟨hp, hi, hb, hd, ha, hk.symm⟩
  case isFalse => exact .inl (List.mem_singleton.mp h)

/-! ### The sync record and the holders -/

theorem State.srec_setRec_same (s : State) (g : Nat) (r : SyncRec) : (s.setRec g r).srec g = r := by
  simp only [State.srec, State.setRec, tget_tput_same, Option.getD_some]
theorem State.endRelease_srec (s : State) (c : CoreRef) (g : Nat) : (s.endRelease c g).srec g =
    { s.srec g with sv := true, fl := false, rdie := BitVec.ofNat 4 c.die, rcore := BitVec.ofNat 7 c.num, rpkg := s.pkg,
                    rgen := (s.core c).gen, bv := false, boost := 0 } := State.srec_setRec_same s g _
theorem State.endRelease_gen (s : State) (c : CoreRef) (g : Nat) : ((s.endRelease c g).core c).gen = (s.core c).gen + 1 := by
  rw [State.endRelease, State.core_setCore, if_pos rfl]
theorem State.endRelease_blocks (s : State) (c : CoreRef) (g : Nat) : (s.endRelease c g).blocks = s.blocks := rfl
theorem State.notify_sync (s : State) (g : Nat) : (s.notify g).sync = s.sync := by
  unfold State.notify
  dsimp only
  split
  · rfl
  · split <;> rfl
theorem State.notify_blocks (s : State) (g : Nat) : (s.notify g).blocks = s.blocks := by
  unfold State.notify
  dsimp only
  split
  · rfl
  · split <;> rfl
theorem State.acquireRec_blocks (s : State) (c : CoreRef) (g : Nat) (failed : Bool) (prio : BitVec 7) :
    (s.acquireRec c g failed prio).blocks = s.blocks := by
  unfold State.acquireRec State.acquireFrom
  dsimp only
  split
  · exact State.notify_blocks _ g
  · rfl
/-- An acquire that succeeds leaves its core as the holder. -/
theorem State.acquireRec_srec_holder (s : State) (c : CoreRef) (g : Nat) (prio : BitVec 7) : (s.acquireRec c g false prio).srec g =
    { s.srec g with hdie := BitVec.ofNat 4 c.die, hcore := BitVec.ofNat 7 c.num, hpkg := s.pkg, holder := true } :=
  State.srec_setRec_same s g _
/-- One that fails leaves its priority, if no higher one stands. -/
theorem State.acquireRec_srec_spinner (s : State) (c : CoreRef) (g : Nat) (prio : BitVec 7) : (s.acquireRec c g true prio).srec g =
    if (s.srec g).bv = true ∧ prio.toNat ≤ (s.srec g).boost.toNat then s.srec g else { s.srec g with bv := true, boost := prio } := by
  refine ((congrArg (fun t => (tget t g).getD ({} : SyncRec)) (State.notify_sync (s.setRec g _) g)).trans (State.srec_setRec_same s g _)).trans ?_
  by_cases hr : (s.srec g).bv = true ∧ prio.toNat ≤ (s.srec g).boost.toNat
  · rw [if_pos hr, if_neg (by simp [hr])]
  · rw [if_neg hr, if_pos]
    cases hb : (s.srec g).bv with
    | false => rfl
    | true => simpa [hb] using hr

/-! ### What a core has read at the home -/

section
variable (s : State) (c : CoreRef) (g : Nat)
theorem State.seen_beside : s.Beside (s.seen c g) := (s.dropCopy_beside c g).trans (State.dropL2_beside _ c.die g)
theorem State.seen_poison : (s.seen c g).poison = s.poison := by
  unfold State.seen State.dropL2 State.dropCopy
  split <;> split <;> rfl
theorem State.mem_seen_cores {p : Nat × Core} (h : p ∈ (s.seen c g).cores) (hp : p.1 ≠ coreKey c) : p ∈ s.cores := by
  unfold State.seen at h
  rw [State.dropL2_cores] at h
  unfold State.dropCopy at h
  split at h
  · rcases mem_tput h with rfl | h
    · exact absurd rfl hp
    · exact h
  · exact h
end
/-- The bytes of a request, written at the home of its granule. -/
theorem State.homeBytes_leBytes_mem (s : State) (pa n v : Nat) :
    (s.homeBytes (granule pa) ((leBytes n v).zipIdx.map fun p => (pa % 128 + p.2, p.1))).mem = mwrite s.mem pa n v := by
  refine (foldl_mset_eq_mputs s.mem (granule pa) (pa % 128) 0 (leBytes n v)).trans ?_
  rw [mwrite, granule]
  congr 1
  omega

/-! ### Landing -/

section
variable (s : State) (q : HomeReq) (ws : List Word) (bad : Bool) (act : LandAct)
theorem State.landVal_sync : (s.landVal q ws bad act).sync = s.sync := by
  unfold State.landVal
  split <;> rfl
/-- The value lands in the one operation of the request. -/
theorem State.landVal_find {k : Block} {o : Nat} {x : SlotOp} (hk : s.block q.blk = some k) (htl : q.tl < k.threads.length)
    (ho : q.op = some o) (hw : q.wofs = none) (hx : (k.thread q.tl).ops.find? (fun x => x.id == o) = some x) :
    ((s.landVal q ws bad act).thread q.blk q.tl).ops.find? (fun x => x.id == o) =
      some { x with poison := if bad then some q.va else x.poison, act := act, val := some ws } := by
  simp only [State.landVal, ho, hw, State.modOp]
  rw [State.thread_modThread_same _ hk htl, List.find?_map, show ((fun x : SlotOp => x.id == o) ∘ fun x : SlotOp => if x.id == o then
      { x with poison := if bad then some q.va else x.poison, act := act, val := some ws } else x) = fun x => x.id == o from
    funext fun x => by
      dsimp only [Function.comp_apply]
      split <;> rfl, hx, Option.map_some, if_pos (List.find?_some (p := fun x : SlotOp => x.id == o) hx)]
end

/-! ### What the home performs -/

/-- A release at quad scope or wider ends at a state whose memory holds its bytes. -/
theorem State.performRelease_ends (s : State) (q : HomeReq) (hs : 2 ≤ q.scope) (ho : ownOnly s q) : ∃ u : State,
    s.performRelease q = u.endRelease q.core (granule q.pa) ∧ s.Beside u ∧ s.Sheds u ∧ u.mem = mwrite s.mem q.pa q.width q.data := by
  have hd : s.Beside (s.dropReq q.id) := ⟨rfl, rfl, rfl, rfl, rfl, rfl⟩
  have hd' : s.Sheds (s.dropReq q.id) := .of_cores rfl
  unfold State.performRelease
  dsimp only
  rw [if_neg (by omega)]
  refine ⟨_, rfl, ?_, ?_, ?_⟩
  · exact hd.trans ((State.homeWrite_beside ..).trans ((State.dropCopy_beside ..).trans (State.dropL2_beside ..)))
  · exact hd'.trans (.trans (State.homeWrite_sheds _ _ _ _ _) (.trans (State.dropCopy_sheds _ _ _) (State.dropL2_sheds _ _ _)))
  · rw [State.dropL2_mem, State.dropCopy_mem]
    exact (State.homeWrite_mem_of_sole (s := s.dropReq q.id) (by_ := some q.core) _ fun ht p hp hk => ho ht p hp fun e => hk (by rw [e]; rfl)).trans
      (State.homeBytes_leBytes_mem (s.dropReq q.id) ..)
/-- What an atomic leaves at the home, before its result lands (R91, R92). -/
def State.atomicDone (s : State) (q : HomeReq) : State :=
  let g := granule q.pa
  let s := (s.dropReq q.id).seen q.core g
  let old := mread s.mem q.pa q.width
  let new := atomNew q.aop (8 * q.width) old q.data q.cmp
  let s := match new with
    | some v => s.homeWrite (some q.core) g (((leBytes q.width v).zipIdx).map fun (p : Byte × Nat) => (q.pa % 128 + p.2, p.1)) q.tracked
    | none => s
  let s := if q.rel && decide (2 ≤ q.scope) then s.endRelease q.core g else s
  if q.acq && decide (2 ≤ q.scope) then s.acquireRec q.core g (new.isNone || new == some old) q.prio else s
theorem State.performAtomic_lands (s : State) (q : HomeReq) : ∃ act, s.performAtomic q =
    (s.atomicDone q).landVal q (wordsOf (q.width / 4) (mread s.mem q.pa q.width)) (s.poisoned (granule q.pa)) act := by
  have hm : ((s.dropReq q.id).seen q.core (granule q.pa)).mem = s.mem := State.seen_mem ..
  have hp : ((s.dropReq q.id).seen q.core (granule q.pa)).poisoned (granule q.pa) = s.poisoned (granule q.pa) := by
    simp only [State.poisoned, State.seen_poison]
    rfl
  have lands : ∃ act, s.performAtomic q = (s.atomicDone q).landVal q
      (wordsOf (q.width / 4) (mread ((s.dropReq q.id).seen q.core (granule q.pa)).mem q.pa q.width))
      (((s.dropReq q.id).seen q.core (granule q.pa)).poisoned (granule q.pa)) act := ⟨_, rfl⟩
  rwa [hm, hp] at lands
theorem State.atomicDone_blocks (s : State) (q : HomeReq) : (s.atomicDone q).blocks = s.blocks := by
  have hs : ((s.dropReq q.id).seen q.core (granule q.pa)).blocks = s.blocks := (State.seen_beside ..).blocks
  unfold State.atomicDone
  simp only [apply_ite State.blocks, State.acquireRec_blocks, State.endRelease_blocks, ite_self]
  split
  · exact (State.homeWrite_beside ..).blocks.trans hs
  · exact hs
/-- The new value reaches the home; a CAS that fails leaves it as it is. -/
theorem State.atomicDone_mem {s : State} {q : HomeReq} (ho : ownOnly s q) : (s.atomicDone q).mem =
    ((atomNew q.aop (8 * q.width) (mread s.mem q.pa q.width) q.data q.cmp).map (mwrite s.mem q.pa q.width)).getD s.mem := by
  have hm : ((s.dropReq q.id).seen q.core (granule q.pa)).mem = s.mem := State.seen_mem ..
  unfold State.atomicDone
  simp only [apply_ite State.mem, State.acquireRec_mem, State.endRelease_mem, ite_self, hm]
  cases atomNew q.aop (8 * q.width) (mread s.mem q.pa q.width) q.data q.cmp with
  | none => exact hm
  | some v =>
    refine (State.homeWrite_mem_of_sole (by_ := some q.core) _ fun ht p hp hk => ?_).trans ?_
    · have hk : p.1 ≠ coreKey q.core := fun e => hk (by rw [e]; rfl)
      exact ho ht p (State.mem_seen_cores (s.dropReq q.id) q.core _ hp hk) hk
    · rw [State.homeBytes_leBytes_mem, hm]
      rfl
/-- An acquire reads one value, leaves the record by whether its thread held that, and lands it. -/
theorem State.performAcquire_lands (s : State) (q : HomeReq) : ∃ v bad act, s.performAcquire q =
    (((s.dropReq q.id).seen q.core (granule q.pa)).acquireRec q.core (granule q.pa)
      ((s.thread q.blk q.tl).heldVal == some (granule q.pa, v)) q.prio).landVal q (landWords q.width v false) bad act := by
  have hb : ((s.dropReq q.id).seen q.core (granule q.pa)).thread q.blk q.tl = s.thread q.blk q.tl := by
    simp only [State.thread, State.block, (State.seen_beside (s.dropReq q.id) q.core (granule q.pa)).blocks]
    rfl
  have lands : ∃ v bad act, s.performAcquire q = (((s.dropReq q.id).seen q.core (granule q.pa)).acquireRec q.core (granule q.pa)
      ((((s.dropReq q.id).seen q.core (granule q.pa)).thread q.blk q.tl).heldVal == some (granule q.pa, v)) q.prio).landVal q
        (landWords q.width v false) bad act := ⟨_, _, _, rfl⟩
  rwa [hb] at lands

/-- Settles O42: a home's stages are those of `serve`; what it performs are the rules above. -/
theorem homeOperations : Obligations.HomeOperations := by
  refine ⟨fun s n q h hp => exec_home_performs (by simp) h hp, fun s n q h hp => exec_home_performs (by simp) h hp,
    fun s n q h hp => exec_home_performs (by simp) h hp, fun s n q h hp => exec_home_performs (by simp) h hp, ?stages,
    State.needsDemand_iff, fun s q p h => State.mem_bunch h, ?release, ?atomic, ?atomicLands, ?acquire⟩
  case stages =>
    intro c hc s n q hq
    have hin := State.mem_reqs_of_findReq hq
    have pends : ∀ {t : State}, (∃ x ∈ t.reqs, x.id = q.id) → s.serve q c.2.perform = t → exec (c.1 n) s = .next t := by
      intro t ht hs
      rw [exec_home hc hq, hs, answered_of_pending ht]
    refine ⟨fun h => ?_, fun h hr hs hf => ?_, fun h ha hs hf hd => ?_⟩
    · exact pends ⟨q, hin, rfl⟩ (State.serve_waits _ h)
    · exact pends (State.pending_setStage ((State.fence_reqs ..).symm ▸ hin) _ _) (State.serve_begins _ h hr hs hf)
    · exact pends (State.pending_setStage ((State.demandFor_reqs ..).symm ▸ hin) _ _)
        (State.serve_demands _ h (fun hr _ => hf hr) ha hs hd)
  case release =>
    intro s q hs hg ho
    obtain ⟨u, hu, hbes, hsh, hmem⟩ := s.performRelease_ends q hs ho
    have hgen := (hsh q.core).gen
    dsimp only
    rw [hu, State.endRelease_srec, State.endRelease_gen, State.endRelease_mem, hmem, hbes.pkg, hgen]
    exact ⟨mread_mwrite_same_bits .., rfl, rfl, rfl, rfl, rfl, rfl, rfl, rfl, fun a ha => mget_mwrite_outside _ _ _ _ _ ha⟩
  case atomic =>
    intro s q hg ho
    obtain ⟨act, h⟩ := s.performAtomic_lands q
    dsimp only
    rw [h, State.landVal_mem, State.atomicDone_mem ho]
    refine ⟨fun v hv => ?_, fun hn => ?_⟩
    · rw [hv]
      exact ⟨mread_mwrite_same_bits .., fun a ha => mget_mwrite_outside _ _ _ _ _ ha⟩
    · rw [hn]
      rfl
  case atomicLands =>
    intro s q o k x hk htl hop hw hx
    obtain ⟨act, h⟩ := s.performAtomic_lands q
    have hk' : (s.atomicDone q).block q.blk = some k := by rw [State.block, State.atomicDone_blocks]; exact hk
    rw [h]
    exact ⟨_, State.landVal_find _ _ _ _ _ hk' htl hop hw hx, rfl, rfl, rfl⟩
  case acquire =>
    intro s q o k x hk htl hop hw hx
    obtain ⟨v, bad, act, h⟩ := s.performAcquire_lands q
    have hseen : s.Beside ((s.dropReq q.id).seen q.core (granule q.pa)) :=
      State.Beside.trans (t := s.dropReq q.id) ⟨rfl, rfl, rfl, rfl, rfl, rfl⟩ (State.seen_beside ..)
    dsimp only
    rw [h]
    refine ⟨_, v, State.landVal_find (k := k) _ _ _ _ _ ?_ htl hop hw hx, rfl, ?_, fun hv => ?_, fun hv => ?_⟩
    · rw [State.block, State.acquireRec_blocks, hseen.blocks]
      exact hk
    · rw [State.landVal_mem, State.acquireRec_mem, State.seen_mem]
      rfl
    all_goals
      rw [← State.thread_of_block hk] at hv
      rw [State.srec, State.landVal_sync]
    · rw [beq_eq_false_iff_ne.mpr hv]
      refine (State.acquireRec_srec_holder _ _ _ _).trans ?_
      rw [hseen.srec, hseen.pkg]
    · rw [beq_iff_eq.mpr hv]
      refine (State.acquireRec_srec_spinner _ _ _ _).trans ?_
      rw [hseen.srec]

end Sys2Proof.Machine
end

section
/-! PROOFS. Dirty lines on their way, fences, recalls, and the accesses of the host (spec/03_memory_model.md R76 to R99;
spec/18_cache.md R459, R465, R466; spec/22_host.md R516), and the statement about them (O43). -/

namespace Sys2Proof.Machine
open Sys2Proof.Safety

/-! ### Lines set out for their homes -/

section
variable (s : State) (c : CoreRef)
theorem State.lineOf_dropCopy (g : Nat) (e : CoreRef) (n : Nat) : lineOf (s.dropCopy c g) e n = lineOf s e n := by
  rw [lineOf, State.dropCopy_core]
  split <;> rfl
theorem lineOf_of_cores {s t : State} (h : t.cores = s.cores) (c : CoreRef) (g : Nat) : lineOf t c g = lineOf s c g := by
  rw [lineOf, State.core_of_cores h, lineOf]
theorem State.lineOf_dropL2 (die g : Nat) (e : CoreRef) (n : Nat) : lineOf (s.dropL2 die g) e n = lineOf s e n :=
  lineOf_of_cores (s.dropL2_cores die g) e n
variable (p : Nat → DirtyLine → Bool)
theorem State.sendWb_core (e : CoreRef) : (s.sendWb c p).core e = if coreKey e = coreKey c then
    { s.core e with dirty := (s.core e).dirty.map fun d => (d.1, { d.2 with wb := d.2.wb || p d.1 d.2 }) } else s.core e := by
  have hf : (fun d : Nat × DirtyLine => if p d.1 d.2 then (d.1, { d.2 with wb := true }) else d) =
      fun d => (d.1, { d.2 with wb := d.2.wb || p d.1 d.2 }) := by
    funext d
    cases h : p d.1 d.2 <;> simp
  cases h : tget s.cores (coreKey c) with
  | some k =>
    simp only [State.sendWb, h, State.core_setCore, hf]
    split
    · rename_i he
      simp only [State.core, he, h, Option.getD_some]
    · rfl
  | none =>
    simp only [State.sendWb, h]
    split
    · rename_i he
      simp only [State.core, he, h, Option.getD_none]
      rfl
    · rfl
theorem State.lineOf_sendWb (n : Nat) :
    lineOf (s.sendWb c p) c n = (lineOf s c n).map fun d => { d with wb := d.wb || p n d } := by
  rw [lineOf, State.sendWb_core, if_pos rfl]
  exact tget_map_values _ _ n
theorem State.lineOf_sendWb_other {e : CoreRef} (he : coreKey e ≠ coreKey c) (n : Nat) : lineOf (s.sendWb c p) e n = lineOf s e n := by
  rw [lineOf, State.sendWb_core, if_neg he, lineOf]
theorem State.lineOf_sendWb_isSome (e : CoreRef) (n : Nat) : (lineOf (s.sendWb c p) e n).isSome = (lineOf s e n).isSome := by
  by_cases he : coreKey e = coreKey c
  · rw [lineOf_of_key he, State.lineOf_sendWb, Option.isSome_map, lineOf_of_key he]
  · rw [State.lineOf_sendWb_other s c p he]
theorem State.sendWb_asleep : (s.sendWb c p).asleep = s.asleep := by
  unfold State.sendWb
  split <;> rfl
end

theorem execWriteBackArrival_arrives {s : State} {c : CoreRef} {g : Nat} {d : DirtyLine} (h : lineOf s c g = some d) (hw : d.wb = true)
    (hr : s.reachable (g * 128) = true) (hf : s.flitWaits 9 g = false) : exec (.writeBackArrival c g) s = .next (s.arriveWb c g) := by
  simp only [exec, execWriteBackArrival, show tget (s.core c).dirty g = some d from h, hw, hr, hf, Bool.not_false, Bool.and_self, if_true]
theorem execWriteBackArrival_waits {s : State} {c : CoreRef} {g : Nat} (h : ∀ d, lineOf s c g = some d → d.wb = true →
    s.reachable (g * 128) = true → s.flitWaits 9 g = true) : exec (.writeBackArrival c g) s = .next s := by
  cases hd : lineOf s c g with
  | none => simp only [exec, execWriteBackArrival, show tget (s.core c).dirty g = none from hd]
  | some d =>
    simp only [exec, execWriteBackArrival, show tget (s.core c).dirty g = some d from hd]
    refine if_neg fun hc => ?_
    simp only [Bool.and_eq_true, Bool.not_eq_true'] at hc
    exact absurd (h d hd hc.1.1 hc.1.2) (by simp [hc.2])
/-- The bytes of a line that has arrived, and of the other granules, at the home. -/
theorem State.arriveWb_bytes {s : State} {c : CoreRef} {g : Nat} {d : DirtyLine} (h : lineOf s c g = some d) (hg : goodLine d)
    (hs : d.tracked = true → soleLine s c g) :
    (∀ i, mget (s.arriveWb c g).mem (g * 128 + i) = (tget d.bytes i).getD (mget s.mem (g * 128 + i))) ∧
      ∀ a, granule a ≠ g → mget (s.arriveWb c g).mem a = mget s.mem a := by
  obtain ⟨hn, hlt⟩ := hg
  rw [State.arriveWb_mem h hs, State.homeBytes_mem]
  refine ⟨fun i => foldl_mset_inside g i d.bytes s.mem hn, fun a ha => foldl_mset_outside g d.bytes s.mem fun p hp => ?_⟩
  have := hlt p hp
  unfold granule at ha
  omega

/-! ### Fences -/

theorem State.fenceDone_iff (s : State) (f : Fence) : s.fenceDone f = true ↔ f.lines = [] ∧ ∀ i ∈ f.reqs, ∀ q ∈ s.reqs, q.id ≠ i := by
  simp [State.fenceDone]
theorem State.ackFence_demand_srec {s : State} {n g : Nat} {r : SyncRec} (h : s.srec g = r) :
    (s.ackFence (.demand n g r)).srec g = { r with fl := true } := by
  have hf : s.flushed g r = s.setRec g { r with fl := true } := if_pos (beq_iff_eq.mpr h)
  show ((s.flushed g r).setStage n .ready).srec g = _
  rw [hf]
  exact State.srec_setRec_same s g _
theorem State.ackFence_phase {s : State} {b : Nat} {k : Block} (h : s.block b = some k) (tl sc : Nat) : s.ackFence (.phase b tl sc) =
    (s.modThread b tl fun t => { t with phases := t.phases - 1 }).acquireInval k.core true (sc == 5) := by
  simp only [State.ackFence, State.phaseEnd, State.block_modThread_same, h, Option.map_some]
  rfl

/-! ### Evictions -/

theorem State.eviction_pinned_iff (s : State) (c : CoreRef) (g : Nat) :
    (((tget (s.core c).copies g).map (·.vc)) == some 2 || ((tget (s.core c).dirty g).map (·.vc)) == some 2) = true ↔
      (∃ x, tget (s.core c).copies g = some x ∧ x.vc = 2) ∨ ∃ d, lineOf s c g = some d ∧ d.vc = 2 := by
  simp [lineOf]
/-- A line that is not pinned sets out, its clean copy goes, and perhaps that of the L2. -/
theorem execEviction_next {s : State} {c : CoreRef} {g : Nat}
    (h : ¬((∃ x, tget (s.core c).copies g = some x ∧ x.vc = 2) ∨ ∃ d, lineOf s c g = some d ∧ d.vc = 2)) :
    let u := (s.useFree.sendWb c fun n _ => n == g).dropCopy c g
    exec (.eviction c g) s = .next (if s.freeVal.getLsbD 0 then u.dropL2 c.die g else u) :=
  if_neg (mt (State.eviction_pinned_iff s c g).mp h)

/-! ### Recalls -/

section
variable (s : State) (g : Nat)
theorem State.dropEntry_srec : (s.dropEntry g).srec g = {} := by
  rw [State.srec]
  exact congrArg (Option.getD · ({} : SyncRec)) (tget_tdel_same _ _)
theorem State.dropEntry_clean : cleanEverywhere (s.dropEntry g) g :=
  ((State.dropAll_sheds _ g).trans (State.dropFar_sheds _ g)).clean (s.recallDirty_clean g)
theorem State.dropEntry_uncached : uncached (s.dropEntry g) g :=
  (State.dropFar_sheds _ g).uncached (State.dropAll_uncached _ g)
theorem State.dropEntry_mem (h : cleanEverywhere s g) : (s.dropEntry g).mem = s.mem :=
  (State.dropFar_mem _ g).trans ((State.dropAll_mem _ g).trans (State.recallDirty_mem h))
theorem State.flushRecord_of_not_sv (h : (s.srec g).sv = false) : s.flushRecord g = s := by
  simp only [State.flushRecord, h, Bool.false_and, Bool.false_eq_true, if_false]
end

/-! ### Bytes from outside, at homes that no core's dirty bytes hide -/

/-- No core in the table holds dirty bytes of a granule. -/
def tableClean (s : State) (g : Nat) : Prop := ∀ p ∈ s.cores, tget p.2.dirty g = none
theorem State.recallDirty_of_tableClean {s : State} {g : Nat} (h : tableClean s g) : s.recallDirty g = s := by
  have hn : s.dirtyCores g = [] := by
    unfold State.dirtyCores
    rw [List.filter_eq_nil_iff.mpr fun p hp => by simp [h p hp]]
    rfl
  rw [State.recallDirty, hn, List.foldl_nil]
theorem mem_takeDirty {but : Option Nat} {g : Nat} {L : Tbl Core} {p : Nat × Core} (h : p ∈ (takeDirty but g L).1) :
    ∃ k, (p.1, k) ∈ L ∧ (p.2.dirty = k.dirty ∨ p.2.dirty = tdel k.dirty g) := by
  induction L with
  | nil => cases h
  | cons q L ih =>
    obtain ⟨j, k⟩ := q
    unfold takeDirty at h
    grind
section
variable {s : State} {n : Nat} (h : tableClean s n)
include h
theorem State.dropAll_tableClean (g : Nat) : tableClean (s.dropAll g) n := fun p hp => by
  obtain ⟨q, hq, rfl⟩ := List.mem_map.mp hp
  exact h q hq
theorem State.homeWrite_tableClean (g : Nat) (bs : Tbl Byte) (tracked : Bool) : tableClean (s.homeWrite none g bs tracked) n := fun p hp => by
  cases tracked with
  | false => exact h p hp
  | true =>
    rw [State.homeWrite_cores_tracked] at hp
    obtain ⟨q, hq, rfl⟩ := List.mem_map.mp hp
    obtain ⟨k, hk, hd | hd⟩ := mem_takeDirty hq
    · exact (congrArg (tget · n) hd).trans (h _ hk)
    · refine (congrArg (tget · n) hd).trans ?_
      rw [tget_tdel]
      split
      · rfl
      · exact h _ hk
theorem State.agentWrite_tableClean (pa : Nat) (bs : List Byte) (tracked : Bool) : tableClean (s.agentWrite pa bs tracked) n := by
  unfold State.agentWrite
  split
  · exact h
  · exact foldl_keeps (P := fun t => tableClean t n) (fun t i _ ht => State.homeWrite_tableClean ht _ _ tracked) h
end
/-- A write by an agent to bytes of one granule that no core holds dirty. -/
theorem State.agentWrite_mem_of_tableClean {s : State} {pa : Nat} {bs : List Byte} (hb : bs ≠ []) (hl : pa % 128 + bs.length ≤ 128)
    (h : tableClean s (granule pa)) (tracked : Bool) : (s.agentWrite pa bs tracked).mem = mputs s.mem pa bs := by
  have hpos := List.length_pos_iff.mpr hb
  have hg : ∀ i < bs.length, granule (pa + i) = granule pa := fun i hi => by unfold granule; omega
  have hn : granule (pa + bs.length - 1) + 1 - granule pa = 1 := by
    rw [Nat.add_sub_assoc hpos, hg _ (by omega)]
    omega
  have hlt : ∀ p ∈ bs.zipIdx, p.2 < bs.length := fun p hp => by simpa using List.snd_lt_of_mem_zipIdx hp
  have hbytes : ((bs.zipIdx.filter fun p => granule (pa + p.2) == granule pa).map fun p => ((pa + p.2) % 128, p.1)) =
      bs.zipIdx.map fun p => (pa % 128 + p.2, p.1) := by
    rw [List.filter_eq_self.mpr fun p hp => beq_iff_eq.mpr (hg _ (hlt p hp))]
    refine List.map_congr_left fun p hp => ?_
    have := hlt p hp
    congr 1
    omega
  unfold State.agentWrite
  dsimp only
  rw [if_neg (by simpa using hb), hn, List.range_one, List.foldl_cons, List.foldl_nil, Nat.add_zero, hbytes,
    State.homeWrite_mem_of_sole _ fun _ p hp _ => h p hp]
  refine (foldl_mset_eq_mputs s.mem (granule pa) (pa % 128) 0 bs).trans ?_
  congr 1
  unfold granule
  omega

/-- The write of one granule's part of bytes from outside. -/
def State.outsidePart (s : State) (pa : Nat) (bs : List Byte) (all : Bool) (i : Nat) : State :=
  let g := granule pa + i
  let p := granulePart pa bs g
  let s := s.agentWrite p.1 p.2 (s.hasTracked g)
  if all then s.dropAll g else s
theorem State.outsideWrite_eq (s : State) (pa : Nat) {bs : List Byte} (hb : bs ≠ []) (all : Bool) : s.outsideWrite pa bs all =
    (List.range (granule (pa + bs.length - 1) + 1 - granule pa)).foldl (fun s i => s.outsidePart pa bs all i) s :=
  if_neg (by simpa using hb)
theorem State.agentWrite_sheds (s : State) (pa : Nat) (bs : List Byte) (tracked : Bool) : s.Sheds (s.agentWrite pa bs tracked) := by
  unfold State.agentWrite
  split
  · exact .of_cores rfl
  · exact foldl_sheds (fun s _ => State.homeWrite_sheds s _ _ _ _) s
theorem State.outsidePart_sheds (s : State) (pa : Nat) (bs : List Byte) (all : Bool) (i : Nat) : s.Sheds (s.outsidePart pa bs all i) := by
  unfold State.outsidePart
  dsimp only
  split
  · exact (State.agentWrite_sheds s _ _ _).trans (State.dropAll_sheds _ _)
  · exact State.agentWrite_sheds s _ _ _
theorem State.outsideWrite_sheds (s : State) (pa : Nat) (bs : List Byte) (all : Bool) : s.Sheds (s.outsideWrite pa bs all) := by
  by_cases hb : bs = []
  · rw [hb]
    exact .of_cores rfl
  · rw [State.outsideWrite_eq s pa hb]
    exact foldl_sheds (fun s i => s.outsidePart_sheds pa bs all i) s
/-- With `all`, no core keeps a copy of a granule that is written. -/
theorem State.outsideWrite_uncached (s : State) {pa a : Nat} {bs : List Byte} (hl : pa ≤ a) (hh : a < pa + bs.length) :
    uncached (s.outsideWrite pa bs true) (granule a) := by
  have hb : bs ≠ [] := by
    rintro rfl
    simp at hh
    omega
  have hi : granule a - granule pa ∈ List.range (granule (pa + bs.length - 1) + 1 - granule pa) := by
    rw [List.mem_range]
    unfold granule
    omega
  have hg : granule pa + (granule a - granule pa) = granule a := by
    unfold granule
    omega
  rw [State.outsideWrite_eq s pa hb]
  refine foldl_reaches (P := fun t => uncached t (granule a)) (fun t => ?_) (fun t i h => (t.outsidePart_sheds pa bs true i).uncached h) hi
  rw [State.outsidePart, if_pos rfl, hg]
  exact State.dropAll_uncached _ _
theorem State.outsidePart_tableClean {s : State} {n : Nat} (h : tableClean s n) (pa : Nat) (bs : List Byte) (all : Bool) (i : Nat) :
    tableClean (s.outsidePart pa bs all i) n := by
  unfold State.outsidePart
  dsimp only
  split
  · exact State.dropAll_tableClean (State.agentWrite_tableClean h _ _ _) _
  · exact State.agentWrite_tableClean h _ _ _
/-- One granule's part carries the write on from the bytes before the granule to those before the next. -/
theorem State.outsidePart_mem {s : State} {m : Mem} {pa i : Nat} {bs : List Byte} (all : Bool)
    (hi : i < granule (pa + bs.length - 1) + 1 - granule pa) (hb : bs ≠ []) (hc : tableClean s (granule pa + i))
    (hm : s.mem = mputs m pa (bs.take ((granule pa + i) * 128 - pa))) :
    (s.outsidePart pa bs all i).mem = mputs m pa (bs.take ((granule pa + (i + 1)) * 128 - pa)) := by
  have hpos := List.length_pos_iff.mpr hb
  unfold granule at *
  have hlo : max pa ((pa / 128 + i) * 128) - pa = (pa / 128 + i) * 128 - pa := by omega
  have hlt : (pa / 128 + i) * 128 - pa < bs.length := by omega
  have hpart : granulePart pa bs (pa / 128 + i) = (pa + ((pa / 128 + i) * 128 - pa), (bs.drop ((pa / 128 + i) * 128 - pa)).take
      ((pa / 128 + (i + 1)) * 128 - pa - ((pa / 128 + i) * 128 - pa))) := by
    unfold granulePart
    dsimp only
    rw [hlo]
    congr 1
    · omega
    · congr 1
      omega
  have hw : (s.outsidePart pa bs all i).mem = (s.agentWrite (granulePart pa bs (pa / 128 + i)).1 (granulePart pa bs (pa / 128 + i)).2
      (s.hasTracked (pa / 128 + i))).mem := by
    unfold State.outsidePart
    dsimp only
    split <;> rfl
  rw [hw, hpart, State.agentWrite_mem_of_tableClean, hm]
  · have hnext : (pa / 128 + i) * 128 - pa ≤ (pa / 128 + (i + 1)) * 128 - pa := by omega
    rw [← Nat.add_sub_cancel' hnext, List.take_add, mputs_append, List.length_take, Nat.min_eq_left hlt.le, Nat.add_sub_cancel_left]
  · simp only [ne_eq, List.take_eq_nil_iff, List.drop_eq_nil_iff]
    omega
  · simp only [List.length_take, List.length_drop]
    omega
  · rw [show granule (pa + ((pa / 128 + i) * 128 - pa)) = pa / 128 + i by unfold granule; omega]
    exact hc
/-- Bytes from outside all reach their homes. -/
theorem State.outsideWrite_mem {s : State} {pa : Nat} {bs : List Byte} (all : Bool)
    (hc : ∀ i < granule (pa + bs.length - 1) + 1 - granule pa, tableClean s (granule pa + i)) :
    (s.outsideWrite pa bs all).mem = mputs s.mem pa bs := by
  by_cases hb : bs = []
  · subst hb
    rfl
  · have parts : ∀ N ≤ granule (pa + bs.length - 1) + 1 - granule pa,
        ((List.range N).foldl (fun s i => s.outsidePart pa bs all i) s).mem = mputs s.mem pa (bs.take ((granule pa + N) * 128 - pa)) := by
      intro N hN
      induction N with
      | zero =>
        rw [show (granule pa + 0) * 128 - pa = 0 by unfold granule; omega]
        rfl
      | succ N ih =>
        rw [List.range_succ, List.foldl_append, List.foldl_cons, List.foldl_nil]
        exact State.outsidePart_mem all hN hb (foldl_keeps (P := fun t => tableClean t (granule pa + N))
          (fun t i _ ht => State.outsidePart_tableClean ht pa bs all i) (hc N hN)) (ih (by omega))
    rw [State.outsideWrite_eq s pa hb, parts _ le_rfl, List.take_of_length_le]
    have := List.length_pos_iff.mpr hb
    unfold granule
    omega
theorem State.snoopRange_of_clean {s : State} (h : ∀ p ∈ s.cores, p.2.dirty = []) (pa n : Nat) : s.snoopRange pa n = s := by
  refine foldl_keeps (P := fun t => t = s) (fun t i _ ht => ?_) rfl
  subst ht
  dsimp only
  rw [List.filter_eq_nil_iff.mpr fun p hp => by simp [h p hp], List.foldl_nil]

/-! ### Banks -/

section
variable (s : State) (die : Nat) (p : Copy → Bool) (q : DirtyLine → Bool)
/-- A bank that loses lines sends the dirty ones home. -/
theorem State.dropBank_keeps {P : State → Prop} (hs : ∀ (t : State) c f, P t → P (t.sendWb c f)) (hl : ∀ (t : State) l2 llc n,
    P t → P { t with l2 := l2, llc := llc, clock := { t.clock with free := n } }) (h : P s) : P (s.dropBank die p q) := by
  unfold State.dropBank
  dsimp only
  split
  all_goals exact hl _ _ _ _ (foldl_keeps (P := P) (fun t x _ ht => hs t _ _ ht) (hl s s.l2 s.llc _ h))
theorem State.dropBank_isSome (c : CoreRef) (g : Nat) : (lineOf (s.dropBank die p q) c g).isSome = (lineOf s c g).isSome :=
  s.dropBank_keeps die p q (P := fun t => (lineOf t c g).isSome = (lineOf s c g).isSome)
    (fun t e f h => (t.lineOf_sendWb_isSome e f c g).trans h) (fun _ _ _ _ h => h) rfl
theorem State.dropBank_asleep : (s.dropBank die p q).asleep = s.asleep :=
  s.dropBank_keeps die p q (P := fun t => t.asleep = s.asleep) (fun t e f h => (t.sendWb_asleep e f).trans h) (fun _ _ _ _ h => h) rfl
end
theorem State.diePower_setDiePower (s : State) (die : Nat) (p : DiePower) : (s.setDiePower die p).diePower die = p := by
  simp only [State.diePower, State.setDiePower, tget_tput_same, Option.getD_some]
theorem State.lineOf_setDiePower (s : State) (die : Nat) (p : DiePower) (c : CoreRef) (g : Nat) :
    lineOf (s.setDiePower die p) c g = lineOf s c g := lineOf_of_cores rfl c g
theorem State.freeVlog_range (s : State) : 600 ≤ s.freeVlog ∧ s.freeVlog ≤ 800 := by
  unfold State.freeVlog
  omega

/-! ### The events -/

theorem execDemandWriteBack_next (s : State) (c : CoreRef) (g : BitVec 4) : exec (.demandWriteBack c g) s =
    .next (s.sendWb c fun n d => genWithin (s.core c).gen g d.gen && !s.movingFrame (n / 32)) := rfl
section
variable {s : State} {g : Nat}
theorem execDirectoryRecall_waits (h : s.movingFrame (g / 32) = true ∨ s.granuleBusy g = true) : exec (.directoryRecall g) s = .next s :=
  if_pos (by simpa using h)
variable (hw : ¬(s.movingFrame (g / 32) = true ∨ s.granuleBusy g = true))
include hw
theorem execDirectoryRecall_writers (h : (tget s.fab.remoteDirty g).getD [] ≠ []) : exec (.directoryRecall g) s =
    .next (((tget s.fab.remoteDirty g).getD []).foldl (fun s p => s.recallFrom p g) s) :=
  (if_neg (by simpa using hw)).trans (if_pos (by simpa using h))
variable (hd : (tget s.fab.remoteDirty g).getD [] = [])
include hd
theorem execDirectoryRecall_owes (h : (s.srec g).sv = true ∧ (s.srec g).fl = false ∧ (s.srec g).rpkg ≠ s.pkg) :
    exec (.directoryRecall g) s = .next (s.demandFor (.recall g (s.srec g)) g) :=
  (if_neg (by simpa using hw)).trans ((if_neg (by simp [hd])).trans (if_pos (by simp [h])))
theorem execDirectoryRecall_drops (h : ¬((s.srec g).sv = true ∧ (s.srec g).fl = false ∧ (s.srec g).rpkg ≠ s.pkg)) :
    exec (.directoryRecall g) s = .next ((s.flushRecord g).dropEntry g) :=
  (if_neg (by simpa using hw)).trans ((if_neg (by simp [hd])).trans (if_neg (by simpa [and_assoc] using h)))
end
/-- The host's snoop leaves no dirty byte, with its write no copy, and with it its bytes. -/
theorem hostSnoop_leaves (s : State) (pa : Nat) (inval : Option (List Byte)) : ∃ t, exec (.hostSnoop pa inval) s = .next t ∧
    cleanEverywhere t (granule pa) ∧ (inval.isSome = true → uncached t (granule pa)) ∧
    (tableClean s (granule pa) → t.mem = mputs s.mem pa ((inval.getD []).take (128 - pa % 128))) := by
  refine ⟨_, rfl, ?_⟩
  cases inval with
  | none =>
    refine ⟨s.recallDirty_clean _, fun h => (nomatch h), fun h => ?_⟩
    rw [State.recallDirty_of_tableClean h, Option.getD_none, List.take_nil]
    rfl
  | some data =>
    have hsh := State.outsideWrite_sheds ((s.recallDirty (granule pa)).dropAll (granule pa)) pa (data.take (128 - pa % 128)) true
    refine ⟨hsh.clean ((State.dropAll_sheds _ _).clean (s.recallDirty_clean _)), fun _ => hsh.uncached (State.dropAll_uncached _ _), fun h => ?_⟩
    dsimp only
    rw [State.recallDirty_of_tableClean h, State.outsideWrite_mem, State.dropAll_mem, Option.getD_some]
    intro i hi
    have hlen : (data.take (128 - pa % 128)).length ≤ 128 - pa % 128 := List.length_take_le ..
    have hi : i = 0 := by
      unfold granule at hi
      omega
    rw [hi]
    exact State.dropAll_tableClean h _
/-- Bytes that a write puts in a row, and the others. -/
theorem mget_mputs_take (m : Mem) (a k : Nat) (bs : List Byte) :
    (∀ i < min bs.length k, mget (mputs m a (bs.take k)) (a + i) = (lget bs i).getD 0) ∧
      ∀ b, b < a ∨ a + min bs.length k ≤ b → mget (mputs m a (bs.take k)) b = mget m b := by
  have hlen : (bs.take k).length = min bs.length k := by rw [List.length_take, Nat.min_comm]
  refine ⟨fun i hi => ?_, fun b hb => mget_mputs_outside _ _ _ _ (hlen ▸ hb)⟩
  rw [mget_mputs, if_pos (by omega), Nat.add_sub_cancel_left, List.getElem?_take_of_lt (by omega), lget_eq_getElem?]
theorem hostMemAccess_leaves {s : State} {pa : Nat} {bs : List Byte} (h : pa + max 1 bs.length ≤ s.dieMap.capacity) :
    ∃ t, exec (.hostMemAccess pa bs) s = .next t ∧ (∀ a, pa ≤ a → a < pa + bs.length → uncached t (granule a)) ∧
      ((∀ c ∈ s.cores, c.2.dirty = []) → t.mem = mputs s.mem pa bs) := by
  refine ⟨_, if_neg (by omega), fun a hl hh => State.outsideWrite_uncached _ hl hh, fun hc => ?_⟩
  rw [State.snoopRange_of_clean hc]
  exact State.outsideWrite_mem true fun i _ p hp => by rw [hc p hp]; rfl
theorem Fabric.hears_iff (f : Fabric) (p : BitVec 14) : f.hears p = true ↔ f.en = true ∧ f.fenced = false ∧ p ∉ f.lost := by
  simp [Fabric.hears, and_assoc]
theorem State.dirtyNotice_heard_iff (s : State) (g : Nat) (p : BitVec 14) : (!s.fab.hears p || s.homePkg (g * 128) != s.pkg.toNat) = true ↔
    ¬(s.fab.en = true ∧ s.fab.fenced = false ∧ p ∉ s.fab.lost ∧ s.homePkg (g * 128) = s.pkg.toNat) := by
  rw [show (s.fab.en = true ∧ s.fab.fenced = false ∧ p ∉ s.fab.lost ∧ s.homePkg (g * 128) = s.pkg.toNat) ↔
    s.fab.hears p = true ∧ s.homePkg (g * 128) = s.pkg.toNat by rw [Fabric.hears_iff, and_assoc, and_assoc]]
  simp [or_iff_not_imp_left]
theorem execL2DectedSwitch_next {s : State} {die : Nat} (hs : s.dieMap.isSd die = true) (hd : (s.diePower die).dected = false) :
    let u := s.dropBank die (fun x => x.vc == 1) fun d => d.l2 && d.vc == 1
    exec (.l2DectedSwitch die) s =
      .next (u.useFree.setDiePower die { u.diePower die with dected := true, vnow := BitVec.ofNat 12 u.freeVlog }) :=
  if_neg (by simp [hs, hd])

/-- Settles O43: each clause is one event above. -/
theorem writeBacks : Obligations.WriteBacks := by
  refine ⟨?demand, fun s c g => ⟨fun d => execWriteBackArrival_arrives, execWriteBackArrival_waits⟩, ?arrival, ?ack,
    fun s n => rfl, fun s n g r => State.ackFence_demand_srec, fun s b tl sc k hk => State.ackFence_phase hk tl sc, ?eviction, ?recalled,
    ?snoop, ?access, ?notice, ?sleep, ?dected, ?way7⟩
  case demand =>
    intro s c g
    refine ⟨_, execDemandWriteBack_next s c g, State.sendWb_mem .., fun n d hd => ?_, fun e n he => State.lineOf_sendWb_other s c _ he n⟩
    rw [State.lineOf_sendWb, hd]
    rfl
  case arrival =>
    intro s c g d hd hg hs
    obtain ⟨hin, hout⟩ := State.arriveWb_bytes hd hg hs
    exact ⟨s.arriveWb_line c g, fun i _ => hin i, hout, s.arriveWb_fences c g⟩
  case ack =>
    intro s n f hf
    have next : exec (.writeBackAck n) s = if !s.fenceDone f then .next s
        else .next (({ s with fences := s.fences.filter fun x => x.id != n }).ackFence f.who) := by
      simp only [exec, execWriteBackAck, hf]
    refine ⟨fun h => next.trans (if_neg ?_), fun h => next.trans (if_pos ?_)⟩
    · simpa using (s.fenceDone_iff f).mpr h
    · simpa using mt (s.fenceDone_iff f).mp h
  case eviction =>
    intro s c g
    refine ⟨fun h => if_pos ((State.eviction_pinned_iff s c g).mpr h), fun h => ⟨_, execEviction_next h, ?_⟩⟩
    have hcopies : tget (((s.useFree.sendWb c fun n _ => n == g).dropCopy c g).core c).copies g = none := by
      rw [State.dropCopy_core, if_pos rfl]
      exact tget_tdel_same _ _
    have hline : ∀ n, lineOf ((s.useFree.sendWb c fun n _ => n == g).dropCopy c g) c n =
        (lineOf s c n).map fun d => { d with wb := d.wb || n == g } := fun n => by
      rw [State.lineOf_dropCopy, State.lineOf_sendWb]
      rfl
    have hmem : ((s.useFree.sendWb c fun n _ => n == g).dropCopy c g).mem = s.mem :=
      (State.dropCopy_mem ..).trans (State.sendWb_mem ..)
    refine ⟨?_, ?_, fun d hd => ?_, fun n hn => ?_⟩
    · split
      · exact (State.dropL2_mem ..).trans hmem
      · exact hmem
    · rw [apply_ite (State.core · c), State.core_of_cores (State.dropL2_cores ..), ite_self]
      exact hcopies
    · rw [apply_ite (lineOf · c g), State.lineOf_dropL2, ite_self, hline, hd]
      simp
    · rw [apply_ite (lineOf · c n), State.lineOf_dropL2, ite_self, hline]
      simp only [beq_eq_false_iff_ne.mpr hn, Bool.or_false]
      exact Option.map_id'
  case recalled =>
    intro s g
    refine ⟨execDirectoryRecall_waits, execDirectoryRecall_writers, execDirectoryRecall_owes, fun hw hd ho => ?_⟩
    refine ⟨_, execDirectoryRecall_drops hw hd ho, State.dropEntry_srec _ g, State.dropEntry_clean _ g, State.dropEntry_uncached _ g,
      fun hc hv => ?_⟩
    rw [State.flushRecord_of_not_sv s g hv]
    exact s.dropEntry_mem g hc
  case snoop =>
    intro s pa inval
    obtain ⟨t, ht, hclean, hcopies, hmem⟩ := hostSnoop_leaves s pa inval
    refine ⟨t, ht, hclean, hcopies, fun h => ?_⟩
    dsimp only
    rw [hmem h]
    exact mget_mputs_take ..
  case access =>
    intro s pa bs
    refine ⟨fun h => if_pos h, fun h => ?_⟩
    obtain ⟨t, ht, hcopies, hmem⟩ := hostMemAccess_leaves h
    refine ⟨t, ht, hcopies, fun hc => ?_⟩
    rw [hmem hc]
    exact ⟨mbytes_mputs_same _ _ _, fun a ha => mget_mputs_outside _ _ _ _ ha⟩
  case notice =>
    intro s g p
    refine ⟨fun h => if_pos ((s.dirtyNotice_heard_iff g p).mpr h), fun h =>
      ⟨_, if_neg fun hn => (s.dirtyNotice_heard_iff g p).mp hn h, ⟨_, tget_tput_same _ _ _, ?_⟩, rfl, rfl, rfl⟩⟩
    split
    · exact List.contains_iff_mem.mp ‹_›
    · exact List.mem_append_right _ (List.mem_singleton_self p)
  case sleep =>
    intro s die bank
    have hmay : (s.bankBusy die bank || s.asleep.contains (die, bank) ||
        !(s.dieMap.isSd die || decide (s.dieMap.nsd + s.dieMap.ngd ≤ die))) = true ↔ ¬(s.bankBusy die bank = false ∧
          (die, bank) ∉ s.asleep ∧ (s.dieMap.isSd die = true ∨ s.dieMap.nsd + s.dieMap.ngd ≤ die)) := by
      cases s.bankBusy die bank <;> simp [or_iff_not_imp_left]
    refine ⟨fun h => if_pos (hmay.mpr h), fun h => ⟨_, if_neg fun hn => hmay.mp hn h, ?_, ?_, fun c g => ?_⟩⟩
    · dsimp only
      rw [State.dropBank_asleep]
    · exact State.dropBank_mem s die _ _
    · rw [← State.dropBank_isSome s die, lineOf_of_cores]
      rfl
  case dected =>
    intro s die
    refine ⟨fun h => if_pos (by rcases h with h | h <;> simp [h]), fun hs hd => ⟨_, execL2DectedSwitch_next hs hd, ?_⟩⟩
    dsimp only
    rw [State.diePower_setDiePower]
    have hv := State.freeVlog_range (s.dropBank die (fun x => x.vc == 1) fun d => d.l2 && d.vc == 1)
    refine ⟨rfl, ?_, ?_, ?_, fun c g => ?_⟩
    · rw [State.setDiePower_mem, State.useFree_mem, State.dropBank_mem]
    · rw [BitVec.toNat_ofNat, Nat.mod_eq_of_lt (by omega)]
      exact hv.1
    · rw [BitVec.toNat_ofNat, Nat.mod_eq_of_lt (by omega)]
      exact hv.2
    · rw [State.lineOf_setDiePower, lineOf_of_cores (State.useFree_cores _), State.dropBank_isSome]
  case way7 =>
    intro s die
    refine ⟨fun h => if_neg (by simp [h]), fun h => ⟨_, if_pos h, ?_⟩⟩
    rw [State.diePower_setDiePower]
    have hv := s.freeVlog_range
    refine ⟨rfl, rfl, fun hd => ?_⟩
    dsimp only
    rw [BitVec.toNat_ofNat, Nat.mod_eq_of_lt (by omega)]
    omega

end Sys2Proof.Machine
end

section
/-! PROOFS. The engine of the virtual caches: its commands, the shares it grants, sweeps, flushes and bias flips (spec/18_cache.md R447 to
R462), and the statement about them (O44). -/

namespace Sys2Proof.Machine
open Sys2Proof.Safety

/-! ### The commands, step by step -/

section
variable {s : State} {n i : Nat} {c : VcPending}
theorem execVcCommandLanding_steps (h : VcFound s n c) : exec (.vcCommandLanding n) s = .next (s.vcStep c) := by
  simp only [exec, execVcCommandLanding, show s.vcCmds.find? (fun c => c.id == n) = some c from h]
theorem State.vcStep_waits (hi : toIndex c.cmd = some i) (hw : c.window = false) (hb : s.vcBefore c i = true) : s.vcStep c = s := by
  cases hc : c.cmd with
  | define j w0 w1 =>
    obtain rfl : j = i := by simpa [hc, toIndex] using hi
    simp only [State.vcStep, hc, hb, if_true]
  | resize j l2 ll =>
    obtain rfl : j = i := by simpa [hc, toIndex] using hi
    simp only [State.vcStep, hc, hw, hb, Bool.false_eq_true, if_false, if_true]
  | move j w1 far =>
    obtain rfl : j = i := by simpa [hc, toIndex] using hi
    simp only [State.vcStep, hc, hw, hb, Bool.false_eq_true, if_false, if_true]
  | flush j op =>
    obtain rfl : j = i := by simpa [hc, toIndex] using hi
    simp only [State.vcStep, hc, hb, Bool.or_true, if_true]
  | bias va host started fr m => simp [hc, toIndex] at hi
theorem State.vcStep_define {w0 w1 : DWord} (hc : c.cmd = .define i w0 w1) (hb : s.vcBefore c i = false) : s.vcStep c =
    (s.vcDefine c.ctx i w0 w1).2.landVc c (s.vcDefine c.ctx i w0 w1).1 (llHeld ((s.vcDefine c.ctx i w0 w1).2.vcEntry c.ctx i).shares) := by
  simp only [State.vcStep, hc, hb, Bool.false_eq_true, if_false]
/-- VCSIZE and VCMOVE differ in the definition to which they open a window. -/
theorem State.vcStep_window {w0 w1 : DWord} (hc : (∃ l2 ll, c.cmd = .resize i l2 ll ∧ w0 = cdrWithCounts (s.vcEntry c.ctx i).w0.toNat l2 ll ∧
    w1 = (s.vcEntry c.ctx i).w1) ∨ ∃ far, c.cmd = .move i w1 far ∧ w0 = cdrWithFar (s.vcEntry c.ctx i).w0.toNat far) : s.vcStep c =
    if c.window then
      if c.left.isEmpty then (s.putVc c.ctx i { s.vcEntry c.ctx i with old := none }).landVc c 0 (llHeld (s.vcEntry c.ctx i).shares) else s
    else if s.vcBefore c i then s
    else if s.vcWindow c.ctx i || s.vcFlushing c.ctx i then s.landVc c 2 0
    else if !(s.vcEntry c.ctx i).v then s.landVc c 4 0
    else s.openWindow c i w0 w1 := by
  obtain ⟨l2, ll, hc, rfl, rfl⟩ | ⟨far, hc, rfl⟩ := hc
  · simp only [State.vcStep, hc]
  · simp only [State.vcStep, hc]
theorem State.vcStep_flush {op : Nat} (hc : c.cmd = .flush i op) : s.vcStep c =
    if c.window || s.vcBefore c i then s
    else if s.vcFlushing c.ctx i || (op == 2 && s.vcWindow c.ctx i) then s.landVc c 2 0
    else if !(s.vcEntry c.ctx i).v then s.landVc c 4 0
    else (s.vcFence c i op).setCmd { c with window := true } := by
  simp only [State.vcStep, hc]
theorem State.ackFence_vc {op : Nat} (h : VcFound s n c) (hc : c.cmd = .flush i op) : s.ackFence (.vc n) = s.vcFlushDone c i op := by
  simp only [State.ackFence, show s.vcCmds.find? (fun c => c.id == n) = some c from h, hc]
theorem State.vcFlushDone_keeps {op : Nat} (h : op ≠ 2) : s.vcFlushDone c i op =
    (if 1 ≤ op then s.dropCopies fun _ x => x.ctx == c.ctx && x.vc == i else s).landVc c 0 (llHeld (s.vcEntry c.ctx i).shares) := by
  have h2 : (op == 2) = false := beq_eq_false_iff_ne.mpr h
  simp only [State.vcFlushDone, h2, Bool.false_eq_true, if_false, Bool.false_and]
  split <;> rfl
/-- .undef, once no buffered store, request or dirty line of the VC is left. -/
theorem State.vcFlushDone_undef (hb : s.vcBuffered c.ctx i = []) (hr : s.vcRequests c.ctx i = [])
    (hd : ∀ x ∈ s.cores, ∀ d ∈ x.2.dirty, ¬(d.2.ctx = c.ctx ∧ d.2.vc = i)) : s.vcFlushDone c i 2 =
    ((s.dropCopies fun _ x => x.ctx == c.ctx && x.vc == i).putVc c.ctx i { s.vcEntry c.ctx i with
      v := false, w0 := cdrWithCounts (s.vcEntry c.ctx i).w0.toNat 0 0, shares := [] }).landVc c 0 0 := by
  have hd : (s.cores.any fun x => x.2.dirty.any fun d => d.2.ctx == c.ctx && d.2.vc == i) = false := by
    simpa [List.any_eq_false] using hd
  simp only [State.vcFlushDone, beq_self_eq_true, if_true, hb, hr, hd, List.foldl_nil, List.isEmpty_nil, Bool.not_true, Bool.or_self,
    Bool.and_false, Bool.false_eq_true, if_false, Nat.one_le_ofNat]
  rfl
end

/-! ### Shares that are granted -/

/-- A share of a level, in no use, of a way that is granted. -/
def freshShare (used : List Share) (l2 : Bool) (x : Share) : Prop := x.1 = l2 ∧ x ∉ used ∧ x.2.2.2 < 7
section
variable {used : List Share} {l2 : Bool}
theorem freshShare_of_mem_roundsOf {banks : List (Nat × Nat)} {x : Share} (h : x ∈ roundsOf used l2 banks) : freshShare used l2 x := by
  obtain ⟨r, hr, hx⟩ := List.mem_flatten.mp h
  obtain ⟨j, -, rfl⟩ := List.mem_map.mp hr
  obtain ⟨b, -, hb⟩ := List.mem_filterMap.mp hx
  obtain ⟨w, hw, rfl⟩ := Option.map_eq_some_iff.mp hb
  rw [lget_eq_getElem?] at hw
  obtain ⟨hlt, hnot⟩ := List.mem_filter.mp (List.mem_of_getElem? hw)
  exact ⟨rfl, by simpa using hnot, List.mem_range.mp hlt⟩
theorem freshShare_of_mem_take {near far : List (Nat × Nat)} {b : Bool} {n : Nat} {x : Share}
    (h : x ∈ (if b then roundsOf used l2 near ++ roundsOf used l2 far else roundsOf used l2 near).take n) : freshShare used l2 x := by
  have h := List.mem_of_mem_take h
  split at h
  · exact (List.mem_append.mp h).elim freshShare_of_mem_roundsOf freshShare_of_mem_roundsOf
  · exact freshShare_of_mem_roundsOf h
end
/-- Shares granted are those of the L2s and those of the last level, each fresh, and of the last level as many as asked. -/
theorem State.grant_shares {s : State} {ctx i w0 w1 : Nat} {sh : List Share} (h : s.grant ctx i w0 w1 = some sh) : ∃ l2 ll : List Share,
    sh = l2 ++ ll ∧ (∀ x ∈ l2, freshShare (s.usedShares ctx i) true x) ∧ (∀ x ∈ ll, freshShare (s.usedShares ctx i) false x) ∧
      ll.length = cdrLl w0 := by
  unfold State.grant at h
  dsimp only at h
  obtain ⟨hlen, hsh⟩ := Option.ite_none_right_eq_some.mp h
  refine ⟨_, _, (Option.some.inj hsh).symm, fun x hx => ?_, fun x hx => ?_, beq_iff_eq.mp (Bool.and_eq_true_iff.mp hlen).2⟩
  · obtain ⟨l, hl, hx⟩ := List.mem_flatten.mp hx
    split at hl
    · cases hl
    · obtain ⟨d, -, rfl⟩ := List.mem_map.mp hl
      exact freshShare_of_mem_take hx
  · split at hx
    · cases hx
    · exact freshShare_of_mem_take hx

/-! ### Results -/

theorem State.landVc_find (s : State) {c : VcPending} {k : Block} {o : SlotOp} (st count : Nat) (hk : s.block c.blk = some k)
    (htl : c.tl < k.threads.length) (ho : (k.thread c.tl).ops.find? (fun o => o.id == c.op) = some o) :
    ((s.landVc c st count).thread c.blk c.tl).ops.find? (fun o => o.id == c.op) = some { o with val := some [vcWord st count] } := by
  have hword : BitVec.ofNat 32 (st * 2 ^ 28 + if st == 0 then count % 2 ^ 28 else 0) = vcWord st count := by
    simp only [vcWord, beq_iff_eq]
  have hid : (fun o : SlotOp => o.id == c.op) ∘ (fun o : SlotOp => if o.id == c.op then { o with val := some [vcWord st count] } else o) =
      fun o => o.id == c.op := funext fun o => by
    dsimp only [Function.comp_apply]
    split <;> rfl
  show ((s.modThread c.blk c.tl _).thread c.blk c.tl).ops.find? _ = _
  rw [State.thread_modThread_same _ hk htl, hword, List.find?_map, hid, ho, Option.map_some,
    if_pos (List.find?_some (p := fun o : SlotOp => o.id == c.op) ho)]

/-! ### Bias flips -/

/-- The demands of R89 on a page: the lines that its records' releasers owe are written back. -/
def State.flipDemands (s : State) (host : Bool) (fr n : Nat) : State :=
  (s.sync.filter fun p => host && onFrames fr n p.1 && p.2.sv && !p.2.fl).foldl (fun s p =>
    let c : CoreRef := ⟨p.2.rdie.toNat, p.2.rcore.toNat⟩
    (s.linesOf c fun _ d => genWithin (s.core c).gen p.2.rgen d.gen).foldl (fun s l => s.arriveWb l.1 l.2) s) s
/-- With them, a page that the host takes: its dirty lines are written back. -/
def State.flipWritten (s : State) (host : Bool) (fr n : Nat) : State :=
  if host then ((s.flipDemands host fr n).wbFrames fr n).2 else s.flipDemands host fr n
/-- What a core keeps when a page has flipped. -/
def Core.flipped (host : Bool) (fr n : Nat) (k : Core) : Core :=
  { k with
    tlb := k.tlb.filter fun (e : TlbEntry) => !(e.page < fr + n && decide (fr < e.page + e.pages))
    dirty := if host then k.dirty
      else k.dirty.map fun (d : Nat × DirtyLine) => if onFrames fr n d.1 then (d.1, { d.2 with hostBias := false }) else d }
/-- The end of a bias flip, but for its result. -/
def State.flipEnd (s : State) (host : Bool) (fr n : Nat) : State :=
  let u := (s.flipWritten host fr n).dropCopies fun g _ => onFrames fr n g
  { u with
    sync := if host then u.sync.filter fun p => !onFrames fr n p.1 else u.sync
    tlb2 := tmap (List.filter fun (e : TlbEntry) => !(e.page < fr + n && decide (fr < e.page + e.pages))) u.tlb2
    cores := tmap (Core.flipped host fr n) u.cores
    moving := u.moving.filter (· != (fr, n)) }
theorem execBiasflipComplete_eq {s : State} {n fr m : Nat} {c : VcPending} {va : DWord} {host : Bool} (h : VcFound s n c)
    (hc : c.cmd = .bias va host true fr m) : exec (.biasflipComplete n) s =
    if s.pendingOn fr m || s.flipDemanded fr m then .next s
    else if host && !(s.farOwed fr m).isEmpty then .next ((s.farOwed fr m).foldl (fun s p => s.demandFor (.flip p.1 p.2) p.1) s)
    else .next ((s.flipEnd host fr m).landVc c 0 (if host then (s.wbFrames fr m).1.length else 0)) := by
  simp only [exec, execBiasflipComplete, show s.vcCmds.find? (fun c => c.id == n) = some c from h, hc]
  rfl

theorem tget_filter_none {α : Type} {t : Tbl α} {f : Nat × α → Bool} {k : Nat} (h : ∀ v, f (k, v) = false) : tget (t.filter f) k = none := by
  cases ht : tget (t.filter f) k with
  | none => rfl
  | some v => exact absurd (List.mem_filter.mp (mem_of_tget ht)).2 (by simp [h v])
theorem onFrames_iff {fr n g : Nat} : onFrames fr n g = true ↔ fr ≤ g / 32 ∧ g / 32 < fr + n := by
  simp [onFrames]
theorem State.wbFrames_clean (s : State) {fr n g : Nat} (h : onFrames fr n g = true) : cleanEverywhere (s.wbFrames fr n).2 g := fun c => by
  cases hd : lineOf s c g with
  | none => exact (arrivals_sheds (fun p : Nat × Nat => (coreOfKey p.1, p.2)) _ s).line hd
  | some d =>
    rw [← lineOf_of_key (coreKey_coreOfKey (coreKey c))]
    refine arrivals_line (fun p : Nat × Nat => (coreOfKey p.1, p.2)) _ s (a := (coreKey c, g)) ?_
    unfold lineOf State.core at hd
    cases hk : tget s.cores (coreKey c) with
    | none => simp [hk] at hd
    | some k =>
      rw [hk] at hd
      exact List.mem_flatten.mpr ⟨_, List.mem_map.mpr ⟨_, mem_of_tget hk, rfl⟩,
        List.mem_map.mpr ⟨(g, d), List.mem_filter.mpr ⟨mem_of_tget hd, h⟩, rfl⟩⟩
section
variable (s : State) (fr m : Nat)
/-- A flip to the device writes nothing back. -/
theorem State.flipWritten_device : s.flipWritten false fr m = s := by
  simp only [State.flipWritten, State.flipDemands, Bool.false_and, Bool.false_eq_true, if_false, List.filter_false, List.foldl_nil]
variable (host : Bool)
theorem State.flipEnd_core (c : CoreRef) : (s.flipEnd host fr m).core c =
    Core.flipped host fr m { (s.flipWritten host fr m).core c with
      copies := ((s.flipWritten host fr m).core c).copies.filter fun x => !onFrames fr m x.1 } := by
  have flippedNone : Core.flipped host fr m {} = {} := by
    cases host <;> rfl
  rw [State.core_tmap (s := (s.flipWritten host fr m).dropCopies fun g _ => onFrames fr m g) rfl flippedNone]
  exact congrArg _ (State.core_tmap (f := fun k : Core => { k with copies := k.copies.filter fun x => !onFrames fr m x.1 }) rfl rfl c)
theorem State.flipEnd_uncached {g : Nat} (h : onFrames fr m g = true) : uncached (s.flipEnd host fr m) g := fun c => by
  rw [State.flipEnd_core]
  exact tget_filter_none fun v => by simp [h]
theorem State.flipEnd_clean {g : Nat} (h : onFrames fr m g = true) : cleanEverywhere (s.flipEnd true fr m) g := fun c => by
  rw [lineOf, State.flipEnd_core]
  exact State.wbFrames_clean _ h c
theorem State.flipEnd_srec {g : Nat} (h : onFrames fr m g = true) : (s.flipEnd true fr m).srec g = {} :=
  congrArg (Option.getD · ({} : SyncRec)) (tget_filter_none fun v => by simp [h])
theorem State.flipEnd_tlb (c : CoreRef) : ∀ b ∈ ((s.flipEnd host fr m).core c).tlb, ¬(b.page < fr + m ∧ fr < b.page + b.pages) := by
  rintro b hb ⟨hl, hh⟩
  rw [State.flipEnd_core] at hb
  have := (List.mem_filter.mp hb).2
  simp [hl, hh] at this
theorem State.flipEnd_moving : (fr, m) ∉ (s.flipEnd host fr m).moving := fun h => by
  simpa using (List.mem_filter.mp h).2
theorem State.flipEnd_device : (s.flipEnd false fr m).mem = s.mem ∧ (s.flipEnd false fr m).sync = s.sync := by
  unfold State.flipEnd
  rw [State.flipWritten_device]
  exact ⟨rfl, rfl⟩
end

/-! ### The events -/

/-- A page of an open window's old map, lowest first (R455). -/
theorem execPageMoveSweepStep_eq {s : State} {x i : Nat} {c : VcPending} {page : Nat × Nat} {rest : List (Nat × Nat)}
    (h : s.vcCmds.find? (fun c => c.ctx == x && c.window && (match c.cmd with
      | .resize j _ _ => j == i
      | .move j _ _ => j == i
      | _ => false)) = some c) (hl : c.left = page :: rest) : exec (.pageMoveSweepStep x i page.1) s =
    if page ∉ s.moving then if s.movingFrame page.1 then .next s else .next { s with moving := s.moving ++ [page] }
    else if s.pendingOn page.1 page.2 then .next s
    else .next (({ s.moveLines x i page with moving := s.moving.filter (· != page) } : State).setCmd { c with left := rest }) := by
  show execPageMoveSweepStep x i page.1 s = _
  unfold execPageMoveSweepStep
  split
  next hn => cases h.symm.trans hn
  next d hd =>
    obtain rfl : c = d := Option.some.inj (h.symm.trans hd)
    simp only [hl, bne_self_eq_false, Bool.false_eq_true, if_false, Bool.not_eq_true', List.contains_eq_mem, decide_eq_false_iff_not]
    rfl
/-- A bias flip that has not begun (R462). -/
theorem State.vcStep_bias {s : State} {c : VcPending} {va : DWord} {host : Bool} {fr m : Nat} {x : Ctx} {e : TlbEntry}
    (hc : c.cmd = .bias va host false fr m) (hx : s.ctx c.ctx = some x)
    (he : walkFrom s.mem c.ctx (va.toNat % 2 ^ 56) 4 x.ptroot = .ok e) : s.vcStep c =
    if e.hb != host || (!host && (bit (e.frame * 4096) 50 && !bit (e.frame * 4096) 51)) then s.landVc c 5 0
    else if s.movingFrame e.frame then s.setCmd { c with cmd := .bias va host false fr m }
    else ({ s with moving := s.moving ++ [(e.frame - e.vpn % e.pages, e.pages)] } : State).setCmd
      { c with cmd := .bias va host true (e.frame - e.vpn % e.pages) e.pages } := by
  simp only [State.vcStep, hc, hx, he, Bool.false_eq_true, if_false]
theorem State.vcStep_bias_refused {s : State} {c : VcPending} {va : DWord} {host : Bool} {fr m : Nat}
    (hc : c.cmd = .bias va host false fr m)
    (h : ∀ x, s.ctx c.ctx = some x → ∀ e, walkFrom s.mem c.ctx (va.toNat % 2 ^ 56) 4 x.ptroot ≠ .ok e) : s.vcStep c = s.landVc c 5 0 := by
  cases hx : s.ctx c.ctx with
  | none => simp only [State.vcStep, hc, hx, Bool.false_eq_true, if_false]
  | some x =>
    cases hw : walkFrom s.mem c.ctx (va.toNat % 2 ^ 56) 4 x.ptroot with
    | ok e => exact absurd hw (h x hx e)
    | bad cause => simp only [State.vcStep, hc, hx, hw, Bool.false_eq_true, if_false]

/-- Settles O44: each clause is one command above, or the event that goes on with it. -/
theorem cacheEngine : Obligations.CacheEngine := by
  refine ⟨?waits, ?define, ?window, ?grant, ?flush, ?lands, ?sweep, ?bias, ?complete⟩
  case waits =>
    intro s n i c h hi hw hb
    rw [execVcCommandLanding_steps h, State.vcStep_waits hi hw hb]
  case define =>
    intro s n i c w0 w1 h hc hb
    rw [execVcCommandLanding_steps h, State.vcStep_define hc hb, State.vcDefine]
    simp only [Bool.or_eq_true]
    split
    · rfl
    · split
      · rfl
      · cases s.grant c.ctx i w0.toNat w1.toNat <;> rfl
  case window =>
    intro s n i c w0 w1 h hc
    rw [execVcCommandLanding_steps h, State.vcStep_window hc]
    refine ⟨fun hw hb => ?_, fun hw hl => ?_, fun hw hl => ?_⟩
    · rw [if_neg (by simp [hw]), if_neg (by simp [hb]), State.openWindow]
      cases s.grant c.ctx i w0.toNat w1.toNat <;> simp only [Bool.or_eq_true, Bool.not_eq_true']
    · rw [if_pos hw, if_neg (by simp [hl])]
    · rw [if_pos hw, if_pos (by simp [hl])]
  case grant =>
    intro s ctx i w0 w1 sh h
    obtain ⟨l2, ll, rfl, hl2, hll, hlen⟩ := State.grant_shares h
    refine ⟨fun x hx => (List.mem_append.mp hx).elim (fun hx => (hl2 x hx).2) fun hx => (hll x hx).2, ?_⟩
    rw [List.filter_append, List.filter_eq_nil_iff.mpr fun x hx => by simp [(hl2 x hx).1],
      List.filter_eq_self.mpr fun x hx => by simp [(hll x hx).1], List.nil_append, hlen]
  case flush =>
    intro s n i op c h hc
    refine ⟨fun hw => ?_, fun hw hb => ?_, fun ho => ?_, fun ho hb hr hd => ?_⟩
    · rw [execVcCommandLanding_steps h, State.vcStep_flush hc, if_pos (by simp [hw])]
    · rw [execVcCommandLanding_steps h, State.vcStep_flush hc, if_neg (by simp [hw, hb])]
      simp only [Bool.or_eq_true, Bool.and_eq_true, beq_iff_eq, Bool.not_eq_true']
    · rw [State.ackFence_vc h hc, State.vcFlushDone_keeps ho]
    · rw [State.ackFence_vc h hc, ho, State.vcFlushDone_undef hb hr hd]
  case lands =>
    intro s c st count k o hk htl ho
    exact ⟨⟨_, State.landVc_find s st count hk htl ho, rfl⟩, fun x hx => by simpa using (List.mem_filter.mp hx).2⟩
  case sweep =>
    intro s x i c page rest h hl
    refine ⟨fun hm hf => ?_, fun hm hf => ?_, fun hm hp => ?_, fun hm hp => ⟨?_, State.moveLines_mem ..⟩⟩
    · rw [execPageMoveSweepStep_eq h hl, if_pos hm, if_pos hf]
    · rw [execPageMoveSweepStep_eq h hl, if_pos hm, if_neg (by simp [hf])]
    · rw [execPageMoveSweepStep_eq h hl, if_neg (not_not_intro hm), if_pos hp]
    · rw [execPageMoveSweepStep_eq h hl, if_neg (not_not_intro hm), if_neg (by simp [hp])]
  case bias =>
    intro s n fr m c va host h hc
    rw [execVcCommandLanding_steps h]
    refine ⟨fun hx => ?_, fun x hx hw => ?_, fun x e hx he => ?_⟩
    · rw [State.vcStep_bias_refused hc fun x hx' => by simp [hx] at hx']
    · rw [State.vcStep_bias_refused hc fun y hy => by rwa [← Option.some.inj (hx.symm.trans hy)]]
    · rw [State.vcStep_bias hc hx he]
      simp only [Bool.or_eq_true, bne_iff_ne, Bool.and_eq_true, Bool.not_eq_true', bit_eq_testBit]
  case complete =>
    intro s n fr m c va host h hc
    rw [execBiasflipComplete_eq h hc]
    refine ⟨fun hw => if_pos (by simpa using hw), fun hp hd hh ho => ?_, fun hp hd ho => ⟨s.flipEnd host fr m, ?_, ?_, ?_, ?_, ?_⟩⟩
    · rw [if_neg (by simp [hp, hd]), if_pos (by simpa [hh] using ho)]
    · rw [if_neg (by simp [hp, hd]), if_neg (by simpa using ho)]
    · exact s.flipEnd_moving fr m host
    · rintro rfl
      exact ⟨(State.landVc_mem ..).trans (s.flipEnd_device fr m).1, (s.flipEnd_device fr m).2⟩
    · intro g hl hh
      have hg := onFrames_iff.mpr ⟨hl, hh⟩
      refine ⟨s.flipEnd_uncached fr m host hg, ?_⟩
      rintro rfl
      exact ⟨s.flipEnd_clean fr m hg, s.flipEnd_srec fr m hg⟩
    · exact s.flipEnd_tlb fr m host

end Sys2Proof.Machine
end

section
/-! PROOFS. Instruction words and clause headers (spec/04_encoding.md R101 to R120): the opcode map of each class only reads what the encoder
writes, headers are read back and written back, and the statements about words (O54, O55). -/

namespace Sys2Proof

/-! ### Every instruction has its laws -/

/-- The laws of the family, one for each constructor, are about every instruction and event. -/
theorem Laws.OneWord.holds (i : Instr) : Laws.OneWord.Statement i := by
  cases i <;> rfl
namespace Laws.RoundTrip
theorem holds : ∀ i, Statement i :=
  Instr.rec nop mov movi movk iadd iaddI isub isubI imul imulI imulhi imad imadw iadd64 isub64 imin iminI imax imaxI iabs ineg logt and
    andI or orI xor xorI not shl shlI shr shrI sar sarI shf bfx bfi popc clz ctz brev prmb iset isetI iset64 sel lea leaI i2i plop pset
    srd cyc gpoll gxch gpeer bra brx call ret exit jset jwait yield fadd faddI fmul fmulI ffma fmulz fmin fmax fset fsetI fclass frnd f2i
    i2f f2f fsf pkadd pkmul pkfma pkdot dadd dmul dfma ld st ldl stl ldp stp ldk atom red atoml acq rel phase pref cline drainst vcqry bar
    bararv barwait boinit boexp boarv bowait botest qdef qpush qpop qtry cpy cpyg cpys cpyfill ctload decent decbr mresv mrels mload mcbl
    mma mmai mzero mstore mstat mchk rayq sqnop sqloop sqend sqwaitc sqboarv sqbowait seqCpy seqCpyg seqCpys seqCpyfill seqCtload
    seqDecent seqDecbr seqMresv seqMrels seqMload seqMcbl seqMma seqMmai seqMzero seqMstore seqMstat seqMchk paypush paypop mcount mvert
    mprim mdone vispop visget rgnacq rgnrel rtblend tex tld tqry trap tret frginfo sfqpop killf bpt launch fork rdv setprio tmode xldec
    xlmap xlmapRaise vcdef vcsize vcmove vcflush biasflip qfeat clauseIssue descheduleExpiry yieldExpiry stallExpiry slotLanding
    homeRelease homeAcquire homeAtomic homeFill demandWriteBack writeBackArrival writeBackAck boostNotice pageMoveSweepStep
    vcCommandLanding biasflipComplete engineDelivery matrixOpStart sqwaitcExpiry frontEndRequest paypushLanding packetArrival
    watermarkFlit launchHead blockPlace completionRecord preempt graceExpiry engineDrainExpiry blockRestore fixedClockChange blockRelaunch
    billingSend bootStep create destroy inval frmopen frmclose frmrel resans qbind migout migin hostCommandComplete waitTimeout eviction
    directoryRecall dirtyNotice hostSnoop hostMemAccess bankSleep l2DectedSwitch mresvPartnerTimeout tokenTimeout frameTimeout
    pipelineEvaluation quadGate uncorrectableError corrected scrub dieLost heartbeatSend silenceNotice linkLaneLoss linkRetrainDone
    remoteRequest podArrivalFlit podReleaseFlit billingFlit fabricEnable lostMarkClear powerEvaluation energyAccounting thermalReading
    droopDetect droopLimit droopRecover droopFloorExpiry regFailed pwrlimWrite packageReset pkgctlRst tailReread registerWrite
    stretchedCycle shuntClamp way7ReturnToVc1
end Laws.RoundTrip

/-! ### A word that decodes is the one that the encoder writes -/

section
variable {w : DWord} {o : Nat} {i : Instr} (ho : w.extractLsb' 56 8 = BitVec.ofNat 8 o)
include ho

/-- Writing a decoded word's fields under its opcode again gives the word, in each of the six formats. -/
theorem encodeFA_of_opcode : encodeFA (BitVec.ofNat 8 o) (decodeFA w) = w := ho ▸ encodeFA_decodeFA w
theorem encodeFI_of_opcode : encodeFI (BitVec.ofNat 8 o) (decodeFI w) = w := ho ▸ encodeFI_decodeFI w
theorem encodeFM_of_opcode : encodeFM (BitVec.ofNat 8 o) (decodeFM w) = w := ho ▸ encodeFM_decodeFM w
theorem encodeFB_of_opcode : encodeFB (BitVec.ofNat 8 o) (decodeFB w) = w := ho ▸ encodeFB_decodeFB w
theorem encodeFX_of_opcode : encodeFX (BitVec.ofNat 8 o) (decodeFX w) = w := ho ▸ encodeFX_decodeFX w
theorem encodeFS_of_opcode : encodeFS (BitVec.ofNat 8 o) (decodeFS w) = w := ho ▸ encodeFS_decodeFS w

theorem encode_of_opcodeAlu : opcodeAlu w o = some i → encode i = some (.alu, w) := by
  fun_cases opcodeAlu w o <;> rintro ⟨⟩ <;>
    simp only [encode, BitVec.ofNat_eq_ofNat, encodeFA_of_opcode ho, encodeFI_of_opcode ho, encodeFB_of_opcode ho]
theorem encode_of_opcodeMem : opcodeMem w o = some i → encode i = some (.mem, w) := by
  fun_cases opcodeMem w o <;> rintro ⟨⟩ <;> simp only [encode, BitVec.ofNat_eq_ofNat, encodeFM_of_opcode ho]
theorem encode_of_opcodeSync : opcodeSync w o = some i → encode i = some (.sync, w) := by
  fun_cases opcodeSync w o <;> rintro ⟨⟩ <;> simp only [encode, BitVec.ofNat_eq_ofNat, encodeFM_of_opcode ho]
theorem encode_of_opcodeEng : opcodeEng w o = some i → encode i = some (.eng, w) := by
  fun_cases opcodeEng w o <;> rintro ⟨⟩ <;> simp only [encode, BitVec.ofNat_eq_ofNat, encodeFX_of_opcode ho]
theorem encode_of_opcodeSeq : opcodeSeq w o = some i → encode i = some (.seq, w) := by
  fun_cases opcodeSeq w o <;> rintro ⟨⟩ <;> simp only [encode, BitVec.ofNat_eq_ofNat, encodeFS_of_opcode ho]
theorem encode_of_opcodeGfx : opcodeGfx w o = some i → encode i = some (.gfx, w) := by
  fun_cases opcodeGfx w o <;> rintro ⟨⟩ <;> simp only [encode, BitVec.ofNat_eq_ofNat, encodeFA_of_opcode ho]
/-- Opcode 0x21 has two readings, and both are written under it. -/
theorem encode_of_opcodeSys : opcodeSys w o = some i → encode i = some (.sys, w) := by
  fun_cases opcodeSys w o <;> rintro ⟨⟩
  case case13 => split <;> simp only [encode, BitVec.ofNat_eq_ofNat, encodeFA_of_opcode ho]
  all_goals simp only [encode, BitVec.ofNat_eq_ofNat, encodeFA_of_opcode ho, encodeFI_of_opcode ho, encodeFX_of_opcode ho]
end

theorem encode_of_decodeRaw {c : Cls} {w : DWord} {i : Instr} (h : decodeRaw c w = some i) : encode i = some (c, w) := by
  have ho : w.extractLsb' 56 8 = BitVec.ofNat 8 (w.extractLsb' 56 8).toNat := by rw [BitVec.ofNat_toNat, BitVec.setWidth_eq]
  cases c with
  | alu => exact encode_of_opcodeAlu ho h
  | mem => exact encode_of_opcodeMem ho h
  | sync => exact encode_of_opcodeSync ho h
  | eng => exact encode_of_opcodeEng ho h
  | seq => exact encode_of_opcodeSeq ho h
  | gfx => exact encode_of_opcodeGfx ho h
  | sys => exact encode_of_opcodeSys ho h

theorem decodeWord_ok_iff {c : Cls} {w : DWord} {i : Instr} :
    decodeWord c w = .ok i ↔ decodeRaw c w = some i ∧ i.wellFormed = true := by
  constructor
  · unfold decodeWord
    intro h
    split at h
    · cases h
    · split at h <;> cases h
      exact ⟨‹_›, ‹_›⟩
  · rintro ⟨hr, hw⟩
    simp only [decodeWord, hr, hw, if_true]

/-! ### Headers -/

theorem Cls.ofCode_code (c : Cls) : Cls.ofCode c.code = some c := by cases c <;> rfl
theorem Cls.code_lt (c : Cls) : c.code < 8 := by cases c <;> decide
theorem Cls.code_of_ofCode {n : Nat} {c : Cls} : Cls.ofCode n = some c → c.code = n := by
  fun_cases Cls.ofCode n <;> rintro ⟨⟩ <;> rfl

theorem decodeHeader_encodeHeader {h : Header} (hc : h.count < 16) (hs : h.stall < 16) : decodeHeader (encodeHeader h) = some h := by
  have hk := h.cls.code_lt
  simp (disch := decide) only [decodeHeader, isHeader, encodeHeader, BitVec.extractLsb'_append_eq_of_le,
    BitVec.extractLsb'_append_eq_of_add_le, Nat.reduceSub, BitVec.extractLsb'_eq_self, BitVec.getLsbD_append, Nat.reduceLT, if_true, if_false]
  simp [Nat.mod_eq_of_lt, *, Cls.ofCode_code]

theorem encodeHeader_decodeHeader {w : DWord} {h : Header} (hw : decodeHeader w = some h) : encodeHeader h = w := by
  unfold decodeHeader at hw
  split at hw
  case isFalse => cases hw
  case isTrue hm =>
    simp only [isHeader, Bool.and_eq_true, beq_iff_eq] at hm
    obtain ⟨hmark, hzero⟩ := hm
    obtain ⟨c, hc, rfl⟩ := Option.map_eq_some_iff.mp hw
    simp (disch := rfl) only [encodeHeader, Cls.code_of_ofCode hc, ← hmark, ← hzero, ofBool_getLsbD, BitVec.ofNat_toNat,
      BitVec.setWidth_eq, BitVec.extractLsb'_append_extractLsb'_eq_extractLsb']
    exact BitVec.extractLsb'_eq_self

/-- Settles O54: the words of the encoder are read back by the laws of each constructor, and the opcode maps read no other words. -/
theorem decodeEncodeAgree : Obligations.DecodeEncodeAgree := by
  refine ⟨fun i he hw => ?encoded, fun c w i h => ?decoded, fun h => decodeHeader_encodeHeader, fun w h => encodeHeader_decodeHeader⟩
  case encoded =>
    have ho : (encode i).isSome = !i.isEvent := Laws.OneWord.holds i
    obtain ⟨⟨c, w⟩, hcw⟩ := Option.isSome_iff_exists.mp (ho.trans (by rw [he]; rfl))
    exact ⟨c, w, hcw, decodeWord_ok_iff.mpr ⟨Laws.RoundTrip.holds i hw c w hcw, hw⟩⟩
  case decoded =>
    obtain ⟨hr, hw⟩ := decodeWord_ok_iff.mp h
    have he := encode_of_decodeRaw hr
    have ho : (encode i).isSome = !i.isEvent := Laws.OneWord.holds i
    exact ⟨by simpa [he] using ho, hw, he⟩

/-- Settles O55: each word is decoded as it stands. -/
theorem specWords : Obligations.SpecWords :=
  ⟨rfl, rfl, rfl, rfl, rfl, rfl, rfl, rfl, rfl, rfl, rfl, rfl, rfl, rfl, rfl, rfl, rfl, rfl⟩

end Sys2Proof
end

section
/-! PROOFS. What a step runs (spec/04_encoding.md R101, R122; spec/10_distributor.md R294; notes/assumptions/8.md): the instruction at which
a group stands, the clause whose turn it is, and the statement about steps (O56). -/

namespace Sys2Proof.Machine
open Sys2Proof.Safety

/-! ### The instruction at which a group stands -/

theorem regsLimit_iff {i : Instr} {n : Nat} : regsLimit i n = true ↔ ∃ o ∈ i.operands, ∃ r ∈ o.regs, r ≠ 255 ∧ n ≤ r := by
  simp only [regsLimit, List.any_eq_true, Bool.and_eq_true, bne_iff_ne, decide_eq_true_eq]

section
variable {g : Group} {w : DWord} (hw : lget g.words g.idx = some w) (hc : g.head.cls ≠ .seq) (n : Nat)
include hw hc

theorem Group.instr_unassigned (h : decodeWord g.head.cls w = .error .unassigned) : g.instr n = .error (0x002, 0) := by
  simp only [Group.instr, beq_iff_eq, hc, if_false, hw, h]
  rfl
theorem Group.instr_illegalEncoding (h : decodeWord g.head.cls w = .error .illegalEncoding) : g.instr n = .error (0x003, 0x06) := by
  simp only [Group.instr, beq_iff_eq, hc, if_false, hw, h]
  rfl
theorem Group.instr_decoded {i : Instr} (h : decodeWord g.head.cls w = .ok i) :
    g.instr n = if i.mustBeLast = true ∧ g.isLast = false then .error (0x003, 0x07)
      else if ∃ o ∈ i.operands, ∃ r ∈ o.regs, r ≠ 255 ∧ n ≤ r then .error (0x003, 0x0A) else .ok i := by
  simp only [Group.instr, beq_iff_eq, hc, if_false, hw, h, Bool.and_eq_true, Bool.not_eq_true', regsLimit_iff]
  rfl
end

theorem Group.instr_of_stands {g : Group} {k : Block} {i : Instr} (h : StandsAtInstr g k i) : g.instr k.regsN = .ok i := by
  obtain ⟨w, hw, hi⟩ := h.word
  rw [Group.instr_decoded hw h.cls _ hi, if_neg fun hl => by simp [h.last hl.1] at hl, if_neg]
  rintro ⟨o, ho, r, hr, h255, hn⟩
  exact (h.regs o ho r hr).elim h255 (Nat.not_lt.mpr hn)

/-! ### What a step runs -/

theorem step_of_agenda {s : State} {i : Instr} {r : List Instr} (h : s.agenda = i :: r) :
    step s = if i.isEvent then finish (exec i { s with agenda := r }) else .next { s with agenda := r } := by
  simp only [step, h]
theorem step_of_autonomous {s : State} {i : Instr} (ha : s.agenda = []) (ht : s.turn = true ∨ s.opens = [])
    (hi : s.autonomous = some i) : step s = finish (exec i { s with turn := false }) := by
  have hc : (s.turn || s.opens.isEmpty) = true := by simpa using ht
  simp only [step, ha, hc, if_true, hi]
/-- On the turn of the clauses the one at the front issues. -/
theorem step_of_turn {s : State} {o : Open} (ha : s.agenda = []) (ht : s.turn = false ∨ s.autonomous = none)
    (hf : s.opens.head? = some o) : step s = finish (issueFront { s with turn := true }) := by
  obtain ⟨r, ho⟩ := opens_of_front hf
  have hn : (if s.turn || s.opens.isEmpty then s.autonomous else none) = none := by
    rcases ht with ht | ht <;> simp [ht, ho]
  simp only [step, ha, hn]

section
variable {s : State} {g : Group} {k : Block} (hf : s.opens.head? = some (.grp g)) (hk : s.block g.blk = some k)
  (hd : s.dueNow s.dues (s.quadKeyOf k.core) g.due = true)
include hf hk hd

theorem issueFront_group_ok {i : Instr} (hi : g.instr k.regsN = .ok i) :
    issueFront s = andThen (fun t => t.pace g k i) (exec i (s.reachDue (s.quadKeyOf k.core) g.due).clearDue) := by
  obtain ⟨r, ho⟩ := opens_of_front hf
  simp only [issueFront, ho, hk, hd, hi, Bool.not_true, Bool.false_eq_true, if_false]
theorem issueFront_group_error {c : Nat × Word} (hc : g.instr k.regsN = .error c) :
    issueFront s = .next ((s.reachDue (s.quadKeyOf k.core) g.due).clearDue.groupTrap g c) := by
  obtain ⟨r, ho⟩ := opens_of_front hf
  simp only [issueFront, ho, hk, hd, hc, Bool.not_true, Bool.false_eq_true, if_false]
end

/-- A sequencer as its instruction issues: it waits for no cycle any more. -/
def Sequencer.undue (q : Sequencer) : Sequencer := { q with due := none }

section
variable {s : State} {c : CoreRef} {kd : SeqKind} (hf : s.opens.head? = some (.seq c kd)) (hr : (s.sq c kd).running = true)
  (hb : (s.sq c kd).bowait = none ∧ (s.sq c kd).holdT = none) (hm : s.seqMayIssue c (s.sq c kd) = true)
  (hw : (s.sq c kd).head.isSome = true) (hd : s.dueNow s.dues (s.quadKeyOf c) (s.sq c kd).due = true)
include hf hr hb hm hw hd

theorem issueFront_seq :
    (∀ i, (s.sq c kd).instr kd = .ok i → issueFront s = andThen (fun t => t.paceSeq c kd (s.sq c kd).undue i)
      (exec i ((s.reachDue (s.quadKeyOf c) (s.sq c kd).due).setSq c kd (s.sq c kd).undue))) ∧
    (∀ x, (s.sq c kd).instr kd = .error x → issueFront s =
      .next (((s.reachDue (s.quadKeyOf c) (s.sq c kd).due).setSq c kd (s.sq c kd).undue).endProgram c kd (s.sq c kd).undue x)) := by
  obtain ⟨r, ho⟩ := opens_of_front hf
  unfold issueFront
  simp only [ho]
  rw [if_neg (by simp [hr, hb]), if_neg (by simp [hm]), if_neg (by simpa using Option.isSome_iff_ne_none.mp hw), if_neg (by simp [hd])]
  refine ⟨fun i hi => ?_, fun x hx => ?_⟩
  · split
    next j hj =>
      obtain rfl : i = j := Except.ok.inj (hi.symm.trans hj)
      rfl
    next y hy => cases hi.symm.trans hy
  · split
    next j hj => cases hx.symm.trans hj
    next y hy =>
      obtain rfl : x = y := Except.error.inj (hx.symm.trans hy)
      rfl
end

/-- Without constant times the next instruction has none. -/
theorem State.pace_elastic {t : State} {g : Group} {k : Block} {i : Instr} (h : t.blockFixed k = false) : t.pace g k i = t := by
  simp only [State.pace, h, Bool.not_false, if_true]

/-- Settles O56: each clause is one of the ways in which a step goes, or one answer of the decoder. -/
theorem stepRunsDecoded : Obligations.StepRunsDecoded := by
  refine ⟨fun s g k h => ?group, fun s c kd h => ?sequencer, fun s i r => step_of_agenda, fun s i => step_of_autonomous,
    fun _ => rfl, fun s k g _ hf t i hc => ?elastic, fun g k w hw hs => ⟨?unassigned, ?illegal, ?notLast, ?regs⟩⟩
  case group =>
    let u : State := { s with turn := true }
    have hu : step s = finish (issueFront u) := step_of_turn h.agenda h.turn h.front
    refine ⟨fun i hi => hu.trans (congrArg finish ?_), fun c hc => hu.trans (congrArg finish ?_)⟩
    · exact issueFront_group_ok (s := u) h.front h.block h.due (Group.instr_of_stands hi)
    · exact issueFront_group_error (s := u) h.front h.block h.due hc
  case sequencer =>
    let u : State := { s with turn := true }
    have hu : step s = finish (issueFront u) := step_of_turn h.agenda h.turn h.front
    obtain ⟨hok, herror⟩ := issueFront_seq (s := u) h.front h.running h.free h.may h.fetched h.due
    exact ⟨fun i hi => hu.trans (congrArg finish (hok i hi)), fun x hx => hu.trans (congrArg finish (herror x hx))⟩
  case elastic => exact State.pace_elastic (by rwa [State.blockFixed, State.ctx, hc])
  case unassigned => exact Group.instr_unassigned hw hs _
  case illegal => exact Group.instr_illegalEncoding hw hs _
  case notLast =>
    intro i h hm hl
    rw [Group.instr_decoded hw hs _ h, if_pos ⟨hm, hl⟩]
  case regs =>
    intro i h hm hr
    rw [Group.instr_decoded hw hs _ h, if_neg, if_pos hr]
    rintro ⟨hm', hl⟩
    simp [hm', hl] at hm

end Sys2Proof.Machine
end

section
/-! PROOFS. Taking a trap (spec/09_core_traps.md R255 to R259; spec/04_encoding.md R122; spec/20_reliability.md R489): a thread that enters its
handler alone, a trap that fails its launch, a source that may not be read, and the statement about traps (O14). -/

namespace Sys2Proof.Machine
open Sys2Proof.Safety

/-! ### TW0 -/

theorem tw0Of_eq (cause : Nat) (dfl sfp hdr wt : Bool) (pos : Nat) (preds : BitVec 7) (detail : Word) :
    tw0Of cause dfl sfp hdr wt pos preds detail = BitVec.ofNat 64 (tw0Word cause dfl sfp hdr wt pos preds detail) := by
  apply BitVec.eq_of_toNat_eq
  have hp := preds.isLt
  have hd := detail.isLt
  have h1 := dfl.toNat_lt
  have h2 := sfp.toNat_lt
  have h3 := hdr.toNat_lt
  have h4 := wt.toNat_lt
  simp only [tw0Of, tw0Word, toNat_append_add, BitVec.ofNat_eq_ofNat, BitVec.toNat_ofNat, BitVec.toNat_ofBool]
  omega

/-! ### Two changes of one block, or of one thread, are one -/

theorem bmod_bmod (b : Nat) (f g : Block → Block) (hf : ∀ k, (f k).id = k.id) (l : List Block) :
    bmod b g (bmod b f l) = bmod b (fun k => g (f k)) l := by
  induction l with
  | nil => rfl
  | cons k r ih =>
    by_cases h : k.id = b
    · simp [bmod, h, hf]
    · simp [bmod, h, ih]
theorem State.modBlock_modBlock (s : State) (b : Nat) (f g : Block → Block) (hf : ∀ k, (f k).id = k.id) :
    (s.modBlock b f).modBlock b g = s.modBlock b fun k => g (f k) := by
  simp only [State.modBlock, bmod_bmod b f g hf]
theorem lset_lset {α : Type} (l : List α) (n : Nat) (v w : α) : lset (lset l n v) n w = lset l n w := by
  induction l generalizing n with
  | nil => rfl
  | cons x r ih => cases n <;> simp [lset, ih]
theorem Block.modThread_modThread (k : Block) {tl : Nat} (f g : Thread → Thread) (h : tl < k.threads.length) :
    (k.modThread tl f).modThread tl g = k.modThread tl fun t => g (f t) := by
  rw [Block.modThread, Block.thread_modThread_same k tl f h]
  simp only [Block.modThread, lset_lset]
/-- A change of a thread is what it does to the thread as it stands. -/
theorem Block.modThread_congr {k : Block} {tl : Nat} {f g : Thread → Thread} (h : f (k.thread tl) = g (k.thread tl)) :
    k.modThread tl f = k.modThread tl g := by
  simp only [Block.modThread, h]

/-! ### The commit that a trap waits for -/

/-- A block without stores commits at once, and nothing changes. -/
theorem State.commitBlock_empty {s : State} {b : Nat} {k : Block} (hk : s.block b = some k) (hs : k.sbuf = []) :
    s.commitBlock b = (s, !s.noticing k.core) := by
  have hp : s.wholeStores k.ctx [] = s := by
    simp only [State.wholeStores, List.filter_nil, List.any_nil]
    split
    · rfl
    · congr 1
      exact List.filter_eq_self.mpr fun g _ => rfl
  simp only [State.commitBlock, State.commitWhere, hk, hs, State.commitList, List.filter_nil, if_true, hp, Bool.true_and]

/-! ### The threads that trap together -/

theorem filterMap_zipIdx_nil {α β : Type} {f : α × Nat → Option β} {l : List α} {k : Nat}
    (h : ∀ m z, lget l m = some z → f (z, k + m) = none) : (l.zipIdx k).filterMap f = [] := by
  refine List.filterMap_eq_nil_iff.mpr fun p hp => ?_
  obtain ⟨hk, hp⟩ := List.mem_zipIdx_iff_le_and_getElem?_sub.mp hp
  have := h (p.2 - k) p.1 (by rw [lget_eq_getElem?, hp])
  rwa [Nat.add_sub_cancel' hk] at this
/-- Of a list one member is chosen. -/
theorem filterMap_zipIdx_single {α β : Type} {f : α × Nat → Option β} {y : β} {l : List α} {n k : Nat} {x : α} (hx : lget l n = some x)
    (hy : f (x, k + n) = some y) (ho : ∀ m z, lget l m = some z → m ≠ n → f (z, k + m) = none) : (l.zipIdx k).filterMap f = [y] := by
  induction l generalizing n k with
  | nil => cases hx
  | cons a r ih =>
    have hr : ∀ m z, lget r m = some z → m + 1 ≠ n → f (z, k + 1 + m) = none := fun m z hz hm =>
      Nat.add_right_comm k 1 m ▸ ho (m + 1) z hz hm
    cases n with
    | zero =>
      obtain rfl : a = x := Option.some.inj hx
      rw [List.zipIdx_cons, List.filterMap_cons_some (by exact hy), filterMap_zipIdx_nil fun m z hz => hr m z hz (Nat.succ_ne_zero m)]
    | succ n =>
      rw [List.zipIdx_cons, List.filterMap_cons_none (by exact ho 0 a rfl (Nat.zero_ne_add_one n))]
      exact ih hx (Nat.add_right_comm k n 1 ▸ hy) fun m z hz hm => hr m z hz (by omega)

/-- The thread as it begins to trap. -/
def Thread.traps (i : TrapInfo) (t : Thread) : Thread :=
  { t with
    status := .trapping i
    savedWait := match t.status with
      | .waiting w => some w
      | _ => none }

theorem TrapInfo.with_self (i : TrapInfo) : i.with_ i = true := by
  simp only [TrapInfo.with_, beq_self_eq_true, Bool.and_self]

/-- A thread that traps alone in its fragment enters its handler alone. -/
theorem Block.mates_alone {k : Block} {tl : Nat} {i : TrapInfo} (hl : tl < k.threads.length) (ha : trapsAlone k tl) :
    (k.modThread tl (Thread.traps i)).mates tl i = [(tl, i)] := by
  have ht := Block.thread_modThread_same k tl (Thread.traps i) hl
  refine filterMap_zipIdx_single (n := tl) (k := 0) (lget_lset_same _ _ _ hl) ?_ fun n t hn hne => ?_
  · simp only [ht, Thread.traps, beq_self_eq_true, TrapInfo.with_self, Bool.and_self, if_true, Nat.zero_add]
  · have hn : lget k.threads n = some t := by rwa [← lget_lset_other k.threads tl n _ hne]
    split
    next j hj =>
      refine if_neg fun h => ha n t hn hne ?_ j hj
      rw [ht, Bool.and_eq_true, beq_iff_eq] at h
      exact h.1
    next => rfl

/-! ### Which causes a handler takes -/

theorem failsLaunch_iff {c : Nat} : failsLaunch c = true ↔ c ∈ [0x083, 0x084, 0x085, 0x086, 0x380] := by
  simp [failsLaunch, cLease, cPteInvalid, cPteReserved, cVcUndefined, cRemoteAperture, or_assoc]
theorem lostCause_iff {c : Nat} : (c == cPkgLost || c == cPodBarrierLost) = true ↔ c ∈ [0x381, 0x382] := by
  simp [cPkgLost, cPodBarrierLost]

/-! ### Trap entry -/

theorem State.block_modThread {s : State} {b : Nat} {k : Block} (hk : s.block b = some k) (tl : Nat) (f : Thread → Thread) :
    (s.modThread b tl f).block b = some (k.modThread tl f) := by
  rw [State.block_modThread_same, hk, Option.map_some]

/-- A trap that a handler takes begins (spec/09_core_traps.md R255). -/
theorem State.beginTrap_handled {s : State} {b tl : Nat} {k : Block} {l : Launch} {i : TrapInfo} (hk : s.block b = some k)
    (hl : s.launch k.launch = some l) (hh : l.handler.isNone = false) (hin : (k.thread tl).inHandler = false)
    (hc : i.cause ∉ [0x083, 0x084, 0x085, 0x086, 0x380, 0x381, 0x382]) : s.beginTrap b tl i = s.modThread b tl (Thread.traps i) := by
  have hlost : (i.cause == cPkgLost || i.cause == cPodBarrierLost) ≠ true := fun h =>
    hc (List.mem_append_right [0x083, 0x084, 0x085, 0x086, 0x380] (lostCause_iff.mp h))
  have hfails : failsLaunch i.cause ≠ true := fun h => hc (List.mem_append_left [0x381, 0x382] (failsLaunch_iff.mp h))
  simp only [State.beginTrap, hk, hl, if_neg hlost, if_neg hfails, hin, hh, Bool.false_eq_true, if_false]
  rfl

theorem Block.enter_traps {k : Block} {tl : Nat} (hl : tl < k.threads.length) (i : TrapInfo) (a : DWord) (cyc : Nat)
    (hw : ∀ w, (k.thread tl).status ≠ .waiting w) :
    (k.modThread tl (Thread.traps i)).enter a cyc (tl, i) = k.modThread tl (inTrap k tl a cyc i) := by
  simp only [Block.enter, Block.modThread_modThread k _ _ hl]
  refine Block.modThread_congr ?_
  simp only [inTrap, Thread.traps, Thread.goto, tw0Of_eq]
  rfl

/-- A thread that traps alone in its fragment, idle, its block without stores, enters the handler (R256 to R259). -/
theorem State.tryTrap_enters {s : State} {b tl : Nat} {k : Block} {i : TrapInfo} {a : DWord} (hk : s.block b = some k)
    (hl : tl < k.threads.length) (hh : HandlerAt s k a) (hi : (k.thread tl).ops = []) (hs : k.sbuf = []) (hn : s.noticing k.core = false)
    (ha : trapsAlone k tl) (hw : ∀ w, (k.thread tl).status ≠ .waiting w) :
    (s.modThread b tl (Thread.traps i)).tryTrap b tl = s.modThread b tl (inTrap k tl a (s.quad k.core).cyc i) := by
  obtain ⟨l, n, h, hlaunch, hhandler, hkernel, rfl⟩ := hh
  have hu : (s.modThread b tl (Thread.traps i)).block b = some (k.modThread tl (Thread.traps i)) := State.block_modThread hk tl _
  have ht : (k.modThread tl (Thread.traps i)).thread tl = Thread.traps i (k.thread tl) := Block.thread_modThread_same k tl _ hl
  have hst : (Thread.traps i (k.thread tl)).status = .trapping i := rfl
  have hidle : (Thread.traps i (k.thread tl)).idle = true := by simp [Thread.idle, Thread.traps, hi]
  have hcommit : (s.modThread b tl (Thread.traps i)).commitBlock b = (s.modThread b tl (Thread.traps i), true) := by
    rw [State.commitBlock_empty hu hs]
    exact congrArg (fun x => (_, !x)) hn
  have hlaunch : (s.modThread b tl (Thread.traps i)).launch (k.modThread tl (Thread.traps i)).launch = some l := hlaunch
  have hbind : (l.handler.bind fun h => lget l.kernels h) = some h := by rw [hhandler]; exact hkernel
  simp only [State.tryTrap, hu, ht, hst, Block.mates_alone hl ha, List.all_cons, List.all_nil, hidle, hcommit, hlaunch, hbind,
    List.foldl_cons, List.foldl_nil, Bool.and_self, Bool.not_true, Bool.false_eq_true, if_false]
  rw [State.modThread, State.modBlock_modBlock s b _ _ (by exact fun _ => rfl)]
  exact State.modBlock_congr hk (Block.enter_traps hl i h.entry _ hw)

/-! ### What leaves the launches alone -/

theorem foldl_launches {α : Type} {f : State → α → State} (h : ∀ (s : State) x, (f s x).launches = s.launches) (l : List α) (s : State) :
    (l.foldl f s).launches = s.launches :=
  foldl_keeps (P := fun t => t.launches = s.launches) (fun t x _ ht => (h t x).trans ht) rfl
theorem State.acquireInval_launches (s : State) (c : CoreRef) (offDie offGroup : Bool) :
    (s.acquireInval c offDie offGroup).launches = s.launches := by
  unfold State.acquireInval
  dsimp only
  split
  · split <;> rfl
  · rfl
theorem State.leaveBar_launches (s : State) (b tl scope bid : Nat) : (s.leaveBar b tl scope bid).launches = s.launches := by
  unfold State.leaveBar
  split
  · rfl
  · dsimp only
    split
    · exact State.acquireInval_launches ..
    · rfl
theorem State.podArrive_launches (s : State) (gid src : Nat) : (s.podArrive gid src).launches = s.launches := by
  unfold State.podArrive
  split
  · split
    · dsimp only
      split
      · exact foldl_launches (fun t p => t.sendFlit_launches ..) _ _
      · rfl
    · rfl
  · rfl
theorem State.barCheck_launches (s : State) (scope owner inst bid : Nat) : (s.barCheck scope owner inst bid).launches = s.launches := by
  unfold State.barCheck
  dsimp only
  split
  · split
    · split
      · rfl
      · exact State.podArrive_launches ..
    · exact foldl_launches (fun t p => t.leaveBar_launches ..) _ _
  · rfl
theorem State.endBlocks_launches (s : State) (l : Nat) : (s.endBlocks l).launches = s.launches :=
  foldl_launches (fun t (_ : BarInst) => t.barCheck_launches ..) _ _
theorem State.dropFar_launches (s : State) (g : Nat) : (s.dropFar g).launches = s.launches := by
  unfold State.dropFar
  split
  · exact foldl_launches (fun t p => t.sendFlit_launches ..) _ _
  · rfl
theorem State.dropL2_launches (s : State) (die g : Nat) : (s.dropL2 die g).launches = s.launches := by
  unfold State.dropL2
  split <;> rfl
theorem State.dropCopy_launches (s : State) (c : CoreRef) (g : Nat) : (s.dropCopy c g).launches = s.launches := by
  unfold State.dropCopy
  split <;> rfl
theorem State.homeWrite_launches (s : State) (c : Option CoreRef) (g : Nat) (bs : Tbl Byte) (tracked : Bool) :
    (s.homeWrite c g bs tracked).launches = s.launches := by
  unfold State.homeWrite
  dsimp only
  split
  · exact (State.dropFar_launches ..).trans (foldl_launches (fun t b => t.homeBytes_launches g b) _ _)
  · split
    · exact (State.dropL2_launches ..).trans (State.dropCopy_launches ..)
    · rfl
theorem State.commitEntry_launches (s : State) (c : CoreRef) (ctx : Nat) (e : SbEntry) : (s.commitEntry c ctx e).launches = s.launches := by
  unfold State.commitEntry
  split
  · exact State.homeWrite_launches ..
  · unfold State.putDirty
    dsimp only
    split <;> rfl
theorem State.commitList_launches (s : State) (b : Nat) (p : SbEntry → Bool) (l : List SbEntry) :
    (s.commitList b p l).1.launches = s.launches := by
  induction l generalizing s with
  | nil => rfl
  | cons e r ih =>
    unfold State.commitList
    split
    · exact ih s
    · split
      · rfl
      · split
        · rfl
        · rw [ih]
          split
          · rfl
          · exact State.commitEntry_launches ..
theorem State.wholeStores_launches (s : State) (ctx : Nat) (es : List SbEntry) : (s.wholeStores ctx es).launches = s.launches := by
  unfold State.wholeStores
  split <;> rfl
theorem State.commitBlock_launches (s : State) (b : Nat) : (s.commitBlock b).1.launches = s.launches := by
  unfold State.commitBlock State.commitWhere
  split
  · dsimp only
    split
    · exact (State.wholeStores_launches ..).trans (State.commitList_launches ..)
    · exact State.commitList_launches ..
  · rfl
/-- Whether its threads enter their handler or not, a launch stands as it stood. -/
theorem State.tryTrap_launches (s : State) (b tl : Nat) : (s.tryTrap b tl).launches = s.launches := by
  have hc := s.commitBlock_launches b
  unfold State.tryTrap
  split
  · rfl
  · split
    · split
      · rfl
      · split
        next u hu => rwa [hu] at hc
        next u hu =>
          rw [hu] at hc
          split
          · exact hc
          · split <;> exact hc
    · rfl
theorem State.launch_of_launches {s t : State} (h : t.launches = s.launches) (l : Nat) : t.launch l = s.launch l := by
  simp only [State.launch, h]

/-! ### Traps that fail the launch -/

theorem State.failLaunch_launch {s : State} {n : Nat} {l : Launch} (hl : s.launch n = some l) (h0 : l.outState = 0) (hc : l.cause = 0)
    (cause : Nat) (tw : List DWord) : (s.failLaunch n cause tw).launch n = some { l with cause := cause, outState := 1, tw := tw } := by
  simp only [State.failLaunch, hl, h0, hc, beq_self_eq_true, Bool.and_self, if_true]
  rw [State.launch_of_launches (State.endBlocks_launches ..)]
  exact State.launch_modLaunch_same hl fun _ => rfl

/-- A trap that no handler takes fails the launch (R255): in a handler with DOUBLE_TRAP, unless its cause fails the launch by itself. -/
theorem State.beginTrap_fails {s : State} {b tl : Nat} {k : Block} {l : Launch} {i : TrapInfo} (hk : s.block b = some k)
    (hl : s.launch k.launch = some l) (hc : i.cause ∉ [0x381, 0x382])
    (hf : i.cause ∈ [0x083, 0x084, 0x085, 0x086, 0x380] ∨ (k.thread tl).inHandler = true ∨ l.handler = none) :
    ∃ tw, s.beginTrap b tl i = s.failLaunch k.launch
      (if i.cause ∈ [0x083, 0x084, 0x085, 0x086, 0x380] then i.cause else if (k.thread tl).inHandler then 0x012 else i.cause) tw := by
  simp only [State.beginTrap, hk, hl, if_neg (mt lostCause_iff.mp hc), State.launch_id hl, failsLaunch_iff]
  by_cases h1 : i.cause ∈ [0x083, 0x084, 0x085, 0x086, 0x380]
  · simp only [h1, if_true]
    exact ⟨_, rfl⟩
  · by_cases h2 : (k.thread tl).inHandler = true
    · simp only [h1, h2, if_true, if_false]
      exact ⟨_, rfl⟩
    · have h3 : l.handler.isNone = true := by simpa [h1, h2] using hf
      simp only [h1, h2, h3, if_true, if_false]
      exact ⟨_, rfl⟩

/-! ### A source that an instruction may not read -/

theorem bmod_self {b : Nat} {l : List Block} {k : Block} (hk : l.find? (fun x => x.id == b) = some k) : bmod b (fun _ => k) l = l := by
  induction l with
  | nil => rfl
  | cons a r ih => grind [bmod]
theorem State.setBlock_self {s : State} {k : Block} (hk : s.block k.id = some k) : s.setBlock k = s := by
  simp only [State.setBlock, State.modBlock, bmod_self hk]

/-- A lane of `issueAlu` that alone is active and may not read a source stops, and the instruction does nothing (spec/04_encoding.md R122
step 6). -/
theorem issueAlu_srcStop {i : Instr} {pred : BitVec 3} {pneg : Bool} {f : Env → Thread → Thread} {s : State} {g : Group} {k : Block}
    {p : Nat × Nat} {st : Stop} (he : exec i s = issueAlu i pred pneg f s) (h : Issuing s g k) (ha : activeLanes k g pred pneg = [p])
    (hs : srcStop s k i p.2 = some st) : exec i s = .next (finishInstr s g [(p, st)]) := by
  obtain ⟨r, ho⟩ := opens_of_front h.front
  have hn : aluBlock i s g k [] f = k := by
    simp only [aluBlock, aluThread, List.find?_nil, List.zipIdx_map_fst]
  have hb : s.setBlock k = s := State.setBlock_self (State.block_id h.block ▸ h.block)
  rw [he]
  simp only [issueAlu, ho, h.block, ha, List.filterMap_cons, List.filterMap_nil, hs, Option.map_some, List.filter_cons, List.filter_nil,
    Option.isNone_some, Bool.false_eq_true, if_false, hn, hb]

/-- The registers that IADD reads begin with that of A. -/
theorem iadd_sources {f : FA} (h : f.a ≠ 255) :
    ∃ r, (((Instr.iadd f).operands.filter (·.isSrc)).map (·.regs)).flatten = f.a.toNat :: r := by
  have hlt : f.a.toNat < 255 := Nat.lt_of_le_of_ne (Nat.le_of_lt_succ f.a.isLt) fun e => h (BitVec.eq_of_toNat_eq e)
  have ha : (⟨.reg, .src, f.a, f.la⟩ : Operand).regs = [f.a.toNat] := by simp [Operand.regs, hlt]
  exact ⟨_, congrArg (· ++ _) ha⟩

theorem srcStop_unmapped {s : State} {k : Block} {i : Instr} {tl r : Nat} {rs : List Nat}
    (hr : ((i.operands.filter (·.isSrc)).map (·.regs)).flatten = r :: rs) (hs : s.blockStrict k = true)
    (hu : tget (k.thread tl).regs r = none) : srcStop s k i tl = some (.trap 0x004 0 0 false false) := by
  simp only [srcStop, hr, hs, List.any_cons, hu, Option.isNone_none, Bool.true_or, Bool.and_self, if_true]
  rfl
theorem srcStop_poisoned {s : State} {k : Block} {i : Instr} {tl r : Nat} {rs : List Nat} {v : Word} {x : DWord}
    (hr : ((i.operands.filter (·.isSrc)).map (·.regs)).flatten = r :: rs) (hs : s.blockStrict k = false)
    (hp : tget (k.thread tl).regs r = some ⟨v, some x⟩) : srcStop s k i tl = some (.trap 0x200 0 x false false) := by
  simp only [srcStop, hr, hs, Bool.false_and, Bool.false_eq_true, if_false, List.findSome?_cons, hp, Option.bind_some]
  rfl

/-- Settles O14: a trap begins, and its thread enters the handler at once or its launch has failed; an IADD stops at its first source. -/
theorem trapEntry : Obligations.TrapEntry := by
  refine ⟨fun s b tl k i a hk hl hh hc hin hi hs hn ha hw => ?handler, fun s b tl k l i hk hl h0 hc0 hc hf => ?fails,
    fun f s g k p h ha ha255 hs hu => ?unmapped, fun f s g k p v x h ha ha255 hs hp => ?poisoned⟩
  case handler =>
    obtain ⟨l, n, _, hlaunch, hhandler, _⟩ := id hh
    rw [State.takeTrap, State.beginTrap_handled hk hlaunch (by rw [hhandler]; rfl) hin hc]
    exact State.tryTrap_enters hk hl hh hi hs hn ha hw
  case fails =>
    obtain ⟨tw, ht⟩ := State.beginTrap_fails hk hl hc hf
    refine ⟨{ l with cause := _, outState := 1, tw := tw }, ?_, rfl, rfl⟩
    rw [State.takeTrap, State.launch_of_launches (State.tryTrap_launches ..), ht]
    exact State.failLaunch_launch hl h0 hc0 _ tw
  case unmapped =>
    obtain ⟨r, hr⟩ := iadd_sources ha255
    exact issueAlu_srcStop rfl h ha (srcStop_unmapped hr hs hu)
  case poisoned =>
    obtain ⟨r, hr⟩ := iadd_sources ha255
    exact issueAlu_srcStop rfl h ha (srcStop_poisoned hr hs hp)

end Sys2Proof.Machine
end

section
/-! PROOFS. Instructions of class ALU that compute a value for each lane: how such an instruction is settled by an equation of values, what
the integer arithmetic computes (spec/05_core_integer.md R143, R153 to R155), and the statement about it (O1). -/

namespace Sys2Proof.Machine
open Sys2Proof.Safety

/-! ### Instructions that compute -/

@[simp] theorem Thread.setReg_kill (t : Thread) (r : Nat) (v : Word) : (t.setReg r v).kill = t.kill := by
  unfold Thread.setReg
  split <;> rfl
@[simp] theorem Thread.setReg64_kill (t : Thread) (r : Nat) (v : DWord) : (t.setReg64 r v).kill = t.kill := by
  unfold Thread.setReg64
  split
  · rfl
  · rw [Thread.setReg_kill, Thread.setReg_kill]
@[simp] theorem Thread.setRegs_kill (t : Thread) (r : Nat) (vs : List Word) : (t.setRegs r vs).kill = t.kill := by
  induction vs generalizing t r with
  | nil => rfl
  | cons v vs ih =>
    unfold Thread.setRegs
    split
    · rfl
    · rw [ih, Thread.setReg_kill]
@[simp] theorem Thread.setPred_kill (t : Thread) (n : Nat) (b : Bool) : (t.setPred n b).kill = t.kill := by
  unfold Thread.setPred
  split <;> rfl

/-- Two effects that agree on every lane that may act are the effect of the same instructions. -/
theorem Computes.congr {i : Instr} {pred : BitVec 3} {pneg : Bool} {f g : Env → Thread → Thread} (h : Computes i pred pneg f)
    (he : ∀ s gr k, ∀ p ∈ activeLanes k gr pred pneg, ∀ t, f (laneEnv pred pneg s gr k p) t = g (laneEnv pred pneg s gr k p) t) :
    Computes i pred pneg g := by
  intro s gr k hr
  obtain ⟨t, ht, acted, others, rest⟩ := h s gr k hr
  exact ⟨t, ht, fun p hp => (acted p hp).trans (congrArg stillThread (he s gr k p hp _)), others, rest⟩

/-- An instruction of `issueAlu` whose meaning is the effect stated. -/
theorem computes_of_alu {i : Instr} {pred : BitVec 3} {pneg : Bool} {f g : Env → Thread → Thread}
    (hi : ∀ s, exec i s = issueAlu i pred pneg f s) (he : ∀ e t, f e t = g e t) (hk : ∀ e t, (f e t).kill = t.kill) :
    Computes i pred pneg g :=
  Computes.congr (issueAlu_computes i pred pneg f hi hk) fun _ _ _ _ _ t => he _ t
theorem writesA_of_alu {c : FA → Instr} {v w : FA → Word → Word → Word → Word}
    (hi : ∀ f s, exec (c f) s = alu3 (c f) f (v f) s) (he : ∀ f x y z, v f x y z = w f x y z) : WritesA c w := fun f =>
  computes_of_alu (hi f) (fun _ _ => congrArg _ (he f _ _ _)) fun _ _ => Thread.setReg_kill ..
theorem writesI_of_alu {c : FI → Instr} {v w : FI → Word → Word → Word}
    (hi : ∀ f s, exec (c f) s = aluI (c f) f (v f) s) (he : ∀ f x y, v f x y = w f x y) : WritesI c w := fun f =>
  computes_of_alu (hi f) (fun _ _ => congrArg _ (he f _ _)) fun _ _ => Thread.setReg_kill ..

/-! ### Exact integers in a word (R143, R153, R154) -/

theorem saturate32 (u : Bool) (x : Int) :
    saturate x 32 (!u) = if u then clampTo 0 4294967295 x else clampTo (-2147483648) 2147483647 x := by
  cases u <;> simp only [saturate, clampTo, Bool.not_true, Bool.not_false, if_true, Bool.false_eq_true, if_false] <;> omega
theorem saturate64 (u : Bool) (x : Int) : saturate x 64 (!u) =
    if u then clampTo 0 18446744073709551615 x else clampTo (-9223372036854775808) 9223372036854775807 x := by
  cases u <;> simp only [saturate, clampTo, Bool.not_true, Bool.not_false, if_true, Bool.false_eq_true, if_false] <;> omega
theorem narrow32_eq_fit32 (sat u : Bool) (x : Int) : narrow 32 sat u x = fit32 sat u x := by
  rw [narrow, fit32, saturate32]
  cases sat <;> rfl
theorem narrow64_eq_fit64 (sat u : Bool) (x : Int) : narrow 64 sat u x = fit64 sat u x := by
  rw [narrow, fit64, saturate64]
  cases sat <;> rfl
theorem ofInt_ext32 (u : Bool) (a : Word) : BitVec.ofInt 32 (ext32 u a) = a := by
  cases u
  · exact BitVec.ofInt_toInt
  · exact (BitVec.ofInt_natCast 32 a.toNat).trans (BitVec.ofNat_toNat ..)

/-! ### Minimum, maximum, high product, absolute value and negation (R154, R155) -/

theorem minVal_eq (u : Bool) (a b : Word) : minVal u a b = if asInt u a ≤ asInt u b then a else b := by
  show BitVec.ofInt 32 (min (asInt u a) (asInt u b)) = _
  rw [min_def, apply_ite (BitVec.ofInt 32)]
  exact ite_congr rfl (fun _ => ofInt_ext32 u a) fun _ => ofInt_ext32 u b
theorem maxVal_eq (u : Bool) (a b : Word) : maxVal u a b = if asInt u a ≤ asInt u b then b else a := by
  show BitVec.ofInt 32 (max (asInt u a) (asInt u b)) = _
  rw [max_def, apply_ite (BitVec.ofInt 32)]
  exact ite_congr rfl (fun _ => ofInt_ext32 u b) fun _ => ofInt_ext32 u a
theorem mulhiVal_eq (u : Bool) (a b : Word) : mulhiVal u a b = BitVec.ofInt 32 ((asInt u a * asInt u b).fdiv 4294967296) := by
  rw [Int.fdiv_eq_ediv_of_nonneg _ (by decide)]
  rfl
/-- Saturation changes no value of 32 bits. -/
theorem narrow32_of_fits (sat : Bool) {x : Int} (hl : -2147483648 ≤ x) (hu : x ≤ 2147483647) : narrow 32 sat false x = BitVec.ofInt 32 x := by
  rw [narrow32_eq_fit32, fit32]
  cases sat
  · rfl
  · simp only [clampTo, Bool.not_true, Bool.false_eq_true, if_false, if_neg (not_lt.mpr hl), if_neg (not_lt.mpr hu)]
theorem toInt_eq_min_iff (a : Word) : a.toInt = -2147483648 ↔ a = 0x80000000 :=
  ⟨fun h => BitVec.eq_of_toInt_eq h, fun h => h ▸ rfl⟩
/-- The one word whose negation does not fit is 0x8000_0000. -/
theorem negVal_eq (sat : Bool) (a : Word) : negVal sat a = if sat && a == 0x80000000 then 0x7FFFFFFF else -a := by
  by_cases h : a = 0x80000000
  · subst h
    cases sat <;> decide
  · have hl := BitVec.le_toInt a
    have hu := BitVec.toInt_lt (x := a)
    have hm : a.toInt ≠ -2147483648 := mt (toInt_eq_min_iff a).mp h
    rw [negVal, narrow32_of_fits sat (by omega) (by omega), BitVec.ofInt_neg, BitVec.ofInt_toInt, beq_false_of_ne h, Bool.and_false]
    rfl
theorem absVal_eq (sat : Bool) (a : Word) :
    absVal sat a = if a.msb then (if sat && a == 0x80000000 then 0x7FFFFFFF else -a) else a := by
  have hm := BitVec.msb_eq_toInt (x := a)
  have hu := BitVec.toInt_lt (x := a)
  by_cases h : a.toInt < 0
  · rw [hm, decide_eq_true h, if_pos rfl, ← negVal_eq, negVal, absVal, Int.ofNat_natAbs_of_nonpos h.le]
  · rw [hm, decide_eq_false h, absVal, Int.natAbs_of_nonneg (not_lt.mp h), narrow32_of_fits sat (by omega) (by omega), BitVec.ofInt_toInt]
    rfl

/-- Settles O1: each clause is the value that its instruction computes. -/
theorem integerArithmetic : Obligations.IntegerArithmetic :=
  ⟨writesA_of_alu (v := fun f a b _ => addVal (f.mb 1) (f.mb 0) a b) (fun _ _ => rfl) fun _ _ _ _ => narrow32_eq_fit32 ..,
   writesI_of_alu (v := fun f => addVal (f.mb 1) (f.mb 0)) (fun _ _ => rfl) fun _ _ _ => narrow32_eq_fit32 ..,
   writesA_of_alu (v := fun f a b _ => subVal (f.mb 1) (f.mb 0) a b) (fun _ _ => rfl) fun _ _ _ _ => narrow32_eq_fit32 ..,
   writesI_of_alu (v := fun f => subVal (f.mb 1) (f.mb 0)) (fun _ _ => rfl) fun _ _ _ => narrow32_eq_fit32 ..,
   writesA_of_alu (v := fun f a b _ => mulVal (f.mb 1) (f.mb 0) a b) (fun _ _ => rfl) fun _ _ _ _ => narrow32_eq_fit32 ..,
   writesI_of_alu (v := fun f => mulVal (f.mb 1) (f.mb 0)) (fun _ _ => rfl) fun _ _ _ => narrow32_eq_fit32 ..,
   writesA_of_alu (v := fun f => madVal (f.mb 1) (f.mb 0)) (fun _ _ => rfl) fun _ _ _ _ => narrow32_eq_fit32 ..,
   writesA_of_alu (v := fun f a b _ => mulhiVal (f.mb 0) a b) (fun _ _ => rfl) fun f a b _ => mulhiVal_eq (f.mb 0) a b,
   writesA_of_alu (v := fun f a b _ => minVal (f.mb 0) a b) (fun _ _ => rfl) fun f a b _ => minVal_eq (f.mb 0) a b,
   writesI_of_alu (v := fun f => minVal (f.mb 0)) (fun _ _ => rfl) fun f a b => minVal_eq (f.mb 0) a b,
   writesA_of_alu (v := fun f a b _ => maxVal (f.mb 0) a b) (fun _ _ => rfl) fun f a b _ => maxVal_eq (f.mb 0) a b,
   writesI_of_alu (v := fun f => maxVal (f.mb 0)) (fun _ _ => rfl) fun f a b => maxVal_eq (f.mb 0) a b,
   fun _ => computes_of_alu (fun _ => rfl) (fun _ _ => congrArg _ (narrow64_eq_fit64 ..)) fun _ _ => Thread.setReg64_kill ..,
   fun _ => computes_of_alu (fun _ => rfl) (fun _ _ => congrArg _ (narrow64_eq_fit64 ..)) fun _ _ => Thread.setReg64_kill ..,
   fun _ => computes_of_alu (fun _ => rfl) (fun _ _ => congrArg _ (narrow64_eq_fit64 ..)) fun _ _ => Thread.setReg64_kill ..,
   writesA_of_alu (v := fun f a _ _ => absVal (f.mb 1) a) (fun _ _ => rfl) fun f a _ _ => absVal_eq (f.mb 1) a,
   writesA_of_alu (v := fun f a _ _ => negVal (f.mb 1) a) (fun _ _ => rfl) fun f a _ _ => negVal_eq (f.mb 1) a⟩

end Sys2Proof.Machine
end

section
/-! PROOFS. Words bit by bit, shifts, and fields of bits: the values of the bitwise instructions, the shifts, the bit fields and the byte
permutation (spec/05_core_integer.md R156 to R160), and the statements about them (O2, O3). -/

namespace Sys2Proof.Machine
open Sys2Proof.Safety

/-! ### Words given by their bits -/

theorem getLsbD_foldl_or {α : Type} (g : α → Nat) (p : α → Bool) (l : List α) (w : Word) {i : Nat} (hi : i < 32) :
    (l.foldl (fun w x => if p x then w ||| 1#32 <<< g x else w) w).getLsbD i = (w.getLsbD i || l.any fun x => g x == i && p x) := by
  induction l generalizing w with
  | nil => simp
  | cons x r ih =>
    have hbit : (1#32 <<< g x).getLsbD i = (g x == i) := by
      refine (BitVec.getLsbD_twoPow (g x) i).trans ?_
      by_cases h : g x = i <;> simp [h, hi]
    rw [List.foldl_cons, ih, List.any_cons, ← Bool.or_assoc]
    cases p x <;> simp [hbit]
theorem getLsbD_wordBits (f : Nat → Bool) {i : Nat} (hi : i < 32) : (wordBits f).getLsbD i = f i := by
  rw [wordBits, getLsbD_foldl_or (fun i => i) f _ _ hi, BitVec.ofNat_eq_ofNat, BitVec.getLsbD_zero, Bool.false_or, Bool.eq_iff_iff,
    List.any_eq_true]
  simp [hi]
/-- A word is known by its 32 bits. -/
theorem eq_wordBits {w : Word} {f : Nat → Bool} (h : ∀ i < 32, w.getLsbD i = f i) : w = wordBits f :=
  BitVec.eq_of_getLsbD_eq fun i hi => (h i hi).trans (getLsbD_wordBits f hi).symm

theorem sum_boolBit_lt (f : Nat → Bool) (n : Nat) : ((List.range n).map fun i => boolBit (f i) i).sum < 2 ^ n := by
  induction n with
  | zero => exact Nat.one_pos
  | succ n ih =>
    have hb : boolBit (f n) n ≤ 2 ^ n := by
      unfold boolBit
      split <;> simp
    simp only [List.range_succ, List.map_append, List.sum_append, List.map_cons, List.map_nil, List.sum_cons, List.sum_nil]
    omega
theorem testBit_toNat_bool (b : Bool) (i : Nat) : b.toNat.testBit i = (i == 0 && b) := by
  cases b <;> cases i <;> simp [Nat.testBit_succ]
theorem testBit_sum_boolBit (f : Nat → Bool) (n i : Nat) :
    ((List.range n).map fun i => boolBit (f i) i).sum.testBit i = (decide (i < n) && f i) := by
  induction n with
  | zero => simp
  | succ n ih =>
    have hbit : boolBit (f n) n = 2 ^ n * (f n).toNat := by cases f n <;> simp [boolBit]
    simp only [List.range_succ, List.map_append, List.sum_append, List.map_cons, List.map_nil, List.sum_cons, List.sum_nil, Nat.add_zero]
    rw [Nat.add_comm, hbit, Nat.testBit_two_pow_mul_add _ (sum_boolBit_lt f n), ih, testBit_toNat_bool]
    grind
theorem wordOf_eq_wordBits (f : Nat → Bool) : wordOf f = wordBits f := by
  refine eq_wordBits fun i hi => ?_
  rw [wordOf, BitVec.getLsbD_ofNat, testBit_sum_boolBit]
  simp [hi]
theorem lutBit_eq_testBit (lut : Nat) (a b c : Bool) : lutBit lut a b c = lut.testBit (a.toNat + 2 * b.toNat + 4 * c.toNat) :=
  bit_eq_testBit ..

/-! ### Shifts (R157, R158) -/

theorem shAmount_eq_shiftBy (wrap : Bool) (b : Word) : shAmount wrap b = shiftBy wrap b := by
  unfold shAmount shiftBy
  split
  · rfl
  · rw [min_def]
    split <;> split <;> omega
theorem shiftBy_le (wrap : Bool) (b : Word) : shiftBy wrap b ≤ 32 := by
  unfold shiftBy
  split
  · omega
  · split <;> omega
theorem shlVal_eq (a : Word) (n : Nat) : shlVal a n = a <<< n := by
  refine BitVec.eq_of_toNat_eq ?_
  rw [shlVal, BitVec.toNat_ofNat, BitVec.toNat_shiftLeft, Nat.shiftLeft_eq]
theorem shrVal_eq (a : Word) (n : Nat) : shrVal a n = a >>> n := by
  rw [shrVal, ← Nat.shiftRight_eq_div_pow, ← BitVec.toNat_ushiftRight, BitVec.ofNat_toNat, BitVec.setWidth_eq]
theorem sarVal_eq (a : Word) (n : Nat) : sarVal a n = a.sshiftRight n := by
  rw [sarVal, BitVec.sshiftRight_eq, Int.shiftRight_eq_div_pow]

/-- One word of a pair that is shifted takes its bits from the word itself and from the other. -/
theorem shfVal_eq (left : Bool) (lo hi : Word) {n : Nat} (hn : n ≤ 32) :
    shfVal left lo hi n = if left then hi <<< n ||| lo >>> (32 - n) else lo >>> n ||| hi <<< (32 - n) := by
  cases left
  · refine BitVec.eq_of_getLsbD_eq fun i hi => ?_
    simp only [shfVal, Bool.false_eq_true, if_false, BitVec.getLsbD_extractLsb', BitVec.getLsbD_ushiftRight, BitVec.getLsbD_append,
      BitVec.getLsbD_or, BitVec.getLsbD_shiftLeft]
    grind
  · refine BitVec.eq_of_getLsbD_eq fun i hi => ?_
    simp only [shfVal, if_true, BitVec.getLsbD_extractLsb', BitVec.getLsbD_shiftLeft, BitVec.getLsbD_append,
      BitVec.getLsbD_or, BitVec.getLsbD_ushiftRight]
    grind

/-- Settles O2: each clause is the value that its instruction computes. -/
theorem logicAndShifts : Obligations.LogicAndShifts :=
  ⟨writesA_of_alu (v := fun _ a b _ => a &&& b) (fun _ _ => rfl) fun _ _ _ _ => rfl,
   writesI_of_alu (v := fun _ a b => a &&& b) (fun _ _ => rfl) fun _ _ _ => rfl,
   writesA_of_alu (v := fun _ a b _ => a ||| b) (fun _ _ => rfl) fun _ _ _ _ => rfl,
   writesI_of_alu (v := fun _ a b => a ||| b) (fun _ _ => rfl) fun _ _ _ => rfl,
   writesA_of_alu (v := fun _ a b _ => a ^^^ b) (fun _ _ => rfl) fun _ _ _ _ => rfl,
   writesI_of_alu (v := fun _ a b => a ^^^ b) (fun _ _ => rfl) fun _ _ _ => rfl,
   writesA_of_alu (v := fun _ a _ _ => ~~~a) (fun _ _ => rfl) fun _ _ _ _ => rfl,
   writesA_of_alu (v := fun f => logtVal (f.mf 0 8)) (fun _ _ => rfl) fun f a b c =>
     (wordOf_eq_wordBits _).trans (congrArg wordBits (funext fun _ => lutBit_eq_testBit ..)),
   writesA_of_alu (v := fun f a b _ => shlVal a (shAmount (f.mb 0) b)) (fun _ _ => rfl) fun _ _ _ _ => by
     rw [shAmount_eq_shiftBy, shlVal_eq],
   writesI_of_alu (v := fun f a b => shlVal a (shAmount (f.mb 0) b)) (fun _ _ => rfl) fun _ _ _ => by
     rw [shAmount_eq_shiftBy, shlVal_eq],
   writesA_of_alu (v := fun f a b _ => shrVal a (shAmount (f.mb 0) b)) (fun _ _ => rfl) fun _ _ _ _ => by
     rw [shAmount_eq_shiftBy, shrVal_eq],
   writesI_of_alu (v := fun f a b => shrVal a (shAmount (f.mb 0) b)) (fun _ _ => rfl) fun _ _ _ => by
     rw [shAmount_eq_shiftBy, shrVal_eq],
   writesA_of_alu (v := fun f a b _ => sarVal a (shAmount (f.mb 0) b)) (fun _ _ => rfl) fun _ _ _ _ => by
     rw [shAmount_eq_shiftBy, sarVal_eq],
   writesI_of_alu (v := fun f a b => sarVal a (shAmount (f.mb 0) b)) (fun _ _ => rfl) fun _ _ _ => by
     rw [shAmount_eq_shiftBy, sarVal_eq],
   writesA_of_alu (v := fun f a b c => shfVal (f.mb 0) a b (shAmount (f.mb 1) c)) (fun _ _ => rfl) fun _ _ _ _ => by
     rw [shAmount_eq_shiftBy, shfVal_eq _ _ _ (shiftBy_le ..)]⟩

/-! ### Signed numbers of n bits (R143) -/

/-- The signed value of the low n bits is that of the word of n bits. -/
theorem sext_eq_toInt (v n : Nat) : sext v n = (BitVec.ofNat n v).toInt := by
  rw [sext, bit_eq_testBit, BitVec.toInt_eq_msb_cond, BitVec.toNat_ofNat, BitVec.msb_eq_getLsbD_last, BitVec.getLsbD_ofNat,
    Nat.testBit_mod_two_pow]

/-! ### Bit fields (R159) -/

theorem bfxBit_unsigned (a : Word) (j : Nat) : bfxBit true a j = a.getLsbD j := by
  unfold bfxBit
  grind
/-- The field of the signed word lies in the word shifted arithmetically. -/
theorem getLsbD_sar (a : Word) (pos : Nat) {i : Nat} (hi : i < 32) : (a.sshiftRight pos).getLsbD i = bfxBit false a (pos + i) := by
  rw [BitVec.getLsbD_sshiftRight]
  unfold bfxBit
  grind
theorem bfxVal_eq (u : Bool) (a b : Word) : bfxVal u a b =
    wordBits fun i => decide (0 < min (b.toNat / 256 % 256) 32) &&
      (if i < min (b.toNat / 256 % 256) 32 then bfxBit u a (b.toNat % 256 + i)
       else !u && bfxBit u a (b.toNat % 256 + min (b.toNat / 256 % 256) 32 - 1)) := by
  have hlen : min (b.toNat / 256 % 256) 32 ≤ 32 := min_le_right ..
  simp only [bfxVal]
  generalize b.toNat % 256 = pos
  generalize min (b.toNat / 256 % 256) 32 = len at hlen ⊢
  refine eq_wordBits fun i hi => ?_
  by_cases h0 : len = 0
  · simp [h0]
  have hpos : 0 < len := Nat.pos_of_ne_zero h0
  rw [if_neg (by simpa using h0), decide_eq_true hpos, Bool.true_and]
  cases u
  · have hsar : BitVec.ofInt 32 (ext32 false a / (2 ^ pos : Nat)) = a.sshiftRight pos := sarVal_eq a pos
    have hbit : ∀ j < len, (BitVec.ofNat len (a.sshiftRight pos).toNat).getLsbD j = bfxBit false a (pos + j) := fun j hj => by
      rw [BitVec.getLsbD_ofNat, decide_eq_true hj, Bool.true_and, BitVec.testBit_toNat, getLsbD_sar a pos (by omega)]
    have hsign : (BitVec.ofNat len (a.sshiftRight pos).toNat).msb = bfxBit false a (pos + len - 1) := by
      rw [BitVec.msb_eq_getLsbD_last, hbit _ (by omega), Nat.add_sub_assoc hpos]
    have hext : BitVec.ofInt 32 (sext (a.sshiftRight pos).toNat len) = (BitVec.ofNat len (a.sshiftRight pos).toNat).signExtend 32 := by
      rw [sext_eq_toInt]
      rfl
    rw [if_neg Bool.false_ne_true, hsar, hext, BitVec.getLsbD_signExtend, hsign, decide_eq_true hi, Bool.true_and, Bool.not_false,
      Bool.true_and]
    exact ite_congr rfl (hbit i) fun _ => rfl
  · have hval : ext32 true a / (2 ^ pos : Nat) % (2 ^ len : Nat) = ((a.toNat / 2 ^ pos % 2 ^ len : Nat) : Int) := rfl
    rw [if_pos rfl, hval, BitVec.ofInt_natCast, BitVec.getLsbD_ofNat, Nat.testBit_mod_two_pow, Nat.testBit_div_two_pow,
      BitVec.testBit_toNat, bfxBit_unsigned, Nat.add_comm i pos]
    by_cases hl : i < len <;> simp [hl, hi]
theorem bfiVal_eq (a b c : Word) : bfiVal a b c =
    wordBits fun i => if b.toNat % 256 ≤ i ∧ i < b.toNat % 256 + min (b.toNat / 256 % 256) 32 then a.getLsbD (i - b.toNat % 256)
      else c.getLsbD i := by
  simp only [bfiVal]
  generalize b.toNat % 256 = pos
  generalize min (b.toNat / 256 % 256) 32 = len
  refine eq_wordBits fun i hi => ?_
  have hmask : (BitVec.ofNat 32 ((2 ^ len - 1) * 2 ^ pos)).getLsbD i = decide (pos ≤ i ∧ i < pos + len) := by
    rw [BitVec.getLsbD_ofNat, Nat.testBit_mul_two_pow, Nat.testBit_two_pow_sub_one]
    grind
  have hfield : (BitVec.ofNat 32 (a.toNat * 2 ^ pos)).getLsbD i = (decide (pos ≤ i) && a.getLsbD (i - pos)) := by
    rw [BitVec.getLsbD_ofNat, Nat.testBit_mul_two_pow, BitVec.testBit_toNat]
    grind
  rw [BitVec.getLsbD_or, BitVec.getLsbD_and, BitVec.getLsbD_and, BitVec.getLsbD_not, hmask, hfield]
  by_cases h : pos ≤ i ∧ i < pos + len
  · simp [h]
  · simp [h, hi]

/-! ### Counts, order and bytes (R160) -/

theorem length_filter_eq_sum {α : Type} (p : α → Bool) (l : List α) : (l.filter p).length = (l.map fun x => (p x).toNat).sum := by
  induction l with
  | nil => rfl
  | cons x r ih => cases h : p x <;> simp [h, ih, Nat.add_comm]
/-- The highest set bit, searched from bit n down. -/
theorem clzAuxRec_eq_find (a : Word) {n : Nat} (hn : n ≤ 31) : a.clzAuxRec n =
    BitVec.ofNat 32 (((List.range (n + 1)).find? fun i => a.getLsbD (n - i)).elim 32 (31 - n + ·)) := by
  induction n with
  | zero =>
    rw [BitVec.clzAuxRec_zero, List.range_one, List.find?_cons]
    cases a.getLsbD (0 - 0) <;> rfl
  | succ n ih =>
    have hstep : ((fun i => a.getLsbD (n + 1 - i)) ∘ Nat.succ) = fun i => a.getLsbD (n - i) :=
      funext fun i => congrArg a.getLsbD (Nat.succ_sub_succ n i)
    rw [BitVec.clzAuxRec_succ, List.range_succ_eq_map, List.find?_cons, ih (by omega), List.find?_map, hstep, Nat.sub_zero]
    cases a.getLsbD (n + 1)
    · cases (List.range (n + 1)).find? fun i => a.getLsbD (n - i) with
      | none => rfl
      | some i =>
        show BitVec.ofNat 32 (31 - n + i) = BitVec.ofNat 32 (31 - (n + 1) + (i + 1))
        congr 1
        omega
    · rfl
theorem clzVal_eq (a : Word) : BitVec.ofNat 32 (clzVal a) = a.clz := by
  rw [BitVec.clz, clzAuxRec_eq_find a (Nat.le_refl 31), clzVal]
  cases (List.range 32).find? fun i => a.getLsbD (31 - i) with
  | none => rfl
  | some i => exact congrArg (BitVec.ofNat 32) (Nat.zero_add i).symm
theorem getLsbD_reverse32 (a : Word) {i : Nat} (hi : i < 32) : a.reverse.getLsbD i = a.getLsbD (31 - i) := by
  rw [BitVec.getLsbD_reverse, BitVec.getMsbD_eq_getLsbD, decide_eq_true hi, Bool.true_and]
theorem ctzVal_eq (a : Word) : ctzVal a = clzVal a.reverse := by
  have hbit : ∀ i ∈ List.range 32, a.getLsbD i = a.reverse.getLsbD (31 - i) := fun i hi => by
    have := List.mem_range.mp hi
    rw [getLsbD_reverse32 a (by omega), Nat.sub_sub_self (by omega)]
  rw [ctzVal, clzVal, List.find?_congr hbit]
theorem brevVal_eq (a : Word) : brevVal a = a.reverse :=
  (wordOf_eq_wordBits _).trans (eq_wordBits fun _ hi => getLsbD_reverse32 a hi).symm
/-- A byte as PRMB computes it. -/
theorem permByte_toNat (a b : Word) (n : Nat) :
    (permByte a b n).toNat =
      if 8 ≤ n then (if 128 ≤ (b.toNat * 2 ^ 32 + a.toNat) / 2 ^ (8 * (n % 8)) % 256 then 255 else 0)
      else (b.toNat * 2 ^ 32 + a.toNat) / 2 ^ (8 * (n % 8)) % 256 := by
  have hbyte : ((b ++ a).extractLsb' (8 * (n % 8)) 8).toNat = (b.toNat * 2 ^ 32 + a.toNat) / 2 ^ (8 * (n % 8)) % 256 := by
    rw [BitVec.extractLsb'_toNat, toNat_append_add, Nat.shiftRight_eq_div_pow]
  simp only [permByte, ← hbyte]
  split
  · rw [BitVec.msb_eq_decide]
    simp only [decide_eq_true_eq]
    split <;> rfl
  · rfl
theorem prmbVal_eq (a b c : Word) : prmbVal a b c =
    permByte a b (c.toNat / 4096 % 16) ++ permByte a b (c.toNat / 256 % 16) ++ permByte a b (c.toNat / 16 % 16) ++
      permByte a b (c.toNat % 16) := by
  have hsel (i : Nat) : bits c.toNat (4 * i + 3) (4 * i) = c.toNat / 16 ^ i % 16 := by
    rw [bits, Nat.pow_mul, Nat.add_sub_cancel_left]
    rfl
  have hbytes : prmbVal a b c =
      BitVec.ofNat 32 ((List.range 4).map fun i => (permByte a b (c.toNat / 16 ^ i % 16)).toNat * 2 ^ (8 * i)).sum := by
    simp only [prmbVal, permByte_toNat, hsel]
  refine BitVec.eq_of_toNat_eq ?_
  rw [hbytes, BitVec.toNat_ofNat, toNat_append_add, toNat_append_add, toNat_append_add]
  generalize permByte a b = byte
  simp only [List.range_succ, List.range_zero, List.nil_append, List.map_append, List.map_cons, List.map_nil, List.sum_append, List.sum_cons,
    List.sum_nil, Nat.reducePow, Nat.reduceMul, Nat.div_one]
  omega

/-- Settles O3: each clause is the value that its instruction computes. -/
theorem fieldsAndBits : Obligations.FieldsAndBits :=
  ⟨writesA_of_alu (v := fun f a b _ => bfxVal (f.mb 0) a b) (fun _ _ => rfl) fun f a b _ => bfxVal_eq (f.mb 0) a b,
   writesA_of_alu (v := fun _ => bfiVal) (fun _ _ => rfl) fun _ a b c => bfiVal_eq a b c,
   writesA_of_alu (v := fun _ a _ _ => BitVec.ofNat 32 (popcVal a)) (fun _ _ => rfl) fun _ a _ _ =>
     congrArg (BitVec.ofNat 32) (length_filter_eq_sum a.getLsbD _),
   writesA_of_alu (v := fun _ a _ _ => BitVec.ofNat 32 (clzVal a)) (fun _ _ => rfl) fun _ a _ _ => clzVal_eq a,
   writesA_of_alu (v := fun _ a _ _ => BitVec.ofNat 32 (ctzVal a)) (fun _ _ => rfl) fun _ a _ _ => by rw [ctzVal_eq, clzVal_eq],
   writesA_of_alu (v := fun _ a _ _ => brevVal a) (fun _ _ => rfl) fun _ a _ _ => brevVal_eq a,
   writesA_of_alu (v := fun _ => prmbVal) (fun _ _ => rfl) fun _ a b c => prmbVal_eq a b c⟩

end Sys2Proof.Machine
end

section
/-! PROOFS. Compares, predicates, moves, addresses and conversions between integer types (spec/05_core_integer.md R151, R161 to R166), and
the statements about them (O4, O5). -/

namespace Sys2Proof.Machine
open Sys2Proof.Safety

/-! ### Compares and predicates (R151, R161 to R163) -/

theorem toNat_beq {n : Nat} (a b : BitVec n) : (a.toNat == b.toNat) = (a == b) := by
  rw [Bool.eq_iff_iff, beq_iff_eq, beq_iff_eq, BitVec.toNat_inj]
theorem cmpInt_eq_related {n : Nat} (c : Nat) (a b : BitVec n) : cmpInt c a.toInt b.toInt a.toNat b.toNat = related c a b :=
  match c with
  | 0 => toNat_beq a b
  | 1 => congrArg not (toNat_beq a b)
  | 2 | 3 | 4 | 5 | 6 | 7 | 8 | _ + 9 => rfl
theorem boolOp_eq_combine (bop : Nat) (r c : Bool) : boolOp bop r c = combine bop r c :=
  match bop with
  | 0 | 1 | 2 => rfl
  | _ + 3 => by cases r <;> cases c <;> rfl
theorem Thread.predField_eq (t : Thread) (f : BitVec 8) : t.predField f = (t.pred (f.toNat % 8) ^^ f.getLsbD 3) :=
  congrFun (congrFun Bool.bne_eq_xor _) _
theorem setCmpA_eq {n : Nat} (f : FA) (e : Env) (t : Thread) (c : Nat) (a b : BitVec n) :
    setCmpA f e t (cmpInt c a.toInt b.toInt a.toNat b.toNat) =
      t.setPred (f.d.toNat % 8) (combine (f.mf 0 2) (related c a b) (e.th.pred (f.mf 2 3) ^^ f.mb 5)) := by
  rw [setCmpA, boolOp_eq_combine, cmpInt_eq_related, Bool.bne_eq_xor]
theorem setCmpI_eq {n : Nat} (f : FI) (e : Env) (t : Thread) (c : Nat) (a b : BitVec n) :
    setCmpI f e t (cmpInt c a.toInt b.toInt a.toNat b.toNat) =
      t.setPred (f.d.toNat % 8) (combine (f.md.toNat % 4) (related c a b) (e.th.pred (f.d.toNat % 8) ^^ f.mb 2)) := by
  rw [setCmpI, boolOp_eq_combine, cmpInt_eq_related, Bool.bne_eq_xor]

/-- The write of the predicates that a mask selects, one after another. -/
def setPreds (m : Nat) (v : Nat → Bool) (n : Nat) (t : Thread) : Thread :=
  (List.range n).foldl (fun t i => if m.testBit i then t.setPred i (v i) else t) t
theorem setPreds_succ (m : Nat) (v : Nat → Bool) (n : Nat) (t : Thread) : setPreds m v (n + 1) t =
    if m.testBit n then (setPreds m v n t).setPred n (v n) else setPreds m v n t := by
  simp only [setPreds, List.range_succ, List.foldl_append, List.foldl_cons, List.foldl_nil]
theorem setPreds_frame (m : Nat) (v : Nat → Bool) (n : Nat) (t : Thread) : { setPreds m v n t with preds := t.preds } = t := by
  induction n with
  | zero => rfl
  | succ n ih =>
    rw [setPreds_succ]
    refine Eq.trans ?_ ih
    split
    · unfold Thread.setPred
      split <;> rfl
    · rfl
theorem setPreds_pred (m : Nat) (v : Nat → Bool) {n : Nat} (hn : n ≤ 7) (t : Thread) (j : Nat) :
    (setPreds m v n t).pred j = if j < n ∧ m.testBit j then v j else t.pred j := by
  induction n with
  | zero => rfl
  | succ n ih =>
    rw [setPreds_succ]
    split
    · rw [Thread.pred_setPred _ _ _ (by omega), ih (by omega)]
      grind
    · rw [ih (by omega)]
      grind
theorem Thread.getLsbD_preds (t : Thread) {j : Nat} (hj : j < 7) : t.preds.getLsbD j = t.pred j := by
  rw [Thread.pred, if_neg (by omega)]
/-- PSET writes the selected predicates at once. -/
theorem setPreds_eq (m : Nat) (a : Word) (t : Thread) : setPreds m a.getLsbD 7 t =
    { t with preds := (t.preds &&& ~~~BitVec.ofNat 7 m) ||| (a.setWidth 7 &&& BitVec.ofNat 7 m) } := by
  have hbits : (setPreds m a.getLsbD 7 t).preds = (t.preds &&& ~~~BitVec.ofNat 7 m) ||| (a.setWidth 7 &&& BitVec.ofNat 7 m) := by
    refine BitVec.eq_of_getLsbD_eq fun j hj => ?_
    rw [Thread.getLsbD_preds _ hj, setPreds_pred _ _ (Nat.le_refl 7), ← t.getLsbD_preds hj]
    simp only [BitVec.getLsbD_or, BitVec.getLsbD_and, BitVec.getLsbD_not, BitVec.getLsbD_ofNat, BitVec.getLsbD_setWidth]
    cases h : m.testBit j <;> simp [hj]
  rw [← hbits]
  exact congrArg (fun u : Thread => { u with preds := (setPreds m a.getLsbD 7 t).preds }) (setPreds_frame m a.getLsbD 7 t)

/-- Settles O4: each clause is the value that its instruction computes, or the predicates that PSET writes. -/
theorem comparesAndPredicates : Obligations.ComparesAndPredicates :=
  ⟨fun f => computes_of_alu (fun _ => rfl) (fun e t => setCmpA_eq f e t ..) fun _ _ => Thread.setPred_kill ..,
   fun f => computes_of_alu (fun _ => rfl) (fun e t => setCmpI_eq f e t ..) fun _ _ => Thread.setPred_kill ..,
   fun f => computes_of_alu (fun _ => rfl) (fun e t => setCmpA_eq f e t ..) fun _ _ => Thread.setPred_kill ..,
   fun f => computes_of_alu (fun _ => rfl) (fun e t => by rw [Thread.predField_eq]) fun _ _ => Thread.setReg_kill ..,
   fun f => computes_of_alu (fun _ => rfl) (fun e t => by simp only [Thread.predField_eq, lutBit_eq_testBit])
     fun _ _ => Thread.setPred_kill ..,
   fun f h => computes_of_alu (fun _ => rfl) (fun e t => by rw [h]; rfl) fun _ _ => by rw [h]; exact Thread.setReg_kill ..,
   fun f h => computes_of_alu (fun _ => rfl) (fun e t => by rw [h]; exact (setPreds_eq ..).symm) fun _ _ => by rw [h]; rfl⟩

/-! ### Addresses (R165) -/

theorem ofInt_ext32_64 (u : Bool) (b : Word) : BitVec.ofInt 64 (ext32 u b) = if u then b.setWidth 64 else b.signExtend 64 := by
  cases u
  · rfl
  · exact (BitVec.ofInt_natCast 64 b.toNat).trans (BitVec.ofNat_toNat ..)
theorem ofInt_mul_two_pow (w : Nat) (x : Int) (n : Nat) : BitVec.ofInt w (x * (2 ^ n : Nat)) = BitVec.ofInt w x <<< n := by
  rw [BitVec.ofInt_mul, BitVec.ofInt_natCast, BitVec.shiftLeft_eq_mul_twoPow]
  congr 1
  refine BitVec.eq_of_toNat_eq ?_
  rw [BitVec.toNat_ofNat, BitVec.toNat_twoPow]

/-! ### Integer types (R166) -/

theorem setWidth_ofInt {m n : Nat} (h : n ≤ m) (x : Int) : (BitVec.ofInt m x).setWidth n = BitVec.ofInt n x := by
  have hd : ((2 ^ n : Nat) : Int) ∣ (2 ^ m : Nat) := Int.natCast_dvd_natCast.mpr (Nat.pow_dvd_pow 2 h)
  have hm : (0 : Int) < (2 ^ m : Nat) := Int.natCast_pos.mpr (Nat.two_pow_pos m)
  refine BitVec.eq_of_toNat_eq (Int.ofNat_inj.mp ?_)
  rw [BitVec.toNat_setWidth, BitVec.toNat_ofInt, BitVec.toNat_ofInt, Int.natCast_mod, Int.toNat_of_nonneg (Int.emod_nonneg _ hm.ne'),
    Int.emod_emod_of_dvd _ hd, Int.toNat_of_nonneg (Int.emod_nonneg _ (Int.natCast_pos.mpr (Nat.two_pow_pos n)).ne')]
/-- The types of R166 by number: signed of 8 to 64 bits, then unsigned. -/
theorem typeCode_cases {ty : Nat} (h : ty < 8) : ty = 0 ∨ ty = 1 ∨ ty = 2 ∨ ty = 3 ∨ ty = 4 ∨ ty = 5 ∨ ty = 6 ∨ ty = 7 := by omega
theorem intWidth_le (ty : Nat) : intWidth ty ≤ 64 := by
  have : 2 ^ (ty % 4) ≤ 2 ^ 3 := Nat.pow_le_pow_right (by decide) (by omega)
  unfold intWidth
  omega
theorem saturate_eq_typedClamp {ty : Nat} (h : ty < 8) (x : Int) : saturate x (intWidth ty) (decide (ty < 4)) = typedClamp ty x := by
  rcases typeCode_cases h with rfl | rfl | rfl | rfl | rfl | rfl | rfl | rfl <;>
    simp [saturate, intWidth, typedClamp, clampTo] <;> omega
theorem intOf_eq_typed {ty : Nat} (h : ty < 8) (v : DWord) : intOf ty v.toNat = typed ty v := by
  have hv : (v.toNat : Int) % 18446744073709551616 = v.toNat := Int.emod_eq_of_lt (by omega) (by have := v.isLt; omega)
  rcases typeCode_cases h with rfl | rfl | rfl | rfl | rfl | rfl | rfl | rfl <;>
    simp [intOf, intWidth, typed, sext_eq_toInt, hv]
theorem intSrc_eq_typedSrc {ty : Nat} (h : ty < 8) (e : Env) (a : BitVec 8) : e.intSrc a ty = typedSrc e a ty := by
  have hsrc : (if intWidth ty == 64 then (e.r64 a).toNat else (e.r a).toNat) =
      (if ty % 4 = 3 then e.r64 a else (e.r a).setWidth 64).toNat := by
    rcases typeCode_cases h with rfl | rfl | rfl | rfl | rfl | rfl | rfl | rfl <;> simp [intWidth] <;> omega
  rw [Env.intSrc, hsrc, intOf_eq_typed h, typedSrc]
/-- A result lies in the low half of its pair as the word of its type, extended by the type's sign. -/
theorem intReg_eq (ty : Nat) (x : Int) : intReg ty x =
    if ty < 4 then (BitVec.ofInt (intWidth ty) x).signExtend 64 else (BitVec.ofInt (intWidth ty) x).setWidth 64 := by
  rw [intReg, apply_ite (BitVec.ofInt 64), sext_eq_toInt, BitVec.ofNat_toNat, ← BitVec.toNat_setWidth, BitVec.ofInt_natCast,
    BitVec.ofNat_toNat, setWidth_ofInt (intWidth_le ty)]
  rfl
theorem intReg_low (ty : Nat) (x : Int) : (intReg ty x).setWidth 32 =
    if ty < 4 then (BitVec.ofInt (intWidth ty) x).signExtend 32 else (BitVec.ofInt (intWidth ty) x).setWidth 32 := by
  rw [intReg_eq, apply_ite (BitVec.setWidth 32), BitVec.setWidth_setWidth_of_le _ (by decide)]
  exact ite_congr rfl (fun _ => setWidth_ofInt (by decide) _) fun _ => rfl
theorem setInt_eq_putTyped {ty : Nat} (h : ty < 8) (t : Thread) (d : BitVec 8) (x : Int) : setInt t d ty x = putTyped t d ty x := by
  rw [setInt, intReg_low, intReg_eq]
  rcases typeCode_cases h with rfl | rfl | rfl | rfl | rfl | rfl | rfl | rfl <;> simp [intWidth, putTyped]
@[simp] theorem setInt_kill (t : Thread) (d : BitVec 8) (ty : Nat) (x : Int) : (setInt t d ty x).kill = t.kill := by
  unfold setInt
  split
  · exact Thread.setReg64_kill ..
  · exact Thread.setReg_kill ..

/-- Settles O5: each clause is the value that its instruction computes. -/
theorem movesAndAddresses : Obligations.MovesAndAddresses :=
  ⟨fun f => computes_of_alu (fun _ => rfl) (fun _ _ => rfl) fun _ _ => rfl,
   fun f h => computes_of_alu (fun _ => rfl) (fun e t => by rw [h]; rfl) fun _ _ => by rw [h]; exact Thread.setReg_kill ..,
   fun f h => computes_of_alu (fun _ => rfl) (fun e t => by rw [h]; rfl) fun _ _ => by rw [h]; exact Thread.setReg64_kill ..,
   writesI_of_alu (v := fun _ _ b => b) (fun _ _ => rfl) fun _ _ _ => rfl,
   fun f => computes_of_alu (fun _ => rfl) (fun _ _ => rfl) fun _ _ => Thread.setReg_kill ..,
   fun f h => computes_of_alu (fun _ => rfl) (fun e t => by rw [h]; exact congrArg (fun x => t.setReg _ (_ + x)) (shlVal_eq ..))
     fun _ _ => by rw [h]; exact Thread.setReg_kill ..,
   fun f h => computes_of_alu (fun _ => rfl) (fun e t => by
       simp only [h, if_true, ofInt_mul_two_pow, ofInt_ext32_64]
       cases f.mb 3 <;> rfl)
     fun _ _ => by rw [h]; exact Thread.setReg64_kill ..,
   fun f h => computes_of_alu (fun _ => rfl) (fun e t => by rw [h]; rfl) fun _ _ => by rw [h]; exact Thread.setReg_kill ..,
   fun f h => computes_of_alu (fun _ => rfl) (fun e t => by rw [h]; rfl) fun _ _ => by rw [h]; exact Thread.setReg64_kill ..,
   fun f hs hd => computes_of_alu (fun _ => rfl) (fun e t => by
       simp only [setInt_eq_putTyped hd, saturate_eq_typedClamp hd, intSrc_eq_typedSrc hs])
     fun _ _ => setInt_kill ..⟩

end Sys2Proof.Machine
end

section
/-! PROOFS. Group operations, system registers and the clock (spec/05_core_integer.md R145 to R148, R173 to R176), and the statement about
them (O6). -/

namespace Sys2Proof.Machine
open Sys2Proof.Safety

/-! ### Masks of positions (R145, R174) -/

theorem getLsbD_laneMask (l : List (Nat × Nat)) {i : Nat} (hi : i < 32) : (laneMask l).getLsbD i = l.any fun p => p.1 == i := by
  have h := getLsbD_foldl_or (fun p : Nat × Nat => p.1) (fun _ => true) l 0 hi
  simp only [if_true, Bool.and_true, BitVec.ofNat_eq_ofNat, BitVec.getLsbD_zero, Bool.false_or] at h
  exact h
theorem laneMask_eq_posMask (l : List (Nat × Nat)) : laneMask l = posMask l := eq_wordBits fun _ hi => getLsbD_laneMask l hi
theorem laneMask_filter (l : List (Nat × Nat)) (v : Nat × Nat → Bool) :
    laneMask (l.filter v) = wordBits fun n => l.any fun p => p.1 == n && v p := by
  refine eq_wordBits fun i hi => ?_
  rw [getLsbD_laneMask _ hi, List.any_filter]
  simp only [Bool.and_comm]

/-! ### GPOLL (R174) -/

theorem all_or_none (l : List (Nat × Nat)) (v : Nat × Nat → Bool) : (l.all v || !l.any v) = decide (∃ b, ∀ p ∈ l, v p = b) := by
  rw [Bool.eq_iff_iff, decide_eq_true_eq, Bool.exists_bool, Bool.or_eq_true, Bool.not_eq_true', List.any_eq_false, List.all_eq_true, or_comm]
  simp only [Bool.not_eq_true]

/-! ### GXCH (R175) -/

theorem width_eq (n : Nat) : 32 / 2 ^ n = 32 >>> n := (Nat.shiftRight_eq_div_pow 32 n).symm
/-- The source position as an integer. -/
def gxchSrc (mode w i b : Nat) : Int :=
  if mode = 0 then ((i / w * w + b % w : Nat) : Int) else if mode = 1 then (i : Int) - b
  else if mode = 2 then (i : Int) + b else ((i / w * w + ((i % w) ^^^ (b % w)) : Nat) : Int)
theorem gxchPos_eq (mode w i b : Nat) : gxchPos mode w i b =
    if ((i / w * w : Nat) : Int) ≤ gxchSrc mode w i b ∧ gxchSrc mode w i b < (i / w * w : Nat) + w then some (gxchSrc mode w i b).toNat else none := by
  have hb : i - i % w = i / w * w := by
    have := Nat.div_add_mod' i w
    omega
  unfold gxchPos gxchSrc
  simp only [hb]
  match mode with
  | 0 | 1 | 2 | _ + 3 => rfl
/-- The participant at the source position, if that lies in the segment. -/
theorem gxch_source (parts : List (Nat × Nat)) (mode w i b : Nat) :
    ((gxchPos mode w i b).bind fun n => parts.find? fun p => p.1 == n) =
      parts.find? fun p => decide ((p.1 : Int) = gxchSrc mode w i b ∧ i / w * w ≤ p.1 ∧ p.1 < i / w * w + w) := by
  rw [gxchPos_eq]
  generalize i / w * w = base
  generalize gxchSrc mode w i b = src
  split
  · rw [Option.bind_some]
    refine List.find?_congr fun p _ => ?_
    rw [Bool.eq_iff_iff, beq_iff_eq, decide_eq_true_eq]
    omega
  · refine (List.find?_eq_none.mpr fun p _ => ?_).symm
    rw [decide_eq_true_eq]
    omega

/-! ### GPEER (R176) -/

/-- All participants are alike just when as many are alike as take part. -/
theorem length_filter_beq (l : List (Nat × Nat)) (v : Nat × Nat → Bool) :
    ((l.filter v).length == l.length) = decide (∀ p ∈ l, v p = true) := by
  rw [Bool.eq_iff_iff, beq_iff_eq, List.length_filter_eq_length_iff, decide_eq_true_eq]

/-- A lane that reads what thread tl holds is like that thread. -/
def peerVal (wide : Bool) (e : Env) (a tl : Nat) : DWord :=
  if wide then (e.k.thread tl).reg64 e.ctr tl a else ((e.k.thread tl).reg e.ctr tl a).setWidth 64
theorem peerVal_beq {e : Env} (he : e.th = e.k.thread e.tl) (wide : Bool) (a tl : Nat) : (peerVal wide e a tl == peerVal wide e a e.tl) =
    decide (if wide then (e.k.thread tl).reg64 e.ctr tl a = e.th.reg64 e.ctr e.tl a
      else (e.k.thread tl).reg e.ctr tl a = e.th.reg e.ctr e.tl a) := by
  rw [Bool.eq_iff_iff, beq_iff_eq, decide_eq_true_eq, he]
  unfold peerVal
  cases wide
  · rw [if_neg Bool.false_ne_true, if_neg Bool.false_ne_true, if_neg Bool.false_ne_true]
    exact ⟨fun h => by simpa using congrArg (BitVec.setWidth 32) h, congrArg _⟩
  · exact Iff.rfl
/-- With ALL the mask is given only if every participant is alike. -/
theorem gpeer_eq {e : Env} (he : e.th = e.k.thread e.tl) (all wide : Bool) (a : Nat) :
    let like := fun (tl : Nat) => if wide then (e.k.thread tl).reg64 e.ctr tl a = e.th.reg64 e.ctr e.tl a
      else (e.k.thread tl).reg e.ctr tl a = e.th.reg e.ctr e.tl a
    let m := e.parts.filter fun p => peerVal wide e a p.2 == peerVal wide e a e.tl
    (if all then (if m.length == e.parts.length then laneMask m else 0) else laneMask m) =
      if all && !decide (∀ p ∈ e.parts, like p.2) then 0 else posMask (e.parts.filter fun p => decide (like p.2)) := by
  simp only [peerVal_beq he, length_filter_beq, laneMask_eq_posMask, decide_eq_true_eq]
  cases all
  · rfl
  · simp only [if_true, Bool.true_and, Bool.not_eq_true', decide_eq_false_iff_not, ite_not]

/-! ### System registers (R145 to R147) -/

theorem coreIdWord_eq (m : DieMap) (c : CoreRef) : coreIdWord m c =
    BitVec.ofNat 32 ((((((c.die % 16 * 16 + m.row c % 16) * 16 + m.col c % 16) * 32 + m.quad c % 32) * 16 + m.mrow c % 16) * 128 +
      m.mcol c % 128) * 16) := by
  refine BitVec.eq_of_toNat_eq ?_
  simp only [coreIdWord, toNat_append_add, BitVec.toNat_ofNat, BitVec.ofNat_eq_ofNat]
  omega
theorem prioWord_eq (t : Thread) :
    prioWord t = BitVec.ofNat 32 ((t.lprio.toNat * 2 + t.boost.isSome.toNat) * 128 + t.iprio.toNat) := by
  have hl := t.lprio.isLt
  have hi := t.iprio.isLt
  have hb := t.boost.isSome.toNat_le
  refine BitVec.eq_of_toNat_eq ?_
  simp only [prioWord, toNat_append_add, BitVec.toNat_ofNat, BitVec.ofNat_eq_ofNat, BitVec.toNat_ofBool]
  omega
/-- The system registers in the order of their indexes. -/
def sysRegs (e : Env) : List Word :=
  let n := fun (x : Nat) => BitVec.ofNat 32 x
  let k := e.k
  [n e.pos, posMask e.g.lanes, n (e.tl % k.nx), n (e.tl / k.nx % k.ny), n (e.tl / (k.nx * k.ny)), n e.tl, n k.nx, n k.ny, n k.nz,
    n k.num, n k.nblk,
    n ((((((k.core.die % 16 * 16 + e.s0.dieMap.row k.core % 16) * 16 + e.s0.dieMap.col k.core % 16) * 32 +
      e.s0.dieMap.quad k.core % 32) * 16 + e.s0.dieMap.mrow k.core % 16) * 128 + e.s0.dieMap.mcol k.core % 128) * 16),
    e.g.pass,
    n ((e.th.lprio.toNat * 2 + e.th.boost.isSome.toNat) * 128 + e.th.iprio.toNat),
    n k.launch, n k.ctx, n k.stage, n ((e.s0.ctx k.ctx).map (·.fixed) == some true).toNat,
    n (((e.s0.launch k.launch).map (·.profile)).getD 0)]
theorem fixedWord_eq (s : State) (k : Block) :
    (if s.blockFixed k then 1 else 0 : Word) = BitVec.ofNat 32 ((s.ctx k.ctx).map (·.fixed) == some true).toNat := by
  unfold State.blockFixed
  cases (s.ctx k.ctx).map (·.fixed) with
  | none => rfl
  | some b => cases b <;> rfl
theorem sysReg_eq (e : Env) (n : Nat) : e.sysReg n = (sysRegs e).getD n 0 :=
  match n with
  | 0x01 => laneMask_eq_posMask _
  | 0x0B => coreIdWord_eq _ _
  | 0x0D => prioWord_eq _
  | 0x11 => fixedWord_eq _ _
  | 0x12 => by
    show (match e.s0.launch e.k.launch with
      | some l => BitVec.ofNat 32 l.profile
      | none => 0) = BitVec.ofNat 32 (((e.s0.launch e.k.launch).map (·.profile)).getD 0)
    cases e.s0.launch e.k.launch <;> rfl
  | 0 | 2 | 3 | 4 | 5 | 6 | 7 | 8 | 9 | 0x0A | 0x0C | 0x0E | 0x0F | 0x10 | _ + 19 => rfl

/-- Settles O6: what each instruction reads of the participants, and the system registers one by one. -/
theorem groupsAndSystemRegisters : Obligations.GroupsAndSystemRegisters := by
  refine ⟨fun f => ?gpoll, fun f hseg => ?gxch, fun f => ?gpeer, fun f => ?cyc, fun f => ?srd⟩
  case gpoll =>
    refine computes_of_alu (fun _ => rfl) (fun e t => ?_) fun e t => ?_
    · simp only [Thread.predField_eq, laneMask_filter, all_or_none]
      match f.mf 0 2 with
      | 0 | 1 | 2 | _ + 3 => rfl
    · dsimp only
      split
      · exact Thread.setReg_kill ..
      all_goals exact Thread.setPred_kill ..
  case gxch =>
    refine computes_of_alu (fun _ => rfl) (fun e t => ?_) fun _ _ => Thread.setReg_kill ..
    simp only [gxch_source, width_eq]
    rfl
  case gpeer =>
    refine Computes.congr (issueAlu_computes _ _ _ _ (fun _ => rfl) fun _ _ => Thread.setReg_kill ..) fun s g k p hp t => ?_
    exact congrArg (t.setReg _) (gpeer_eq rfl (f.mb 0) (f.mb 1) f.a.toNat)
  case cyc =>
    refine computes_of_alu (fun _ => rfl) (fun e t => ?_) fun _ _ => Thread.setReg64_kill ..
    rw [apply_ite (BitVec.ofNat 64)]
  case srd => exact computes_of_alu (fun _ => rfl) (fun e t => congrArg _ (sysReg_eq e _)) fun _ _ => Thread.setReg_kill ..

end Sys2Proof.Machine
end

section
/-! PROOFS. Branches, calls and returns (spec/05_core_integer.md R168, R169): what the check of an indirect target finds, where a direct branch
leaves the lanes of its group, and the statement about them (O12). -/

namespace Sys2Proof.Machine
open Sys2Proof.Safety

/-! ### The check of an indirect target (R168) -/

/-- What the check of an aligned target finds by the word that its fetch gives. -/
def targetOf : Option (Except Nat DWord) → Target
  | none => .wait
  | some (.error _) => .ok
  | some (.ok w) => if isHeader w then .ok else .illegal
section
variable {s : State} {k : Block} {a : DWord}
theorem State.target_of_fetched (ha : a.toNat % 8 = 0) : (s.target k a).1 = targetOf (fetchedAt s k a) := by
  unfold State.target fetchedAt
  rw [if_neg (by simp [ha])]
  generalize s.fetchWord k.core k.ctx (((s.launch k.launch).map (·.reloc)).getD []) a = x
  obtain ⟨_ | _ | w, u⟩ := x <;> rfl
theorem State.target_good (h : goodTarget s k a) : s.target k a = (.ok, afterTarget s k a) := by
  obtain ⟨ha, r, hf, hw⟩ := h
  refine Prod.ext ((State.target_of_fetched ha).trans ?_) rfl
  rw [hf]
  cases r with
  | error c => rfl
  | ok w => exact if_pos (isHeader_iff.mpr (hw w rfl))
theorem State.target_bad (h : badTarget s k a) : s.target k a = (.illegal, afterTarget s k a) := by
  refine Prod.ext ?_ rfl
  by_cases ha : a.toNat % 8 = 0
  · obtain ⟨w, hf, hw⟩ := h.resolve_left (not_not_intro ha)
    rw [State.target_of_fetched ha, hf]
    exact if_neg (mt isHeader_iff.mp hw)
  · unfold State.target
    rw [if_pos (by simpa using ha)]
theorem State.target_waiting (h : waitingTarget s k a) : s.target k a = (.wait, afterTarget s k a) :=
  Prod.ext ((State.target_of_fetched h.1).trans (congrArg targetOf h.2)) rfl
end

section
variable {e : Env} {s : State} {a : DWord} (f : Thread → Thread)
theorem Env.jump_good (h : goodTarget s e.k a) : e.jump s a f = (e.upd (afterTarget s e.k a) fun t => { f t with pc := a }, none) := by
  simp only [Env.jump, State.target_good h]
theorem Env.jump_bad (h : badTarget s e.k a) : e.jump s a f = (afterTarget s e.k a, some (.trap 0x005 0 a false false)) := by
  simp only [Env.jump, State.target_bad h]
  rfl
theorem Env.jump_waiting (h : waitingTarget s e.k a) : e.jump s a f = (afterTarget s e.k a, some .hold) := by
  simp only [Env.jump, State.target_waiting h]
end

/-! ### Direct branches -/

theorem branchTarget_eq (hdr : DWord) (off : BitVec 32) : branchTarget hdr off = hdr + 8 * off.signExtend 64 := by
  rw [branchTarget, BitVec.ofInt_mul]
  rfl
/-- An instruction of `issueAlu` changes its block, and its group goes on. -/
theorem exec_of_alu {i : Instr} {pred : BitVec 3} {pneg : Bool} {f : Env → Thread → Thread} {s : State} {g : Group} {k : Block}
    (h : Ready i pred pneg s g k) (he : ∀ s, exec i s = issueAlu i pred pneg f s) :
    exec i s = .next (finishInstr (s.setBlock (aluBlock i s g k (activeLanes k g pred pneg) f)) g []) := by
  obtain ⟨rest, ho⟩ := opens_of_front h.front
  have hs := srcStop_filter h
  rw [he]
  simp only [issueAlu, ho, h.block, hs.1, hs.2]

theorem freeLast_bra (f : FB) (t : Thread) : freeLast (.bra f) t = t := rfl
section
variable (f : FB) (s : State) (g : Group) (k : Block)
/-- The block that a BRA leaves. -/
def braBlock : Block := aluBlock (.bra f) s g k (activeLanes k g f.pred f.pneg) fun e t => { t with pc := branchTarget e.g.hdr f.off }
variable {f s g k} (h : Ready (.bra f) f.pred f.pneg s g k)
include h
theorem exec_bra : exec (.bra f) s = .next (finishInstr (s.setBlock (braBlock f s g k)) g []) := exec_of_alu h fun _ => rfl
theorem block_setBlock_braBlock : (s.setBlock (braBlock f s g k)).block g.blk = some (braBlock f s g k) := by
  have hid : k.id = g.blk := State.block_id h.block
  rw [← hid]
  exact State.block_setBlock_same (k := braBlock f s g k) (j := k) (hid ▸ h.block)
/-- Of a lane whose guard is true the program counter changes, and nothing else of the block. -/
theorem braBlock_thread {p : Nat × Nat} (hp : p ∈ g.lanes) : (braBlock f s g k).thread p.2 =
    if p ∈ activeLanes k g f.pred f.pneg then { k.thread p.2 with pc := branchTarget g.hdr f.off } else k.thread p.2 := by
  rw [braBlock, thread_aluBlock _ _ _ _ _ _ _ (h.inBlock p hp), aluThread]
  by_cases ha : p ∈ activeLanes k g f.pred f.pneg
  · have hn : ((activeLanes k g f.pred f.pneg).map (·.2)).Nodup := h.once.sublist (List.filter_sublist.map _)
    rw [find_lane hn ha, if_pos ha]
    rfl
  · have hf : (activeLanes k g f.pred f.pneg).find? (fun q => q.2 == p.2) = none := List.find?_eq_none.mpr fun q hq e => ha ?_
    · rw [hf, if_neg ha]
    · have : q = p := List.inj_on_of_nodup_map h.once (mem_lanes hq) hp (by simpa using e)
      exact this ▸ hq
theorem braBlock_issuing {p : Nat × Nat} (hp : p ∈ g.lanes) : p.2 < (braBlock f s g k).threads.length ∧
    ((braBlock f s g k).thread p.2).status = .issuing ∧ ((braBlock f s g k).thread p.2).kill = false := by
  refine ⟨by simpa [braBlock, aluBlock] using h.inBlock p hp, ?_⟩
  rw [braBlock_thread h hp]
  split <;> exact ⟨h.issuing p hp, h.unkilled p hp⟩
/-- A thread that issues is the same but for where it stands. -/
theorem stillBlock_braBlock : stillBlock (braBlock f s g k) = stillBlock k := by
  have hthreads : (braBlock f s g k).threads.map stillThread = k.threads.map stillThread := by
    refine List.ext_getElem? fun n => ?_
    rw [braBlock, aluBlock, List.getElem?_map, List.getElem?_map, List.getElem?_map, List.getElem?_zipIdx]
    cases ht : k.threads[n]? with
    | none => rfl
    | some t =>
      have htn : k.thread n = t := by rw [Block.thread, lget_eq_getElem?, ht, Option.getD_some]
      simp only [Option.map_some, aluThread, Nat.zero_add]
      split
      · rename_i p hp
        obtain rfl : p.2 = n := by simpa using List.find?_some hp
        have hs : t.status = .issuing := htn ▸ h.issuing p (mem_lanes (List.mem_of_find?_eq_some hp))
        exact congrArg some (by simp only [stillThread, hs, freeLast_bra])
      · rfl
  simp only [stillBlock, hthreads]
  rfl
end

/-- Settles O12: the target's check, the lanes of a direct branch, and each instruction by what the check finds. -/
theorem branches : Obligations.Branches := by
  refine ⟨fun f s g k h hl => ?bra, fun s b k tls g ws idx slot x hk hn hx hlt => ?opened, fun f => ?brx, fun f => ?ret, fun f hd => ?direct,
    fun f hi => ?indirect, fun f => ?brxBad, fun f => ?retBad, fun f hi => ?callBad, fun f => ?brxWaits, fun f => ?retWaits,
    fun f hi => ?callWaits⟩
  case bra =>
    have hb := block_setBlock_braBlock h
    refine ⟨_, exec_bra h, ?_, fun p hp => ?_⟩
    · refine (still_finishInstr _ g fun p hp _ => ?_).trans (still_modBlock s _ _ fun j hj => ?_)
      · rw [State.thread_of_block hb]
        exact (braBlock_issuing h hp).2.2
      · obtain rfl : k = j := Option.some.inj (h.block.symm.trans (State.block_id h.block ▸ hj))
        exact stillBlock_braBlock h
    · obtain ⟨rest, ho⟩ := opens_of_front h.front
      obtain ⟨_, _, ends⟩ := instructionEnds (s.setBlock (braBlock f s g k)) g _ rest ho hb (fun p hp => braBlock_issuing h hp) h.once
        (List.ne_nil_of_mem hp)
      have stands := (ends (by simpa [Group.isLast] using hl)).2 p hp
      rwa [braBlock_thread h hp, branchTarget_eq, apply_ite Thread.pc] at stands
  case opened =>
    obtain ⟨n, hn', hx⟩ := List.mem_iff_getElem.mp hx
    rw [State.openGroup_thread hk tls _ _ _ _ _ hn (n := n) (by rw [lget_eq_getElem?, List.getElem?_eq_getElem hn', hx]) hlt]
    rfl
  case brx => exact completes_of_issue (fun _ => rfl) fun e s h => Env.jump_good id h
  case ret => exact completes_of_issue (fun _ => rfl) fun e s h => Env.jump_good id h
  case direct =>
    refine completes_of_issue (fun _ => rfl) fun e s _ => ?_
    simp only [hd, branchTarget_eq, Bool.false_eq_true, if_false]
    rfl
  case indirect =>
    refine completes_of_issue (fun _ => rfl) fun e s h => ?_
    simp only [hi, if_true, Env.jump_good _ h]
    rfl
  case brxBad => exact stopsOne_issue (fun e s h => Env.jump_bad id h) (fun _ _ _ _ _ _ _ => nofun) fun _ => rfl
  case retBad => exact stopsOne_issue (fun e s h => Env.jump_bad id h) (fun _ _ _ _ _ _ _ => nofun) fun _ => rfl
  case callBad =>
    refine stopsOne_issue (fun e s h => ?_) (fun _ _ _ _ _ _ _ => nofun) fun _ => rfl
    simp only [hi, if_true, Env.jump_bad _ h]
  case brxWaits => exact stopsOne_issue (fun e s h => Env.jump_waiting id h) (fun _ _ _ _ _ _ _ => nofun) fun _ => rfl
  case retWaits => exact stopsOne_issue (fun e s h => Env.jump_waiting id h) (fun _ _ _ _ _ _ _ => nofun) fun _ => rfl
  case callWaits =>
    refine stopsOne_issue (fun e s h => ?_) (fun _ _ _ _ _ _ _ => nofun) fun _ => rfl
    simp only [hi, if_true, Env.jump_waiting _ h]

end Sys2Proof.Machine
end

section
/-! PROOFS. Priorities, the device's words, translation queries and the virtual-cache instructions (spec/10_distributor.md R283, R284;
spec/17_translation.md R433 to R436; spec/18_cache.md R450 to R453, R462; spec/22_host.md R524), and the statement about them (O26). -/

namespace Sys2Proof.Machine
open Sys2Proof.Safety

/-! ### Priorities and the timing mode (R283, R284) -/

/-- The priority asked for, at most the launch's. -/
theorem cappedPrio_eq (v cap : BitVec 7) : (if v.toNat < cap.toNat then v else cap) = BitVec.ofNat 7 (min v.toNat cap.toNat) := by
  have hv := v.isLt
  have hc := cap.isLt
  refine BitVec.eq_of_toNat_eq ?_
  rw [BitVec.toNat_ofNat, apply_ite BitVec.toNat, min_def]
  split <;> split <;> omega
theorem setprio_computes (f : FI) : Computes (.setprio f) f.pred f.pneg fun e t =>
    let v := if f.md.getLsbD 0 then (e.r f.a).toNat % 128 else f.imm.toNat % 128
    { t with lprioNew := some (BitVec.ofNat 7 (min v (((e.s0.launch e.k.launch).map fun l => l.prio.toNat).getD 0))) } := by
  refine computes_of_alu (fun _ => rfl) (fun e t => ?_) fun _ _ => rfl
  have hv : (if f.md.getLsbD 0 then (e.r f.a).extractLsb' 0 7 else f.imm.extractLsb' 0 7 : BitVec 7).toNat =
      if f.md.getLsbD 0 then (e.r f.a).toNat % 128 else f.imm.toNat % 128 := by
    split <;> simp
  have hc : (((e.s0.launch e.k.launch).map (·.prio)).getD 0 : BitVec 7).toNat =
      ((e.s0.launch e.k.launch).map fun l => l.prio.toNat).getD 0 := by
    cases e.s0.launch e.k.launch <;> rfl
  dsimp only
  rw [← hv, ← hc, ← cappedPrio_eq]
theorem Thread.nextPrio_eq (t : Thread) :
    t.nextPrio = max (t.lprioNew.getD t.lprio).toNat (((t.boostNew.or t.boost).map (·.toNat)).getD 0) := by
  have hor : (t.boostNew.orElse fun _ => t.boost) = t.boostNew.or t.boost := by cases t.boostNew <;> rfl
  simp only [Thread.nextPrio, Thread.bounded, Thread.iprio, hor]
  cases t.boostNew.or t.boost with
  | none => exact (Nat.max_zero _).symm
  | some b =>
    simp only [Option.map_some, Option.getD_some, max_def, apply_ite BitVec.toNat]
    split <;> split <;> omega
theorem timingWord_eq (pin fixed : Bool) :
    (BitVec.ofNat 16 (if pin then 2100 else 2500) ++ (0 : BitVec 14) ++ BitVec.ofBool pin ++ BitVec.ofBool fixed : Word) =
      BitVec.ofNat 32 ((if pin then 2100 else 2500) * 2 ^ 16 + pin.toNat * 2 + fixed.toNat) := by
  revert pin fixed
  decide

/-! ### Feature words (R524) -/

theorem State.featWord_low {s : State} {k : Block} {c : Ctx} {n : Nat} (hc : s.ctx k.ctx = some c) (hn : n ≤ 4) :
    s.featWord k n = (lget c.floor n).getD 0 := by
  unfold State.featWord
  rw [if_pos hn, hc]
  rfl
theorem State.featWord_reserved (s : State) (k : Block) {n : Nat} (hn : (5 ≤ n ∧ n ≤ 15) ∨ 20 < n) : s.featWord k n = 0 := by
  rw [State.featWord, if_neg (by omega)] <;> omega

/-! ### XLDEC (R433) -/

theorem ciushCause_eq (w p : Nat) : ciushCause w p = (if ciushBad w then 0x3FF
    else if (w / 2 ^ 56 % 256 = 0x1B ∨ w / 2 ^ 56 % 256 = 0x1C) ∧ p ≠ 1 then 0x280
    else if w / 2 ^ 56 % 256 = 0x3F then 0x2C0 + w % 64 else 0) := by
  simp [ciushCause, bits, cCompatProfile, cCompatTitle]

/-- A row's length and number of temporaries, where it gives them, fit the fields of XLDEC's first word. -/
def CRow.fits (r : CRow) : Bool := r.len.all (· < 64) && r.temps.all (· < 16)
theorem all_ite {α : Type} {p : α → Bool} {c : Prop} [Decidable c] {x y : Option α} (hx : x.all p = true) (hy : y.all p = true) :
    (if c then x else y).all p = true := by
  split
  · exact hx
  · exact hy
theorem ciushRow_fits (op : Nat) : (ciushRow op).all CRow.fits = true := by
  unfold ciushRow
  repeat' refine all_ite ?_ ?_
  all_goals rfl
theorem getD_lt {o : Option Nat} {n x : Nat} (h : o.all (· < n) = true) (hx : x < n) : o.getD x < n := by
  cases o with
  | none => exact hx
  | some y => simpa using h
theorem ciushSize_fits (w : Nat) {len temps : Nat} (hl : len < 64) (ht : temps < 16) :
    (ciushSize w).1.getD len < 64 ∧ (ciushSize w).2.getD temps < 16 := by
  suffices h : (ciushSize w).1.all (· < 64) = true ∧ (ciushSize w).2.all (· < 16) = true from ⟨getD_lt h.1 hl, getD_lt h.2 ht⟩
  have hrow := ciushRow_fits (bits w 63 56)
  simp only [ciushSize]
  split
  · exact ⟨rfl, rfl⟩
  · split
    · exact ⟨rfl, rfl⟩
    · cases hr : ciushRow (bits w 63 56) with
      | none => exact ⟨rfl, rfl⟩
      | some r => simpa [hr, CRow.fits] using hrow
theorem ciushCause_lt (w p : Nat) : ciushCause w p < 2 ^ 10 := by
  have : w % 64 < 64 := Nat.mod_lt w (by decide)
  rw [ciushCause_eq]
  split
  · decide
  · split
    · decide
    · split <;> omega
theorem xldecWords_fields (w p x : Nat) : ∃ a b c d : Word, xldecWords w p x = [a, b, c, d] ∧ a.toNat / 2 ^ 20 = w / 2 ^ 52 % 2 ^ 12 ∧
    a.toNat % 2 ^ 10 = ciushCause w p % 2 ^ 10 ∧ b.toNat = w / 2 ^ 48 % 2 ^ 4 * 2 ^ 28 + w / 2 ^ 28 % 2 ^ 10 * 2 ^ 16 + w / 2 ^ 38 % 2 ^ 10 ∧
    c.toNat = w / 2 ^ 8 % 2 ^ 10 * 2 ^ 16 + w / 2 ^ 18 % 2 ^ 10 ∧ d.toNat = w % 2 ^ 32 := by
  have hc := ciushCause_lt w p
  obtain ⟨hl, ht⟩ := ciushSize_fits w (len := bits x 5 0) (temps := bits x 9 6) (Nat.mod_lt _ (by decide)) (Nat.mod_lt _ (by decide))
  refine ⟨_, _, _, _, rfl, ?_, ?_, ?_, ?_, BitVec.toNat_ofNat ..⟩
  · rw [BitVec.toNat_ofNat]
    generalize (ciushSize w).1.getD (bits x 5 0) = len at *
    generalize (ciushSize w).2.getD (bits x 9 6) = temps at *
    simp only [bits]
    omega
  · rw [BitVec.toNat_ofNat]
    omega
  · rw [BitVec.toNat_ofNat]
    simp only [bits]
    omega
  · rw [BitVec.toNat_ofNat]
    simp only [bits]
    omega

/-! ### The PC map (R435, R436) -/

theorem memTrap_precedes (c : Nat) (wr : Bool) (w : BitVec 3) (p : DWord) : (memTrap c wr w p).Precedes := by
  intro _ _ _ _
  unfold memTrap
  split <;> exact nofun
theorem Env.mapRead_precedes {e : Env} {l : Launch} {s : State} {va : DWord} {n : Nat} {st : Stop} (h : (e.mapRead l s va n).1 = .error st) :
    st.Precedes := by
  unfold Env.mapRead at h
  split at h
  · exact Except.error.inj h ▸ memTrap_precedes _ _ _ _
  · split at h
    · exact Except.error.inj h ▸ memTrap_precedes _ _ _ _
    · exact Except.error.inj h ▸ precedes_park _ _
    · split at h
      · exact Except.error.inj h ▸ fun _ _ _ _ => nofun
      · cases h
    · exact Except.error.inj h ▸ memTrap_precedes _ _ _ _
/-- What a scan answers at its end: the last entry at or below the word, if there is one. -/
def scanEnd (best : Option (Nat × Nat)) (p : Option DWord) : MapRes :=
  match best with
  | some x => (x.2, 0, p)
  | none => (0xFFFFFFFF, 1, p)
/-- One entry of a scan: it cannot be read, it is malformed, it lies above the word, or the scan goes on. -/
theorem Env.mapScan_succ (e : Env) (l : Launch) (nci w n i : Nat) (best : Option (Nat × Nat)) (p : Option DWord) (s : State) :
    (∃ st, (e.mapRead l s (l.data + BitVec.ofNat 64 (16 + 8 * i)) 8).1 = .error st ∧ (e.mapScan l nci w (n + 1) i best p s).1 = .error st) ∨
    (∃ q, (e.mapScan l nci w (n + 1) i best p s).1 = .ok (0xFFFFFFFF, 2, q)) ∨
    (∃ q, (e.mapScan l nci w (n + 1) i best p s).1 = .ok (scanEnd best q)) ∨
    ∃ b q u, e.mapScan l nci w (n + 1) i best p s = e.mapScan l nci w n (i + 1) b q u := by
  simp only [Env.mapScan]
  generalize e.mapRead l s (l.data + BitVec.ofNat 64 (16 + 8 * i)) 8 = r
  obtain ⟨st | ⟨v, q⟩, u⟩ := r
  · exact .inl ⟨st, rfl, rfl⟩
  · cases best <;> dsimp only
    all_goals
      split
      · exact .inr (.inl ⟨_, rfl⟩)
      · split
        · exact .inr (.inr (.inl ⟨_, rfl⟩))
        · exact .inr (.inr (.inr ⟨_, _, _, rfl⟩))
/-- What a lookup answers: an index, or 0xFFFF_FFFF and why there is none. -/
def MapAnswer (r : MapRes) : Prop := r.2.1 ≤ 2 ∧ (r.2.1 ≠ 0 → r.1 = 0xFFFFFFFF)
theorem mapAnswer_none {n : Nat} (h : n ≤ 2) (p : Option DWord) : MapAnswer (0xFFFFFFFF, n, p) := ⟨h, fun _ => rfl⟩
theorem mapAnswer_scanEnd (best : Option (Nat × Nat)) (p : Option DWord) : MapAnswer (scanEnd best p) := by
  cases best with
  | none => exact mapAnswer_none (by decide) p
  | some x => exact ⟨Nat.zero_le 2, fun h => absurd rfl h⟩
/-- A scan stops before the instruction, or it answers. -/
theorem Env.mapScan_result (e : Env) (l : Launch) (nci w n i : Nat) (best : Option (Nat × Nat)) (p : Option DWord) (s : State) :
    (∃ st, (e.mapScan l nci w n i best p s).1 = .error st ∧ st.Precedes) ∨ ∃ r, (e.mapScan l nci w n i best p s).1 = .ok r ∧ MapAnswer r := by
  induction n generalizing i best p s with
  | zero => exact .inr ⟨_, rfl, mapAnswer_scanEnd best p⟩
  | succ n ih =>
    rcases e.mapScan_succ l nci w n i best p s with ⟨st, hr, h⟩ | ⟨q, h⟩ | ⟨q, h⟩ | ⟨b, q, u, h⟩
    · exact .inl ⟨st, h, Env.mapRead_precedes hr⟩
    · exact .inr ⟨_, h, mapAnswer_none (by decide) q⟩
    · exact .inr ⟨_, h, mapAnswer_scanEnd best q⟩
    · rw [h]
      exact ih ..
/-- An address that a lookup takes: a word of the launch's text (R435). -/
def InText (e : Env) (s : State) (x : DWord) : Prop :=
  ∃ l, s.launch e.k.launch = some l ∧ x.toNat % 8 = 0 ∧ l.text.toNat ≤ x.toNat ∧ (x - l.text).toNat < 8 * l.textWords
/-- A lookup stops before the instruction, or it answers, and with an index only for a word of the text. -/
theorem Env.mapLookup_result (e : Env) (s : State) (x : DWord) : (∃ st, (e.mapLookup s x).1 = .error st ∧ st.Precedes) ∨
    ∃ r, (e.mapLookup s x).1 = .ok r ∧ MapAnswer r ∧ (r.2.1 = 0 → InText e s x) := by
  have none_found {n : Nat} (h : 0 < n ∧ n ≤ 2) (p : Option DWord) : ∃ r : MapRes, Except.ok (ε := Stop) (0xFFFFFFFF, n, p) = .ok r ∧
      MapAnswer r ∧ (r.2.1 = 0 → InText e s x) := ⟨_, rfl, mapAnswer_none h.2 p, fun h0 => absurd h0 h.1.ne'⟩
  unfold Env.mapLookup
  cases hl : s.launch e.k.launch with
  | none => exact .inr (none_found (by decide) _)
  | some l =>
    dsimp only
    generalize hr : e.mapRead l s l.data 16 = r
    obtain ⟨st | ⟨v, p⟩, u⟩ := r
    · exact .inl ⟨st, rfl, Env.mapRead_precedes (congrArg Prod.fst hr)⟩
    · dsimp only
      split
      · exact .inr (none_found (by decide) _)
      · split
        · exact .inr (none_found (by decide) _)
        · rename_i hx
          have htext : InText e s x := ⟨l, hl, by simpa [and_assoc] using hx⟩
          exact (e.mapScan_result ..).imp_right fun ⟨r, h, ha⟩ => ⟨r, h, ha, fun _ => htext⟩
theorem Env.mapLookup_precedes {e : Env} {s : State} {x : DWord} {st : Stop} (h : (e.mapLookup s x).1 = .error st) : st.Precedes := by
  rcases e.mapLookup_result s x with ⟨st', h', hp⟩ | ⟨r, h', _⟩
  · exact Except.error.inj (h'.symm.trans h) ▸ hp
  · cases h.symm.trans h'
theorem Env.mapLookup_answers {e : Env} {s : State} {x : DWord} {r : MapRes} (h : (e.mapLookup s x).1 = .ok r) :
    MapAnswer r ∧ (r.2.1 = 0 → InText e s x) := by
  rcases e.mapLookup_result s x with ⟨st, h', _⟩ | ⟨r', h', ha⟩
  · cases h.symm.trans h'
  · exact Except.ok.inj (h'.symm.trans h) ▸ ha

/-- A lookup lands what it found, under the slot. -/
theorem xlmap_completes (f : FA) : Completes (.xlmap f) f.pred f.pneg (some f.sbs.toNat)
    (fun e s => ∃ a b p, (e.mapLookup s (e.r64 f.a)).1 = .ok (a, b, p)) fun e s =>
      match e.mapLookup s (e.r64 f.a) with
      | (.ok (a, b, p), u) => newOp e u f.sbs.toNat (destRegs f.d 8) (some [BitVec.ofNat 32 a, BitVec.ofNat 32 b]) p false none
      | (.error _, u) => u := by
  refine completes_of_issue (fun _ => rfl) fun e s h => ?_
  generalize e.mapLookup s (e.r64 f.a) = r at h ⊢
  obtain ⟨st | ⟨a, b, p⟩, u⟩ := r
  · obtain ⟨_, _, _, h⟩ := h
    cases h
  · rfl
theorem xlmap_stops (f : FA) (st : Stop) : StopsOne (.xlmap f) f.pred f.pneg (some f.sbs.toNat)
    (fun e s => (e.mapLookup s (e.r64 f.a)).1 = .error st) (fun _ _ => st) fun e s => (e.mapLookup s (e.r64 f.a)).2 := by
  refine stopsOne_issue (fun e s h => ?_) (fun e s h => Env.mapLookup_precedes h) fun _ => rfl
  generalize e.mapLookup s (e.r64 f.a) = r at h ⊢
  obtain ⟨_, u⟩ := r
  subst h
  rfl
theorem xlmapRaise_traps (f : FA) : StopsOne (.xlmapRaise f) f.pred f.pneg none
    (fun e s => ∃ a b p, (e.mapLookup s e.iaddr).1 = .ok (a, b, p))
    (fun e s => .trap (0x280 + f.mf 1 7) (match (e.mapLookup s e.iaddr).1 with
      | .ok (a, _, _) => BitVec.ofNat 32 a
      | .error _ => 0) 0 false false) fun e s => (e.mapLookup s e.iaddr).2 := by
  refine stopsOne_issue (fun e s h => ?_) (fun _ _ _ _ _ _ _ => nofun) fun _ => rfl
  generalize e.mapLookup s e.iaddr = r at h ⊢
  obtain ⟨x, u⟩ := r
  obtain ⟨a, b, p, rfl⟩ := h
  rfl
theorem xlmapRaise_stops (f : FA) (st : Stop) : StopsOne (.xlmapRaise f) f.pred f.pneg none
    (fun e s => (e.mapLookup s e.iaddr).1 = .error st) (fun _ _ => st) fun e s => (e.mapLookup s e.iaddr).2 := by
  refine stopsOne_issue (fun e s h => ?_) (fun e s h => Env.mapLookup_precedes h) fun _ => rfl
  generalize e.mapLookup s e.iaddr = r at h ⊢
  obtain ⟨_, u⟩ := r
  subst h
  rfl

/-! ### Commands to the virtual caches (R450 to R453, R462) -/

theorem vcIndex_of_soft {e : Env} {f : FA} (h : softVc (e.opB f)) : e.vcIndex f = some (e.opB f).toNat := by
  obtain ⟨hl, hu⟩ := h
  simp [Env.vcIndex, hl, hu]
theorem vcIndex_of_not_soft {e : Env} {f : FA} (h : ¬ softVc (e.opB f)) : e.vcIndex f = none := by
  simpa [Env.vcIndex, softVc, and_comm] using h
theorem Env.readRecord_precedes {e : Env} {s : State} {p : DWord} {n al : Nat} {st : Stop} (h : (e.readRecord s p n al).1 = .error st) :
    st.Precedes := by
  unfold Env.readRecord at h
  dsimp only at h
  split at h
  · exact Except.error.inj h ▸ memTrap_precedes _ _ _ _
  · split at h
    · exact Except.error.inj h ▸ memTrap_precedes _ _ _ _
    · exact Except.error.inj h ▸ precedes_park _ _
    · split at h
      · exact Except.error.inj h ▸ fun _ _ _ _ => nofun
      · cases h
    · exact Except.error.inj h ▸ memTrap_precedes _ _ _ _

section
variable (f : FA)
theorem vcdef_completes : Completes (.vcdef f) f.pred f.pneg (some f.sbs.toNat)
    (fun e s => softVc (e.opB f) ∧ ∃ ws, reads64 e s (e.r64 f.a) ws ∧ (e.readRecord s (e.r64 f.a) 64 64).2.dieMap.cdrBad ws = false)
    fun e s =>
      let r := e.readRecord s (e.r64 f.a) 64 64
      let w := fun i => match r.1 with
        | .ok bs => BitVec.ofNat 64 ((lget (words64 bs) i).getD 0)
        | .error _ => 0
      commands e r.2 f (.define (e.opB f).toNat (w 0) (w 1)) := by
  refine completes_of_issue (fun _ => rfl) fun e s ⟨hi, ws, ⟨bs, hr, hw⟩, hc⟩ => ?_
  simp only [vcIndex_of_soft hi]
  generalize e.readRecord s (e.r64 f.a) 64 64 = r at hr hc ⊢
  obtain ⟨_, u⟩ := r
  subst hr hw
  simp only [hc, Bool.false_eq_true, if_false]
  rfl
theorem vcdef_traps : StopsOne (.vcdef f) f.pred f.pneg (some f.sbs.toNat)
    (fun e s => softVc (e.opB f) ∧ ∃ ws, reads64 e s (e.r64 f.a) ws ∧ (e.readRecord s (e.r64 f.a) 64 64).2.dieMap.cdrBad ws = true)
    (fun _ _ => .trap 0x090 0 0 false false) fun e s => (e.readRecord s (e.r64 f.a) 64 64).2 := by
  refine stopsOne_issue (fun e s ⟨hi, ws, ⟨bs, hr, hw⟩, hc⟩ => ?_) (fun _ _ _ _ _ _ _ => nofun) fun _ => rfl
  simp only [vcIndex_of_soft hi]
  generalize e.readRecord s (e.r64 f.a) 64 64 = r at hr hc ⊢
  obtain ⟨_, u⟩ := r
  subst hr hw
  simp only [hc, if_true]
  rfl
theorem vcdef_stops (st : Stop) : StopsOne (.vcdef f) f.pred f.pneg (some f.sbs.toNat)
    (fun e s => softVc (e.opB f) ∧ (e.readRecord s (e.r64 f.a) 64 64).1 = .error st)
    (fun _ _ => st) fun e s => (e.readRecord s (e.r64 f.a) 64 64).2 := by
  refine stopsOne_issue (fun e s ⟨hi, hr⟩ => ?_) (fun e s h => Env.readRecord_precedes h.2) fun _ => rfl
  simp only [vcIndex_of_soft hi]
  generalize e.readRecord s (e.r64 f.a) 64 64 = r at hr ⊢
  obtain ⟨_, u⟩ := r
  subst hr
  rfl
theorem vcsize_completes : Completes (.vcsize f) f.pred f.pneg (some f.sbs.toNat)
    (fun e s => softVc (e.opB f) ∧
      let v := s.vcEntry e.k.ctx (e.opB f).toNat
      (v.v = true → s.dieMap.countsBad v.w0.toNat v.w1.toNat (e.r f.a).toNat (e.r f.c).toNat = false))
    fun e s => commands e s f (.resize (e.opB f).toNat (e.r f.a).toNat (e.r f.c).toNat) := by
  refine completes_of_issue (fun _ => rfl) fun e s ⟨hi, hc⟩ => ?_
  simp only [vcIndex_of_soft hi]
  rw [if_neg fun h => ?_]
  · rfl
  · obtain ⟨hv, hb⟩ := Bool.and_eq_true_iff.mp h
    exact Bool.false_ne_true ((hc hv).symm.trans hb)
theorem vcsize_traps : StopsOne (.vcsize f) f.pred f.pneg (some f.sbs.toNat)
    (fun e s => softVc (e.opB f) ∧
      let v := s.vcEntry e.k.ctx (e.opB f).toNat
      v.v = true ∧ s.dieMap.countsBad v.w0.toNat v.w1.toNat (e.r f.a).toNat (e.r f.c).toNat = true)
    (fun _ _ => .trap 0x090 0 0 false false) fun _ s => s := by
  refine stopsOne_issue (fun e s ⟨hi, hv, hb⟩ => ?_) (fun _ _ _ _ _ _ _ => nofun) fun _ => rfl
  simp only [vcIndex_of_soft hi]
  exact if_pos (Bool.and_eq_true_iff.mpr ⟨hv, hb⟩)
theorem vcmove_completes : Completes (.vcmove f) f.pred f.pneg (some f.sbs.toNat)
    (fun e s => softVc (e.opB f) ∧ s.dieMap.placeBad (s.vcEntry e.k.ctx (e.opB f).toNat).w0.toNat (e.r64 f.a).toNat = false)
    fun e s => commands e s f (.move (e.opB f).toNat (e.r64 f.a) (f.md.getLsbD 0)) := by
  refine completes_of_issue (fun _ => rfl) fun e s ⟨hi, hb⟩ => ?_
  simp only [vcIndex_of_soft hi, hb]
  rfl
theorem vcmove_traps : StopsOne (.vcmove f) f.pred f.pneg (some f.sbs.toNat)
    (fun e s => softVc (e.opB f) ∧ s.dieMap.placeBad (s.vcEntry e.k.ctx (e.opB f).toNat).w0.toNat (e.r64 f.a).toNat = true)
    (fun _ _ => .trap 0x090 0 0 false false) fun _ s => s := by
  refine stopsOne_issue (fun e s ⟨hi, hb⟩ => ?_) (fun _ _ _ _ _ _ _ => nofun) fun _ => rfl
  simp only [vcIndex_of_soft hi, hb]
  rfl
theorem vcflush_completes : Completes (.vcflush f) f.pred f.pneg (some f.sbs.toNat) (fun e _ => softVc (e.opB f))
    fun e s => commands e s f (.flush (e.opB f).toNat (f.md.toNat % 4)) := by
  refine completes_of_issue (fun _ => rfl) fun e s hi => ?_
  simp only [vcIndex_of_soft hi]
  rfl
/-- Each of the four instructions traps first on an index that is no software VC. -/
theorem vcIndex_traps : ∀ c ∈ [Instr.vcdef, .vcsize, .vcmove, .vcflush], StopsOne (c f) f.pred f.pneg (some f.sbs.toNat)
    (fun e _ => ¬ softVc (e.opB f)) (fun _ _ => .trap 0x090 0 0 false false) fun _ s => s := by
  simp only [List.forall_mem_cons]
  refine ⟨?_, ?_, ?_, ?_, nofun⟩ <;>
    exact stopsOne_issue (fun e s h => by simp only [vcIndex_of_not_soft h]; rfl) (fun _ _ _ _ _ _ _ => nofun) fun _ => rfl
theorem biasflip_completes : Completes (.biasflip f) f.pred f.pneg (some f.sbs.toNat)
    (fun e s => notLocal (e.r64 f.a) ∧ ∀ c, (s.check e.k (e.r64 f.a) 1 1 .flip).1 ≠ .trap c)
    fun e s => commands e (s.check e.k (e.r64 f.a) 1 1 .flip).2 f (.bias (e.r64 f.a) ((e.opB f).getLsbD 0) false 0 0) := by
  refine completes_of_issue (fun _ => rfl) fun e s ⟨hp, hc⟩ => ?_
  simp only [local_of_notLocal hp, Bool.false_eq_true, if_false]
  generalize s.check e.k (e.r64 f.a) 1 1 .flip = r at hc ⊢
  obtain ⟨pl | c | pg, u⟩ := r
  · rfl
  · exact absurd rfl (hc c)
  · rfl
theorem biasflip_traps (x : Nat) : StopsOne (.biasflip f) f.pred f.pneg (some f.sbs.toNat)
    (fun e s => notLocal (e.r64 f.a) ∧ (s.check e.k (e.r64 f.a) 1 1 .flip).1 = .trap x)
    (fun e _ => if x < 0x100 then .trap x 0 (e.r64 f.a) false false else .trap x 0 0 false false)
    fun e s => (s.check e.k (e.r64 f.a) 1 1 .flip).2 := by
  refine stopsOne_issue (fun e s ⟨hp, hc⟩ => ?_) (fun e s _ => memTrap_precedes x false 0 (e.r64 f.a)) fun _ => rfl
  simp only [local_of_notLocal hp, Bool.false_eq_true, if_false]
  generalize s.check e.k (e.r64 f.a) 1 1 .flip = r at hc ⊢
  obtain ⟨_, u⟩ := r
  subst hc
  rfl
theorem biasflip_traps_space : StopsOne (.biasflip f) f.pred f.pneg (some f.sbs.toNat) (fun e _ => ¬ notLocal (e.r64 f.a))
    (fun e _ => .trap 0x081 0 (e.r64 f.a) false false) fun _ s => s := by
  refine stopsOne_issue (fun e s hp => ?_) (fun _ _ _ _ _ _ _ => nofun) fun _ => rfl
  rw [if_pos (by simpa [notLocal, bits_region, imp_iff_not_or] using hp)]
  rfl
end

/-- Settles O26: each clause is one instruction above, or one word that an instruction gives. -/
theorem serviceInstructions : Obligations.ServiceInstructions :=
  ⟨setprio_computes,
   fun _ _ _ _ => ⟨rfl, rfl⟩,
   Thread.nextPrio_eq,
   fun f hi => computes_of_alu (fun _ => rfl)
     (fun e t => by
       rw [hi]
       exact congrArg (t.setReg f.d.toNat) (timingWord_eq (e.s0.quad e.k.core).clock.isPinned (e.s0.blockFixed e.k)))
     fun _ _ => Thread.setReg_kill ..,
   fun f hi => computes_of_alu (fun _ => rfl) (fun e t => by rw [hi]; rfl) fun _ _ => Thread.setReg_kill ..,
   fun f => computes_of_alu (fun _ => rfl) (fun _ _ => rfl) fun _ _ => Thread.setReg64_kill ..,
   fun _ _ _ _ hc hn => State.featWord_low hc hn,
   fun _ _ => ⟨rfl, rfl⟩,
   fun s k _ hn => s.featWord_reserved k hn,
   fun f => computes_of_alu (fun _ => rfl) (fun _ _ => rfl) fun _ _ => Thread.setRegs_kill ..,
   xldecWords_fields,
   ciushCause_eq,
   xlmap_completes,
   xlmap_stops,
   xlmapRaise_traps,
   xlmapRaise_stops,
   fun e s x a b p h => have ⟨⟨hb, ha⟩, ht⟩ := Env.mapLookup_answers h; ⟨hb, ha, ht⟩,
   vcdef_completes,
   vcsize_completes,
   vcmove_completes,
   vcflush_completes,
   biasflip_completes,
   fun c hc f => vcIndex_traps f c hc,
   vcdef_stops,
   vcdef_traps,
   vcsize_traps,
   vcmove_traps,
   biasflip_traps_space,
   biasflip_traps⟩

end Sys2Proof.Machine
end

section
/-! PROOFS. Rounding (spec/06_core_float.md R177, R183): what each direction makes of a fraction, the values of a format in
the order of their bits, the result as a number of units of its last place, and the statement about rounded magnitudes (O10). -/

namespace Sys2Proof.Machine
open Sys2Proof.Safety

/-! ### Fractions, their binary logarithm, and integers near them -/

theorem scaled_den_pos {n d : Nat} (hd : 0 < d) (k : Int) : 0 < (scaled n d k).2 := by
  unfold scaled
  split
  · exact hd
  · exact Nat.mul_pos hd (Nat.two_pow_pos _)
theorem scaled_div (n d : Nat) (k : Int) : ((scaled n d k).1 : Rat) / (scaled n d k).2 = n / d * 2 ^ k := by
  unfold scaled
  split
  next h =>
    have hk : (2 : Rat) ^ k = 2 ^ k.toNat := by rw [← zpow_natCast, Int.toNat_of_nonneg h]
    rw [hk]
    push_cast
    ring
  next h =>
    have hk : (2 : Rat) ^ k = (2 ^ (-k).toNat)⁻¹ := by rw [← zpow_natCast, Int.toNat_of_nonneg (by omega), zpow_neg, inv_inv]
    rw [hk]
    push_cast
    rw [div_mul_eq_div_div, div_eq_mul_inv _ ((2 : Rat) ^ _)]

theorem log2_bounds {n : Nat} (hn : 0 < n) : (2 : Rat) ^ (Nat.log2 n : Int) ≤ n ∧ (n : Rat) < 2 ^ ((Nat.log2 n : Int) + 1) := by
  have hl := Nat.log2_self_le hn.ne'
  have hu := Nat.lt_log2_self (n := n)
  refine ⟨?_, ?_⟩
  · rw [zpow_natCast]
    exact_mod_cast hl
  · rw [← Int.natCast_succ, zpow_natCast]
    exact_mod_cast hu
/-- `log2Q` is the binary logarithm, rounded down. -/
theorem log2Q_bounds {n d : Nat} (hn : 0 < n) (hd : 0 < d) :
    (2 : Rat) ^ log2Q n d ≤ n / d ∧ (n : Rat) / d < 2 ^ (log2Q n d + 1) := by
  obtain ⟨hnl, hnu⟩ := log2_bounds hn
  obtain ⟨hdl, hdu⟩ := log2_bounds hd
  have hd0 : (0 : Rat) < d := Nat.cast_pos.mpr hd
  generalize hl : (Nat.log2 n : Int) - Nat.log2 d = l
  have hup : (n : Rat) / d < 2 ^ (l + 1) := by
    rw [div_lt_iff₀ hd0]
    calc (n : Rat) < 2 ^ ((Nat.log2 n : Int) + 1) := hnu
      _ = 2 ^ (l + 1) * 2 ^ (Nat.log2 d : Int) := by rw [← zpow_add₀ two_ne_zero]; congr 1; omega
      _ ≤ 2 ^ (l + 1) * d := by gcongr
  have hlow : (2 : Rat) ^ (l - 1) ≤ n / d := by
    rw [le_div_iff₀ hd0]
    calc (2 : Rat) ^ (l - 1) * d ≤ 2 ^ (l - 1) * 2 ^ ((Nat.log2 d : Int) + 1) := by gcongr
      _ = 2 ^ (Nat.log2 n : Int) := by rw [← zpow_add₀ two_ne_zero]; congr 1; omega
      _ ≤ n := hnl
  have hs : (scaled n d (-l)).2 ≤ (scaled n d (-l)).1 ↔ (2 : Rat) ^ l ≤ n / d := by
    rw [← Nat.cast_le (α := Rat), ← one_le_div (Nat.cast_pos.mpr (scaled_den_pos hd _)), scaled_div, zpow_neg, ← div_eq_mul_inv,
      one_le_div (by positivity)]
  simp only [log2Q, hl]
  split
  next h => exact ⟨hs.mp h, hup⟩
  next h => exact ⟨hlow, by rw [sub_add_cancel]; exact not_le.mp (mt hs.mpr h)⟩

section
variable {a b j : Nat} (r : Rnd) (neg : Bool)

/-- A fraction is rounded to one of the two integers around it. -/
theorem roundQ_eq_div_or_succ : roundQ r neg a b = a / b ∨ roundQ r neg a b = a / b + 1 :=
  (ite_eq_or_eq ..).symm
theorem roundQ_of_dvd (hb : 0 < b) (h : a % b = 0) : roundQ r neg a b = a / b := by
  have hb' : (0 == b) = false := beq_false_of_ne hb.ne
  cases r <;> simp [roundQ, h, hb']
/-- Rounding is monotone at the integers: no direction passes one. -/
theorem le_roundQ (hb : 0 < b) (h : j * b ≤ a) : j ≤ roundQ r neg a b := by
  have hj : j ≤ a / b := (Nat.le_div_iff_mul_le hb).mpr h
  have := roundQ_eq_div_or_succ (a := a) (b := b) r neg
  omega
theorem roundQ_le (hb : 0 < b) (h : a ≤ j * b) : roundQ r neg a b ≤ j := by
  have hj : a / b ≤ j := Nat.div_le_of_le_mul (by rwa [Nat.mul_comm])
  rcases hj.lt_or_eq with hlt | rfl
  · have := roundQ_eq_div_or_succ (a := a) (b := b) r neg
    omega
  · have := Nat.div_add_mod' a b
    exact (roundQ_of_dvd r neg hb (by omega)).le
theorem roundQ_rz_mul_le : roundQ .rz neg a b * b ≤ a := Nat.div_mul_le_self a b
theorem le_roundQ_ru_mul (hb : 0 < b) : a ≤ roundQ .ru false a b * b := by
  have hdiv := Nat.div_add_mod' a b
  by_cases h : a % b = 0
  · rw [roundQ_of_dvd _ _ hb h]
    omega
  · have hlt := Nat.mod_lt a hb
    have hup : roundQ .ru false a b = a / b + 1 := by simp [roundQ, h]
    rw [hup, Nat.succ_mul]
    omega
/-- No integer lies nearer to a fraction than the one that rounding to nearest gives. -/
theorem roundQ_rn_nearest (hb : 0 < b) :
    |((roundQ .rn neg a b * b : Nat) : Int) - a| ≤ |((j * b : Nat) : Int) - a| := by
  have hdiv := Nat.div_add_mod' a b
  have hlt := Nat.mod_lt a hb
  have hq : roundQ .rn neg a b * b = a / b * b ∧ 2 * (a % b) ≤ b ∨ roundQ .rn neg a b * b = a / b * b + b ∧ b ≤ 2 * (a % b) := by
    rw [← Nat.succ_mul]
    simp only [roundQ, Bool.or_eq_true, Bool.and_eq_true, decide_eq_true_eq, beq_iff_eq]
    split
    next h => exact .inr ⟨rfl, by omega⟩
    next h => exact .inl ⟨rfl, by omega⟩
  have hside : j * b ≤ a / b * b ∨ a / b * b + b ≤ j * b := by
    rw [← Nat.succ_mul]
    exact (Nat.lt_or_ge (a / b) j).symm.imp (Nat.mul_le_mul_right b) (Nat.mul_le_mul_right b)
  rw [Int.abs_eq_natAbs, Int.abs_eq_natAbs]
  omega
end

/-! ### The values of a format in the order of their bits (R177) -/

/-- The exponent of the least subnormal. -/
def Fmt.elow (f : Fmt) : Int := f.emin - f.fw
/-- The magnitude that the bits v denote when no exponent is kept for infinity and NaN. -/
def Fmt.val (f : Fmt) (v : Nat) : Rat :=
  ((v - (v / 2 ^ f.fw - 1) * 2 ^ f.fw : Nat) : Rat) * 2 ^ (f.elow + (v / 2 ^ f.fw - 1 : Nat))

/-- The bits E * 2^fw + i denote i units of exponent E above the least, also where i carries into the exponent. -/
theorem Fmt.val_unit (f : Fmt) {E i : Nat} (hi : i ≤ 2 ^ (f.fw + 1)) (hE : 2 ^ f.fw ≤ i ∨ E = 0) :
    f.val (E * 2 ^ f.fw + i) = i * 2 ^ (f.elow + E) := by
  have hp : 0 < 2 ^ f.fw := Nat.two_pow_pos _
  rw [Nat.pow_succ] at hi
  have hdiv : (E * 2 ^ f.fw + i) / 2 ^ f.fw = E + i / 2 ^ f.fw := by
    rw [Nat.add_comm, Nat.add_mul_div_right _ _ hp, Nat.add_comm]
  have hcase : i < 2 ^ f.fw ∨ (2 ^ f.fw ≤ i ∧ i < 2 ^ f.fw * 2) ∨ i = 2 ^ f.fw * 2 := by omega
  rcases hcase with h | ⟨hl, hu⟩ | rfl
  · obtain rfl : E = 0 := hE.resolve_left (by omega)
    simp [Fmt.val, Nat.div_eq_of_lt h]
  · have h1 : i / 2 ^ f.fw = 1 := Nat.div_eq_of_lt_le (by omega) (by omega)
    rw [Fmt.val, hdiv, h1, Nat.add_sub_cancel, Nat.add_sub_cancel_left]
  · have h2 : 2 ^ f.fw * 2 / 2 ^ f.fw = 2 := Nat.mul_div_cancel_left 2 hp
    have hsub : E * 2 ^ f.fw + 2 ^ f.fw * 2 - (E + 1) * 2 ^ f.fw = 2 ^ f.fw := by
      rw [Nat.succ_mul]
      omega
    rw [Fmt.val, hdiv, h2, show E + 2 - 1 = E + 1 from rfl, hsub]
    push_cast
    rw [← add_assoc, zpow_add_one₀ two_ne_zero]
    ring
/-- Every pattern is some number of units of its exponent, below twice the hidden bit. -/
theorem Fmt.exists_unit (f : Fmt) (v : Nat) :
    ∃ E i, v = E * 2 ^ f.fw + i ∧ i < 2 ^ (f.fw + 1) ∧ (2 ^ f.fw ≤ i ∨ E = 0) := by
  have hp : 0 < 2 ^ f.fw := Nat.two_pow_pos _
  have hdiv := Nat.div_add_mod' v (2 ^ f.fw)
  have hmod := Nat.mod_lt v hp
  rw [Nat.pow_succ]
  rcases h : v / 2 ^ f.fw with - | E
  · exact ⟨0, v, by omega, by rw [h] at hdiv; omega, .inr rfl⟩
  · rw [h, Nat.succ_mul] at hdiv
    exact ⟨E, 2 ^ f.fw + v % 2 ^ f.fw, by omega, by omega, .inl (by omega)⟩
theorem Fmt.val_strictMono (f : Fmt) : StrictMono f.val := by
  refine strictMono_nat_of_lt_succ fun v => ?_
  obtain ⟨E, i, rfl, hi, hE⟩ := f.exists_unit v
  rw [add_assoc, f.val_unit hi.le hE, f.val_unit hi (hE.imp_left fun h => by omega), Nat.cast_succ]
  gcongr
  exact lt_add_one _
/-- The value of a finite pattern without sign. -/
theorem fpDec_of_le_maxBits {f : Fmt} (hf : f ∈ [fp64, fp32, fp16, bf16, e4m3, e5m2, e2m1]) {v : Nat} (hv : v ≤ f.maxBits) :
    fpDec f v = if v / 2 ^ f.fw = 0 then .fin false (v % 2 ^ f.fw) f.elow
      else .fin false (v % 2 ^ f.fw + 2 ^ f.fw) ((v / 2 ^ f.fw : Nat) - f.bias - f.fw) := by
  have hrange : v / 2 ^ f.fw < 2 ^ f.ew ∧ ¬ (v / 2 ^ f.fw = 2 ^ f.ew - 1 ∧ f.kind = 0) ∧
      ¬ (v / 2 ^ f.fw = 2 ^ f.ew - 1 ∧ f.kind = 1 ∧ v % 2 ^ f.fw = 7) := by
    simp only [List.mem_cons, List.not_mem_nil, or_false] at hf
    rcases hf with rfl | rfl | rfl | rfl | rfl | rfl | rfl <;>
      simp only [fp64, fp32, fp16, bf16, e4m3, e5m2, e2m1, Fmt.maxBits] at hv ⊢ <;> omega
  obtain ⟨hlt, hinf, hnan⟩ := hrange
  have hneg : bit v (f.ew + f.fw) = false := by
    rw [bit, Nat.add_comm, Nat.pow_add, ← Nat.div_div_eq_div_mul, Nat.div_eq_of_lt hlt]
    rfl
  simp only [fpDec, hneg, Nat.mod_eq_of_lt hlt, Fmt.elow, Bool.and_eq_true, beq_iff_eq, if_neg hinf, and_assoc, if_neg hnan]
theorem magOf_eq_val {f : Fmt} (hf : f ∈ [fp64, fp32, fp16, bf16, e4m3, e5m2, e2m1]) {v : Nat} (hv : v ≤ f.maxBits) :
    magOf f v = f.val v := by
  rw [magOf, fpDec_of_le_maxBits hf hv]
  obtain ⟨E, i, rfl, hi, hE⟩ := f.exists_unit v
  rw [f.val_unit hi.le hE]
  have hp : 0 < 2 ^ f.fw := Nat.two_pow_pos _
  rw [Nat.pow_succ] at hi
  rcases Nat.lt_or_ge i (2 ^ f.fw) with h | h
  · obtain rfl : E = 0 := hE.resolve_left (by omega)
    simp [Nat.div_eq_of_lt h, Nat.mod_eq_of_lt h]
  · have hdiv : (E * 2 ^ f.fw + i) / 2 ^ f.fw = E + 1 := by
      rw [Nat.add_comm, Nat.add_mul_div_right _ _ hp, Nat.div_eq_of_lt_le (k := 1) (by omega) (by omega), Nat.add_comm]
    have hmod : (E * 2 ^ f.fw + i) % 2 ^ f.fw + 2 ^ f.fw = i := by
      have := Nat.div_add_mod' (E * 2 ^ f.fw + i) (2 ^ f.fw)
      rw [hdiv, Nat.succ_mul] at this
      omega
    have hexp : ((E + 1 : Nat) : Int) - f.bias - f.fw = f.elow + E := by
      rw [Fmt.elow, Fmt.emin]
      omega
    rw [hdiv, if_neg (Nat.succ_ne_zero E), hmod, hexp]

/-! ### Rounding to units of the last place (R183) -/

/-- How far the exponent of a result's last place lies above the least. -/
def Fmt.unitOf (f : Fmt) (n d : Nat) (e : Int) : Nat := (log2Q n d + e - f.emin).toNat
/-- The unit of the last place of the magnitude n / d * 2^e. -/
def Fmt.ulp (f : Fmt) (n d : Nat) (e : Int) : Rat := 2 ^ (f.elow + f.unitOf n d e)
/-- The magnitude in units of the last place, as a fraction and rounded. -/
def Fmt.inUnits (f : Fmt) (n d : Nat) (e : Int) : Nat × Nat := scaled n d (e - (f.elow + f.unitOf n d e))
def Fmt.rounded (f : Fmt) (r : Rnd) (n d : Nat) (e : Int) : Nat := roundQ r false (f.inUnits n d e).1 (f.inUnits n d e).2
/-- The bits of the rounded magnitude. -/
def Fmt.roundedBits (f : Fmt) (r : Rnd) (n d : Nat) (e : Int) : Nat := f.unitOf n d e * 2 ^ f.fw + f.rounded r n d e

/-- The bits that the model gives q units of an exponent: below the hidden bit the exponent is the least. -/
theorem Fmt.bits_eq (f : Fmt) {U q : Nat} {u : Int} (hq : U ≠ 0 → 2 ^ f.fw ≤ q) (hu : u = f.elow + U) :
    (if q < 2 ^ f.fw then q else (u + f.fw + f.bias).toNat * 2 ^ f.fw + (q - 2 ^ f.fw)) = U * 2 ^ f.fw + q := by
  have hexp : (u + f.fw + f.bias).toNat = U + 1 := by
    rw [hu, Fmt.elow, Fmt.emin]
    omega
  split
  next h =>
    obtain rfl : U = 0 := by omega
    omega
  next h =>
    rw [hexp, Nat.succ_mul]
    omega
theorem roundMag_eq (f : Fmt) (r : Rnd) (n d : Nat) (e : Int) :
    roundMag f.fw (some f.emin) r false n d e = (f.rounded r n d e, f.elow + f.unitOf n d e) := by
  have hu : max (log2Q n d + e - f.fw) (f.emin - f.fw) = f.elow + f.unitOf n d e := by
    rw [Fmt.elow, Fmt.unitOf]
    omega
  simp only [roundMag, Fmt.rounded, Fmt.inUnits, hu]

section
variable (f : Fmt) {n d : Nat} (e : Int) (r : Rnd)

theorem ulp_pos : 0 < f.ulp n d e := by
  unfold Fmt.ulp
  positivity
variable (hd : 0 < d)
include hd

theorem inUnits_den_pos : 0 < (f.inUnits n d e).2 := scaled_den_pos hd _
omit hd in
/-- The exact magnitude in units of the last place. -/
theorem magnitude_eq : n / d * 2 ^ e = (f.inUnits n d e).1 / (f.inUnits n d e).2 * f.ulp n d e := by
  rw [Fmt.inUnits, scaled_div, Fmt.ulp, mul_assoc, ← zpow_add₀ two_ne_zero, sub_add_cancel]
theorem units_le_iff (j : Nat) : j * f.ulp n d e ≤ n / d * 2 ^ e ↔ j * (f.inUnits n d e).2 ≤ (f.inUnits n d e).1 := by
  rw [magnitude_eq f e, mul_le_mul_iff_left₀ (ulp_pos f e), le_div_iff₀ (Nat.cast_pos.mpr (inUnits_den_pos f e hd))]
  exact_mod_cast Iff.rfl
theorem le_units_iff (j : Nat) : n / d * 2 ^ e ≤ j * f.ulp n d e ↔ (f.inUnits n d e).1 ≤ j * (f.inUnits n d e).2 := by
  rw [magnitude_eq f e, mul_le_mul_iff_left₀ (ulp_pos f e), div_le_iff₀ (Nat.cast_pos.mpr (inUnits_den_pos f e hd))]
  exact_mod_cast Iff.rfl
/-- The distance of a number of units from the exact magnitude, as that of two numerators. -/
theorem units_dist (j : Nat) : |j * f.ulp n d e - n / d * 2 ^ e| =
    |((j * (f.inUnits n d e).2 : Nat) : Int) - (f.inUnits n d e).1| * (f.ulp n d e / (f.inUnits n d e).2) := by
  have hs : (0 : Rat) < (f.inUnits n d e).2 := Nat.cast_pos.mpr (inUnits_den_pos f e hd)
  rw [magnitude_eq f, Int.cast_abs, ← abs_of_pos (div_pos (ulp_pos f (n := n) (d := d) e) hs), ← abs_mul]
  push_cast
  congr 1
  field_simp

theorem le_rounded {j : Nat} (h : j * f.ulp n d e ≤ n / d * 2 ^ e) : j ≤ f.rounded r n d e :=
  le_roundQ r false (inUnits_den_pos f e hd) ((units_le_iff f e hd j).mp h)
theorem rounded_le {j : Nat} (h : n / d * 2 ^ e ≤ j * f.ulp n d e) : f.rounded r n d e ≤ j :=
  roundQ_le r false (inUnits_den_pos f e hd) ((le_units_iff f e hd j).mp h)
theorem rounded_rz_le : f.rounded .rz n d e * f.ulp n d e ≤ n / d * 2 ^ e :=
  (units_le_iff f e hd _).mpr (roundQ_rz_mul_le false)
theorem le_rounded_ru : n / d * 2 ^ e ≤ f.rounded .ru n d e * f.ulp n d e :=
  (le_units_iff f e hd _).mpr (le_roundQ_ru_mul (inUnits_den_pos f e hd))
theorem rounded_rn_nearest (j : Nat) :
    |f.rounded .rn n d e * f.ulp n d e - n / d * 2 ^ e| ≤ |j * f.ulp n d e - n / d * 2 ^ e| := by
  rw [units_dist f e hd, units_dist f e hd]
  exact mul_le_mul_of_nonneg_right (Int.cast_le.mpr (roundQ_rn_nearest false (inUnits_den_pos f e hd)))
    (div_nonneg (ulp_pos f e).le (Nat.cast_nonneg _))

variable (hn : 0 < n)
include hn

/-- In units of the last place the exact magnitude lies below the double of the format's hidden bit, and not below the hidden bit unless
the exponent is the least. -/
theorem magnitude_le : n / d * 2 ^ e ≤ (2 ^ (f.fw + 1) : Nat) * f.ulp n d e := by
  push_cast
  rw [Fmt.ulp, ← zpow_natCast, ← zpow_add₀ two_ne_zero]
  calc (n : Rat) / d * 2 ^ e ≤ 2 ^ (log2Q n d + 1) * 2 ^ e := by gcongr; exact (log2Q_bounds hn hd).2.le
    _ = 2 ^ (log2Q n d + 1 + e) := (zpow_add₀ two_ne_zero ..).symm
    _ ≤ _ := zpow_le_zpow_right₀ one_le_two (by rw [Fmt.elow, Fmt.unitOf]; omega)
theorem le_magnitude (h0 : f.unitOf n d e ≠ 0) : (2 ^ f.fw : Nat) * f.ulp n d e ≤ n / d * 2 ^ e := by
  push_cast
  rw [Fmt.ulp, ← zpow_natCast, ← zpow_add₀ two_ne_zero]
  calc (2 : Rat) ^ ((f.fw : Int) + (f.elow + f.unitOf n d e)) = 2 ^ (log2Q n d + e) := by
          congr 1
          rw [Fmt.unitOf] at h0 ⊢
          rw [Fmt.elow]
          omega
    _ = 2 ^ log2Q n d * 2 ^ e := zpow_add₀ two_ne_zero ..
    _ ≤ n / d * 2 ^ e := by gcongr; exact (log2Q_bounds hn hd).1

theorem rounded_le_carry : f.rounded r n d e ≤ 2 ^ (f.fw + 1) := rounded_le f e r hd (magnitude_le f e hd hn)
theorem hidden_le_rounded (h0 : f.unitOf n d e ≠ 0) : 2 ^ f.fw ≤ f.rounded r n d e :=
  le_rounded f e r hd (le_magnitude f e hd hn h0)
theorem val_roundedBits : f.val (f.roundedBits r n d e) = f.rounded r n d e * f.ulp n d e :=
  f.val_unit (rounded_le_carry f e r hd hn) (or_iff_not_imp_right.mpr (hidden_le_rounded f e r hd hn))

/-- Each value of the format is a number of units of the last place, or such a number lies between it and the exact magnitude. -/
theorem exists_units (v : Nat) : ∃ j : Nat, f.val v = j * f.ulp n d e ∨
    f.val v ≤ j * f.ulp n d e ∧ j * f.ulp n d e ≤ n / d * 2 ^ e := by
  obtain ⟨E, i, rfl, hi, hE⟩ := f.exists_unit v
  rw [f.val_unit hi.le hE]
  rcases Nat.lt_or_ge E (f.unitOf n d e) with h | h
  · refine ⟨2 ^ f.fw, .inr ⟨?_, le_magnitude f e hd hn (by omega)⟩⟩
    calc (i : Rat) * 2 ^ (f.elow + E) ≤ (2 ^ (f.fw + 1) : Nat) * 2 ^ (f.elow + E) := by gcongr
      _ = (2 ^ f.fw : Nat) * 2 ^ (f.elow + E + 1) := by rw [zpow_add_one₀ two_ne_zero]; push_cast; ring
      _ ≤ (2 ^ f.fw : Nat) * f.ulp n d e :=
        mul_le_mul_of_nonneg_left (zpow_le_zpow_right₀ one_le_two (by omega)) (Nat.cast_nonneg _)
  · refine ⟨i * 2 ^ (E - f.unitOf n d e), .inl ?_⟩
    push_cast
    rw [Fmt.ulp, mul_assoc, ← zpow_natCast, ← zpow_add₀ two_ne_zero]
    congr 2
    omega

/-- No value of the format lies between the magnitude and what a directed rounding gives; none is nearer than what rounding to nearest
gives. -/
theorem val_le_rounded_rz {v : Nat} (h : f.val v ≤ n / d * 2 ^ e) : f.val v ≤ f.rounded .rz n d e * f.ulp n d e := by
  obtain ⟨j, hv, hj⟩ : ∃ j : Nat, f.val v ≤ j * f.ulp n d e ∧ j * f.ulp n d e ≤ n / d * 2 ^ e := by
    obtain ⟨j, hv | hv⟩ := exists_units f e hd hn v
    · exact ⟨j, hv.le, hv ▸ h⟩
    · exact ⟨j, hv⟩
  exact hv.trans (mul_le_mul_of_nonneg_right (Nat.cast_le.mpr (le_rounded f e .rz hd hj)) (ulp_pos f e).le)
theorem rounded_le_val {v : Nat} (h : n / d * 2 ^ e ≤ f.val v) : f.rounded r n d e * f.ulp n d e ≤ f.val v := by
  obtain ⟨j, hj⟩ : ∃ j : Nat, f.val v = j * f.ulp n d e := by
    obtain ⟨j, hv | ⟨hv, hj⟩⟩ := exists_units f e hd hn v
    · exact ⟨j, hv⟩
    · exact ⟨j, le_antisymm hv (hj.trans h)⟩
  rw [hj] at h ⊢
  exact mul_le_mul_of_nonneg_right (Nat.cast_le.mpr (rounded_le f e r hd h)) (ulp_pos f e).le
theorem rounded_rn_dist_le (v : Nat) :
    |f.rounded .rn n d e * f.ulp n d e - n / d * 2 ^ e| ≤ |f.val v - n / d * 2 ^ e| := by
  obtain ⟨j, hv | ⟨hv, hj⟩⟩ := exists_units f e hd hn v
  · exact hv ▸ rounded_rn_nearest f e hd j
  · refine (rounded_rn_nearest f e hd j).trans ?_
    rw [abs_sub_comm, abs_of_nonneg (sub_nonneg.mpr hj), abs_sub_comm, abs_of_nonneg (sub_nonneg.mpr (hv.trans hj))]
    exact sub_le_sub_left hv _

/-- Of a magnitude in range the rounded bits are in range, in every direction. -/
theorem roundedBits_le {v : Nat} (h : n / d * 2 ^ e ≤ f.val v) : f.roundedBits r n d e ≤ v := by
  rw [← f.val_strictMono.le_iff_le, val_roundedBits f e r hd hn]
  exact rounded_le_val f e r hd hn h
/-- What the model rounds to, in range; a carry out of the fraction is the next exponent. -/
theorem roundFp_eq_roundedBits (h : f.roundedBits r n d e ≤ f.maxBits) : roundFp f r false false n d e = f.roundedBits r n d e := by
  have hhid := hidden_le_rounded f e r hd hn
  have h0 : (n == 0) = false := beq_false_of_ne hn.ne'
  simp only [roundFp, h0, roundMag_eq, Bool.false_and, Bool.false_eq_true, if_false, beq_iff_eq, signBit, Nat.zero_add]
  by_cases hc : f.rounded r n d e = 2 ^ (f.fw + 1)
  · have hbits : (f.unitOf n d e + 1) * 2 ^ f.fw + 2 ^ f.fw = f.roundedBits r n d e := by
      rw [Fmt.roundedBits, hc]
      ring
    simp only [if_pos hc]
    rw [f.bits_eq (U := f.unitOf n d e + 1) (fun _ => le_rfl) (by push_cast; ring), hbits, if_neg (not_lt.mpr h)]
  · simp only [if_neg hc]
    rw [f.bits_eq hhid rfl]
    exact if_neg (not_lt.mpr h)
end

/-- Settles O10: in range, the results are the rounded units of the last place, and these are compared with each value. -/
theorem roundingIsCorrect : Obligations.RoundingIsCorrect := by
  intro f hf n d e hn hd x at_ hx
  have hmax {r : Rnd} : f.roundedBits r n d e ≤ f.maxBits :=
    roundedBits_le f e r hd hn (by rwa [← magOf_eq_val hf le_rfl])
  have hat (r : Rnd) : at_ r = f.roundedBits r n d e := roundFp_eq_roundedBits f e r hd hn hmax
  have hval (r : Rnd) : magOf f (f.roundedBits r n d e) = f.rounded r n d e * f.ulp n d e := by
    rw [magOf_eq_val hf hmax, val_roundedBits f e r hd hn]
  rw [hat, hat, hat, hval, hval, hval]
  refine ⟨hmax, hmax, hmax, rounded_rz_le f e hd, le_rounded_ru f e hd, fun v hv => ?_⟩
  rw [magOf_eq_val hf hv]
  exact ⟨val_le_rounded_rz f e hd hn, rounded_le_val f e .ru hd hn, rounded_rn_dist_le f e hd hn v⟩

end Sys2Proof.Machine
end

section
/-! PROOFS. What the floating-point instructions write (spec/06_core_float.md R189 to R205): each computes the value that its rule names, and
the statements about them (O7, O8). -/

namespace Sys2Proof.Machine
open Sys2Proof.Safety

/-! ### Instructions that write a register, or a pair -/

theorem computes_setReg {i : Instr} {pred : BitVec 3} {pneg : Bool} {d : Nat} {v w : Env → Word}
    (hi : ∀ s, exec i s = issueAlu i pred pneg (fun e t => t.setReg d (v e)) s) (hv : ∀ e, v e = w e) :
    Computes i pred pneg fun e t => t.setReg d (w e) :=
  computes_of_alu hi (fun e t => congrArg (t.setReg d) (hv e)) fun _ _ => Thread.setReg_kill ..
theorem computes_setReg64 {i : Instr} {pred : BitVec 3} {pneg : Bool} {d : Nat} {v w : Env → DWord}
    (hi : ∀ s, exec i s = issueAlu i pred pneg (fun e t => t.setReg64 d (v e)) s) (hv : ∀ e, v e = w e) :
    Computes i pred pneg fun e t => t.setReg64 d (w e) :=
  computes_of_alu hi (fun e t => congrArg (t.setReg64 d) (hv e)) fun _ _ => Thread.setReg64_kill ..
/-- A result that is written to a pair or to a register, as its type says, leaves the mark of KILLF. -/
theorem kill_setReg64_or_setReg (c : Prop) [Decidable c] (t : Thread) (d : Nat) (v : DWord) (w : Word) :
    (if c then t.setReg64 d v else t.setReg d w).kill = t.kill := by
  split <;> simp

/-! ### Arithmetic and packed halves (R193, R203 to R205) -/

/-- A packed result is its two halves, clamped and cut to 16 bits. -/
theorem packed_eq_halves (f : FA) (op : Nat → Nat) : (packed fun h => sat01 (f.mb 2) (pkType f) (op h)) = halves f op := by
  refine BitVec.eq_of_toNat_eq ?_
  rw [packed, halves, toNat_append_add]
  simp only [BitVec.toNat_ofNat, sat01, pkType]
  omega

/-- Settles O7: each instruction writes the result of its rule; a packed one, its two halves. -/
theorem floatArithmetic : Obligations.FloatArithmetic :=
  ⟨fun _ => computes_setReg (fun _ => rfl) fun _ => rfl,
   fun _ => computes_setReg (fun _ => rfl) fun _ => rfl,
   fun _ => computes_setReg (fun _ => rfl) fun _ => rfl,
   fun _ => computes_setReg (fun _ => rfl) fun _ => rfl,
   fun _ => computes_setReg (fun _ => rfl) fun _ => rfl,
   fun _ => computes_setReg (fun _ => rfl) fun _ => rfl,
   fun f => computes_setReg (fun _ => rfl) fun _ => packed_eq_halves f _,
   fun f => computes_setReg (fun _ => rfl) fun _ => packed_eq_halves f _,
   fun f => computes_setReg (fun _ => rfl) fun _ => packed_eq_halves f _,
   fun _ => computes_setReg (fun _ => rfl) fun _ => rfl,
   fun _ => computes_setReg64 (fun _ => rfl) fun _ => rfl,
   fun _ => computes_setReg64 (fun _ => rfl) fun _ => rfl,
   fun _ => computes_setReg64 (fun _ => rfl) fun _ => rfl⟩

/-! ### Compares, classes and conversions (R195 to R202) -/

theorem setCmpA_eq_combine (f : FA) (e : Env) (t : Thread) (r : Bool) :
    setCmpA f e t r = t.setPred (f.d.toNat % 8) (combine (f.mf 0 2) r (e.th.pred (f.mf 2 3) ^^ f.mb 5)) := by
  rw [setCmpA, boolOp_eq_combine, Bool.bne_eq_xor]
theorem setCmpI_eq_combine (f : FI) (e : Env) (t : Thread) (r : Bool) :
    setCmpI f e t r = t.setPred (f.d.toNat % 8) (combine (f.md.toNat % 4) r (e.th.pred (f.d.toNat % 8) ^^ f.mb 2)) := by
  rw [setCmpI, boolOp_eq_combine, Bool.bne_eq_xor]
theorem ofNat_two_pow (n : Nat) : BitVec.ofNat 32 (2 ^ n) = 1#32 <<< n := by
  rw [← shlVal_eq, shlVal, BitVec.toNat_ofNat, Nat.mod_eq_of_lt (by decide), Nat.one_mul]
/-- What F2F to a wide type reads (R201): all of a wide source, a lane of a narrow one. -/
theorem f2fSource_wide {dt : Nat} (h : ¬ 2 ≤ dt) (st lane : Nat) (a : Word) (a64 : DWord) :
    (if (decide (2 ≤ dt) || decide (st ≤ 1)) = true then (if st = 1 then a64.toNat else a.toNat)
      else (if st = 1 then a64.toNat else a.toNat) / 2 ^ ((fmtOf st).width * lane)) % 2 ^ (fmtOf st).width =
    if st = 1 then a64.toNat else if st = 0 then a.toNat else a.toNat / 2 ^ ((fmtOf st).width * lane) % 2 ^ (fmtOf st).width := by
  match st with
  | 0 => simpa [fmtOf, fp32, Fmt.width] using a.isLt
  | 1 => simpa [fmtOf, fp64, Fmt.width] using a64.isLt
  | st + 2 => simp [h]
/-- The same of F2F, which writes a narrow result into a lane of its register. -/
theorem kill_setReg_or_setReg64_or_setReg (b c : Prop) [Decidable b] [Decidable c] (t : Thread) (d : Nat) (u w : Word) (v : DWord) :
    (if b then t.setReg d u else if c then t.setReg64 d v else t.setReg d w).kill = t.kill := by
  split
  · exact Thread.setReg_kill ..
  · exact kill_setReg64_or_setReg ..

/-- Settles O8: each instruction writes the value of its rule; a compare, its predicate. -/
theorem floatConversions : Obligations.FloatConversions :=
  ⟨fun _ => computes_setReg (fun _ => rfl) fun _ => rfl,
   fun _ => computes_setReg (fun _ => rfl) fun _ => rfl,
   fun f => computes_of_alu (fun _ => rfl) (fun e t => setCmpA_eq_combine f e t _) fun _ _ => Thread.setPred_kill ..,
   fun f => computes_of_alu (fun _ => rfl) (fun e t => setCmpI_eq_combine f e t _) fun _ _ => Thread.setPred_kill ..,
   fun _ => computes_setReg (fun _ => rfl) fun _ => ofNat_two_pow _,
   fun f h => computes_of_alu (fun _ => rfl) (fun _ _ => by rw [h]; rfl) fun _ _ => kill_setReg64_or_setReg ..,
   fun f h => computes_of_alu (fun _ => rfl) (fun _ _ => by rw [h]; rfl) fun _ _ => kill_setReg64_or_setReg ..,
   fun f h => computes_of_alu (fun _ => rfl) (fun _ _ => setInt_eq_putTyped h ..) fun _ _ => setInt_kill ..,
   fun f h => computes_of_alu (fun _ => rfl) (fun _ _ => by simp only [intSrc_eq_typedSrc h, beq_iff_eq])
     fun _ _ => kill_setReg64_or_setReg ..,
   fun f h => computes_of_alu (fun _ => rfl) (fun _ _ => by
       have hw : ¬ 2 ≤ f.mf 6 3 := by omega
       simp only [beq_iff_eq, f2fSource_wide hw, if_neg hw])
     fun _ _ => kill_setReg_or_setReg64_or_setReg ..,
   fun f h => computes_of_alu (fun _ => rfl) (fun _ _ => by simp only [beq_iff_eq, h, decide_true, Bool.true_or, if_true])
     fun _ _ => kill_setReg_or_setReg64_or_setReg ..,
   fun _ => computes_setReg (fun _ => rfl) fun _ => rfl⟩

end Sys2Proof.Machine
end

section
/-! PROOFS. Special values of FP32 (spec/06_core_float.md R178, R185 to R187): what the patterns of NaN, infinity, zero and subnormals denote as
operands, what a sum and a product make of them, and the statement about FADD and FMUL (O9). -/

namespace Sys2Proof.Machine
open Sys2Proof.Safety

/-! ### Patterns of FP32 as operands (R177, R190) -/

section
variable (a : Word)

theorem isNan32_iff : isNan32 a = true ↔ a.toNat / 2 ^ 23 % 2 ^ 8 = 255 ∧ a.toNat % 2 ^ 23 ≠ 0 := by
  simp [isNan32, ← BitVec.toNat_inj, Nat.shiftRight_eq_div_pow]
theorem isInf32_iff : isInf32 a = true ↔ a.toNat % 2 ^ 31 = 0x7F800000 := by
  simp [isInf32, ← BitVec.toNat_inj]
theorem isZero32_iff : isZero32 a = true ↔ a.toNat % 2 ^ 31 = 0 := by
  simp [isZero32, ← BitVec.toNat_inj]
theorem isSub32_iff : isSub32 a = true ↔ a.toNat / 2 ^ 23 % 2 ^ 8 = 0 ∧ a.toNat % 2 ^ 23 ≠ 0 := by
  simp [isSub32, ← BitVec.toNat_inj, Nat.shiftRight_eq_div_pow]

theorem fpDec_fp32 : fpDec fp32 a.toNat =
    if a.toNat / 2 ^ 23 % 2 ^ 8 = 255 then (if a.toNat % 2 ^ 23 = 0 then .inf a.msb else .nan a.msb (a.toNat % 2 ^ 23))
    else if a.toNat / 2 ^ 23 % 2 ^ 8 = 0 then .fin a.msb (a.toNat % 2 ^ 23) (-149)
    else .fin a.msb (a.toNat % 2 ^ 23 + 2 ^ 23) ((a.toNat / 2 ^ 23 % 2 ^ 8 : Nat) - 127 - 23) := by
  have hs : bit a.toNat 31 = a.msb := (bit_toNat a 31).trans (BitVec.msb_eq_getLsbD_last a).symm
  simp only [fpDec, fp32, hs]
  simp [Fmt.emin, Fmt.bias]
end

section
variable {prof : Nat} {a : Word}

/-- NaNs, infinities and zeros pass the flush of operands. -/
theorem flushIn_of_not_subnormal {f : Fmt} {v : Fv} (h : v.subnormal f = false) : flushIn prof f v = v := by
  rw [flushIn, h, Bool.and_false]
  rfl
theorem flushIn_setNeg (f : Fmt) (v : Fv) (b : Bool) : flushIn prof f (v.setNeg b) = (flushIn prof f v).setNeg b := by
  have hs : (v.setNeg b).subnormal f = v.subnormal f := by cases v <;> rfl
  have hn : (v.setNeg b).neg = b := by cases v <;> rfl
  unfold flushIn
  rw [hs, hn]
  split <;> rfl

theorem fpOp_of_isNan32 (h : isNan32 a = true) : fpOp prof false false a = .nan a.msb (a.toNat % 2 ^ 23) := by
  obtain ⟨hexp, hfrac⟩ := (isNan32_iff a).mp h
  refine Eq.trans (flushIn_of_not_subnormal ?_) ?_ <;> rw [fpDec_fp32, if_pos hexp, if_neg hfrac] <;> rfl
theorem fpOp_of_isInf32 (h : isInf32 a = true) : fpOp prof false false a = .inf a.msb := by
  have := (isInf32_iff a).mp h
  have hdec : fpDec fp32 a.toNat = .inf a.msb := by rw [fpDec_fp32, if_pos (by omega), if_pos (by omega)]
  exact (congrArg (flushIn prof fp32) hdec).trans (flushIn_of_not_subnormal rfl)
theorem fpOp_of_isZero32 (h : isZero32 a = true) : fpOp prof false false a = .fin a.msb 0 (-149) := by
  have := (isZero32_iff a).mp h
  have hdec : fpDec fp32 a.toNat = .fin a.msb 0 (-149) := by
    rw [fpDec_fp32, if_neg (by omega), if_pos (by omega), show a.toNat % 2 ^ 23 = 0 by omega]
  exact (congrArg (flushIn prof fp32) hdec).trans (flushIn_of_not_subnormal rfl)
/-- Under a profile that flushes, a subnormal is a zero of its sign. -/
theorem fpOp_of_isSub32 (h : isSub32 a = true) (hl : 1 ≤ prof) (hu : prof < 4) : fpOp prof false false a = .fin a.msb 0 (-149) := by
  obtain ⟨hexp, hfrac⟩ := (isSub32_iff a).mp h
  have hdec : fpDec fp32 a.toNat = .fin a.msb (a.toNat % 2 ^ 23) (-149) := by
    rw [fpDec_fp32, if_neg (by omega), if_pos hexp]
  have hflush : flushes prof fp32 = true := by
    have : prof ≤ 3 := by omega
    simp [flushes, hl, this]
  have hsub : (Fv.fin a.msb (a.toNat % 2 ^ 23) (-149)).subnormal fp32 = true := by
    have hlt : a.toNat % 2 ^ 23 < 2 ^ fp32.fw := Nat.mod_lt _ (Nat.two_pow_pos 23)
    have hexp : (-149 == fp32.emin - (fp32.fw : Int)) = true := by decide
    simp only [Fv.subnormal, bne_iff_ne.mpr hfrac, decide_eq_true hlt, hexp, Bool.and_self]
  refine (congrArg (flushIn prof fp32) hdec).trans ?_
  rw [flushIn, hflush, hsub]
  rfl
/-- A value that is neither NaN nor infinite is an exact one. -/
theorem fpOp_of_finite (hn : isNan32 a = false) (hi : isInf32 a = false) : ∃ m e, fpOp prof false false a = .fin a.msb m e := by
  have hexp : ¬ a.toNat / 2 ^ 23 % 2 ^ 8 = 255 := fun h => by
    have hf : a.toNat % 2 ^ 23 = 0 := by
      by_contra hf
      exact Bool.false_ne_true (hn.symm.trans ((isNan32_iff a).mpr ⟨h, hf⟩))
    exact Bool.false_ne_true (hi.symm.trans ((isInf32_iff a).mpr (by omega)))
  have hdec : ∃ m e, fpDec fp32 a.toNat = .fin a.msb m e := by
    rw [fpDec_fp32, if_neg hexp]
    split <;> exact ⟨_, _, rfl⟩
  obtain ⟨m, e, hdec⟩ := hdec
  show ∃ m e, flushIn prof fp32 (fpDec fp32 a.toNat) = .fin a.msb m e
  rw [hdec, flushIn]
  split <;> exact ⟨_, _, rfl⟩

theorem msb_xor_sign (a : Word) : (a ^^^ 0x80000000).msb = !a.msb := by
  rw [BitVec.msb_xor]
  exact Bool.xor_true _
/-- The pattern with the other sign denotes the value with the other sign. -/
theorem fpOp_xor_sign (a : Word) : fpOp prof false false (a ^^^ 0x80000000) = (fpOp prof false false a).setNeg (!a.msb) := by
  have hexp : (a ^^^ 0x80000000).toNat / 2 ^ 23 % 2 ^ 8 = a.toNat / 2 ^ 23 % 2 ^ 8 := by
    rw [BitVec.toNat_xor, Nat.xor_div_two_pow, Nat.xor_mod_two_pow]
    exact Nat.xor_zero _
  have hfrac : (a ^^^ 0x80000000).toNat % 2 ^ 23 = a.toNat % 2 ^ 23 := by
    rw [BitVec.toNat_xor, Nat.xor_mod_two_pow]
    exact Nat.xor_zero _
  have hdec : fpDec fp32 (a ^^^ 0x80000000).toNat = (fpDec fp32 a.toNat).setNeg (!a.msb) := by
    rw [fpDec_fp32, fpDec_fp32, hexp, hfrac, msb_xor_sign]
    split
    · split <;> rfl
    · split <;> rfl
  exact (congrArg (flushIn prof fp32) hdec).trans (flushIn_setNeg ..)
/-- The sign of an operand is the sign bit of its pattern. -/
theorem neg_fpOp (a : Word) : (fpOp prof false false a).neg = a.msb := by
  have hdec : (fpDec fp32 a.toNat).neg = a.msb := by
    rw [fpDec_fp32]
    split
    · split <;> rfl
    · split <;> rfl
  show (flushIn prof fp32 (fpDec fp32 a.toNat)).neg = a.msb
  unfold flushIn
  split <;> exact hdec
theorem isNan_fpOp (h : isNan32 a = false) : (fpOp prof false false a).isNan = false := by
  cases hi : isInf32 a
  · obtain ⟨m, e, he⟩ := fpOp_of_finite (prof := prof) h hi
    rw [he]
    rfl
  · rw [fpOp_of_isInf32 hi]
    rfl
end

/-! ### Results as patterns of FP32 (R178, R185, R187) -/

theorem ofNat_signBit (n : Bool) : BitVec.ofNat 32 (signBit fp32 n) = if n then 0x80000000 else 0 := by
  cases n <;> rfl
theorem eq_of_isZero32 {a : Word} (h : isZero32 a = true) : a = if a.msb then 0x80000000 else 0 := by
  have hz := (isZero32_iff a).mp h
  have hm := BitVec.msb_eq_decide a
  refine BitVec.eq_of_toNat_eq ?_
  rw [hm]
  have := a.isLt
  by_cases hs : 2 ^ (32 - 1) ≤ a.toNat
  · rw [decide_eq_true hs, if_pos rfl]
    show a.toNat = 2147483648
    omega
  · rw [decide_eq_false hs]
    show a.toNat = 0
    omega
/-- Setting the quiet bit of a pattern. -/
theorem toNat_or_quiet (a : Word) : (a ||| 0x00400000).toNat = if bit a.toNat 22 then a.toNat else a.toNat + 2 ^ 22 := by
  have hand : a &&& 0x00400000 = if bit a.toNat 22 then 0x00400000 else 0 := by
    rw [bit_toNat]
    exact BitVec.and_twoPow a 22
  by_cases h : bit a.toNat 22
  · rw [if_pos h] at hand ⊢
    have habs : a ||| (a &&& 0x00400000) = a := by ext; simp +contextual
    rw [← hand, habs]
  · rw [if_neg h] at hand ⊢
    rw [← BitVec.add_eq_or_of_and_eq_zero _ _ hand, BitVec.toNat_add]
    rw [bit, beq_iff_eq] at h
    exact Nat.mod_eq_of_lt (by show a.toNat + 4194304 < 2 ^ 32; omega)
/-- The NaN that an FP32 operand gives is its own pattern with the quiet bit set, or that of the profile. -/
theorem ofNat_nanTo (prof : Nat) {a : Word} (h : isNan32 a = true) :
    BitVec.ofNat 32 (nanTo prof fp32 fp32 a.msb (a.toNat % 2 ^ 23)) = nanResult prof a := by
  by_cases hp : prof = 1
  · subst hp
    rfl
  have hexp := ((isNan32_iff a).mp h).1
  have hsign : signBit fp32 a.msb + 255 * 2 ^ 23 + a.toNat % 2 ^ 23 = a.toNat := by
    have := a.isLt
    rw [BitVec.msb_eq_decide, signBit]
    simp only [fp32, decide_eq_true_eq]
    split <;> omega
  have hquiet : bit (a.toNat % 2 ^ 23) 22 = bit a.toNat 22 := by
    rw [bit, bit, show a.toNat % 2 ^ 23 / 2 ^ 22 % 2 = a.toNat / 2 ^ 22 % 2 by omega]
  have hnan : nanTo prof fp32 fp32 a.msb (a.toNat % 2 ^ 23) =
      signBit fp32 a.msb + 255 * 2 ^ 23 + if bit (a.toNat % 2 ^ 23) 22 then a.toNat % 2 ^ 23 else a.toNat % 2 ^ 23 + 2 ^ 22 := by
    simp only [nanTo, beq_false_of_ne hp]
    simp [fp32]
  refine BitVec.eq_of_toNat_eq ?_
  rw [nanResult, if_neg hp, toNat_or_quiet, BitVec.toNat_ofNat, hnan, hquiet]
  have hlt := (a ||| 0x00400000).isLt
  rw [toNat_or_quiet] at hlt
  split at hlt
  next h => rw [if_pos h, if_pos h]; omega
  next h => rw [if_neg h, if_neg h]; omega
theorem ofNat_badNan (prof : Nat) : BitVec.ofNat 32 (badNan prof fp32) = invalidResult prof := by
  by_cases h : prof = 1
  · subst h
    rfl
  · simp only [badNan, invalidResult, h, beq_false_of_ne h, Bool.false_and, Bool.false_eq_true, if_false]
    rfl

/-! ### Sums and products of special values (R185 to R187) -/

section
variable (f : Fmt) (prof : Nat) (r : Rnd)

theorem addBits_nan_left (n : Bool) (m : Nat) (b : Fv) : addBits f prof r (.nan n m) b = nanTo prof f f n m := rfl
theorem addBits_nan_right {a : Fv} (h : a.isNan = false) (n : Bool) (m : Nat) : addBits f prof r a (.nan n m) = nanTo prof f f n m := by
  cases a with
  | nan => contradiction
  | inf => rfl
  | fin => rfl
theorem mulBits_nan_left (n : Bool) (m : Nat) (b : Fv) : mulBits f prof r false (.nan n m) b = nanTo prof f f n m := rfl
theorem mulBits_nan_right {a : Fv} (h : a.isNan = false) (n : Bool) (m : Nat) :
    mulBits f prof r false a (.nan n m) = nanTo prof f f n m := by
  cases a with
  | nan => contradiction
  | inf => rfl
  | fin => rfl
theorem addBits_inf_opposite (n : Bool) : addBits f prof r (.inf n) (.inf !n) = badNan prof f := by
  cases n <;> rfl
theorem mulBits_inf_zero (n n' : Bool) (e : Int) : mulBits f prof r false (.inf n) (.fin n' 0 e) = badNan prof f := rfl
theorem mulBits_zero_inf (n n' : Bool) (e : Int) : mulBits f prof r false (.fin n' 0 e) (.inf n) = badNan prof f := rfl
theorem mulBits_zeroRule {a b : Fv} (h : b.isZero = true) : mulBits f prof r true a b = signBit f (a.neg != b.neg) := by
  have hz : zeroRules true a b = true := by rw [zeroRules, h, Bool.or_true, Bool.and_true]
  simp only [mulBits, prodTerm, hz, if_true]
  rfl

/-- The exact sum of two opposite values is zero; its sign is that of the direction. -/
theorem addBits_opposite (n : Bool) (m : Nat) (e : Int) : addBits f prof r (.fin n m e) (.fin (!n) m e) = signBit f (r == .rd) := by
  show roundSum f prof r [.fin n m e, .fin (!n) m e] = _
  cases n <;> simp [roundSum, exactSum]
/-- A sum of zeros of one sign keeps it. -/
theorem addBits_zeros (n : Bool) (e : Int) : addBits f prof r (.fin n 0 e) (.fin n 0 e) = signBit f n := by
  show roundSum f prof r [.fin n 0 e, .fin n 0 e] = _
  cases n <;> simp [roundSum, exactSum]
end

/-! ### FADD and FMUL on patterns (R193) -/

section
variable (prof : Nat) (r : Nat) {a b : Word}

theorem sum32_of_fpOp {v w : Fv} (ha : fpOp prof false false a = v) (hb : fpOp prof false false b = w) :
    sum32 prof r a b = BitVec.ofNat 32 (addBits fp32 prof (rndOf r) v w) := by
  rw [← ha, ← hb]
  rfl
theorem product32_of_fpOp (zr : Bool) {v w : Fv} (ha : fpOp prof false false a = v) (hb : fpOp prof false false b = w) :
    product32 prof zr r a b = BitVec.ofNat 32 (mulBits fp32 prof (rndOf r) zr v w) := by
  rw [← ha, ← hb]
  rfl

theorem sum32_product32_nan_left (h : isNan32 a = true) : sum32 prof r a b = nanResult prof a ∧ product32 prof false r a b = nanResult prof a := by
  have ha := fpOp_of_isNan32 (prof := prof) h
  rw [sum32_of_fpOp prof r ha rfl, product32_of_fpOp prof r false ha rfl]
  exact ⟨ofNat_nanTo prof h, ofNat_nanTo prof h⟩
theorem sum32_product32_nan_right (h : isNan32 a = false) (hb : isNan32 b = true) :
    sum32 prof r a b = nanResult prof b ∧ product32 prof false r a b = nanResult prof b := by
  have hb' := fpOp_of_isNan32 (prof := prof) hb
  rw [sum32_of_fpOp prof r rfl hb', product32_of_fpOp prof r false rfl hb', addBits_nan_right _ _ _ (isNan_fpOp h),
    mulBits_nan_right _ _ _ (isNan_fpOp h)]
  exact ⟨ofNat_nanTo prof hb, ofNat_nanTo prof hb⟩
theorem sum32_inf_opposite (h : isInf32 a = true) : sum32 prof r a (a ^^^ 0x80000000) = invalidResult prof := by
  have ha := fpOp_of_isInf32 (prof := prof) h
  rw [sum32_of_fpOp prof r ha (fpOp_xor_sign a), ha, Fv.setNeg, addBits_inf_opposite, ofNat_badNan]
theorem product32_inf_zero (h : isInf32 a = true) (hb : isZero32 b = true) :
    product32 prof false r a b = invalidResult prof ∧ product32 prof false r b a = invalidResult prof := by
  have ha := fpOp_of_isInf32 (prof := prof) h
  have hb := fpOp_of_isZero32 (prof := prof) hb
  rw [product32_of_fpOp prof r false ha hb, product32_of_fpOp prof r false hb ha, mulBits_inf_zero, mulBits_zero_inf, ofNat_badNan]
  exact ⟨rfl, rfl⟩
theorem ofNat_zero_of_direction (hr : r < 4) :
    BitVec.ofNat 32 (signBit fp32 (rndOf r == .rd)) = if r = 3 then 0x80000000 else 0 := by
  match r, hr with
  | 0, _ | 1, _ | 2, _ | 3, _ => rfl
theorem sum32_opposite (hr : r < 4) (hn : isNan32 a = false) (hi : isInf32 a = false) :
    sum32 prof r a (a ^^^ 0x80000000) = if r = 3 then 0x80000000 else 0 := by
  obtain ⟨m, e, ha⟩ := fpOp_of_finite (prof := prof) hn hi
  rw [sum32_of_fpOp prof r ha (fpOp_xor_sign a), ha, Fv.setNeg, addBits_opposite, ofNat_zero_of_direction r hr]
/-- Two operands that count as zeros, of one sign or of both. -/
theorem sum32_zeros (hr : r < 4) (ha : fpOp prof false false a = .fin a.msb 0 (-149)) (hb : isZero32 b = true) :
    sum32 prof r a b = if a.msb = b.msb then b else if r = 3 then 0x80000000 else 0 := by
  rw [sum32_of_fpOp prof r ha (fpOp_of_isZero32 hb)]
  by_cases h : a.msb = b.msb
  · rw [if_pos h, h, addBits_zeros, ofNat_signBit]
    exact (eq_of_isZero32 hb).symm
  · rw [if_neg h, Bool.eq_not_of_ne (Ne.symm h), addBits_opposite, ofNat_zero_of_direction r hr]
theorem isZero32_ext (ha : isZero32 a = true) (hb : isZero32 b = true) : a.msb = b.msb ↔ a = b :=
  ⟨fun h => by rw [eq_of_isZero32 ha, eq_of_isZero32 hb, h], congrArg _⟩
theorem product32_zeroRule (hb : isZero32 b = true) : product32 prof true r a b = (a ^^^ b) &&& 0x80000000 := by
  have hz : (fpOp prof false false b).isZero = true := by
    rw [fpOp_of_isZero32 hb]
    rfl
  have hand : (a ^^^ b) &&& 0x80000000 = if (a ^^^ b).msb then 0x80000000 else 0 := by
    rw [BitVec.msb_eq_getLsbD_last]
    exact BitVec.and_twoPow (a ^^^ b) 31
  rw [product32_of_fpOp prof r true rfl rfl, mulBits_zeroRule _ _ _ hz, neg_fpOp, neg_fpOp, ofNat_signBit, hand, BitVec.msb_xor,
    Bool.bne_eq_xor]
end

/-- Settles O9: each clause is a rule above, at the operands that its patterns denote. -/
theorem floatSpecials : Obligations.FloatSpecials := fun prof r _ _ hr hp =>
  ⟨sum32_product32_nan_left prof r,
   sum32_product32_nan_right prof r,
   fun h hb => hb ▸ sum32_inf_opposite prof r h,
   product32_inf_zero prof r,
   fun hn hi _ hb => hb ▸ sum32_opposite prof r hr hn hi,
   fun ha hb => by
     rw [sum32_zeros prof r hr (fpOp_of_isZero32 ha) hb, if_congr (isZero32_ext ha hb) rfl rfl]
     split
     next h => exact h.symm
     next => rfl,
   fun hl hs hb hm => (sum32_zeros prof r hr (fpOp_of_isSub32 hs hl hp) hb).trans (if_pos hm),
   product32_zeroRule prof r⟩

end Sys2Proof.Machine
end

section
/-! PROOFS. What the MEM instructions share once their checks have passed (spec/07_core_memory.md R208 to R211): the values that land, local
and own memory as the statements write them, and the checks of pointers to it. -/

namespace Sys2Proof.Machine
open Sys2Proof.Safety

/-! ### Values that land (R210) -/

theorem leVal_lt (bs : List Byte) : leVal bs < 256 ^ bs.length := by
  induction bs with
  | nil => decide
  | cons b r ih =>
    rw [leVal, List.length_cons, Nat.pow_succ]
    have := b.isLt
    omega
theorem mbytes_length (m : Mem) (a n : Nat) : (mbytes m a n).length = n := by
  induction n generalizing a with
  | zero => rfl
  | succ n ih => rw [mbytes, List.length_cons, ih]
theorem mread_lt (m : Mem) (a n : Nat) : mread m a n < 256 ^ n := by
  have := leVal_lt (mbytes m a n)
  rwa [mbytes_length] at this
theorem State.viewBytes_length {s : State} {k : Block} {tl before a n : Nat} {bs : List Byte} (h : s.viewBytes k tl before a n = some bs) :
    bs.length = n := by
  induction n generalizing a bs with
  | zero => cases h; rfl
  | succ n ih =>
    unfold State.viewBytes at h
    split at h
    · rename_i hr
      cases h
      rw [List.length_cons, ih hr]
    · cases h
/-- An access of fewer than four bytes is one of one or two. -/
theorem accessBytes_narrow (f : FM) (h : accessBytes f < 4) : accessBytes f = 1 ∨ accessBytes f = 2 := by
  unfold accessBytes at h ⊢
  have hw : f.width.toNat < 2 := (Nat.pow_lt_pow_iff_right (by decide : 1 < 2)).mp h
  interval_cases f.width.toNat
  · exact .inl rfl
  · exact .inr rfl
/-- What lands is what the rule says: a narrow value is extended to a register. -/
theorem landWords_eq_loadWords {w v : Nat} (sx : Bool) (hw : w < 4 → w = 1 ∨ w = 2) (hv : v < 256 ^ w) :
    landWords w v sx = loadWords w sx v := by
  unfold landWords
  by_cases h4 : w < 4
  · rw [if_pos h4, sext_eq_toInt]
    rcases hw h4 with rfl | rfl
    · exact congrArg (fun x => [if sx then (BitVec.ofNat 8 v).signExtend 32 else x]) (BitVec.setWidth_ofNat_of_le_of_lt (by decide) hv).symm
    · exact congrArg (fun x => [if sx then (BitVec.ofNat 16 v).signExtend 32 else x]) (BitVec.setWidth_ofNat_of_le_of_lt (by decide) hv).symm
  · rw [if_neg h4, loadWords, if_neg (by omega), if_neg (by omega)]
    rfl
/-- A double word lands as its two halves. -/
theorem wordsOf_two (x : DWord) : wordsOf 2 x.toNat = [x.setWidth 32, (x >>> 32).setWidth 32] := by
  refine List.cons_eq_cons.mpr ⟨?_, List.cons_eq_cons.mpr ⟨?_, rfl⟩⟩ <;> refine BitVec.eq_of_toNat_eq ?_
  · simp
  · simp [Nat.shiftRight_eq_div_pow]

/-! ### Local memory and the thread's own memory (R208, R211) -/

section
variable (e : Env) (s : State) (a w v : Nat)
theorem State.sramRead_lt (b tl : Nat) (p : Place) : s.sramRead b tl p w < 256 ^ w := by
  unfold State.sramRead
  split
  · exact mread_lt ..
  · exact mread_lt ..
  · exact Nat.pow_pos (by decide)
theorem sramRead_loc : s.sramRead e.k.id e.tl (.loc a) w = localVal e s a w := by
  unfold State.sramRead localVal
  cases s.block e.k.id <;> rfl
theorem sramRead_prv : s.sramRead e.k.id e.tl (.prv a) w = ownVal e s a w := by
  unfold State.sramRead ownVal
  cases s.block e.k.id <;> rfl
theorem sramWrite_loc : s.sramWrite e.k.id e.tl (.loc a) w v = putLocal e s a w v := by
  have hp : ∀ x, (!(a ≤ x && decide (x < a + w))) = decide (x < a ∨ a + w ≤ x) := fun x => by
    rw [Bool.eq_iff_iff]
    simp only [Bool.not_eq_true', Bool.and_eq_false_iff, decide_eq_false_iff_not, decide_eq_true_eq]
    omega
  simp only [State.sramWrite, putLocal, hp]
theorem sramWrite_prv : s.sramWrite e.k.id e.tl (.prv a) w v = putOwn e s a w v := rfl
end
/-- The words that a load of local or own memory lands. -/
theorem landWords_sram (f : FM) (s : State) (b tl : Nat) (p : Place) (sx : Bool) :
    landWords (accessBytes f) (s.sramRead b tl p (accessBytes f)) sx = loadWords (accessBytes f) sx (s.sramRead b tl p (accessBytes f)) :=
  landWords_eq_loadWords sx (accessBytes_narrow f) (s.sramRead_lt ..)
theorem accessBytes_pos (f : FM) : 0 < accessBytes f := Nat.two_pow_pos _

/-! ### Checks of pointers to local and own memory (spec/03_memory_model.md R69; R208, R209) -/

section
variable {s : State} {k : Block} {p : DWord} {w align : Nat} {ak : AKind}
/-- The checks of such a pointer translate nothing. -/
theorem State.check_sram_state (hr : ¬ notLocal p) : (s.check k p w align ak).2 = s := by
  have hr : regionOf p = 1 ∨ regionOf p = 2 := by unfold notLocal at hr; omega
  unfold State.check
  simp only [bits_region]
  rcases hr with hr | hr <;> rw [hr] <;> simp only [beq_self_eq_true, Nat.reduceBEq, Bool.false_eq_true, if_true, if_false] <;>
    repeat' split
  all_goals rfl
theorem State.check_in_local (hw : 0 < w) (hr : regionOf p = 1) (hb : offsetOf p + w ≤ k.localSize) (ha : offsetOf p % align = 0) :
    s.check k p w align ak = (.ok (.loc (offsetOf p)), s) := by
  refine Prod.ext ?_ (State.check_sram_state fun h => h.1 hr)
  rw [State.check_local s k align ak hw hr, if_neg (by omega), if_pos ha]
theorem State.check_in_own (hw : 0 < w) (hr : regionOf p = 2) (hb : offsetOf p + w ≤ k.privSize) (ha : offsetOf p % align = 0) :
    s.check k p w align ak = (.ok (.prv (offsetOf p)), s) := by
  refine Prod.ext ?_ (State.check_sram_state fun h => h.2 hr)
  rw [State.check_own s k align ak hw hr, if_neg (by omega), if_pos ha]
end
section
variable {s : State} {k : Block} {p : DWord} {f : FM} {ak : AKind}
/-- An access that lies in local memory and is aligned passes its checks. -/
theorem check_fits_local (h : regionOf p = 1 ∧ fits (offsetOf p) (accessBytes f) k.localSize) :
    s.check k p (accessBytes f) (accessBytes f) ak = (.ok (.loc (offsetOf p)), s) := by
  obtain ⟨hr, -, hb, ha⟩ := h
  exact State.check_in_local (accessBytes_pos f) hr (by exact_mod_cast hb) ha
theorem check_fits_own (h : regionOf p = 2 ∧ fits (offsetOf p) (accessBytes f) k.privSize) :
    s.check k p (accessBytes f) (accessBytes f) ak = (.ok (.prv (offsetOf p)), s) := by
  obtain ⟨hr, -, hb, ha⟩ := h
  exact State.check_in_own (accessBytes_pos f) hr (by exact_mod_cast hb) ha
end
theorem local_of_not_notLocal {p : DWord} (h : ¬ notLocal p) : (bits p.toNat 63 56 == 1 || bits p.toNat 63 56 == 2) = true := by
  simpa [notLocal, bits_region, imp_iff_not_or] using h

end Sys2Proof.Machine
end

section
/-! PROOFS. Loads and acquire loads whose checks pass (spec/07_core_memory.md R210, R224; spec/03_memory_model.md R71, R73, R75, R83), and
the statement about them (O15). -/

namespace Sys2Proof.Machine
open Sys2Proof.Safety

/-! ### Loads of local and own memory -/

section
variable (f : FM)
theorem Env.sramLoad_fits {e : Env} {s : State} {size : Nat} (region : BitVec 8) (pl : Nat → Place)
    (h : fits (e.offs f) (accessBytes f) size) : e.sramLoad s f region size pl =
      (newOp e s f.sbs.toNat (destRegs f.d (accessBytes f)) (some (loadWords (accessBytes f) (f.md.getLsbD 0)
        (s.sramRead e.k.id e.tl (pl (e.offs f).toNat) (accessBytes f)))) none false (fixedAt e s 24), none) := by
  simp only [Env.sramLoad, widthBytes_eq, offsetCause_of_fits h, landWords_sram]
  rfl
theorem ldl_completes : Completes (.ldl f) f.pred f.pneg (some f.sbs.toNat) (fun e _ => fits (e.offs f) (accessBytes f) e.k.localSize)
    fun e s => newOp e s f.sbs.toNat (destRegs f.d (accessBytes f))
      (some (loadWords (accessBytes f) (f.md.getLsbD 0) (localVal e s (e.offs f).toNat (accessBytes f)))) none false (fixedAt e s 24) :=
  completes_of_issue (fun _ => rfl) fun e s h => sramRead_loc e s _ _ ▸ Env.sramLoad_fits f 1 .loc h
theorem ldp_completes : Completes (.ldp f) f.pred f.pneg (some f.sbs.toNat) (fun e _ => fits (e.offs f) (accessBytes f) e.k.privSize)
    fun e s => newOp e s f.sbs.toNat (destRegs f.d (accessBytes f))
      (some (loadWords (accessBytes f) (f.md.getLsbD 0) (ownVal e s (e.offs f).toNat (accessBytes f)))) none false (fixedAt e s 24) :=
  completes_of_issue (fun _ => rfl) fun e s h => sramRead_prv e s _ _ ▸ Env.sramLoad_fits f 2 .prv h
theorem ld_completes_local : Completes (.ld f) f.pred f.pneg (some f.sbs.toNat)
    (fun e _ => regionOf (e.ptr f) = 1 ∧ fits (offsetOf (e.ptr f)) (accessBytes f) e.k.localSize)
    fun e s => newOp e s f.sbs.toNat (destRegs f.d (accessBytes f))
      (some (loadWords (accessBytes f) (f.md.getLsbD 0) (localVal e s (offsetOf (e.ptr f)) (accessBytes f)))) none false none := by
  refine completes_of_issue (fun _ => rfl) fun e s h => ?_
  simp only [widthBytes_eq, check_fits_local h, landWords_sram, ← sramRead_loc]
  rfl
theorem ld_completes_own : Completes (.ld f) f.pred f.pneg (some f.sbs.toNat)
    (fun e _ => regionOf (e.ptr f) = 2 ∧ fits (offsetOf (e.ptr f)) (accessBytes f) e.k.privSize)
    fun e s => newOp e s f.sbs.toNat (destRegs f.d (accessBytes f))
      (some (loadWords (accessBytes f) (f.md.getLsbD 0) (ownVal e s (offsetOf (e.ptr f)) (accessBytes f)))) none false none := by
  refine completes_of_issue (fun _ => rfl) fun e s h => ?_
  simp only [widthBytes_eq, check_fits_own h, landWords_sram, ← sramRead_prv]
  rfl

/-! ### Loads of global memory and of the constant bank -/

theorem ld_completes_global : Completes (.ld f) f.pred f.pneg (some f.sbs.toNat)
    (fun e s => reachesGlobal (chk e s (e.ptr f) (accessBytes f) .load)) fun e s =>
      atGlobal (chk e s (e.ptr f) (accessBytes f) .load) s fun pa en _ =>
        let u := chkState e s (e.ptr f) (accessBytes f) .load
        let nl1 := f.md.extractLsb' 2 2 == 2
        let low := f.md.extractLsb' 2 2 == 1
        if accessBytes f = 16 then e.loadParts u f.sbs f.d 2 8 pa (e.ptr f) en nl1 low
        else e.load u f.sbs f.d (accessBytes f) (f.md.getLsbD 0) pa (e.ptr f) en nl1 false low := by
  refine completes_of_issue (fun _ => rfl) fun e s ⟨pa, en, w, hc⟩ => ?_
  simp only [widthBytes_eq, check_eq hc, hc, atGlobal, beq_iff_eq]
theorem ldk_completes : Completes (.ldk f) f.pred f.pneg (some f.sbs.toNat)
    (fun e s => (∃ l, s.launch e.k.launch = some l ∧ fits (e.offs f) (accessBytes f) l.cbsize) ∧
      reachesGlobal (s.checkConst e.k (constAddr e s (e.offs f))).1) fun e s =>
        atGlobal (s.checkConst e.k (constAddr e s (e.offs f))).1 s fun pa en _ =>
          let u := (s.checkConst e.k (constAddr e s (e.offs f))).2
          let va := constVa e s (e.offs f)
          if 4 < accessBytes f then e.loadParts u f.sbs f.d (accessBytes f / 4) 4 pa va en false
          else e.load u f.sbs f.d (accessBytes f) false pa va en false false := by
  refine completes_of_issue (fun _ => rfl) fun e s ⟨⟨l, hl, h⟩, pa, en, w, hc⟩ => ?_
  simp only [hl, Option.map_some, Option.getD_some, widthBytes_eq, offsetCause_of_fits h, ← constAddr_eq hl, constVa]
  generalize s.checkConst e.k (constAddr e s (e.offs f)) = r at hc ⊢
  obtain ⟨_, u⟩ := r
  obtain rfl : _ = Chk.ok (.glob pa en w) := hc
  rfl

/-! ### ACQ (R224) -/

theorem acq_completes_core (hs : f.scope.toNat < 2) : Completes (.acq f) f.pred f.pneg (some f.sbs.toNat)
    (fun e s => notLocal (e.ptr f) ∧ reachesGlobal (chk e s (e.ptr f) (accessBytes f) .load)) fun e s =>
      atGlobal (chk e s (e.ptr f) (accessBytes f) .load) s fun pa en _ =>
        e.load (chkState e s (e.ptr f) (accessBytes f) .load) f.sbs f.d (accessBytes f) false pa (e.ptr f) en false true := by
  refine completes_of_issue (fun _ => rfl) fun e s ⟨hp, pa, en, w, hc⟩ => ?_
  simp only [local_of_notLocal hp, Bool.false_eq_true, if_false, widthBytes_eq, check_eq hc, hc, atGlobal, hs, if_true]
theorem acq_completes_wide (hs : 2 ≤ f.scope.toNat) : Completes (.acq f) f.pred f.pneg (some f.sbs.toNat)
    (fun e s => notLocal (e.ptr f) ∧ reachesGlobal (chk e s (e.ptr f) (accessBytes f) .load)) fun e s =>
      atGlobal (chk e s (e.ptr f) (accessBytes f) .load) s fun pa en _ =>
        let u := chkState e s (e.ptr f) (accessBytes f) .load
        let v := newOp e u f.sbs.toNat (destRegs f.d (accessBytes f)) none none true none
        asks v { e.req v .acquire (some u.nextId) pa (e.ptr f) en (accessBytes f) with acq := true, scope := f.scope.toNat } := by
  refine completes_of_issue (fun _ => rfl) fun e s ⟨hp, pa, en, w, hc⟩ => ?_
  simp only [local_of_notLocal hp, Bool.false_eq_true, if_false, widthBytes_eq, check_eq hc, hc, atGlobal, Nat.not_lt.mpr hs]
  rfl
theorem acq_stops_space : StopsOne (.acq f) f.pred f.pneg (some f.sbs.toNat) (fun e _ => ¬ notLocal (e.ptr f))
    (fun e _ => memStop 0x081 false f (e.ptr f)) fun _ s => s := by
  refine stopsOne_issue (fun e s h => ?_) (fun _ _ _ => memStop_precedes _ _ _ _) fun _ => rfl
  simp only [local_of_not_notLocal h, if_true, memTrap_eq_memStop]
  rfl
end

/-! ### One single-copy access: the core's view or the home (spec/03_memory_model.md R73, R75; R210) -/

section
variable (e : Env) (s : State) (sb : BitVec 3) (d : BitVec 8) (n w op : Nat) (sx : Bool) (pa : Nat) (va : DWord) (en : TlbEntry)
  (nl1 acq low : Bool) (i : Nat)
/-- The access may be served from the core's view: the page is not of VC 0, and no thread of the instruction has an acquiring access or a
request to the granule outstanding. -/
def ReadsHere : Prop :=
  en.vc ≠ 0 ∧ ∀ p ∈ e.parts, (s.thread e.k.id p.2).acquiring = false ∧ s.pendingAt e.k.id p.2 (pa / 128) = false
/-- The test that the model makes of it. -/
theorem readsHere_iff : (en.vc != 0 && e.parts.all fun p => !(s.thread e.k.id p.2).acquiring && !s.pendingAt e.k.id p.2 (granule pa)) = true ↔
    ReadsHere e s pa en := by
  simp [ReadsHere, granule]
variable {e s pa en}
theorem view_of_readsHere {α : Type} {seen : Option α} {x : α} (h : ReadsHere e s pa en) (hx : seen = some x) :
    (if en.vc != 0 && e.parts.all fun p => !(s.thread e.k.id p.2).acquiring && !s.pendingAt e.k.id p.2 (granule pa) then seen else none) =
      some x := by
  rw [if_pos ((readsHere_iff e s pa en).mpr h), hx]
theorem no_view_of_not_readsHere {α : Type} {seen : Option α} (h : ¬ ReadsHere e s pa en ∨ seen = none) :
    (if en.vc != 0 && e.parts.all fun p => !(s.thread e.k.id p.2).acquiring && !s.pendingAt e.k.id p.2 (granule pa) then seen else none) =
      none := by
  rcases h with h | h
  · rw [if_neg fun hb => h ((readsHere_iff e s pa en).mp hb)]
  · rw [h, ite_self]

theorem Env.load_here {bs : List Byte} (hw : w < 4 → w = 1 ∨ w = 2) (h : ReadsHere e s pa en)
    (hv : s.viewBytes ((s.block e.k.id).getD e.k) e.tl s.nextId pa w = some bs) :
    e.load s sb d w sx pa va en nl1 acq low = newOpAct e (s.touch ((s.block e.k.id).getD e.k).core (pa / 128) nl1) sb.toNat (destRegs d w)
      (some (loadWords w sx (leVal bs))) (if (s.touch ((s.block e.k.id).getD e.k).core (pa / 128) nl1).poisoned (pa / 128) then some va else none)
      acq (if acq then .acquire (pa / 128) (leVal bs) false false false false else .none) := by
  have hb : leVal bs < 256 ^ w := State.viewBytes_length hv ▸ leVal_lt bs
  simp only [Env.load, view_of_readsHere h hv, landWords_eq_loadWords sx hw hb]
  rfl
theorem Env.load_asks (h : ¬ ReadsHere e s pa en ∨ s.viewBytes ((s.block e.k.id).getD e.k) e.tl s.nextId pa w = none) :
    e.load s sb d w sx pa va en nl1 acq low =
      let v := newOp e s sb.toNat (destRegs d w) none none acq none
      asks v { e.req v .fill (some s.nextId) pa va en w with sx := sx, level := if nl1 then 1 else 0, acq := acq, low := low } := by
  simp only [Env.load, no_view_of_not_readsHere h]
  rfl
theorem Env.loadPart_here {bs : List Byte} (h : ReadsHere e s pa en)
    (hv : s.viewBytes ((s.block e.k.id).getD e.k) e.tl op (pa + 4 * i) w = some bs) :
    e.loadPart op nl1 en pa va w low s i = s.modOp e.k.id e.tl op fun x =>
      ({ x with poison := if s.poisoned (pa / 128) then some va else x.poison } : SlotOp).addPart i (wordsOf (w / 4) (leVal bs)) := by
  simp only [Env.loadPart, view_of_readsHere h hv]
  rfl
theorem Env.loadPart_asks (h : ¬ ReadsHere e s pa en ∨ s.viewBytes ((s.block e.k.id).getD e.k) e.tl op (pa + 4 * i) w = none) :
    e.loadPart op nl1 en pa va w low s i =
      asks s { e.req s .fill (some op) (pa + 4 * i) va en w with level := if nl1 then 1 else 0, low := low, wofs := some i } := by
  simp only [Env.loadPart, no_view_of_not_readsHere h]
  rfl
/-- Its accesses are made one after another, in ascending order. -/
theorem Env.loadParts_eq : e.loadParts s sb d n w pa va en nl1 low =
    (List.range n).foldl (fun u i => e.loadPart s.nextId nl1 en pa va w low u (i * (w / 4)))
      (newOp e s sb.toNat (destRegs d (n * w)) none none false none) :=
  List.foldl_map
end

/-- Settles O15: each load by itself, and then what one single-copy access reads. -/
theorem loads : Obligations.Loads := by
  refine ⟨ldl_completes, ldp_completes, ld_completes_local, ld_completes_own, ld_completes_global, ldk_completes, acq_completes_core,
    acq_completes_wide, acq_stops_space, fun e s sb d w sx pa va en nl1 acq low hw => ?_,
    fun e s sb d n w pa va en nl1 low => Env.loadParts_eq sb d n w va nl1 low, fun e s op w pa va en nl1 low i =>
      ⟨fun bs => Env.loadPart_here w op va nl1 low i, Env.loadPart_asks w op va nl1 low i⟩⟩
  have hw' : w < 4 → w = 1 ∨ w = 2 := by
    simp only [List.mem_cons, List.not_mem_nil, or_false] at hw
    omega
  exact ⟨fun bs => Env.load_here sb d w sx va nl1 acq low hw', Env.load_asks sb d w sx va nl1 acq low⟩

end Sys2Proof.Machine
end

section
/-! PROOFS. Stores, releases, PHASE and DRAINST (spec/07_core_memory.md R211, R219, R224, R226, R230; spec/03_memory_model.md R78, R90), and
the statement about them (O16). -/

namespace Sys2Proof.Machine
open Sys2Proof.Safety

/-! ### Stores of local and own memory -/

section
variable (f : FM)
theorem Env.sramStore_fits {e : Env} {s : State} {size : Nat} (region : BitVec 8) (pl : Nat → Place)
    (h : fits (e.offs f) (accessBytes f) size) : e.sramStore s f region size pl =
      (s.sramWrite e.k.id e.tl (pl (e.offs f).toNat) (accessBytes f) (e.data f.d (accessBytes f)), none) := by
  simp only [Env.sramStore, widthBytes_eq, offsetCause_of_fits h]
theorem stl_completes : Completes (.stl f) f.pred f.pneg none (fun e _ => fits (e.offs f) (accessBytes f) e.k.localSize)
    fun e s => putLocal e s (e.offs f).toNat (accessBytes f) (e.data f.d (accessBytes f)) :=
  completes_of_issue (fun _ => rfl) fun e s h => sramWrite_loc e s _ _ _ ▸ Env.sramStore_fits f 1 .loc h
theorem stp_completes : Completes (.stp f) f.pred f.pneg none (fun e _ => fits (e.offs f) (accessBytes f) e.k.privSize)
    fun e s => putOwn e s (e.offs f).toNat (accessBytes f) (e.data f.d (accessBytes f)) :=
  completes_of_issue (fun _ => rfl) fun _ _ h => Env.sramStore_fits f 2 .prv h
theorem st_completes_local : CompletesCommit (.st f) f.pred f.pneg none
    (fun e _ => regionOf (e.ptr f) = 1 ∧ fits (offsetOf (e.ptr f)) (accessBytes f) e.k.localSize)
    fun e s => putLocal e s (offsetOf (e.ptr f)) (accessBytes f) (e.data f.d (accessBytes f)) := by
  refine completes_of_issueCommit (fun _ => rfl) fun e s h => ?_
  simp only [widthBytes_eq, check_fits_local h, sramWrite_loc]
theorem st_completes_own : CompletesCommit (.st f) f.pred f.pneg none
    (fun e _ => regionOf (e.ptr f) = 2 ∧ fits (offsetOf (e.ptr f)) (accessBytes f) e.k.privSize)
    fun e s => putOwn e s (offsetOf (e.ptr f)) (accessBytes f) (e.data f.d (accessBytes f)) := by
  refine completes_of_issueCommit (fun _ => rfl) fun e s h => ?_
  simp only [widthBytes_eq, check_fits_own h, sramWrite_prv]
end

theorem precedes_hold : Stop.Precedes .hold := fun _ _ _ _ => nofun
/-- The end of the mark of a granule as the rule has it (spec/08_core_sync.md R251). -/
theorem clearMark_eq (t : Thread) (pa : Nat) : t.clearMark (granule pa) = unmark (pa / 128) t := by
  simp only [Thread.clearMark, unmark, granule, beq_iff_eq]

/-! ### The store buffer (spec/03_memory_model.md R78) -/

section
variable {e : Env} {s : State} {k : Block} (en : SbEntry) (hk : s.block e.k.id = some k)
include hk
theorem State.pushStore_room (h : k.sbuf.length < 256) : s.pushStore e.k.id en = (buffers e s en, true) := by
  simp only [State.pushStore, hk, h, if_true]
  rfl
variable (h : 256 ≤ k.sbuf.length)
include h
/-- A full buffer commits its oldest entries, irrevocably, and then takes the entry. -/
theorem State.pushStore_full (hc : (s.commitList e.k.id (fun _ => true) (overfull k)).2 = true) : s.pushStore e.k.id en =
    (buffers e ((s.commitList e.k.id (fun _ => true) (overfull (blockNow e s))).1.irrevocable e.k.id) en, true) := by
  simp only [State.pushStore, hk, Nat.not_lt.mpr h, if_false, blockNow, Option.getD_some]
  unfold overfull at hc ⊢
  generalize s.commitList e.k.id (fun _ => true) (k.sbuf.take (k.sbuf.length - 255)) = r at hc ⊢
  obtain ⟨u, _⟩ := r
  obtain rfl : _ = true := hc
  rfl
/-- While that commit cannot be made no entry enters it. -/
theorem State.pushStore_held (hc : (s.commitList e.k.id (fun _ => true) (overfull k)).2 = false) : s.pushStore e.k.id en =
    ((s.commitList e.k.id (fun _ => true) (overfull (blockNow e s))).1, false) := by
  simp only [State.pushStore, hk, Nat.not_lt.mpr h, if_false, blockNow, Option.getD_some]
  unfold overfull at hc ⊢
  generalize s.commitList e.k.id (fun _ => true) (k.sbuf.take (k.sbuf.length - 255)) = r at hc ⊢
  obtain ⟨u, _⟩ := r
  obtain rfl : _ = false := hc
  rfl
end
section
variable (f : FM)
theorem st_completes_room : CompletesCommit (.st f) f.pred f.pneg none
    (fun e s => reachesGlobal (chk e s (e.ptr f) (accessBytes f) .store) ∧
      ∃ k, (chkState e s (e.ptr f) (accessBytes f) .store).block e.k.id = some k ∧ k.sbuf.length < 256)
    fun e s => atGlobal (chk e s (e.ptr f) (accessBytes f) .store) s fun pa en w =>
      let u := chkState e s (e.ptr f) (accessBytes f) .store
      buffers e u (storeEntry e u f pa en w (f.md.extractLsb' 2 2 == 2) (f.md.extractLsb' 2 2 == 1)) := by
  refine completes_of_issueCommit (fun _ => rfl) fun e s ⟨⟨pa, en, w, hc⟩, k, hk, hr⟩ => ?_
  simp only [widthBytes_eq, check_eq hc, hc, atGlobal, State.pushStore_room _ hk hr]
  rfl
theorem st_completes_full : CompletesCommit (.st f) f.pred f.pneg none
    (fun e s => reachesGlobal (chk e s (e.ptr f) (accessBytes f) .store) ∧ (let u := chkState e s (e.ptr f) (accessBytes f) .store
      ∃ k, u.block e.k.id = some k ∧ 256 ≤ k.sbuf.length ∧ (u.commitList e.k.id (fun _ => true) (overfull k)).2 = true))
    fun e s => atGlobal (chk e s (e.ptr f) (accessBytes f) .store) s fun pa en w =>
      let u := chkState e s (e.ptr f) (accessBytes f) .store
      let v := (u.commitList e.k.id (fun _ => true) (overfull (blockNow e u))).1
      buffers e (v.modBlock e.k.id fun k => { k with nonRollback := true })
        (storeEntry e u f pa en w (f.md.extractLsb' 2 2 == 2) (f.md.extractLsb' 2 2 == 1)) := by
  refine completes_of_issueCommit (fun _ => rfl) fun e s ⟨⟨pa, en, w, hc⟩, k, hk, hf, ht⟩ => ?_
  simp only [widthBytes_eq, check_eq hc, hc, atGlobal, State.pushStore_full _ hk hf ht]
  rfl
theorem st_holds : StopsOne (.st f) f.pred f.pneg none
    (fun e s => reachesGlobal (chk e s (e.ptr f) (accessBytes f) .store) ∧ (let u := chkState e s (e.ptr f) (accessBytes f) .store
      ∃ k, u.block e.k.id = some k ∧ 256 ≤ k.sbuf.length ∧ (u.commitList e.k.id (fun _ => true) (overfull k)).2 = false))
    (fun _ _ => .hold) fun e s => let u := chkState e s (e.ptr f) (accessBytes f) .store
      (u.commitList e.k.id (fun _ => true) (overfull (blockNow e u))).1 := by
  refine stopsOne_issueCommit (fun e s ⟨⟨pa, en, w, hc⟩, k, hk, hf, ht⟩ => ?_) (fun _ _ _ => precedes_hold) fun _ => rfl
  simp only [widthBytes_eq, check_eq hc, State.pushStore_held _ hk hf ht]
end

/-! ### Commits, and the group that waits for one (R230) -/

theorem commitBlock_done {e : Env} {s : State} (h : (s.commitBlock e.k.id).2 = true) : s.commitBlock e.k.id = (commits e s, true) :=
  Prod.ext rfl h
theorem commitBlock_held {e : Env} {s : State} (h : (s.commitBlock e.k.id).2 = false) : s.commitBlock e.k.id = (commits e s, false) :=
  Prod.ext rfl h
theorem mem_insStop (x y : (Nat × Nat) × Stop) (l : List ((Nat × Nat) × Stop)) : y ∈ insStop x l ↔ y = x ∨ y ∈ l := by
  refine ⟨insStop_mem x y l, fun h => ?_⟩
  induction l with
  | nil => simpa [insStop] using h
  | cons a r ih => grind [insStop]
theorem mem_holdLanes (l : List (Nat × Nat)) (acc : List ((Nat × Nat) × Stop)) (x : (Nat × Nat) × Stop) :
    x ∈ l.foldl (fun l p => insStop (p, .hold) l) acc ↔ (∃ q ∈ l, x = (q, .hold)) ∨ x ∈ acc := by
  induction l generalizing acc with
  | nil => simp
  | cons q r ih =>
    rw [List.foldl_cons, ih, mem_insStop]
    grind
/-- While one lane waits for a commit, every lane of its group does. -/
theorem mem_holdAll (g : Group) (p q : Nat × Nat) (h : q ∈ g.lanes) : (q, Stop.hold) ∈ holdAll g [(p, .hold)] := by
  rw [holdAll, if_pos (by simp), mem_holdLanes]
  by_cases hp : q = p
  · exact .inr (hp ▸ List.mem_singleton_self _)
  · exact .inl ⟨q, List.mem_filter.mpr ⟨h, by simpa using Ne.symm hp⟩, rfl⟩
/-- An instruction that commits stores for its whole group: with its one active lane held, the group waits. -/
theorem holdsAll_of_issueCommit {i : Instr} {pred : BitVec 3} {pneg : Bool} {lane : Env → State → LaneOut}
    (he : ∀ s, exec i s = issueCommit i pred pneg none lane s true) {s : State} {g : Group} {k : Block} {p : Nat × Nat} {u : State}
    (h : Alone i pred pneg s g k p) (hl : lane (laneEnv pred pneg s g k p) (atIssue i s k p) = (u, some .hold)) :
    exec i s = .next (finishInstr (u.modThread k.id p.2 fun t => { t with regs := (k.thread p.2).regs }) g (holdAll g [(p, .hold)])) := by
  obtain ⟨rest, ho⟩ := opens_of_front h.front
  have hs := srcStop_filter h.toReady
  rw [h.alone] at hs
  simp only [laneEnv, h.alone, atIssue] at hl
  rw [he]
  simp only [issueCommit, ho, h.block, h.alone, slotFull, hs.1, hs.2, runLanes, hl]
  simp only [List.any_cons, List.any_nil, beq_self_eq_true, Bool.true_or, Bool.not_true, Bool.false_and, Bool.false_eq_true, if_false,
    if_true, List.filter_cons, List.filter_nil, List.filterMap_nil, List.append_nil, List.foldl_nil]

section
variable (f : FM)
theorem drainst_completes : CompletesCommit (.drainst f) f.pred f.pneg none (fun e s => (s.commitBlock e.k.id).2 = true)
    fun e s => commits e s := by
  refine completes_of_issueCommit (fun _ => rfl) fun e s h => ?_
  simp only [commitBlock_done h]
theorem drainst_holds (s : State) (g : Group) (k : Block) (p : Nat × Nat) (h : Alone (.drainst f) f.pred f.pneg s g k p)
    (hc : ((atIssue (.drainst f) s k p).commitBlock k.id).2 = false) :
    exec (.drainst f) s = .next (finishInstr (((atIssue (.drainst f) s k p).commitBlock k.id).1.modThread k.id p.2 fun t =>
      { t with regs := (k.thread p.2).regs }) g (holdAll g [(p, .hold)])) := by
  refine holdsAll_of_issueCommit (fun _ => rfl) h ?_
  have hd := commitBlock_held (e := laneEnv f.pred f.pneg s g k p) hc
  simp only [hd]
  rfl

/-! ### PHASE (R226) -/

theorem phase_completes : CompletesCommit (.phase f) f.pred f.pneg none (fun e s => (s.commitBlock e.k.id).2 = true) fun e s =>
    let u := (irrevocableFrom 2 f e (commits e s)).modThread e.k.id e.tl fun t => { t with phases := t.phases + 1 }
    u.fence (.phase e.k.id e.tl f.scope.toNat) [e.k.core] (fun _ _ => true) (u.older e.k.id e.tl) := by
  refine completes_of_issueCommit (fun _ => rfl) fun e s h => ?_
  simp only [commitBlock_done h]
  rfl
theorem phase_holds : StopsOne (.phase f) f.pred f.pneg none (fun e s => (s.commitBlock e.k.id).2 = false) (fun _ _ => .hold)
    fun e s => commits e s := by
  refine stopsOne_issueCommit (fun e s h => ?_) (fun _ _ _ => precedes_hold) fun _ => rfl
  simp only [commitBlock_held h]

/-! ### REL (R219, R224) -/

theorem rel_completes : CompletesCommit (.rel f) f.pred f.pneg none
    (fun e s => notLocal (e.ptr f) ∧ (∃ pa en, chk e s (e.ptr f) (accessBytes f) .store = .ok (.glob pa en true)) ∧
      ((chkState e s (e.ptr f) (accessBytes f) .store).commitBlock e.k.id).2 = true)
    fun e s => atGlobal (chk e s (e.ptr f) (accessBytes f) .store) s fun pa en _ =>
      let u := commits e (chkState e s (e.ptr f) (accessBytes f) .store)
      let v := if 2 ≤ f.scope.toNat then (irrevocableFrom 2 f e u).modThread e.k.id e.tl (unmark (pa / 128)) else u
      asks v { e.req v .release none pa (e.ptr f) en (accessBytes f) with
        data := e.data f.d (accessBytes f), rel := true, scope := f.scope.toNat } := by
  refine completes_of_issueCommit (fun _ => rfl) fun e s ⟨hp, ⟨pa, en, hc⟩, ht⟩ => ?_
  simp only [local_of_notLocal hp, Bool.false_eq_true, if_false, widthBytes_eq, check_eq hc, commitBlock_done ht, hc, atGlobal, if_true,
    decide_eq_true_eq]
  by_cases hs : 2 ≤ f.scope.toNat
  · simp only [hs, if_true, irrevocableFrom, clearMark_eq]
    rfl
  · simp only [hs, if_false]
    rfl
theorem rel_stops_space : StopsOne (.rel f) f.pred f.pneg none (fun e _ => ¬ notLocal (e.ptr f))
    (fun e _ => memStop 0x081 true f (e.ptr f)) fun _ s => s := by
  refine stopsOne_issueCommit (fun e s h => ?_) (fun _ _ _ => memStop_precedes _ _ _ _) fun _ => rfl
  simp only [local_of_not_notLocal h, if_true, memTrap_eq_memStop]
  rfl
theorem rel_stops_protected (pa : Nat) (en : TlbEntry) (va : DWord) (d : Word) : StopsDone (.rel f) f.pred f.pneg none
    (fun e s => notLocal (e.ptr f) ∧ chk e s (e.ptr f) (accessBytes f) .store = .ok (.glob pa en false) ∧
      (let u := chkState e s (e.ptr f) (accessBytes f) .store
       (u.commitBlock e.k.id).2 = true ∧ ∃ n, (me e ((commits e u).modBlock e.k.id fun k =>
        k.storeFault (storeEntry e (commits e u) f pa en false false false))).pendSf = some (va, n, d)))
    (fun _ _ => .trap 0x088 d va true true)
    fun e s => let u := commits e (chkState e s (e.ptr f) (accessBytes f) .store)
      u.modBlock e.k.id fun k => k.storeFault (storeEntry e u f pa en false false false) := by
  refine stopsDone_of_issueCommit (fun _ => rfl) (fun e s ⟨hp, hc, ht, n, hn⟩ => ?_) fun _ _ _ => ⟨_, _, _, _, rfl⟩
  simp only [local_of_notLocal hp, Bool.false_eq_true, if_false, widthBytes_eq, check_eq hc, commitBlock_done ht]
  exact congrArg (_, ·) ((congrArg (Option.map _) hn).trans rfl)
theorem rel_holds : StopsOne (.rel f) f.pred f.pneg none
    (fun e s => notLocal (e.ptr f) ∧ reachesGlobal (chk e s (e.ptr f) (accessBytes f) .store) ∧
      ((chkState e s (e.ptr f) (accessBytes f) .store).commitBlock e.k.id).2 = false)
    (fun _ _ => .hold) fun e s => commits e (chkState e s (e.ptr f) (accessBytes f) .store) := by
  refine stopsOne_issueCommit (fun e s ⟨hp, ⟨pa, en, w, hc⟩, ht⟩ => ?_) (fun _ _ _ => precedes_hold) fun _ => rfl
  simp only [local_of_notLocal hp, Bool.false_eq_true, if_false, widthBytes_eq, check_eq hc, commitBlock_held ht]
end

/-- Settles O16: each store, and each instruction that commits the store buffer, by itself. -/
theorem stores : Obligations.Stores :=
  ⟨stl_completes, stp_completes, st_completes_local, st_completes_own, st_completes_room, st_completes_full, st_holds, rel_completes,
    rel_stops_space, rel_stops_protected, rel_holds, drainst_completes, drainst_holds, mem_holdAll, phase_completes, phase_holds⟩

end Sys2Proof.Machine
end

section
/-! PROOFS. Atomics on local, own and global memory, and the integer operations (spec/07_core_memory.md R220 to R222), and the statement
about them (O17). -/

namespace Sys2Proof.Machine
open Sys2Proof.Safety

/-! ### The integer operations (R221) -/

section
variable {n : Nat} (old v cmp : BitVec n)
theorem sext_toNat (x : BitVec n) : sext x.toNat n = x.toInt := by
  rw [sext_eq_toInt, BitVec.ofNat_toNat, BitVec.setWidth_eq]
theorem map_toNat_ite (p : Prop) [Decidable p] (x y : BitVec n) :
    (some (if p then x else y)).map (·.toNat) = some (if p then x.toNat else y.toNat) := by
  split <;> rfl
variable {old v}
/-- A word above zero has a bit. -/
theorem width_pos_of_toNat_pos (h : 0 < v.toNat) : 0 < n := by
  rcases n with _ | n
  · simp [BitVec.eq_nil v] at h
  · omega
theorem toNat_succ_of_lt (h : old.toNat < v.toNat) : (old + 1).toNat = old.toNat + 1 := by
  have hv := v.isLt
  have h1 : (1 : BitVec n).toNat = 1 := BitVec.toNat_one (width_pos_of_toNat_pos (Nat.zero_lt_of_lt h))
  rw [BitVec.toNat_add_of_lt (by omega), h1]
theorem toNat_pred_of_pos (h : 0 < old.toNat) : (old - 1).toNat = old.toNat - 1 := by
  have h1 : (1 : BitVec n).toNat = 1 := BitVec.toNat_one (width_pos_of_toNat_pos h)
  rw [BitVec.toNat_sub_of_le (by rw [BitVec.le_def]; omega), h1]
variable (old v)
/-- The increment wraps to 0 where the old value has reached v. -/
theorem atomInc_eq : (if v.toNat ≤ old.toNat then 0 else old.toNat + 1) = (if v.ule old then 0 else old + 1 : BitVec n).toNat := by
  simp only [BitVec.ule_eq_decide, decide_eq_true_eq]
  by_cases h : v.toNat ≤ old.toNat
  · rw [if_pos h, if_pos h]
    rfl
  · rw [if_neg h, if_neg h, toNat_succ_of_lt (Nat.lt_of_not_le h)]
/-- The decrement wraps to v from 0, and from above v. -/
theorem atomDec_eq : (if old.toNat == 0 || decide (v.toNat < old.toNat) then v.toNat else old.toNat - 1) =
    (if old = 0 ∨ v.ult old = true then v else old - 1 : BitVec n).toNat := by
  have h0 : old = 0 ↔ old.toNat = 0 := by rw [BitVec.toNat_eq]; rfl
  simp only [BitVec.ult_eq_decide, decide_eq_true_eq, h0, Bool.or_eq_true, beq_iff_eq]
  by_cases h : old.toNat = 0 ∨ v.toNat < old.toNat
  · rw [if_pos h, if_pos h]
  · rw [if_neg h, if_neg h, toNat_pred_of_pos (by omega)]
/-- The model's operations on numbers are those of the rule on words. -/
theorem atomNew_eq_atomResult {op : Nat} (h : op ≤ 11) :
    atomNew op n old.toNat v.toNat cmp.toNat = (atomResult n op old v cmp).map (·.toNat) := by
  interval_cases op <;> simp only [atomNew, atomResult, map_toNat_ite, sext_toNat]
  · exact congrArg some (BitVec.toNat_add ..).symm
  · grind [BitVec.slt_eq_decide]
  · grind [BitVec.slt_eq_decide]
  · grind [BitVec.ult_eq_decide]
  · grind [BitVec.ult_eq_decide]
  · exact congrArg some (BitVec.toNat_and ..).symm
  · exact congrArg some (BitVec.toNat_or ..).symm
  · exact congrArg some (BitVec.toNat_xor ..).symm
  · rfl
  · rw [Option.map_if]
    simp only [beq_iff_eq, BitVec.toNat_inj]
  · rw [atomInc_eq, apply_ite BitVec.toNat]
  · rw [atomDec_eq, apply_ite BitVec.toNat]
end

/-! ### Local and own memory (R222) -/

section
variable (f : FM)
/-- The fields of ORD say whether a release or an acquire part is there. -/
theorem ord_eq_zero_iff : f.off.extractLsb' 18 2 = 0 ↔ (fmAcq f || fmRel f) = false := by
  unfold fmAcq fmRel
  refine ⟨fun h => ?_, fun h => ?_⟩
  · have h18 : f.off.getLsbD 18 = false := by simpa using congrArg (·.getLsbD 0) h
    have h19 : f.off.getLsbD 19 = false := by simpa using congrArg (·.getLsbD 1) h
    rw [h18, h19, Bool.or_false]
  · obtain ⟨h18, h19⟩ := Bool.or_eq_false_iff.mp h
    refine BitVec.eq_of_getLsbD_eq fun i hi => ?_
    interval_cases i <;> simpa
/-- What the state becomes when the memory at `old` is given the result: as `put` writes it, or as it was when a compare fails (R221). -/
def atomPut (e : Env) (s : State) (f : FM) (old : Nat) (put : Nat → State) : State :=
  match atomNew f.md.toNat (8 * accessBytes f) old (e.atomOps f).1 (e.atomOps f).2 with
  | some v => put v
  | none => s
theorem Env.sramAtom_eq (e : Env) (s : State) (pl : Place) : e.sramAtom s f pl =
    (atomPut e s f (s.sramRead e.k.id e.tl pl (accessBytes f)) (s.sramWrite e.k.id e.tl pl (accessBytes f)),
      s.sramRead e.k.id e.tl pl (accessBytes f)) := by
  unfold Env.sramAtom atomPut
  simp only [widthBytes_eq]
  cases atomNew f.md.toNat (8 * accessBytes f) (s.sramRead e.k.id e.tl pl (accessBytes f)) (e.atomOps f).1 (e.atomOps f).2 <;> rfl
theorem sramAtom_loc (e : Env) (s : State) (a : Nat) : e.sramAtom s f (.loc a) =
    (atomPut e s f (localVal e s a (accessBytes f)) (putLocal e s a (accessBytes f)), localVal e s a (accessBytes f)) := by
  simp only [Env.sramAtom_eq, sramRead_loc, funext (sramWrite_loc e s a (accessBytes f))]
theorem sramAtom_prv (e : Env) (s : State) (a : Nat) : e.sramAtom s f (.prv a) =
    (atomPut e s f (ownVal e s a (accessBytes f)) (putOwn e s a (accessBytes f)), ownVal e s a (accessBytes f)) := by
  simp only [Env.sramAtom_eq, sramRead_prv, funext (sramWrite_prv e s a (accessBytes f))]
theorem atoml_completes : Completes (.atoml f) f.pred f.pneg (some f.sbs.toNat)
    (fun e _ => fits (e.aoffs f) (accessBytes f) e.k.localSize) fun e s =>
      let old := localVal e s (e.aoffs f).toNat (accessBytes f)
      let u := atomPut e s f old (putLocal e s (e.aoffs f).toNat (accessBytes f))
      newOp e u f.sbs.toNat (destRegs f.d (accessBytes f)) (some (wordsOf (accessBytes f / 4) old)) none false (fixedAt e u 32) := by
  refine completes_of_issue (fun _ => rfl) fun e s h => ?_
  simp only [widthBytes_eq, offsetCause_of_fits h, sramAtom_loc]
  rfl

/-- What ATOM and RED leave of local or own memory, when the place passes its checks. -/
theorem Env.atomLane_sram {e : Env} {s : State} {pl : Place} (lands : Bool) (ho : f.off.extractLsb' 18 2 = 0) (hg : ∀ pa en w, pl ≠ .glob pa en w)
    (hc : s.check e.k (e.aptr f) (accessBytes f) (accessBytes f) .atomic = (.ok pl, s)) : e.atomLane s f lands =
      (if lands then newOp e (e.sramAtom s f pl).1 f.sbs.toNat (destRegs f.d (accessBytes f))
        (some (wordsOf (accessBytes f / 4) (e.sramAtom s f pl).2)) none false none
      else (e.sramAtom s f pl).1, none) := by
  unfold Env.atomLane
  simp only [(ord_eq_zero_iff f).mp ho, Bool.and_false, Bool.false_eq_true, if_false, widthBytes_eq, hc]
  cases pl with
  | loc a => rfl
  | prv a => rfl
  | glob pa en w => exact absurd rfl (hg pa en w)
end
section
variable (f : FM) (ho : f.off.extractLsb' 18 2 = 0)
include ho
theorem atom_completes_local : CompletesCommit (.atom f) f.pred f.pneg (some f.sbs.toNat)
    (fun e _ => regionOf (e.aptr f) = 1 ∧ fits (offsetOf (e.aptr f)) (accessBytes f) e.k.localSize) fun e s =>
      let old := localVal e s (offsetOf (e.aptr f)) (accessBytes f)
      newOp e (atomPut e s f old (putLocal e s (offsetOf (e.aptr f)) (accessBytes f))) f.sbs.toNat (destRegs f.d (accessBytes f))
        (some (wordsOf (accessBytes f / 4) old)) none false none :=
  completes_of_issueCommit (fun _ => rfl) fun e s h => by
    rw [Env.atomLane_sram f true ho (fun _ _ _ => Place.noConfusion) (check_fits_local h), sramAtom_loc]
    rfl
theorem atom_completes_own : CompletesCommit (.atom f) f.pred f.pneg (some f.sbs.toNat)
    (fun e _ => regionOf (e.aptr f) = 2 ∧ fits (offsetOf (e.aptr f)) (accessBytes f) e.k.privSize) fun e s =>
      let old := ownVal e s (offsetOf (e.aptr f)) (accessBytes f)
      newOp e (atomPut e s f old (putOwn e s (offsetOf (e.aptr f)) (accessBytes f))) f.sbs.toNat (destRegs f.d (accessBytes f))
        (some (wordsOf (accessBytes f / 4) old)) none false none :=
  completes_of_issueCommit (fun _ => rfl) fun e s h => by
    rw [Env.atomLane_sram f true ho (fun _ _ _ => Place.noConfusion) (check_fits_own h), sramAtom_prv]
    rfl
theorem red_completes_local : CompletesCommit (.red f) f.pred f.pneg none
    (fun e _ => regionOf (e.aptr f) = 1 ∧ fits (offsetOf (e.aptr f)) (accessBytes f) e.k.localSize) fun e s =>
      atomPut e s f (localVal e s (offsetOf (e.aptr f)) (accessBytes f)) (putLocal e s (offsetOf (e.aptr f)) (accessBytes f)) :=
  completes_of_issueCommit (fun _ => rfl) fun e s h => by
    rw [Env.atomLane_sram f false ho (fun _ _ _ => Place.noConfusion) (check_fits_local h), sramAtom_loc]
    rfl
theorem red_completes_own : CompletesCommit (.red f) f.pred f.pneg none
    (fun e _ => regionOf (e.aptr f) = 2 ∧ fits (offsetOf (e.aptr f)) (accessBytes f) e.k.privSize) fun e s =>
      atomPut e s f (ownVal e s (offsetOf (e.aptr f)) (accessBytes f)) (putOwn e s (offsetOf (e.aptr f)) (accessBytes f)) :=
  completes_of_issueCommit (fun _ => rfl) fun e s h => by
    rw [Env.atomLane_sram f false ho (fun _ _ _ => Place.noConfusion) (check_fits_own h), sramAtom_prv]
    rfl
end

/-! ### Global memory (R222; spec/03_memory_model.md R92) -/

section
variable (f : FM) (lands : Bool)
/-- ATOM and RED issue alike. -/
theorem exec_atomic (s : State) : exec (if lands then .atom f else .red f) s =
    issueCommit (if lands then .atom f else .red f) f.pred f.pneg (if lands then some f.sbs.toNat else none)
      (fun e s => e.atomLane s f lands) s := by
  cases lands <;> rfl
theorem Env.atomLane_global {e : Env} {s : State} {pa : Nat} {en : TlbEntry} {w : Bool} (hp : notLocal (e.aptr f))
    (hc : chk e s (e.aptr f) (accessBytes f) .atomic = .ok (.glob pa en w)) :
    e.atomLane s f lands = e.globalAtom (chkState e s (e.aptr f) (accessBytes f) .atomic) f pa (e.aptr f) en lands := by
  unfold Env.atomLane
  simp only [local_of_notLocal hp, Bool.false_and, Bool.false_eq_true, if_false, widthBytes_eq, check_eq hc]
/-- What ATOM and RED leave when they ask the home. -/
def asksAtomic (e : Env) (s : State) (f : FM) (lands : Bool) (pa : Nat) (en : TlbEntry) : State :=
  let u := if f.off.getLsbD 19 then commits e s else s
  let u := u.modBlock e.k.id fun k => { k with nonRollback := true }
  let u := if f.off.getLsbD 19 ∧ 2 ≤ f.scope.toNat then u.modThread e.k.id e.tl (unmark (pa / 128)) else u
  let u := (u.dropCopy e.k.core (pa / 128)).dropL2 e.k.core.die (pa / 128)
  let v := if lands then newOp e u f.sbs.toNat (destRegs f.d (accessBytes f)) none none (f.off.getLsbD 18) none else u
  asks v { e.req v .atomic (if lands then some u.nextId else none) pa (e.aptr f) en (accessBytes f) with
    data := (e.atomOps f).1, cmp := (e.atomOps f).2, aop := f.md.toNat, acq := f.off.getLsbD 18, rel := f.off.getLsbD 19
    scope := f.scope.toNat }
variable {e : Env} {s : State} (pa : Nat) (en : TlbEntry)
theorem Env.globalAtom_asks (h : f.off.getLsbD 19 = true → (s.commitBlock e.k.id).2 = true) :
    e.globalAtom s f pa (e.aptr f) en lands = (asksAtomic e s f lands pa en, none) := by
  have hr : (if fmRel f then s.commitBlock e.k.id else (s, true)) = (if f.off.getLsbD 19 then commits e s else s, true) := by
    unfold fmRel
    split
    · exact commitBlock_done (h ‹_›)
    · rfl
  have hm : (fun t => Thread.clearMark t (granule pa)) = unmark (pa / 128) := funext fun t => clearMark_eq t pa
  simp only [Env.globalAtom, hr, hm, Bool.and_eq_true, decide_eq_true_eq]
  rfl
theorem Env.globalAtom_holds (hr : f.off.getLsbD 19 = true) (h : (s.commitBlock e.k.id).2 = false) :
    e.globalAtom s f pa (e.aptr f) en lands = (commits e s, some .hold) := by
  simp only [Env.globalAtom, fmRel, hr, if_true, commitBlock_held h]
theorem atomic_completes_global :
    CompletesCommit (if lands then .atom f else .red f) f.pred f.pneg (if lands then some f.sbs.toNat else none)
      (fun e s => notLocal (e.aptr f) ∧ reachesGlobal (chk e s (e.aptr f) (accessBytes f) .atomic) ∧
        (f.off.getLsbD 19 = true → ((chkState e s (e.aptr f) (accessBytes f) .atomic).commitBlock e.k.id).2 = true))
      fun e s => atGlobal (chk e s (e.aptr f) (accessBytes f) .atomic) s fun pa en _ =>
        asksAtomic e (chkState e s (e.aptr f) (accessBytes f) .atomic) f lands pa en := by
  refine completes_of_issueCommit (exec_atomic f lands) fun e s ⟨hp, ⟨pa, en, w, hc⟩, ht⟩ => ?_
  rw [Env.atomLane_global f lands hp hc, Env.globalAtom_asks f lands pa en ht, hc]
  rfl
theorem atomic_holds (hr : f.off.getLsbD 19 = true) :
    StopsOne (if lands then .atom f else .red f) f.pred f.pneg (if lands then some f.sbs.toNat else none)
      (fun e s => notLocal (e.aptr f) ∧ reachesGlobal (chk e s (e.aptr f) (accessBytes f) .atomic) ∧
        ((chkState e s (e.aptr f) (accessBytes f) .atomic).commitBlock e.k.id).2 = false)
      (fun _ _ => .hold) fun e s => commits e (chkState e s (e.aptr f) (accessBytes f) .atomic) :=
  stopsOne_issueCommit (fun e s ⟨hp, ⟨pa, en, w, hc⟩, ht⟩ => by
    rw [Env.atomLane_global f lands hp hc, Env.globalAtom_holds f lands pa en hr ht]) (fun _ _ _ => precedes_hold) (exec_atomic f lands)
theorem atomic_stops_space (ho : f.off.extractLsb' 18 2 ≠ 0) :
    StopsOne (if lands then .atom f else .red f) f.pred f.pneg (if lands then some f.sbs.toNat else none)
      (fun e _ => ¬ notLocal (e.aptr f)) (fun e _ => memStop 0x081 true f (e.aptr f)) fun _ s => s := by
  refine stopsOne_issueCommit (fun e s h => ?_) (fun _ _ _ => memStop_precedes _ _ _ _) (exec_atomic f lands)
  have hord : (fmAcq f || fmRel f) = true := by simpa only [Bool.not_eq_false] using mt (ord_eq_zero_iff f).mpr ho
  simp only [Env.atomLane, local_of_not_notLocal h, hord, Bool.and_true, if_true, memTrap_eq_memStop]
  rfl
end

/-- Settles O17: each atomic by the memory it acts on, and the integer operations. -/
theorem atomics : Obligations.Atomics :=
  ⟨atoml_completes, atom_completes_local, atom_completes_own, red_completes_local, red_completes_own, atomic_stops_space,
    atomic_completes_global, atomic_holds, fun _ _ _ h old v cmp => atomNew_eq_atomResult old v cmp h⟩

end Sys2Proof.Machine
end

section
/-! PROOFS. PREF, CLINE and VCQRY (spec/07_core_memory.md R228, R229; spec/18_cache.md R463), and the statement about them (O18). -/

namespace Sys2Proof.Machine
open Sys2Proof.Safety

section
variable (f : FM)

/-! ### PREF (R228) -/

/-- A prefetch that does not reach global memory is dropped. -/
theorem pref_completes : Completes (.pref f) f.pred f.pneg none (fun _ _ => True) fun e s =>
    let u := (s.check e.k (e.ptr f) 1 1 .pref).2
    atGlobal (s.check e.k (e.ptr f) 1 1 .pref).1 u fun pa en _ =>
      if en.vc = 0 then u
      else asks u { e.req u .fill none (pa / 128 * 128) (e.ptr f) en 1 with level := f.md.toNat } := by
  refine completes_of_issue (fun _ => rfl) fun e s _ => ?_
  dsimp only
  generalize s.check e.k (e.ptr f) 1 1 .pref = r
  obtain ⟨c, u⟩ := r
  cases c with
  | trap x => rfl
  | park g => rfl
  | ok pl =>
    cases pl with
    | loc a => rfl
    | prv a => rfl
    | glob pa en w =>
      by_cases hv : en.vc = 0
      · simp [atGlobal, hv]
      · simp only [atGlobal, beq_iff_eq, hv, if_false]
        rfl

/-! ### CLINE (R229) -/

/-- What CLINE does to a granule, by its operation. -/
theorem State.cline_eq (s : State) (c : CoreRef) (g : Nat) (op : BitVec 4) : s.cline c g op.toNat =
    (let w := if op = 0 ∨ op = 2 then s.arriveWb c g else s
     if op = 0 then w
     else if op = 1 ∨ op = 2 then (w.dropCopy c g).dropL2 c.die g
     else w.setCore c { w.core c with copies := [] }) := by
  by_cases h0 : op = 0
  · subst h0; rfl
  by_cases h1 : op = 1
  · subst h1; rfl
  by_cases h2 : op = 2
  · subst h2; rfl
  have hne : op.toNat ≠ 0 ∧ op.toNat ≠ 1 ∧ op.toNat ≠ 2 :=
    ⟨fun h => h0 (BitVec.eq_of_toNat_eq h), fun h => h1 (BitVec.eq_of_toNat_eq h), fun h => h2 (BitVec.eq_of_toNat_eq h)⟩
  simp only [h0, h1, h2, or_self, if_false]
  unfold State.cline
  split
  · exact absurd ‹_› hne.1
  · exact absurd ‹_› hne.2.1
  · exact absurd ‹_› hne.2.2
  · rfl
theorem cline_completes : Completes (.cline f) f.pred f.pneg none (fun e s => reachesGlobal (s.check e.k (e.ptr f) 1 1 .cline).1) fun e s =>
    atGlobal (s.check e.k (e.ptr f) 1 1 .cline).1 s fun pa _ _ =>
      let u := (s.check e.k (e.ptr f) 1 1 .cline).2
      let w := if f.md = 0 ∨ f.md = 2 then u.arriveWb e.k.core (pa / 128) else u
      if f.md = 0 then w
      else if f.md = 1 ∨ f.md = 2 then (w.dropCopy e.k.core (pa / 128)).dropL2 e.k.core.die (pa / 128)
      else w.setCore e.k.core { w.core e.k.core with copies := [] } := by
  refine completes_of_issue (fun _ => rfl) fun e s ⟨pa, en, w, hc⟩ => ?_
  simp only [check_eq (w := 1) hc, atGlobal, State.cline_eq]
  rfl
theorem cline_idles : Completes (.cline f) f.pred f.pneg none
    (fun e _ => (regionOf (e.ptr f) = 1 ∧ offsetOf (e.ptr f) < e.k.localSize) ∨ (regionOf (e.ptr f) = 2 ∧ offsetOf (e.ptr f) < e.k.privSize))
    fun _ s => s := by
  refine completes_of_issue (fun _ => rfl) fun e s h => ?_
  rcases h with ⟨hr, hb⟩ | ⟨hr, hb⟩
  · simp only [State.check_in_local Nat.one_pos hr hb (Nat.mod_one _)]
  · simp only [State.check_in_own Nat.one_pos hr hb (Nat.mod_one _)]

/-! ### VCQRY (spec/18_cache.md R463) -/

theorem vcqry_completes_entry (hm : f.md = 0) : Completes (.vcqry f) f.pred f.pneg (some f.sbs.toNat) (fun e _ => (e.r f.a).toNat < 256)
    fun e s =>
      let v := (s.ctx e.k.ctx).bind fun c => tget c.vcs (e.r f.a).toNat
      let w0 : DWord := (v.map (·.w0)).getD 0
      let w2 : DWord := (v.map (·.word2)).getD 0
      newOp e s f.sbs.toNat (destRegs f.d 16)
        (some [w0.setWidth 32, (w0 >>> 32).setWidth 32, w2.setWidth 32, (w2 >>> 32).setWidth 32]) none false none := by
  refine completes_of_issue (fun _ => rfl) fun e s h => ?_
  have hi : ((e.r f.a).toNat / 256 != 0) = false := by simp [Nat.div_eq_of_lt h]
  simp only [hm, beq_self_eq_true, if_true, hi, Bool.false_eq_true, if_false, wordsOf_two]
  rfl
theorem vcqry_stops_index (hm : f.md = 0) : StopsOne (.vcqry f) f.pred f.pneg (some f.sbs.toNat) (fun e _ => 256 ≤ (e.r f.a).toNat)
    (fun _ _ => .trap 0x090 0 0 false false) fun _ s => s := by
  refine stopsOne_issue (fun e s h => ?_) (fun _ _ _ _ _ _ _ => nofun) fun _ => rfl
  have hi : ((e.r f.a).toNat / 256 != 0) = true := by
    rw [bne_iff_ne]
    omega
  simp only [hm, beq_self_eq_true, hi, if_true]
  rfl
variable (hm : f.md ≠ 0)
include hm
theorem vcqry_completes_record : Completes (.vcqry f) f.pred f.pneg (some f.sbs.toNat)
    (fun e s => notLocal (e.ptr f) ∧ reachesGlobal (chk e s (e.ptr f) 8 .query)) fun e s =>
      atGlobal (chk e s (e.ptr f) 8 .query) s fun pa en _ =>
        let u := chkState e s (e.ptr f) 8 .query
        let w : DWord := if f.md = 1 then (u.srec (pa / 128)).word else u.dirWord (pa / 128) en.trk
        newOp e u f.sbs.toNat (destRegs f.d 8) (some [w.setWidth 32, (w >>> 32).setWidth 32]) none false none := by
  refine completes_of_issue (fun _ => rfl) fun e s ⟨hp, pa, en, w, hc⟩ => ?_
  simp only [beq_eq_false_iff_ne.mpr hm, local_of_notLocal hp, Bool.false_eq_true, if_false, check_eq hc, hc, atGlobal, wordsOf_two, beq_iff_eq]
  rfl
theorem vcqry_stops_space : StopsOne (.vcqry f) f.pred f.pneg (some f.sbs.toNat) (fun e _ => ¬ notLocal (e.ptr f))
    (fun e _ => memStop 0x081 false f (e.ptr f)) fun _ s => s := by
  refine stopsOne_issue (fun e s h => ?_) (fun _ _ _ => memStop_precedes _ _ _ _) fun _ => rfl
  simp only [beq_eq_false_iff_ne.mpr hm, local_of_not_notLocal h, Bool.false_eq_true, if_false, if_true, memTrap_eq_memStop]
  rfl
end

/-- Settles O18: each of the three instructions, by what its checks find. -/
theorem cacheControl : Obligations.CacheControl :=
  ⟨pref_completes, cline_completes, cline_idles, vcqry_completes_entry, vcqry_completes_record, vcqry_stops_index, vcqry_stops_space⟩

end Sys2Proof.Machine
end

section
/-! PROOFS. Scoped barriers: BAR, BARARV and BARWAIT, and the completion of a phase (spec/08_core_sync.md R234, R235), and the statement
about them (O21). -/

namespace Sys2Proof.Machine
open Sys2Proof.Safety

/-! ### Where a barrier is allowed (spec/02_execution.md R52, R53) -/

theorem State.barIllegal_eq_false_iff {s : State} {k : Block} {scope : Nat} : s.barIllegal k scope = false ↔ barAllowed s k scope := by
  have hs : decide (2 ≤ scope) = false ↔ scope ≤ 1 := by rw [decide_eq_false_iff_not]; omega
  unfold State.barIllegal barAllowed
  rw [Bool.and_eq_false_iff, hs]
  cases s.launch k.launch with
  | none => simp
  | some l =>
    simp only [Option.some.injEq, exists_eq_left', Bool.or_eq_false_iff, Bool.not_eq_false', Bool.and_eq_false_iff, beq_eq_false_iff_ne,
      imp_iff_not_or, ne_eq]
theorem State.barIllegal_of_not_barAllowed {s : State} {k : Block} {scope : Nat} (h : ¬ barAllowed s k scope) :
    s.barIllegal k scope = true :=
  Bool.of_not_eq_false (mt State.barIllegal_eq_false_iff.mp h)

/-! ### The arrival part and the waiting part (R235) -/

theorem arrived_eq_arrival (t : Thread) (scope bid : Nat) : t.arrival scope bid = arrived t scope bid := rfl

section
variable {e : Env} {s : State} {scope bid : Nat}
theorem Env.barArrive_illegal (h : ¬ barAllowed s e.k scope) : e.barArrive s scope bid = (s, some (.trap 0x003 0 0 false false)) := by
  rw [Env.barArrive, if_pos (State.barIllegal_of_not_barAllowed h)]
  rfl
theorem Env.barArrive_twice (h : barAllowed s e.k scope) (ha : (arrived (me e s) scope bid).isSome = true) :
    e.barArrive s scope bid = (s, some (.trap 0x104 0 0 false false)) := by
  unfold me at ha
  rw [Env.barArrive, if_neg (ne_true_of_eq_false (State.barIllegal_eq_false_iff.mpr h)), arrived_eq_arrival, if_pos ha]
  rfl
section
variable (h : barAllowed s e.k scope) (ha : arrived (me e s) scope bid = none)
include h ha
theorem Env.barArrive_held (hc : (s.commitBlock e.k.id).2 = false) : e.barArrive s scope bid = (commits e s, some .hold) := by
  unfold me at ha
  rw [Env.barArrive, if_neg (ne_true_of_eq_false (State.barIllegal_eq_false_iff.mpr h)), arrived_eq_arrival, ha, commitBlock_held hc]
  rfl
/-- A first arrival follows the commit of the block's stores. -/
theorem Env.barArrive_first (hc : (s.commitBlock e.k.id).2 = true) : e.barArrive s scope bid = (barArrives e s scope bid, none) := by
  unfold me at ha
  rw [Env.barArrive, if_neg (ne_true_of_eq_false (State.barIllegal_eq_false_iff.mpr h)), arrived_eq_arrival, ha,
    Option.isSome_none, if_neg Bool.false_ne_true, commitBlock_done hc]
  unfold barArrives
  by_cases h0 : scope = 0
  · simp [h0, Env.upd]
  by_cases h1 : scope = 1
  · subst h1
    simp only [Env.upd, beq_self_eq_true, Bool.true_and, List.isEmpty_iff, if_true, Nat.reduceBEq, Bool.false_eq_true, h0, if_false]
    split <;> rfl
  · have hb : (scope != 1) = true := by simpa using h1
    simp only [Env.upd, beq_iff_eq, h0, h1, hb, Bool.and_eq_true, false_and, if_false]
    rfl
end
theorem Env.barWait_absent (ha : arrived (me e s) scope bid = none) : e.barWait s scope bid = (s, some (.trap 0x104 0 0 false false)) := by
  unfold me at ha
  rw [Env.barWait, arrived_eq_arrival, ha]
  rfl
theorem Env.barWait_arrived (ha : (arrived (me e s) scope bid).isSome = true) : e.barWait s scope bid = (barWaits e s scope bid, none) := by
  obtain ⟨a, ha⟩ := Option.isSome_iff_exists.mp ha
  unfold me at ha
  rw [Env.barWait, arrived_eq_arrival, barWaits, me, ha]
  dsimp only
  split <;> rfl
end

/-! ### BARARV, BARWAIT and BAR -/

section
variable (f : FM)
theorem bararv_completes : CompletesCommit (.bararv f) f.pred f.pneg none
    (fun e s => barAllowed s e.k f.scope.toNat ∧ arrived (me e s) f.scope.toNat f.md.toNat = none ∧ (s.commitBlock e.k.id).2 = true)
    fun e s => barArrives e s f.scope.toNat f.md.toNat :=
  completes_of_issueCommit (fun _ => rfl) fun _ _ ⟨h, ha, hc⟩ => Env.barArrive_first h ha hc
theorem barwait_completes : Completes (.barwait f) f.pred f.pneg none
    (fun e s => barAllowed s e.k f.scope.toNat ∧ (arrived (me e s) f.scope.toNat f.md.toNat).isSome = true)
    fun e s => barWaits e s f.scope.toNat f.md.toNat := by
  refine completes_of_issue (fun _ => rfl) fun e s ⟨h, ha⟩ => ?_
  simp only [State.barIllegal_eq_false_iff.mpr h, Bool.false_eq_true, if_false, Env.barWait_arrived ha]
theorem bar_completes : CompletesCommit (.bar f) f.pred f.pneg none
    (fun e s => barAllowed s e.k f.scope.toNat ∧ arrived (me e s) f.scope.toNat f.md.toNat = none ∧ (s.commitBlock e.k.id).2 = true ∧
      (arrived (me e (barArrives e s f.scope.toNat f.md.toNat)) f.scope.toNat f.md.toNat).isSome = true)
    fun e s => barWaits e (barArrives e s f.scope.toNat f.md.toNat) f.scope.toNat f.md.toNat := by
  refine completes_of_issueCommit (fun _ => rfl) fun e s ⟨h, ha, hc, hw⟩ => ?_
  simp only [Env.barArrive_first h ha hc, Env.barWait_arrived hw]

/-- A trap of the arrival part, or its wait for the commit, is one of BARARV and of BAR. -/
theorem arrival_stops {ok : Env → State → Prop} {st : Stop} {eff : Env → State → State} (hst : st.Precedes)
    (hl : ∀ e s, ok e s → e.barArrive s f.scope.toNat f.md.toNat = (eff e s, some st)) :
    ∀ c ∈ [Instr.bararv, .bar], StopsOne (c f) f.pred f.pneg none ok (fun _ _ => st) eff := by
  have harv : StopsOne (.bararv f) f.pred f.pneg none ok (fun _ _ => st) eff :=
    stopsOne_issueCommit hl (fun _ _ _ => hst) fun _ => rfl
  have hbar : StopsOne (.bar f) f.pred f.pneg none ok (fun _ _ => st) eff := by
    refine stopsOne_issueCommit (fun e s h => ?_) (fun _ _ _ => hst) fun _ => rfl
    simp only [hl e s h]
  simp only [List.forall_mem_cons, List.not_mem_nil, false_imp_iff, implies_true, and_true]
  exact ⟨harv, hbar⟩
theorem precedes_before (c : Nat) (d : Word) (a : DWord) (dfl : Bool) : Stop.Precedes (.trap c d a false dfl) := fun _ _ _ _ => nofun
theorem barwait_stops_illegal : StopsOne (.barwait f) f.pred f.pneg none (fun e s => ¬ barAllowed s e.k f.scope.toNat)
    (fun _ _ => .trap 0x003 0 0 false false) fun _ s => s := by
  refine stopsOne_issue (fun e s h => ?_) (fun _ _ _ => precedes_before _ _ _ _) fun _ => rfl
  simp only [State.barIllegal_of_not_barAllowed h, if_true]
  rfl
theorem barwait_stops_absent : StopsOne (.barwait f) f.pred f.pneg none
    (fun e s => barAllowed s e.k f.scope.toNat ∧ arrived (me e s) f.scope.toNat f.md.toNat = none)
    (fun _ _ => .trap 0x104 0 0 false false) fun _ s => s := by
  refine stopsOne_issue (fun e s ⟨h, ha⟩ => ?_) (fun _ _ _ => precedes_before _ _ _ _) fun _ => rfl
  simp only [State.barIllegal_eq_false_iff.mpr h, Bool.false_eq_true, if_false, Env.barWait_absent ha]
end

/-! ### The completion of a phase -/

theorem State.acquireInval_bars (s : State) (c : CoreRef) (offDie offGroup : Bool) : (s.acquireInval c offDie offGroup).bars = s.bars := by
  unfold State.acquireInval
  dsimp only
  split
  · split <;> rfl
  · rfl
theorem State.leaveBar_bars (s : State) (b tl scope bid : Nat) : (s.leaveBar b tl scope bid).bars = s.bars := by
  unfold State.leaveBar
  split
  · rfl
  · split
    · exact State.acquireInval_bars ..
    · rfl
theorem State.releaseBar_bars (s : State) (v : BarInst) (ph : Nat) : (s.releaseBar v ph).bars = s.bars :=
  foldl_keeps (P := fun t => t.bars = s.bars) (fun _ _ _ ht => (State.leaveBar_bars ..).trans ht) rfl
/-- A barrier is read back as it was set, under its own scope, owner, place and number. -/
theorem State.barOf_setBar (s : State) (v : BarInst) : (s.setBar v).barOf v.scope v.owner v.inst v.bid = v := by
  unfold State.barOf State.setBar
  rw [List.find?_append, List.find?_eq_none.mpr fun x hx => ?_]
  · simp
  · simpa only [Bool.not_eq_true', Bool.not_eq_true] using (List.mem_filter.mp hx).2
/-- The barrier found is the one asked for. -/
theorem State.barOf_key (s : State) (scope owner inst bid : Nat) : let v := s.barOf scope owner inst bid
    v.scope = scope ∧ v.owner = owner ∧ v.inst = inst ∧ v.bid = bid := by
  unfold State.barOf
  cases h : s.bars.find? fun x => x.scope == scope && x.owner == owner && x.inst == inst && x.bid == bid with
  | none => exact ⟨rfl, rfl, rfl, rfl⟩
  | some v => simpa [and_assoc] using List.find?_some h

section
variable {s : State} {scope owner inst bid : Nat}
theorem State.barCheck_incomplete (h : (s.barOf scope owner inst bid).arrived = [] ∨
    ∃ p ∈ s.participants scope owner inst, p ∉ (s.barOf scope owner inst bid).arrived) : s.barCheck scope owner inst bid = s := by
  refine if_neg fun hc => ?_
  obtain ⟨hne, hall⟩ := Bool.and_eq_true_iff.mp hc
  rcases h with h | ⟨p, hp, hn⟩
  · simp [h] at hne
  · exact hn (by simpa using List.all_eq_true.mp hall p hp)
variable (hne : (s.barOf scope owner inst bid).arrived ≠ [])
  (hall : ∀ p ∈ s.participants scope owner inst, p ∈ (s.barOf scope owner inst bid).arrived)
include hne hall
theorem State.barCheck_complete : s.barCheck scope owner inst bid =
    let v := s.barOf scope owner inst bid
    if scope = 5 then (if (0, 0) ∈ v.arrived then s else (s.setBar { v with arrived := (0, 0) :: v.arrived }).podArrive owner s.pkg.toNat)
    else (s.setBar { v with phase := v.phase + 1, arrived := [] }).releaseBar v v.phase := by
  unfold State.barCheck
  dsimp only
  rw [if_pos (by simpa [hne] using hall)]
  simp only [beq_iff_eq, List.contains_iff_mem]
/-- The phase that completes gives place to the next, in which nobody has arrived. -/
theorem State.barOf_barCheck_complete (h5 : scope ≠ 5) : (s.barCheck scope owner inst bid).barOf scope owner inst bid =
    { s.barOf scope owner inst bid with phase := (s.barOf scope owner inst bid).phase + 1, arrived := [] } := by
  have hb := State.barCheck_complete hne hall
  dsimp only at hb
  rw [hb, if_neg h5, State.barOf, State.releaseBar_bars, ← State.barOf]
  obtain ⟨hs, ho, hi, hn⟩ := s.barOf_key scope owner inst bid
  have := State.barOf_setBar s { s.barOf scope owner inst bid with phase := (s.barOf scope owner inst bid).phase + 1, arrived := [] }
  simpa only [hs, ho, hi, hn] using this
end

/-- Settles O21: the lanes of the three instructions, and the check of a barrier that its participants have all reached, or not. -/
theorem scopedBarriers : Obligations.ScopedBarriers := by
  refine ⟨bararv_completes, barwait_completes, bar_completes, ?illegal, ?twice, ?held, barwait_stops_absent,
    fun s scope owner inst bid hne hall =>
    ⟨State.barOf_barCheck_complete hne hall, fun h5 hn => ?pod⟩, fun s scope owner inst bid => State.barCheck_incomplete⟩
  case illegal =>
    intro c hc f
    have harr := arrival_stops f (precedes_before _ _ _ _) (ok := fun e s => ¬ barAllowed s e.k f.scope.toNat) fun e s h =>
      Env.barArrive_illegal h
    fin_cases hc
    · exact harr _ (by simp)
    · exact barwait_stops_illegal f
    · exact harr _ (by simp)
  case twice => exact fun c hc f => arrival_stops f (precedes_before _ _ _ _) (fun e s ⟨h, ha⟩ => Env.barArrive_twice h ha) c hc
  case held => exact fun c hc f => arrival_stops f precedes_hold (fun e s ⟨h, ha, hc⟩ => Env.barArrive_held h ha hc) c hc
  case pod => rw [State.barCheck_complete hne hall, if_pos h5, if_neg hn]

end Sys2Proof.Machine
end

section
/-! PROOFS. Barrier objects: the checks of their address, their updates, and their flips (spec/08_core_sync.md R236 to R241), and the
statement about them (O22). -/

namespace Sys2Proof.Machine
open Sys2Proof.Safety

/-! ### The address of an object (R240) -/

theorem boCause_of_boAt {a : Int} {size : Nat} (h : boAt a size) : boCause a size = none := by
  obtain ⟨h0, hs, ha⟩ := h
  unfold boCause
  rw [if_neg (by simp only [Bool.or_eq_true, decide_eq_true_eq]; omega), if_neg (by simpa using ha)]
theorem boCause_of_not_boAt {a : Int} {size : Nat} (h : ¬ boAt a size) :
    boCause a size = some (if a < 0 ∨ (size : Int) < a + 16 then 0x080 else 0x082) := by
  unfold boCause
  by_cases hb : a < 0 ∨ (size : Int) < a + 16
  · rw [if_pos hb, if_pos (by simp only [Bool.or_eq_true, decide_eq_true_eq]; omega)]
    rfl
  · have ha : a.toNat % 16 ≠ 0 := fun ha => h ⟨by omega, by omega, ha⟩
    rw [if_neg hb, if_neg (by simp only [Bool.or_eq_true, decide_eq_true_eq]; omega), if_pos (by simpa using ha)]
    rfl
section
variable {e : Env} {s : State} {f : FM} (wr : Bool) (act : State → Nat → Bo → LaneOut)
theorem Env.boLane_good (h : boAt (e.offs f) e.k.localSize) :
    e.boLane s f wr act = act s (e.offs f).toNat (boNow e s (e.offs f).toNat) := by
  simp only [Env.boLane, boCause_of_boAt h]
  rfl
theorem Env.boLane_bad (h : ¬ boAt (e.offs f) e.k.localSize) : e.boLane s f wr act =
    (s, some (memStop (if e.offs f < 0 ∨ (e.k.localSize : Int) < e.offs f + 16 then 0x080 else 0x082) wr f
      (1#8 ++ BitVec.ofInt 56 (e.offs f)))) := by
  simp only [Env.boLane, boCause_of_not_boAt h, memTrap_eq_memStop, regionPtr]
  rfl
end

/-! ### The updates of an object -/

section
variable {o : Bo} {n : Nat} {jn : Bool}
theorem Bo.expect_invalid (h : o.v = false) : o.expect n jn = .error 0x101 := by
  rw [Bo.expect, h]
  rfl
theorem Bo.expect_range (hv : o.v = true) (h : 2147483647 < o.tx + n ∨ (jn = true ∧ o.pend = 0)) : o.expect n jn = .error 0x102 := by
  rw [Bo.expect, hv, if_neg (by decide), if_pos (by simpa using h)]
  rfl
theorem Bo.expect_good (hv : o.v = true) (hn : o.tx + n ≤ 2147483647) (hj : jn = true → 0 < o.pend) :
    o.expect n jn = .ok { o with tx := o.tx + n, pend := if jn then o.pend - 1 else o.pend } := by
  have hc : ¬ (2147483647 < o.tx + n ∨ (jn = true ∧ o.pend = 0)) := by
    rintro (h | ⟨h, hp⟩)
    · omega
    · have := hj h
      omega
  rw [Bo.expect, hv, if_neg (by decide), if_neg (by simpa using hc)]
theorem Bo.arrive_invalid (h : o.v = false) : o.arrive = .error 0x101 := by
  rw [Bo.arrive, h]
  rfl
theorem Bo.arrive_overrun (hv : o.v = true) (h : o.pend = 0) : o.arrive = .error 0x103 := by
  rw [Bo.arrive, hv, if_neg (by decide), if_pos (by simpa using h)]
  rfl
theorem Bo.arrive_good (hv : o.v = true) (h : 0 < o.pend) : o.arrive = .ok { o with pend := o.pend - 1 } := by
  rw [Bo.arrive, hv, if_neg (by decide), if_neg (by simp only [beq_iff_eq]; omega)]
/-- The phase flips when nothing is pending, neither arrivals nor bytes (R238). -/
theorem Bo.check_eq (o : Bo) : o.check = if o.v = true ∧ o.pend = 0 ∧ o.tx = 0 then { o with ph := !o.ph, pend := o.init } else o := by
  unfold Bo.check
  simp only [Bool.and_eq_true, beq_iff_eq, and_assoc]
  split
  · rename_i h
    rw [h.2.2]
  · rfl
theorem Bo.check_eq_self_iff (o : Bo) : o.check = o ↔ ¬ (o.v = true ∧ o.pend = 0 ∧ o.tx = 0) := by
  rw [Bo.check_eq]
  split
  · rename_i h
    refine iff_of_false (fun e => ?_) (not_not_intro h)
    have := congrArg Bo.ph e
    simp at this
  · rename_i h
    exact iff_of_true rfl h
end

/-! ### The five instructions -/

section
variable (f : FM)
theorem boinit_completes : Completes (.boinit f) f.pred f.pneg none
    (fun e _ => boAt (e.offs f) e.k.localSize ∧ 0 < (e.r f.d).toNat ∧ (e.r f.d).toNat ≤ 4095) fun e s =>
      (s.stPut e.k.id (e.offs f).toNat 0).boPut e.k.id (e.offs f).toNat ⟨false, true, (e.r f.d).toNat, (e.r f.d).toNat, 0⟩ := by
  refine completes_of_issue (fun _ => rfl) fun e s ⟨ha, h0, hn⟩ => ?_
  rw [Env.boLane_good _ _ ha, if_neg (by simp only [Bool.or_eq_true, beq_iff_eq, decide_eq_true_eq]; omega)]
theorem boexp_completes : Completes (.boexp f) f.pred f.pneg none
    (fun e s => boAt (e.offs f) e.k.localSize ∧ (boNow e s (e.offs f).toNat).v = true ∧
      (boNow e s (e.offs f).toNat).tx + (e.r f.d).toNat ≤ 2147483647 ∧ (f.md.getLsbD 0 = true → 0 < (boNow e s (e.offs f).toNat).pend))
    fun e s =>
      let o := boNow e s (e.offs f).toNat
      s.boPut e.k.id (e.offs f).toNat { o with
        tx := o.tx + (e.r f.d).toNat, pend := if f.md.getLsbD 0 then o.pend - 1 else o.pend } := by
  refine completes_of_issue (fun _ => rfl) fun e s ⟨ha, hv, hn, hj⟩ => ?_
  simp only [Env.boLane_good _ _ ha, Bo.expect_good hv hn hj]
theorem boarv_completes : Completes (.boarv f) f.pred f.pneg none
    (fun e s => boAt (e.offs f) e.k.localSize ∧ (boNow e s (e.offs f).toNat).v = true ∧ 0 < (boNow e s (e.offs f).toNat).pend)
    fun e s =>
      let o := boNow e s (e.offs f).toNat
      s.boPut e.k.id (e.offs f).toNat { o with pend := o.pend - 1 } := by
  refine completes_of_issue (fun _ => rfl) fun e s ⟨ha, hv, hp⟩ => ?_
  simp only [Env.boLane_good _ _ ha, Bo.arrive_good hv hp]
theorem bowait_completes : Completes (.bowait f) f.pred f.pneg none
    (fun e s => boAt (e.offs f) e.k.localSize ∧ (boNow e s (e.offs f).toNat).v = true) fun e s =>
      (if (boNow e s (e.offs f).toNat).ph = (e.r f.d).getLsbD 0 then waits e s (.bowait (e.offs f).toNat ((e.r f.d).getLsbD 0))
        else s).boLook e.k.id (e.offs f).toNat := by
  refine completes_of_issue (fun _ => rfl) fun e s ⟨ha, hv⟩ => ?_
  simp only [Env.boLane_good _ _ ha, hv, Bool.not_true, Bool.false_eq_true, if_false, bne_iff_ne, ne_eq, ite_not]
  rfl
theorem botest_completes : Completes (.botest f) f.pred f.pneg none
    (fun e s => boAt (e.offs f) e.k.localSize ∧ (boNow e s (e.offs f).toNat).v = true) fun e s =>
      (e.upd s fun t => t.setPred (f.md.toNat % 8) ((boNow e s (e.offs f).toNat).ph ^^ (e.r f.d).getLsbD 0)).boLook
        e.k.id (e.offs f).toNat := by
  refine completes_of_issue (fun _ => rfl) fun e s ⟨ha, hv⟩ => ?_
  simp only [Env.boLane_good _ _ ha, hv, Bool.not_true, Bool.false_eq_true, if_false]
/-- Each of the five traps on an object outside local memory or misaligned. -/
theorem bo_stops_address : ∀ p ∈ [(Instr.boinit, true), (.boexp, true), (.boarv, true), (.bowait, false), (.botest, false)],
    StopsOne (p.1 f) f.pred f.pneg none (fun e _ => ¬ boAt (e.offs f) e.k.localSize)
      (fun e _ => memStop (if e.offs f < 0 ∨ (e.k.localSize : Int) < e.offs f + 16 then 0x080 else 0x082) p.2 f
        (1#8 ++ BitVec.ofInt 56 (e.offs f))) fun _ s => s := by
  have stops : ∀ {i : Instr} {wr : Bool} {act : Env → State → Nat → Bo → LaneOut},
      (∀ s, exec i s = issue i f.pred f.pneg none (fun e s => e.boLane s f wr (act e)) s) →
      StopsOne i f.pred f.pneg none (fun e _ => ¬ boAt (e.offs f) e.k.localSize)
        (fun e _ => memStop (if e.offs f < 0 ∨ (e.k.localSize : Int) < e.offs f + 16 then 0x080 else 0x082) wr f
          (1#8 ++ BitVec.ofInt 56 (e.offs f))) fun _ s => s := fun {_ wr act} he =>
    stopsOne_issue (fun e _ h => Env.boLane_bad wr (act e) h) (fun _ _ _ => memStop_precedes _ _ _ _) he
  intro p hp
  fin_cases hp <;> exact stops fun _ => rfl
/-- Each but BOINIT traps on an object that is not valid. -/
theorem bo_stops_invalid : ∀ c ∈ [Instr.boexp, .boarv, .bowait, .botest], StopsOne (c f) f.pred f.pneg none
    (fun e s => boAt (e.offs f) e.k.localSize ∧ (boNow e s (e.offs f).toNat).v = false)
    (fun _ _ => .trap 0x101 0 0 false false) fun _ s => s := by
  have hst : ∀ (e : Env) (s : State), boAt (e.offs f) e.k.localSize ∧ (boNow e s (e.offs f).toNat).v = false →
    Stop.Precedes (.trap 0x101 0 0 false false) := fun _ _ _ => precedes_before _ _ _ _
  simp only [List.forall_mem_cons, List.not_mem_nil, false_imp_iff, implies_true, and_true]
  refine ⟨?_, ?_, ?_, ?_⟩ <;> refine stopsOne_issue (fun e s ⟨ha, hv⟩ => ?_) hst fun _ => rfl
  · simp only [Env.boLane_good _ _ ha, Bo.expect_invalid hv]
    rfl
  · simp only [Env.boLane_good _ _ ha, Bo.arrive_invalid hv]
    rfl
  · simp only [Env.boLane_good _ _ ha, hv]
    rfl
  · simp only [Env.boLane_good _ _ ha, hv]
    rfl
theorem boinit_stops_count : StopsOne (.boinit f) f.pred f.pneg none
    (fun e _ => boAt (e.offs f) e.k.localSize ∧ ((e.r f.d).toNat = 0 ∨ 4095 < (e.r f.d).toNat))
    (fun _ _ => .trap 0x102 0 0 false false) fun _ s => s := by
  refine stopsOne_issue (fun e s ⟨ha, h⟩ => ?_) (fun _ _ _ => precedes_before _ _ _ _) fun _ => rfl
  rw [Env.boLane_good _ _ ha, if_pos (by simpa using h)]
  rfl
theorem boexp_stops_count : StopsOne (.boexp f) f.pred f.pneg none
    (fun e s => boAt (e.offs f) e.k.localSize ∧ (boNow e s (e.offs f).toNat).v = true ∧
      (2147483647 < (boNow e s (e.offs f).toNat).tx + (e.r f.d).toNat ∨ (f.md.getLsbD 0 = true ∧ (boNow e s (e.offs f).toNat).pend = 0)))
    (fun _ _ => .trap 0x102 0 0 false false) fun _ s => s := by
  refine stopsOne_issue (fun e s ⟨ha, hv, h⟩ => ?_) (fun _ _ _ => precedes_before _ _ _ _) fun _ => rfl
  simp only [Env.boLane_good _ _ ha, Bo.expect_range hv h]
  rfl
theorem boarv_stops_count : StopsOne (.boarv f) f.pred f.pneg none
    (fun e s => boAt (e.offs f) e.k.localSize ∧ (boNow e s (e.offs f).toNat).v = true ∧ (boNow e s (e.offs f).toNat).pend = 0)
    (fun _ _ => .trap 0x103 0 0 false false) fun _ s => s := by
  refine stopsOne_issue (fun e s ⟨ha, hv, h⟩ => ?_) (fun _ _ _ => precedes_before _ _ _ _) fun _ => rfl
  simp only [Env.boLane_good _ _ ha, Bo.arrive_overrun hv h]
  rfl
end

/-! ### What an update leaves (R238, R241) -/

/-- The block as an update of its object at a leaves it: the word checked for completion, and its waiters woken. -/
def Block.boUpdate (k : Block) (a : Nat) (o : Bo) (cyc : Nat) : Block :=
  { k with lmem := mwrite k.lmem a 8 o.check.word.toNat }.boWake a cyc

theorem State.boPut_block {s : State} {b a : Nat} {k : Block} {o : Bo} (hk : s.block b = some k) (lag : Nat := 0) :
    (s.boPut b a o lag).block b = some (k.boUpdate a o (s.quad k.core).cyc) := by
  simp only [State.boPut, hk]
  obtain rfl := State.block_id hk
  exact State.block_setBlock_same (k := k.boUpdate a o (s.quad k.core).cyc) hk
theorem Block.boWake_thread (k : Block) (a cyc : Nat) {tl : Nat} {p : Bool} (ht : tl < k.threads.length)
    (hw : (k.thread tl).status = .waiting (.bowait a p)) :
    ((k.boWake a cyc).thread tl).status = if (k.bo a).ph = p then .waiting (.bowait a p) else .ready := by
  have hget : lget k.threads tl = some (k.thread tl) := by
    rw [Block.thread, lget_eq_getElem?, List.getElem?_eq_getElem ht]
    rfl
  rw [Block.thread, Block.boWake, lget_map, hget]
  simp only [Option.map_some, Option.getD_some, hw, beq_self_eq_true, Bool.true_and, bne_iff_ne, ne_eq, ite_not]
  split
  · exact hw
  · rfl
theorem State.boLook_flips {s : State} {b a : Nat} {k : Block} (hk : s.block b = some k)
    (h : (k.bo a).v = true ∧ (k.bo a).pend = 0 ∧ (k.bo a).tx = 0) : s.boLook b a = s.boPut b a (k.bo a) := by
  simp only [State.boLook, hk, beq_iff_eq]
  rw [if_neg (mt (Bo.check_eq_self_iff _).mp (not_not_intro h))]
theorem State.boLook_stays {s : State} {b a : Nat} {k : Block} (hk : s.block b = some k)
    (h : ¬ ((k.bo a).v = true ∧ (k.bo a).pend = 0 ∧ (k.bo a).tx = 0)) :
    s.boLook b a = s.modBlock b fun k => k.boWake a (s.quad k.core).cyc := by
  simp only [State.boLook, hk, beq_iff_eq]
  rw [if_pos ((Bo.check_eq_self_iff _).mpr h)]

/-- Settles O22: each instruction by what its object is, and then what an update of an object leaves. -/
theorem barrierObjects : Obligations.BarrierObjects := by
  refine ⟨boinit_completes, boexp_completes, boarv_completes, bowait_completes, botest_completes, fun p hp f => bo_stops_address f p hp,
    fun c hc f => bo_stops_invalid f c hc, boinit_stops_count, boexp_stops_count, boarv_stops_count, fun s b a k o hk =>
    ⟨_, State.boPut_block hk, ?word, fun tl ht p hw => ?wake⟩, fun s b a k hk => ⟨State.boLook_flips hk, State.boLook_stays hk⟩⟩
  case word =>
    refine (mread_mwrite_same_bits _ a 8 _).trans ?_
    rw [Nat.mod_eq_of_lt o.check.word.isLt, Bo.check_eq]
  case wake => exact Block.boWake_thread { k with lmem := mwrite k.lmem a 8 o.check.word.toNat } a (s.quad k.core).cyc ht hw

end Sys2Proof.Machine
end

section
/-! PROOFS. Block queues: QDEF, QPUSH, QPOP and QTRY, and the header that pushes and pops keep (spec/08_core_sync.md R243 to R246), and the
statement about them (O23). -/

namespace Sys2Proof.Machine
open Sys2Proof.Safety

/-! ### QDEF (R244) -/

/-- The header that QDEF leaves: with AO the old one with another allowance, else a cleared one. -/
def qdefHeader (e : Env) (s : State) (f : FM) : Que :=
  let g := (e.r f.d).toNat
  if 2 ^ 31 ≤ g then { (blockNow e s).que (e.offs f).toNat with alw := g / 2 ^ 16 % 512 } else ⟨0, 0, true, g / 2 ^ 16 % 512, g % 512⟩
/-- The state in which the header is written and bound, before the queue's waiters are served. -/
def qdefBinds (e : Env) (s : State) (f : FM) : State :=
  s.modBlock e.k.id fun k => { k with
    lmem := mwrite k.lmem (e.offs f).toNat 8 (qdefHeader e s f).word, qtable := tput k.qtable f.md.toNat (e.offs f).toNat }
/-- What a lane of QDEF does, by what refuses it. -/
theorem qdef_lane (f : FM) : ∃ lane, (∀ s, exec (.qdef f) s = issue (.qdef f) f.pred f.pneg none lane s) ∧
    ∀ e s, lane e s = match qdefCause e s f with
      | some c => (s, some (if c < 0x100 then .trap c 8 (1#8 ++ BitVec.ofInt 56 (e.offs f)) false false else .trap c 0 0 false false))
      | none => ((qdefBinds e s f).qserve e.k.id (e.offs f).toNat, none) := by
  refine ⟨_, fun _ => rfl, fun e s => ?_⟩
  have hg := (e.r f.d).isLt
  have hao : bit (e.r f.d).toNat 31 = decide (2147483648 ≤ (e.r f.d).toNat) := by
    rw [bit, Bool.eq_iff_iff, beq_iff_eq, decide_eq_true_eq]
    omega
  have hcfg : ∀ p : Prop, (¬ 2147483648 ≤ (e.r f.d).toNat ∧ ((e.r f.d).toNat / 33554432 % 64 ≠ 0 ∨ p)) ↔
      ¬ 2147483648 ≤ (e.r f.d).toNat ∧ ((e.r f.d).toNat / 33554432 ≠ 0 ∨ p) := fun p => and_congr_right fun h => by
    rw [Nat.mod_eq_of_lt (by omega)]
  have hbound : ∀ n : Nat, (e.offs f < 0 ∨ (e.k.localSize : Int) ≤ e.offs f + 7 ∨ (e.k.localSize : Int) ≤ e.offs f + 8 + 4 * n - 1) ↔
      e.offs f < 0 ∨ (e.k.localSize : Int) < e.offs f + 8 + 4 * n := fun n => by omega
  unfold qdefCause qdefBinds qdefHeader blockNow
  simp only [hao, Bool.and_eq_true, Bool.or_eq_true, bne_iff_ne, beq_iff_eq, Bool.not_eq_true', decide_eq_true_eq,
    decide_eq_false_iff_not, or_assoc]
  simp only [bits, Nat.reduceSub, Nat.reduceAdd, Nat.reducePow, Nat.div_one, hcfg, hbound]
  split_ifs <;> rfl
section
variable (f : FM)
/-- QDEF completes where nothing refuses it. -/
theorem qdef_completes {ok : Env → State → Prop} {u : Env → State → State} (hc : ∀ e s, ok e s → qdefCause e s f = none)
    (hu : ∀ e s, ok e s → qdefBinds e s f = u e s) :
    Completes (.qdef f) f.pred f.pneg none ok fun e s => (u e s).qserve e.k.id (e.offs f).toNat := by
  obtain ⟨lane, he, hlane⟩ := qdef_lane f
  refine completes_of_issue he fun e s h => ?_
  rw [hlane, hc e s h, ← hu e s h]
theorem qdef_stops (c : Nat) : StopsOne (.qdef f) f.pred f.pneg none (fun e s => qdefCause e s f = some c)
    (fun e _ => if c < 0x100 then .trap c 8 (1#8 ++ BitVec.ofInt 56 (e.offs f)) false false else .trap c 0 0 false false) fun _ s => s := by
  obtain ⟨lane, he, hlane⟩ := qdef_lane f
  refine stopsOne_issue (fun e s h => ?_) (fun e s h => ?_) he
  · rw [hlane, h]
  · split <;> exact precedes_before _ _ _ _
end

/-! ### Which lanes find a queue (R245) -/

section
variable {e : Env} {s : State} {q : Nat} (act : State → Block → Nat → LaneOut)
theorem Env.qLane_bound (h : ∃ h, QueueAt e s q h) : e.qLane s q act = act s (blockNow e s) (queueOf e s q) := by
  obtain ⟨h, k, hk, hq, hv⟩ := h
  simp only [Env.qLane, blockNow, queueOf, hk, Option.getD_some, hq, hv, Bool.not_true, Bool.false_eq_true, if_false]
theorem Env.qLane_unbound (h : tget (blockNow e s).qtable q = none) : e.qLane s q act = (s, some (.trap 0x105 0 0 false false)) := by
  unfold blockNow at h
  simp only [Env.qLane, h]
  rfl
theorem Env.qLane_invalid (h : ∃ h, tget (blockNow e s).qtable q = some h ∧ ((blockNow e s).que h).v = false) :
    e.qLane s q act = (s, some (.trap 0x107 0 0 false false)) := by
  obtain ⟨h, hq, hv⟩ := h
  unfold blockNow at hq hv
  simp only [Env.qLane, hq, hv, Bool.not_false, if_true]
  rfl
end

/-! ### QPUSH, QPOP and QTRY -/

section
variable (f : FM)
theorem qpush_completes : Completes (.qpush f) f.pred f.pneg none (fun e s => ∃ h, QueueAt e s f.md.toNat h) fun e s =>
    match (blockNow e s).qpush (queueOf e s f.md.toNat) (e.r f.d) with
    | some k => (s.setBlock k).qserve e.k.id (queueOf e s f.md.toNat)
    | none => waits e s (.qpush f.md.toNat (e.r f.d)) := by
  refine completes_of_issue (fun _ => rfl) fun e s h => ?_
  rw [Env.qLane_bound _ h]
  cases (blockNow e s).qpush (queueOf e s f.md.toNat) (e.r f.d) <;> rfl
theorem qpop_completes : Completes (.qpop f) f.pred f.pneg none (fun e s => ∃ h, QueueAt e s f.md.toNat h) fun e s =>
    match (blockNow e s).qpop (queueOf e s f.md.toNat) with
    | some p => (e.upd (s.setBlock p.2) fun t => t.setReg f.d.toNat p.1).qserve e.k.id (queueOf e s f.md.toNat)
    | none => waits e s (.qpop f.md.toNat f.d.toNat) := by
  refine completes_of_issue (fun _ => rfl) fun e s h => ?_
  rw [Env.qLane_bound _ h]
  cases (blockNow e s).qpop (queueOf e s f.md.toNat) <;> rfl
theorem qtry_completes_push (hd : f.off.getLsbD 3 = false) : Completes (.qtry f) f.pred f.pneg none
    (fun e s => ∃ h, QueueAt e s f.md.toNat h) fun e s => match (blockNow e s).qpush (queueOf e s f.md.toNat) (e.r f.d) with
    | some k => e.upd ((s.setBlock k).qserve e.k.id (queueOf e s f.md.toNat)) fun t => t.setPred (f.off.toNat % 8) true
    | none => e.upd s fun t => t.setPred (f.off.toNat % 8) false := by
  refine completes_of_issue (fun _ => rfl) fun e s h => ?_
  rw [Env.qLane_bound _ h, hd]
  cases (blockNow e s).qpush (queueOf e s f.md.toNat) (e.r f.d) <;> rfl
theorem qtry_completes_pop (hd : f.off.getLsbD 3 = true) : Completes (.qtry f) f.pred f.pneg none (fun e s => ∃ h, QueueAt e s f.md.toNat h)
    fun e s => match (blockNow e s).qpop (queueOf e s f.md.toNat) with
    | some p => e.upd ((s.setBlock p.2).qserve e.k.id (queueOf e s f.md.toNat)) fun t =>
        (t.setReg f.d.toNat p.1).setPred (f.off.toNat % 8) true
    | none => e.upd s fun t => t.setPred (f.off.toNat % 8) false := by
  refine completes_of_issue (fun _ => rfl) fun e s h => ?_
  rw [Env.qLane_bound _ h, hd]
  cases (blockNow e s).qpop (queueOf e s f.md.toNat) <;> rfl
/-- Where no lane finds its queue, each of the three traps. -/
theorem queue_stops {ok : Env → State → Prop} {c : Nat}
    (hl : ∀ e s act, ok e s → e.qLane s f.md.toNat act = (s, some (.trap c 0 0 false false))) :
    ∀ i ∈ [Instr.qpush, .qpop, .qtry], StopsOne (i f) f.pred f.pneg none ok (fun _ _ => .trap c 0 0 false false) fun _ s => s := by
  intro i hi
  fin_cases hi <;> exact stopsOne_issue (fun e s h => hl e s _ h) (fun _ _ _ => precedes_before _ _ _ _) fun _ => rfl
end

/-! ### The header (R243) -/

/-- A header whose fields fit is read back from its word. -/
theorem queOf_word (q : Que) (hh : q.head < 2 ^ 16) (ht : q.tail < 2 ^ 16) (ha : q.alw < 2 ^ 9) (hc : q.cap < 2 ^ 9) :
    queOf q.word = q := by
  obtain ⟨head, tail, v, alw, cap⟩ := q
  dsimp only at hh ht ha hc
  simp only [queOf, Que.word, bits, bit, boolBit, Que.mk.injEq]
  cases v <;> simp <;> omega
theorem Que.word_lt (q : Que) (hh : q.head < 2 ^ 16) (ht : q.tail < 2 ^ 16) (ha : q.alw < 2 ^ 9) (hc : q.cap < 2 ^ 9) :
    q.word < 2 ^ 64 := by
  unfold Que.word boolBit
  cases q.v <;> simp <;> omega
section
variable {q : Que} (h : goodQueue q)
include h
theorem goodQueue_fits : q.head < 2 ^ 16 ∧ q.tail < 2 ^ 16 ∧ q.alw < 2 ^ 9 ∧ q.cap < 2 ^ 9 := by
  obtain ⟨-, -, h1, h2, h3, h4⟩ := h
  omega
/-- A good header written at h is read back. -/
theorem goodQueue_que_mwrite {k : Block} {m : Mem} {a : Nat} : ({ k with lmem := mwrite m a 8 q.word } : Block).que a = q := by
  obtain ⟨hh, ht, ha, hc⟩ := goodQueue_fits h
  show queOf (mread (mwrite m a 8 q.word) a 8) = q
  rw [mread_mwrite_same_bits, Nat.mod_eq_of_lt (q.word_lt hh ht ha hc), queOf_word q hh ht ha hc]
/-- The entries of a queue, without the wrap-around of its pointers. -/
theorem goodQueue_count_eq : q.count = if q.head ≤ q.tail then q.tail - q.head else q.tail + 2 * q.cap - q.head := by
  obtain ⟨-, -, -, -, hh, ht⟩ := h
  rw [Que.count, Nat.mod_eq_of_lt hh]
  split
  · rw [show q.tail + 2 * q.cap - q.head = q.tail - q.head + 2 * q.cap by omega, Nat.add_mod_right, Nat.mod_eq_of_lt (by omega)]
  · exact Nat.mod_eq_of_lt (by omega)
theorem goodQueue_push (hc : q.count < q.alw) : goodQueue { q with tail := (q.tail + 1) % (2 * q.cap) } ∧
    ({ q with tail := (q.tail + 1) % (2 * q.cap) } : Que).count = q.count + 1 := by
  have hcount := goodQueue_count_eq h
  obtain ⟨hv, ha0, hac, hcap, hh, ht⟩ := h
  have hgood : goodQueue { q with tail := (q.tail + 1) % (2 * q.cap) } := ⟨hv, ha0, hac, hcap, hh, Nat.mod_lt _ (by omega)⟩
  refine ⟨hgood, ?_⟩
  rw [goodQueue_count_eq hgood]
  dsimp only
  by_cases hw : q.tail + 1 = 2 * q.cap
  · rw [hw, Nat.mod_self]
    split at hcount <;> split <;> omega
  · rw [Nat.mod_eq_of_lt (by omega)]
    split at hcount <;> split <;> omega
end

/-! ### Pushes and pops -/

section
variable {k : Block} {h : Nat}
theorem Block.qpush_full (hf : (k.que h).alw ≤ (k.que h).count) (v : Word) : k.qpush h v = none := if_neg (Nat.not_lt.mpr hf)
theorem Block.qpop_empty (he : (k.que h).count = 0) : k.qpop h = none := if_neg (by omega)
/-- A push into a good queue with room counts one entry more; from an empty queue it is what the next pop gives. -/
theorem Block.qpush_room (hg : goodQueue (k.que h)) (v : Word) (hr : (k.que h).count < (k.que h).alw) :
    ∃ j, k.qpush h v = some j ∧ goodQueue (j.que h) ∧ (j.que h).count = (k.que h).count + 1 ∧
      ((k.que h).count = 0 → (j.qpop h).map (·.1) = some v) := by
  obtain ⟨hgood, hcount⟩ := goodQueue_push hg hr
  refine ⟨_, if_pos hr, ?_⟩
  rw [goodQueue_que_mwrite hgood]
  refine ⟨hgood, hcount, fun h0 => ?_⟩
  have hhead : (k.que h).head = (k.que h).tail := by
    have hc := goodQueue_count_eq hg
    obtain ⟨-, -, -, -, hh, ht⟩ := hg
    split at hc <;> omega
  unfold Block.qpop
  dsimp only
  rw [goodQueue_que_mwrite hgood, hcount, if_pos (by omega), hhead, Option.map_some]
  dsimp only
  rw [mwrite, mread_mputs_outside _ (.inr (by rw [length_leBytes]; omega)), mread_mwrite_same_bits, Nat.mod_eq_of_lt v.isLt,
    BitVec.ofNat_toNat, BitVec.setWidth_eq]
end

/-- Settles O23: QDEF by what refuses it, the others by what they find of their queue, and the header as pushes keep it. -/
theorem queues : Obligations.Queues := by
  refine ⟨fun f => ?clear, fun f => ?allowance, qdef_stops, qpush_completes, qpop_completes, qtry_completes_push, qtry_completes_pop,
    fun c hc f => queue_stops f (fun e s act => Env.qLane_unbound act) c hc,
    fun c hc f => queue_stops f (fun e s act => Env.qLane_invalid act) c hc,
    fun k h hg => ⟨fun v => Block.qpush_room hg v, fun hf v => Block.qpush_full hf v, Block.qpop_empty⟩⟩
  case clear =>
    refine qdef_completes f (fun e s h => ?_) (fun e s h => ?_)
    · obtain ⟨hz, hz', hcap, hcap', halw, hle, ha, hal, hb⟩ := h
      have hao : ¬ 2 ^ 31 ≤ (e.r f.d).toNat := by omega
      unfold qdefCause
      dsimp only
      rw [if_neg (by omega), if_neg (by omega), if_neg hao, if_neg (by omega), if_neg (fun h => hao h.1), if_neg (fun h => hao h.1)]
    · unfold qdefBinds qdefHeader
      rw [if_neg (by omega)]
  case allowance =>
    refine qdef_completes f (fun e s h => ?_) (fun e s h => ?_)
    · obtain ⟨hao, hv, halw, hle, ha, hal, hb⟩ := h
      unfold qdefCause
      dsimp only
      rw [if_neg (by omega), if_neg (fun h => h.1 hao), if_pos hao, if_neg (by omega), if_neg (by simp [hv]), if_neg (by omega)]
    · obtain ⟨hao, -⟩ := h
      unfold qdefBinds qdefHeader
      rw [if_pos hao]

end Sys2Proof.Machine
end

section
/-! PROOFS. What the engines' operations start with and deliver (spec/08_core_sync.md R239; spec/11_copy.md R307, R319; spec/12_matrix.md
R333 to R347), and the statement about it (O29). -/

namespace Sys2Proof.Machine
open Sys2Proof.Safety

/-! ### The deliveries of the units -/

section
variable {s : State} {n : Nat} {o : EngOp} (h : HasOp s n o)
include h
theorem execEngineDelivery_copy (hu : o.kind.unit = 0) : execEngineDelivery n s = .next ((atDue s o).copyDelivery o) := by
  unfold HasOp at h
  simp only [execEngineDelivery, h, hu, beq_self_eq_true, if_true, atDue]
theorem execEngineDelivery_matrix (hu : o.kind.unit = 1) : execEngineDelivery n s = .next ((atDue s o).matDelivery o) := by
  unfold HasOp at h
  simp only [execEngineDelivery, h, hu, beq_self_eq_true, if_true, atDue]
  rfl
end
section
variable {s : State} {o : EngOp}
theorem State.matDelivery_failed (hc : o.cause ≠ 0) :
    s.matDelivery o = (if o.started then s.matFail o else s).engDone o 0 o.cause o.detail := if_pos (bne_iff_ne.mpr hc)
theorem State.copyDelivery_failed (hc : o.cause ≠ 0) (ht : o.kind.eng = 2 → s.decodeTurn o = true) :
    s.copyDelivery o = s.engFail o o.cause o.detail := by
  unfold State.copyDelivery
  rw [if_neg fun h => ?_, if_pos (bne_iff_ne.mpr hc)]
  rw [Bool.and_eq_true, beq_iff_eq, Bool.not_eq_true'] at h
  exact Bool.false_ne_true (h.2.symm.trans (ht h.1))
/-- Only MCHK's difference, an invalid codebook table and a loss of data leave something (R337, R341, R349). -/
theorem State.matFail_plain (hc : o.cause ∉ [0x1A6, 0x1A9, 0x200]) : s.matFail o = s := by
  simp only [List.mem_cons, List.not_mem_nil, or_false, not_or] at hc
  obtain ⟨hbook, hcheck, hlost⟩ := hc
  have hb : ¬ (o.cause == cCbookInvalid) = true := fun h => hbook (beq_iff_eq.mp h)
  have hd : ¬ (o.cause == cMatrixCheck) = true := fun h => hcheck (beq_iff_eq.mp h)
  have hl : ¬ (o.cause == cDataLost) = true := fun h => hlost (beq_iff_eq.mp h)
  unfold State.matFail
  rw [if_neg hd, if_neg fun h => ?_, if_neg hl]
  rw [Bool.and_eq_true, Bool.or_eq_true] at h
  exact h.2.elim hb hl
end

/-! ### The effects of MLOAD and MZERO (R336, R338) -/

theorem State.mixBytes_self (s : State) (u : Nat) (a : List Byte) : s.mixBytes u a a = (a, s) := if_pos (beq_self_eq_true a)
/-- Local memory that has not changed since the operation began is read as it is (spec/03_memory_model.md R96). -/
theorem State.lread_still {s : State} {k : Block} {o : EngOp} {a n : Nat} {bs : List Byte} (hl : k.lload a n = .ok bs)
    (ho : mbytes o.lold a n = bs) : s.lread k o a n = (.ok bs, s) := by
  simp only [State.lread, hl, ho, State.mixBytes_self]
theorem State.onArrays_eq_arrays (s : State) (o : EngOp) (g : Core → Core) : s.onArrays o g = arrays s o g := rfl
theorem bit_eq_decide (v n : Nat) : bit v n = decide (v / 2 ^ n % 2 = 1) := rfl
theorem not_bit_eq_decide (v n : Nat) : (!bit v n) = decide (v / 2 ^ n % 2 = 0) := by
  rw [bit_eq_decide, ← decide_not]
  exact decide_eq_decide.mpr (by omega)
theorem not_range_eq_decide (a n x : Nat) : (!(decide (a ≤ x) && decide (x < a + n))) = decide (x < a ∨ a + n ≤ x) := by
  rw [Bool.eq_iff_iff, Bool.not_eq_true', ← Bool.not_eq_true]
  simp only [Bool.and_eq_true, decide_eq_true_eq]
  omega
section
variable {s : State} {o : EngOp} {k : Block} (hc : o.cause = 0) (hs : o.started = true) (hd : o.due.isSome = true)
  (hk : s.block o.blk = some k)
include hc hs hd hk
theorem State.matDelivery_mload {bs : List Byte} (hkind : o.kind = .mload) (hl : k.lload (o.reg 0) (o.reg 2) = .ok bs)
    (ho : mbytes o.lold (o.reg 0) (o.reg 2) = bs) :
    let c := s.core o.core
    let a := 4096 * ((c.res.map (·.base)).getD 0) + 64 * o.reg 1
    s.matDelivery o = (s.setCore o.core { c with
      obuf := mputs c.obuf a bs, obPoison := c.obPoison.filter fun x => decide (x < a ∨ a + bs.length ≤ x) }).engDone o 0 0 0 := by
  simp only [State.matDelivery, hc, hs, hkind, hk, State.lread_still hl ho, Option.isNone_eq_false_iff.mpr hd, bne_self_eq_false,
    Bool.false_eq_true, Bool.not_true, Bool.or_self, if_false, not_range_eq_decide]
theorem State.matDelivery_mzero (hkind : o.kind = .mzero) : s.matDelivery o = (arrays s o fun c => { c with
      acc0 := if o.reg 0 % 2 = 1 then [] else c.acc0, acc1 := if o.reg 0 / 2 % 2 = 1 then [] else c.acc1
      tilePoison := c.tilePoison.filter fun i => decide (o.reg 0 / 2 ^ (i / 8192) % 2 = 0) }).engDone o 0 0 0 := by
  simp only [State.matDelivery, hc, hs, hkind, hk, Option.isNone_eq_false_iff.mpr hd, bne_self_eq_false,
    Bool.false_eq_true, Bool.not_true, Bool.or_self, if_false, State.onArrays_eq_arrays, not_bit_eq_decide]
  simp only [bit_eq_decide, decide_eq_true_eq, pow_zero, Nat.div_one, pow_one]
end

/-! ### MMA and MMAI (R339, R340, R346) -/

/-- What an MMA or MMAI makes of an array, its operands as they are. -/
def mmaCore (o : EngOp) (c : Core) : Core :=
  { c.mma (orec (o.ptr 0)) (orec (o.ptr 2)) (o.kind == .mmai) (o.reg 4) with
    tilePoison := c.tilePoison.filter fun i => decide (i / 8192 ≠ o.reg 4 / 16 % 2) }
/-- Draw n free values. -/
def State.draw (s : State) (n : Nat) : State := { s with clock := { s.clock with free := s.clock.free + n } }
theorem State.core_draw (s : State) (n : Nat) (c : CoreRef) : (s.draw n).core c = s.core c := rfl
theorem State.draw_setCore (s : State) (n : Nat) (c : CoreRef) (k : Core) : (s.draw n).setCore c k = (s.setCore c k).draw n := rfl
theorem State.draw_twice (s : State) (n : Nat) (c e : CoreRef) (k j : Core) :
    (((s.draw n).setCore c k).draw n).setCore e j = ((s.setCore c k).setCore e j).draw (n + n) := by
  simp only [State.draw, State.setCore, Nat.add_assoc]
theorem mixBuf_self (free : Nat) (m : Mem) : mixBuf free m m m = m := by
  unfold mixBuf
  simp only [bne_self_eq_false, Bool.or_self, List.filter_false, List.zipIdx_nil, List.foldl_nil]
theorem Core.mma_obuf (c : Core) (a b : ORec) (int : Bool) (ctl : Nat) : (c.mma a b int ctl).obuf = c.obuf := by
  unfold Core.mma Core.stick Core.setTile
  dsimp only
  split <;> rfl
/-- Operands that nothing has changed since the start are read as they are. -/
theorem State.mmaOn_unchanged {s : State} {o : EngOp} (hkind : o.kind = .mma ∨ o.kind = .mmai) {c : CoreRef} {old : Mem}
    (hu : unchanged s c old) : s.mmaOn o c old = (s.draw (3 * 262144)).setCore c (mmaCore o (s.core c)) := by
  obtain ⟨rfl, hload⟩ := hu
  have hint : o.isInt = (o.kind == .mmai) := by
    rcases hkind with h | h <;> rw [EngOp.isInt, h] <;> rfl
  have htile : ∀ i, (i / 8192 != bits (o.reg 4) 4 4) = decide (i / 8192 ≠ o.reg 4 / 16 % 2) := fun i => by
    rw [Bool.eq_iff_iff, bne_iff_ne, decide_eq_true_eq]
    rfl
  unfold State.mmaOn mmaCore
  simp only [hload, mixBuf_self, hint, htile]
  congr 2
  exact (Core.mma_obuf _ _ _ _ _).symm

theorem coreKey_partner_ne (c : CoreRef) : coreKey (CoreRef.partner c) ≠ coreKey c := by
  simp only [coreKey, CoreRef.partner, beq_iff_eq]
  split <;> omega
/-- An array's operation leaves the partner's operands as they were. -/
theorem unchanged_setCore {s : State} {c e : CoreRef} {k : Core} {old : Mem} (he : coreKey e ≠ coreKey c) (h : unchanged s e old) :
    unchanged ((s.draw (3 * 262144)).setCore c k) e old := by
  have hcore : ((s.draw (3 * 262144)).setCore c k).core e = s.core e := by rw [State.core_setCore, if_neg he, State.core_draw]
  obtain ⟨hold, hload⟩ := h
  unfold State.loadedBuf at hload
  refine ⟨by rw [hcore, hold], ?_⟩
  unfold State.loadedBuf
  rw [hcore]
  exact hload
theorem State.mmaRun_unchanged {s : State} {o : EngOp} (hkind : o.kind = .mma ∨ o.kind = .mmai)
    (hown : unchanged s o.core (o.obold.headD []))
    (hpart : o.both = true → unchanged s (CoreRef.partner o.core) ((lget o.obold 1).getD [])) :
    let u := arrays s o (mmaCore o)
    s.mmaRun o = (u.draw ((if o.both then 6 else 3) * 262144)).engDone o 0 0 0 := by
  unfold State.mmaRun arrays
  dsimp only
  rw [State.mmaOn_unchanged hkind hown]
  cases hb : o.both with
  | false => simp only [Bool.false_eq_true, if_false, State.draw_setCore]
  | true =>
    have hne := coreKey_partner_ne o.core
    have hcore : ((s.draw (3 * 262144)).setCore o.core (mmaCore o (s.core o.core))).core (CoreRef.partner o.core) =
        s.core (CoreRef.partner o.core) := by
      rw [State.core_setCore, if_neg hne, State.core_draw]
    have hsum : 3 * 262144 + 3 * 262144 = 6 * 262144 := rfl
    rw [if_pos rfl, if_pos rfl, if_pos rfl, State.mmaOn_unchanged hkind (unchanged_setCore hne (hpart hb)), hcore,
      State.draw_twice, hsum]
theorem State.matDelivery_mma {s : State} {o : EngOp} {k : Block} (hc : o.cause = 0) (hs : o.started = true) (hd : o.due.isSome = true)
    (hk : s.block o.blk = some k) (hkind : o.kind = .mma ∨ o.kind = .mmai) : s.matDelivery o = s.mmaRun o := by
  rcases hkind with h | h <;>
    simp only [State.matDelivery, hc, hs, h, hk, Option.isNone_eq_false_iff.mpr hd, bne_self_eq_false, Bool.false_eq_true, Bool.not_true,
      Bool.or_self, if_false]

/-! ### Starts (R333, R345, R347) -/

section
variable {s : State} {n : Nat} {o : EngOp}
  (h : s.engs.find? (fun x => x.id == n && !x.saved && x.kind.unit == 1 && !x.started && x.cause == 0) = some o)
include h
theorem execMatrixOpStart_queued (hq : s.queued o = true) : execMatrixOpStart n s = .next s := by
  simp only [execMatrixOpStart, h, hq, if_true]
theorem execMatrixOpStart_free (hq : s.queued o = false) : execMatrixOpStart n s = .next (s.matStart o) := by
  simp only [execMatrixOpStart, h, hq, Bool.false_eq_true, if_false]
end
section
variable {s : State} {o : EngOp}
theorem startCause_eq_orElse (s : State) (o : EngOp) :
    ((s.startBad o).1.orElse fun _ => s.runBad o (s.startBad o).2) = startCause s o := by
  rw [startCause]
  cases (s.startBad o).1 <;> rfl
theorem State.matStart_fails {b : Nat × Nat} (hb : startCause s o = some b) :
    s.matStart o = s.useFree.setEng (startAs s o o.both b (some ((s.quad o.core).cyc + 2))) := by
  unfold State.matStart
  simp only [startCause_eq_orElse, hb, Option.isSome_some, if_true]
  rfl
/-- An operation that nothing fails, with what its kind does at the start. -/
theorem State.matStart_starts (hb : startCause s o = none) :
    let u := fun due => s.useFree.setEng (startAs s o (s.startBad o).2 (0, 0) due)
    let keyed := o.kind == .mresv && o.reg 2 != 0
    let due := if keyed then none else some ((s.quad o.core).cyc + o.cycles (2 ^ (s.quad o.core).pass.toNat))
    s.matStart o =
      if o.kind == .mresv then
        match (s.core o.core).res with
        | some r =>
          let v := (u due).setCore o.core (((u due).core o.core).clearRes r)
          if keyed then v.pairDue (startAs s o (s.startBad o).2 (0, 0) none) else v
        | none => u due
      else if o.kind == .mrels then (u due).setCore o.core { (u due).core o.core with res := none } else u due := by
  unfold State.matStart
  simp only [startCause_eq_orElse, hb, Option.isSome_none, Bool.false_eq_true, if_false]
  rfl
end

section
variable {s : State} {n : Nat} {o : EngOp}
  (h : s.engs.find? (fun x => x.id == n && !x.saved && x.kind.unit == 1 && !x.started && x.cause == 0) = some o) (hq : s.queued o = false)
include h hq
theorem execMatrixOpStart_fails {b : Nat × Nat} (hb : startCause s o = some b) :
    execMatrixOpStart n s = .next (s.useFree.setEng (startAs s o o.both b (some ((s.quad o.core).cyc + 2)))) := by
  rw [execMatrixOpStart_free h hq, State.matStart_fails hb]
theorem execMatrixOpStart_starts (hb : startCause s o = none) :
    let due := some ((s.quad o.core).cyc + o.cycles (2 ^ (s.quad o.core).pass.toNat))
    let u := fun due => s.useFree.setEng (startAs s o (s.startBad o).2 (0, 0) due)
    (o.kind ≠ .mresv → o.kind ≠ .mrels → execMatrixOpStart n s = .next (u due)) ∧
    (o.kind = .mrels → execMatrixOpStart n s = .next ((u due).setCore o.core { (u due).core o.core with res := none })) ∧
    (∀ r, o.kind = .mresv → o.reg 2 = 0 → (s.core o.core).res = some r →
      execMatrixOpStart n s = .next ((u due).setCore o.core (((u due).core o.core).clearRes r))) ∧
    (∀ r, o.kind = .mresv → o.reg 2 ≠ 0 → (s.core o.core).res = some r → execMatrixOpStart n s =
      .next (((u none).setCore o.core (((u none).core o.core).clearRes r)).pairDue (startAs s o (s.startBad o).2 (0, 0) none))) := by
  rw [execMatrixOpStart_free h hq, State.matStart_starts hb]
  refine ⟨fun hv hr => ?other, fun hr => ?rels, fun r hv h2 hres => ?plain, fun r hv h2 hres => ?keyed⟩
  case other => simp only [beq_eq_false_iff_ne.mpr hv, beq_eq_false_iff_ne.mpr hr, Bool.false_and, Bool.false_eq_true, if_false]
  case rels => simp only [hr, beq_self_eq_true, if_true]; rfl
  case plain => simp only [hv, h2, hres, beq_self_eq_true, bne_self_eq_false, Bool.and_false, Bool.false_eq_true, if_true, if_false]
  case keyed => simp only [hv, hres, beq_self_eq_true, bne_iff_ne.mpr h2, Bool.and_true, if_true]
end
/-- A partner that holds nothing pairs with nothing (R324). -/
theorem State.pairLive_of_partner_free {s : State} {c : CoreRef} (h : (s.core (CoreRef.partner c)).res = none) : s.pairLive c = false := by
  unfold State.pairLive
  rw [h]
  cases (s.core c).res <;> rfl
theorem execMresvPartnerTimeout_unmet {s : State} {n : Nat} {o : EngOp} {c : Ctx}
    (h : s.engs.find? (fun x => x.id == n && !x.saved && x.kind == .mresv && x.cause == 0 && x.reg 2 != 0) = some o)
    (hp : (s.core (CoreRef.partner o.core)).res = none) (hc : s.ctx o.ctx = some c) (hw : c.wto ≠ 63) :
    let u := s.reachCyc (s.quadKeyOf o.core) (o.cyc + 2 ^ (if c.wto = 0 then 30 else c.wto))
    execMresvPartnerTimeout n s = .next ((u.setCore o.core { u.core o.core with res := none }).engDone o 0 0x1A2 0) := by
  simp only [execMresvPartnerTimeout, h, hc, Option.map_some, Option.getD_some, State.pairLive_of_partner_free hp, Bool.false_and,
    Bool.or_false, beq_iff_eq, hw, if_false]
  rfl

/-- Settles O29: each unit's delivery by what has failed it, the effects of MLOAD, MZERO, MMA and MMAI, the starts, and
the partner's timeout. -/
theorem engineDeliveries : Obligations.EngineDeliveries := by
  refine ⟨fun s n o h hc hu => ?_, fun s o hc => State.matFail_plain hc, fun s n o h hc hu ht => ?_,
    fun s n o k bs h hkind hc hs hd hk hl ho => ?_, fun s n o k h hkind hc hs hd hk => ?_,
    fun s n o k h hkind hc hs hd hk hown hpart => ?_,
    fun s n o h => ⟨fun hq => execMatrixOpStart_queued h hq, fun hq => ⟨fun b hb => execMatrixOpStart_fails h hq hb,
      fun hb => execMatrixOpStart_starts h hq hb⟩⟩,
    fun s n o h hp c hc hw => execMresvPartnerTimeout_unmet h hp hc hw⟩
  · exact (execEngineDelivery_matrix h hu).trans (by rw [State.matDelivery_failed hc])
  · exact (execEngineDelivery_copy h hu).trans (by rw [State.copyDelivery_failed hc ht])
  · exact (execEngineDelivery_matrix h (by rw [hkind]; rfl)).trans (by rw [State.matDelivery_mload hc hs hd hk hkind hl ho])
  · exact (execEngineDelivery_matrix h (by rw [hkind]; rfl)).trans (by rw [State.matDelivery_mzero hc hs hd hk hkind])
  · have hu : o.kind.unit = 1 := by rcases hkind with h | h <;> rw [h] <;> rfl
    refine (execEngineDelivery_matrix h hu).trans ?_
    rw [State.matDelivery_mma hc hs hd hk hkind, State.mmaRun_unchanged hkind hown hpart]
    rfl

end Sys2Proof.Machine
end

section
/-! PROOFS. What a delivery does to its barrier object, to local memory and to an accumulator tile (spec/08_core_sync.md R237 to R239;
spec/11_copy.md R312, R321; spec/12_matrix.md R340), and the statement about it (O30). -/

namespace Sys2Proof.Machine
open Sys2Proof.Safety

/-! ### Deliveries to an object (R239) -/

section
variable {s : State} {b a : Nat} {k : Block} (hk : s.block b = some k) (hv : (k.bo a).v = true)
include hk hv
theorem State.deliver_good {bytes : Nat} {arr final : Bool} {eng cause detail : Nat} (harr : arr = true → 0 < (k.bo a).pend)
    (htx : -(2 ^ 31 : Int) ≤ (k.bo a).tx - bytes) : s.deliver b a bytes arr final eng cause detail =
      (s.stPut b a (if final then stRecord (mread k.lmem (a + 8) 8) (k.bo a).ph true cause eng (if cause = 0 then 0 else detail)
        else mread k.lmem (a + 8) 8)).boPut b a
        { k.bo a with pend := if arr then (k.bo a).pend - 1 else (k.bo a).pend, tx := (k.bo a).tx - bytes } := by
  have hovr : (arr && (k.bo a).pend == 0) = false := by
    cases arr with
    | false => rfl
    | true => exact beq_eq_false_iff_ne.mpr (harr rfl).ne'
  have hrange : ¬ (k.bo a).tx - bytes < -(2 ^ 31 : Nat) := by push_cast; omega
  simp only [State.deliver, hk, hv, hovr, hrange, Bool.not_true, Bool.not_false, Bool.and_true, Bool.false_eq_true, if_false]
  cases final with
  | false => simp only [Bool.false_eq_true, if_false, bne_self_eq_false, Bool.or_self]
  | true =>
    by_cases hc : cause = 0
    · simp only [hc, if_true, bne_self_eq_false, Bool.false_eq_true, if_false, Bool.or_false]
    · simp only [hc, if_true, bne_iff_ne.mpr hc, if_false, Bool.or_self]
theorem State.deliver_overrun {eng detail : Nat} (hp : (k.bo a).pend = 0) (htx : -(2 ^ 31 : Int) ≤ (k.bo a).tx) :
    s.deliver b a 0 true true eng 0 detail =
      (s.stPut b a (stRecord (mread k.lmem (a + 8) 8) (k.bo a).ph true 0x103 eng 0)).boPut b a (k.bo a) := by
  have hrange : ¬ (k.bo a).tx < -(2 ^ 31 : Nat) := by push_cast; omega
  simp only [State.deliver, hk, hv, hp, Nat.cast_zero, sub_zero, hrange, Bool.not_true, Bool.false_eq_true, if_false, if_true,
    bne_self_eq_false, beq_self_eq_true, Bool.and_self, Bool.true_or]
  have hself : (⟨(k.bo a).ph, true, (k.bo a).init, 0, (k.bo a).tx⟩ : Bo) = k.bo a := by rw [← hv, ← hp]
  simp only [Bool.and_false, Bool.false_eq_true, if_false, hself]
  rfl
end

/-- The first cause of a phase is recorded with its unit and its detail, and the operations are counted (R237). -/
theorem stRecord_first {st eng cause detail : Nat} {ph : Bool} (hst : st < 2 ^ 64) (hcause : cause < 2 ^ 10) (hc : cause ≠ 0)
    (heng : eng < 8) (hph : (st / 2 ^ 63 = 1) = (ph = true)) (hnone : st / 2 ^ 53 % 2 ^ 10 = 0) :
    let r := stRecord st ph true cause eng detail
    r / 2 ^ 53 % 2 ^ 10 = cause ∧ r / 2 ^ 50 % 2 ^ 3 = eng ∧ r % 2 ^ 32 = detail % 2 ^ 32 ∧
      r / 2 ^ 34 % 2 ^ 16 = (st / 2 ^ 34 + 1) % 2 ^ 16 := by
  have hbit : bit st 63 = ph := by
    rw [Bool.eq_iff_iff, ← hph, bit, beq_iff_eq]
    omega
  have hfree : ∀ n, n < 65536 → bits (st - bits st 49 34 * 2 ^ 34 + n * 2 ^ 34) 62 53 = 0 := fun n hn => by
    simp only [bits]
    omega
  simp only [stRecord, hbit, bne_self_eq_false, Bool.false_eq_true, if_false, if_true, hfree _ (Nat.mod_lt _ (by decide)),
    beq_self_eq_true, bne_iff_ne.mpr hc, Bool.and_self]
  simp only [bits, Nat.reduceSub, Nat.reduceAdd, Nat.reducePow, Nat.pow_zero, Nat.div_one] at hnone hst hcause ⊢
  refine ⟨?_, ?_, ?_, ?_⟩ <;> omega

/-! ### MMAI without SAT (R340) -/

/-- A tile made from its elements has them. -/
theorem tget_filterMap_nonzero (f : Nat → Word) (l : List Nat) (i : Nat) :
    (tget (l.filterMap fun i => if f i == 0 then none else some (i, f i)) i).getD 0 = if i ∈ l then f i else 0 := by
  induction l with
  | nil => rfl
  | cons x l ih =>
    by_cases hx : f x = 0
    · have hx' : (f x == 0) = true := beq_iff_eq.mpr hx
      simp only [List.filterMap_cons, hx', if_true, ih]
      by_cases hi : i = x
      · simp [hi, hx]
      · simp [hi]
    · have hx' : (f x == 0) = false := beq_eq_false_iff_ne.mpr hx
      simp only [List.filterMap_cons, hx', Bool.false_eq_true, if_false, tget]
      by_cases hi : x = i
      · simp [hi]
      · rw [beq_eq_false_iff_ne.mpr hi, if_neg Bool.false_ne_true, ih]
        simp [Ne.symm hi]
theorem tileAt_tileOf (f : Nat → Word) {i : Nat} (hi : i < 8192) : tileAt (tileOf f) i = f i := by
  rw [tileAt, tileOf, tget_filterMap_nonzero, if_pos (List.mem_range.mpr hi)]
section
variable (c : Core) (a b : ORec)
theorem Core.tile_setTile (t : Nat) (v : Tbl Word) : (c.setTile t v).tile t = v := by
  unfold Core.setTile Core.tile
  cases t <;> rfl
theorem Core.tile_stick (t u : Nat) (f : BitVec 3) : (c.stick t f).tile u = c.tile u := by
  unfold Core.stick
  cases t <;> rfl
/-- One chunk adds modulo 2^32. -/
theorem chunkInt_wraps (acc : Nat) (x : Int) : BitVec.ofNat 32 (chunkInt acc false x).1 = BitVec.ofNat 32 acc + BitVec.ofInt 32 x := by
  simp only [chunkInt, Bool.false_eq_true, if_false, BitVec.ofNat_toNat, BitVec.setWidth_eq, BitVec.ofInt_add, sext_eq_toInt,
    BitVec.ofInt_toInt]
theorem dot_succ (kc m n : Nat) : dot c a b (kc + 1) m n = dot c a b kc m n +
    ((((List.range 32).map (· + 32 * kc)).map fun k => (c.val a m k).int * (c.val b n k).int).sum) := by
  simp only [dot, Nat.mul_succ, List.range_add, List.map_append, List.sum_append, List.map_map]
  congr 4
  exact funext fun k => Nat.add_comm _ _
theorem Core.mmaElem_wraps (kc m n acc : Nat) :
    BitVec.ofNat 32 (c.mmaElem a b true false kc m n acc).1 = BitVec.ofNat 32 acc + BitVec.ofInt 32 (dot c a b kc m n) := by
  induction kc with
  | zero => exact (BitVec.add_zero _).symm
  | succ kc ih =>
    rw [dot_succ, BitVec.ofInt_add, ← BitVec.add_assoc, ← ih, ← chunkInt_wraps]
    unfold Core.mmaElem
    rw [List.range_succ (n := kc), List.foldl_append]
    rfl
theorem Core.mma_wraps {ctl m n : Nat} (hsat : ctl / 64 % 2 = 0) (hm : m < 64) (hn : n < 128) :
    let t := if ctl / 16 % 2 = 0 then 0 else 1
    tileAt ((c.mma a b true ctl).tile t) (128 * m + n) =
      (if ctl / 32 % 2 = 1 then 0 else tileAt (c.tile t) (128 * m + n)) + BitVec.ofInt 32 (dot c a b (ctl % 16 + 1) m n) := by
  have ht : (if ctl / 16 % 2 = 0 then 0 else 1) = bits ctl 4 4 := by
    simp only [bits]
    split <;> omega
  have hs : bit ctl 6 = false := by rw [bit, beq_eq_false_iff_ne]; omega
  have hz : bit ctl 5 = decide (ctl / 32 % 2 = 1) := rfl
  have hdiv : (128 * m + n) / 128 = m := by omega
  have hmod : (128 * m + n) % 128 = n := by omega
  simp only [Core.mma, ht, hs, hz, Core.tile_stick, Core.tile_setTile, tileAt_tileOf _ (show 128 * m + n < 8192 by omega), hdiv, hmod,
    Core.mmaElem_wraps, decide_eq_true_eq]
  split
  · rfl
  · rw [BitVec.ofNat_toNat, BitVec.setWidth_eq]
end

/-! ### CPYFILL of local memory (R312, R321) -/

theorem leBytes_getElem? (n v i : Nat) (h : i < n) : (leBytes n v)[i]? = some (BitVec.ofNat 8 (v / 2 ^ (8 * i))) := by
  induction n generalizing v i with
  | zero => omega
  | succ n ih =>
    cases i with
    | zero => simp [leBytes]
    | succ i =>
      rw [leBytes, List.getElem?_cons_succ, ih _ _ (by omega), Nat.div_div_eq_div_mul, Nat.mul_succ, Nat.add_comm, Nat.pow_add]
/-- Between the blocks k and j the pattern of a fill has been written over the bytes from lo to hi of its range, and nothing else of local
memory has changed. -/
def Filled (o : EngOp) (k j : Block) (lo hi : Nat) : Prop :=
  (∀ i, lo ≤ i → i < hi → mget j.lmem (o.reg 0 + i) = BitVec.ofNat 8 (o.ptr 4 / 2 ^ (8 * (i % fillP o)))) ∧
  ∀ x, x < o.reg 0 + lo ∨ o.reg 0 + hi ≤ x → mget j.lmem x = mget k.lmem x
theorem Filled.refl (o : EngOp) (k : Block) (lo : Nat) : Filled o k k lo lo := ⟨fun i h h' => by omega, fun _ _ => rfl⟩
theorem Filled.trans {o : EngOp} {k j l : Block} {lo mid hi : Nat} (h1 : Filled o k j lo mid) (h2 : Filled o j l mid hi) (hlm : lo ≤ mid)
    (hmh : mid ≤ hi) : Filled o k l lo hi := by
  obtain ⟨hin, hout⟩ := h1
  obtain ⟨hin', hout'⟩ := h2
  refine ⟨fun i hlo hhi => ?_, fun x hx => ?_⟩
  · by_cases hi : mid ≤ i
    · exact hin' i hi hhi
    · rw [hout' _ (by omega), hin i hlo (by omega)]
  · rw [hout' x (by omega), hout x (by omega)]
/-- The block with element e of a fill written. -/
def Block.fillElem (k : Block) (o : EngOp) (e : Nat) : Block :=
  let bs := leBytes (fillP o) (o.ptr 4)
  let a := o.reg 0 + e * fillP o
  { k with lmem := mputs k.lmem a bs, lpoison := k.lpoison.filter fun x => !(a ≤ x && decide (x < a + bs.length)) }
theorem filled_fillElem (k : Block) (o : EngOp) (e : Nat) : Filled o k (k.fillElem o e) (e * fillP o) ((e + 1) * fillP o) := by
  have hz : (e + 1) * fillP o = e * fillP o + fillP o := Nat.succ_mul _ _
  refine ⟨fun i hlo hhi => ?_, fun x hx => ?_⟩
  · obtain ⟨d, rfl⟩ := Nat.exists_eq_add_of_le hlo
    have hd : d < fillP o := by omega
    simp only [Block.fillElem, mget_mputs, length_leBytes]
    rw [if_pos (by omega), show o.reg 0 + (e * fillP o + d) - (o.reg 0 + e * fillP o) = d by omega, leBytes_getElem? _ _ _ hd,
      Option.getD_some, Nat.mul_comm e, Nat.mul_add_mod, Nat.mod_eq_of_lt hd]
  · exact mget_mputs_outside _ _ _ _ (by rw [length_leBytes]; omega)
section
variable {o : EngOp} (hkind : o.kind = .cpyfill) (hmd : o.md % 2 = 0)
include hkind hmd
theorem State.copyElem_fill {s : State} {k : Block} (hk : s.block o.blk = some k) (e : Nat) :
    s.copyElem k o e = (.ok [], s.modBlock o.blk fun k => k.fillElem o e) := by
  simp only [State.copyElem, EngOp.esize, hkind, hmd, State.block_id hk, beq_self_eq_true, if_true]
  rfl
/-- Elements e to e + n of a fill are written, one after the other. -/
theorem State.copyRun_fill {s : State} {k : Block} (hk : s.block o.blk = some k) (e n : Nat) :
    ∃ t j, s.copyRun o e n = (t, e + n, none) ∧ t.block o.blk = some j ∧ t.mem = s.mem ∧
      Filled o k j (e * fillP o) ((e + n) * fillP o) := by
  induction n generalizing s k e with
  | zero => exact ⟨s, k, rfl, hk, rfl, .refl o k _⟩
  | succ n ih =>
    have hk' : (s.modBlock o.blk fun k => k.fillElem o e).block o.blk = some (k.fillElem o e) := by
      rw [State.block_modBlock_same _ _ (fun k => k.fillElem o e) fun _ => rfl, hk, Option.map_some]
    obtain ⟨t, j, hrun, hj, hmem, hf⟩ := ih hk' (e + 1)
    have he : e + 1 + n = e + (n + 1) := by omega
    rw [he] at hrun hf
    refine ⟨t, j, ?_, hj, hmem.trans (State.modBlock_mem _ _ _), (filled_fillElem k o e).trans hf
      (Nat.mul_le_mul_right _ (by omega)) (Nat.mul_le_mul_right _ (by omega))⟩
    simp only [State.copyRun, hk, State.copyElem_fill hkind hmd hk, hrun]
end
/-- A delivery writes its object's two words and nothing else of local memory. -/
theorem State.deliver_block {s : State} {b : Nat} {k : Block} (hk : s.block b = some k) (a bytes : Nat) (arr final : Bool)
    (eng cause detail : Nat) : ∃ j, (s.deliver b a bytes arr final eng cause detail).block b = some j ∧
      ∀ x, (x < a ∨ a + 16 ≤ x) → mget j.lmem x = mget k.lmem x := by
  have hput : ∃ st w, s.deliver b a bytes arr final eng cause detail = (s.stPut b a st).boPut b a w := by
    simp only [State.deliver, hk]
    split
    · exact ⟨_, _, rfl⟩
    · exact ⟨_, _, rfl⟩
  obtain ⟨st, w, hd⟩ := hput
  have hst : (s.stPut b a st).block b = some { k with lmem := mwrite k.lmem (a + 8) 8 st } := by
    rw [State.stPut, State.block_modBlock_same _ _ _ (fun k => by exact rfl), hk, Option.map_some]
  refine ⟨_, by rw [hd, State.boPut_block hst], fun x hx => ?_⟩
  show mget (mwrite (mwrite k.lmem (a + 8) 8 st) a 8 w.check.word.toNat) x = _
  rw [mget_mwrite_outside _ _ _ _ _ (by omega), mget_mwrite_outside _ _ _ _ _ (by omega)]
/-- A fill that is performed whole ends with its delivery (R321). -/
theorem State.copyDelivery_fill {s t : State} {o : EngOp} (hkind : o.kind = .cpyfill) (hc : o.cause = 0) (hd : o.due.isSome = true)
    (hprog : o.prog = 0) (hpos : 0 < o.bytes) (hz : o.bytes % fillP o = 0)
    (hrun : s.useFree.copyRun o 0 (o.bytes / fillP o) = (t, o.bytes / fillP o, none)) :
    ∃ u : State, u.blocks = t.blocks ∧ u.mem = t.mem ∧ s.copyDelivery o = u.deliver o.blk o.bo o.bytes false true 1 0 0 := by
  have hn : o.bytes / fillP o * fillP o = o.bytes := Nat.div_mul_cancel (Nat.dvd_of_mod_eq_zero hz)
  have hn0 : (o.bytes / fillP o == 0) = false := beq_eq_false_iff_ne.mpr fun h => by
    rw [h, Nat.zero_mul] at hn
    omega
  refine ⟨{ t with engs := t.engs.filter fun (x : EngOp) => x.id != o.id }, rfl, rfl, ?_⟩
  have hz' : o.esize = fillP o := by rw [EngOp.esize, hkind]; rfl
  have heng : o.kind.eng = 1 := by rw [hkind]; rfl
  have hstep : s.copyDelivery o = s.copyStep o := by
    unfold State.copyDelivery
    rw [hkind, hc]
    rfl
  rw [hstep]
  simp only [State.copyStep, hz', hprog, hd, Nat.zero_div, Nat.sub_zero, if_true, hrun, hn0, hn, Bool.false_eq_true, if_false,
    beq_self_eq_true, State.engDone, heng]
  rw [hkind]
  rfl
section
variable {s : State} {n : Nat} {o : EngOp} {k : Block}
theorem execEngineDelivery_fill (h : HasOp s n o) (hkind : o.kind = .cpyfill) (hc : o.cause = 0) (hmd : o.md % 2 = 0)
    (hd : o.due.isSome = true) (hprog : o.prog = 0) (hpos : 0 < o.bytes) (hz : o.bytes % fillP o = 0) (hk : s.block o.blk = some k) :
    ∃ t i j, execEngineDelivery n s = .next t ∧ t.block o.blk = some j ∧ t.mem = s.mem ∧ Filled o k i 0 o.bytes ∧
      ∀ x, (x < o.bo ∨ o.bo + 16 ≤ x) → mget j.lmem x = mget i.lmem x := by
  have hk' : (atDue s o).useFree.block o.blk = some k := (State.block_reachDue ..).trans hk
  obtain ⟨t, i, hrun, hi, hmem, hf⟩ := State.copyRun_fill hkind hmd hk' 0 (o.bytes / fillP o)
  rw [Nat.zero_add, Nat.zero_mul, Nat.div_mul_cancel (Nat.dvd_of_mod_eq_zero hz)] at hf
  rw [Nat.zero_add] at hrun
  obtain ⟨u, hblocks, humem, hu⟩ := State.copyDelivery_fill hkind hc hd hprog hpos hz hrun
  have hui : u.block o.blk = some i := by rw [State.block, hblocks, ← State.block, hi]
  obtain ⟨j, hj, hkeep⟩ := State.deliver_block hui o.bo o.bytes false true 1 0 0
  refine ⟨_, i, j, ?_, hj, ?_, hf, hkeep⟩
  · rw [← hu]
    simp only [execEngineDelivery, (show s.engs.find? (fun x => x.id == n && !x.saved) = some o from h), hkind]
    rfl
  · rw [State.deliver_mem, humem, hmem]
    exact State.reachDue_mem _ _ _
end
theorem mread_one (m : Mem) (a : Nat) : mread m a 1 = (mget m a).toNat := by rw [mread_succ]; rfl

/-- Settles O30: deliveries to an object, what the status word keeps, MMAI chunk by chunk, and a fill element by element. -/
theorem engineResults : Obligations.EngineResults := by
  refine ⟨fun s b a bytes k arr final eng cause detail hk hv harr htx => State.deliver_good hk hv harr htx,
    fun s b a k eng detail hk hv hp htx => State.deliver_overrun hk hv hp htx,
    fun st eng cause detail ph hst hcause hc heng hph hnone => stRecord_first hst hcause hc heng hph hnone,
    fun c a b ctl m n hsat hm hn => Core.mma_wraps c a b hsat hm hn, fun s n o k h hkind hc hmd hd hprog hpos hz hk hbo => ?_⟩
  obtain ⟨t, i, j, hexec, hj, hmem, ⟨hin, hout⟩, hkeep⟩ := execEngineDelivery_fill h hkind hc hmd hd hprog hpos hz hk
  refine ⟨t, j, hexec, hj, hmem, fun x hx => ?_, fun x hx hxo => ?_⟩
  · rw [mread_one, hkeep _ (by omega), hin x (Nat.zero_le x) hx, BitVec.toNat_ofNat]
  · rw [mread_one, mread_one, hkeep x hxo, hout x (by omega)]

end Sys2Proof.Machine
end

section
/-! PROOFS. SQWAITC's cycle and the wait timeout (spec/08_core_sync.md R248; spec/10_distributor.md R290, R294), and the statement about
them (O33). -/

namespace Sys2Proof.Machine
open Sys2Proof.Safety

/-- The waits that nothing bounds are JWAIT's and KILLF's (R248). -/
theorem Wait.bounded_iff (w : Wait) : w.bounded = true ↔ (∀ j, w ≠ .jwait j) ∧ ∀ x, w ≠ .killf x := by
  cases w <;> simp [Wait.bounded]
theorem State.timeout_of_ctx {s : State} {i : Nat} {c : Ctx} (h : s.ctx i = some c) :
    s.timeout i = if c.wto = 63 then none else some (2 ^ (if c.wto = 0 then 30 else c.wto)) := by
  simp only [State.timeout, h, Option.map_some, Option.getD_some, beq_iff_eq]
section
variable {s : State} {b tl : Nat} {k : Block} {w : Wait} (hk : s.block b = some k) (hw : (k.thread tl).status = .waiting w)
include hk hw
theorem execWaitTimeout_unbounded (hb : w.bounded = false) : execWaitTimeout (.thread b tl) s = .next s := by
  simp only [execWaitTimeout, hk, hw]
  cases (if k.saved then none else s.timeout k.ctx) with
  | none => rfl
  | some n => simp only [hb, Bool.false_eq_true, if_false]
theorem execWaitTimeout_bounded (hs : k.saved = false) {n : Nat} (hn : s.timeout k.ctx = some n) (hb : w.bounded = true) :
    execWaitTimeout (.thread b tl) s = .next ((s.reachCyc (s.quadKeyOf k.core)
      ((k.thread tl).waitFrom + (n - (k.thread tl).waitBase) + 1)).takeTrap b tl
      ⟨0x100, 0, (k.thread tl).pc, (k.thread tl).pc, (k.thread tl).hdr, 0, false, false, true, (k.thread tl).pos⟩) := by
  simp only [execWaitTimeout, hk, hs, hn, hw, hb, Bool.false_eq_true, if_false, if_true]
  rfl
end
theorem execSqwaitcExpiry_held {s : State} {c : CoreRef} {k : SeqKind} {t : Nat} (hr : (s.sq c k).running = true)
    (hd : (s.core c).drain < 2) (ht : (s.sq c k).holdT = some t) :
    execSqwaitcExpiry c k s = .next ((s.reachCyc (s.quadKeyOf c) ((s.sq c k).scyc0 + t).toNat).setSq c k
      { (s.sq c k).advance with holdT := none, due :=
        if (s.block (s.sq c k).owner).any (fun b => s.blockFixed b) then some ((s.sq c k).scyc0 + t).toNat else none }) := by
  simp only [execSqwaitcExpiry, hr, hd, ht, decide_true, Bool.and_self, if_true]
  cases s.block (s.sq c k).owner <;> rfl
theorem execWaitTimeout_sequencer {s : State} {c : CoreRef} {k : SeqKind} {b : Block} {n : Nat} (hb : s.block (s.sq c k).owner = some b)
    (hn : s.timeout b.ctx = some n) (hr : (s.sq c k).running = true) (hw : (s.sq c k).bowait.isSome = true) :
    execWaitTimeout (.sequencer c k) s =
      .next ((s.reachCyc (s.quadKeyOf c) ((s.sq c k).waitFrom + n + 1).toNat).endProgram c k (s.sq c k) 0x100) := by
  simp only [execWaitTimeout, hb, Option.bind_some, hn, hr, hw, Bool.and_self, if_true]
  rfl

/-- Settles O33: SQWAITC's cycle, a thread's wait by whether anything bounds it, and a sequencer's. -/
theorem waitsExpire : Obligations.WaitsExpire := by
  refine ⟨fun s c k t hr hd ht => execSqwaitcExpiry_held hr hd ht, fun s b tl k w n hk hs hn hw hj hf =>
    execWaitTimeout_bounded hk hw hs hn (w.bounded_iff.mpr ⟨hj, hf⟩), fun s b tl k hk h => ?_,
    fun s c k b n hb hn hr hw => execWaitTimeout_sequencer hb hn hr hw, fun s c i hc => State.timeout_of_ctx hc⟩
  obtain ⟨x, hx⟩ | ⟨x, hx⟩ := h
  · exact execWaitTimeout_unbounded hk hx rfl
  · exact execWaitTimeout_unbounded hk hx rfl

end Sys2Proof.Machine
end

section
/-! PROOFS. TRAP, BPT and TRET (spec/09_core_traps.md R265, R267): instructions after which every lane traps, what a lane of a TRET does, and
the statement about them (O24). -/

namespace Sys2Proof.Machine
open Sys2Proof.Safety

/-! ### Traps that follow the instruction (R259) -/

/-- Lanes that all trap after the instruction act no further, and are reported in ascending position. -/
theorem runLanes_trapAfter {i : Instr} {s0 : State} {g : Group} {k : Block} {parts : List (Nat × Nat)} (c : Nat) (d : Word) (a : DWord)
    (dfl : Bool) (l : List (Nat × Nat)) (s : State) :
    runLanes i s0 g k parts (fun _ s => (s, some (.trap c d a true dfl))) l s =
      (afterLanes i k (fun p => ⟨s0, g, k, p.1, p.2, k.thread p.2, parts⟩) (fun _ s => s) l s,
        l.map fun p => (p, .trap c d a true dfl)) := by
  induction l generalizing s with
  | nil => rfl
  | cons p r ih =>
    simp only [runLanes, if_true, ih]
    rfl
theorem stopsAfter_of_issue {i : Instr} {pred : BitVec 3} {pneg : Bool} {c : Nat} {d : Word} {a : DWord} {dfl : Bool}
    (he : ∀ s, exec i s = issue i pred pneg none (fun _ s => (s, some (.trap c d a true dfl))) s) :
    StopsAfter i pred pneg fun _ => .trap c d a true dfl := by
  intro s g k h
  obtain ⟨rest, ho⟩ := opens_of_front h.front
  obtain ⟨hbad, hok⟩ := srcStop_filter h
  rw [he]
  simp only [issue, ho, h.block, slotFull_of_room (room_none k _), hbad, hok, runLanes_trapAfter]
  rfl

/-! ### TRET (R267) -/

/-- What a lane of a TRET does: a TRET.to jumps to its target as an indirect branch does. -/
def tretLane (f : FA) (e : Env) (s : State) : LaneOut :=
  let cyc := (s.quad e.k.core).cyc
  if !e.th.inHandler then (s, some (.trap 0x011 0 0 false false))
  else if f.md.getLsbD 0 then e.jump s (e.r64 f.a) fun t => returned t (e.r64 f.a) (e.r64 f.a) cyc
  else
    match keptWait e.th with
    | some w => (({ e.upd s (fun t => { returned t t.tw2 t.rhdr cyc with
        status := .waiting w, waitFrom := cyc, waitSeq := s.nextId }) with nextId := s.nextId + 1 }).retryWait e.k.id e.tl, none)
    | none => (e.upd s fun t => returned t t.tw2 t.rhdr cyc, none)
theorem exec_tret (f : FA) (s : State) : exec (.tret f) s = issue (.tret f) f.pred f.pneg none (tretLane f) s := rfl
section
variable {f : FA} {e : Env} {s : State}
theorem tretLane_outside (h : e.th.inHandler = false) : tretLane f e s = (s, some (.trap 0x011 0 0 false false)) := by
  simp only [tretLane, h, Bool.not_false, if_true]
section
variable (h : e.th.inHandler = true)
include h
theorem tretLane_to (hm : f.md.getLsbD 0 = true) : tretLane f e s =
    e.jump s (e.r64 f.a) fun t => returned t (e.r64 f.a) (e.r64 f.a) (s.quad e.k.core).cyc := by
  simp only [tretLane, h, hm, Bool.not_true, Bool.false_eq_true, if_false, if_true]
theorem tretLane_back (hm : f.md.getLsbD 0 = false) (hw : keptWait e.th = none) : tretLane f e s =
    (e.upd s fun t => returned t t.tw2 t.rhdr (s.quad e.k.core).cyc, none) := by
  simp only [tretLane, h, hm, hw, Bool.not_true, Bool.false_eq_true, if_false]
theorem tretLane_waits (hm : f.md.getLsbD 0 = false) {w : Wait} (hw : keptWait e.th = some w) : tretLane f e s =
    (({ e.upd s (fun t => { returned t t.tw2 t.rhdr (s.quad e.k.core).cyc with
      status := .waiting w, waitFrom := (s.quad e.k.core).cyc, waitSeq := s.nextId }) with nextId := s.nextId + 1 }).retryWait e.k.id e.tl,
      none) := by
  simp only [tretLane, h, hm, hw, Bool.not_true, Bool.false_eq_true, if_false]
end
end

/-- Settles O24: the two trapping instructions, and TRET by where it goes on or why it does not. -/
theorem trapsAndReturns : Obligations.TrapsAndReturns := by
  refine ⟨fun f => stopsAfter_of_issue fun _ => rfl, fun f => stopsAfter_of_issue fun _ => rfl, fun f hm => ?back, fun f hm => ?inWait,
    fun f hm => ?target, fun f => ?outside, fun f hm => ?badTarget, fun f hm => ?waitingTarget⟩
  case back => exact completes_of_issue (exec_tret f) fun e s ⟨h, hw⟩ => tretLane_back h hm hw
  case inWait =>
    refine completes_of_issue (exec_tret f) fun e s ⟨h, hw⟩ => ?_
    obtain ⟨w, hw⟩ := Option.isSome_iff_exists.mp hw
    rw [tretLane_waits h hm hw, hw, Option.getD_some]
  case target => exact completes_of_issue (exec_tret f) fun e s ⟨h, ht⟩ => (tretLane_to h hm).trans (Env.jump_good _ ht)
  case outside => exact stopsOne_issue (fun e s h => tretLane_outside h) (fun _ _ _ => precedes_before _ _ _ _) (exec_tret f)
  case badTarget =>
    exact stopsOne_issue (fun e s ⟨h, ht⟩ => (tretLane_to h hm).trans (Env.jump_bad _ ht)) (fun _ _ _ => precedes_before _ _ _ _) (exec_tret f)
  case waitingTarget =>
    exact stopsOne_issue (fun e s ⟨h, ht⟩ => (tretLane_to h hm).trans (Env.jump_waiting _ ht)) (fun _ _ _ => precedes_hold) (exec_tret f)

end Sys2Proof.Machine
end

section
/-! PROOFS. FRGINFO, SFQPOP and KILLF (spec/09_core_traps.md R263, R266, R268, R269): the words they write, what KILLF leaves of a thread, and
the statement about them (O25). -/

namespace Sys2Proof.Machine
open Sys2Proof.Safety

/-! ### FRGINFO (R266) -/

section
variable (f : FA)
theorem frginfo_identity (hf : f.md.toNat % 8 = 0) : Completes (.frginfo f) f.pred f.pneg none (fun _ _ => True)
    fun e s => e.upd s fun t => t.setReg64 f.d.toNat (e.th.fid ++ e.th.parent ++ e.th.sib) := by
  refine completes_of_issue (fun _ => rfl) fun e s _ => ?_
  rw [hf]
  rfl
theorem frginfo_record (hlo : 1 ≤ f.md.toNat % 8) (hhi : f.md.toNat % 8 ≤ 4) :
    Completes (.frginfo f) f.pred f.pneg none (fun e _ => e.th.inHandler = true) fun e s => e.upd s fun t => t.setReg64 f.d.toNat
      ((lget [e.th.tw0, e.th.tw1, e.th.tw2, e.th.tw3] (f.md.toNat % 8 - 1)).getD 0) := by
  refine completes_of_issue (fun _ => rfl) fun e s h => ?_
  simp only [h]
  match f.md.toNat % 8, hlo, hhi with
  | 1, _, _ | 2, _, _ | 3, _, _ | 4, _, _ => rfl
theorem frginfo_outside (hf : f.md.toNat % 8 ≠ 0) : StopsOne (.frginfo f) f.pred f.pneg none (fun e _ => e.th.inHandler = false)
    (fun _ _ => .trap 0x011 0 0 false false) fun _ s => s := by
  refine stopsOne_issue (fun e s h => ?_) (fun _ _ _ => precedes_before _ _ _ _) fun _ => rfl
  simp only [beq_iff_eq, hf, h, if_false, Bool.not_false, if_true]
  rfl
end

/-! ### SFQPOP (R263, R268) -/

/-- The oldest record of a thread is the first in the queue that names it. -/
theorem sfTake_eq (tl : Nat) (l : List SfRec) : sfTake tl l = (l.find? fun r => r.tl == tl, l.eraseP fun r => r.tl == tl) := by
  induction l with
  | nil => rfl
  | cons r l ih =>
    rw [sfTake, ih]
    by_cases h : r.tl = tl <;> simp [h]
/-- The fields of a record's third word stand where R263 puts them. -/
theorem sfWords_eq_popWords (r : Option SfRec) (lost : BitVec 16) : sfWords r lost = popWords r lost := by
  cases r with
  | none =>
    have hlost : (0 : BitVec 16) ++ lost = lost.setWidth 32 := by
      refine BitVec.eq_of_toNat_eq ?_
      rw [toNat_append_add, BitVec.toNat_setWidth, Nat.mod_eq_of_lt (by omega)]
      simp
    rw [sfWords, popWords, hlost]
  | some r =>
    have hword : BitVec.ofNat 10 cWriteProtect ++ (1 : BitVec 1) ++ r.wfield ++ (0 : BitVec 2) ++ lost =
        BitVec.ofNat 32 (0x088 * 2 ^ 22 + 2 ^ 21 + r.wfield.toNat * 2 ^ 18 + lost.toNat) := by
      have hw := r.wfield.isLt
      have hl := lost.isLt
      refine BitVec.eq_of_toNat_eq ?_
      simp only [toNat_append_add, BitVec.toNat_ofNat, BitVec.ofNat_eq_ofNat, cWriteProtect]
      omega
    exact congrArg (fun w => [r.va.extractLsb' 0 32, r.va.extractLsb' 32 32, w, r.word]) hword
theorem sfqpop_completes (f : FA) : Completes (.sfqpop f) f.pred f.pneg none (fun _ _ => True) fun e s =>
    let k := blockNow e s
    e.upd (s.modBlock e.k.id fun j => { j with sfq := k.sfq.eraseP fun r => r.tl == e.tl }) fun t =>
      { t.setRegs f.d.toNat (popWords (k.sfq.find? fun r => r.tl == e.tl) (k.thread e.tl).lost) with lost := 0 } := by
  refine completes_of_issue (fun _ => rfl) fun e s _ => ?_
  simp only [sfTake_eq, sfWords_eq_popWords]
  rfl

/-! ### KILLF (R269) -/

theorem fragmentLives_iff {k : Block} {x : BitVec 16} : fragmentLives k x ↔ (k.threads.any fun t => t.alive && t.fid == x) = true := by
  simp [fragmentLives]
/-- What a lane of a KILLF does. -/
def killfLane (f : FA) (e : Env) (s : State) : LaneOut :=
  let u := s.killFragment e.k.id (killed e f)
  if e.th.fid != killed e f && (blockNow e u).threads.any (fun t => t.alive && t.fid == killed e f) then
    (waits e u (.killf (killed e f)), none)
  else (u, none)
theorem exec_killf (f : FA) (s : State) : exec (.killf f) s = issue (.killf f) f.pred f.pneg none (killfLane f) s := rfl
section
variable {f : FA} {e : Env} {s : State}
theorem killfLane_waits (h : killed e f ≠ e.th.fid ∧ fragmentLives (blockNow e (s.killFragment e.k.id (killed e f))) (killed e f)) :
    killfLane f e s = (waits e (s.killFragment e.k.id (killed e f)) (.killf (killed e f)), none) := by
  obtain ⟨hother, hlives⟩ := h
  rw [killfLane, if_pos]
  exact Bool.and_eq_true_iff.mpr ⟨bne_iff_ne.mpr hother.symm, fragmentLives_iff.mp hlives⟩
theorem killfLane_goesOn (h : killed e f = e.th.fid ∨ ¬ fragmentLives (blockNow e (s.killFragment e.k.id (killed e f))) (killed e f)) :
    killfLane f e s = (s.killFragment e.k.id (killed e f), none) := by
  rw [killfLane, if_neg]
  intro hc
  obtain ⟨hother, hlives⟩ := Bool.and_eq_true_iff.mp hc
  exact h.elim (bne_iff_ne.mp hother).symm fun hn => hn (fragmentLives_iff.mpr hlives)
end

/-! ### What is left of a thread that a KILLF ends -/

/-- The thread has ended, and its operations, stores and records are gone. -/
structure Killed (j : Block) (tl : Nat) : Prop where
  ended : (j.thread tl).status = .ended
  ops : (j.thread tl).ops = []
  lost : (j.thread tl).lost = 0
  pendSf : (j.thread tl).pendSf = none
  sbuf : ∀ x ∈ j.sbuf, x.tl ≠ tl
  sfq : ∀ x ∈ j.sfq, x.tl ≠ tl
def KilledIn (s : State) (b tl : Nat) : Prop := ∃ j, s.block b = some j ∧ Killed j tl

theorem KilledIn.ended {s : State} {b tl : Nat} (h : KilledIn s b tl) : (s.thread b tl).status = .ended := by
  obtain ⟨j, hj, hk⟩ := h
  rw [State.thread_of_block hj]
  exact hk.ended
theorem KilledIn.of_blocks {s t : State} {b tl : Nat} (h : KilledIn s b tl) (ht : t.blocks = s.blocks) : KilledIn t b tl := by
  obtain ⟨j, hj, hk⟩ := h
  exact ⟨j, by rwa [State.block, ht], hk⟩
theorem lget_of_ended {k : Block} {tl : Nat} (h : (k.thread tl).status = .ended) : lget k.threads tl = some (k.thread tl) := by
  unfold Block.thread at h ⊢
  cases ht : lget k.threads tl with
  | none => simp [ht] at h
  | some t => rfl
/-- A thread stays killed while other threads change. -/
theorem Killed.modThread {j : Block} {tl u : Nat} (h : Killed j tl) (f : Thread → Thread) (hu : tl ≠ u) : Killed (j.modThread u f) tl := by
  have ht := Block.thread_modThread_other j u tl f hu
  exact ⟨ht ▸ h.ended, ht ▸ h.ops, ht ▸ h.lost, ht ▸ h.pendSf, h.sbuf, h.sfq⟩
theorem KilledIn.modThread {s : State} {b c tl u : Nat} (h : KilledIn s b tl) (f : Thread → Thread) (hu : b ≠ c ∨ tl ≠ u) :
    KilledIn (s.modThread c u f) b tl := by
  obtain ⟨j, hj, hk⟩ := h
  by_cases hc : b = c
  · subst hc
    exact ⟨_, State.block_modThread hj u f, hk.modThread f (hu.resolve_left fun hn => hn rfl)⟩
  · exact ⟨j, (State.block_modThread_other s c b u f hc).trans hj, hk⟩

theorem Killed.refragment {k j : Block} {tl : Nat} (h : Killed k tl)
    (ht : ∃ x y z, j.thread tl = { k.thread tl with fid := x, parent := y, sib := z }) (hs : j.sbuf = k.sbuf) (hq : j.sfq = k.sfq) :
    Killed j tl := by
  obtain ⟨x, y, z, ht⟩ := ht
  constructor
  case sbuf => exact hs ▸ h.sbuf
  case sfq => exact hq ▸ h.sfq
  all_goals rw [ht]
  case ended => exact h.ended
  case ops => exact h.ops
  case lost => exact h.lost
  case pendSf => exact h.pendSf
/-- A join barrier that completes changes no more of an ended thread than its fragment. -/
theorem KilledIn.joinCheck {s : State} {b tl : Nat} (h : KilledIn s b tl) : KilledIn (s.joinCheck b) b tl := by
  obtain ⟨k, hk, hd⟩ := h
  have hset : ∀ j : Block, j.id = b → (s.setBlock j).block b = some j := by
    rintro j rfl
    exact State.block_setBlock_same hk
  unfold State.joinCheck
  simp only [hk]
  refine ⟨_, hset _ (State.block_id hk : k.id = b), hd.refragment ?_ rfl rfl⟩
  rw [Block.thread, lget_zipIdx_map, lget_of_ended hd.ended]
  simp only [Option.map_some, Option.getD_some]
  split
  · split
    next _ hw => cases hd.ended.symm.trans hw
    next => exact ⟨_, _, _, rfl⟩
  · exact ⟨_, _, _, rfl⟩
theorem KilledIn.leaveBar {s : State} {b c tl u : Nat} (h : KilledIn s b tl) (scope bid : Nat) (hu : b ≠ c ∨ tl ≠ u) :
    KilledIn (s.leaveBar c u scope bid) b tl := by
  unfold State.leaveBar
  split
  · exact h
  · refine KilledIn.modThread ?_ _ hu
    split
    · exact h.of_blocks (State.acquireInval_blocks ..)
    · exact h
/-- A phase that completes releases threads that wait; a killed thread does not. -/
theorem KilledIn.releaseBar {s : State} {b tl : Nat} (h : KilledIn s b tl) (v : BarInst) (ph : Nat) : KilledIn (s.releaseBar v ph) b tl := by
  unfold State.releaseBar
  refine foldl_keeps (P := fun t => KilledIn t b tl) (fun t p hp ht => ht.leaveBar _ _ ?_) h
  by_contra e
  obtain ⟨rfl, rfl⟩ : b = p.1 ∧ tl = p.2 := by omega
  have := (List.mem_filter.mp hp).2
  simp [h.ended] at this
theorem KilledIn.barCheck {s : State} {b tl : Nat} (h : KilledIn s b tl) (scope owner inst bid : Nat) :
    KilledIn (s.barCheck scope owner inst bid) b tl := by
  unfold State.barCheck
  dsimp only
  split
  · split
    · split
      · exact h
      · exact h.of_blocks (State.podArrive_blocks ..)
    · exact KilledIn.releaseBar (s := s.setBar _) (h.of_blocks rfl) _ _
  · exact h
theorem KilledIn.barCheckAll {s : State} {b tl : Nat} (h : KilledIn s b tl) (owner podgrp : Nat) : KilledIn (s.barCheckAll owner podgrp) b tl :=
  foldl_keeps (P := fun t => KilledIn t b tl) (fun _ _ _ ht => ht.barCheck ..) h

/-- A thread and its block after KILLF's own part of the end of a thread. -/
def Thread.forgotten (t : Thread) : Thread := { t with lost := 0, inHandler := false }
def Block.forget (tl : Nat) (k : Block) : Block := { k.modThread tl Thread.forgotten with sfq := k.sfq.filter fun r => r.tl != tl }
/-- A thread and its block after the part that a KILLF shares with an EXIT. -/
def Thread.closed (t : Thread) : Thread :=
  { t with status := .ended, ops := [], mark := none, boost := none, boostNew := none, pendSf := none }
def Block.close (tl : Nat) (k : Block) : Block := { k.modThread tl Thread.closed with sbuf := k.sbuf.filter fun e => e.tl != tl }
theorem Block.close_forget_killed {k : Block} {tl : Nat} (ht : tl < k.threads.length) : Killed ((k.forget tl).close tl) tl := by
  have hforget : (k.forget tl).thread tl = (k.thread tl).forgotten := Block.thread_modThread_same k tl _ ht
  have hclose : ((k.forget tl).close tl).thread tl = ((k.forget tl).thread tl).closed :=
    Block.thread_modThread_same (k.forget tl) tl _ (Nat.lt_of_lt_of_eq ht (Block.modThread_length k tl _).symm)
  constructor
  case sbuf => exact fun x hx => by simpa using (List.mem_filter.mp hx).2
  case sfq => exact fun x hx => by simpa using (List.mem_filter.mp hx).2
  all_goals
    rw [hclose, hforget]
    rfl
/-- KILLF's end of a thread discards its stores, its records and its operations. -/
theorem State.killThread_killed {s : State} {b tl : Nat} {k : Block} (hk : s.block b = some k) (ht : tl < k.threads.length) :
    KilledIn (s.killThread b tl) b tl := by
  have hforget : (s.modBlock b (Block.forget tl)).block b = some (k.forget tl) := by
    rw [State.block_modBlock_same s b (Block.forget tl) fun _ => rfl, hk, Option.map_some]
  have hclose : KilledIn ((s.modBlock b (Block.forget tl)).modBlock b (Block.close tl)) b tl := by
    refine ⟨_, ?_, Block.close_forget_killed ht⟩
    rw [State.block_modBlock_same _ b (Block.close tl) fun _ => rfl, hforget, Option.map_some]
  show KilledIn ((s.modBlock b (Block.forget tl)).endThread b tl) b tl
  simp only [State.endThread, hforget]
  refine KilledIn.barCheckAll (KilledIn.joinCheck ?_) _ _
  exact hclose.of_blocks rfl

/-! ### Threads that issue -/

/-- A thread that is alone in its fragment is the one that a KILLF finds. -/
theorem fragment_alone {k : Block} {tl : Nat} (ht : tl < k.threads.length) (ha : (k.thread tl).alive = true)
    (ho : ∀ n t, lget k.threads n = some t → t.alive = true → t.fid = (k.thread tl).fid → n = tl) :
    (k.threads.zipIdx.filter fun p => p.1.alive && p.1.fid == (k.thread tl).fid) = [(k.thread tl, tl)] := by
  have htl : lget k.threads tl = some (k.thread tl) := by
    rw [Block.thread, lget_eq_getElem?, List.getElem?_eq_getElem ht, Option.getD_some]
  rw [← List.filterMap_eq_filter]
  refine filterMap_zipIdx_single (n := tl) (k := 0) htl ?_ fun n t hn hne => ?_
  · simp [Option.guard, ha]
  · have : ¬ (t.alive = true ∧ t.fid = (k.thread tl).fid) := fun h => hne (ho n t hn h.1 h.2)
    simpa [Option.guard] using this
theorem State.killFragment_issuing {s : State} {b tl : Nat} {k : Block} (hk : s.block b = some k) (ht : tl < k.threads.length)
    (hi : (k.thread tl).status = .issuing)
    (ho : ∀ n t, lget k.threads n = some t → t.alive = true → t.fid = (k.thread tl).fid → n = tl) :
    s.killFragment b (k.thread tl).fid = s.modThread b tl fun t => { t with kill := true } := by
  have ha : (k.thread tl).alive = true := by rw [Thread.alive, hi]; rfl
  simp only [State.killFragment, hk, fragment_alone ht ha ho, List.foldl_cons, List.foldl_nil, hi, TStatus.isIssuing, if_true]
theorem endClause_killed {s : State} {g : Group} {p : Nat × Nat} (h : (s.thread g.blk p.2).kill = true) :
    endClause s g [p] = s.killThread g.blk p.2 := by
  simp only [endClause, List.foldl_cons, List.foldl_nil, h, if_true]
theorem State.settleThread_killed {s : State} {b tl : Nat} {k : Block} (hk : s.block b = some k) (hm : (k.thread tl).kill = true)
    (ha : (k.thread tl).alive = true) (hi : (k.thread tl).status ≠ .issuing) : s.settleThread b tl = s.killThread b tl := by
  have hi : (k.thread tl).status.isIssuing = false := Bool.eq_false_iff.mpr (mt TStatus.isIssuing_iff.mp hi)
  simp only [State.settleThread, hk, hm, ha, hi, Bool.not_false, Bool.and_self, if_true]

/-- Settles O25: what each instruction writes, what a KILLF leaves of a thread, and when a marked thread ends. -/
theorem fragments : Obligations.Fragments := by
  refine ⟨frginfo_identity, frginfo_record, frginfo_outside, sfqpop_completes, fun f => ?goesOn, fun f => ?waits, fun s b tl k hk ht => ?killed,
    fun s b tl k hk ht hi ho => State.killFragment_issuing hk ht hi ho, fun s g p h => endClause_killed h,
    fun s b tl k hk hm ha hi => State.settleThread_killed hk hm ha hi⟩
  case goesOn => exact completes_of_issue (exec_killf f) fun e s h => killfLane_goesOn h
  case waits => exact completes_of_issue (exec_killf f) fun e s h => killfLane_waits h
  case killed =>
    obtain ⟨j, hj, ended, ops, lost, pendSf, sbuf, sfq⟩ := State.killThread_killed hk ht
    exact ⟨j, hj, ended, ops, lost, pendSf, sbuf, sfq⟩

end Sys2Proof.Machine
end

section
/-! PROOFS. The instructions of a sequencer's program: its control instructions and its engine commands (spec/10_distributor.md R289, R290,
R292, R294), and the statements about them (O31, O32). -/

namespace Sys2Proof.Machine
open Sys2Proof.Safety

/-! ### How a sequencer's instruction goes on (R290) -/

section
variable {act : State → CoreRef → SeqKind → Sequencer → State × SeqNext} {s u : State} {c : CoreRef} {k : SeqKind} {q : Sequencer}
  (h : Safety.SeqFront s c k)
include h
theorem seqIssue_advance (ha : act s c k (s.sq c k) = (u, .advance q)) (ho : u.opens = s.opens) :
    seqIssue act s = .next (seqGoes u c k q.advance) := by
  obtain ⟨rest, hs⟩ := opens_of_front h
  simp only [seqIssue, hs, ha, seqGoes, ho, List.tail_cons]
theorem seqIssue_jump {pc : DWord} (ha : act s c k (s.sq c k) = (s, .jump q pc)) :
    seqIssue act s = .next { s.setSq c k { q with pc := pc, head := none, words := [], idx := 0 } with opens := s.opens.tail ++ [.seq c k] } := by
  obtain ⟨rest, hs⟩ := opens_of_front h
  simp only [seqIssue, hs, ha, List.tail_cons]
theorem seqIssue_hold (ha : act s c k (s.sq c k) = (s, .hold)) : seqIssue act s = .next { s with opens := s.opens.tail ++ [.seq c k] } := by
  obtain ⟨rest, hs⟩ := opens_of_front h
  simp only [seqIssue, hs, ha, List.tail_cons]
theorem seqIssue_wait (ha : act s c k (s.sq c k) = (s, .wait q)) : seqIssue act s = .next (seqBlocks s c k q) := by
  obtain ⟨rest, hs⟩ := opens_of_front h
  simp only [seqIssue, hs, ha, seqBlocks, List.tail_cons]
theorem seqIssue_stop {cause : Nat} (ha : act s c k (s.sq c k) = (s, .stop cause)) :
    seqIssue act s = .next (s.endProgram c k (s.sq c k) cause) := by
  obtain ⟨rest, hs⟩ := opens_of_front h
  simp only [seqIssue, hs, ha]
end

/-! ### Updates of barrier objects (R294) -/

theorem State.boPut_opens (s : State) (b a : Nat) (o : Bo) (lag : Nat := 0) : (s.boPut b a o lag).opens = s.opens := by
  unfold State.boPut
  split <;> rfl
theorem State.deliver_opens (s : State) (b a bytes : Nat) (arr final : Bool) (eng cause detail : Nat) :
    (s.deliver b a bytes arr final eng cause detail).opens = s.opens := by
  unfold State.deliver
  split
  · rfl
  · dsimp only
    split <;> exact State.boPut_opens ..
theorem State.performLater_opens (s : State) (b : Nat) (act : LaterAct) : (s.performLater b act).opens = s.opens := by
  cases act with
  | program a cause detail => exact State.deliver_opens ..
  | arrive a =>
    simp only [State.performLater]
    split
    · exact State.boPut_opens ..
    · rfl
  | expect a n =>
    simp only [State.performLater]
    split
    · exact State.boPut_opens ..
    · rfl
theorem State.actLater_opens (s : State) (c : CoreRef) (b : Nat) (act : LaterAct) : (s.actLater c b act).opens = s.opens := by
  unfold State.actLater
  split
  · rfl
  · exact State.performLater_opens ..
section
variable {s : State} {b : Block} (hb : s.block b.id = some b)
include hb
theorem State.actLater_block (c : CoreRef) (act : LaterAct) : s.actLater c b.id act =
    if s.blockFixed b then { s with later := s.later ++ [⟨c, (s.quad c).cyc + 6, b.id, act⟩] } else s.performLater b.id act := by
  simp only [State.actLater, hb, Option.map_some, Option.getD_some]
variable {a : Nat} (hv : (b.bo a).v = true) (hp : 0 < (b.bo a).pend)
include hv hp
theorem State.performLater_arrive : s.performLater b.id (.arrive a) = s.boPut b.id a { b.bo a with pend := (b.bo a).pend - 1 } := by
  simp only [State.performLater, hb, Option.map_some, Bo.arrive_good hv hp]
theorem State.performLater_expect {n : Nat} (hn : (b.bo a).tx + n ≤ 2147483647) : s.performLater b.id (.expect a n) =
    s.boPut b.id a { b.bo a with pend := (b.bo a).pend - 1, tx := (b.bo a).tx + n } := by
  simp only [State.performLater, hb, Option.map_some, Bo.expect_good hv hn fun _ => hp, if_true]
end
/-- A program ends with an arrival that bears its first cause (R292). -/
theorem State.endProgram_eq (s : State) (c : CoreRef) (k : SeqKind) (q : Sequencer) (cause : Nat) :
    let first := if q.cause = 0 then cause else q.cause
    let detail := if q.cause = 0 ∧ cause ≠ 0 then s.seqWord q else q.detail
    let u := s.setSq c k { q with
      running := false, draining := true, bowait := none, holdT := none, head := none, words := [], idx := 0, cause := first, detail := detail }
    s.endProgram c k q cause = ({ u with opens := u.opens.filter fun o => o != Open.seq c k }).actLater c q.owner
      (.program q.pbo.toNat first detail.toNat) := by
  by_cases hq : q.cause = 0
  · by_cases hc : cause = 0
    · simp only [State.endProgram, State.seqRecord, hq, hc, beq_self_eq_true, bne_self_eq_false, Bool.and_false, Bool.false_eq_true,
        if_false, if_true, ne_eq, not_true_eq_false, and_false]
    · simp only [State.endProgram, State.seqRecord, hq, hc, beq_self_eq_true, bne_iff_ne, ne_eq, not_false_eq_true, Bool.true_and, if_true,
        and_self]
  · simp only [State.endProgram, State.seqRecord, hq, beq_iff_eq, Bool.and_eq_true, false_and, if_false]

/-! ### The barrier object of a control instruction (R240, R289) -/

theorem goodBo_iff_boAt {n size : Nat} : goodBo n size ↔ boAt n size := by
  unfold goodBo boAt
  omega
/-- What the checks of an object's address find. -/
theorem boCause_nat (n size : Nat) : boCause n size =
    if size < n + 16 then some 0x080 else if n % 16 ≠ 0 then some 0x082 else none := by
  by_cases h : goodBo n size
  · rw [boCause_of_boAt (goodBo_iff_boAt.mp h), if_neg (by have := h.1; omega), if_neg (not_not_intro h.2)]
  · rw [boCause_of_not_boAt (mt goodBo_iff_boAt.mpr h)]
    by_cases hs : size < n + 16
    · rw [if_pos (by omega), if_pos hs]
    · rw [if_neg (by omega), if_neg hs, if_pos fun h0 => h ⟨by omega, h0⟩]
section
variable {s : State} {q : Sequencer} {f : FS} {b : Block} (hb : s.block q.owner = some b)
include hb
theorem State.seqBo_outside (h : b.localSize < q.addr f.br.toNat f.boff.toNat + 16) : s.seqBo q f = .error 0x080 := by
  simp only [State.seqBo, hb, boCause_nat, h, if_true]
theorem State.seqBo_misaligned (h : q.addr f.br.toNat f.boff.toNat + 16 ≤ b.localSize) (ha : q.addr f.br.toNat f.boff.toNat % 16 ≠ 0) :
    s.seqBo q f = .error 0x082 := by
  simp only [State.seqBo, hb, boCause_nat, Nat.not_lt.mpr h, ha, if_false, ne_eq, not_false_eq_true, if_true]
variable (h : goodBo (q.addr f.br.toNat f.boff.toNat) b.localSize)
include h
theorem State.seqBo_good : s.seqBo q f = if (b.bo (q.addr f.br.toNat f.boff.toNat)).v then
    .ok (q.addr f.br.toNat f.boff.toNat, b.bo (q.addr f.br.toNat f.boff.toNat)) else .error 0x101 := by
  simp only [State.seqBo, hb, boCause_of_boAt (goodBo_iff_boAt.mp h)]
  rfl
end

/-! ### The control instructions -/

section
variable {f : FS} {s : State} {c : CoreRef} {k : SeqKind} (h : Safety.SeqFront s c k)
include h
theorem exec_sqnop : exec (.sqnop f) s = .next (seqGoes s c k (s.sq c k).advance) := by
  dsimp only [exec, execSqnop]
  exact seqIssue_advance h rfl rfl
theorem exec_sqend : exec (.sqend f) s = .next (s.endProgram c k (s.sq c k) 0) := by
  dsimp only [exec, execSqend]
  exact seqIssue_stop h rfl
section
variable {n m : BitVec 32} (hn : lget (s.sq c k).n (f.mf 14 2) = some n) (hm : lget (s.sq c k).c (f.mf 14 2) = some m)
include hn hm
theorem exec_sqloop_zero (hz : m = 0 ∧ n = 0) : exec (.sqloop f) s = .next (s.endProgram c k (s.sq c k) 0x312) := by
  obtain ⟨rfl, rfl⟩ := hz
  dsimp only [exec, execSqloop]
  exact seqIssue_stop h (by simp only [hn, hm, Option.getD_some, beq_self_eq_true, Bool.and_self, if_true]; rfl)
theorem exec_sqloop_counts (hz : m ≠ 0 ∨ n ≠ 0) :
    let left := if m = 0 then n - 1 else m - 1
    let q := { s.sq c k with c := lset (s.sq c k).c (f.mf 14 2) left }
    exec (.sqloop f) s = .next (if left ≠ 0 then
        { s.setSq c k { q.stepA (f.mf 6 8) 1 with
            pc := (s.sq c k).hdr - BitVec.ofNat 64 (8 * f.doff.toNat), head := none, words := [], idx := 0 } with
          opens := s.opens.tail ++ [.seq c k] }
      else seqGoes s c k (q.stepA (f.mf 6 8) (-((n.toNat : Int) - 1))).advance) := by
  intro left q
  dsimp only [exec, execSqloop]
  have hz' : (m == 0 && n == 0) = false := by
    simp only [Bool.and_eq_false_iff, beq_eq_false_iff_ne]
    exact hz
  have hl : (if (m == 0) = true then n - 1 else m - 1) = left := by simp only [left, beq_iff_eq]
  by_cases hleft : left = 0
  · rw [if_neg (not_not_intro hleft)]
    refine seqIssue_advance h ?_ rfl
    simp only [hn, hm, Option.getD_some, hz', Bool.false_eq_true, if_false, hl, q, hleft, bne_self_eq_false]
  · rw [if_pos hleft]
    refine seqIssue_jump (q := q.stepA (f.mf 6 8) 1) h ?_
    simp only [hn, hm, Option.getD_some, hz', Bool.false_eq_true, if_false, hl, q, bne_iff_ne, ne_eq, hleft, not_false_eq_true, if_true]
end
theorem exec_sqwaitc :
    let w := (f.boff ++ f.smod).setWidth 64
    let t := if f.doff.getLsbD 0 then (s.sq c k).mark + w else w
    let q := if f.doff.getLsbD 0 then { s.sq c k with mark := t } else s.sq c k
    exec (.sqwaitc f) s = .next (if t.toNat ≤ s.scyc c q then
        seqGoes s c k (if (q.head.map (·.fixed)).getD false then s.seqRecord q 0x314 else q).advance
      else seqBlocks s c k { q with holdT := some t.toNat }) := by
  intro w t q
  dsimp only [exec, execSqwaitc]
  by_cases ht : t.toNat ≤ s.scyc c q
  · rw [if_pos ht]
    exact seqIssue_advance h (if_pos ht) rfl
  · rw [if_neg ht]
    exact seqIssue_wait h (if_neg ht)
theorem exec_sqboarv_error {x : Nat} (hx : s.seqBo (s.sq c k) f = .error x) :
    exec (.sqboarv f) s = .next (s.endProgram c k (s.sq c k) x) := by
  dsimp only [exec, execSqboarv]
  exact seqIssue_stop h (by simp only [hx])
theorem exec_sqbowait_error {x : Nat} (hx : s.seqBo (s.sq c k) f = .error x) :
    exec (.sqbowait f) s = .next (s.endProgram c k (s.sq c k) x) := by
  dsimp only [exec, execSqbowait]
  exact seqIssue_stop h (by simp only [hx])
section
variable {a : Nat} {o : Bo} (ho : s.seqBo (s.sq c k) f = .ok (a, o))
include ho
theorem exec_sqboarv_arrive (hv : o.v = true) (hx : f.smod.getLsbD 0 = false) :
    exec (.sqboarv f) s = .next (if o.pend = 0 then s.endProgram c k (s.sq c k) 0x103
      else seqGoes (s.actLater c (s.sq c k).owner (.arrive a)) c k (s.sq c k).advance) := by
  dsimp only [exec, execSqboarv]
  by_cases hp : o.pend = 0
  · rw [if_pos hp]
    exact seqIssue_stop h (by simp only [ho, hx, Bool.false_eq_true, if_false, Bo.arrive_overrun hv hp])
  · rw [if_neg hp]
    exact seqIssue_advance h (by simp only [ho, hx, Bool.false_eq_true, if_false, Bo.arrive_good hv (Nat.pos_of_ne_zero hp)])
      (State.actLater_opens ..)
theorem exec_sqboarv_expect (hv : o.v = true) (hx : f.smod.getLsbD 0 = true) :
    exec (.sqboarv f) s = .next (if o.pend = 0 ∨ 2147483647 < o.tx + 16 * f.doff.toNat then s.endProgram c k (s.sq c k) 0x102
      else seqGoes (s.actLater c (s.sq c k).owner (.expect a (16 * f.doff.toNat))) c k (s.sq c k).advance) := by
  dsimp only [exec, execSqboarv]
  by_cases hr : o.pend = 0 ∨ 2147483647 < o.tx + 16 * f.doff.toNat
  · rw [if_pos hr]
    have he : o.expect (16 * f.doff.toNat) true = .error 0x102 := Bo.expect_range hv (by push_cast; tauto)
    exact seqIssue_stop h (by simp only [ho, hx, if_true, he])
  · rw [if_neg hr]
    obtain ⟨hp, hn⟩ := not_or.mp hr
    have he := Bo.expect_good (jn := true) hv (n := 16 * f.doff.toNat) (by push_cast; omega) fun _ => Nat.pos_of_ne_zero hp
    exact seqIssue_advance h (by simp only [ho, hx, if_true, he]) (State.actLater_opens ..)
theorem exec_sqbowait_valid : exec (.sqbowait f) s = .next (if o.ph = (s.sq c k).t.getLsbD (f.mf 0 3) then
      seqBlocks s c k { s.sq c k with bowait := some (a, f.mf 0 3), waitFrom := (s.quad c).cyc }
    else seqGoes s c k { s.sq c k with t :=
      if o.ph then (s.sq c k).t ||| 1#8 <<< f.mf 0 3 else (s.sq c k).t &&& ~~~(1#8 <<< f.mf 0 3) }.advance) := by
  dsimp only [exec, execSqbowait]
  by_cases hp : o.ph = (s.sq c k).t.getLsbD (f.mf 0 3)
  · rw [if_pos hp]
    exact seqIssue_wait h (by simp only [ho, hp, bne_self_eq_false, Bool.false_eq_true, if_false])
  · rw [if_neg hp]
    exact seqIssue_advance h (by simp only [ho, bne_iff_ne, ne_eq, hp, not_false_eq_true, if_true]) rfl
end
end

/-- Settles O31: how each control instruction goes on, what its object's checks find, and what the end of a program delivers. -/
theorem sequencerControl : Obligations.SequencerControl := by
  refine ⟨fun f s c k h => exec_sqnop h, fun f s c k h => exec_sqend h, State.endProgram_eq, fun s c b act hb => State.actLater_block hb c act,
    fun s b a n cause detail hb => ⟨rfl, State.performLater_arrive hb, fun hv hp hn => State.performLater_expect hb hv hp hn⟩,
    fun f s c k n m h hn hm => ⟨exec_sqloop_zero h hn hm, exec_sqloop_counts h hn hm⟩, fun f s c k h => exec_sqwaitc h,
    fun s q f b hb => ⟨State.seqBo_outside hb, State.seqBo_misaligned hb, fun h hv => ?invalid, fun h hv => ?valid⟩, ?error,
    fun f s c k a o h ho => exec_sqboarv_arrive h ho, fun f s c k a o h ho => exec_sqboarv_expect h ho,
    fun f s c k a o h ho => exec_sqbowait_valid h ho⟩
  case invalid => rw [State.seqBo_good hb h, hv, if_neg (by decide)]
  case valid => rw [State.seqBo_good hb h, hv, if_pos rfl]
  case error =>
    simp only [List.forall_mem_cons, List.not_mem_nil, false_imp_iff, implies_true, and_true]
    exact ⟨fun f s c k x h => exec_sqboarv_error h, fun f s c k x h => exec_sqbowait_error h⟩

/-! ### The engine commands (R289) -/

theorem acceptCopy_opens (self : Bool) (s : State) (o : EngOp) : (acceptCopy self s o).opens = s.opens := by
  unfold acceptCopy
  split
  · rfl
  · exact (apply_ite State.opens _ _ _).trans (ite_self _)
theorem acceptMat_opens (self : Bool) (s : State) (o : EngOp) : (acceptMat self s o).opens = s.opens := by
  unfold acceptMat
  split
  · rfl
  · dsimp only
    split <;> rfl
/-- The test that the model makes of the engine. -/
theorem ownEngine_iff (s : State) (c : CoreRef) (k : SeqKind) (kind : EngKind) :
    ((kind.unit == 0) != (k == .copy) || (kind.unit == 1 && s.dieMap.isGd c.die)) = false ↔ ownEngine s c k kind := by
  unfold ownEngine
  cases k <;> by_cases h0 : kind.unit = 0 <;> simp [h0]
/-- The test that it makes of the ranges. -/
theorem seqRanges_iff (q : Sequencer) (b : Block) (f : FS) :
    (q.addr f.ar.toNat f.doff.toNat % 16 != 0 || b.outside (q.addr f.ar.toNat f.doff.toNat) 32 ||
      q.addr f.br.toNat f.boff.toNat % 16 != 0 || b.outside (q.addr f.br.toNat f.boff.toNat) 16) = false ↔ seqRanges q b f := by
  simp only [seqRanges, goodBo, Block.outside, Bool.or_eq_false_iff, bne_eq_false_iff_eq, decide_eq_false_iff_not, Nat.not_lt]
  tauto
/-- A sequencer's engine command is accepted, held, or ends the program. -/
theorem seqCommands_of_seqCommand {i : FS → Instr} {kind : EngKind} {accept : Bool → State → EngOp → State}
    (he : ∀ f s, exec (i f) s = seqCommand f kind accept s) (ha : ∀ self s o, (accept self s o).opens = s.opens) :
    SeqCommands i kind accept := by
  intro f s c k b h hb
  simp only [he, seqCommand]
  refine ⟨fun hown hr hfull => seqIssue_advance h ?_ (ha ..), fun hown hr hfull => seqIssue_hold h ?_, fun hown => seqIssue_stop h ?_,
    fun hown hr => seqIssue_stop h ?_⟩
  · simp only [hb, (ownEngine_iff s c k kind).mpr hown, (seqRanges_iff _ b f).mpr hr, hfull, Bool.false_eq_true, if_false, seqOp]
  · simp only [hb, (ownEngine_iff s c k kind).mpr hown, (seqRanges_iff _ b f).mpr hr, hfull, Bool.false_eq_true, if_false, if_true]
  · simp only [hb, (Bool.eq_true_of_not_eq_false (mt (ownEngine_iff s c k kind).mp hown)), if_true]
    rfl
  · simp only [hb, (ownEngine_iff s c k kind).mpr hown, (Bool.eq_true_of_not_eq_false (mt (seqRanges_iff _ b f).mp hr)), Bool.false_eq_true,
      if_false, if_true]
    rfl

/-- Settles O32: the commands differ in their kind and in the engine that accepts them. -/
theorem sequencerCommands : Obligations.SequencerCommands := by
  have copy : ∀ {i : FS → Instr} {kind : EngKind}, (∀ f s, exec (i f) s = seqCommand f kind acceptCopy s) → SeqCommands i kind acceptCopy :=
    fun he => seqCommands_of_seqCommand he acceptCopy_opens
  have matrix : ∀ {i : FS → Instr} {kind : EngKind}, (∀ f s, exec (i f) s = seqCommand f kind acceptMat s) → SeqCommands i kind acceptMat :=
    fun he => seqCommands_of_seqCommand he acceptMat_opens
  exact ⟨copy fun _ _ => rfl, copy fun _ _ => rfl, copy fun _ _ => rfl, copy fun _ _ => rfl, copy fun _ _ => rfl, copy fun _ _ => rfl,
    copy fun _ _ => rfl, matrix fun _ _ => rfl, matrix fun _ _ => rfl, matrix fun _ _ => rfl, matrix fun _ _ => rfl, matrix fun _ _ => rfl,
    matrix fun _ _ => rfl, matrix fun _ _ => rfl, matrix fun _ _ => rfl, matrix fun _ _ => rfl, matrix fun _ _ => rfl⟩

end Sys2Proof.Machine
end

section
/-! PROOFS. FORK and RDV: the checks of their operands, the start record of a sequencer (spec/10_distributor.md R288, R291, R293, R294), and
the statement about them (O27). -/

namespace Sys2Proof.Machine
open Sys2Proof.Safety

/-! ### The barrier object of a FORK (R240) -/

theorem boCause_of_goodBo {n size : Nat} (h : goodBo n size) : boCause n size = none := boCause_of_boAt (goodBo_iff_boAt.mp h)
theorem boCause_of_not_goodBo {n size : Nat} (h : ¬ goodBo n size) :
    boCause n size = some (if size < n + 16 then 0x080 else 0x082) := by
  rw [boCause_nat]
  by_cases hs : size < n + 16
  · rw [if_pos hs, if_pos hs]
  · rw [if_neg hs, if_neg hs, if_pos fun h0 => h ⟨by omega, h0⟩]
/-- The trap on an object of local memory names it by its region and offset (spec/09_core_traps.md R258). -/
theorem memTrap_object {c : Nat} (hc : c < 0x100) (x : Word) :
    memTrap c false 0 (regionPtr 1 x.toNat) = .trap c 0 (1#8 ++ x.setWidth 56) false false := by
  rw [memTrap, if_pos hc, regionPtr, BitVec.ofInt_natCast, BitVec.ofNat_toNat]
  rfl

/-! ### FORK (R291) -/

section
variable (f : FX)
theorem fork_starts : Completes (.fork f) f.pred f.pneg none
    (fun e s => goodBo (e.r f.b).toNat e.k.localSize ∧ e.forkBad s f (forkNames e f) (s.forkTargets e.k f) = 0)
    (fun e s => { ((s.forkTargets e.k f).getD []).foldl (fun u t => (forkNames e f).foldl (fun v p =>
      v.startSeq t.1 p.1 t.2 p.2.1 p.2.2 (e.r f.b).toNat s.nextId) u) s with nextId := s.nextId + 1 }) := by
  refine completes_of_issue (fun _ => rfl) fun e s ⟨ha, hbad⟩ => ?_
  unfold forkNames at hbad ⊢
  simp only [boCause_of_goodBo ha, hbad, bne_self_eq_false, Bool.false_eq_true, if_false]
theorem fork_refused : Completes (.fork f) f.pred f.pneg none
    (fun e s => goodBo (e.r f.b).toNat e.k.localSize ∧ e.forkBad s f (forkNames e f) (s.forkTargets e.k f) ≠ 0)
    (fun e s => (List.replicate ((forkNames e f).length * (if f.md.getLsbD 0 then 2 else 1)) ()).foldl (fun u _ =>
      u.deliver e.k.id (e.r f.b).toNat 0 true true 5 (e.forkBad s f (forkNames e f) (s.forkTargets e.k f)) (e.textWord u).toNat) s) := by
  refine completes_of_issue (fun _ => rfl) fun e s ⟨ha, hbad⟩ => ?_
  unfold forkNames at hbad ⊢
  simp only [boCause_of_goodBo ha, bne_iff_ne.mpr hbad, if_true, List.foldl_const, List.length_range, List.length_replicate]
theorem fork_stops_object : StopsOne (.fork f) f.pred f.pneg none (fun e _ => ¬ goodBo (e.r f.b).toNat e.k.localSize)
    (fun e _ => .trap (if e.k.localSize < (e.r f.b).toNat + 16 then 0x080 else 0x082) 0 (1#8 ++ (e.r f.b).setWidth 56) false false)
    (fun _ s => s) := by
  refine stopsOne_issue (fun e s h => ?_) (fun _ _ _ => precedes_before _ _ _ _) fun _ => rfl
  simp only [boCause_of_not_goodBo h, memTrap_object (c := if e.k.localSize < (e.r f.b).toNat + 16 then 0x080 else 0x082) (by split <;> decide)]

/-! ### RDV (R293) -/

/-- The test that the model makes of a target. -/
theorem rdvTarget_iff (s : State) (k : Block) (t : CoreRef) :
    (t != k.core && !(s.isShading k.core && t == CoreRef.partner k.core)) = false ↔ rdvTarget s k t := by
  simp [rdvTarget, or_iff_not_imp_left]
theorem rdv_completes : Completes (.rdv f) f.pred f.pneg none (fun e s => ∃ t, s.dieMap.target e.k.core f = some t ∧ rdvTarget s e.k t)
    (fun e s =>
      let t := (s.dieMap.target e.k.core f).getD e.k.core
      if s.rdvDone t (f.md.getLsbD 0) (f.md.getLsbD 1) (f.md.getLsbD 2) then s
      else waits e s (.rdv t.die t.num (f.md.getLsbD 0) (f.md.getLsbD 1) (f.md.getLsbD 2))) := by
  refine completes_of_issue (fun _ => rfl) fun e s ⟨t, ht, hr⟩ => ?_
  simp only [ht, (rdvTarget_iff s e.k t).mpr hr, Bool.false_eq_true, if_false, Option.getD_some]
  split <;> rfl
theorem rdv_stops_target : StopsOne (.rdv f) f.pred f.pneg none
    (fun e s => ∀ t, s.dieMap.target e.k.core f = some t → ¬ rdvTarget s e.k t) (fun _ _ => .trap 0x311 0 0 false false) (fun _ s => s) := by
  refine stopsOne_issue (fun e s h => ?_) (fun _ _ _ => precedes_before _ _ _ _) fun _ => rfl
  cases ht : s.dieMap.target e.k.core f with
  | none =>
    simp only [ht]
    rfl
  | some t =>
    simp only [ht, Bool.eq_true_of_not_eq_false (mt (rdvTarget_iff s e.k t).mp (h t ht)), if_true]
    rfl
end

/-! ### The start record of a sequencer (R288, R294) -/

/-- Bytes of a little-endian value are the value of those bytes. -/
theorem mread_part (m : Mem) (a : Nat) {j w n : Nat} (h : j + w ≤ n) : mread m a n / 2 ^ (8 * j) % 2 ^ (8 * w) = mread m (a + j) w := by
  induction n generalizing a j w with
  | zero =>
    obtain ⟨rfl, rfl⟩ : j = 0 ∧ w = 0 := by omega
    exact Nat.mod_one _
  | succ n ih =>
    have hlt := (mget m a).isLt
    cases j with
    | succ j =>
      rw [mread_succ, show 8 * (j + 1) = 8 + 8 * j by omega, pow_add, ← Nat.div_div_eq_div_mul,
        show ((mget m a).toNat + 256 * mread m (a + 1) n) / 2 ^ 8 = mread m (a + 1) n by omega, ih (a + 1) (by omega),
        show a + 1 + j = a + (j + 1) by omega]
    | zero =>
      cases w with
      | zero => rw [Nat.mul_zero, pow_zero, Nat.mod_one]; rfl
      | succ w =>
        have hw := ih (a + 1) (j := 0) (w := w) (by omega)
        rw [Nat.mul_zero, pow_zero, Nat.div_one, Nat.add_zero] at hw
        rw [Nat.mul_zero, pow_zero, Nat.div_one, mread_succ, mread_succ, show 8 * (w + 1) = 8 + 8 * w by omega, pow_add,
          Nat.mod_mul, show ((mget m a).toNat + 256 * mread m (a + 1) n) % 2 ^ 8 = (mget m a).toNat by omega,
          show ((mget m a).toNat + 256 * mread m (a + 1) n) / 2 ^ 8 = mread m (a + 1) n by omega, hw]
        rfl
/-- The i-th register of k bytes of a start record, from its word `first` on. -/
theorem startRecord_part (m : Mem) (r first i : Nat) {k : Nat} (h0 : 0 < k) (hk : i * k % 8 + k ≤ 8) :
    bits (mread m (r + 8 * (first + i * (8 * k) / 64)) 8) (i * (8 * k) % 64 + 8 * k - 1) (i * (8 * k) % 64) =
      mread m (r + 8 * first + k * i) k := by
  have hi : i * (8 * k) = 8 * (i * k) := by ring
  have hdiv : i * (8 * k) / 64 = i * k / 8 := by rw [hi]; exact Nat.mul_div_mul_left (i * k) 8 (by decide)
  have hmod : i * (8 * k) % 64 = 8 * (i * k % 8) := by rw [hi]; exact Nat.mul_mod_mul_left 8 (i * k) 8
  rw [hdiv, hmod, bits, show 8 * (i * k % 8) + 8 * k - 1 - 8 * (i * k % 8) + 1 = 8 * k by omega, mread_part _ _ hk]
  congr 1
  rw [Nat.mul_comm k i]
  omega
theorem lget_range_map {α β : Type} (g : α → β) (f : Nat → α) {i n : Nat} (h : i < n) :
    lget (((List.range n).map f).map g) i = some (g (f i)) := by
  rw [lget_eq_getElem?, List.map_map, List.getElem?_map, List.getElem?_range h]
  rfl
theorem State.sq_setSq (s : State) (c : CoreRef) (k : SeqKind) (q : Sequencer) : (s.setSq c k q).sq c k = q := by
  cases k <;> simp only [State.sq, State.setSq, State.core_setCore, if_true]

/-- Settles O27: FORK by its object and its checks, RDV by its target, and the registers of a started sequencer. -/
theorem forkAndRdv : Obligations.ForkAndRdv := by
  refine ⟨fork_starts, fork_refused, fork_stops_object, rdv_completes, rdv_stops_target, fun s c kind owner b entry r p id hb => ?_⟩
  unfold State.startSeq
  simp only [hb, State.sq_setSq]
  refine ⟨trivial, trivial, trivial, trivial, rfl, trivial, ?base, fun i hi => ?a, fun i hi => ?st, fun i hi => ?n⟩
  case base => cases s.blockFixed b <;> simp
  case a =>
    rw [lget_range_map _ _ hi]
    exact congrArg (some ∘ BitVec.ofNat 32) (startRecord_part b.lmem r 0 i (k := 4) (by decide) (by omega))
  case st =>
    rw [lget_range_map _ _ hi]
    exact congrArg (some ∘ BitVec.ofNat 16) (startRecord_part b.lmem r 4 i (k := 2) (by decide) (by omega))
  case n =>
    rw [lget_range_map _ _ hi]
    exact congrArg (some ∘ BitVec.ofNat 32) (startRecord_part b.lmem r 6 i (k := 4) (by decide) (by omega))

end Sys2Proof.Machine
end

section
/-! PROOFS. LAUNCH, the checks of a launch and its start (spec/10_distributor.md R279 to R282; spec/22_host.md R523), and the statement about
them (O45). -/

namespace Sys2Proof.Machine
open Sys2Proof.Safety

/-! ### LAUNCH (R282) -/

/-- The bytes of the patch that a record names, as LAUNCH reads their number (R276). -/
theorem patchBytes_eq (bs : List Byte) : bits (leVal bs) (64 * 14 + 63) (64 * 14 + 48) = patchBytes bs := rfl
theorem Env.readSpan_space (e : Env) (s : State) (a : DWord) (n : Nat) (h : a.toNat / 2 ^ 56 = 1 ∨ a.toNat / 2 ^ 56 = 2) :
    e.readSpan s a n = (.error (.trap 0x081 0 a false false), s) := by
  have hr : ∀ n, e.readRecord s a n 1 = (.error (.trap 0x081 0 a false false), s) := by
    intro n
    have hb : bits a.toNat 63 56 = a.toNat / 2 ^ 56 := Nat.mod_eq_of_lt (by have := a.isLt; omega)
    simp only [Env.readRecord, hb]
    rw [if_pos (by simpa using h)]
    rfl
  simp only [Env.readSpan, hr, ite_self]
/-- A result whose first part is known, with the state after it. -/
theorem exists_snd {α β : Type} {r : α × β} {a : α} (h : r.1 = a) : ∃ b, r = (a, b) := ⟨r.2, Prod.ext h rfl⟩
theorem Env.readRecord_error_precedes {e : Env} {s : State} {p : DWord} {n al : Nat} {st : Stop} {u : State}
    (h : e.readRecord s p n al = (.error st, u)) : st.Precedes := Env.readRecord_precedes (congrArg Prod.fst h)
theorem Env.readSpan_precedes {e : Env} {s : State} {p : DWord} {n : Nat} {st : Stop} (h : (e.readSpan s p n).1 = .error st) :
    st.Precedes := by
  unfold Env.readSpan at h
  dsimp only at h
  split at h
  · exact Env.readRecord_precedes h
  · split at h
    case h_1 st' u h1 =>
      obtain rfl : st' = st := Except.error.inj h
      exact Env.readRecord_error_precedes h1
    case h_2 bs u _ =>
      split at h
      case h_1 st' u h2 =>
        obtain rfl : st' = st := Except.error.inj h
        exact Env.readRecord_error_precedes h2
      case h_2 => cases h
section
variable (f : FA)
theorem launch_completes (hm : f.md.getLsbD 0 = false) : Completes (.launch f) f.pred f.pneg (some f.sbs.toNat)
    (fun e s => ∃ bs, (e.readSpan s (e.r64 f.a) 128).1 = .ok bs)
    (fun e s => let r := e.readSpan s (e.r64 f.a) 128
      submits e r.2 f (readOf r.1) none) := by
  refine completes_of_issue (fun _ => rfl) fun e s ⟨bs, h⟩ => ?_
  obtain ⟨u, hu⟩ := exists_snd h
  simp only [hu, hm, Bool.false_eq_true, if_false]
  rfl
theorem launch_replays (hm : f.md.getLsbD 0 = true) : Completes (.launch f) f.pred f.pneg (some f.sbs.toNat)
    (fun e s => ∃ bs ps, (e.readSpan s (e.r64 f.a) 128).1 = .ok bs ∧ (patchBytes bs ≠ 0 →
      (e.readSpan (e.readSpan s (e.r64 f.a) 128).2 (e.r64 f.c) (patchBytes bs)).1 = .ok ps))
    (fun e s => let r := e.readSpan s (e.r64 f.a) 128
      let n := patchBytes (readOf r.1)
      if n = 0 then submits e r.2 f (readOf r.1) (some [])
      else let p := e.readSpan r.2 (e.r64 f.c) n
        submits e p.2 f (readOf r.1) (some (readOf p.1))) := by
  refine completes_of_issue (fun _ => rfl) fun e s ⟨bs, ps, h, hp⟩ => ?_
  obtain ⟨u, hu⟩ := exists_snd h
  simp only [hu] at hp
  simp only [hu, hm, if_true, patchBytes_eq, readOf]
  by_cases hn : patchBytes bs = 0
  · simp only [hn, beq_self_eq_true, if_true]
    rfl
  · obtain ⟨v, hv⟩ := exists_snd (hp hn)
    simp only [hv, beq_eq_false_iff_ne.mpr hn, hn, Bool.false_eq_true, if_false]
    rfl
theorem launch_stops_record : StopsOne (.launch f) f.pred f.pneg (some f.sbs.toNat)
    (fun e s => ∃ st, (e.readSpan s (e.r64 f.a) 128).1 = .error st)
    (fun e s => errOf (e.readSpan s (e.r64 f.a) 128).1) (fun e s => (e.readSpan s (e.r64 f.a) 128).2) := by
  refine stopsOne_issue (fun e s ⟨st, h⟩ => ?_) (fun e s ⟨st, h⟩ => ?_) fun _ => rfl
  · obtain ⟨u, hu⟩ := exists_snd h
    simp only [hu, errOf]
  · simp only [h]
    exact Env.readSpan_precedes h
theorem launch_stops_patch (hm : f.md.getLsbD 0 = true) : StopsOne (.launch f) f.pred f.pneg (some f.sbs.toNat)
    (fun e s => ∃ bs st, (e.readSpan s (e.r64 f.a) 128).1 = .ok bs ∧ patchBytes bs ≠ 0 ∧
      (e.readSpan (e.readSpan s (e.r64 f.a) 128).2 (e.r64 f.c) (patchBytes bs)).1 = .error st)
    (fun e s => let r := e.readSpan s (e.r64 f.a) 128
      errOf (e.readSpan r.2 (e.r64 f.c) (patchBytes (readOf r.1))).1)
    (fun e s => let r := e.readSpan s (e.r64 f.a) 128
      (e.readSpan r.2 (e.r64 f.c) (patchBytes (readOf r.1))).2) := by
  refine stopsOne_issue (fun e s ⟨bs, st, h, hn, hp⟩ => ?_) (fun e s ⟨bs, st, h, hn, hp⟩ => ?_) fun _ => rfl
  · obtain ⟨u, hu⟩ := exists_snd h
    simp only [hu] at hp
    obtain ⟨v, hv⟩ := exists_snd hp
    simp only [hu, hm, if_true, patchBytes_eq, readOf, beq_eq_false_iff_ne.mpr hn, Bool.false_eq_true, if_false, hv, errOf]
  · simp only [h, readOf, hp]
    exact Env.readSpan_precedes hp
end

/-! ### Submission (R279) -/

section
variable {e : Env} {s : State} {q : Nat} (bs : List Byte) (p : Option (List Byte)) (a : DWord)
theorem Env.submit_noQueue (hq : 64 ≤ q) : e.submit s q bs p a = (0xFFFFFFFE, s) := if_pos hq
theorem Env.submit_full (hq : q < 64) (h : 256 ≤ (s.queue e.k.ctx q).entries.length) : e.submit s q bs p a = (0xFFFFFFFF, s) := by
  rw [Env.submit, if_neg (Nat.not_le.mpr hq), if_pos h]
/-- The queue that takes a submission: its next number, and the entry at its end. -/
theorem Env.submit_queues {c : Ctx} (hq : q < 64) (hc : s.ctx e.k.ctx = some c) (h : (s.queue e.k.ctx q).entries.length < 256) :
    (e.submit s q bs p a).1 = (s.queue e.k.ctx q).next ∧
    (e.submit s q bs p a).2.queue e.k.ctx q = { s.queue e.k.ctx q with
      next := nextSub (s.queue e.k.ctx q).next
      entries := (s.queue e.k.ctx q).entries ++ [⟨s.nextId, (s.queue e.k.ctx q).next, leVal bs, p, p.isSome, true, a, false⟩]
      ended := tdel (s.queue e.k.ctx q).ended (s.queue e.k.ctx q).next.toNat } := by
  rw [Env.submit, if_neg (Nat.not_le.mpr hq), if_neg (Nat.not_le.mpr h)]
  exact ⟨rfl, State.queue_setQueue (s := { s with nextId := s.nextId + 1 }) hc⟩
end
theorem nextSub_eq (n : BitVec 32) : nextSub n = if n = 0xFFFFFFEF then 0 else n + 1 := by simp only [nextSub, beq_iff_eq]

/-! ### LAUNCH_HEAD (R279, R280) -/

theorem execLaunchHead_takes {s : State} {c q : Nat} {x : Ctx} {e : Submission} (hx : (triedAgain s c q).ctx c = some x)
    (he : ((triedAgain s c q).queue c q).entries.head? = some e) (hf : (triedAgain s c q).headFirst c q = true) :
    exec (.launchHead c q) s = .next ((triedAgain s c q).takeHead c q e (protOf x q) x.priomax) := by
  obtain ⟨r, hr⟩ := List.head?_eq_some_iff.mp he
  show execLaunchHead c q s = _
  unfold triedAgain at *
  simp only [execLaunchHead, hx, hr, hf, if_true]
  rfl
theorem execLaunchHead_waits {s : State} {c q : Nat} (h : (triedAgain s c q).ctx c = none ∨ ((triedAgain s c q).queue c q).entries = [] ∨
    (triedAgain s c q).headFirst c q = false) : exec (.launchHead c q) s = .next (triedAgain s c q) := by
  show execLaunchHead c q s = _
  unfold triedAgain at *
  dsimp only [execLaunchHead]
  split
  case h_1 x e r hx hr =>
    obtain h | h | h := h
    · rw [hx] at h
      cases h
    · rw [hr] at h
      cases h
    · rw [h, if_neg (by decide)]
  case h_2 => rfl
/-- The head that goes first is ready, and no contender goes before it (R279). -/
theorem State.headFirst_iff (s : State) (c q : Nat) : s.headFirst c q = true ↔ ∃ p n, s.headReady c q = some (p, n) ∧
    ∀ y ∈ s.contenders, y.1 < p ∨ (y.1 = p ∧ n ≤ y.2) := by
  unfold State.headFirst State.goesFirst
  cases s.headReady c q with
  | none => simp
  | some r => simp [Prod.ext_iff, List.all_eq_true]
section
variable {s : State} {c q pm : Nat} {e : Submission} {prot : Bool}
theorem State.takeHead_badRecord {i : Nat} (h : launchBad e ⟨e.record⟩ ((taken s c q e prot).dirEntries c (LRec.image ⟨e.record⟩)) = some i) :
    s.takeHead c q e prot pm = (taken s c q e prot).refuse s.nextId 0x300 i := by
  unfold taken at *
  simp only [State.takeHead, State.recordBad, h]
  rfl
variable (h : launchBad e ⟨e.record⟩ ((taken s c q e prot).dirEntries c (LRec.image ⟨e.record⟩)) = none)
include h
theorem State.takeHead_badPriority (hp : pm < LRec.prio ⟨e.record⟩) :
    s.takeHead c q e prot pm = (taken s c q e prot).refuse s.nextId 0x308 0 := by
  unfold taken at *
  simp only [State.takeHead, State.recordBad, h, hp, if_true]
  rfl
variable (hp : LRec.prio ⟨e.record⟩ ≤ pm)
include hp
theorem State.takeHead_badDependence (hd : (taken s c q e prot).depOf c ⟨e.record⟩ = .fail) :
    s.takeHead c q e prot pm = (taken s c q e prot).refuse s.nextId 0x307 0 := by
  unfold taken at *
  simp only [State.takeHead, State.recordBad, h, Nat.not_lt.mpr hp, if_false, hd, beq_self_eq_true, if_true]
  rfl
variable (hd : (taken s c q e prot).depOf c ⟨e.record⟩ ≠ .fail)
include hd
theorem State.takeHead_badImage {x : Nat} (hl : Safety.loads (taken s c q e prot) c ⟨e.record⟩ = .error x) :
    s.takeHead c q e prot pm = (taken s c q e prot).refuse s.nextId 0x305 x := by
  unfold Safety.loads runsOf taken at *
  simp only [State.takeHead, State.recordBad, h, Nat.not_lt.mpr hp, if_false, beq_eq_false_iff_ne.mpr hd, Bool.false_eq_true, hl]
  rfl
theorem State.takeHead_badPlace {ld : Loaded} (hl : Safety.loads (taken s c q e prot) c ⟨e.record⟩ = .ok ld)
    (hc : (taken s c q e prot).placeCause ⟨e.record⟩ ld (runsOf (taken s c q e prot) c ⟨e.record⟩).1 ≠ 0) :
    s.takeHead c q e prot pm = (taken s c q e prot).refuse s.nextId
      ((taken s c q e prot).placeCause ⟨e.record⟩ ld (runsOf (taken s c q e prot) c ⟨e.record⟩).1) 0 := by
  unfold Safety.loads runsOf taken at *
  simp only [State.takeHead, State.recordBad, h, Nat.not_lt.mpr hp, if_false, beq_eq_false_iff_ne.mpr hd, Bool.false_eq_true, hl,
    bne_iff_ne.mpr hc, if_true]
end
/-- Faults of the record's first word come first (R280). -/
theorem launchBad_zero (e : Submission) (r : LRec) (ds : Option (List DirEnt)) (h : e.recAddr.toNat % 128 ≠ 0 ∨ r.w 0 / 2 ^ 48 % 32 ≠ 0 ∨
    r.w 0 % 256 ≠ 0 ∨ r.rows = 0 ∨ r.cols = 0 ∨ 2 ≤ r.kind ∨ 8 < r.argn) : launchBad e r ds = some 0 := by
  have h52 : bits (r.w 0) 52 48 = r.w 0 / 2 ^ 48 % 32 := rfl
  have h7 : bits (r.w 0) 7 0 = r.w 0 % 256 := by rw [bits, pow_zero, Nat.div_one]; rfl
  unfold launchBad
  dsimp only
  rw [List.zipIdx_cons, List.find?_cons_of_pos]
  · rfl
  · simp only [h52, h7, Bool.or_eq_true, bne_iff_ne, beq_iff_eq, decide_eq_true_eq]
    tauto

/-! ### The lease step and the start (R281) -/

theorem State.refuse_launch {s : State} {l : Nat} {x : Launch} (cause detail : Nat) (h : s.launch l = some x) :
    (s.refuse l cause detail).launch l = some { x with cause := cause, outState := 2, detail := detail, state := .ended } :=
  State.launch_modLaunch_same (f := fun x => { x with cause := cause, outState := 2, detail := detail, state := .ended }) h fun _ => rfl
section
variable {s : State} {l : Launch} (hr : l.state = .resident) (ha : l.awaits = none)
include hr ha
section
variable {b n i : Nat} (hm : s.firstMissing l = some (b, n, i))
include hm
theorem State.startLaunch_noRing (hc : ∀ c, s.ctx l.ctx = some c → c.rring = 0) : s.startLaunch l = s.refuse l.id 0x306 i := by
  simp only [State.startLaunch, hr, ha, hm, bne_self_eq_false, Option.isSome_none, Bool.or_self, Bool.false_eq_true, if_false, State.askRes]
  split
  case h_1 => rfl
  case h_2 c h =>
    rw [if_pos (beq_iff_eq.mpr (hc c h))]
    rfl
theorem State.startLaunch_asks {c : Ctx} (h : s.ctx l.ctx = some c) (hc : c.rring ≠ 0) : s.startLaunch l =
    (s.modLaunch l.id fun x => { x with awaits := some (b, n) }).requestRes l.ctx ⟨none, b, n, l.queue, l.sub, i⟩ := by
  simp only [State.startLaunch, hr, ha, hm, bne_self_eq_false, Option.isSome_none, Bool.or_self, Bool.false_eq_true, if_false, State.askRes,
    h, beq_eq_false_iff_ne.mpr hc]
end
variable (hm : s.firstMissing l = none)
include hm
theorem State.startLaunch_waits (h : s.mustWait l = true ∨ s.goesFirst l.prio.toNat l.seq = false) : s.startLaunch l = s := by
  simp only [State.startLaunch, hr, ha, hm, bne_self_eq_false, Option.isSome_none, Bool.or_self, Bool.false_eq_true, if_false]
  exact if_pos (by simpa using h)
variable (hw : s.mustWait l = false) (hg : s.goesFirst l.prio.toNat l.seq = true)
include hw hg
theorem State.startLaunch_routeLost (h : s.routeLost l = true) : s.startLaunch l = s.refuse l.id 0x303 0 := by
  simp only [State.startLaunch, hr, ha, hm, hw, hg, h, bne_self_eq_false, Option.isSome_none, Bool.or_self, Bool.not_true, Bool.false_eq_true,
    if_false, if_true]
  rfl
theorem State.startLaunch_unbound {i : Nat} {u : State} (h : s.routeLost l = false) (hb : s.bindVcs l l.bindings = (some i, u)) :
    s.startLaunch l = u.refuse l.id 0x093 i := by
  simp only [State.startLaunch, hr, ha, hm, hw, hg, h, hb, bne_self_eq_false, Option.isSome_none, Bool.or_self, Bool.not_true,
    Bool.false_eq_true, if_false]
  rfl
end
/-- The launch as its start leaves it, but for what it pins and draws. -/
def Launch.begun (l x : Launch) (cores : List CoreRef) (ns : Nat) : Launch :=
  { x with
    state := .running
    started := ns
    coreStage := if l.stageK.length == 0 then [] else cores.zipIdx.foldl (fun t p => tput t (coreKey p.1) (p.2 % l.stageK.length + 1)) []
    stages := if l.stageK.length == 0 then [] else (l.stageK.zipIdx.filter fun p => p.2 != 0).map fun p =>
      (p.2 + 1, List.replicate ((((lget l.kernels p.1).map (·.queues)).getD []).map (·.1)).sum ({} : StageSlot)) }
theorem State.startLaunch_starts {s u : State} {l : Launch} (h : Startable s l u) : s.startLaunch l =
    ((u.modLaunch l.id fun x => l.begun x (u.rectOf l) u.clock.ns).pinLeases l).startDraw l := by
  obtain ⟨hr, ha, hm, hw, hg, hl, hb⟩ := h
  simp only [State.startLaunch, hr, ha, hm, hw, hg, hl, hb, bne_self_eq_false, Option.isSome_none, Bool.or_self, Bool.not_true,
    Bool.false_eq_true, if_false]
  rfl
theorem State.startLaunch_plain {s u : State} {l : Launch} (h : Startable s l u) (hk : l.stageK = []) : s.startLaunch l =
    (u.modLaunch l.id fun x => { x with state := .running, started := u.clock.ns, coreStage := [], stages := [] }).pinLeases l := by
  rw [State.startLaunch_starts h]
  simp only [State.startDraw, Launch.begun, hk, List.isEmpty_nil, Bool.or_true, if_true, List.length_nil, beq_self_eq_true]
/-- A launch of number n runs, and began at a time. -/
def State.RunsFrom (s : State) (n ns : Nat) : Prop := ∃ y, s.launch n = some y ∧ y.state = .running ∧ y.started = ns
theorem State.RunsFrom.modLaunch {s : State} {n ns : Nat} (h : s.RunsFrom n ns) (f : Launch → Launch)
    (hf : ∀ x, (f x).id = x.id ∧ (f x).state = x.state ∧ (f x).started = x.started) : (s.modLaunch n f).RunsFrom n ns := by
  obtain ⟨y, hy, hr, hs⟩ := h
  obtain ⟨_, hfr, hfs⟩ := hf y
  exact ⟨f y, State.launch_modLaunch_same hy fun x => (hf x).1, hfr.trans hr, hfs.trans hs⟩
theorem State.RunsFrom.of_launches {s t : State} {n ns : Nat} (h : s.RunsFrom n ns) (ht : t.launches = s.launches) : t.RunsFrom n ns := by
  unfold State.RunsFrom State.launch at *
  rwa [ht]
theorem State.modCtx_launches (s : State) (c : Nat) (f : Ctx → Ctx) : (s.modCtx c f).launches = s.launches := by
  unfold State.modCtx
  split <;> rfl
theorem State.RunsFrom.pinLeases {s : State} {ns : Nat} (l : Launch) (h : s.RunsFrom l.id ns) : (s.pinLeases l).RunsFrom l.id ns := by
  unfold State.pinLeases
  dsimp only
  refine foldl_keeps (P := fun t => t.RunsFrom l.id ns) ?_ (h.modLaunch _ ?_)
  · exact fun t d _ ht => ht.of_launches rfl
  · exact fun _ => ⟨rfl, rfl, rfl⟩
theorem State.RunsFrom.startDraw {s : State} {ns : Nat} (l : Launch) (h : s.RunsFrom l.id ns) : (s.startDraw l).RunsFrom l.id ns := by
  unfold State.startDraw
  split
  · exact h
  · dsimp only
    split
    · refine State.RunsFrom.of_launches (h.modLaunch _ ?_) (State.modCtx_launches _ _ _)
      exact fun _ => ⟨rfl, rfl, rfl⟩
    · refine h.modLaunch _ ?_
      exact fun _ => ⟨rfl, rfl, rfl⟩
theorem State.startLaunch_runs {s u : State} {l x : Launch} (h : Startable s l u) (hx : u.launch l.id = some x) :
    (s.startLaunch l).RunsFrom l.id u.clock.ns := by
  rw [State.startLaunch_starts h]
  refine State.RunsFrom.startDraw l (State.RunsFrom.pinLeases l ⟨l.begun x (u.rectOf l) u.clock.ns, ?_, rfl, rfl⟩)
  exact State.launch_modLaunch_same hx fun _ => rfl

/-! ### Rings (R523) -/

theorem execTailReread_bound {s : State} {c q d h t : Nat} (hr : (s.queue c q).ring = some (d, h, t)) :
    exec (.tailReread c q) s = .next (s.setQueue c q { s.queue c q with ring := some (d, h, mread s.mem (d + 128) 4) }) := by
  show execTailReread c q s = _
  simp only [execTailReread, State.readTail, hr]
theorem execTailReread_unbound {s : State} {c q : Nat} (hr : (s.queue c q).ring = none) : exec (.tailReread c q) s = .next s := by
  show execTailReread c q s = _
  simp only [execTailReread, State.readTail, hr]

/-- Settles O45: LAUNCH by what it reads, a submission by its queue, the head by its first failing check, and the start by what it waits
for. -/
theorem launchesAreChecked : Obligations.LaunchesAreChecked := by
  refine ⟨launch_completes, launch_replays, launch_stops_record, launch_stops_patch, Env.readSpan_space,
    fun e s q bs p a => Env.submit_noQueue bs p a, fun e s q bs p a => Env.submit_full bs p a, fun e s q bs p a c hq hc h => ?submit,
    fun s c q => ⟨fun x e => execLaunchHead_takes, execLaunchHead_waits⟩, State.headFirst_iff, fun s c q pm e prot =>
      ⟨fun i => State.takeHead_badRecord, State.takeHead_badPriority, State.takeHead_badDependence,
        fun h hp hd => ⟨fun x => State.takeHead_badImage h hp hd, fun ld => State.takeHead_badPlace h hp hd⟩⟩,
    launchBad_zero, fun s l x cause detail => State.refuse_launch cause detail, fun s l hr ha =>
      ⟨fun b n i => State.startLaunch_noRing hr ha, fun b n i c hm h hc => State.startLaunch_asks hr ha hm h hc, State.startLaunch_waits hr ha,
        fun hm hw hg => ⟨State.startLaunch_routeLost hr ha hm hw hg, fun i u => State.startLaunch_unbound hr ha hm hw hg⟩⟩,
    fun s u l => State.startLaunch_plain, fun s u l x => State.startLaunch_runs, fun s c q =>
      ⟨fun d h t => execTailReread_bound, execTailReread_unbound⟩⟩
  case submit =>
    obtain ⟨hn, hr⟩ := Env.submit_queues bs p a hq hc h
    dsimp only
    rw [hn, hr]
    refine ⟨rfl, nextSub_eq _, ⟨_, rfl, rfl, rfl, rfl, rfl⟩, tget_tdel_same _ _, ?_⟩
    exact Env.submit_mem ..

end Sys2Proof.Machine
end

section
/-! PROOFS. Blocks drained, saved, restored and begun again, and the clock of a quad (spec/10_distributor.md R295, R296, R298, R300;
spec/12_matrix.md R348; spec/20_reliability.md R494), and the statement about them (O47). -/

namespace Sys2Proof.Machine
open Sys2Proof.Safety

/-! ### The drain of a core (R296) -/

/-- A core and its partner have keys of their own. -/
theorem coreKey_partner (c : CoreRef) : coreKey (CoreRef.partner c) ≠ coreKey c := by
  unfold CoreRef.partner coreKey
  dsimp only
  split <;> rename_i h <;> rw [beq_iff_eq] at h <;> omega
/-- A core as the drain of launch l leaves it. -/
def Core.drained (k : Core) (l ns : Nat) : Core := { k with drain := 1, drainLaunch := l, drainFrom := ns, drainAge := none }
/-- The victim has a block on the core, and no launch with blocks there has a lower priority (R296). -/
theorem State.victim_spec {s : State} {c : CoreRef} {l : Nat} (h : s.victim c = some l) : ∃ x, s.launch l = some x ∧
    (∃ k ∈ s.onCore c, k.launch = l) ∧ ∀ k ∈ s.onCore c, ∀ y, s.launch k.launch = some y → x.prio.toNat ≤ y.prio.toNat := by
  unfold State.victim at h
  obtain ⟨a, ha, rfl⟩ := Option.map_eq_some_iff.mp h
  have hmem := List.mem_of_find?_eq_some ha
  have hleast := List.all_eq_true.mp (List.find?_some (p := fun a : Nat × Nat =>
    ((s.onCore c).filterMap fun k => (s.launch k.launch).map fun l => (l.prio.toNat, l.id)).all fun b => a.1 ≤ b.1) ha)
  obtain ⟨k, hk, hka⟩ := List.mem_filterMap.mp hmem
  obtain ⟨x, hx, rfl⟩ := Option.map_eq_some_iff.mp hka
  have hid := State.launch_id hx
  refine ⟨x, hid ▸ hx, ⟨k, hk, hid.symm⟩, fun j hj y hy => ?_⟩
  exact of_decide_eq_true (hleast (y.prio.toNat, y.id) (List.mem_filterMap.mpr ⟨j, hj, by rw [hy]; rfl⟩))
section
variable {s : State} {c : CoreRef} {l : Nat}
theorem State.preempt_none (h : s.victim c = none) : s.preempt c = s := by simp only [State.preempt, h]
/-- The blocks of launch l on the cores that are saved together. -/
def State.drainedBlocks (s : State) (c : CoreRef) (l : Nat) : List Block :=
  ((s.saveCores c).map fun x => (s.onCore x).filter fun k => k.launch == l).flatten
theorem State.mem_saveCores (s : State) (c : CoreRef) : c ∈ s.saveCores c := by
  unfold State.saveCores
  split <;> exact List.mem_cons_self
theorem State.drainedBlocks_ne_nil (h : s.victim c = some l) : s.drainedBlocks c l ≠ [] := by
  obtain ⟨x, _, ⟨k, hk, hkl⟩, _⟩ := State.victim_spec h
  refine List.ne_nil_of_mem (a := k) (List.mem_flatten.mpr ⟨_, List.mem_map_of_mem (State.mem_saveCores s c), ?_⟩)
  exact List.mem_filter.mpr ⟨hk, beq_iff_eq.mpr hkl⟩
/-- The drain begins, or nothing changes, by the drains in progress and the room of the save area. -/
theorem State.preempt_victim (h : s.victim c = some l) : s.preempt c =
    if (∃ x ∈ s.saveCores c, (s.core x).drain ≠ 0) ∨
      s.saveRoom (((s.launch l).map (·.ctx)).getD 0) < ((s.drainedBlocks c l).map fun k => s.saveNeed k).sum then s
    else (s.saveCores c).foldl (fun s x => s.setCore x ((s.core x).drained l s.clock.ns)) s := by
  have hne := State.drainedBlocks_ne_nil h
  unfold State.drainedBlocks at *
  simp only [State.preempt, h, State.drainFor, Option.all_none, Bool.and_true, List.isEmpty_iff, Bool.or_eq_true, hne, false_or,
    List.any_eq_true, bne_iff_ne, decide_eq_true_eq]
  rfl
theorem drains_blocks (cs : List CoreRef) : (cs.foldl (fun s x => s.setCore x ((s.core x).drained l s.clock.ns)) s).blocks = s.blocks := by
  refine foldl_keeps (P := fun t => t.blocks = s.blocks) ?_ rfl
  exact fun _ _ _ h => h
theorem drains_mem (cs : List CoreRef) : (cs.foldl (fun s x => s.setCore x ((s.core x).drained l s.clock.ns)) s).mem = s.mem := by
  refine foldl_keeps (P := fun t => t.mem = s.mem) ?_ rfl
  exact fun _ _ _ h => h
theorem drains_core (s : State) (c : CoreRef) (l : Nat) : ∀ x ∈ s.saveCores c,
    ((s.saveCores c).foldl (fun s x => s.setCore x ((s.core x).drained l s.clock.ns)) s).core x = (s.core x).drained l s.clock.ns := by
  have hp := coreKey_partner c
  unfold State.saveCores
  split
  · simp only [List.foldl_cons, List.foldl_nil, List.mem_cons, List.not_mem_nil, or_false]
    rintro x (rfl | rfl)
    · simp only [State.core_setCore, hp.symm, if_false, if_true, State.setCore_clock]
    · simp only [State.core_setCore, hp, if_false, if_true, State.setCore_clock]
  · simp only [List.foldl_cons, List.foldl_nil, List.mem_cons, List.not_mem_nil, or_false]
    rintro x rfl
    simp only [State.core_setCore, if_true]
end
theorem execPreempt_drains {s : State} {c : CoreRef} {l : Nat} (h : s.victim c = some l) (hd : ∀ x ∈ s.saveCores c, (s.core x).drain = 0)
    (hr : ((s.drainedBlocks c l).map fun k => s.saveNeed k).sum ≤ s.saveRoom (((s.launch l).map (·.ctx)).getD 0)) :
    ∃ t, exec (.preempt c) s = .next t ∧ t.blocks = s.blocks ∧ t.mem = s.mem ∧
      ∀ x ∈ s.saveCores c, t.core x = (s.core x).drained l s.clock.ns := by
  refine ⟨_, rfl, ?_⟩
  rw [State.preempt_victim h, if_neg (by
    rintro (⟨x, hx, hn⟩ | hlt)
    · exact hn (hd x hx)
    · exact absurd hr (Nat.not_le.mpr hlt))]
  exact ⟨drains_blocks _, drains_mem _, drains_core s c l⟩
theorem execPreempt_keeps {s : State} {c : CoreRef} {l : Nat} (h : s.victim c = some l) (hd : (∃ x ∈ s.saveCores c, (s.core x).drain ≠ 0) ∨
    s.saveRoom (((s.launch l).map (·.ctx)).getD 0) < ((s.drainedBlocks c l).map fun k => s.saveNeed k).sum) :
    exec (.preempt c) s = .next s := by
  show Host.Outcome.next (s.preempt c) = _
  rw [State.preempt_victim h, if_pos hd]
theorem execGraceExpiry_stops {s : State} {c : CoreRef} (h : (s.core c).drain = 1) : ∃ t, exec (.graceExpiry c) s = .next t ∧
    t.core c = { s.core c with drain := 2 } ∧ (s.core c).drainFrom + s.graceOf (s.core c).drainLaunch ≤ t.clock.ns ∧ t.blocks = s.blocks := by
  refine ⟨(s.reachNs ((s.core c).drainFrom + s.graceOf (s.core c).drainLaunch)).setCore c { s.core c with drain := 2 }, ?_, ?_,
    Nat.le_max_right .., rfl⟩
  · show execGraceExpiry c s = _
    rw [execGraceExpiry, h, if_neg (by decide)]
    rfl
  · rw [State.core_setCore, if_pos rfl]
theorem execGraceExpiry_keeps {s : State} {c : CoreRef} (h : (s.core c).drain ≠ 1) : exec (.graceExpiry c) s = .next s :=
  if_pos (bne_iff_ne.mpr h)

/-! ### The save (R296 steps 3 to 7) -/

theorem State.block_modBlock {s : State} {b : Nat} {k : Block} {f : Block → Block} (hf : ∀ x, (f x).id = x.id) (hk : s.block b = some k) :
    (s.modBlock b f).block b = some (f k) := by
  rw [State.block_modBlock_same s b f hf, hk, Option.map_some]
section
variable {s : State} {c : CoreRef}
/-- The blocks that a save of core c takes. -/
def State.savedTogether (s : State) (c : CoreRef) : List Block := ((s.saveCores c).map fun x => s.victims x).flatten
theorem execEngineDrainExpiry_saves (hd : ∀ x ∈ c :: s.saveCores c, (s.core x).drain = 2) (hk : ∀ k ∈ s.savedTogether c, s.canSave k = true) :
    exec (.engineDrainExpiry c) s = .next ((if s.engs.any fun o => (s.savedTogether c).any fun k => k.id == o.blk then
      s.reachNs ((s.core c).drainFrom + s.graceOf (s.core c).drainLaunch + 20000) else s).saveAll (s.saveCores c)) := by
  have hc := hd c List.mem_cons_self
  have hcs : (s.saveCores c).any (fun x => (s.core x).drain != 2) = false :=
    List.any_eq_false.mpr fun x hx => by simp [hd x (List.mem_cons_of_mem c hx)]
  have hks : (s.savedTogether c).any (fun k => !s.canSave k) = false := List.any_eq_false.mpr fun k h => by simp [hk k h]
  show execEngineDrainExpiry c s = _
  unfold State.savedTogether at *
  simp only [execEngineDrainExpiry, hc, hcs, hks, bne_self_eq_false, Bool.or_self, Bool.false_eq_true, if_false]
theorem execEngineDrainExpiry_keeps (h : (∃ x ∈ c :: s.saveCores c, (s.core x).drain ≠ 2) ∨ ∃ k ∈ s.savedTogether c, s.canSave k = false) :
    exec (.engineDrainExpiry c) s = .next s := by
  refine if_pos ?_
  simp only [Bool.or_eq_true, List.any_eq_true, bne_iff_ne, Bool.not_eq_true']
  obtain ⟨x, hx, hn⟩ | hk := h
  · obtain rfl | hx := List.mem_cons.mp hx
    · exact .inl (.inl hn)
    · exact .inl (.inr ⟨x, hx, hn⟩)
  · exact .inr hk
end
/-- The engine operations of block b, its sequencers' clauses and its reservations leave the machine. -/
def State.vacate (s : State) (b : Nat) : State :=
  { s with
    engs := s.engs.map fun o => if o.blk == b then { o with saved := true, due := none, started := false } else o
    opens := s.opens.filter fun o => match o with
      | .grp _ => true
      | .seq x kd => (s.sq x kd).owner != b
    cores := tmap (fun x => { x with
      cseq := if x.cseq.owner == b then {} else x.cseq
      mseq := if x.mseq.owner == b then {} else x.mseq
      res := x.res.filter fun r => r.blk != b }) s.cores }
/-- A block as its save leaves it. -/
def State.frozen (s : State) (k x : Block) : Block :=
  { x with
    saved := true
    seqs := s.ownSeqs k
    mats := (s.ownRes k).map fun r => (r.1, savedMat (s.core (k.coreAt r.1)) r.2)
    conts := (s.engs.filter fun o => o.blk == k.id).map (·.contRec)
    frags := x.fragRecs
    threads := x.threads.map fun t => { t with waitBase := t.waitBase + ((s.quad k.core).cyc - t.waitFrom), stallDone := true } }
theorem State.saveBlock_eq (s : State) (k : Block) : s.saveBlock k = (s.vacate k.id).modBlock k.id (s.frozen k) := by
  unfold State.saveBlock State.vacate State.frozen
  congr 2
theorem State.saveBlock_block {s : State} {k : Block} (h : s.block k.id = some k) : (s.saveBlock k).block k.id = some (s.frozen k k) := by
  rw [State.saveBlock_eq]
  exact State.block_modBlock (f := s.frozen k) (fun _ => rfl) h
theorem State.saveBlock_engs (s : State) (k : Block) : ∀ o ∈ (s.saveBlock k).engs, o.blk = k.id → o.saved = true ∧ o.started = false := by
  rw [State.saveBlock_eq]
  intro o ho hb
  obtain ⟨x, _, rfl⟩ := List.mem_map.mp ho
  split at hb
  case isTrue hx => simp only [hx, if_true, and_self]
  case isFalse hx => exact absurd (beq_iff_eq.mpr hb) hx
theorem State.flushCore_copies (s : State) (c : CoreRef) (x : Nat) : ∀ p ∈ ((s.flushCore c x).core c).copies, p.2.ctx ≠ x := by
  intro p hp
  unfold State.flushCore at hp
  dsimp only at hp
  rw [State.core_setCore, if_pos rfl] at hp
  exact bne_iff_ne.mp (List.of_mem_filter (p := fun p : Nat × Copy => p.2.ctx != x) hp)

/-! ### Restoring (R298) -/

section
variable {s : State} {b : Nat} {c : CoreRef}
theorem execBlockRestore_keeps (h : ∀ k, s.block b = some k → k.saved = false ∨ s.canRestore k c = false) :
    exec (.blockRestore b c) s = .next s := by
  show Host.Outcome.next (s.restore b c) = _
  unfold State.restore
  cases hk : s.block b with
  | none => rfl
  | some k => exact congrArg _ (if_pos (by simpa using h k hk))
variable {k : Block} (hk : s.block b = some k) (hs : k.saved = true) (hr : s.canRestore k c = true)
include hk hs hr
theorem execBlockRestore_asks (hf : s.blockFixed k = true) (hc : (s.quadAt (s.quadKeyOf c)).clock ≠ .pinned) :
    exec (.blockRestore b c) s = .next (s.setQuad (s.quadKeyOf c) ((s.quadAt (s.quadKeyOf c)).dispatch true)) := by
  show Host.Outcome.next (s.restore b c) = _
  simp only [State.restore, hk, hs, hr, hf, bne_iff_ne.mpr hc, Bool.not_true, Bool.or_self, Bool.and_self, Bool.false_eq_true, if_false, if_true]
variable (hf : s.blockFixed k = false ∨ (s.quadAt (s.quadKeyOf c)).clock = .pinned)
include hf
theorem State.restore_placed : s.restore b c = (s.savedMate k).elim ((s.restoreOn k c).rewake b) fun m =>
    if !s.canRestore m (CoreRef.partner c) then s else (((s.restoreOn k c).restoreOn m (CoreRef.partner c)).rewake b).rewake m.id := by
  have hq : (s.blockFixed k && (s.quadAt (s.quadKeyOf c)).clock != .pinned) = false := by
    obtain hf | hc := hf
    · rw [hf, Bool.false_and]
    · rw [hc, bne_self_eq_false, Bool.and_false]
  simp only [State.restore, hk, hs, hr, hq, Bool.not_true, Bool.or_self, Bool.false_eq_true, if_false]
  cases s.savedMate k <;> rfl
theorem execBlockRestore_single (hm : s.savedMate k = none) : exec (.blockRestore b c) s = .next ((s.restoreOn k c).rewake b) := by
  show Host.Outcome.next (s.restore b c) = _
  rw [State.restore_placed hk hs hr hf, hm, Option.elim_none]
theorem execBlockRestore_pair {m : Block} (hm : s.savedMate k = some m) (hp : s.canRestore m (CoreRef.partner c) = true) :
    exec (.blockRestore b c) s = .next ((((s.restoreOn k c).restoreOn m (CoreRef.partner c)).rewake b).rewake m.id) := by
  show Host.Outcome.next (s.restore b c) = _
  simp only [State.restore_placed hk hs hr hf, hm, Option.elim_some, hp, Bool.not_true, Bool.false_eq_true, if_false]
theorem execBlockRestore_mateWaits {m : Block} (hm : s.savedMate k = some m) (hp : s.canRestore m (CoreRef.partner c) = false) :
    exec (.blockRestore b c) s = .next s := by
  show Host.Outcome.next (s.restore b c) = _
  simp only [State.restore_placed hk hs hr hf, hm, Option.elim_some, hp, Bool.not_false, if_true]
end
/-- What a core that a saved block is restored onto is (R50, R298). -/
theorem State.canRestore_core {s : State} {k : Block} {c : CoreRef} (h : s.canRestore k c = true) : ∃ l, s.launch k.launch = some l ∧
    c ∈ s.rectOf l ∧ s.coreUsable c = true ∧ (s.core c).drain = 0 ∧ (s.launchFixed l = true → (s.quad c).pass = 0) ∧
    ((s.onCore c).map Block.sram).sum + k.sram ≤ 458752 ∧ ((s.onCore c).map Block.regBytes).sum + k.regBytes ≤ 262144 ∧
    (s.onCore c).length < 16 ∧ ((s.onCore c).map Block.nthreads).sum + k.nthreads ≤ 2048 := by
  unfold State.canRestore at h
  split at h
  case h_1 => cases h
  case h_2 l hl =>
    simp only [Bool.and_eq_true, List.contains_iff_mem, and_assoc] at h
    obtain ⟨hopen, hrect, _, _, hbeside, _⟩ := h
    obtain ⟨husable, _, hdrain, hfixed, _⟩ := State.coreOpen_iff.mp hopen
    exact ⟨l, hl, hrect, husable, hdrain, fun hf => (hfixed hf).2, fitsBeside_iff.mp hbeside⟩

/-! ### A restored block is as it was -/

/-- A thread without its arrivals at barriers. -/
def Thread.noBars (t : Thread) : Thread := { t with bars := [] }
/-- Block x is block k but for the barriers that its threads arrived at. -/
structure Block.ButBars (k x : Block) : Prop where
  eq : { x with threads := k.threads } = k
  threads : x.threads.map Thread.noBars = k.threads.map Thread.noBars
theorem Block.ButBars.refl (k : Block) : k.ButBars k := ⟨rfl, rfl⟩
theorem Block.ButBars.modThread {k x : Block} (h : k.ButBars x) (tl : Nat) (f : Thread → Thread)
    (hf : ∀ t, (f t).noBars = t.noBars) : k.ButBars (x.modThread tl f) := by
  refine ⟨h.eq, Eq.trans ?_ h.threads⟩
  unfold Block.modThread Block.thread
  dsimp only
  cases hl : lget x.threads tl with
  | none => rw [lset_none _ _ _ hl]
  | some t => rw [lset_map, Option.getD_some, hf, lset_self _ _ _ (by rw [lget_map, hl]; rfl)]
/-- The thread of the same place in the other block. -/
theorem Block.ButBars.thread {k x : Block} (h : k.ButBars x) {n : Nat} {t : Thread} (ht : lget k.threads n = some t) :
    ∃ u, lget x.threads n = some u ∧ u.noBars = t.noBars := by
  have hn := congrArg (lget · n) h.threads
  simp only [lget_map, ht, Option.map_some] at hn
  exact Option.map_eq_some_iff.mp hn
/-- Block b of a state is a block but for the barriers of its threads. -/
def State.HasButBars (s : State) (k : Block) : Prop := ∃ x, s.block k.id = some x ∧ k.ButBars x
theorem State.HasButBars.of_blocks {s t : State} {k : Block} (h : s.HasButBars k) (ht : t.blocks = s.blocks) : t.HasButBars k := by
  unfold State.HasButBars State.block at *
  rwa [ht]
theorem State.HasButBars.modThread {s : State} {k : Block} (h : s.HasButBars k) (tl : Nat) (f : Thread → Thread)
    (hf : ∀ t, (f t).noBars = t.noBars) : (s.modThread k.id tl f).HasButBars k := by
  obtain ⟨x, hx, hb⟩ := h
  exact ⟨_, State.block_modThread hx tl f, hb.modThread tl f hf⟩
theorem State.HasButBars.carryArrival {s : State} {k : Block} (h : s.HasButBars k) (c : CoreRef) (tl : Nat) (a : BarArr) :
    (s.carryArrival k c tl a).HasButBars k := by
  unfold State.carryArrival
  dsimp only
  split
  · exact h
  · split
    · exact h.modThread tl _ fun _ => rfl
    · exact State.HasButBars.modThread (h.of_blocks rfl) tl _ fun _ => rfl
theorem State.HasButBars.carryArrivals {s : State} {k : Block} (h : s.HasButBars k) (c : CoreRef) : (s.carryArrivals k c).HasButBars k := by
  unfold State.carryArrivals
  exact foldl_keeps (P := fun t => t.HasButBars k)
    (fun t p _ h => foldl_keeps (P := fun t => t.HasButBars k) (fun t a _ h => h.carryArrival c p.2 a) h) h
theorem State.setSq_blocks (s : State) (c : CoreRef) (kd : SeqKind) (q : Sequencer) : (s.setSq c kd q).blocks = s.blocks := by
  cases kd <;> rfl
theorem State.setSq_engs (s : State) (c : CoreRef) (kd : SeqKind) (q : Sequencer) : (s.setSq c kd q).engs = s.engs := by
  cases kd <;> rfl
theorem State.acquireInval_engs (s : State) (c : CoreRef) (offDie offGroup : Bool) : (s.acquireInval c offDie offGroup).engs = s.engs := by
  unfold State.acquireInval
  dsimp only
  split
  · split <;> rfl
  · rfl
theorem State.dispatch_engs (s : State) (l : Launch) (c : CoreRef) : (s.dispatch l c).engs = s.engs := State.acquireInval_engs ..
/-- The core itself, or its partner. -/
def CoreRef.half (c : CoreRef) (p : Bool) : CoreRef := if p then CoreRef.partner c else c
/-- The arrivals of a block and its engine operations go with it to a core. -/
def State.carried (s : State) (k : Block) (c : CoreRef) : State :=
  { s.carryArrivals k c with engs := (s.carryArrivals k c).engs.map fun o =>
      if o.blk == k.id && o.saved then { o with saved := false, core := CoreRef.half c (o.core != k.core) } else o }
/-- The sequencers and the matrix state of a block go back to a core. -/
def State.reseat (s : State) (k : Block) (c : CoreRef) : State :=
  k.mats.foldl (fun s m => s.setCore (CoreRef.half c m.1) { s.core (CoreRef.half c m.1) with
    res := some m.2.res, obuf := m.2.obuf, acc0 := m.2.acc0, acc1 := m.2.acc1, codebooks := m.2.codebooks, stick0 := m.2.stick0,
    stick1 := m.2.stick1, chkn := m.2.chkn })
    (k.seqs.foldl (fun s q => s.setSq (CoreRef.half c q.1) q.2.1 (q.2.2.thaw (s.quad (CoreRef.half c q.1)).cyc)) s)
theorem State.reseat_blocks (s : State) (k : Block) (c : CoreRef) : (s.reseat k c).blocks = s.blocks := by
  refine foldl_keeps (P := fun t => t.blocks = s.blocks) ?_
    (foldl_keeps (P := fun t => t.blocks = s.blocks) (fun t q _ h => (t.setSq_blocks ..).trans h) rfl)
  exact fun _ _ _ h => h
theorem State.reseat_engs (s : State) (k : Block) (c : CoreRef) : (s.reseat k c).engs = s.engs := by
  refine foldl_keeps (P := fun t => t.engs = s.engs) ?_
    (foldl_keeps (P := fun t => t.engs = s.engs) (fun t q _ h => (t.setSq_engs ..).trans h) rfl)
  exact fun _ _ _ h => h
/-- A thread as the restore leaves it: parked threads go on. -/
def Thread.thawed (t : Thread) (cyc : Nat) : Thread :=
  { t with
    waitFrom := cyc, clauseEnd := cyc
    status := match t.status with
      | .parked _ _ => .ready
      | x => x }
/-- A block as the restore leaves it. -/
def Block.thawed (k : Block) (c : CoreRef) (cyc ns : Nat) : Block :=
  { k with
    saved := false, core := c, seqs := [], mats := [], conts := [], frags := [], evicted := none, placedAt := ns
    threads := k.threads.map fun t => t.thawed cyc }
theorem Thread.thawed_status (t : Thread) (cyc : Nat) :
    (t.thawed cyc).status = t.status ∨ ∃ p a, t.status = .parked p a ∧ (t.thawed cyc).status = .ready := by
  unfold Thread.thawed
  dsimp only
  split
  case h_1 p a h => exact .inr ⟨p, a, h, rfl⟩
  case h_2 => exact .inl rfl
/-- Where the restore puts a block, before the launch takes note of the core. -/
def State.seated (s : State) (k : Block) (c : CoreRef) : State :=
  ((s.carried k c).reseat k c).modBlock k.id fun x => x.thawed c (s.quad c).cyc ((s.carried k c).reseat k c).clock.ns
theorem State.restoreOn_eq (s : State) (k : Block) (c : CoreRef) : s.restoreOn k c = match (s.seated k c).launch k.launch with
    | some l => (s.seated k c).dispatch l c
    | none => s.seated k c := rfl
theorem State.restoreOn_blocks (s : State) (k : Block) (c : CoreRef) : (s.restoreOn k c).blocks = (s.seated k c).blocks := by
  rw [State.restoreOn_eq]
  split
  · exact State.dispatch_blocks ..
  · rfl
theorem State.restoreOn_engs (s : State) (k : Block) (c : CoreRef) : (s.restoreOn k c).engs = (s.carried k c).engs := by
  have hseat : (s.seated k c).engs = (s.carried k c).engs := State.reseat_engs ..
  rw [State.restoreOn_eq]
  split
  · exact (State.dispatch_engs ..).trans hseat
  · exact hseat
theorem State.restoreOn_resumes (s : State) (k : Block) (c : CoreRef) : ∀ o ∈ (s.restoreOn k c).engs, o.blk = k.id → o.saved = false := by
  intro o ho hb
  rw [State.restoreOn_engs] at ho
  obtain ⟨x, _, rfl⟩ := List.mem_map.mp ho
  by_cases hx : (x.blk == k.id && x.saved) = true
  · rw [if_pos hx]
  · rw [if_neg hx] at hb ⊢
    simpa [hb] using hx
/-- The restored block: what it was, thawed, but for the barriers of its threads. -/
theorem State.restoreOn_block {s : State} {k : Block} (c : CoreRef) (h : s.block k.id = some k) :
    ∃ x, k.ButBars x ∧ ∃ cyc ns, (s.restoreOn k c).block k.id = some (x.thawed c cyc ns) := by
  have hcarried : (s.carried k c).HasButBars k := State.HasButBars.of_blocks (State.HasButBars.carryArrivals ⟨k, h, .refl k⟩ c) rfl
  obtain ⟨x, hx, hb⟩ := hcarried.of_blocks (State.reseat_blocks _ k c)
  refine ⟨x, hb, (s.quad c).cyc, ((s.carried k c).reseat k c).clock.ns, ?_⟩
  unfold State.block
  rw [State.restoreOn_blocks]
  exact State.block_modBlock (f := fun x => x.thawed c (s.quad c).cyc _) (fun _ => rfl) hx
theorem Block.ButBars.thawed {k x : Block} (h : k.ButBars x) (c : CoreRef) (cyc ns : Nat) {n : Nat} {t : Thread}
    (ht : lget k.threads n = some t) : ∃ u, lget (x.thawed c cyc ns).threads n = some u ∧ u.regs = t.regs ∧ u.preds = t.preds ∧
      u.pc = t.pc ∧ u.pmem = t.pmem ∧ (u.status = t.status ∨ ∃ p a, t.status = .parked p a ∧ u.status = .ready) := by
  obtain ⟨u, hu, he⟩ := h.thread ht
  have hs : u.status = t.status := (congrArg Thread.status he :)
  refine ⟨u.thawed cyc, ?_, (congrArg Thread.regs he :), (congrArg Thread.preds he :), (congrArg Thread.pc he :), (congrArg Thread.pmem he :),
    hs ▸ u.thawed_status cyc⟩
  show lget (x.threads.map _) n = _
  rw [lget_map, hu]
  rfl

/-! ### Relaunch (R494) -/

theorem execBlockRelaunch_begins {s : State} {b : Nat} {c : CoreRef} {k : Block} (hk : s.block b = some k) (h : s.canRelaunch k c = true) :
    exec (.blockRelaunch b c) s = .next (s.relaunch k c) := by
  show execBlockRelaunch b c s = _
  simp only [execBlockRelaunch, hk, h, if_true]
theorem execBlockRelaunch_keeps {s : State} {b : Nat} {c : CoreRef} (h : ∀ k, s.block b = some k → s.canRelaunch k c = false) :
    exec (.blockRelaunch b c) s = .next s := by
  show execBlockRelaunch b c s = _
  unfold execBlockRelaunch
  cases hk : s.block b with
  | none => rfl
  | some k => simp only [h k hk, Bool.false_eq_true, if_false]
theorem State.relaunch_block {s : State} {k : Block} {c : CoreRef} {l : Launch} {x : Kernel} (hk : s.block k.id = some k)
    (hl : s.launch k.launch = some l) (hx : lget l.kernels k.kernel = some x) :
    ∃ j, (s.relaunch k c).block k.id = some j ∧ j.relaunch = false ∧ j.core = c ∧ j.threads.length = x.nx * x.ny * x.nz ∧
      ∀ t ∈ j.threads, t.status = .ready ∧ t.pc = x.entry ∧ t.hdr = x.entry ∧ t.ops = [] ∧
        ∀ i, (tget t.regs i).map (·.val) = lget l.args i := by
  unfold State.block State.relaunch
  simp only [hl, Option.bind_some, hx, Option.map_some, State.dispatch_blocks]
  refine ⟨_, State.block_modBlock ?_ hk, rfl, rfl, ?_, fun t ht => ?_⟩
  · exact fun _ => rfl
  · simp only [List.length_map, List.length_zipIdx]
    exact List.length_replicate
  · obtain ⟨p, hp, rfl⟩ := List.mem_map.mp ht
    obtain ⟨hready, hpc, hhdr, _, hops, _, hargs⟩ := startThreads_begin (List.fst_mem_of_mem_zipIdx hp)
    exact ⟨hready, hpc, hhdr, hops, hargs⟩

/-! ### Clock and gate of a quad (R295, R300) -/

section
variable {s : State} {d q : Nat}
theorem execFixedClockChange_pinned (hi : s.quadIssuing (quadKey d q) = false) (hc : (quadOf s d q).clock = .toPinned) :
    exec (.fixedClockChange d q) s = .next (s.setQuad (quadKey d q) { quadOf s d q with clock := .pinned }) := by
  show execFixedClockChange d q s = _
  unfold quadOf at *
  simp only [execFixedClockChange, hi, hc, Bool.false_eq_true, if_false]
theorem execFixedClockChange_elastic (hi : s.quadIssuing (quadKey d q) = false) (hc : (quadOf s d q).clock = .toElastic) :
    exec (.fixedClockChange d q) s = .next (s.setQuad (quadKey d q) { quadOf s d q with clock := .elastic }) := by
  show execFixedClockChange d q s = _
  unfold quadOf at *
  simp only [execFixedClockChange, hi, hc, Bool.false_eq_true, if_false]
theorem execFixedClockChange_keeps (h : s.quadIssuing (quadKey d q) = true ∨ (quadOf s d q).clock = .pinned ∨ (quadOf s d q).clock = .elastic) :
    exec (.fixedClockChange d q) s = .next s := by
  show execFixedClockChange d q s = _
  unfold quadOf at h
  obtain hi | hc | hc := h
  · simp only [execFixedClockChange, hi, if_true]
  · simp only [execFixedClockChange, hc, ite_self]
  · simp only [execFixedClockChange, hc, ite_self]
theorem execQuadGate_eq : exec (.quadGate d q) s = .next (if (quadOf s d q).claim = true ∨ s.quadIssuing (quadKey d q) = true ∨
    (∃ k ∈ s.blocks, k.saved = false ∧ k.relaunch = false ∧ s.quadKeyOf k.core = quadKey d q) then s
    else s.setQuad (quadKey d q) { quadOf s d q with gated := true }) := by
  show execQuadGate d q s = _
  unfold execQuadGate quadOf
  simp only [Bool.or_eq_true, List.any_eq_true, Bool.and_eq_true, Bool.not_eq_true', beq_iff_eq, or_assoc, and_assoc]
  split <;> rfl
end

/-- Settles O47: the drain by its victim and the room, the save and the restore by what they write of the block, the relaunch by its
threads, and the quad by what issues on it. -/
theorem savesAndRestores : Obligations.SavesAndRestores := by
  refine ⟨fun s c h => congrArg _ (State.preempt_none h), fun s c l h => ⟨execPreempt_drains h, execPreempt_keeps h⟩, fun s c => rfl,
    fun s c l h => ?victim, fun s c => execGraceExpiry_stops, fun s c => execGraceExpiry_keeps,
    fun s c => ⟨fun hd hk => ⟨fun ho => ?idle, fun ho => ?busy⟩, execEngineDrainExpiry_keeps⟩, fun s k h => ?save, State.flushCore_copies,
    fun s b c => execBlockRestore_keeps, fun s b c k hk hs hr => ⟨execBlockRestore_asks hk hs hr, fun hf =>
      ⟨execBlockRestore_single hk hs hr hf, fun m => execBlockRestore_pair hk hs hr hf, fun m => execBlockRestore_mateWaits hk hs hr hf⟩⟩,
    fun s k c => State.canRestore_core, fun s k c h => ?restore, fun s b c k => execBlockRelaunch_begins,
    fun s b c => execBlockRelaunch_keeps, fun s k c l x => State.relaunch_block, fun s d q =>
      ⟨execFixedClockChange_pinned, execFixedClockChange_elastic, execFixedClockChange_keeps⟩, fun s d q => ?gate⟩
  case victim =>
    obtain ⟨x, hx, _, hleast⟩ := State.victim_spec h
    exact ⟨x, hx, hleast⟩
  case idle =>
    rw [execEngineDrainExpiry_saves hd hk, if_neg]
    simp only [List.any_eq_true, beq_iff_eq, not_exists, not_and]
    exact fun o hm k hkm e => ho o hm k hkm e.symm
  case busy =>
    rw [execEngineDrainExpiry_saves hd hk, if_pos]
    obtain ⟨o, hm, k, hkm, e⟩ := ho
    exact List.any_eq_true.mpr ⟨o, hm, List.any_eq_true.mpr ⟨k, hkm, beq_iff_eq.mpr e.symm⟩⟩
  case save =>
    refine ⟨s.frozen k k, State.saveBlock_block h, rfl, rfl, List.length_map _, rfl, rfl, rfl, State.saveBlock_mem s k, rfl, rfl,
      State.saveBlock_engs s k, fun n t ht =>
        ⟨{ t with waitBase := t.waitBase + ((s.quad k.core).cyc - t.waitFrom), stallDone := true }, ?_, rfl, rfl, rfl, rfl, rfl, rfl⟩⟩
    · show lget (k.threads.map _) n = _
      rw [lget_map, ht]
      rfl
  case restore =>
    obtain ⟨x, hb, cyc, ns, hx⟩ := State.restoreOn_block c h
    refine ⟨_, hx, rfl, rfl, (congrArg Block.lmem hb.eq :), (congrArg Block.sbuf hb.eq :), State.restoreOn_mem s k c, State.restoreOn_resumes s k c,
      fun n t ht => hb.thawed c cyc ns ht⟩
  case gate =>
    rw [execQuadGate_eq]
    refine ⟨fun hc hi hh => ?_, fun h => by rw [if_pos h]⟩
    rw [if_neg]
    rintro (h | h | h)
    · rw [hc] at h
      cases h
    · rw [hi] at h
      cases h
    · exact hh h

end Sys2Proof.Machine
end

section
/-! PROOFS. The commands of the host (spec/10_distributor.md R271; spec/14_narrows.md R376, R377; spec/18_cache.md R442, R461;
spec/22_host.md R521 to R523, R525), and the statement about them (O49). -/

namespace Sys2Proof.Machine
open Sys2Proof.Safety

/-! ### A command in progress (R519) -/

section
variable {s u : State} {op r x : Nat} {slot : BitVec 10} {arg : BitVec 46} {ptr : BitVec 64} {act : State → Option (Nat × Nat) × State}
theorem commanded_iff : Commanded s op slot arg ptr ↔ ∃ c, s.host.busy = some c ∧ c.is op slot arg ptr = true := by
  simp only [Commanded, HostCmd.is, Bool.and_eq_true, Bool.not_eq_true', beq_iff_eq, and_assoc]
theorem State.command_answers (h : Commanded s op slot arg ptr) (ha : act s = (some (r, x), u)) :
    s.command op slot arg ptr act = .next (answers u r x) := by
  obtain ⟨c, hc, his⟩ := commanded_iff.mp h
  simp only [State.command, hc, his, Bool.not_true, Bool.false_eq_true, if_false, ha]
  rfl
theorem State.command_continues (h : Commanded s op slot arg ptr) (ha : act s = (none, u)) : s.command op slot arg ptr act = .next u := by
  obtain ⟨c, hc, his⟩ := commanded_iff.mp h
  simp only [State.command, hc, his, Bool.not_true, Bool.false_eq_true, if_false, ha]
theorem State.command_keeps (h : ¬Commanded s op slot arg ptr) : s.command op slot arg ptr act = .next s := by
  rw [commanded_iff] at h
  unfold State.command
  cases hc : s.host.busy with
  | none => rfl
  | some c => exact if_pos (by simpa using fun his => h ⟨c, hc, his⟩)
variable {n : Nat} {on : Ctx → State → Option (Nat × Nat) × State}
theorem State.live_none (h : s.ctx n = none) : s.live n on = (some (2, 0), s) := by simp only [State.live, h]
theorem State.live_some {c : Ctx} (h : s.ctx n = some c) : s.live n on = on c s := by simp only [State.live, h]
/-- A command to a context that is not live answers 2 (R521). -/
theorem State.command_dead (hn : s.ctx n = none) (h : Commanded s op slot arg ptr) :
    s.command op slot arg ptr (fun s => s.live n on) = .next (answers s 2 0) := State.command_answers h (State.live_none hn)
theorem State.command_live {c : Ctx} (hc : s.ctx n = some c) (h : Commanded s op slot arg ptr) (ha : on c s = (some (r, x), u)) :
    s.command op slot arg ptr (fun s => s.live n on) = .next (answers u r x) :=
  State.command_answers h ((State.live_some hc).trans ha)
end

/-! ### What the parts of a command keep -/

theorem State.ctx_modCtx {s : State} {n : Nat} {c : Ctx} (h : s.ctx n = some c) (f : Ctx → Ctx) : (s.modCtx n f).ctx n = some (f c) := by
  unfold State.ctx at *
  simp only [State.modCtx, h, tget_tput, if_true]
theorem State.modCtx_host (s : State) (n : Nat) (f : Ctx → Ctx) : (s.modCtx n f).host = s.host := by
  unfold State.modCtx
  split <;> rfl
theorem State.modCtx_power (s : State) (n : Nat) (f : Ctx → Ctx) : (s.modCtx n f).power = s.power := by
  unfold State.modCtx
  split <;> rfl
theorem State.Beside.ctx {s t : State} (h : s.Beside t) (n : Nat) : t.ctx n = s.ctx n := by simp only [State.ctx, h.ctxs]
theorem State.dropFar_host (s : State) (g : Nat) : (s.dropFar g).host = s.host := by
  unfold State.dropFar
  split
  · refine foldl_keeps (P := fun t => t.host = s.host) ?_ rfl
    exact fun _ _ _ h => h
  · rfl
theorem State.dropL2_host (s : State) (die g : Nat) : (s.dropL2 die g).host = s.host := by
  unfold State.dropL2
  split <;> rfl
theorem State.dropCopy_host (s : State) (c : CoreRef) (g : Nat) : (s.dropCopy c g).host = s.host := by
  unfold State.dropCopy
  split <;> rfl
theorem State.homeWrite_host (s : State) (by_ : Option CoreRef) (g : Nat) (bs : Tbl Byte) (tracked : Bool) :
    (s.homeWrite by_ g bs tracked).host = s.host := by
  unfold State.homeWrite
  dsimp only
  split
  · refine (State.dropFar_host ..).trans (foldl_keeps (P := fun t => t.host = s.host) ?_ rfl)
    exact fun _ _ _ h => h
  · split
    · exact (State.dropL2_host ..).trans (State.dropCopy_host ..)
    · rfl
theorem State.agentWrite_host (s : State) (pa : Nat) (bs : List Byte) (tracked : Bool) : (s.agentWrite pa bs tracked).host = s.host := by
  unfold State.agentWrite
  split
  · rfl
  · refine foldl_keeps (P := fun t => t.host = s.host) ?_ rfl
    exact fun t i _ h => (State.homeWrite_host ..).trans h
theorem State.arriveWb_host (s : State) (c : CoreRef) (g : Nat) : (s.arriveWb c g).host = s.host := by
  unfold State.arriveWb
  dsimp only
  split
  · exact (State.dropL2_host ..).trans (State.homeWrite_host ..)
  · rfl
theorem State.flushCore_host (s : State) (c : CoreRef) (n : Nat) : (s.flushCore c n).host = s.host := by
  unfold State.flushCore
  refine foldl_keeps (P := fun t => t.host = s.host) ?_ rfl
  exact fun t p _ h => (State.arriveWb_host ..).trans h
theorem State.flushCore_beside (s : State) (c : CoreRef) (n : Nat) : s.Beside (s.flushCore c n) := by
  have h : s.Beside ((s.linesOf c fun _ d => d.ctx == n).foldl (fun s p => s.arriveWb p.1 p.2) s) :=
    foldl_beside (f := fun u (p : CoreRef × Nat) => u.arriveWb p.1 p.2) (fun u p => State.arriveWb_beside u p.1 p.2) (.refl s)
  unfold State.flushCore
  exact ⟨h.ctxs, h.sync, h.fabid, h.blocks, h.power, h.dieMap⟩
/-- The context's lines of every core written back. -/
def State.flushAll (s : State) (n : Nat) : State := (s.cores.map (·.1)).foldl (fun s k => s.flushCore (coreOfKey k) n) s
theorem State.flushAll_beside (s : State) (n : Nat) : s.Beside (s.flushAll n) :=
  foldl_beside (fun t k => State.flushCore_beside t (coreOfKey k) n) (.refl s)
theorem State.flushAll_host (s : State) (n : Nat) : (s.flushAll n).host = s.host := by
  refine foldl_keeps (P := fun t => t.host = s.host) ?_ rfl
  exact fun t k _ h => (State.flushCore_host ..).trans h

/-! ### CREATE (R271, R442) -/

theorem lget_physWords (s : State) (pa n i : Nat) (h : i < n) : lget (s.physWords pa n) i = some (mread s.mem (pa + 8 * i) 8) := by
  simp only [State.physWords, lget_eq_getElem?, List.getElem?_map, List.getElem?_range h, Option.map_some]
theorem mread_word_lt (m : Mem) (a : Nat) : mread m a 8 < 2 ^ 64 := mread_lt m a 8
/-- A VC that is fixed (R442). -/
def fixedVc : VcEntry := ⟨true, 0, 0, true, 0, [], none⟩
/-- The slot holds a context, whose energy counters are zero. -/
def State.slotted (s : State) (n : Nat) (c : Ctx) : State :=
  { s with
    ctxs := tput s.ctxs n c
    power := { s.power with eloc := tdel s.power.eloc n, erem := tdel s.power.erem n, remPj := tdel s.power.remPj n } }
theorem meetsFloor_self (own : List DWord) : meetsFloor own own = true := by
  simp only [meetsFloor, Nat.and_self, le_refl, decide_true, beq_self_eq_true, Bool.and_self]
section
variable {s : State} {slot arg ptr : Nat}
theorem State.create_live (h : (s.ctx slot).isSome = true) : s.create slot arg ptr = (some (2, 0), s) := if_pos h
variable (hn : s.ctx slot = none)
include hn
theorem State.create_badRecord (h : ¬(ptr % 64 = 0 ∧
    ctxRecBad (s.physWords ptr 8) (((lget s.ownFloor 1).map (·.getLsbD 0)).getD false) = false)) :
    s.create slot arg ptr = (some (1, 0x309), s) := by
  rw [State.create, if_neg (by simp [hn])]
  refine if_pos ?_
  rw [not_and_or, Bool.not_eq_false] at h
  simpa using h
theorem State.create_good (hp : ptr % 64 = 0)
    (hb : ctxRecBad (s.physWords ptr 8) (((lget s.ownFloor 1).map (·.getLsbD 0)).getD false) = false)
    (hf : mread s.mem (ptr + 48) 8 = 0) : s.create slot arg ptr = (some (0, 0), (List.range 4).foldl (fun s i => s.putVc slot i fixedVc)
      (s.slotted slot (ctxOf (s.physWords ptr 8) s.ownFloor (arg % 65536)))) := by
  have h6 : lget (s.physWords ptr 8) 6 = some 0 := (lget_physWords s ptr 8 6 (by decide)).trans (congrArg some hf)
  have hz : bits 0 51 6 * 64 = 0 := rfl
  simp only [State.create, hn, Option.isSome_none, hp, hb, h6, Option.getD_some, hz, bne_self_eq_false, Bool.or_self, Bool.false_and,
    beq_self_eq_true, meetsFloor_self, Bool.not_true, Bool.false_eq_true, if_false, if_true]
  rfl
end
theorem State.putVc_spec {s : State} {n : Nat} {c : Ctx} (h : s.ctx n = some c) (i : Nat) (v : VcEntry) :
    (s.putVc n i v).ctx n = some { c with vcs := tput c.vcs i v } ∧ (s.putVc n i v).host = s.host ∧ (s.putVc n i v).power = s.power := by
  unfold State.putVc
  simp only [h]
  exact ⟨((State.agentWrite_beside ..).ctx n).trans (State.ctx_modCtx h _), (State.agentWrite_host ..).trans (State.modCtx_host ..),
    (State.agentWrite_beside ..).power.trans (State.modCtx_power ..)⟩
theorem putVcs_spec {n : Nat} (v : VcEntry) (l : List Nat) {s : State} {c : Ctx} (h : s.ctx n = some c) :
    (l.foldl (fun s i => s.putVc n i v) s).ctx n = some { c with vcs := l.foldl (fun t i => tput t i v) c.vcs } ∧
    (l.foldl (fun s i => s.putVc n i v) s).host = s.host ∧ (l.foldl (fun s i => s.putVc n i v) s).power = s.power := by
  induction l generalizing s c with
  | nil => exact ⟨h, rfl, rfl⟩
  | cons i l ih =>
    obtain ⟨hc, hh, hp⟩ := State.putVc_spec h i v
    obtain ⟨hc', hh', hp'⟩ := ih hc
    exact ⟨hc', hh'.trans hh, hp'.trans hp⟩
theorem tget_foldl_tput {α : Type} (v : α) (l : List Nat) (t : Tbl α) (j : Nat) :
    tget (l.foldl (fun t i => tput t i v) t) j = if j ∈ l then some v else tget t j := by
  induction l generalizing t with
  | nil => simp
  | cons i l ih =>
    rw [List.foldl_cons, ih, tget_tput]
    by_cases hl : j ∈ l
    · simp [hl]
    · simp [hl]
/-- A field that holds an address of a page holds all of the word. -/
theorem page_of_word {v : Nat} (hv : v < 2 ^ 64) (hh : bits v 63 52 = 0) (hl : bits v 11 0 = 0) : bits v 51 12 * 4096 = v := by
  simp only [bits, Nat.reducePow, Nat.reduceSub, Nat.reduceAdd] at *
  omega
theorem ctxRecBad_pages {ws : List Nat} {able : Bool} (h : ctxRecBad ws able = false) {i : Nat} (hi : i ∈ [0, 1, 2, 4, 7]) :
    bits ((lget ws i).getD 0) 63 52 = 0 ∧ bits ((lget ws i).getD 0) 11 0 = 0 := by
  simp only [ctxRecBad, Bool.or_eq_false_iff, bne_eq_false_iff_eq, and_assoc] at h
  obtain ⟨h0, l0, h1, l1, h2, l2, h4, l4, h7, l7, _⟩ := h
  simp only [List.mem_cons, List.not_mem_nil, or_false] at hi
  obtain rfl | rfl | rfl | rfl | rfl := hi
  · exact ⟨h0, l0⟩
  · exact ⟨h1, l1⟩
  · exact ⟨h2, l2⟩
  · exact ⟨h4, l4⟩
  · exact ⟨h7, l7⟩
/-- The address of a page in a good context record. -/
theorem page_of_record {s : State} {ptr : Nat} {able : Bool} (hb : ctxRecBad (s.physWords ptr 8) able = false) {i : Nat}
    (hi : i ∈ [0, 1, 2, 4, 7]) : bits ((lget (s.physWords ptr 8) i).getD 0) 51 12 * 4096 = mread s.mem (ptr + 8 * i) 8 := by
  obtain ⟨hh, hl⟩ := ctxRecBad_pages hb hi
  have h8 : i < 8 := by
    simp only [List.mem_cons, List.not_mem_nil, or_false] at hi
    omega
  rw [lget_physWords s ptr 8 i h8, Option.getD_some] at *
  exact page_of_word (mread_word_lt ..) hh hl

/-! ### DESTROY (R521) -/

theorem State.quadAfter_eq (s : State) (key : Nat) : ∃ q, s.quadAfter key = { s with quads := q } := by
  have h : ∀ x : Quad, ∃ q, (if x == s.quadAt key then s else s.setQuad key x) = { s with quads := q } := by
    intro x
    split
    · exact ⟨s.quads, rfl⟩
    · exact ⟨_, rfl⟩
  unfold State.quadAfter
  exact h _
theorem quadsAfter_eq (l : List Nat) (s : State) : ∃ q, l.foldl (fun s k => s.quadAfter k) s = { s with quads := q } := by
  induction l generalizing s with
  | nil => exact ⟨s.quads, rfl⟩
  | cons k l ih =>
    obtain ⟨q, hq⟩ := s.quadAfter_eq k
    obtain ⟨q', hq'⟩ := ih (s.quadAfter k)
    exact ⟨q', by rw [List.foldl_cons, hq', hq]⟩
/-- An evicted context leaves nothing behind. -/
theorem State.evictCtx_gone (s : State) (n : Nat) : (s.evictCtx n).ctx n = none ∧ (∀ k ∈ (s.evictCtx n).blocks, k.ctx ≠ n) ∧
    (∀ l ∈ (s.evictCtx n).launches, l.ctx ≠ n) ∧ (∀ q ∈ (s.evictCtx n).reqs, q.ctx ≠ n) ∧ (∀ o ∈ (s.evictCtx n).engs, o.ctx ≠ n) ∧
    (s.evictCtx n).host = s.host := by
  unfold State.evictCtx
  dsimp only
  obtain ⟨q, hq⟩ := quadsAfter_eq (s := _) (l := _)
  rw [hq]
  refine ⟨tget_tdel_same _ _, fun k hk => ?_, fun l hl => ?_, fun q hq => ?_, fun o ho => ?_, State.flushAll_host s n⟩
  · exact bne_iff_ne.mp (List.of_mem_filter (p := fun k : Block => k.ctx != n) hk)
  · exact bne_iff_ne.mp (List.of_mem_filter (p := fun l : Launch => l.ctx != n) hl)
  · exact bne_iff_ne.mp (List.of_mem_filter (p := fun q : HomeReq => q.ctx != n) hq)
  · exact bne_iff_ne.mp (List.of_mem_filter (p := fun o : EngOp => o.ctx != n) ho)

end Sys2Proof.Machine
end

section
/-! PROOFS. INVAL, the frames, the rings and migration (spec/14_narrows.md R376, R377; spec/22_host.md R521 to R523, R525), and the
statement about the commands of the host (O49). -/

namespace Sys2Proof.Machine
open Sys2Proof.Safety

/-! ### INVAL (R521) -/

/-- A translation of context n that meets `pages` pages from page v on. -/
def TlbEntry.meets (e : TlbEntry) (n v pages : Nat) : Bool :=
  e.ctx == n && e.vpn / e.pages * e.pages < v + pages && decide (v < e.vpn / e.pages * e.pages + e.pages)
/-- The cached translations that p picks go. -/
def State.untranslate (s : State) (p : TlbEntry → Bool) : State :=
  { s with
    cores := tmap (fun c => { c with tlb := c.tlb.filter fun e => !p e }) s.cores
    tlb2 := tmap (fun l => l.filter fun e => !p e) s.tlb2 }
/-- An access of context n in the bytes from p to last is on its way. -/
def State.using (s : State) (n p last : Nat) : Bool :=
  (s.reqs.any fun q => q.ctx == n && (p ≤ q.va.toNat % 2 ^ 56 && decide (q.va.toNat % 2 ^ 56 < last))) ||
    s.blocks.any fun k => k.ctx == n && k.sbuf.any fun e => p ≤ e.va.toNat % 2 ^ 56 && decide (e.va.toNat % 2 ^ 56 < last)
theorem State.using_iff {s : State} {n p last : Nat} : s.using n p last = true ↔
    (∃ q ∈ s.reqs, q.ctx = n ∧ p ≤ q.va.toNat % 2 ^ 56 ∧ q.va.toNat % 2 ^ 56 < last) ∨
      ∃ k ∈ s.blocks, k.ctx = n ∧ ∃ e ∈ k.sbuf, p ≤ e.va.toNat % 2 ^ 56 ∧ e.va.toNat % 2 ^ 56 < last := by
  simp only [State.using, Bool.or_eq_true, List.any_eq_true, Bool.and_eq_true, beq_iff_eq, decide_eq_true_eq]
theorem bits_high (arg : BitVec 46) : bits arg.toNat 45 40 = arg.toNat / 2 ^ 40 :=
  Nat.mod_eq_of_lt (by have := arg.isLt; omega)
section
variable {s : State} {slot ptr : Nat} {arg : BitVec 46}
theorem State.inval_bad (h : arg.toNat / 2 ^ 40 < 12 ∨ 48 < arg.toNat / 2 ^ 40 ∨ ptr % 2 ^ (arg.toNat / 2 ^ 40) ≠ 0) :
    s.inval slot arg.toNat ptr = (some (1, 0), s) := by
  unfold State.inval
  simp only [bits_high]
  exact if_pos (by simpa [or_assoc] using h)
theorem State.inval_good (h12 : 12 ≤ arg.toNat / 2 ^ 40) (h48 : arg.toNat / 2 ^ 40 ≤ 48) (hal : ptr % 2 ^ (arg.toNat / 2 ^ 40) = 0)
    (hp : ptr < 2 ^ 56) : s.inval slot arg.toNat ptr =
      (if s.using slot ptr (ptr + 2 ^ (arg.toNat / 2 ^ 40)) then none else some (0, 0),
        s.untranslate fun e => e.meets slot (ptr / 4096) (2 ^ (arg.toNat / 2 ^ 40 - 12))) := by
  unfold State.inval
  simp only [bits_high, Nat.mod_eq_of_lt hp]
  have hgood : ¬(decide (arg.toNat / 2 ^ 40 < 12) || decide (48 < arg.toNat / 2 ^ 40) || ptr % 2 ^ (arg.toNat / 2 ^ 40) != 0) = true := by
    rw [hal]
    simpa using ⟨h12, h48⟩
  rw [if_neg hgood]
  rfl
end
/-- The pages of an aligned range, and its bytes. -/
theorem TlbEntry.meets_iff {e : TlbEntry} {n lg p : Nat} (hlg : 12 ≤ lg) (hp : p % 2 ^ lg = 0) :
    e.meets n (p / 4096) (2 ^ (lg - 12)) = true ↔ e.ctx = n ∧ e.vpn / e.pages * e.pages * 4096 < p + 2 ^ lg ∧
      p < (e.vpn / e.pages * e.pages + e.pages) * 4096 := by
  have hpow : 2 ^ lg = 2 ^ (lg - 12) * 4096 := by
    rw [show 4096 = 2 ^ 12 by norm_num, ← pow_add, Nat.sub_add_cancel hlg]
  have hpage : p % 4096 = 0 := Nat.mod_eq_zero_of_dvd ((Dvd.intro_left _ hpow.symm).trans (Nat.dvd_of_mod_eq_zero hp))
  simp only [TlbEntry.meets, Bool.and_eq_true, beq_iff_eq, decide_eq_true_eq, and_assoc]
  generalize e.vpn / e.pages * e.pages = first at *
  refine and_congr_right fun _ => and_congr ?_ ?_ <;> omega
theorem State.untranslate_core {s : State} {p : TlbEntry → Bool} (c : CoreRef) : ∀ e ∈ ((s.untranslate p).core c).tlb, p e = false := by
  intro e he
  simp only [State.core, State.untranslate, tget_tmap] at he
  cases hc : tget s.cores (coreKey c) with
  | none =>
    rw [hc] at he
    cases he
  | some k =>
    rw [hc] at he
    simpa using (List.mem_filter.mp he).2
theorem State.untranslate_tlb2 {s : State} {p : TlbEntry → Bool} : ∀ x ∈ (s.untranslate p).tlb2, ∀ e ∈ x.2, p e = false := by
  intro x hx e he
  obtain ⟨y, _, rfl⟩ := List.mem_map.mp hx
  simpa using (List.mem_filter.mp he).2

/-! ### FRMOPEN (R376) -/

section
variable {s : State} {n ptr : Nat}
theorem State.openFrame_misaligned (h : ptr % 64 ≠ 0) : s.openFrame n ptr = (some (1, 0), s) := if_pos (bne_iff_ne.mpr h)
variable (h : ptr % 64 = 0)
include h
theorem State.openFrame_badRecord (hf : (s.agentWord (ptr + 48) 0).parseFrame ptr = none) :
    s.openFrame n ptr = (some (0, 0), (s.agentWord (ptr + 48) 0).frameReport ptr 2 0x1E8 0 0) := by
  simp only [State.openFrame, h, bne_self_eq_false, Bool.false_eq_true, if_false, hf]
  rfl
variable {c : Ctx} (hc : s.ctx n = some c) {f : Frame} (hf : (s.agentWord (ptr + 48) 0).parseFrame ptr = some f)
include hc hf
theorem State.openFrame_good : s.openFrame n ptr = (some (0, 0), if c.frame.isSome || c.opening.isSome then
    (s.agentWord (ptr + 48) 0).frameReport ptr 2 0x1E9 0 0 else (s.agentWord (ptr + 48) 0).tryOpen n f) := by
  have hu : (s.agentWord (ptr + 48) 0).ctx n = some c := ((State.agentWrite_beside ..).ctx n).trans hc
  simp only [State.openFrame, h, bne_self_eq_false, Bool.false_eq_true, if_false, hf, hu, Option.bind_some]
  split <;> rfl
theorem State.openFrame_busy (hb : c.frame ≠ none ∨ c.opening ≠ none) :
    s.openFrame n ptr = (some (0, 0), (s.agentWord (ptr + 48) 0).frameReport ptr 2 0x1E9 0 0) := by
  rw [State.openFrame_good h hc hf, if_pos]
  simpa [Option.isSome_iff_ne_none] using hb
theorem State.openFrame_tries (hframe : c.frame = none) (hopen : c.opening = none) :
    s.openFrame n ptr = (some (0, 0), (s.agentWord (ptr + 48) 0).tryOpen n f) := by
  rw [State.openFrame_good h hc hf, if_neg (by simp [hframe, hopen])]
end
/-- The fields of a frame whose record passes its checks (R376). -/
theorem State.parseFrame_spec {s : State} {pa : Nat} {f : Frame} (h : s.parseFrame pa = some f) :
    f.rec_ = pa ∧ f.rtbase.toNat = mread s.mem (pa + 8) 8 ∧ f.rtbase.toNat % 256 = 0 ∧ f.rtw = mread s.mem (pa + 16) 8 % 2 ^ 15 ∧
      f.rth = mread s.mem (pa + 16) 8 / 2 ^ 16 % 2 ^ 15 ∧ 1 ≤ f.rtw ∧ f.rtw ≤ 16384 ∧ 1 ≤ f.rth ∧ f.rth ≤ 16384 ∧
      f.rtpitch % 256 = 0 ∧ f.rtw * f.pixelSize ≤ f.rtpitch ∧ f.gdmask ≠ 0 ∧ f.closing = false ∧ f.regions = [] := by
  have hw : ∀ i < 6, (lget (s.physWords pa 6) i).getD 0 = mread s.mem (pa + 8 * i) 8 := fun i hi => by
    rw [lget_physWords s pa 6 i hi, Option.getD_some]
  have hw1 := hw 1 (by decide)
  have hw2 := hw 2 (by decide)
  have hword : BitVec.toNat (BitVec.ofNat 64 (mread s.mem (pa + 8) 8)) = mread s.mem (pa + 8) 8 := Nat.mod_eq_of_lt (mread_word_lt ..)
  simp only [Nat.reduceMul] at hw1 hw2
  unfold State.parseFrame at h
  dsimp only at h
  obtain ⟨hgood, hf⟩ := Option.ite_none_left_eq_some.mp h
  obtain rfl := Option.some.inj hf
  clear h hf
  simp only [Bool.or_eq_true, not_or, bne_iff_ne, not_not, beq_iff_eq, decide_eq_true_eq, Nat.not_lt, and_assoc, hw1, hw2] at hgood
  obtain ⟨_, _, _, _, _, hw0, hwmax, hh0, hhmax, hpitch, hpix, hbase, _, _, hgds, _⟩ := hgood
  simp only [Frame.pixelSize, hw1, hw2, hword, beq_iff_eq, true_and, and_true]
  refine ⟨hbase, ?_, rfl, Nat.pos_of_ne_zero hw0, hwmax, Nat.pos_of_ne_zero hh0, hhmax, hpitch, hpix, fun h0 => hgds ?_⟩
  · rw [bits, pow_zero, Nat.div_one]
  · rw [h0]
    rfl

end Sys2Proof.Machine
end

section
/-! PROOFS. Frames that open, residency answers, rings and migration (spec/14_narrows.md R376; spec/22_host.md R522, R523, R525), and the
statement about the commands of the host (O49). -/

namespace Sys2Proof.Machine
open Sys2Proof.Safety

/-! ### A frame opens (R376) -/

/-- Context n has the frame and the opening frame that c has. -/
def State.FramesAs (s : State) (n : Nat) (c : Ctx) : Prop := ∃ x, s.ctx n = some x ∧ x.opening = c.opening ∧ x.frame = c.frame
theorem State.FramesAs.of_beside {s t : State} {n : Nat} {c : Ctx} (h : s.FramesAs n c) (ht : s.Beside t) : t.FramesAs n c := by
  unfold State.FramesAs at *
  rwa [ht.ctx]
theorem State.FramesAs.modCtx {s : State} {n : Nat} {c : Ctx} (h : s.FramesAs n c) (f : Ctx → Ctx)
    (hf : ∀ x, (f x).opening = x.opening ∧ (f x).frame = x.frame) : (s.modCtx n f).FramesAs n c := by
  obtain ⟨x, hx, ho, hfr⟩ := h
  exact ⟨f x, State.ctx_modCtx hx f, (hf x).1.trans ho, (hf x).2.trans hfr⟩
theorem State.FramesAs.signal {s : State} {n : Nat} {c : Ctx} (h : s.FramesAs n c) (v : Nat) : (s.signal v).FramesAs n c := h
theorem State.FramesAs.writeRes {n : Nat} {c : Ctx} (rs : List ResRec) {s : State} (h : s.FramesAs n c) : (s.writeRes n rs).FramesAs n c := by
  induction rs generalizing s with
  | nil => exact h
  | cons r rs ih =>
    unfold State.writeRes
    split
    · exact h
    · split
      · exact ih h
      · split
        · exact h
        · refine ih (State.FramesAs.signal (State.FramesAs.of_beside (h.modCtx _ ?_) (State.agentWrite_beside ..)) 2)
          exact fun _ => ⟨rfl, rfl⟩
theorem State.FramesAs.requestRes {s : State} {n : Nat} {c : Ctx} (h : s.FramesAs n c) (r : ResRec) : (s.requestRes n r).FramesAs n c := by
  unfold State.requestRes
  split
  · exact h
  · refine State.FramesAs.writeRes _ (h.modCtx _ ?_)
    exact fun _ => ⟨rfl, rfl⟩
section
variable {s : State} {n : Nat} {c : Ctx} (hc : s.ctx n = some c) {f g : Frame} {b z : Nat}
include hc
/-- A frame that waits for a range: refused without a ring, and else opening. -/
theorem State.frameWait_spec : (c.rring = 0 → s.frameWait n f b z = s.refuseFrame n f.rec_ 0x1E8) ∧
    (c.rring ≠ 0 → ∃ x, (s.frameWait n f b z).ctx n = some x ∧ x.opening = some (f, b, z) ∧ x.frame = c.frame) := by
  unfold State.frameWait
  simp only [hc, Option.map_some, Option.getD_some, beq_iff_eq]
  refine ⟨fun h => if_pos h, fun h => ?_⟩
  rw [if_neg h]
  exact State.FramesAs.requestRes (c := { c with opening := some (f, b, z) }) ⟨_, State.ctx_modCtx hc _, rfl, rfl⟩ _
end
theorem State.vbytes_length {s : State} {ctx : Nat} : ∀ {n va : Nat} {bs : List Byte}, s.vbytes ctx va n = some bs → bs.length = n
  | 0, _, _, h => by
    obtain rfl := Option.some.inj h
    rfl
  | n + 1, va, bs, h => by
    unfold State.vbytes at h
    split at h
    case h_1 pa r _ hr =>
      obtain rfl := Option.some.inj h
      rw [List.length_cons, State.vbytes_length hr]
    case h_2 => cases h
/-- The owners that a table holds: as many as the frame has regions, none or a present shading die each (R376). -/
theorem State.readOwners_spec {s : State} {n : Nat} {f g : Frame} (h : s.readOwners n f = some g) : ∃ os, g = { f with owners := os } ∧
    os.length = f.tableSize ∧ ∀ o ∈ os, o = 255 ∨ (s.dieMap.isSd o = true ∧ s.dieHere o = true) := by
  obtain ⟨bs, hbs, hb⟩ := Option.bind_eq_some_iff.mp h
  obtain ⟨hall, hg⟩ := Option.ite_none_right_eq_some.mp hb
  refine ⟨bs.map (·.toNat), (Option.some.inj hg).symm, (List.length_map _).trans (State.vbytes_length hbs), fun o ho => ?_⟩
  obtain ⟨b, hbm, rfl⟩ := List.mem_map.mp ho
  have hgood := List.all_eq_true.mp hall b hbm
  simp only [Bool.or_eq_true, beq_iff_eq, Bool.and_eq_true] at hgood
  exact hgood.imp_left fun h255 => congrArg BitVec.toNat h255
/-- Context n opens a frame, the pages of its table, target and spill area pinned. -/
def State.opened (s : State) (n : Nat) (g : Frame) : State :=
  let pins := ([(g.ownptr.toNat, g.tableSize), (g.rtbase.toNat, g.targetSize), (g.spillptr.toNat, g.spill)].map fun x =>
    s.rangePins n x.1 x.2).flatten
  s.modCtx n fun c => { c with frame := some { g with pins := pins, opened := s.clock.ns }, opening := none }
section
variable {s : State} {n : Nat} {f g : Frame}
theorem State.tryOpen_noTable (h : s.missing n f.ownptr.toNat f.tableSize = true) :
    s.tryOpen n f = s.frameWait n f f.ownptr.toNat f.tableSize := if_pos h
variable (h : ¬s.missing n f.ownptr.toNat f.tableSize = true)
include h
theorem State.tryOpen_badTable (ho : s.readOwners n f = none) : s.tryOpen n f = s.refuseFrame n f.rec_ 0x1E8 := by
  rw [State.tryOpen, if_neg h, ho]
  rfl
variable (ho : s.readOwners n f = some g)
include ho
/-- With its table read, a frame waits for its target or its spill area, or is open. -/
theorem State.tryOpen_table : s.tryOpen n f = if s.missing n g.rtbase.toNat g.targetSize then s.frameWait n g g.rtbase.toNat g.targetSize
    else if s.missing n g.spillptr.toNat g.spill then s.frameWait n g g.spillptr.toNat g.spill else s.opened n g := by
  obtain ⟨os, rfl, _⟩ := State.readOwners_spec ho
  rw [State.tryOpen, if_neg h, ho]
  show _ = if s.missing n f.rtbase.toNat f.targetSize = true then _ else if s.missing n f.spillptr.toNat f.spill = true then _ else _
  simp only [List.find?_cons, List.find?_nil]
  cases s.missing n f.rtbase.toNat f.targetSize with
  | true => rfl
  | false => cases s.missing n f.spillptr.toNat f.spill <;> rfl
theorem State.tryOpen_noTarget (ht : s.missing n g.rtbase.toNat g.targetSize = true) :
    s.tryOpen n f = s.frameWait n g g.rtbase.toNat g.targetSize := by
  rw [State.tryOpen_table h ho, if_pos ht]
variable (ht : ¬s.missing n g.rtbase.toNat g.targetSize = true)
include ht
theorem State.tryOpen_noSpill (hs : s.missing n g.spillptr.toNat g.spill = true) :
    s.tryOpen n f = s.frameWait n g g.spillptr.toNat g.spill := by
  rw [State.tryOpen_table h ho, if_neg ht, if_pos hs]
theorem State.tryOpen_opens {c : Ctx} (hc : s.ctx n = some c) (hs : ¬s.missing n g.spillptr.toNat g.spill = true) :
    ∃ x y, (s.tryOpen n f).ctx n = some x ∧ x.opening = none ∧ x.frame = some y ∧ y.owners = g.owners ∧ y.rec_ = f.rec_ ∧
      y.rtbase = f.rtbase ∧ y.regions = f.regions ∧ y.closing = f.closing := by
  rw [State.tryOpen_table h ho, if_neg ht, if_neg hs]
  obtain ⟨os, rfl, _⟩ := State.readOwners_spec ho
  refine ⟨_, _, State.ctx_modCtx hc _, rfl, rfl, ?_⟩
  exact ⟨rfl, rfl, rfl, rfl, rfl⟩
end

/-! ### RESANS (R522) -/

/-- The record of a residency answer: its place in the ring is the operand. -/
def ResRec.at (c : Ctx) (ptr : Nat) (r : ResRec) : Bool :=
  match r.n with
  | some n => c.rring + 32 * (n % 128) == ptr
  | none => false
theorem ResRec.at_iff {c : Ctx} {ptr : Nat} {r : ResRec} : r.at c ptr = true ↔ ∃ n, r.n = some n ∧ c.rring + 32 * (n % 128) = ptr := by
  unfold ResRec.at
  cases r.n with
  | none => simp
  | some n => simp
/-- A launch that waits for no range. -/
def Launch.waitless (l : Launch) : Launch := { l with awaits := none }
/-- The context without the record r. -/
def State.answered (s : State) (slot : Nat) (r : ResRec) : State :=
  s.modCtx slot fun c => { c with resRecs := c.resRecs.filter fun x => x != r }
/-- What a range that is there, or is not, does to a launch that waits for it. -/
def State.settled (s : State) (arg : Nat) (r : ResRec) (l : Launch) : State :=
  if bit arg 0 then s.modLaunch l.id Launch.waitless
  else if l.state == .resident then (s.modLaunch l.id Launch.waitless).refuse l.id 0x306 r.lidx
  else s.failLaunch l.id 0x306 (strikeTw {} 0x306)
theorem State.writeRes_none {u : State} {x : Ctx} (hx : u.ctx slot = some { x with resRecs := [] }) :
    u.writeRes slot (((u.ctx slot).map (·.resRecs)).getD []) = u := by
  rw [hx]
  rfl
/-- Launches that wait no more. -/
def State.release (s : State) (ls : List Launch) : State := ls.foldl (fun s l => s.modLaunch l.id Launch.waitless) s
theorem State.release_ctxs (s : State) (ls : List Launch) : (s.release ls).ctxs = s.ctxs := by
  refine foldl_keeps (P := fun t => t.ctxs = s.ctxs) ?_ rfl
  exact fun _ _ _ h => h
theorem State.release_host (s : State) (ls : List Launch) : (s.release ls).host = s.host := by
  refine foldl_keeps (P := fun t => t.host = s.host) ?_ rfl
  exact fun _ _ _ h => h
theorem State.release_mem (s : State) (ls : List Launch) : (s.release ls).mem = s.mem := by
  refine foldl_keeps (P := fun t => t.mem = s.mem) ?_ rfl
  exact fun _ _ _ h => h
/-- A launch that waits after the release did so before, and is none of those released. -/
theorem State.release_launches (ls : List Launch) {s : State} {l : Launch} (h : l ∈ (s.release ls).launches) :
    l.awaits = none ∨ (l ∈ s.launches ∧ ∀ x ∈ ls, x.id ≠ l.id) := by
  induction ls generalizing s with
  | nil => exact .inr ⟨h, fun x hx => absurd hx List.not_mem_nil⟩
  | cons x ls ih =>
    obtain hn | ⟨hl, hls⟩ := ih h
    · exact .inl hn
    · obtain ⟨y, hy, rfl⟩ := List.mem_map.mp hl
      by_cases hid : (y.id == x.id) = true
      · rw [if_pos hid]
        exact .inl rfl
      · rw [if_neg hid] at hls ⊢
        refine .inr ⟨hy, fun z hz => ?_⟩
        obtain rfl | hz := List.mem_cons.mp hz
        · exact fun e => hid (beq_iff_eq.mpr e.symm)
        · exact hls z hz
section
variable {s : State} {slot arg ptr : Nat} {c : Ctx} (hc : s.ctx slot = some c)
include hc
theorem State.resans_unknown (h : c.resRecs.find? (ResRec.at c ptr) = none) : s.resans slot arg ptr = (some (1, 0), s) := by
  unfold State.resans
  rw [hc]
  dsimp only
  split
  case h_1 => rfl
  case h_2 r hr => exact absurd (hr.symm.trans h) (by simp)
theorem State.resans_answers {r : ResRec} (h : c.resRecs.find? (ResRec.at c ptr) = some r) : ∃ u, s.resans slot arg ptr = (some (0, 0), u) := by
  unfold State.resans
  rw [hc]
  dsimp only
  split
  case h_1 hr => exact absurd (h.symm.trans hr) (by simp)
  case h_2 => exact ⟨_, rfl⟩
/-- The only record is answered, and no frame waits: what is left is that of the launches. -/
theorem State.resans_only {r : ResRec} (hr : c.resRecs = [r]) (hat : r.at c ptr = true) (ho : c.opening = none)
    (u : State) (hu : ((s.answered slot r).launches.filter fun l => l.ctx == slot && l.awaits == some (r.base, r.size)).foldl
      (fun s l => s.settled arg r l) (s.answered slot r) = u) (hx : u.ctxs = (s.answered slot r).ctxs) :
    s.resans slot arg ptr = (some (0, 0), u) := by
  have hfind : c.resRecs.find? (ResRec.at c ptr) = some r := by rw [hr, List.find?_cons_of_pos hat]
  have ht : (s.answered slot r).ctx slot = some { c with resRecs := [] } := by
    rw [State.answered, State.ctx_modCtx hc, hr, List.filter_cons_of_neg (by simp), List.filter_nil]
  have hux : u.ctx slot = some { c with resRecs := [] } := by
    rw [State.ctx, hx]
    exact ht
  unfold State.resans
  rw [hc]
  dsimp only
  split
  case h_1 h => exact absurd (hfind.symm.trans h) (by simp)
  case h_2 r' h =>
    obtain rfl : r = r' := Option.some.inj (hfind.symm.trans h)
    unfold State.answered at ht
    simp only [ht, Option.bind_some, ho]
    refine Eq.trans ?_ (congrArg done (State.writeRes_none (u := u) hux))
    rw [← hu]
    rfl
end

section
variable {s : State} {slot ptr : Nat} {arg : BitVec 46} {c : Ctx} (hc : s.ctx slot = some c) {r : ResRec} (hr : c.resRecs = [r])
  (hat : r.at c ptr = true) (ho : c.opening = none)
include hc hr hat ho
/-- The launches that wait for the record's range. -/
def State.waiting (s : State) (slot : Nat) (r : ResRec) : List Launch :=
  s.launches.filter fun l => l.ctx == slot && l.awaits == some (r.base, r.size)
theorem State.resans_resident (hb : arg.getLsbD 0 = true) :
    s.resans slot arg.toNat ptr = (some (0, 0), (s.answered slot r).release (s.waiting slot r)) := by
  refine State.resans_only hc hr hat ho _ ?_ (State.release_ctxs ..)
  have hbit : bit arg.toNat 0 = true := (bit_eq_testBit ..).trans hb
  simp only [State.settled, hbit, if_true, State.answered, State.modCtx_launches]
  rfl
theorem State.resans_absent (hb : arg.getLsbD 0 = false) {l : Launch} (hl : s.launches = [l]) (hlc : l.ctx = slot)
    (hla : l.awaits = some (r.base, r.size)) (hls : l.state = .resident) : s.resans slot arg.toNat ptr =
      (some (0, 0), ((s.answered slot r).modLaunch l.id Launch.waitless).refuse l.id 0x306 r.lidx) := by
  refine State.resans_only hc hr hat ho _ ?_ rfl
  have hbit : bit arg.toNat 0 = false := (bit_eq_testBit ..).trans hb
  have hmine : ((s.answered slot r).launches.filter fun l => l.ctx == slot && l.awaits == some (r.base, r.size)) = [l] := by
    rw [State.answered, State.modCtx_launches, hl, List.filter_cons_of_pos (by simp [hlc, hla]), List.filter_nil]
  rw [hmine, List.foldl_cons, List.foldl_nil, State.settled, hbit, if_neg Bool.false_ne_true, if_pos (beq_iff_eq.mpr hls)]
end

/-! ### QBIND (R523) -/

theorem State.qbind_eq (s : State) (slot arg : Nat) (ptr : BitVec 64) : s.qbind slot arg ptr.toNat =
    if ptr = 0 then (some (0, 0), s.setQueue slot (arg % 64) { s.queue slot (arg % 64) with ring := none })
    else if ptr.toNat % 256 ≠ 0 ∨ s.ringBad ptr.toNat = true then (some (1, 0), s)
    else (some (0, 0), s.setQueue slot (arg % 64) { s.queue slot (arg % 64) with
      ring := some (ptr.toNat, mread s.mem (ptr.toNat + 8) 4, mread s.mem (ptr.toNat + 128) 4) }) := by
  have hz : ptr = 0 ↔ ptr.toNat = 0 := ⟨fun h => congrArg BitVec.toNat h, fun h => BitVec.eq_of_toNat_eq h⟩
  simp only [State.qbind, hz, beq_iff_eq, Bool.or_eq_true, bne_iff_ne]
  rfl

/-! ### Migration (R525) -/

theorem State.stopCtx_keeps (s : State) (n : Nat) : (s.stopCtx n).ctxs = s.ctxs ∧ (s.stopCtx n).host = s.host := by
  refine foldl_keeps (P := fun t => t.ctxs = s.ctxs ∧ t.host = s.host) ?_ ⟨rfl, rfl⟩
  intro t k _ h
  dsimp only
  split <;> exact h
/-- The blocks of a context saved, and its lines written back. -/
def State.stowed (s : State) (n : Nat) : State :=
  ((s.blocks.filter fun k => k.ctx == n && !k.saved && !k.relaunch).foldl (fun s k => s.saveBlock k) s).flushAll n
theorem State.stowed_keeps (s : State) (n : Nat) : (s.stowed n).ctxs = s.ctxs ∧ (s.stowed n).host = s.host := by
  have h : ∀ l : List Block, (l.foldl (fun s k => s.saveBlock k) s).ctxs = s.ctxs ∧ (l.foldl (fun s k => s.saveBlock k) s).host = s.host := by
    intro l
    refine foldl_keeps (P := fun t => t.ctxs = s.ctxs ∧ t.host = s.host) ?_ ⟨rfl, rfl⟩
    exact fun _ _ _ h => h
  exact ⟨(State.flushAll_beside ..).ctxs.trans (h _).1, (State.flushAll_host ..).trans (h _).2⟩
section
variable {s : State} {slot ptr : Nat}
theorem State.migout_full (hf : s.freeVal.getLsbD 0 = true) : s.migout slot ptr = (some (4, 0), s.useFree) := if_pos hf
variable (hf : s.freeVal.getLsbD 0 = false)
include hf
theorem State.migout_waits (hr : (s.stopCtx slot).migReady slot = false) : s.migout slot ptr = (none, s.stopCtx slot) := by
  simp only [State.migout, hf, hr, Bool.not_false, Bool.false_eq_true, if_false, if_true]
theorem State.migout_leaves (hr : (s.stopCtx slot).migReady slot = true) {c : Ctx} (hc : s.ctx slot = some c) :
    ∃ u i, s.migout slot ptr = (some (0, 0), u) ∧ u.ctx slot = none ∧ tget u.images ptr = some i ∧ i.ctx = c ∧
      (∀ k ∈ i.blocks, k.ctx = slot) ∧ u.host = s.host := by
  have hkeep := (s.stopCtx slot).stowed_keeps slot
  have hstop := s.stopCtx_keeps slot
  have hstow : ((s.stopCtx slot).stowed slot).ctx slot = some c := by
    rw [State.ctx, hkeep.1, hstop.1]
    exact hc
  obtain ⟨hnone, _, _, _, _, hhost⟩ := ((s.stopCtx slot).stowed slot).evictCtx_gone slot
  unfold State.stowed State.flushAll at hstow
  simp only [State.migout, hf, hr, Bool.not_true, Bool.false_eq_true, if_false, hstow]
  refine ⟨_, _, rfl, hnone, tget_tput_same _ _ _, rfl, fun k hk => ?_, hhost.trans (hkeep.2.trans hstop.2)⟩
  exact beq_iff_eq.mp (List.of_mem_filter (p := fun k : Block => k.ctx == slot) hk)
end
theorem State.regrant_fixed {t : State} {slot : Nat} {vs : List (Nat × VcEntry)} (h : ∀ v ∈ vs, v.2.fix = true) :
    t.regrant slot vs = some t := by
  induction vs with
  | nil => rfl
  | cons v vs ih =>
    rw [State.regrant, h v List.mem_cons_self, Bool.true_or, if_pos rfl]
    exact ih fun w hw => h w (List.mem_cons_of_mem v hw)
/-- A slot into which an image is put, its shares not yet granted. -/
def State.imported (s : State) (slot ptr : Nat) (i : Image) : State :=
  { s with
    ctxs := tput s.ctxs slot { i.ctx with vcs := s.vcTable i.ctx.vctbase }
    launches := s.launches ++ i.launches.map fun l => { l with ctx := slot, awaits := none, cores := [] }
    blocks := s.blocks ++ i.blocks.map fun k => { k with ctx := slot }
    engs := s.engs ++ i.engs.map fun o => { o with ctx := slot }
    bars := s.bars ++ i.bars
    images := tdel s.images ptr
    power := { s.power with eloc := tdel s.power.eloc slot, erem := tdel s.power.erem slot, remPj := tdel s.power.remPj slot } }
section
variable {s : State} {slot ptr : Nat}
theorem State.migin_live (h : (s.ctx slot).isSome = true) : s.migin slot ptr = (some (2, 0), s) := if_pos h
variable (hn : s.ctx slot = none)
include hn
theorem State.migin_noImage (hi : tget s.images ptr = none) : s.migin slot ptr = (some (1, 0), s) := by
  simp only [State.migin, hn, Option.isSome_none, Bool.false_eq_true, if_false, hi]
variable {i : Image} (hi : tget s.images ptr = some i)
include hi
theorem State.migin_lowFloor (hm : meetsFloor s.ownFloor i.ctx.floor = false) : s.migin slot ptr = (some (3, 0), s) := by
  simp only [State.migin, hn, Option.isSome_none, Bool.false_eq_true, if_false, hi, hm, Bool.not_false, if_true]
variable (hm : meetsFloor s.ownFloor i.ctx.floor = true)
include hm
theorem State.migin_answers : ∃ u r, s.migin slot ptr = (some (r, 0), u) := by
  simp only [State.migin, hn, Option.isSome_none, Bool.false_eq_true, if_false, hi, hm, Bool.not_true]
  split
  · exact ⟨_, _, rfl⟩
  · exact ⟨_, _, rfl⟩
/-- An image whose VCs are fixed, with no launch that runs, is put into the slot as it is. -/
theorem State.migin_imports (hv : ∀ v ∈ s.vcTable i.ctx.vctbase, v.2.fix = true) (hl : ∀ l ∈ s.launches ++ i.launches, l.state ≠ .running) :
    s.migin slot ptr = (some (0, 0), s.imported slot ptr i) := by
  have hg : (s.imported slot ptr i).regrant slot (s.vcTable i.ctx.vctbase) = some (s.imported slot ptr i) := State.regrant_fixed hv
  have hnone : ((s.imported slot ptr i).launches.filter fun l => l.ctx == slot && l.state == .running) = [] := by
    refine List.filter_eq_nil_iff.mpr fun l hm => ?_
    rw [Bool.and_eq_true, beq_iff_eq, beq_iff_eq]
    rintro ⟨_, hrun⟩
    obtain hm | hm := List.mem_append.mp hm
    · exact hl l (List.mem_append_left _ hm) hrun
    · obtain ⟨x, hx, rfl⟩ := List.mem_map.mp hm
      exact hl x (List.mem_append_right _ hx) hrun
  unfold State.imported at *
  simp only [State.migin, hn, Option.isSome_none, Bool.false_eq_true, if_false, hi, hm, Bool.not_true, hg, hnone, List.foldl_nil]
  rfl
end

end Sys2Proof.Machine
end

section
/-! PROOFS. The commands of the host, as events (spec/22_host.md R521), and the statement about them (O49). -/

namespace Sys2Proof.Machine
open Sys2Proof.Safety

/-! ### The events as commands -/

section
variable (s : State) (slot : BitVec 10) (arg : BitVec 46) (ptr : BitVec 64)
theorem exec_create : exec (.create slot arg ptr) s = s.command 1 slot arg ptr fun s => s.create slot.toNat arg.toNat ptr.toNat := rfl
theorem exec_destroy : exec (.destroy slot arg ptr) s =
    s.command 2 slot arg ptr fun s => s.live slot.toNat fun _ s => done (s.destroy slot.toNat) := rfl
theorem exec_inval : exec (.inval slot arg ptr) s =
    s.command 3 slot arg ptr fun s => s.live slot.toNat fun _ s => s.inval slot.toNat arg.toNat ptr.toNat := rfl
theorem exec_frmopen : exec (.frmopen slot arg ptr) s =
    s.command 4 slot arg ptr fun s => s.live slot.toNat fun _ s => s.openFrame slot.toNat ptr.toNat := rfl
theorem exec_frmclose : exec (.frmclose slot arg ptr) s =
    s.command 5 slot arg ptr fun s => s.live slot.toNat fun _ s => done (s.modFrame slot.toNat Frame.close) := rfl
theorem exec_frmrel : exec (.frmrel slot arg ptr) s =
    s.command 6 slot arg ptr fun s => done { s with alias2 := tdel s.alias2 (ptr.toNat / 4096) } := rfl
theorem exec_resans : exec (.resans slot arg ptr) s = s.command 7 slot arg ptr fun s => s.resans slot.toNat arg.toNat ptr.toNat := rfl
theorem exec_qbind : exec (.qbind slot arg ptr) s =
    s.command 8 slot arg ptr fun s => s.live slot.toNat fun _ s => s.qbind slot.toNat arg.toNat ptr.toNat := rfl
theorem exec_migout : exec (.migout slot arg ptr) s =
    s.command 9 slot arg ptr fun s => s.live slot.toNat fun _ s => s.migout slot.toNat ptr.toNat := rfl
theorem exec_migin : exec (.migin slot arg ptr) s = s.command 10 slot arg ptr fun s => s.migin slot.toNat ptr.toNat := rfl
end

section
variable {s : State} {slot : BitVec 10} {arg : BitVec 46} {ptr : BitVec 64}

/-! ### CREATE, DESTROY -/

theorem execCreate_live (h : Commanded s 1 slot arg ptr) (hs : (s.ctx slot.toNat).isSome = true) :
    exec (.create slot arg ptr) s = .next (answers s 2 0) :=
  (exec_create ..).trans (State.command_answers h (State.create_live hs))
theorem execCreate_badRecord (h : Commanded s 1 slot arg ptr) (hn : s.ctx slot.toNat = none) (hb : ¬goodCtxRec s ptr) :
    exec (.create slot arg ptr) s = .next (answers s 1 0x309) :=
  (exec_create ..).trans (State.command_answers h (State.create_badRecord hn hb))
/-- The fields of a context that a good record describes (R271). -/
theorem ctxOf_record {p : Nat} {able : Bool} (hb : ctxRecBad (s.physWords p 8) able = false) (floor : List DWord) (m : Nat) :
    let w := fun i => mread s.mem (p + 8 * i) 8
    let c := ctxOf (s.physWords p 8) floor m
    c.ptroot = w 0 ∧ c.btbase = w 1 ∧ c.vctbase = w 2 ∧ c.priomax = w 3 / 2 ^ 49 % 2 ^ 7 ∧ c.fixed = (w 3).testBit 48 ∧
      c.strict = (w 3).testBit 47 ∧ c.mergef = (w 3).testBit 46 ∧ c.wto = w 3 / 2 ^ 40 % 2 ^ 6 ∧ c.grace = w 3 / 2 ^ 16 % 2 ^ 16 ∧
      c.savebase = w 4 ∧ c.savesize = w 5 ∧ c.rring = w 7 := by
  intro w c
  have hw : ∀ i < 8, (lget (s.physWords p 8) i).getD 0 = w i := fun i hi => by rw [lget_physWords s p 8 i hi, Option.getD_some]
  have hbit : ∀ n, bit ((lget (s.physWords p 8) 3).getD 0) n = (w 3).testBit n := fun n => by rw [hw 3 (by decide), bit_eq_testBit]
  have hfield : ∀ hi lo, bits ((lget (s.physWords p 8) 3).getD 0) hi lo = bits (w 3) hi lo := fun hi lo => by rw [hw 3 (by decide)]
  exact ⟨page_of_record hb (by decide), page_of_record hb (by decide), page_of_record hb (by decide), hfield 55 49, hbit 48, hbit 47, hbit 46,
    hfield 45 40, hfield 31 16, page_of_record hb (by decide), hw 5 (by decide), page_of_record hb (by decide)⟩
theorem execCreate_good (h : Commanded s 1 slot arg ptr) (hn : s.ctx slot.toNat = none) (hg : goodCtxRec s ptr)
    (hf : mread s.mem (ptr.toNat + 48) 8 = 0) :
    let w := fun i => mread s.mem (ptr.toNat + 8 * i) 8
    ∃ t c, exec (.create slot arg ptr) s = .next t ∧ t.host = (answers s 0 0).host ∧ t.ctx slot.toNat = some c ∧
      c.ptroot = w 0 ∧ c.btbase = w 1 ∧ c.vctbase = w 2 ∧ c.priomax = w 3 / 2 ^ 49 % 2 ^ 7 ∧ c.fixed = (w 3).testBit 48 ∧
      c.strict = (w 3).testBit 47 ∧ c.mergef = (w 3).testBit 46 ∧ c.wto = w 3 / 2 ^ 40 % 2 ^ 6 ∧ c.grace = w 3 / 2 ^ 16 % 2 ^ 16 ∧
      c.savebase = w 4 ∧ c.savesize = w 5 ∧ c.rring = w 7 ∧ c.queues = [] ∧ c.floor = s.ownFloor ∧
      (∀ i < 4, tget c.vcs i = some ⟨true, 0, 0, true, 0, [], none⟩) ∧ (∀ i, 4 ≤ i → tget c.vcs i = none) ∧
      tget t.power.eloc slot.toNat = none ∧ tget t.power.erem slot.toNat = none := by
  intro w
  obtain ⟨hal, hb⟩ := hg
  obtain ⟨hctx, hhost, hpower⟩ := putVcs_spec fixedVc (List.range 4)
    (s := s.slotted slot.toNat (ctxOf (s.physWords ptr.toNat 8) s.ownFloor (arg.toNat % 65536))) (tget_tput_same _ _ _)
  obtain ⟨h0, h1, h2, hprio, hfix, hstrict, hmerge, hwto, hgrace, h4, h5, h7⟩ := ctxOf_record hb s.ownFloor (arg.toNat % 65536)
  have hvcs := tget_foldl_tput fixedVc (List.range 4) []
  have henergy : ∀ {p : Power}, p = (s.slotted slot.toNat (ctxOf (s.physWords ptr.toNat 8) s.ownFloor (arg.toNat % 65536))).power →
      tget p.eloc slot.toNat = none ∧ tget p.erem slot.toNat = none := by
    rintro _ rfl
    exact ⟨tget_tdel_same _ _, tget_tdel_same _ _⟩
  refine ⟨_, _, (exec_create ..).trans (State.command_answers h (State.create_good hn hal hb hf)), ?_, hctx, h0, h1, h2, hprio, hfix,
    hstrict, hmerge, hwto, hgrace, h4, h5, h7, rfl, rfl, fun i hi => ?_, fun i hi => ?_, (henergy hpower).1, (henergy hpower).2⟩
  · unfold answers
    dsimp only
    rw [hhost]
    rfl
  · exact (hvcs i).trans (if_pos (List.mem_range.mpr hi))
  · exact (hvcs i).trans (if_neg fun hm => absurd (List.mem_range.mp hm) (Nat.not_lt.mpr hi))
theorem execDestroy_live (h : Commanded s 2 slot arg ptr) (hs : (s.ctx slot.toNat).isSome = true) :
    exec (.destroy slot arg ptr) s = .next (answers (s.destroy slot.toNat) 0 0) := by
  obtain ⟨c, hc⟩ := Option.isSome_iff_exists.mp hs
  exact (exec_destroy ..).trans (State.command_live hc h rfl)

/-! ### INVAL -/

theorem execInval_bad (h : Commanded s 3 slot arg ptr) (hs : (s.ctx slot.toNat).isSome = true)
    (hb : arg.toNat / 2 ^ 40 < 12 ∨ 48 < arg.toNat / 2 ^ 40 ∨ ptr.toNat % 2 ^ (arg.toNat / 2 ^ 40) ≠ 0) :
    exec (.inval slot arg ptr) s = .next (answers s 1 0) := by
  obtain ⟨c, hc⟩ := Option.isSome_iff_exists.mp hs
  exact (exec_inval ..).trans (State.command_live hc h (State.inval_bad hb))
theorem execInval_good (h : Commanded s 3 slot arg ptr) (hs : (s.ctx slot.toNat).isSome = true) (h12 : 12 ≤ arg.toNat / 2 ^ 40)
    (h48 : arg.toNat / 2 ^ 40 ≤ 48) (hal : ptr.toNat % 2 ^ (arg.toNat / 2 ^ 40) = 0) (hp : ptr.toNat < 2 ^ 56) :
    let last := ptr.toNat + 2 ^ (arg.toNat / 2 ^ 40)
    let hit := fun (e : TlbEntry) => e.ctx = slot.toNat ∧ e.vpn / e.pages * e.pages * 4096 < last ∧
      ptr.toNat < (e.vpn / e.pages * e.pages + e.pages) * 4096
    let used := fun (va : DWord) => ptr.toNat ≤ va.toNat % 2 ^ 56 ∧ va.toNat % 2 ^ 56 < last
    let busy := (∃ q ∈ s.reqs, q.ctx = slot.toNat ∧ used q.va) ∨ ∃ k ∈ s.blocks, k.ctx = slot.toNat ∧ ∃ e ∈ k.sbuf, used e.va
    ∃ t, exec (.inval slot arg ptr) s = .next t ∧ t.mem = s.mem ∧ (∀ c, ∀ e ∈ (t.core c).tlb, ¬hit e) ∧
      (∀ p ∈ t.tlb2, ∀ e ∈ p.2, ¬hit e) ∧ (¬busy → t.host = (answers s 0 0).host) ∧ (busy → t.host = s.host) := by
  intro last hit used busy
  obtain ⟨c, hc⟩ := Option.isSome_iff_exists.mp hs
  have hin := (State.live_some (on := fun _ s => s.inval slot.toNat arg.toNat ptr.toNat) hc).trans (State.inval_good h12 h48 hal hp)
  have hbusy : s.using slot.toNat ptr.toNat last = true ↔ busy := State.using_iff
  have hhit : ∀ e : TlbEntry, e.meets slot.toNat (ptr.toNat / 4096) (2 ^ (arg.toNat / 2 ^ 40 - 12)) = false → ¬hit e := fun e he hh => by
    rw [(TlbEntry.meets_iff h12 hal).mpr hh] at he
    cases he
  cases hu : s.using slot.toNat ptr.toNat last with
  | true =>
    rw [hu, if_pos rfl] at hin
    exact ⟨_, (exec_inval ..).trans (State.command_continues h hin), rfl, fun c e he => hhit e (State.untranslate_core c e he),
      fun x hx e he => hhit e (State.untranslate_tlb2 x hx e he), fun hn => absurd (hbusy.mp hu) hn, fun _ => rfl⟩
  | false =>
    rw [hu, if_neg Bool.false_ne_true] at hin
    refine ⟨_, (exec_inval ..).trans (State.command_answers h hin), rfl, fun c e he => hhit e (State.untranslate_core c e he),
      fun x hx e he => hhit e (State.untranslate_tlb2 x hx e he), fun _ => rfl, fun hb => ?_⟩
    rw [hbusy.mpr hb] at hu
    cases hu

/-! ### Frames -/

section
variable {c : Ctx} (hc : s.ctx slot.toNat = some c)
include hc
theorem execFrmopen_answers {u : State} {r : Nat} (h : Commanded s 4 slot arg ptr) (ho : s.openFrame slot.toNat ptr.toNat = (some (r, 0), u)) :
    exec (.frmopen slot arg ptr) s = .next (answers u r 0) :=
  (exec_frmopen ..).trans (State.command_live hc h ho)
theorem execFrmclose_live (h : Commanded s 5 slot arg ptr) :
    exec (.frmclose slot arg ptr) s = .next (answers (s.modFrame slot.toNat Frame.close) 0 0) :=
  (exec_frmclose ..).trans (State.command_live hc h rfl)

/-! ### Residency answers, rings, migration -/

omit hc in
theorem execResans_answers {u : State} {r : Nat} (h : Commanded s 7 slot arg ptr)
    (hr : s.resans slot.toNat arg.toNat ptr.toNat = (some (r, 0), u)) : exec (.resans slot arg ptr) s = .next (answers u r 0) :=
  (exec_resans ..).trans (State.command_answers h hr)
omit hc in
theorem State.resans_dead {n a p : Nat} (hn : s.ctx n = none) : s.resans n a p = (some (2, 0), s) := by
  rw [State.resans, hn]
theorem execResans_unknown (h : Commanded s 7 slot arg ptr)
    (hr : ∀ r ∈ c.resRecs, ∀ n, r.n = some n → c.rring + 32 * (n % 128) ≠ ptr.toNat) :
    exec (.resans slot arg ptr) s = .next (answers s 1 0) := by
  refine execResans_answers h (State.resans_unknown hc (List.find?_eq_none.mpr fun r hm hat => ?_))
  obtain ⟨n, hn, he⟩ := ResRec.at_iff.mp hat
  exact hr r hm n hn he
theorem execResans_known (h : Commanded s 7 slot arg ptr) {r : ResRec} (hm : r ∈ c.resRecs) (hat : r.at c ptr.toNat = true) :
    ∃ u, exec (.resans slot arg ptr) s = .next (answers u 0 0) := by
  obtain ⟨x, hx⟩ := Option.isSome_iff_exists.mp (List.find?_isSome.mpr ⟨r, hm, hat⟩)
  obtain ⟨u, hu⟩ := State.resans_answers (arg := arg.toNat) hc hx
  exact ⟨u, execResans_answers h hu⟩
section
variable {r : ResRec} (h : Commanded s 7 slot arg ptr) (hr : c.resRecs = [r]) (hat : r.at c ptr.toNat = true) (ho : c.opening = none)
include h hr hat ho
theorem execResans_resident (hb : arg.getLsbD 0 = true) : ∃ t x, exec (.resans slot arg ptr) s = .next t ∧ t.host = (answers s 0 0).host ∧
    t.ctx slot.toNat = some x ∧ x.resRecs = [] ∧ (∀ l ∈ t.launches, l.ctx = slot.toNat → l.awaits ≠ some (r.base, r.size)) ∧
    t.mem = s.mem := by
  have hhost : ((s.answered slot.toNat r).release (s.waiting slot.toNat r)).host = s.host := (State.release_host ..).trans (State.modCtx_host ..)
  have hctx : ((s.answered slot.toNat r).release (s.waiting slot.toNat r)).ctx slot.toNat =
      some { c with resRecs := c.resRecs.filter fun x => x != r } := by
    rw [State.ctx, State.release_ctxs]
    exact State.ctx_modCtx hc _
  refine ⟨_, _, execResans_answers h (State.resans_resident hc hr hat ho hb), ?_, hctx, ?_, fun l hl hlc hla => ?_,
    (State.release_mem ..).trans (State.modCtx_mem ..)⟩
  · unfold answers
    dsimp only
    rw [hhost]
  · rw [hr]
    exact (List.filter_cons_of_neg (p := fun x => x != r) (by simp)).trans List.filter_nil
  · obtain hn | ⟨hm, hne⟩ := State.release_launches _ hl
    · rw [hn] at hla
      cases hla
    · rw [State.answered, State.modCtx_launches] at hm
      exact hne l (List.mem_filter.mpr ⟨hm, by simp [hlc, hla]⟩) rfl
theorem execResans_absent (hb : arg.getLsbD 0 = false) {l : Launch} (hl : s.launches = [l]) (hlc : l.ctx = slot.toNat)
    (hla : l.awaits = some (r.base, r.size)) (hls : l.state = .resident) :
    ∃ u : State, exec (.resans slot arg ptr) s = .next (answers (u.refuse l.id 0x306 r.lidx) 0 0) ∧ u.launches = [{ l with awaits := none }] := by
  refine ⟨_, execResans_answers h (State.resans_absent hc hr hat ho hb hl hlc hla hls), ?_⟩
  rw [State.modLaunch, State.answered, State.modCtx_launches, hl]
  simp only [List.map_cons, List.map_nil, beq_self_eq_true, if_true]
  rfl
end
theorem execQbind_eq (h : Commanded s 8 slot arg ptr) :
    let q := arg.toNat % 64
    exec (.qbind slot arg ptr) s = .next (if ptr = 0 then answers (s.setQueue slot.toNat q { s.queue slot.toNat q with ring := none }) 0 0
      else if ptr.toNat % 256 ≠ 0 ∨ s.ringBad ptr.toNat = true then answers s 1 0
      else answers (s.setQueue slot.toNat q { s.queue slot.toNat q with
        ring := some (ptr.toNat, mread s.mem (ptr.toNat + 8) 4, mread s.mem (ptr.toNat + 128) 4) }) 0 0) := by
  intro q
  have hq := s.qbind_eq slot.toNat arg.toNat ptr
  have hrun : ∀ {r : Nat} {u : State}, s.qbind slot.toNat arg.toNat ptr.toNat = (some (r, 0), u) →
      exec (.qbind slot arg ptr) s = .next (answers u r 0) :=
    fun hu => (exec_qbind ..).trans (State.command_live hc h hu)
  split at hq
  case isTrue hz => rw [hrun hq, if_pos hz]
  case isFalse hz =>
    rw [if_neg hz]
    split at hq
    case isTrue hb => rw [hrun hq, if_pos hb]
    case isFalse hb => rw [hrun hq, if_neg hb]
theorem execMigout_answers {u : State} {r : Nat} (h : Commanded s 9 slot arg ptr) (hm : s.migout slot.toNat ptr.toNat = (some (r, 0), u)) :
    exec (.migout slot arg ptr) s = .next (answers u r 0) :=
  (exec_migout ..).trans (State.command_live hc h hm)
theorem execMigout_waits (h : Commanded s 9 slot arg ptr) (hf : s.freeVal.getLsbD 0 = false)
    (hr : (s.stopCtx slot.toNat).migReady slot.toNat = false) : exec (.migout slot arg ptr) s = .next (s.stopCtx slot.toNat) :=
  (exec_migout ..).trans (State.command_continues h ((State.live_some hc).trans (State.migout_waits hf hr)))
theorem execMigout_leaves (h : Commanded s 9 slot arg ptr) (hf : s.freeVal.getLsbD 0 = false)
    (hr : (s.stopCtx slot.toNat).migReady slot.toNat = true) : ∃ t i, exec (.migout slot arg ptr) s = .next t ∧ t.ctx slot.toNat = none ∧
      tget t.images ptr.toNat = some i ∧ i.ctx = c ∧ (∀ k ∈ i.blocks, k.ctx = slot.toNat) ∧ t.host.busy = (answers s 0 0).host.busy := by
  obtain ⟨u, i, hu, hn, hi, hic, hk, hhost⟩ := State.migout_leaves (ptr := ptr.toNat) hf hr hc
  refine ⟨_, i, execMigout_answers hc h hu, hn, hi, hic, hk, ?_⟩
  unfold answers
  dsimp only
  rw [hhost]
end
theorem execMigin_answers {u : State} {r : Nat} (h : Commanded s 10 slot arg ptr) (hm : s.migin slot.toNat ptr.toNat = (some (r, 0), u)) :
    exec (.migin slot arg ptr) s = .next (answers u r 0) :=
  (exec_migin ..).trans (State.command_answers h hm)
theorem execMigin_imports (h : Commanded s 10 slot arg ptr) (hn : s.ctx slot.toNat = none) {i : Image} (hi : tget s.images ptr.toNat = some i)
    (hm : meetsFloor s.ownFloor i.ctx.floor = true) (hv : ∀ v ∈ s.vcTable i.ctx.vctbase, v.2.fix = true)
    (hl : ∀ l ∈ s.launches ++ i.launches, l.state ≠ .running) :
    ∃ t c, exec (.migin slot arg ptr) s = .next t ∧ t.ctx slot.toNat = some c ∧ c.ptroot = i.ctx.ptroot ∧ c.queues = i.ctx.queues ∧
      c.floor = i.ctx.floor ∧ c.vcs = s.vcTable i.ctx.vctbase ∧ (∀ k ∈ i.blocks, { k with ctx := slot.toNat } ∈ t.blocks) ∧
      tget t.images ptr.toNat = none ∧ t.host = (answers s 0 0).host :=
  ⟨_, _, execMigin_answers h (State.migin_imports hn hi hm hv hl), tget_tput_same _ _ _, rfl, rfl, rfl, rfl,
    fun _ hk => List.mem_append_right _ (List.mem_map_of_mem hk), tget_tdel_same _ _, rfl⟩
end

/-- Settles O49: each command by what it does when it is the one in progress, on a live slot or none. -/
theorem hostCommands : Obligations.HostCommands := by
  refine ⟨fun s slot arg ptr => execCreate_live, fun s slot arg ptr => execCreate_badRecord, fun s slot arg ptr => execCreate_good,
    fun s slot arg ptr hn => ⟨fun h => (exec_destroy ..).trans (State.command_dead hn h),
      fun h => (exec_inval ..).trans (State.command_dead hn h), fun h => (exec_frmopen ..).trans (State.command_dead hn h),
      fun h => (exec_frmclose ..).trans (State.command_dead hn h), fun h => execResans_answers h (State.resans_dead hn),
      fun h => (exec_qbind ..).trans (State.command_dead hn h), fun h => (exec_migout ..).trans (State.command_dead hn h)⟩,
    fun s slot arg ptr => execDestroy_live, fun s n => ?destroy, fun s slot arg ptr => execInval_bad, fun s slot arg ptr => execInval_good,
    fun s slot arg ptr h => (exec_frmrel ..).trans (State.command_answers h rfl),
    fun s slot arg ptr c hc h => ⟨fun hal => ?misaligned, fun hal => ⟨fun hf => ?record,
      fun f hf => ⟨fun hb => ?busy, fun hfr ho => ?opens⟩⟩⟩, fun s pa f => State.parseFrame_spec, fun s n f c hc => ?tries,
    fun s n f g h => ?owners, fun s slot arg ptr h hs => ?closes, fun s slot arg ptr c h hc => execResans_unknown hc h,
    fun s slot arg ptr c r n h hc hm hn he => execResans_known hc h hm (ResRec.at_iff.mpr ⟨n, hn, he⟩),
    fun s slot arg ptr c r n h hc hr hn he ho => ⟨execResans_resident hc h hr (ResRec.at_iff.mpr ⟨n, hn, he⟩) ho,
      fun hb l => execResans_absent hc h hr (ResRec.at_iff.mpr ⟨n, hn, he⟩) ho hb⟩,
    fun s slot arg ptr h hs => ?qbind, fun s slot arg ptr c h hc => ⟨fun hf => execMigout_answers hc h (State.migout_full hf),
      execMigout_waits hc h, execMigout_leaves hc h⟩, fun s slot arg ptr h => ⟨fun hs => execMigin_answers h (State.migin_live hs),
      fun hn hi => execMigin_answers h (State.migin_noImage hn hi), fun hn i hi => ⟨fun hm => execMigin_answers h (State.migin_lowFloor hn hi hm),
        fun hm => ?answers, execMigin_imports h hn hi⟩⟩, fun s slot arg ptr =>
      ⟨fun h => (exec_create ..).trans (State.command_keeps h),
        fun h => (exec_destroy ..).trans (State.command_keeps h),
        fun h => (exec_inval ..).trans (State.command_keeps h),
        fun h => (exec_frmopen ..).trans (State.command_keeps h),
        fun h => (exec_frmclose ..).trans (State.command_keeps h),
        fun h => (exec_frmrel ..).trans (State.command_keeps h),
        fun h => (exec_resans ..).trans (State.command_keeps h),
        fun h => (exec_qbind ..).trans (State.command_keeps h),
        fun h => (exec_migout ..).trans (State.command_keeps h),
        fun h => (exec_migin ..).trans (State.command_keeps h)⟩⟩
  case destroy =>
    obtain ⟨hc, hk, hl, hq, ho, _⟩ := State.evictCtx_gone _ n
    exact ⟨hc, hk, hl, hq, ho⟩
  case misaligned => exact execFrmopen_answers hc h (State.openFrame_misaligned hal)
  case record => exact execFrmopen_answers hc h (State.openFrame_badRecord hal hf)
  case busy => exact execFrmopen_answers hc h (State.openFrame_busy hal hc hf hb)
  case opens => exact execFrmopen_answers hc h (State.openFrame_tries hal hc hf hfr ho)
  case tries =>
    refine ⟨fun hm => ?_, fun hm ho => State.tryOpen_badTable hm ho, fun hm g ho => ⟨fun ht => ?_, fun ht hs => ?_, fun ht hs => ?_⟩⟩
    · rw [State.tryOpen_noTable hm]
      exact State.frameWait_spec hc
    · rw [State.tryOpen_noTarget hm ho ht]
      exact State.frameWait_spec hc
    · rw [State.tryOpen_noSpill hm ho ht hs]
      exact State.frameWait_spec hc
    · exact State.tryOpen_opens hm ho ht hc hs
  case owners =>
    obtain ⟨os, rfl, hlen, hos⟩ := State.readOwners_spec h
    exact ⟨hlen, rfl, hos⟩
  case closes =>
    obtain ⟨c, hc⟩ := Option.isSome_iff_exists.mp hs
    exact execFrmclose_live hc h
  case qbind =>
    obtain ⟨c, hc⟩ := Option.isSome_iff_exists.mp hs
    exact execQbind_eq hc h
  case answers =>
    obtain ⟨u, r, hu⟩ := State.migin_answers hn hi hm
    exact ⟨u, r, execMigin_answers h hu⟩

end Sys2Proof.Machine
end
